-- ==== Sys2Proof/Word.lean ====
section
/-! DEFINITION. Word.lean: the word types of the GZT128 (spec/00_scope.md, Notation) and nothing else.
Every bit-field, sign-extension and byte-order helper stands in Machine/Bits.lean. -/

namespace Sys2Proof

/-- A byte. -/
abbrev Byte := BitVec 8

/-- A synapse word: 16 bits (00, Notation). -/
abbrev SynWord := BitVec 16

/-- A register word: 32 bits (00, Notation). An F32 value (02 R34) is held as its 32 bits. -/
abbrev Word32 := BitVec 32

/-- A 64-bit word: an event word, a descriptor word, a 64-bit register. -/
abbrev Word64 := BitVec 64

/-- A logical core number C0 to C15 of sectors S0 to S7: sector * 16 + index (00 R3). -/
abbrev CoreId := Fin 128

/-- A sector S0 to S7 (00 R3). -/
abbrev SectorId := Fin 8

/-- A network slot 0 to 15 (05 R119). -/
abbrev NetId := Fin 16

/-- A mailbox: MB0 to MB7 are 0 to 7, MM0 and MM1 are 8 and 9 (20 R505). -/
abbrev MboxId := Fin 10

/-- A fabric port OXP0 to OXP11 (00 R4). -/
abbrev PortId := Fin 12

/-- A stream context STC0 to STC31 (00 R4). -/
abbrev StcId := Fin 32

/-- A timer channel TMR0 to TMR15 (00 R4). -/
abbrev TimerId := Fin 16

/-- A flow context index (11 R283). -/
abbrev FlowId := Fin 49152

/-- A GDDR6 controller GC0 to GC11 (00 R4). -/
abbrev GcId := Fin 12

end Sys2Proof
end

