-- ==== Sys2Proof/Syntax.lean ====
section
/-! DEFINITION. Syntax.lean: the commands of the GZT128 modelled as a block, one constructor for each row of
spec/opcode_table.json, in the table's order. A row's operands name the unit it acts on and carry what reaches the
device from outside it (a value written by the host, bytes read from host memory over PCIe, a level on a pin, a sensor
reading, the outcome of an error check on a received word). Everything else a row needs it finds in the state. -/

namespace Sys2Proof

/-- What the ECC check of a word or block finds (09 R240, 12 R305): a physical fact of the access. -/
inductive EccResult where
  | clean | corrected | uncorrectable | tagMismatch
  deriving DecidableEq, Repr

/-- One access of the core sequencer: it fetches and executes the instruction at its program counter, or performs a
bank atomic on a sector-memory address (03 R86, 09 R239). -/
inductive SeqOp where
  | execute
  | atomic (kind : Fin 5) (addr : Word32) (operand : Word64)
  deriving DecidableEq, Repr

/-- The requester of a bank access, in the fixed priority order of 09 R237; index 16 is the spare. The last two own port B
of banks 0 and 1 (R236). -/
inductive BankReq where
  | descEngine
  | plasticity (idx : Fin 17)
  | sequencer (idx : Fin 17)
  | syncUnit
  | router
  deriving DecidableEq, Repr

/-- A bank operation (09 R236, R239): read, write of `width` bytes, or one of the five atomics ADD32, ADD64, ADDF32,
SWAP32, SWAP64 (0 to 4). -/
inductive BankOp where
  | read (width : Nat)
  | write (width : Nat) (data : BitVec 128)
  | atomic (kind : Fin 5) (operand : Word64)
  deriving DecidableEq, Repr

/-- What a request asks of a bank: the byte of the bank, the operation, and what the ECC check of its words finds. -/
structure BankUse where
  /-- byte of the bank -/
  ofs : Fin 131072
  /-- operation -/
  op : BankOp
  /-- ECC check -/
  ecc : EccResult
  deriving DecidableEq, Repr

/-- One request presented to a bank in a cycle, and who makes it. -/
structure BankCall extends BankUse where
  /-- requester -/
  who : BankReq
  deriving DecidableEq, Repr

/-- A GDDR6 block request (12 R306, R307): a read, or a write of the bytes `mask` selects. -/
inductive GddrOp where
  | read
  | write (mask : Word64) (data : List Byte)
  deriving DecidableEq, Repr

/-- The traffic classes of 12 R316, numbered as 20 R513 numbers them. -/
inductive GddrClass where
  | system | fabric | paging | compute | host
  deriving DecidableEq, Repr

/-- The check of a received frame (11 R273). -/
inductive FrameCheck where
  | good | fecCorrected | fecUncorrectable | crcError
  deriving DecidableEq, Repr

/-- What a TIME frame carries beside its times (11 R271, R298): whether it answers, its link word, and its check. -/
structure TimeFrame where
  /-- an answer with T2 and T3, not an initiator's T1 -/
  answer : Bool
  /-- LACK -/
  lack : Byte
  /-- LRETRY -/
  lretry : Bool
  /-- CVC -/
  cvc : Fin 3
  /-- CREDIT -/
  credit : Nat
  /-- check of the frame -/
  check : FrameCheck
  deriving DecidableEq, Repr

/-- A trigger that moves an UP port to RETRAIN (11 R270). -/
inductive RetrainCause where
  | blockLock | symbolErrors | resends
  deriving DecidableEq, Repr

/-- The rails watched by the supply supervisors (16 R411). -/
inductive Rail where
  | vcore | vaux
  deriving DecidableEq, Repr

/-- A crossing of a rail's warning threshold (16 R412): below it, or above it again. -/
structure RailCrossing where
  /-- rail -/
  rail : Rail
  /-- the rail is now below its threshold -/
  below : Bool
  deriving DecidableEq, Repr

/-- A new level of a line input, shown by `samples` + 1 consecutive kernel samples (15 R394). -/
structure PinEdge where
  /-- the new level is high -/
  rising : Bool
  /-- samples after the first -/
  samples : Fin 16
  deriving DecidableEq, Repr

/-- The reset pins (17 R439). -/
inductive ResetPin where
  | perst | reset
  deriving DecidableEq, Repr

/-- The wake stages of 16 R419, in order. -/
inductive WakeStage where
  | regulator | oscillator | memory | logic
  deriving DecidableEq, Repr

/-- A fault source with its unit, as the table of 18 R458 lists them: with it the low word of the mismatching signature, the
slice that mismatched in the test of a core at once, and the segments that failed in the test of a bank. -/
inductive FaultSource where
  | supplyNotice | thermalNotice
  | laneDegrade (port : PortId) | portFailed (port : PortId)
  | selftestMismatch (sector : SectorId) (phys : Fin 17) (misr : BitVec 32)
  | bankUnrepairable (sector : SectorId) (bank : Fin 64)
  | halyardFenced (south : Bool)
  | coreMemory (core : CoreId) (addr : Nat) (mismatch : Option (Fin 12))
  | sectorMemory (sector : SectorId) (offset : Nat) (failed : BitVec 8)
  | gddrBlock (addr : Nat)
  | meshLink (sector : SectorId) (link : Fin 5)
  | gddrChannel (gc : GcId)
  | numeric (core : CoreId)
  deriving DecidableEq, Repr

/-- A global control write (18 R472), with the Halyard that makes it. -/
inductive GlobalWrite where
  | coreMap (core : CoreId) (value : Word32)
  | sectorClock (sector : SectorId) (op : Fin 4)
  | powerSwitch (sector : SectorId) (on : Bool)
  | stepControl (net : NetId) (armed : Bool)
  | tickLine (net : NetId)
  | mailboxAccept (mb : MboxId) (value : Word32)
  | completionSlot (mb : MboxId) (place : Fin 64) (bytes : List Byte)
  | journalHead (mb : MboxId) (value : Word64)
  | systemArea (addr : Nat) (bytes : List Byte)
  deriving DecidableEq, Repr

/-- A JTAG operation (18 R448, 19 R476). -/
inductive JtagOp where
  | boundaryScan | idcode | extest6
  | scanOrdinary | scanSecure | debugAccess (addr : Word64)
  deriving DecidableEq, Repr

/-- An MCTP control message as far as the spec describes it (19 R488, R489). -/
inductive MctpControl where
  | setEndpointId (eid : Byte)
  | getEndpointId
  | other (code : Byte)
  deriving DecidableEq, Repr

/-- A PLDM monitoring and control request (19 R491). -/
inductive PldmMonitor where
  | getSensorReading (sensor : Nat)
  | setEventReceiver (eid : Byte)
  deriving DecidableEq, Repr

/-- A PCIe configuration request of 17 R440 as far as the spec gives it an effect. -/
inductive ConfigOp where
  | read (offset : Nat)
  | setBar0 (base : Word64)
  | setBar2 (base : Word64) (sizeLog2 : Fin 9)
  | setBusMaster (on : Bool)
  | setMsixEnable (on : Bool) (functionMask : Bool)
  | setPowerD3hot (d3 : Bool)
  | setEcrc (on : Bool)
  deriving DecidableEq, Repr

/-- Why a received TLP is discarded (13 R323). -/
inductive TlpDiscard where
  | ecrc | poisonedWrite
  deriving DecidableEq, Repr

/-- The kind of a PCIe link event that resets the configuration space (13 R321). -/
inductive LinkResetKind where
  | hotReset | linkDisable | linkDown
  deriving DecidableEq, Repr

/-- One command of the block: one row of spec/opcode_table.json. -/
inductive Instr where
  -- mailboxes and the firmware command set (13, 14)
  | commandSlotWrite (mb : Fin 8) (offset : Fin 4096) (bytes : List Byte)
  | mbPost (mb : Fin 8) (value : Word32)
  | mailboxDecision (mb : MboxId)
  | mbConsumedWrite (mb : Fin 8) (high : Bool) (value : Word32)
  | hello (mb : MboxId)
  | getInfo (mb : MboxId)
  | loadImage (mb : MboxId) (hostData : List Byte)
  | unloadImage (mb : MboxId)
  | bindStream (mb : MboxId)
  | unbindStream (mb : MboxId)
  | setStepSource (mb : MboxId)
  | run (mb : MboxId)
  | haltRun (mb : MboxId)
  | writeWeights (mb : MboxId) (hostData : List Byte)
  | readWeights (mb : MboxId)
  | applyUpdates (mb : MboxId)
  | checkpoint (mb : MboxId)
  | restore (mb : MboxId)
  | openFlow (mb : MboxId)
  | closeFlow (mb : MboxId)
  | setPowerState (mb : MboxId)
  | resetCompute (mb : MboxId)
  | runSelftest (mb : MboxId) (mismatch : Option (Fin 17)) (signature : Word64)
  | readCounters (mb : MboxId)
  | setEnsign (mb : MboxId)
  | enterEnsign (mb : MboxId)
  | leaveEnsign (mb : MboxId)
  | debugHalt (mb : MboxId)
  | debugResume (mb : MboxId)
  | debugRead (mb : MboxId)
  | debugWrite (mb : MboxId) (hostData : List Byte)
  | setFaultInject (mb : MboxId)
  -- BAR0 registers, windows and the PCIe endpoint (13, 15, 21)
  | registerWrite (offset : Nat) (size : Nat) (value : Word64)
  | timeMark (value : Word32)
  | hostHeartbeat (value : Word32)
  | timeLoRead
  | timeMarkLoRead
  | netStepLoRead (net : NetId)
  | mailboxRegisterLowRead (mb : Fin 8) (reg : Fin 3)
  | counterSlotLowRead (offset : Nat)
  | flowEventPop
  | tmrCountRead (ch : TimerId)
  | tmrSnapRead (ch : TimerId) (unit : Bool)
  | timerRegisterWrite (ch : TimerId) (reg : Fin 9) (value : Word32)
  | streamWindowWrite (stc : StcId) (offset : Fin 262144) (bytes : List Byte)
  | streamSlotPost (stc : StcId) (slot : Fin 4) (len : Word32)
  | hostWindowWrite (offset : Nat) (bytes : List Byte)
  | hostWindowRead (offset : Nat) (len : Nat)
  | pcieTlpDiscard (why : TlpDiscard)
  | pcieLinkReset (why : LinkResetKind)
  -- core sequencer and debug (03, 20)
  | sequencerInstruction (core : CoreId) (op : SeqOp)
  | coreHaltComplete (core : CoreId)
  | pennantSend (core : CoreId) (value : Word32)
  -- descriptor channels (10)
  | descPost (core : CoreId) (value : Word32)
  | statusPop (core : CoreId)
  | popReq (core : CoreId) (queue : Fin 16)
  | popRpl (core : CoreId) (queue : Fin 16)
  | queueDone (core : CoreId) (queue : Fin 16)
  | queueClose (core : CoreId) (queue : Fin 16)
  | descriptorRequest (sector : SectorId)
  | descriptorReply (sector : SectorId)
  | descriptorMove (core : CoreId)
  | moveComplete (core : CoreId)
  | statusEntry (sector : SectorId)
  | markRelease (sector : SectorId)
  | retryGateClear (core : CoreId)
  -- synchronisation objects (10)
  | syncAdd (sector : SectorId)
  | syncArrive (sector : SectorId)
  | syncPost (sector : SectorId)
  | syncTrywait (sector : SectorId)
  | syncArm (sector : SectorId)
  | syncRead (sector : SectorId)
  | pendingNotifyWrite (sector : SectorId) (obj : Fin 8192)
  -- sector memory and event network (09)
  | bankAccess (sector : SectorId) (bank : Fin 64) (who : BankReq) (use : BankUse) (beside : List BankCall)
  | bankSelftestSlice (sector : SectorId) (bank : Fin 64) (segment : Fin 8) (pass : Bool) (repairable : Bool)
  | routerForward (sector : SectorId) (out : Fin 23)
  | scheduledFlitSend (sector : SectorId) (port : Fin 23)
  | alignmentPulse
  | linkFlitReceive (sector : SectorId) (link : Fin 5) (ecc : EccResult)
  | linkReplay (sector : SectorId) (link : Fin 5)
  -- event core (03, 05, 06)
  | receiveQueueWrite (sector : SectorId)
  | eventPop (core : CoreId)
  | delaySlotRelease (core : CoreId)
  | fetchBeat (core : CoreId)
  | timerWrap (ch : TimerId)
  | tinEdgeAccepted (pin : Fin 8) (edge : PinEdge)
  | snapCompareMatch (ch : TimerId) (unit : Bool)
  | heldTickRelease (net : NetId)
  | stepCutoff (core : CoreId)
  | firePhase (core : CoreId)
  | fireEndReport (core : CoreId)
  | quiescenceReport (net : NetId) (ring : Bool) (unit : Nat)
  | stepQuiescent (net : NetId)
  | emitSend (core : CoreId)
  | learnRowRetire (core : CoreId)
  -- experts and tokens (08)
  | packerEventAccept (sector : SectorId)
  | tokenDispatchBuild (packer : Fin 16)
  | tokenDispatchReceive (flow : FlowId)
  | tokenCloseReceive (flow : FlowId)
  | tokenWindowTimeout (binding : Fin 64)
  | tokenExpansion (sector : SectorId)
  | returnTokenSend (packer : Fin 16)
  | tokenReturnReceive (flow : FlowId)
  | combinerResolve (comb : Fin 16)
  | tokenErrorReceive (flow : FlowId)
  -- GDDR6 and paging (12)
  | pageInStart (core : CoreId) (set : Nat)
  | pageInComplete (core : CoreId) (set : Nat)
  | gddrAccess (addr : Nat) (op : GddrOp) (cls : GddrClass) (ecc : EccResult) (crcFailures : Nat)
  | gddrChannelRetrain (gc : GcId) (channel : Bool) (succeeds : Bool)
  -- Oxenmund fabric (11)
  | dataFrameSend (port : PortId)
  | dataFrameReceive (port : PortId) (lseq : Byte) (lack : Byte) (lretry : Bool) (cvc : Fin 3) (credit : Nat) (payload : List Byte) (check : FrameCheck)
  | ctrlFrameReceive (port : PortId) (lack : Byte) (lretry : Bool) (cvc : Fin 3) (credit : Nat) (check : FrameCheck)
  | ctrlFrameSend (port : PortId)
  | linkAckTimeout (port : PortId)
  | portTrainingComplete (port : PortId) (badLanes : BitVec 4)
  | retrainTrigger (port : PortId) (cause : RetrainCause)
  | timeExchange (port : PortId)
  | timeFrameReceive (port : PortId) (t1 : Word64) (t2 : Word64) (t3 : Word64) (frame : TimeFrame)
  | flowMessageSend (flow : FlowId)
  | segmentReceive (port : PortId)
  | eventsMessage (flow : FlowId)
  | tokenMessage (flow : FlowId)
  | syncInc (flow : FlowId)
  | bulk (flow : FlowId)
  | ack (port : PortId)
  | ackSend (flow : FlowId) (gap : Bool)
  | openMsg (port : PortId)
  | openAck (port : PortId)
  | openResend (flow : FlowId)
  | openHandshakeTimeout (flow : FlowId)
  | e2eRetransmitTimeout (flow : FlowId)
  | flowStalled (flow : FlowId)
  | commitRecordUpdate (flow : FlowId)
  -- streams, results and line outputs (15)
  | frameEncode (stc : StcId)
  | aeFrameScan (stc : StcId)
  | tokenFrameScan (stc : StcId)
  | resultRecordWrite (sector : SectorId)
  | lineOutputEvent (sector : SectorId)
  | loutPulseEnd (pin : Fin 8)
  | eventFlowSend (sender : Fin 32)
  -- power, clocks and thermal (16)
  | supplyWarningCrossing (crossing : RailCrossing)
  | pwrWarnEnd
  | persistentSupplyWarning
  | persistentWarningEnd
  | vcoreResetCrossing (selfRefreshDone : Bool)
  | vauxResetCrossing
  | aoClockLoss
  | thermalSample (readings : List Int)
  | throttleExit
  | sectorGate (sector : SectorId)
  | sectorUngate (sector : SectorId)
  | pllRelockComplete (sector : SectorId)
  | wakeStageReady (stage : WakeStage)
  | p3GuardWake (junction : Int) (loadMilliamps : Nat)
  | retentionBrownout
  -- bring-up and resets (17)
  | powerOnResetRelease (mgtSel : Bool)
  | bringupPhaseEnd (arg : Nat)
  | sectorWaveEnd (sector : SectorId) (failedPhys : BitVec 17) (failedBanks : Word64) (repaired : Nat)
  | deviceResetAssert (pin : ResetPin) (lowNs : Nat) (taken : Bool)
  | deviceResetRelease (pin : ResetPin)
  | computeResetStepEnd
  | sectorReset (sector : SectorId)
  | coreReset (core : CoreId)
  | softRepairFlashWrite (sector : SectorId)
  -- self-test, faults, ensign and ownership (18)
  | migrationStart (sector : SectorId)
  | migrationComplete (sector : SectorId) (misrAgree : Bool)
  | coreSelftestSlice (sector : SectorId) (signature : Word64) (golden : Word64) (repairable : Bool)
  | faultHandling (source : FaultSource)
  | ensignTrigger (trigger : Fin 4)
  | heartbeatTimeout
  | ownerHeartbeat
  | latchAckTimeout
  | latchRequest
  | ownerStaleReset
  | globalControlWrite (south : Bool) (write : GlobalWrite)
  -- security and management (19)
  | mctpControlMessage (msg : MctpControl) (length : Nat) (inSequence : Bool)
  | pldmMonitoringRequest (req : PldmMonitor)
  | requestUpdate
  | requestFirmwareData (offset : Nat) (data : List Byte)
  | verifyComplete
  | activateFirmware
  | spdmGetVersion
  | spdmGetCapabilities
  | spdmNegotiateAlgorithms
  | spdmGetDigests
  | spdmGetCertificate (slot : Nat) (offset : Nat) (length : Nat)
  | spdmChallenge (slot : Nat) (nonce : List Byte)
  | spdmGetMeasurements (index : Nat) (signed : Bool) (nonce : List Byte)
  | managementMailboxPost (mm : Bool) (endpoint : Byte) (command : List Byte)
  | managementMailboxRead (mm : Bool)
  | debugChallenge
  | submitAuthorisation (bytes : List Byte)
  | revokeDebugAuthorisation
  | commitMinimumSvn
  | fabricPortReset (port : PortId)
  | jtagAccess (op : JtagOp)
  | traceRecordMove (sector : SectorId)
  | timerCountAdvance (ch : TimerId)
  | pcieConfigurationRequest (op : ConfigOp)
  | msixVectorUnmask (vector : Fin 64)
  | pcieLinkUp
  | pldmBaseCommand (code : Byte)
  deriving DecidableEq, Repr

end Sys2Proof
end

