-- ==== Sys2Proof/Decode.lean ====
section
/-! DEFINITION. Decode.lean: no row of spec/opcode_table.json gives bits, so no word spells a command: commands reach the
block as events (register accesses, pin edges, frames), not as encoded words. -/

namespace Sys2Proof

/-- The command that a word of nbits bits spells by the table's bits: none, for the table gives no row any bits. -/
def decodeTableWord (_nbits _w : Nat) : Option Instr := none

end Sys2Proof
end

