-- ==== Sys2Proof/Machine/State.lean ====
section
/-! DEFINITION. State.lean: the state of the GZT128 as plain data, and State.reset.
Each field's docstring ends in [width | file rule | reset value]. "log 3" is notes/assumptions/3.md: working state the
spec names without a reset value is empty or zero at reset (DESIGN CHOICE). -/

namespace Sys2Proof.Machine

/-- A table with numeric keys: entries in strictly rising key order, none equal to the default its reader names, so
equal tables are equal data. An unlisted key reads as that default. -/
abbrev Tab (α : Type) := List (Nat × α)

/-! ### Items on the event network (09 R220, R221) -/

/-- A descriptor: four 64-bit words (10 R244). -/
structure Desc where
  /-- word 0 [64b | 10 R244 | log 3] -/
  w0 : Word64 := 0
  /-- word 1 [64b | 10 R244 | log 3] -/
  w1 : Word64 := 0
  /-- word 2 [64b | 10 R244 | log 3] -/
  w2 : Word64 := 0
  /-- word 3 [64b | 10 R244 | log 3] -/
  w3 : Word64 := 0
  /-- sideband of the model: which post it is, by which its status finds it (log 77) [n | 10 R247 | log 3] -/
  ser : Nat := 0
  /-- sideband of the model: the request that a REPLY answers, 0 for none known (log 77) [n | 10 R248 | log 3] -/
  reSer : Nat := 0
  deriving DecidableEq, Repr, Inhabited

/-- An event word with the sideband that travels beside it: target-step tag, refresh mark (09 R221), whether it is a
token expansion event (01 R21) and, for expansion events, the flow message it belongs to (08 R208). -/
structure EvItem where
  /-- event word [64b | 03 R61 | log 3] -/
  ev : Word64 := 0
  /-- target-step tag [2b | 05 R124 | log 3] -/
  tag : Nat := 0
  /-- refresh mark [1b | 05 R131 | log 3] -/
  refresh : Bool := false
  /-- CLASS: scheduled [1b | 09 R221 | log 3] -/
  sched : Bool := false
  /-- token expansion event [1b | 01 R21 | log 3] -/
  token : Bool := false
  /-- flow context + 1 whose message the event came from, 0 for none [n | 11 R280 | log 3] -/
  flow : Nat := 0
  /-- sequence number of that message [32b | 11 R280 | log 3] -/
  mseq : Nat := 0
  /-- scheduled: sector cycle, counted from the last alignment pulse, at which it takes its next link or its receive-queue
  write [n | 09 R228, R229 | log 3] -/
  due : Nat := 0
  /-- scheduled: LANE of its stream [2b | 09 R227 | log 3] -/
  lane : Nat := 0
  deriving DecidableEq, Repr, Inhabited

/-- An operation on a synchronisation object on its way to the synchronisation unit (10 R260, R261). -/
structure SyncReq where
  /-- path: 0 event, 1 descriptor, 2 remote increment [n | 10 R261 | log 3] -/
  path : Nat := 0
  /-- SYNC_OP code of 10 R260 [4b | 10 R260 | log 3] -/
  op : Nat := 0
  /-- object index [13b | 10 R259 | log 3] -/
  obj : Nat := 0
  /-- operand [32b | 10 R260 | log 3] -/
  operand : Nat := 0
  /-- posting core of a SYNC descriptor [7b | 10 R247 | log 3] -/
  core : Nat := 0
  /-- TAG of a SYNC descriptor [16b | 10 R247 | log 3] -/
  tag : Nat := 0
  /-- post of a SYNC descriptor (log 77) [n | 10 R247 | log 3] -/
  ser : Nat := 0
  /-- flow + 1 of a remote increment [n | 11 R282 | log 3] -/
  flow : Nat := 0
  /-- sequence number of a remote increment [32b | 11 R282 | log 3] -/
  mseq : Nat := 0
  deriving DecidableEq, Repr, Inhabited

/-- An item of the event network with its destination (09 R220). -/
inductive Item where
  | event (e : EvItem)
  | ring (fn : Nat) (src : Nat) (e : EvItem) (scale : Word32)
  | desc (dst : Nat) (d : Desc)
  | status (core : Nat) (entry : Word64) (cls : Nat) (ser : Nat)
  | sync (sector : Nat) (r : SyncReq)
  | mark (core : Nat) (queue : Nat) (src : Nat)
  deriving DecidableEq, Repr

/-! ### The event core (03, 04, 05, 06, 07, 10, 20) -/

/-- An emission item (03 R82): type, payload, format, column, modulator channel, refresh mark, and the F32 value it
was narrowed from (03 R85). An ERROR item carries its own destination (07 R180). -/
structure EmitItem where
  /-- event type code [4b | 03 R61 | log 3] -/
  typ : Nat := 0
  /-- payload [16b | 02 R41 | log 3] -/
  payload : BitVec 16 := 0
  /-- PFMT: 0 P8, 1 P16 [2b | 02 R40 | log 3] -/
  pfmt : Nat := 0
  /-- emitting column, or row of an ERROR item [14b | 03 R82 | log 3] -/
  col : Nat := 0
  /-- modulator channel [2b | 03 R62 | log 3] -/
  modCh : Nat := 0
  /-- refresh mark [1b | 05 R131 | log 3] -/
  refresh : Bool := false
  /-- step whose FIRE produced the item [64b | 05 R124 | log 3] -/
  step : Nat := 0
  /-- destinations already sent [7b | 03 R83 | log 3] -/
  sent : Nat := 0
  /-- F32 value before narrowing [32b | 03 R85 | log 3] -/
  value : Word32 := 0
  deriving DecidableEq, Repr, Inhabited

/-- The event in row lookup or fetch (03 R71): the event, the beats done, and whether it was released from the delay
ring (03 R69). -/
structure InPipe where
  /-- event with sideband [n | 03 R71 | log 3] -/
  item : EvItem := {}
  /-- fetch beats already made [6b | 03 R71 | log 3] -/
  beat : Nat := 0
  /-- released from the delay ring [1b | 03 R69 | log 3] -/
  released : Bool := false
  /-- row lookup done; false while it stalls (R154) [1b | 06 R154 | log 3] -/
  looked : Bool := false
  deriving DecidableEq, Repr, Inhabited

/-- An occupied ring entry of a queue: its contents lie in sector memory. -/
structure QEntry where
  /-- place in the ring [10b | 10 R242 | log 3] -/
  slot : Nat := 0
  /-- how many entries the ring was given before it [n | 10 R253 | log 3] -/
  seq : Nat := 0
  /-- post that filled it, 0 for a NOTIFY (log 77) [n | 10 R247 | log 3] -/
  ser : Nat := 0
  deriving DecidableEq, Repr, Inhabited

/-- State of queue q of a core (10 R242, R243): the ring bookkeeping of the descriptor engine. Ring contents lie in
sector memory. -/
structure QueueSt where
  /-- QUEUE_CFG word [32b | 10 R243 | 0] -/
  cfg : Word32 := 0
  /-- CLOSED [1b | 10 R243 | 1] -/
  closed : Bool := true
  /-- request entries in use, oldest first [1024 | 10 R249 | empty] -/
  reqs : List QEntry := []
  /-- how many of them the reader has taken and not yet done: the oldest ones [n | 10 R249 | 0] -/
  taken : Nat := 0
  /-- requests that the ring has been given so far: its tail [n | 10 R253 | log 3] -/
  reqNext : Nat := 0
  /-- reply entries that hold a reply, oldest first [1024 | 10 R248 | empty] -/
  rpls : List QEntry := []
  /-- replies that the ring has been given so far [n | 10 R248 | log 3] -/
  rplNext : Nat := 0
  /-- posts of the requests that have reserved a reply entry which is not yet filled [n | 10 R248 | empty] -/
  reserved : List Nat := []
  /-- marks: sender core -> epoch + 1 [n | 10 R252 | log 3] -/
  marks : Tab Nat := []
  deriving DecidableEq, Repr, Inhabited

/-- A descriptor outstanding at its sender (10 R246). -/
structure Outstanding where
  /-- class: 0 REQUEST, SYNC or MOVE; 1 REPLY [1b | 10 R246 | log 3] -/
  cls : Nat := 0
  /-- the descriptor as sent [256b | 10 R244 | log 3] -/
  desc : Desc := {}
  /-- ended with QUEUE_CLOSED by the sender's engine; its status is still to be written [1b | 10 R254 | log 3] -/
  ended : Bool := false
  deriving DecidableEq, Repr, Inhabited

/-- A MOVE in progress in a sector's descriptor engine (10 R256). -/
structure MoveSt where
  /-- posting core [7b | 10 R256 | log 3] -/
  core : Nat := 0
  /-- the descriptor [256b | 10 R244 | log 3] -/
  desc : Desc := {}
  deriving DecidableEq, Repr, Inhabited

/-- One breakpoint (20 R498). -/
structure Bkpt where
  /-- BKPT_CTRL [32b | 20 R498 | 0] -/
  ctrl : Word32 := 0
  /-- BKPT_ADDR [32b | 20 R498 | 0] -/
  addr : Word32 := 0
  deriving DecidableEq, Repr, Inhabited

/-- One programmable counter (20 R510). -/
structure Pmc where
  /-- PMC_CFG [32b | 20 R510 | 0] -/
  cfg : Word32 := 0
  /-- PMC_FILTER [32b | 20 R510 | 0] -/
  filter : Word32 := 0
  /-- PMC_VALUE [64b | 20 R510 | log 3] -/
  value : Word64 := 0
  /-- PMC_THRESH [32b | 20 R510 | 0] -/
  thresh : Word32 := 0
  /-- high word latched by the last read of the low word [32b | 20 R510 | log 3] -/
  latch : Word32 := 0
  deriving DecidableEq, Repr, Inhabited

/-- The core sequencer: RV32IMC in machine mode (03, Core sequencer). -/
structure SeqSt where
  /-- pc [32b | 03 R89 | log 3] -/
  pc : Word32 := 0
  /-- x1 to x31 (x0 reads as zero) [31 x 32b | 20 R495 | log 3] -/
  regs : Tab Word32 := []
  /-- instruction memory, by byte [32 KiB | 03 R86 | 0 (17 R428)] -/
  imem : Tab Byte := []
  /-- data memory, by byte [32 KiB | 03 R86 | 0 (17 R428)] -/
  dmem : Tab Byte := []
  /-- mstatus.MIE, mstatus.MPIE, mie.MEIE [3b | 21 R527 | log 3] -/
  mie : Bool := false
  /-- mstatus.MPIE [1b | 21 R527 | log 3] -/
  mpie : Bool := false
  /-- mie register [32b | 21 R527 | log 3] -/
  mieReg : Word32 := 0
  /-- mtvec [32b | 03 R86 | log 3] -/
  mtvec : Word32 := 0
  /-- mepc [32b | 03 R86 | log 3] -/
  mepc : Word32 := 0
  /-- mcause [32b | 21 R527 | log 3] -/
  mcause : Word32 := 0
  /-- mtval [32b | 03 R86 | log 3] -/
  mtval : Word32 := 0
  /-- mscratch [32b | 03 R86 | log 3] -/
  mscratch : Word32 := 0
  /-- waiting for an interrupt [1b | 16 R417 | log 3] -/
  wfi : Bool := false
  /-- instructions retired [64b | 20 R511 | log 3] -/
  retired : Nat := 0
  deriving DecidableEq, Repr, Inhabited

/-- One logical core: everything that R166, R59, R450 and the core's chapters name. -/
structure CoreSt where
  -- memories
  /-- network slot + 1 of the core, 0 for none [5b | 05 R119 | log 3] -/
  net : Nat := 0
  /-- image handle the core is loaded from, 0 for none [16b | 14 R356 | log 3] -/
  image : Nat := 0
  /-- rows loaded in the row table [13b | 14 R551 | log 3] -/
  nRows : Nat := 0
  /-- matrix mode: 0 S16, 1 S12D4, 2 tagged [2b | 04 R93 | log 3] -/
  mode : Nat := 0
  /-- row table, word 8*i+w [4096 x 256b | 04 R96 | 0] -/
  rowW : Tab Word32 := []
  /-- column table, word 16*j+w [16384 x 512b | 04 R98 | 0] -/
  colW : Tab Word32 := []
  /-- neuron records, word 8*j+w [16384 x 256b | 04 R101 | 0] -/
  neuW : Tab Word32 := []
  /-- route memory [16384 x 32b | 04 R99 | 0] -/
  routeW : Tab Word32 := []
  /-- synapse array [1572864 x 16b | 04 R93 | 0] -/
  syn : Tab SynWord := []
  /-- acc56 sums [16384 x 56b | 02 R45 | 0 (17 R428)] -/
  acc : Tab Int := []
  /-- program store [1024 x 32b | 04 R114 | 0] -/
  prog : Tab Word32 := []
  /-- program entries [32 x 32b | 04 R552 | 0] -/
  progEnt : Tab Word32 := []
  -- delivery pipeline
  /-- receive queue, oldest first [4096 entries | 03 R65 | empty] -/
  rq : List EvItem := []
  /-- token credit [12b | 08 R207 | log 3] -/
  credit : Nat := 0
  /-- token events written towards the core and not yet popped [12b | 08 R207 | 0] -/
  creditUsed : Nat := 0
  /-- delay ring: slot -> entries in insertion order [32768 entries | 03 R69 | empty] -/
  delay : Tab (List EvItem) := []
  /-- event in row lookup [1 entry | 03 R71 | empty] -/
  lookup : Option InPipe := none
  /-- event that holds the fetch port [1 entry | 03 R71 | empty] -/
  fetch : Option InPipe := none
  /-- touched set [16384b | 03 R76 | empty] -/
  touched : Tab Bool := []
  /-- wake calendar: slot*16384+col [64 x 16384b | 03 R77 | empty] -/
  wake : Tab Bool := []
  /-- touched-row bitmaps: (step mod 2)*4096+row [2 x 4096b | 06 R139 | empty] -/
  touchedRow : Tab Bool := []
  /-- popped total by tag, for R133 [4 x n | 05 R133 | 0] -/
  popped : Tab Nat := []
  /-- last popped total reported by tag + 1, 0 for not idle [4 x n | 05 R133 | 0] -/
  reported : Tab Nat := []
  -- fire and emit
  /-- emit queue, oldest first [2048 items | 03 R82 | empty] -/
  eq : List EmitItem := []
  /-- items of a stalled fire issue, waiting for queue room [n | 03 R82 | empty] -/
  fireWait : List EmitItem := []
  /-- sent totals by tag, for R133 [4 x n | 05 R133 | 0] -/
  sent : Tab Nat := []
  /-- phase: 0 stopped, 1 DELIVER, 2 cutoff taken and FIRE to come, 3 FIRE done [2b | 05 R122 | 0] -/
  phase : Nat := 0
  /-- core's current step number [64b | 05 R120 | 0] -/
  step : Nat := 0
  /-- step whose FIRE waits in phase 2 [64b | 05 R129 | 0] -/
  fireOf : Nat := 0
  /-- steps that have opened while a FIRE of the core still ran: their opening times, oldest first [n | 05 R129 | empty] -/
  opens : List Nat := []
  /-- the FIRE to come waits for a resume [1b | 20 R499 | 0] -/
  fireHeld : Bool := false
  /-- end of FIRE reported for the step (R132) [1b | 05 R132 | 0] -/
  fireReported : Bool := false
  /-- columns that emitted in the last FIRE [16384b | 06 R148 | empty] -/
  emitted : Tab Bool := []
  /-- columns evaluated in the last FIRE [16384b | 06 R148 | empty] -/
  evaluated : Tab Bool := []
  /-- f10 increment of a POST_SRC 1 column at its last evaluation [16384 x 8b | 06 R148 | 0] -/
  postInc : Tab Nat := []
  /-- per-token scale t of the step [32b | 02 R49 | 1.0] -/
  tScale : Word32 := 0x3F800000
  /-- token outlier scale t_out of the step [32b | 02 R49 | 1.0] -/
  tOut : Word32 := 0x3F800000
  /-- t and t_out set by an expansion for the step whose DELIVER the core has not begun [2 x 32b | 02 R49 | none] -/
  tAhead : Option (Word32 × Word32) := none
  /-- t and t_out of the rows that token functions have fed in the step, by row [4096 x 2 x 32b | 02 R49 | 1.0, 1.0] -/
  tokT : Tab (Word32 × Word32) := []
  /-- the same for the step whose DELIVER the core has not begun [4096 x 2 x 32b | 02 R49 | 1.0, 1.0] -/
  tokTAhead : Tab (Word32 × Word32) := []
  /-- max-abs statistic by ring function [n x 32b | 02 R54 | log 3] -/
  maxAbs : Tab Word32 := []
  -- plasticity
  /-- rule store [64 x 32b | 06 R140 | 0] -/
  rules : Tab Word32 := []
  /-- rule table, word 12*r+w [8 x 384b | 06 R141 | 0] -/
  ruleTab : Tab Word32 := []
  /-- trace parameter sets [8 x 32b | 06 R141 | 0] -/
  traceSets : Tab Word32 := []
  /-- modulator banks: (step mod 2)*16384+col [2 x 16384 x 48b | 06 R145 | 0] -/
  modBank : Tab Int := []
  /-- row calendar: slot*4096+row [16 x 4096b | 06 R151 | empty] -/
  rowCal : Tab Bool := []
  /-- renormalisation mask [4096b | 06 R162 | empty] -/
  renormMask : Tab Bool := []
  /-- columns renormalised in the LEARN in progress [16384b | 06 R162 | empty] -/
  renormCols : Tab Bool := []
  /-- generator state [64b | 02 R58 | 0] -/
  rng : Word64 := 0
  /-- rows still to visit in the LEARN in progress, ascending [n | 06 R152 | empty] -/
  learnRows : List Nat := []
  /-- rows that the LEARN in progress skipped, pending until it retires (R164) [n | 06 R164 | empty] -/
  learnSkipped : List Nat := []
  /-- LEARN in progress [1b | 05 R122 | 0] -/
  learning : Bool := false
  /-- step of the LEARN in progress [64b | 05 R122 | 0] -/
  learnStep : Nat := 0
  /-- marking in force when the LEARN in progress began [32b | 20 R502 | 0xFFFFFFFF] -/
  learnMark : Nat := 0xFFFFFFFF
  /-- traces written in the LEARN in progress: row, or 4096 + column [n | 06 R149 | empty] -/
  tracesWritten : Tab Bool := []
  -- gradient training
  /-- TRAIN_CFG [32b | 07 R177 | 0] -/
  trainCfg : Word32 := 0
  /-- GRAD_BASE [32b | 07 R177 | 0] -/
  gradBase : Word32 := 0
  /-- row error sums [4096 x 56b | 07 R178 | 0] -/
  eps : Tab Int := []
  /-- column error sums [4096 x 32b | 07 R178 | 0] -/
  dsum : Tab Int := []
  /-- input sums of the step for X_i [4096 x n | 07 R175 | 0] -/
  xsum : Tab Int := []
  /-- derivative codes of the step [16384 x 16b | 07 R172 | 0] -/
  deriv : Tab Int := []
  /-- seed codes of the step [16384 x 16b | 07 R173 | 0] -/
  seedCode : Tab Int := []
  /-- seeds of a backward step still to be delivered: (column, seed), ascending [n | 07 R173 | empty] -/
  seeds : List (Nat × Int) := []
  /-- the LEARN in progress is that of a backward step [1b | 07 R181 | 0] -/
  learnGrad : Bool := false
  /-- READ_WEIGHTS that waits for LEARN to retire: mailbox + 1 [4b | 07 R187 | 0] -/
  snapWait : Nat := 0
  /-- step number that its header reports [64b | 07 R187 | log 3] -/
  snapStep : Nat := 0
  /-- rows of that READ_WEIGHTS still to be copied, ascending [4096 | 07 R187 | empty] -/
  snapTodo : List Nat := []
  /-- its row records copied so far: (row, record) [n | 07 R187 | empty] -/
  snapGot : List (Nat × List Byte) := []
  /-- its column entries, once copied [n | 07 R187 | none] -/
  snapCols : Option (List Byte) := none
  /-- rows of a WRITE_WEIGHTS that wait for their row to retire: (row, record bytes) [n | 06 R165 | empty] -/
  hostRows : List (Nat × List Byte) := []
  /-- mailbox + 1 of that WRITE_WEIGHTS [4b | 06 R165 | 0] -/
  hostMb : Nat := 0
  /-- column error sums that the LEARN in progress reads [4096 x 32b | 07 R181 | 0] -/
  learnDsum : Tab Int := []
  /-- X_i that the LEARN in progress reads [4096 x 16b | 07 R181 | 0] -/
  learnX : Tab Int := []
  /-- token scale that the LEARN in progress reads [32b | 07 R181 | 1.0] -/
  learnT : Word32 := 0x3F800000
  /-- log-frame staging area base and length in sector memory [2 x 23b | 07 R176 | 0] -/
  stgBase : Nat := 0
  /-- staging area length [23b | 07 R176 | 0] -/
  stgLen : Nat := 0
  /-- frame staged for the backward step: frame index + 1 [17b | 07 R176 | 0] -/
  frameReady : Nat := 0
  -- paging
  /-- current page of page set p + 1 by buffer: set*2+buf [n | 12 R314 | 0] -/
  pages : Tab Nat := []
  /-- page-in in progress for a set: set -> page + 1 [n | 12 R314 | 0] -/
  paging : Tab Nat := []
  /-- buffer in use of a page set: set -> 0 or 1 [n | 12 R314 | 0] -/
  pageBuf : Tab Nat := []
  /-- dirty rows [4096b | 12 R314 | 0] -/
  dirtyRows : Tab Bool := []
  -- sequencer, debug, descriptors
  /-- core sequencer [n | 03 R86 | log 3] -/
  seq : SeqSt := {}
  /-- SEQ_INT_EN [4b | 21 R527 | 0] -/
  intEn : Nat := 0
  /-- SEQ_INT_STATUS [4b | 21 R527 | 0] -/
  intStatus : Nat := 0
  /-- breakpoints B0 to B3 [4 x 64b | 20 R498 | 0] -/
  bkpts : Tab Bkpt := []
  /-- DBG_STATUS.SEQ_HALTED [1b | 20 R498 | 0] -/
  seqHalted : Bool := false
  /-- DBG_STATUS.ENG_HALTED [1b | 20 R494 | 0] -/
  engHalted : Bool := false
  /-- DBG_STATUS.HALT_PENDING [1b | 20 R494 | 0] -/
  haltPending : Bool := false
  /-- DBG_STATUS.CAUSE [2b | 20 R498 | 0] -/
  haltCause : Nat := 0
  /-- DBG_STATUS.LAST_BKPT [2b | 20 R498 | 0] -/
  lastBkpt : Nat := 0
  /-- marking: layer ID [16b | 20 R502 | 0xFFFF] -/
  layer : Nat := 0xFFFF
  /-- marking: operator ID [16b | 20 R502 | 0xFFFF] -/
  oper : Nat := 0xFFFF
  /-- programmable counters P0 to P15 [16 x n | 20 R510 | 0] -/
  pmcs : Tab Pmc := []
  /-- TRACE_CFG [32b | 20 R518 | 0] -/
  traceCfg : Word32 := 0
  /-- POP records thinned: occurrences since the last [16b | 20 R517 | 0] -/
  popSkip : Nat := 0
  /-- EMIT records thinned [16b | 20 R517 | 0] -/
  emitSkip : Nat := 0
  /-- queues Q0 to Q15 [16 x n | 10 R242 | closed] -/
  queues : Tab QueueSt := []
  /-- DESC_SEND0 to DESC_SEND7 [8 x 32b | 10 R245 | log 3] -/
  descSend : Tab Word32 := []
  /-- DESC_POST_RESULT: outcome [2b | 10 R245 | log 3] -/
  postResult : Nat := 0
  /-- DESC_POST_RESULT: TAG [16b | 10 R245 | log 3] -/
  postTag : Nat := 0
  /-- status FIFO, oldest first: entry and class [64 + 64 entries | 10 R246 | empty] -/
  statusFifo : List (Word64 × Nat) := []
  /-- destination (core*16+queue) of the request behind each QUEUE_FULL NAK in the FIFO, in FIFO order [n | 10 R252 | empty] -/
  nakDest : List Nat := []
  /-- STATUS_POP_HI [32b | 10 R245 | log 3] -/
  statusHi : Word32 := 0
  /-- QPOP_DATA0 to 7 as a descriptor [256b | 10 R245 | log 3] -/
  qpopData : Desc := {}
  /-- QDONE_RESULT [32b | 10 R245 | log 3] -/
  qdoneResult : Word32 := 0
  /-- QPOP_STATUS bit 31 [1b | 10 R245 | log 3] -/
  qpopTook : Bool := false
  /-- QPOP_STATUS bit 30 [1b | 10 R245 | log 3] -/
  qpopPoison : Bool := false
  /-- outstanding descriptors [128 | 10 R246 | empty] -/
  outst : List Outstanding := []
  /-- repost epoch [8b | 10 R252 | 0] -/
  epoch : Nat := 0
  /-- retry gate: recorded tails of OPEN queues (queue -> reqNext + 1) [16 x n | 10 R253 | clear] -/
  gate : Option (Tab Nat) := none
  /-- queues to send mark releases to (core*16+queue) when the gate clears [n | 10 R252 | empty] -/
  gateMarks : List Nat := []
  /-- first post of the core since its last reset (log 77) [n | 10 R254 | log 3] -/
  serFrom : Nat := 0
  deriving DecidableEq, Repr, Inhabited

/-! ### Sectors (01, 09, 10, 16, 18) -/

/-- One of the inputs of a sector router (09 R226). -/
structure InPort where
  /-- best-effort buffer [32 flits | 09 R226 | empty] -/
  be : List Item := []
  /-- scheduled buffer [8 flits | 09 R226 | empty] -/
  sched : List EvItem := []
  deriving DecidableEq, Repr, Inhabited

/-- One output of a sector router (09 R233). -/
structure OutPort where
  /-- generator; none is its seed 0x8000 + 16*sector + port [16b | 09 R233 | seed] -/
  lfsr : Option (BitVec 16) := none
  /-- grant counts by input port [23 x 5b | 09 R233 | 0] -/
  waits : Tab Nat := []
  /-- (cycle, lane) that scheduled flits have taken, newest first, 128 kept [n | 09 R232 | empty] -/
  lanes : List (Nat × Nat) := []
  deriving DecidableEq, Repr, Inhabited

/-- One direction of a mesh link or the ring port of a sector (09 R235). -/
structure LinkSt where
  /-- items in flight, oldest first; on the inbound ring port (link 3) the items that wait at the ring are behind them
  [n | 09 R235 | empty] -/
  inFlight : List Item := []
  /-- failures of the current link cycle [2b | 09 R235 | 0] -/
  fails : Nat := 0
  /-- a replay is requested [1b | 09 R235 | 0] -/
  replay : Bool := false
  /-- stopped after three failures [1b | 09 R235 | 0] -/
  stopped : Bool := false
  deriving DecidableEq, Repr, Inhabited

/-- A self-test of a freed physical core in progress (18 R453). -/
structure CoreTest where
  /-- physical core under test [5b | 18 R453 | log 3] -/
  phys : Nat := 0
  /-- next slice 0 to 11 [4b | 18 R453 | log 3] -/
  slice : Nat := 0
  /-- mailbox + 1 whose RUN_SELFTEST waits for the verdict [4b | 14 R371 | log 3] -/
  mb : Nat := 0
  deriving DecidableEq, Repr, Inhabited

/-- A migration in progress (18 R450). -/
structure Migration where
  /-- logical core [7b | 18 R450 | log 3] -/
  core : Nat := 0
  /-- destination physical core [5b | 18 R450 | log 3] -/
  dest : Nat := 0
  /-- time of its start [64b | 18 R450 | log 3] -/
  start : Nat := 0
  /-- mailbox + 1 whose RUN_SELFTEST started it [4b | 14 R371 | log 3] -/
  mb : Nat := 0
  deriving DecidableEq, Repr, Inhabited

/-- One sector. -/
structure SectorSt where
  /-- core map STATE by index C0 to C15: 0 ACTIVE, 1 MIGRATING, 2 UNAVAILABLE [16 x 2b | 01 R18 | 0] -/
  mapState : Tab Nat := []
  /-- core map PHYS_INDEX by index [16 x 5b | 01 R18 | index] -/
  mapPhys : Tab Nat := []
  /-- SPARE_INDEX [5b | 01 R18 | 16] -/
  spareIndex : Nat := 16
  /-- SPARE_VALID [1b | 01 R18 | 1] -/
  spareValid : Bool := true
  /-- migration buffer, oldest first [4096 events | 01 R21 | empty] -/
  migBuf : List EvItem := []
  /-- migration in progress [n | 18 R450 | none] -/
  mig : Option Migration := none
  /-- core test in progress [n | 18 R453 | none] -/
  test : Option CoreTest := none
  /-- last completed test of each physical core: its time + 1 [17 x n | 18 R449 | never] -/
  lastTest : Tab Nat := []
  /-- rotation interval in s [17b | 14 R371 | 600] -/
  rotInterval : Nat := 600
  /-- sector memory, by byte offset [8 MiB | 09 R236 | 0 (17 R428)] -/
  mem : Tab Byte := []
  /-- value last returned by port A of a bank, or a single port [128b | 09 R236 | log 3] -/
  bankData : BitVec 128 := 0
  /-- the value last returned is poisoned [1b | 09 R240 | log 3] -/
  bankPoison : Bool := false
  /-- value last returned by port B of a bank [128b | 09 R238 | log 3] -/
  bankDataB : BitVec 128 := 0
  /-- that value is poisoned [1b | 09 R240 | log 3] -/
  bankPoisonB : Bool := false
  /-- poisoned 64-bit words of sector memory [n | 09 R240 | none] -/
  poison : Tab Bool := []
  /-- bank under test + 1, 0 for none [7b | 18 R455 | 0] -/
  bankTest : Nat := 0
  /-- segment test results of the bank test in progress [8b | 18 R455 | log 3] -/
  bankFail : Bool := false
  /-- router inputs [23 | 09 R226 | empty] -/
  inp : Tab InPort := []
  /-- router outputs [23 | 09 R233 | log 3] -/
  outp : Tab OutPort := []
  /-- events granted to core ports, waiting for the receive-queue write [n | 09 R226 | empty] -/
  toCore : List Item := []
  /-- items that the ring has received through the ring port [32 flits | 09 R226 | empty] -/
  toRing : List Item := []
  /-- items granted to the descriptor engine [n | 09 R226 | empty] -/
  toDesc : List Item := []
  /-- items granted to the synchronisation unit [n | 09 R226 | empty] -/
  toSync : List Item := []
  /-- scheduled stream table [256 x 32b | 09 R227 | 0] -/
  schedTab : Tab Word32 := []
  /-- time of the last alignment pulse, from which the frame counter counts (log 45) [64b | 09 R231 | 0] -/
  pulseAt : Nat := 0
  /-- links west, east, across, inbound ring and outbound ring [5 | 09 R235 | empty] -/
  links : Tab LinkSt := []
  /-- ALIGNED [1b | 09 R231 | 0] -/
  aligned : Bool := false
  /-- SLIP, REPLAY, LINK_FAULT, MEM_UNCORR (bits 7:4) [4b | 09 R235 | 0] -/
  netEvents : Nat := 0
  /-- posts that the sector's engine has numbered so far (log 77) [n | 10 R246 | log 3] -/
  posts : Nat := 0
  /-- MOVEs in progress [n | 10 R256 | empty] -/
  moves : List MoveSt := []
  /-- grants to networks: (network slot, base, length, first object, objects) [n | 14 R546 | empty] -/
  grants : List (Nat × Nat × Nat × Nat × Nat) := []
  /-- trace staging records [8192 x 32 B | 20 R515 | empty] -/
  traceStage : List (List Byte) := []
  /-- next written trace record carries GAP [1b | 20 R517 | 0] -/
  traceGap : Bool := false
  /-- TRACE_WR [32b | 20 R518 | 0] -/
  traceWr : Nat := 0
  /-- TRACE_RD [32b | 20 R518 | 0] -/
  traceRd : Nat := 0
  /-- SECTOR_CLK.OP [2b | 16 R409 | 0] -/
  op : Nat := 0
  /-- SECTOR_CLK.STOPPED [1b | 16 R410 | 0] -/
  stopped : Bool := false
  /-- operating point being locked + 1 [3b | 16 R410 | 0] -/
  opNext : Nat := 0
  /-- SECTOR_CLK.GATED [1b | 16 R417 | 0] -/
  gated : Bool := false
  /-- sector power switches closed and clocks running [1b | 17 R428 | 0] -/
  powered : Bool := false
  /-- SECTOR_UP [1b | 17 R428 | 0] -/
  up : Bool := false
  /-- physical cores that failed their wave test [17b | 17 R430 | 0] -/
  waveFailed : BitVec 17 := 0
  /-- REPAIR_STATUS.SOFT_USED [8b | 17 R437 | 0] -/
  softUsed : Nat := 0
  /-- REPAIR_STATUS.SPARE_ELEM [8b | 17 R437 | 0] -/
  spareElem : Nat := 0
  /-- REPAIR_STATUS.SOFT_PENDING [1b | 17 R436 | 0] -/
  softPending : Bool := false
  deriving DecidableEq, Repr, Inhabited

/-! ### Networks (05, 07, 20) -/

/-- A step source (05 R135). -/
structure StepSource where
  /-- 0 none, 1 TIMER, 2 ENCODER, 3 IMMEDIATE [2b | 05 R135 | 0] -/
  kind : Nat := 0
  /-- timer channel [4b | 05 R135 | 0] -/
  ch : Nat := 0
  /-- P_d in units of 10 ns [24b | 05 R135 | 0] -/
  period : Nat := 0
  deriving DecidableEq, Repr, Inhabited

/-- One network slot. -/
structure NetSt where
  /-- image handle + presence: 0 for a free slot [16b | 05 R119 | 0] -/
  image : Nat := 0
  /-- network index within its image [4b | 14 R353 | log 3] -/
  index : Nat := 0
  /-- POLICY: false DEADLINE, true LOCKSTEP [1b | 05 R137 | 0] -/
  lockstep : Bool := false
  /-- cores of the network, by number [128b | 14 R354 | empty] -/
  cores : List Nat := []
  /-- source in force [n | 05 R137 | none] -/
  source : StepSource := {}
  /-- source waiting for tick n + 1, and the mailbox + 1 of its command [n | 05 R135 | none] -/
  nextSource : Option StepSource := none
  /-- MARGIN in units of 10 ns [24b | 05 R128 | 0] -/
  margin : Nat := 0
  /-- REFRESH_Q [16b | 05 R131 | 0] -/
  refreshQ : Nat := 0
  /-- F [16b | 07 R169 | 0] -/
  fwd : Nat := 0
  /-- B [16b | 07 R169 | 0] -/
  bwd : Nat := 0
  /-- training position: 0 to F-1 forward, F to F+B-1 backward [17b | 07 R171 | 0] -/
  pos : Nat := 0
  /-- step number [64b | 05 R120 | 0] -/
  step : Nat := 0
  /-- NET_STEP_HI latch [32b | 05 R137 | 0] -/
  stepHi : Word32 := 0
  /-- running: RUN done, HALT_RUN not completed [1b | 05 R136 | 0] -/
  running : Bool := false
  /-- HALT_RUN waiting: mailbox + 1 [4b | 05 R136 | 0] -/
  halting : Nat := 0
  /-- mailboxes whose READ_WEIGHTS, APPLY_UPDATES or CHECKPOINT waits for the next opening [n | 07 R183, R187 | empty] -/
  waits : List Nat := []
  /-- all-reduce in progress: mailbox + 1 of its APPLY_UPDATES, and its phase, true once the sums are gathered [n | 07 R184 | none] -/
  reduce : Option (Nat × Bool) := none
  /-- chunk data received from each member of the replica group and not yet used, and this device's own [n | 07 R184 | empty] -/
  chunks : Tab (List Byte) := []
  /-- the next step opened begins a training cycle [1b | 07 R169 | 0] -/
  cycleNew : Bool := false
  /-- a RUN has been made since LOAD_IMAGE or reload [1b | 04 R102 | 0] -/
  everRun : Bool := false
  /-- PHASE of the step master [2b | 05 R137 | 0] -/
  phase : Nat := 0
  /-- TICK_HELD [1b | 05 R130 | 0] -/
  tickHeld : Bool := false
  /-- time of the held tick [64b | 05 R134 | log 3] -/
  heldAt : Nat := 0
  /-- T_n [64b | 05 R121 | log 3] -/
  tN : Nat := 0
  /-- D_n [64b | 05 R121 | log 3] -/
  dN : Nat := 0
  /-- C_n [64b | 05 R121 | log 3] -/
  cN : Nat := 0
  /-- LATE, OVERRUN, STRETCHED, MERGED, LEARN_SKIPPED (bits 28:24) [5b | 05 R137 | 0] -/
  events : Nat := 0
  /-- sent totals reported by tag and emitter: tag*4096+emitter -> total + 1 [n | 05 R133 | 0] -/
  sentRep : Tab Nat := []
  /-- events injected for the network by EVENTS messages, by tag [4 x n | 05 R133 | 0] -/
  ringSent : Tab Nat := []
  /-- LOCKSTEP step declared quiescent [1b | 05 R133 | 0] -/
  quiescent : Bool := false
  /-- NET_DEBUG.HOLD_EN [1b | 20 R501 | 0] -/
  holdEn : Bool := false
  /-- NET_DEBUG.HELD [1b | 20 R501 | 0] -/
  held : Bool := false
  /-- start of the hold and the remaining time r [2 x 64b | 20 R501 | log 3] -/
  holdStart : Nat := 0
  /-- remaining time r [64b | 20 R501 | log 3] -/
  holdRest : Nat := 0
  /-- since when the open LOCKSTEP step waits on a halted core, plus 1 [64b | 20 R499 | 0] -/
  stretchFrom : Nat := 0
  /-- since when T_{n+1} waits for a migration, plus 1 [64b | 18 R451 | 0] -/
  migrateFrom : Nat := 0
  /-- shed by ensign mode [1b | 18 R464 | 0] -/
  shed : Bool := false
  /-- carries an ENSIGN section [1b | 18 R462 | 0] -/
  isEnsign : Bool := false
  /-- region number of the activation log + 1 [n | 14 R354 | 0] -/
  logRegion : Nat := 0
  /-- measurement of the image in the slot [512b | 19 R486 | 0] -/
  measure : List Byte := []
  /-- stopped by an unrepaired memory bank until unloaded [1b | 18 R458 | 0] -/
  blocked : Bool := false
  deriving DecidableEq, Repr, Inhabited

/-! ### Mailboxes and the journal (13) -/

/-- A journal entry (13 R334): the command with its acceptance time and state, and its completion record once written. -/
structure JEntry where
  /-- SEQ [64b | 13 R334 | log 3] -/
  seq : Nat := 0
  /-- command bytes [64 to 4096 B | 13 R334 | log 3] -/
  cmd : List Byte := []
  /-- acceptance time [64b | 13 R334 | log 3] -/
  tAccept : Nat := 0
  /-- order of acceptance across mailboxes [n | 13 R334 | log 3] -/
  order : Nat := 0
  /-- state: 0 accepted, 1 executing (waiting for an event), 2 completed [2b | 13 R334 | log 3] -/
  st : Nat := 0
  /-- accepted under a debug authorisation [1b | 19 R480 | log 3] -/
  underAuth : Bool := false
  /-- that authorisation's permission has ended since (R480) [1b | 19 R480 | log 3] -/
  revoked : Bool := false
  /-- completion record, once completed [64 B | 13 R335 | log 3] -/
  record : List Byte := []
  deriving DecidableEq, Repr, Inhabited

/-- One mailbox MB0 to MB7, MM0, MM1. -/
structure MboxSt where
  /-- command slot [4 KiB | 13 R328 | 0] -/
  slot : Tab Byte := []
  /-- completion slot [4 KiB | 13 R328 | 0] -/
  comp : Tab Byte := []
  /-- LEN8 posted [10b | 13 R331 | 0] -/
  postLen : Nat := 0
  /-- SLOT_BUSY [1b | 13 R331 | 0] -/
  busy : Bool := false
  /-- SESSION [1b | 13 R339 | 0] -/
  session : Bool := false
  /-- granted feature bitmap [128b | 13 R340 | 0] -/
  granted : BitVec 128 := 0
  /-- MB_ACCEPT.CODE [8b | 13 R332 | 0] -/
  accCode : Nat := 0
  /-- MB_ACCEPT.REASON [16b | 13 R332 | 0] -/
  accReason : Nat := 0
  /-- MB_ACCEPT.DUP [1b | 13 R333 | 0] -/
  accDup : Bool := false
  /-- MB_ACCEPT_SEQ [64b | 13 R331 | 0] -/
  accSeq : Nat := 0
  /-- MB_NEXT_SEQ [64b | 13 R333 | 1] -/
  next : Nat := 1
  /-- MB_CONSUMED [64b | 13 R337 | 0] -/
  consumed : Nat := 0
  /-- highest completed SEQ [64b | 13 R337 | 0] -/
  highDone : Nat := 0
  /-- low half of MB_CONSUMED held for the write of the high half [32b | 13 R330 | 0] -/
  consLow : Word32 := 0
  /-- latched high halves of ACCEPT_SEQ, NEXT_SEQ, CONSUMED [3 x 32b | 13 R330 | 0] -/
  latch : Tab Word32 := []
  /-- MB_EVENT: bit 0 DECIDED, bit 1 COMPLETED [2b | 13 R330 | 0] -/
  event : Nat := 0
  /-- command journal of the mailbox, in SEQ order [n | 13 R334 | empty] -/
  journal : List JEntry := []
  /-- journal head in the always-on domain [64b | 13 R334 | 0] -/
  jhead : Nat := 0
  /-- endpoint that posted, for MM0 and MM1 [8b | 19 R490 | 0] -/
  endpoint : Byte := 0
  deriving DecidableEq, Repr, Inhabited

/-! ### Images, regions, tokens and ring functions (08, 12, 14) -/

/-- A placed GDDR6 region (12 R310, 14 R350 page 2). -/
structure Region where
  /-- KIND of R547, 0 for the matrix-image copy [8b | 14 R547 | log 3] -/
  kind : Nat := 0
  /-- network slot, 0xFF for the whole image [8b | 14 R547 | log 3] -/
  net : Nat := 0xFF
  /-- image handle [16b | 14 R350 | log 3] -/
  image : Nat := 0
  /-- region number of the image [n | 14 R547 | log 3] -/
  num : Nat := 0
  /-- base [64b | 12 R310 | log 3] -/
  base : Nat := 0
  /-- size [64b | 12 R310 | log 3] -/
  size : Nat := 0
  deriving DecidableEq, Repr, Inhabited

/-- A loaded image (14 R356, 17 R443). -/
structure ImageRec where
  /-- 0 compute, 1 fabric [1b | 14 R352 | log 3] -/
  kind : Nat := 0
  /-- the whole image, as kept in the matrix-image region [n B | 17 R443 | log 3] -/
  bytes : List Byte := []
  /-- SHA-512 digest recorded at LOAD_IMAGE [512b | 14 R356 | log 3] -/
  digest : List Byte := []
  /-- slots: network index i -> slot [n | 14 R356 | log 3] -/
  slots : List Nat := []
  deriving DecidableEq, Repr, Inhabited

/-- A page set of one core (14 R547). -/
structure PageSet where
  /-- page set number [n | 14 R547 | log 3] -/
  num : Nat := 0
  /-- logical core [7b | 14 R547 | log 3] -/
  core : Nat := 0
  /-- image handle [16b | 14 R547 | log 3] -/
  image : Nat := 0
  /-- device address of page 0 [64b | 14 R547 | log 3] -/
  home : Nat := 0
  /-- buffers, 1 or 2 [2b | 14 R547 | log 3] -/
  bufs : Nat := 1
  /-- write-back [1b | 12 R314 | log 3] -/
  writeBack : Bool := false
  /-- binding, 0xFF for none [8b | 14 R547 | log 3] -/
  binding : Nat := 0xFF
  /-- first words of buffers 0 and 1 [2 x 21b | 14 R547 | log 3] -/
  buf0 : Nat := 0
  /-- first word of buffer 1 [21b | 14 R547 | log 3] -/
  buf1 : Nat := 0
  /-- words per page [21b | 14 R547 | log 3] -/
  words : Nat := 0
  /-- number of pages [n | 14 R547 | log 3] -/
  pages : Nat := 0
  /-- schedule period [n | 14 R547 | log 3] -/
  period : Nat := 1
  /-- schedule entries (step, page) [n | 14 R547 | log 3] -/
  sched : List (Nat × Nat) := []
  deriving DecidableEq, Repr, Inhabited

/-- An element map (14 R549): destinations (core, row) of each element, and of each outlier channel. -/
structure ElemMap where
  /-- destinations by element [n | 14 R549 | log 3] -/
  elems : List (List (Nat × Nat)) := []
  /-- outlier element -> destinations [n | 14 R549 | log 3] -/
  outs : List (Nat × List (Nat × Nat)) := []
  deriving DecidableEq, Repr, Inhabited

/-- A token packet (08 R197, R198), decoded. -/
structure Token where
  /-- KIND [2b | 08 R197 | log 3] -/
  kind : Nat := 0
  /-- BODY: DELTA [1b | 08 R197 | log 3] -/
  delta : Bool := false
  /-- ZPM [1b | 08 R197 | log 3] -/
  zpm : Nat := 0
  /-- SLOT [2b | 08 R197 | log 3] -/
  slot : Nat := 0
  /-- element count N [13b | 08 R197 | log 3] -/
  n : Nat := 1
  /-- EXPERT [16b | 08 R197 | log 3] -/
  expert : Nat := 0
  /-- SEQ [16b | 08 R197 | log 3] -/
  seq : Nat := 0
  /-- WINDOW [32b | 08 R197 | log 3] -/
  window : Nat := 0
  /-- TSCALE [32b | 08 R197 | log 3] -/
  tscale : Word32 := 0
  /-- main codes after decoding the body [n x 16b | 08 R198 | log 3] -/
  codes : List Int := []
  /-- s_out [32b | 08 R198 | log 3] -/
  sout : Word32 := 0x3F800000
  /-- outlier entries (element, code) [n | 08 R198 | log 3] -/
  outl : List (Nat × Int) := []
  /-- source device [16b | 08 R201 | log 3] -/
  src : Nat := 0
  /-- flow it came on, or is sent on [16b | 08 R203 | log 3] -/
  flow : Nat := 0
  /-- message sequence number on that flow [32b | 11 R279 | log 3] -/
  mseq : Nat := 0
  deriving DecidableEq, Repr, Inhabited

/-- A code cache, or a sender's mirror, of one flow: (sequence, codes), most recently replaced last (08 R215). -/
abbrev CodeCache := List (Nat × List Int)

/-- An expert binding (08 R200, 14 R548). -/
structure BindSt where
  /-- EXPERT_BIND_STATUS.VALID [1b | 08 R217 | 0] -/
  valid : Bool := false
  /-- EXPERT_BIND_STATUS.STATE [2b | 08 R217 | 0] -/
  state : Nat := 0
  /-- expert ID [16b | 08 R217 | 0] -/
  expert : Nat := 0
  /-- CAP [8b | 08 R217 | 0] -/
  cap : Nat := 0
  /-- image handle [16b | 14 R548 | log 3] -/
  image : Nat := 0
  /-- element count N [13b | 14 R548 | log 3] -/
  n : Nat := 1
  /-- home network slot [4b | 08 R200 | log 3] -/
  net : Nat := 0
  /-- L_d [6b | 08 R200 | log 3] -/
  ld : Nat := 1
  /-- body zero point expected [1b | 14 R548 | log 3] -/
  zpm : Nat := 0
  /-- T_c in us [20b | 08 R202 | log 3] -/
  tc : Nat := 0
  /-- element map [n | 08 R205 | log 3] -/
  elemMap : ElemMap := {}
  /-- error map [n | 08 R213 | log 3] -/
  errMap : ElemMap := {}
  /-- return packer, 0xFF for none [8b | 14 R548 | log 3] -/
  ret : Nat := 0xFF
  /-- page set, 0xFFFF when resident [16b | 14 R548 | log 3] -/
  pageSet : Nat := 0xFFFF
  /-- flows that may send [n | 08 R200 | log 3] -/
  flows : List Nat := []
  /-- flows that have closed the next window (flow -> window + 1 of the last CLOSE) [n | 08 R199 | log 3] -/
  closed : Tab Nat := []
  /-- flows given up for the next window (R202) [n | 08 R202 | log 3] -/
  gaveUp : List Nat := []
  /-- time of the last decision of a window, from which T_c runs [64b | 08 R202 | log 3] -/
  tRef : Nat := 0
  /-- first CLOSE of each window not yet decided: (window, time) [n | 08 R202 | empty] -/
  closeAt : List (Nat × Nat) := []
  /-- DISPATCH tokens held in the token buffer [n | 08 R204 | log 3] -/
  held : List Token := []
  /-- admitted tokens waiting for their token step, oldest first [n | 08 R206 | log 3] -/
  admitted : List Token := []
  /-- expanded tokens waiting for the return packer: (step of expansion, token) [n | 08 R206 | log 3] -/
  inLayer : List (Nat × Token) := []
  /-- tokens expanded in the training cycle, by forward position [n | 08 R213 | log 3] -/
  byPos : List (Nat × Token) := []
  /-- ERROR tokens expanded, waiting for the errors of the input rows: (step of expansion, token) [n | 08 R213 | log 3] -/
  errIn : List (Nat × Token) := []
  deriving DecidableEq, Repr, Inhabited

/-- A packer assembles elements: sums of the step (08 R194). -/
structure PackSt where
  /-- declared [1b | 14 R548 | log 3] -/
  valid : Bool := false
  /-- image handle [16b | 14 R548 | log 3] -/
  image : Nat := 0
  /-- network slot [4b | 08 R190 | log 3] -/
  net : Nat := 0
  /-- element count [13b | 14 R548 | log 3] -/
  n : Nat := 1
  /-- top-k [3b | 08 R191 | log 3] -/
  k : Nat := 1
  /-- body zero point [1b | 08 R195 | log 3] -/
  zpm : Nat := 0
  /-- outlier channels [8 x 16b | 02 R56 | log 3] -/
  outl : List Nat := []
  /-- router group size [11b | 14 R548 | log 3] -/
  positions : Nat := 1
  /-- error map of the dispatch layer [n | 08 R213 | log 3] -/
  errMap : ElemMap := {}
  /-- expert directory: position -> (expert, replica flows) [1024 | 08 R193 | log 3] -/
  dir : Tab (Nat × List Nat) := []
  /-- binding served by a return packer [6b | 14 R548 | log 3] -/
  binding : Nat := 0
  /-- element sums by tag and element: tag*4096+i [4 x 4096 x 32b | 08 R194 | 0] -/
  sums : Tab Int := []
  /-- step last built + 1 [64b | 08 R196 | 0] -/
  built : Nat := 0
  /-- emit scale shared by the columns routed here [32b | 08 R194 | log 3] -/
  scale : Word32 := 0x3F800000
  /-- router winners: (tag, position, payload) in arrival order [4 x 4 | 08 R191 | empty] -/
  winners : List (Nat × Nat × Int) := []
  /-- router emit scale and zero point [32b, 16b | 08 R191 | log 3] -/
  rScale : Word32 := 0x3F800000
  /-- router emit zero point [16b | 08 R191 | log 3] -/
  rZp : Int := 0
  /-- router core and column base, for the errors of R214: (core, first column) [n | 08 R214 | log 3] -/
  rCore : Nat := 0
  /-- router column of position 0 [14b | 08 R214 | log 3] -/
  rCol : Nat := 0
  /-- sequence ID of the step's input [16b | 08 R193 | log 3] -/
  seq : Nat := 0
  /-- error sums of a return packer's ERROR input, by tag and element [4 x 4096 x n | 08 R213 | 0] -/
  errs : Tab Int := []
  deriving DecidableEq, Repr, Inhabited

/-- The token unpacker's windows (08 R199 to R206). -/
structure TokSt where
  /-- window whose admission is decided next, once one has been seen [32b | 08 R201 | none] -/
  window : Option Nat := none
  /-- CLOSE messages held until their window is decided: (flow, message, window) [n | 11 R280 | empty] -/
  closes : List (Nat × Nat × Nat) := []
  /-- blocks of token steps still to run: (window, token steps) [n | 08 R206 | empty] -/
  blocks : List (Nat × Nat) := []
  /-- token step of the first block that runs next [8b | 08 R206 | 0] -/
  next : Nat := 0
  /-- home-network step whose token step has begun + 1 [64b | 08 R206 | 0] -/
  started : Nat := 0
  deriving DecidableEq, Repr, Inhabited

/-- One slot of a pending window at a combiner (08 R193, R210). -/
structure SlotSt where
  /-- 0 waiting, 1 returned, 2 refused [2b | 08 R210 | log 3] -/
  st : Nat := 0
  /-- gate [32b | 08 R192 | log 3] -/
  gate : Word32 := 0
  /-- flow the token was sent on [16b | 08 R193 | log 3] -/
  flow : Nat := 0
  /-- the RETURN token [n | 08 R210 | log 3] -/
  tok : Token := {}
  /-- router position [10b | 08 R191 | log 3] -/
  pos : Nat := 0
  deriving DecidableEq, Repr, Inhabited

/-- A pending window of a combiner: (window, sequence, slots) (08 R193). -/
structure PendWin where
  /-- window [32b | 08 R193 | log 3] -/
  window : Nat := 0
  /-- sequence ID [16b | 08 R193 | log 3] -/
  seq : Nat := 0
  /-- slots [4 | 08 R191 | log 3] -/
  slots : List SlotSt := []
  /-- resolved and mixed: kept for its errors (R213, R214) [1b | 08 R213 | log 3] -/
  mixed : Bool := false
  /-- forward position in which it was formed [17b | 08 R213 | log 3] -/
  pos : Nat := 0
  /-- forward position in which it was mixed [17b | 08 R213 | log 3] -/
  mixPos : Nat := 0
  deriving DecidableEq, Repr, Inhabited

/-- A combiner (08 R210). -/
structure CombSt where
  /-- declared [1b | 14 R548 | log 3] -/
  valid : Bool := false
  /-- image handle [16b | 14 R548 | log 3] -/
  image : Nat := 0
  /-- network slot [4b | 08 R190 | log 3] -/
  net : Nat := 0
  /-- dispatch packer [4b | 14 R548 | log 3] -/
  packer : Nat := 0
  /-- FALLBACK: true RENORM [1b | 08 R211 | log 3] -/
  renorm : Bool := false
  /-- L_r [6b | 08 R210 | log 3] -/
  lr : Nat := 1
  /-- element map of the combined output [n | 08 R210 | log 3] -/
  elemMap : ElemMap := {}
  /-- pending windows [n | 08 R193 | empty] -/
  wins : List PendWin := []
  /-- error sums of the combined output, by tag and element [4 x 4096 x n | 08 R213 | 0] -/
  errs : Tab Int := []
  deriving DecidableEq, Repr, Inhabited

/-- A ring function bound to a network (14 R549). -/
structure RingFn where
  /-- network slot + 1, 0 for unbound [5b | 14 R549 | 0] -/
  net : Nat := 0
  /-- image handle [16b | 14 R549 | log 3] -/
  image : Nat := 0
  /-- ingest kind: 0 FRAME, 1 AE, 2 TOKEN [2b | 15 R381 | log 3] -/
  fkind : Nat := 0
  /-- FMT [2b | 15 R381 | log 3] -/
  fmt : Nat := 0
  /-- EMODE: DELTA [1b | 15 R381 | log 3] -/
  delta : Bool := false
  /-- NELEM [17b | 15 R381 | log 3] -/
  nelem : Nat := 0
  /-- element map, or destination table of a flow sender [n | 15 R381 | log 3] -/
  map : ElemMap := {}
  /-- flow context of a flow sender [16b | 15 R404 | log 3] -/
  flow : Nat := 0
  /-- outlier channels of a flow sender [n | 15 R404 | log 3] -/
  outl : List Nat := []
  /-- vector gathered by a flow sender: (element, payload, isSpike) in arrival order [n | 15 R404 | empty] -/
  vec : List (Nat × Int × Bool) := []
  /-- target-step tag of the gathered vector [2b | 05 R124 | log 3] -/
  tag : Nat := 0
  /-- emit scale of the gathered vector [32b | 15 R404 | log 3] -/
  scale : Word32 := 0x3F800000
  /-- sent totals by tag, for R133 [4 x n | 05 R133 | 0] -/
  sent : Tab Nat := []
  /-- step closed by this emitter + 1 (R133) [64b | 05 R133 | 0] -/
  closedStep : Nat := 0
  deriving DecidableEq, Repr, Inhabited

/-- Expansion in progress in the ring: events still to be injected, oldest first, for one network (08 R205, R207). -/
structure Expansion where
  /-- ring function that injects [10b | 08 R190 | log 3] -/
  fn : Nat := 0
  /-- network slot [4b | 08 R205 | log 3] -/
  net : Nat := 0
  /-- event still to write, with its destination sector [n | 08 R205 | log 3] -/
  item : EvItem := {}
  /-- t and t_out that the expansion sets at its cores [2 x 32b | 08 R205 | log 3] -/
  t : Word32 := 0x3F800000
  /-- t_out [32b | 08 R205 | log 3] -/
  tOut : Word32 := 0x3F800000
  deriving DecidableEq, Repr, Inhabited

/-! ### Fabric (11) -/

/-- A message of a flow: kind and body (11 R279, R280). -/
structure Msg where
  /-- MSEQ [32b | 11 R279 | log 3] -/
  mseq : Nat := 0
  /-- MKIND [4b | 11 R280 | log 3] -/
  kind : Nat := 0
  /-- body [8 to 65536 B | 11 R279 | log 3] -/
  body : List Byte := []
  /-- sent, and not called for again [1b | 11 R286 | log 3] -/
  sent : Bool := false
  /-- its next transmission is a resend [1b | 11 R289 | log 3] -/
  again : Bool := false
  /-- flow + 1 of the dispatch token that this RETURN token acknowledges once retained [n | 08 R208 | log 3] -/
  ackFlow : Nat := 0
  /-- sequence number of that dispatch token [32b | 08 R208 | log 3] -/
  ackSeq : Nat := 0
  /-- offset in the retransmit region, or in the staging pool, in units of 64 bytes [n | 11 R283 | log 3] -/
  at_ : Nat := 0
  /-- packer that sent a token + 1 [n | 08 R203 | log 3] -/
  sub : Nat := 0
  /-- codes that the sender's mirror held for the token's sequence before it [n | 08 R215 | log 3] -/
  prev : Option (List Int) := none
  deriving DecidableEq, Repr, Inhabited

/-- A refused message of this end with its code (08 R203). -/
structure Nak where
  /-- the message [n | 08 R203 | log 3] -/
  msg : Msg := {}
  /-- code [4b | 08 R203 | log 3] -/
  code : Nat := 0
  deriving DecidableEq, Repr, Inhabited

/-- One flow context with its retransmit and staging contents (11 R283, R286, R287). -/
structure FlowSt where
  /-- PEER_DEV [16b | 11 R283 | 0] -/
  peerDev : Nat := 0
  /-- PEER_FLOW [16b | 11 R283 | 0] -/
  peerFlow : Nat := 0
  /-- EPOCH [16b | 11 R283 | 0] -/
  epoch : Nat := 0
  /-- FSTATE: 0 CLOSED, 1 OPENING, 2 OPEN, 3 CLOSING, 4 REOPENING [3b | 11 R283 | 0] -/
  fstate : Nat := 0
  /-- STALLED [1b | 11 R283 | 0] -/
  stalled : Bool := false
  /-- NET [4b | 11 R283 | 0] -/
  net : Nat := 0
  /-- NEXT_SEQ [32b | 11 R283 | 0] -/
  nextSeq : Nat := 0
  /-- ACKED_SEQ [32b | 11 R283 | 0] -/
  ackedSeq : Nat := 0
  /-- RX_WM [32b | 11 R283 | 0] -/
  rxWm : Nat := 0
  /-- RX_ARRIVED [32b | 11 R283 | 0] -/
  rxArrived : Nat := 0
  /-- RTX_HEAD [32b | 11 R283 | 0] -/
  rtxHead : Nat := 0
  /-- RTX_TAIL [32b | 11 R283 | 0] -/
  rtxTail : Nat := 0
  /-- MODE of the opening: RESUME [1b | 11 R291 | log 3] -/
  resume : Bool := false
  /-- retransmit timeout set, in us [14b | 11 R289 | log 3] -/
  rtoSet : Nat := 20
  /-- retransmit timeout in force, in us [14b | 11 R289 | log 3] -/
  rto : Nat := 20
  /-- retransmit quota, bytes [n | 11 R286 | log 3] -/
  rtxQuota : Nat := 0
  /-- staging quota, bytes [n | 11 R287 | log 3] -/
  stgQuota : Nat := 0
  /-- handshake timeout instant [64b | 11 R291 | log 3] -/
  hsDeadline : Nat := 0
  /-- mailbox + 1 of the OPEN_FLOW or CLOSE_FLOW that waits [4b | 14 R367 | log 3] -/
  waiter : Nat := 0
  /-- mailbox + 1 of a waiting unforced close [4b | 14 R368 | log 3] -/
  closer : Nat := 0
  /-- messages offered by sources, waiting for the region [n | 11 R286 | empty] -/
  srcQ : List Msg := []
  /-- retained messages, oldest first [n | 11 R286 | empty] -/
  rtx : List Msg := []
  /-- receive staging: messages received whole, above RX_WM [n | 11 R287 | empty] -/
  stage : List Msg := []
  /-- consumed sequence numbers above RX_WM [n | 11 R287 | empty] -/
  consumed : Tab Bool := []
  /-- messages delivered to their consumer, by sequence number [n | 11 R287 | empty] -/
  delivered : Tab Bool := []
  /-- segments gathered for message RX_ARRIVED + 1 [n | 11 R287 | empty] -/
  gather : List Byte := []
  /-- next segment index expected [6b | 11 R287 | 0] -/
  nextSeg : Nat := 0
  /-- refused messages to be listed in ACKs: (sequence, code) [n | 11 R288 | empty] -/
  refused : List (Nat × Nat) := []
  /-- peer's staging credit less bytes sent since [n | 11 R289 | 0] -/
  credit : Nat := 0
  /-- peer's RX_ARRIVED last reported [32b | 11 R289 | 0] -/
  peerArrived : Nat := 0
  /-- time of the last progress [64b | 11 R289 | log 3] -/
  lastProgress : Nat := 0
  /-- events of a message still unpopped: mseq -> count [n | 11 R280 | empty] -/
  unpopped : Tab Nat := []
  /-- first unit of the flow's space in the retransmit region [n | 11 R286 | log 3] -/
  rtxAt : Nat := 0
  /-- first unit of the flow's space in the staging pool [n | 11 R287 | log 3] -/
  stgAt : Nat := 0
  /-- next unit of staging space, counting on [n | 11 R287 | log 3] -/
  stgTail : Nat := 0
  /-- an ACK is due [1b | 11 R288 | 0] -/
  ackDue : Bool := false
  /-- an ACK with GAP is due [1b | 11 R287 | 0] -/
  gapDue : Bool := false
  /-- token messages passed on to the token units, oldest first [n | 11 R280 | empty] -/
  tokQ : List Msg := []
  /-- refused token packets of this end, oldest first [n | 08 R203 | empty] -/
  naks : List Nak := []
  /-- time of the last OPEN sent [64b | 11 R292 | log 3] -/
  openAt : Nat := 0
  /-- start of the retransmit timeout in progress [64b | 11 R289 | log 3] -/
  rtoAt : Nat := 0
  /-- code cache entries declared [9b | 08 R215 | 0] -/
  cacheSize : Nat := 0
  /-- mirror of the peer's code cache [256 sequences | 08 R215 | empty] -/
  mirror : CodeCache := []
  /-- code cache [256 sequences | 08 R215 | empty] -/
  cache : CodeCache := []
  deriving DecidableEq, Repr, Inhabited

/-- A frame held in a port's link replay buffer (11 R274). -/
structure Frame where
  /-- LSEQ [8b | 11 R271 | log 3] -/
  lseq : Nat := 0
  /-- virtual channel [2b | 11 R275 | log 3] -/
  vc : Nat := 0
  /-- forwarded for another device [1b | 11 R277 | log 3] -/
  fwd : Bool := false
  /-- segment: header and data [n B | 11 R279 | log 3] -/
  payload : List Byte := []
  /-- times resent without LACK advancing [5b | 11 R270 | 0] -/
  resent : Nat := 0
  /-- input port + 1 of a forwarded frame, whose buffer it still holds [4b | 11 R275 | 0] -/
  src : Nat := 0
  deriving DecidableEq, Repr, Inhabited

/-- One fabric port (11). -/
structure PortSt where
  /-- STATE: 0 DOWN 1 TRAINING 2 MEASURE 3 UP 4 RETRAIN 5 FAILED [3b | 11 R268 | 0] -/
  state : Nat := 0
  /-- LANES [2b | 11 R270 | 0] -/
  lanes : Nat := 0
  /-- VARIANT [1b | 11 R270 | 0] -/
  variant : Nat := 0
  /-- OFS_VALID [1b | 11 R270 | 0] -/
  ofsValid : Bool := false
  /-- LANE_BAD [4b | 11 R270 | 0] -/
  laneBad : BitVec 4 := 0
  /-- RETRAINED, FAILED_EVT, DEGRADED bits 2:0 [3b | 11 R270 | 0] -/
  events : Nat := 0
  /-- enabled by the board descriptor [1b | 11 R266 | log 3] -/
  enabled : Bool := false
  /-- injection MODE [3b | 11 R297 | 0] -/
  injMode : Nat := 0
  /-- injection N [16b | 11 R297 | 0] -/
  injN : Nat := 0
  /-- DATA frames since the last injection [16b | 11 R297 | log 3] -/
  injCount : Nat := 0
  /-- OXP_TIME_OFS [32b | 11 R299 | 0] -/
  offset : Word32 := 0
  /-- OXP_TIME_AUX.DELAY_NS [16b | 11 R299 | 0] -/
  delay : Nat := 0
  /-- OXP_TIME_AUX.RATE [16b | 11 R299 | 0] -/
  rate : Word32 := 0
  /-- OXP_TIME_AT [32b | 11 R299 | 0] -/
  at_ : Word32 := 0
  /-- rounds of the exchange in progress: best (theta, d) and count [n | 11 R298 | log 3] -/
  rounds : Nat := 0
  /-- best round (theta, d) so far [n | 11 R298 | log 3] -/
  best : Option (Int × Int) := none
  /-- LSEQ of the next DATA frame [8b | 11 R274 | 0] -/
  txSeq : Nat := 0
  /-- last LSEQ accepted in order [8b | 11 R274 | 255] -/
  rxSeq : Nat := 255
  /-- waiting for a resend: frames discarded [1b | 11 R274 | 0] -/
  rxGap : Bool := false
  /-- link replay buffer, oldest first [64 frames | 11 R274 | empty] -/
  replay : List Frame := []
  /-- frames of the replay buffer still to be resent [n | 11 R274 | 0] -/
  resend : Nat := 0
  /-- frames waiting to be sent, per virtual channel [3 x n | 11 R275 | empty] -/
  txQ : List Frame := []
  /-- credit held per virtual channel, in bytes [3 x n | 11 R275 | 32 KiB] -/
  credit : Tab Nat := []
  /-- credit to return per virtual channel [3 x n | 11 R275 | 0] -/
  owed : Tab Nat := []
  /-- frames received since the last outgoing frame [5b | 11 R274 | 0] -/
  unacked : Nat := 0
  /-- accepted segments for this device [32 KiB per VC | 11 R279 | empty] -/
  rxQ : List (List Byte) := []
  /-- LRETRY to send [1b | 11 R274 | 0] -/
  retryDue : Bool := false
  /-- time of the last outgoing frame [64b | 11 R274 | log 3] -/
  txAt : Nat := 0
  /-- frame held back by SWAP, as sent after the next DATA frame [n | 11 R297 | empty] -/
  swapped : List (List Byte) := []
  /-- time LACK last advanced [64b | 11 R274 | log 3] -/
  lackAt : Nat := 0
  /-- times of the last failed retrains [n | 11 R268 | empty] -/
  failTimes : List Nat := []
  /-- reset and DOWN, to be trained again by the firmware [1b | 11 R268, 17 R444 | 0] -/
  trainDue : Bool := false
  /-- time at which the last TIME exchange began [64b | 11 R298 | log 3] -/
  exchAt : Nat := 0
  deriving DecidableEq, Repr, Inhabited

/-! ### Streams, timers, line outputs (15) -/

/-- One stream context (15). -/
structure StcSt where
  /-- STC_CFG.BOUND [1b | 15 R390 | 0] -/
  bound : Bool := false
  /-- STC_CFG.SKIND [2b | 15 R390 | 0] -/
  skind : Nat := 0
  /-- STC_CFG.NET [4b | 15 R390 | 0] -/
  net : Nat := 0
  /-- STC_CFG.IFN [6b | 15 R390 | 0] -/
  ifn : Nat := 0
  /-- STC_CFG.RES_LOG2 [5b | 15 R390 | 0] -/
  resLog2 : Nat := 0
  /-- RES_ADDR [64b | 15 R382 | 0] -/
  resAddr : Nat := 0
  /-- THRESH [16b | 15 R382 | 0] -/
  thresh : Nat := 0
  /-- binding or unbinding waits for T_{n+1}: mailbox + 1 [4b | 14 R360 | 0] -/
  bindWait : Nat := 0
  /-- unbinding waits for T_{n+1}: mailbox + 1 [4b | 14 R360 | 0] -/
  unbindWait : Nat := 0
  /-- unbindings whose z - r is still to be sent: (network, ingest function, references) [n | 14 R360, 15 R386 | empty] -/
  farewell : List (Nat × Nat × Tab Int) := []
  /-- window bytes by offset [256 KiB | 15 R378 | 0] -/
  win : Tab Byte := []
  /-- POSTED slots in post order, with LEN and the time of the post [4 | 15 R379 | empty] -/
  posted : List (Nat × Nat × Nat) := []
  /-- references r_i, held as r_i - z [65536 x 17b | 15 R385 | 0] -/
  refs : Tab Int := []
  /-- STC_STATUS bits 4:0 [5b | 15 R390 | 0] -/
  status : Nat := 0
  /-- PROD [16b | 15 R390 | 0] -/
  prod : Nat := 0
  /-- CONS [16b | 15 R390 | 0] -/
  cons : Nat := 0
  deriving DecidableEq, Repr, Inhabited

/-- One timer channel (15 R392 to R399). -/
structure TimerSt where
  /-- TMR_CTRL without COUNT_ON and LOCKED [32b | 15 R399 | 0] -/
  ctrl : Word32 := 0
  /-- COUNT_ON [1b | 15 R399 | 0] -/
  on : Bool := false
  /-- DIV [16b | 15 R399 | 0] -/
  div : Nat := 0
  /-- kernel cycles since the last tick [16b | 15 R393 | 0] -/
  pre : Nat := 0
  /-- COUNT [32b | 15 R399 | 0] -/
  count : Nat := 0
  /-- LIMIT [32b | 15 R399 | 0xFFFF_FFFF] -/
  limit : Nat := 0xFFFFFFFF
  /-- TMR_SNAP0 [32b | 15 R399 | 0] -/
  snap0 : Nat := 0
  /-- TMR_SNAP1 [32b | 15 R399 | 0] -/
  snap1 : Nat := 0
  /-- TMR_SNAPCFG [32b | 15 R399 | 0] -/
  snapcfg : Word32 := 0
  /-- edges since the last capture, units 0 and 1 [2 x 8b | 15 R395 | 0] -/
  edge0 : Nat := 0
  /-- edges since the last capture of unit 1 [8b | 15 R395 | 0] -/
  edge1 : Nat := 0
  /-- OUT_STATE [1b | 15 R399 | 0] -/
  out : Bool := false
  /-- TMR_STATUS bits 4:0 [5b | 15 R399 | 0] -/
  status : Nat := 0
  /-- TMR_PAIR_HI [32b | 15 R398 | 0] -/
  pairHi : Nat := 0
  /-- the count has come to equal TMR_SNAP0 in compare mode, and the match is to be taken [1b | 15 R396 | 0] -/
  due0 : Bool := false
  /-- the same of TMR_SNAP1 [1b | 15 R396 | 0] -/
  due1 : Bool := false
  /-- level of the channel's pin behind its debounce stage [1b | 15 R394 | log 3] -/
  level : Bool := false
  deriving DecidableEq, Repr, Inhabited

/-- One line output (15 R401 to R403). -/
structure LoutSt where
  /-- MODE: PULSE [1b | 15 R403 | 0] -/
  pulse : Bool := false
  /-- POL [1b | 15 R403 | 0] -/
  pol : Bool := false
  /-- ENS_INIT [1b | 15 R403 | 0] -/
  ensInit : Bool := false
  /-- PULSE_W [24b | 15 R403 | 0] -/
  width : Nat := 0
  /-- LOUT_CFG written since the reset [1b | 15 R403 | 0] -/
  configured : Bool := false
  /-- ASSERTED [1b | 15 R403 | 0] -/
  asserted : Bool := false
  /-- end of the pulse in progress, 0 for none [64b | 15 R401 | 0] -/
  pulseEnd : Nat := 0
  /-- time of the pin's last change + 1, 0 for none in the last 10 ns [64b | 15 R402 | 0] -/
  changedAt : Nat := 0
  /-- time of the last assertion + 1 [64b | 15 R402 | 0] -/
  assertedAt : Nat := 0
  /-- time + 1 of an assertion that waits for the 10 ns of the last change, 0 for none [64b | 15 R402 | 0] -/
  upAt : Nat := 0
  /-- time + 1 of a deassertion that waits so, 0 for none [64b | 15 R402 | 0] -/
  downAt : Nat := 0
  deriving DecidableEq, Repr, Inhabited

/-! ### Outputs of the block -/

/-- What the block sends out, in the order sent: the observable side of PCIe, the sideband and the fabric. The
model's own field (log 9). -/
inductive Out where
  | hostWrite (addr : Nat) (bytes : List Byte)
  | msix (vector : Nat)
  | readData (bytes : List Byte)
  | readPoisoned (len : Nat)
  | unsupported
  | configRetry
  | configDone (value : Word32)
  | aer (code : Nat)
  | frame (port : Nat) (ltype : Nat) (bytes : List Byte) (corrupt : Bool)
  | mgmt (typ : Nat) (code : Nat) (bytes : List Byte)
  | jtag (granted : Bool)
  deriving DecidableEq, Repr

/-! ### Whole-device state -/

/-- The always-on domain (01 R28) less the timer block: power, supervisors, ownership latch, fault record. -/
structure AoSt where
  /-- time base in ns [64b | 01 R27 | 0] -/
  time : Nat := 0
  /-- TIME_HI latch [32b | 21 R521 | 0] -/
  timeHi : Word32 := 0
  /-- power-on reset released [1b | 17 R427 | 0] -/
  porReleased : Bool := false
  /-- PERST_N level high [1b | 17 R439 | log 3] -/
  perstHigh : Bool := true
  /-- RESET_N level high [1b | 17 R439 | log 3] -/
  resetHigh : Bool := true
  /-- device reset held [1b | 17 R439 | 0] -/
  inReset : Bool := false
  /-- PWR_STATUS.STATE, less P1 which is derived [2b | 16 R416 | 0] -/
  pstate : Nat := 0
  /-- PWR_WARN [1b | 16 R412 | 0] -/
  pwrWarn : Bool := false
  /-- VCORE_WARN [1b | 16 R412 | 0] -/
  vcoreWarn : Bool := false
  /-- VAUX_WARN [1b | 16 R412 | 0] -/
  vauxWarn : Bool := false
  /-- last warning crossing [64b | 16 R412 | log 3] -/
  lastWarn : Nat := 0
  /-- time at which a rail last rose above its warning threshold [64b | 16 R412 | log 3] -/
  aboveAt : Nat := 0
  /-- rise of PWR_WARN [64b | 16 R412 | log 3] -/
  warnRise : Nat := 0
  /-- times of the last 16 rises, newest first [16 x 64b | 16 R415 | empty] -/
  warnRises : List Nat := []
  /-- THROTTLE [1b | 16 R424 | 0] -/
  throttle : Bool := false
  /-- entry to throttle [64b | 16 R424 | log 3] -/
  throttleRise : Nat := 0
  /-- since when every sensor is at or below 92 C, plus 1 [64b | 16 R424 | 0] -/
  coolSince : Nat := 0
  /-- REG_LP [1b | 16 R408 | 0] -/
  regLp : Bool := false
  /-- PERSIST [1b | 16 R415 | 0] -/
  persist : Bool := false
  /-- EMERGENCY [1b | 16 R424 | 0] -/
  emergency : Bool := false
  /-- LAST_RESET [3b | 16 R425 | 0] -/
  lastReset : Nat := 0
  /-- cause of the device reset in progress [3b | 16 R425 | 0] -/
  resetCause : Nat := 0
  /-- REG_READY, OSC_READY, MEM_READY, LOGIC_READY bits 3..0 [4b | 16 R419 | 0] -/
  ready : Nat := 0
  /-- GDDR_LOST [1b | 16 R413 | 0] -/
  gddrLost : Bool := false
  /-- self-refresh not completed in the reset in progress [1b | 16 R413 | 0] -/
  srFailed : Bool := false
  /-- RETENTION_LOST [1b | 16 R423 | 0] -/
  retentionLost : Bool := false
  /-- retention brown-out cold path in progress [1b | 16 R423 | 0] -/
  brownout : Bool := false
  /-- WARN_EVT, THROTTLE_EVT, EMERG_EVT, P3_GUARD_WAKE as bits 6,5,4,3 [4b | 16 R425 | 0] -/
  pwrEvents : Nat := 0
  /-- wake in progress: target state + 1 [2b | 16 R419 | 0] -/
  waking : Nat := 0
  /-- THERMTRIP_N driven low [1b | 16 R425 | 0] -/
  tripped : Bool := false
  /-- junction sensor readings, units of 0.125 C [20 x 16b | 16 R424 | 0] -/
  temps : Tab Int := []
  /-- latch: owner is south [1b | 18 R470 | 0] -/
  ownerSouth : Bool := false
  /-- OWNER_EPOCH [32b | 21 R520 | 1] -/
  epoch : Nat := 1
  /-- owner's heartbeat stamp [64b | 18 R470 | log 3] -/
  hbStamp : Nat := 0
  /-- a Halyard serves mailboxes [1b | 13 R331 | 0] -/
  serving : Bool := false
  /-- Halyards that have fenced themselves (R470), bit 0 north, bit 1 south [2b | 18 R470 | 0] -/
  selfFenced : Nat := 0
  /-- north Halyard fenced in the fault record [1b | 18 R474 | 0] -/
  northFenced : Bool := false
  /-- south Halyard fenced in the fault record [1b | 18 R474 | 0] -/
  southFenced : Bool := false
  /-- STANDBY_UP [1b | 18 R474 | 0] -/
  standbyUp : Bool := false
  /-- fault record: FENCED_MAP of each sector [8 x 17b | 17 R435 | 0] -/
  fenced : Tab (BitVec 17) := []
  /-- fault record: failed banks of each sector [8 x 64b | 17 R437 | 0] -/
  badBanks : Tab Word64 := []
  /-- TOUT_MAP [32b | 15 R399 | 0] -/
  toutMap : Word32 := 0
  /-- MGT_I3C [1b | 19 R488 | 0] -/
  mgtI3c : Bool := false
  /-- ENS_INIT copy taken on entry to P2 or P3 [8b | 18 R465 | 0] -/
  ensCopy : BitVec 8 := 0
  /-- the entry of R464 waits for the owner from step 2: cause [3b | 18 R465 | 0] -/
  ensignPending : Nat := 0
  deriving DecidableEq, Repr, Inhabited

/-- Bring-up status (17). -/
structure BootSt where
  /-- DEV_READY [1b | 17 R431 | 0] -/
  devReady : Bool := false
  /-- LINKS_READY [1b | 17 R433 | 0] -/
  linksReady : Bool := false
  /-- FW_VERIFIED [1b | 17 R433 | 0] -/
  fwVerified : Bool := false
  /-- REPAIR_LOADED [1b | 17 R433 | 0] -/
  repairLoaded : Bool := false
  /-- GDDR_READY [1b | 17 R433 | 0] -/
  gddrReady : Bool := false
  /-- CAL_DONE [1b | 17 R433 | 0] -/
  calDone : Bool := false
  /-- FW_SLOT [1b | 17 R433 | 0] -/
  fwSlot : Nat := 0
  /-- PHASE [4b | 17 R433 | 0] -/
  phase : Nat := 0
  /-- BOOT_ERR [4b | 17 R433 | 0] -/
  bootErr : Nat := 0
  /-- bring-up in progress: next phase of R427 to end, 1 to 8; 0 when none [4b | 17 R427 | 1] -/
  next : Nat := 1
  /-- cold path (GDDR6 filled) rather than device-reset path [1b | 17 R439 | 1] -/
  cold : Bool := true
  /-- compute-partition reset in progress: next step to end, 0 when none [4b | 17 R442 | 0] -/
  crStep : Nat := 0
  /-- mailboxes + 1 whose RESET_COMPUTE waits for it [n | 17 R445 | empty] -/
  crWaiters : List Nat := []
  /-- sectors whose wave of phase 5 has ended, by bit [8b | 17 R428 | 0] -/
  waves : Nat := 0
  deriving DecidableEq, Repr, Inhabited

/-- The PCIe endpoint (13 R320 to R326). -/
structure PcieSt where
  /-- link up [1b | 13 R321 | 0] -/
  linkUp : Bool := false
  /-- BAR0 base [64b | 13 R321 | 0] -/
  bar0 : Word64 := 0
  /-- BAR2 base [64b | 13 R325 | 0] -/
  bar2 : Word64 := 0
  /-- BAR2 size: 2^k x 256 MiB [4b | 13 R325 | log 3] -/
  bar2Log : Nat := 0
  /-- bus master enable [1b | 13 R321 | 0] -/
  busMaster : Bool := false
  /-- MSI-X enable [1b | 13 R321 | 0] -/
  msixEn : Bool := false
  /-- MSI-X function mask [1b | 13 R321 | 0] -/
  fmask : Bool := false
  /-- MSI-X table, word 4*v+w [64 x 128b | 13 R324 | mask bits 1 (PCIe), log 10] -/
  msixTab : Tab Word32 := []
  /-- MSI-X pending bits [64b | 13 R324 | 0] -/
  pba : Word64 := 0
  /-- D3hot [1b | 13 R321 | 0] -/
  d3 : Bool := false
  /-- ECRC checking enabled [1b | 13 R320 | 0] -/
  ecrc : Bool := false
  /-- BAR2_BASE.BASE [8b | 13 R325 | 0] -/
  base : Nat := 0
  /-- flow event FIFO, oldest first: (kind, flow) [256 | 13 R327 | empty] -/
  flowEv : List (Nat × Nat) := []
  /-- an event was lost since the last entry was popped [1b | 13 R327 | 0] -/
  flowOvf : Bool := false
  /-- TIME_MARK value [64b | 21 R521 | 0] -/
  mark : Word64 := 0
  /-- TIME_MARK_HI latch [32b | 21 R521 | 0] -/
  markHi : Word32 := 0
  /-- INT_DEV_CAUSE [10b | 21 R522 | 0] -/
  cause : Nat := 0
  /-- counter-window high words latched, by slot offset [n x 32b | 20 R506 | 0] -/
  ctrLatch : Tab Word32 := []
  /-- shadow of every other readable BAR0 register in P3, by offset [n x 32b | 16 R421 | log 3] -/
  shadow : Tab Word32 := []
  deriving DecidableEq, Repr, Inhabited

/-- A checkpoint in GDDR6 (07 R185): what it saves. Its byte layout is not given, so its bytes are free values drawn
from `seed` on (log 10). -/
structure Ckpt where
  /-- device address [64b | 14 R366 | log 3] -/
  base : Nat := 0
  /-- length [64b | 14 R366 | log 3] -/
  len : Nat := 0
  /-- first free value of its bytes [n | model, log 10 | log 3] -/
  seed : Nat := 0
  /-- digest of its load image [512b | 07 R185 | log 3] -/
  digest : List Byte := []
  /-- saved cores (core, state) [n | 07 R185 | log 3] -/
  cores : List (Nat × CoreSt) := []
  /-- saved gradient pages (address, byte) [n | 07 R185 | log 3] -/
  grads : List Host.Cell := []
  /-- step number n [64b | 07 R185 | log 3] -/
  step : Nat := 0
  /-- training-cycle position [17b | 07 R185 | log 3] -/
  pos : Nat := 0
  deriving DecidableEq, Repr, Inhabited

/-- A block request held while its channel retrains (12 R303). -/
structure GddrReq where
  /-- device address [64b | 12 R307 | log 3] -/
  addr : Nat := 0
  /-- the request [n | 12 R306 | log 3] -/
  op : GddrOp := .read
  /-- its class [3b | 12 R316 | log 3] -/
  cls : GddrClass := .system
  /-- what its ECC check finds [2b | 12 R305 | log 3] -/
  ecc : EccResult := .clean
  deriving DecidableEq, Repr

/-- GDDR6 memory and its controllers (12). -/
structure GddrSt where
  /-- contents: canonical list of written bytes [up to 48 GiB | 12 R308 | 0] -/
  mem : List Host.Cell := []
  /-- poisoned 64-byte blocks [n | 12 R305 | none] -/
  poison : Tab Bool := []
  /-- checkpoints written, newest first [n | 07 R185 | none] -/
  ckpts : List Ckpt := []
  /-- ECC_EN [1b | 12 R319 | 0] -/
  ecc : Bool := false
  /-- CLAMSHELL [1b | 12 R319 | 0] -/
  clam : Bool := false
  /-- DEVICES [5b | 12 R319 | 0] -/
  devices : Nat := 0
  /-- RATE [6b | 12 R319 | 0] -/
  rate : Nat := 0
  /-- USABLE in units of 256 MiB [16b | 12 R319 | 0] -/
  usable : Nat := 0
  /-- controller STATE [12 x 2b | 12 R319 | 0] -/
  state : Tab Nat := []
  /-- controller W1C bits [12 x 4b | 12 R319 | 0] -/
  events : Tab Nat := []
  /-- what the retransmit region holds of each flow through a device reset [n | 11 R286, 12 R312 | empty] -/
  rtxKeep : Tab (List Msg) := []
  /-- block that the last read returned [64 B | 12 R307 | log 3] -/
  readData : List Byte := []
  /-- that block is poisoned [1b | 12 R305 | log 3] -/
  readPoison : Bool := false
  /-- channels (controller*2+channel): 1 retraining, 2 stopped [24 x 2b | 12 R303 | 0] -/
  chan : Tab Nat := []
  /-- requests that wait for a channel, oldest first [n | 12 R303 | empty] -/
  held : List GddrReq := []
  /-- size of the retransmit region, bytes [n | 12 R309 | 0] -/
  rtxSize : Nat := 0
  /-- size of the staging pool, bytes [n | 12 R309 | 0] -/
  stgSize : Nat := 0
  /-- memory configuration rejected (R302) [1b | 12 R302 | 0] -/
  rejected : Bool := false
  deriving DecidableEq, Repr, Inhabited

/-- Board facts the firmware reads from flash or pins: the board descriptor (12 R300, R309, 16 R407, 11 R266). -/
structure BoardSt where
  /-- VCORE setpoint in mV [n | 16 R407 | 750, log 11] -/
  setpoint : Nat := 750
  /-- descriptor: ECC on [1b | 12 R300 | true, log 11] -/
  ecc : Bool := true
  /-- descriptor: clamshell [1b | 12 R300 | false, log 11] -/
  clam : Bool := false
  /-- descriptor: density of each memory device in Gb [n | 12 R300 | 16, log 11] -/
  density : Nat := 16
  /-- descriptor: memory devices of differing density [1b | 12 R302 | false, log 11] -/
  mixed : Bool := false
  /-- descriptor: partly populated [1b | 12 R302 | false, log 11] -/
  partly : Bool := false
  /-- descriptor: rate in units of 0.5 Gb/s [6b | 12 R301 | 40, log 11] -/
  rate : Nat := 40
  /-- descriptor: retransmit region in units of 64 MiB [5b | 12 R309 | 1, log 11] -/
  rtx64 : Nat := 1
  /-- descriptor: staging pool in units of 64 MiB [5b | 12 R309 | 1, log 11] -/
  stg64 : Nat := 1
  /-- descriptor valid [1b | 17 R433 | true, log 11] -/
  valid : Bool := true
  /-- ports enabled [12b | 11 R268 | 0, log 11] -/
  ports : BitVec 12 := 0
  /-- variant CR by port [12b | 11 R266 | 0, log 11] -/
  variantCr : BitVec 12 := 0
  deriving DecidableEq, Repr, Inhabited

/-- Security core and management sideband (19). -/
structure SecSt where
  /-- LC_STATE [3b | 19 R476 | 0 BLANK (fused), log 11] -/
  lc : Nat := 0
  /-- life-cycle change pending: target + 1 [3b | 19 R477 | 0] -/
  lcPending : Nat := 0
  /-- standing debug authorisation [1b | 19 R480 | 0] -/
  auth : Bool := false
  /-- PERMS of the standing authorisation [3b | 19 R480 | 0] -/
  perms : Nat := 0
  /-- UPDATE_PENDING [1b | 19 R492 | 0] -/
  updPending : Bool := false
  /-- fused minimum SVN [6b | 19 R485 | 0] -/
  svnMin : Nat := 0
  /-- SVN_RUN [6b | 19 R492 | 0] -/
  svnRun : Nat := 0
  /-- FW_VERSION of the running image [32b | 21 R521 | 0] -/
  fwVersion : Word32 := 0
  /-- current nonce [32 B | 19 R479 | none] -/
  nonce : Option (List Byte) := none
  /-- DeviceID certificate written [1b | 19 R477 | 0, log 11] -/
  certWritten : Bool := false
  /-- secrets erased (R477) [1b | 19 R477 | 0] -/
  erased : Bool := false
  /-- development keys revoked (R477) [1b | 19 R477 | 0] -/
  devRevoked : Bool := false
  /-- flash slot A [16 MiB | 19 R483 | empty, log 11] -/
  slotA : List Byte := []
  /-- flash slot B [16 MiB | 19 R483 | empty, log 11] -/
  slotB : List Byte := []
  /-- the image that the board came with in slot 0 A or 1 B, for which an empty slot A stands [1b | 19 R483 | 0, log 11] -/
  boardA : Nat := 0
  /-- the same for slot B [1b | 19 R483 | 1, log 11] -/
  boardB : Nat := 1
  /-- an update has begun (RequestUpdate) [1b | 19 R492 | 0] -/
  updating : Bool := false
  /-- the update's image has been verified [1b | 19 R492 | 0] -/
  verified : Bool := false
  /-- MCTP endpoint ID [8b | 19 R488 | 0] -/
  eid : Byte := 0
  /-- event receiver registered [8b | 19 R491 | none] -/
  receiver : Option Byte := none
  /-- measurement 5: loaded fabric image digest [512b | 19 R486 | 0] -/
  fabricMeasure : List Byte := []
  /-- measurements 2 and 3 taken at boot [2 x 512b | 19 R486 | 0] -/
  fwMeasure : List Byte := []
  /-- flash repair record: soft entries written, by sector [8 x n | 17 R435 | 0, log 11] -/
  flashSoft : Tab Nat := []
  /-- flash repair record: fence list of physical cores by sector [8 x 17b | 17 R435 | 0, log 11] -/
  flashFence : Tab (BitVec 17) := []
  /-- flash repair record: failed banks by sector [8 x 64b | 17 R435 | 0, log 11] -/
  flashBanks : Tab Word64 := []
  /-- flash repair record: fenced Halyards, bit 0 north, bit 1 south [2b | 17 R435 | 0, log 11] -/
  flashHal : Nat := 0
  /-- JTAG debug access open [1b | 19 R476 | log 3] -/
  jtagOpen : Bool := false
  deriving DecidableEq, Repr, Inhabited

/-- Faults and ensign mode (18). -/
structure FaultSt where
  /-- FATAL: compute partition held [1b | 18 R461 | 0] -/
  fatal : Bool := false
  /-- UNCORR, DEGRADED, NONOWNER, ROTATE_LATE as bits 30..27 shifted to 3..0 [4b | 18 R461 | 0] -/
  events : Nat := 0
  /-- ENTRIES since the last device reset [16b | 18 R461 | 0] -/
  entries : Nat := 0
  /-- entries since cold reset [32b | 18 R460 | 0] -/
  entriesCold : Nat := 0
  /-- fault log, newest first, entries of 32 bytes [512 KiB | 18 R460 | empty] -/
  log : List (List Byte) := []
  /-- mesh links that stopped before the last retest (R458): sector*8+link [n | 18 R458 | empty] -/
  linkRetry : List Nat := []
  /-- ENSIGN_STATUS.ACTIVE and the ENSIGN pin [1b | 18 R469 | 0] -/
  ensActive : Bool := false
  /-- ENSIGN_STATUS.SET [1b | 18 R469 | 0] -/
  ensSet : Bool := false
  /-- ENSIGN_STATUS.NET [4b | 18 R469 | 0] -/
  ensNet : Nat := 0
  /-- ENSIGN_STATUS.ENABLED [4b | 18 R469 | 0] -/
  ensEnabled : Nat := 0
  /-- ENSIGN_STATUS.CAUSE [3b | 18 R469 | 0] -/
  ensCause : Nat := 0
  /-- HEARTBEAT_MS [16b | 14 R373 | 0] -/
  hbMs : Nat := 0
  /-- last host heartbeat, or SET_ENSIGN [64b | 18 R463 | 0] -/
  hbLast : Nat := 0
  /-- cores with a guard overflow that the fault log has not shown yet [128b | 02 R45, 18 R458 | empty] -/
  guardDue : List Nat := []
  /-- pins the ensign network has driven since the entry [8b | 15 R403 | 0] -/
  ensDriven : BitVec 8 := 0
  deriving DecidableEq, Repr, Inhabited

/-- The GZT128. -/
structure State where
  /-- commands waiting, oldest first [n | the block's queue (model) | empty] -/
  pending : List Instr := []
  /-- always-on domain [n | 01 R28 | see AoSt] -/
  ao : AoSt := {}
  /-- timer channels [16 | 15 R392 | see TimerSt] -/
  timers : Tab TimerSt := []
  /-- bring-up status [n | 17 R433 | see BootSt] -/
  boot : BootSt := {}
  /-- board descriptor [n | 12 R300 | see BoardSt] -/
  board : BoardSt := {}
  /-- PCIe endpoint and page 0 [n | 13 R320 | see PcieSt] -/
  pcie : PcieSt := {}
  /-- mailboxes [10 | 13 R328 | see MboxSt] -/
  mbox : Tab MboxSt := []
  /-- commands accepted so far, over all mailboxes [n | 13 R334 | 0] -/
  accepted : Nat := 0
  /-- network slots [16 | 05 R119 | see NetSt] -/
  nets : Tab NetSt := []
  /-- logical cores [128 | 01 R17 | see CoreSt] -/
  cores : Tab CoreSt := []
  /-- sectors [8 | 01 R16 | see SectorSt] -/
  sectors : Tab SectorSt := []
  /-- fabric ports [12 | 11 R268 | see PortSt] -/
  ports : Tab PortSt := []
  /-- flow contexts [49152 | 11 R283 | see FlowSt] -/
  flows : Tab FlowSt := []
  /-- route table [65536 x 16b | 11 R276 | 0] -/
  routes : Tab (BitVec 16) := []
  /-- DEVICE_ID [16b | 11 R276 | 0xFFFF] -/
  deviceId : Nat := 0xFFFF
  /-- GDDR6 [n | 12 | see GddrSt] -/
  gddr : GddrSt := {}
  /-- loaded images by handle [n | 14 R356 | empty] -/
  images : Tab ImageRec := []
  /-- next image handle [16b | 14 R356 | 1, log 12] -/
  nextHandle : Nat := 1
  /-- placed regions [n | 12 R310 | empty] -/
  regions : List Region := []
  /-- page sets [n | 14 R547 | empty] -/
  pageSets : List PageSet := []
  /-- replica groups: slot -> (self, flows) [16 | 14 R547 | empty] -/
  groups : Tab (Nat × List Nat) := []
  /-- expert bindings [64 | 08 R200 | see BindSt] -/
  binds : Tab BindSt := []
  /-- token unpacker [n | 08 R199 | see TokSt] -/
  tok : TokSt := {}
  /-- dispatch packers [16 | 08 R190 | see PackSt] -/
  dpack : Tab PackSt := []
  /-- return packers [16 | 08 R190 | see PackSt] -/
  rpack : Tab PackSt := []
  /-- combiners [16 | 08 R190 | see CombSt] -/
  combs : Tab CombSt := []
  /-- ring functions [1024 | 08 R190 | unbound] -/
  rfns : Tab RingFn := []
  /-- events being expanded in the ring, per sector [n | 08 R205 | empty] -/
  expand : List Expansion := []
  /-- ERROR tokens held for their backward step: (flow, token) [n | 08 R213 | empty] -/
  errTok : List Token := []
  /-- stream contexts [32 | 15 R378 | see StcSt] -/
  stcs : Tab StcSt := []
  /-- line outputs [8 | 15 R401 | see LoutSt] -/
  louts : Tab LoutSt := []
  /-- faults and ensign mode [n | 18 | see FaultSt] -/
  fault : FaultSt := {}
  /-- security and management [n | 19 | see SecSt] -/
  sec : SecSt := {}
  /-- TRACE_CTRL: EN, WRAP, CMD, TIMEREF, HANDLE [32b | 20 R518 | 0] -/
  traceCtrl : Word32 := 0
  /-- counters, by key (20 R505, R506) [64b each | 20 R505 | 0] -/
  ctr : Tab Nat := []
  /-- per-step snapshot headers: scope*65536+index -> (step, time) [n | 20 R506 | 0] -/
  snap : Tab (Nat × Nat) := []
  /-- what the block has sent out, oldest first [n | model, log 9 | empty] -/
  out : List Out := []
  /-- free values drawn so far [n | model, log 10 | 0] -/
  free : Nat := 0
  deriving DecidableEq, Repr, Inhabited

/-- Why a step faults. No command of the block faults: an error of the hardware is an effect on its state (a flag, a
counter, a completion code), so nothing raises this and it is safe. -/
inductive Fault where
  /-- Raised by nothing: kept so that the type has a name for an access outside every space of the spec. Safe. -/
  | noSuchUnit
  deriving DecidableEq, Repr

/-- Why a step is refused. -/
inductive Refusal where
  /-- Raised by exec's arm of a command that has no meaning yet. Safe: the machine stops. -/
  | notModelled (mnemonic : String)
  deriving DecidableEq, Repr

/-- The machine right after power-on reset, before its first release (17 R427): every register at the reset value of
its docstring, every table empty. -/
def State.reset : State := {}

end Sys2Proof.Machine
end

