-- ==== Sys2Proof/Machine/Bits.lean ====
section
/-! DEFINITION. Bits.lean: bit fields, sign extension, byte order and the keyed tables in which State holds its
arrays. Addresses and words are little-endian (00, Notation). -/

namespace Sys2Proof.Machine

/-! ### Numbers and bits -/

/-- Bits hi:lo of a number. -/
def nfld (n hi lo : Nat) : Nat := (n >>> lo) % 2 ^ (hi + 1 - lo)

/-- Bits hi:lo of a register word. -/
def fld {w : Nat} (x : BitVec w) (hi lo : Nat) : Nat := nfld x.toNat hi lo

/-- Bit i of a number. -/
def nbit (n i : Nat) : Bool := n.testBit i

/-- A number with bits hi:lo replaced by v. -/
def nput (n hi lo v : Nat) : Nat := n - nfld n hi lo * 2 ^ lo + (v % 2 ^ (hi + 1 - lo)) * 2 ^ lo

/-- A register word with bits hi:lo replaced by v. -/
def put {w : Nat} (x : BitVec w) (hi lo v : Nat) : BitVec w := BitVec.ofNat w (nput x.toNat hi lo v)

/-- A Bool as a bit. -/
def b2n (b : Bool) : Nat := if b then 1 else 0

/-- Bits of a n-bit field read as two's complement. -/
def sext (bits v : Nat) : Int := if nbit v (bits - 1) then (v % 2 ^ bits : Nat) - (2 ^ bits : Nat) else (v % 2 ^ bits : Nat)

/-- The two's complement field of `bits` bits that holds v. -/
def toField (bits : Nat) (v : Int) : Nat := (v % (2 ^ bits : Nat)).toNat

/-- v limited to lo..hi. -/
def clampI (lo hi v : Int) : Int := if v < lo then lo else if hi < v then hi else v

/-- A number of `bits` bits with bit i set. -/
def nsetBit (n i : Nat) : Nat := n ||| (1 <<< i)

/-- The bits of n that m does not have. -/
def nclear (n m : Nat) : Nat := n - (n &&& m)

/-! ### Bytes, little-endian -/

/-- The number that bytes spell, the first the least significant. -/
def leNat : List Byte → Nat
  | [] => 0
  | b :: t => b.toNat + 256 * leNat t

/-- The low n bytes of v, the first the least significant. -/
def toLe : Nat → Nat → List Byte
  | 0, _ => []
  | n + 1, v => BitVec.ofNat 8 v :: toLe n (v / 256)

/-- The number in bytes off to off+n-1 of a byte string; bytes past its end read as 0. -/
def leAt (l : List Byte) (off n : Nat) : Nat := leNat ((l.drop off).take n)

/-- Byte i of a byte string, 0 past its end. -/
def byteAt (l : List Byte) (i : Nat) : Nat := (l.getD i 0).toNat

/-- n zero bytes. -/
def zeros (n : Nat) : List Byte := List.replicate n 0

/-- A byte string cut or zero-extended to n bytes. -/
def fitBytes (n : Nat) (l : List Byte) : List Byte := l.take n ++ zeros (n - l.length)

/-- A byte string with bytes placed at off. -/
def putBytes (l : List Byte) (off : Nat) (b : List Byte) : List Byte := l.take off ++ b ++ l.drop (off + b.length)

/-! ### Keyed tables -/

/-- The entry at k, d where none is listed. -/
def Tab.get {α : Type} : Tab α → α → Nat → α
  | [], d, _ => d
  | (i, v) :: t, d, k => if i = k then v else Tab.get t d k

/-- The table without an entry at k. -/
def Tab.erase {α : Type} : Tab α → Nat → Tab α
  | [], _ => []
  | (i, v) :: t, k => if i = k then Tab.erase t k else (i, v) :: Tab.erase t k

/-- An entry put in its place by key. -/
def Tab.ins {α : Type} : Tab α → Nat → α → Tab α
  | [], k, v => [(k, v)]
  | (i, w) :: t, k, v => if k < i then (k, v) :: (i, w) :: t else (i, w) :: Tab.ins t k v

/-- The table with v at k; an entry equal to the default d is not listed. -/
def Tab.set {α : Type} [DecidableEq α] (t : Tab α) (d : α) (k : Nat) (v : α) : Tab α :=
  if v = d then Tab.erase t k else Tab.ins (Tab.erase t k) k v

/-- The keys of the listed entries. -/
def Tab.keys {α : Type} (t : Tab α) : List Nat := t.map Prod.fst

/-- The entries whose key satisfies p. -/
def Tab.restrict {α : Type} (t : Tab α) (p : Nat → Bool) : Tab α := t.filter fun e => p e.1

/-- Every key of a table is above k. -/
def Tab.above {α : Type} (t : Tab α) (k : Nat) : Bool := t.all fun e => k < e.1

/-- The canonical form: keys strictly rising, no entry equal to the default. -/
def Tab.wf {α : Type} [DecidableEq α] (d : α) : Tab α → Bool
  | [] => true
  | (k, v) :: t => v != d && Tab.above t k && Tab.wf d t

/-! ### Byte memories -/

/-- A byte memory: a table of bytes whose unlisted bytes read as 0 (17 R428, 12 R308). -/
abbrev Memory := Tab Byte

/-- The canonical form of a byte memory. -/
def Memory.wf (m : Memory) : Bool := Tab.wf (0 : Byte) m

/-- One byte. -/
def memByte (m : Memory) (a : Nat) : Byte := Tab.get m 0 a

/-- One byte stored. -/
def memSetByte (m : Memory) (a : Nat) (b : Byte) : Memory := Tab.set m 0 a b

/-- n bytes from a. -/
def memRead (m : Memory) (a : Nat) : Nat → List Byte
  | 0 => []
  | n + 1 => memByte m a :: memRead m (a + 1) n

/-- Bytes stored from a. -/
def memWrite (m : Memory) (a : Nat) : List Byte → Memory
  | [] => m
  | b :: t => memWrite (memSetByte m a b) (a + 1) t

/-- The number in n bytes from a. -/
def memNat (m : Memory) (a n : Nat) : Nat := leNat (memRead m a n)

/-- n bytes of v stored from a. -/
def memPut (m : Memory) (a n v : Nat) : Memory := memWrite m a (toLe n v)

/-! ### Lists -/

/-- The list with entry i replaced. -/
def listPut {α : Type} (l : List α) (i : Nat) (v : α) : List α := l.set i v

/-- 0 to n-1. -/
def upTo (n : Nat) : List Nat := List.range n

/-- Insertion of a number into an ascending list. -/
def insNat (x : Nat) : List Nat → List Nat
  | [] => [x]
  | y :: t => if x ≤ y then x :: y :: t else y :: insNat x t

/-- A list of numbers in ascending order. -/
def sortNat : List Nat → List Nat
  | [] => []
  | x :: t => insNat x (sortNat t)

end Sys2Proof.Machine
end

