-- ==== Sys2Proof/Machine/Ops.lean ====
section
/-! DEFINITION. Ops.lean: the named operations over the units of State: reading and changing one unit, the time base,
interrupts (13 R326, 21 R523, R524) and what the block sends out. -/

namespace Sys2Proof.Machine

/-- A meaning's answer. -/
abbrev Res := Host.Outcome State Fault Refusal

/-! ### Units -/

/-- Logical core c. -/
def State.core (s : State) (c : Nat) : CoreSt := Tab.get s.cores {} c
/-- Core c replaced. -/
def State.setCore (s : State) (c : Nat) (k : CoreSt) : State := { s with cores := Tab.set s.cores {} c k }
/-- Core c changed. -/
def State.modCore (s : State) (c : Nat) (f : CoreSt → CoreSt) : State := s.setCore c (f (s.core c))

/-- Sector n. -/
def State.sector (s : State) (n : Nat) : SectorSt := Tab.get s.sectors {} n
/-- Sector n replaced. -/
def State.setSector (s : State) (n : Nat) (k : SectorSt) : State := { s with sectors := Tab.set s.sectors {} n k }
/-- Sector n changed. -/
def State.modSector (s : State) (n : Nat) (f : SectorSt → SectorSt) : State := s.setSector n (f (s.sector n))

/-- Network slot k. -/
def State.net (s : State) (k : Nat) : NetSt := Tab.get s.nets {} k
/-- Network slot k replaced. -/
def State.setNet (s : State) (k : Nat) (v : NetSt) : State := { s with nets := Tab.set s.nets {} k v }
/-- Network slot k changed. -/
def State.modNet (s : State) (k : Nat) (f : NetSt → NetSt) : State := s.setNet k (f (s.net k))

/-- Mailbox m. -/
def State.mb (s : State) (m : Nat) : MboxSt := Tab.get s.mbox {} m
/-- Mailbox m replaced. -/
def State.setMb (s : State) (m : Nat) (v : MboxSt) : State := { s with mbox := Tab.set s.mbox {} m v }
/-- Mailbox m changed. -/
def State.modMb (s : State) (m : Nat) (f : MboxSt → MboxSt) : State := s.setMb m (f (s.mb m))

/-- Fabric port p. -/
def State.port (s : State) (p : Nat) : PortSt := Tab.get s.ports {} p
/-- Fabric port p replaced. -/
def State.setPort (s : State) (p : Nat) (v : PortSt) : State := { s with ports := Tab.set s.ports {} p v }
/-- Fabric port p changed. -/
def State.modPort (s : State) (p : Nat) (f : PortSt → PortSt) : State := s.setPort p (f (s.port p))

/-- Flow context f. -/
def State.flow (s : State) (f : Nat) : FlowSt := Tab.get s.flows {} f
/-- Flow context f replaced. -/
def State.setFlow (s : State) (f : Nat) (v : FlowSt) : State := { s with flows := Tab.set s.flows {} f v }
/-- Flow context f changed. -/
def State.modFlow (s : State) (f : Nat) (g : FlowSt → FlowSt) : State := s.setFlow f (g (s.flow f))

/-- Stream context n. -/
def State.stc (s : State) (n : Nat) : StcSt := Tab.get s.stcs {} n
/-- Stream context n replaced. -/
def State.setStc (s : State) (n : Nat) (v : StcSt) : State := { s with stcs := Tab.set s.stcs {} n v }
/-- Stream context n changed. -/
def State.modStc (s : State) (n : Nat) (f : StcSt → StcSt) : State := s.setStc n (f (s.stc n))

/-- Timer channel c. -/
def State.tmr (s : State) (c : Nat) : TimerSt := Tab.get s.timers {} c
/-- Timer channel c replaced. -/
def State.setTmr (s : State) (c : Nat) (v : TimerSt) : State := { s with timers := Tab.set s.timers {} c v }
/-- Timer channel c changed. -/
def State.modTmr (s : State) (c : Nat) (f : TimerSt → TimerSt) : State := s.setTmr c (f (s.tmr c))

/-- Line output p. -/
def State.lout (s : State) (p : Nat) : LoutSt := Tab.get s.louts {} p
/-- Line output p changed. -/
def State.modLout (s : State) (p : Nat) (f : LoutSt → LoutSt) : State :=
  { s with louts := Tab.set s.louts {} p (f (s.lout p)) }

/-- Binding b. -/
def State.bind (s : State) (b : Nat) : BindSt := Tab.get s.binds {} b
/-- Binding b changed. -/
def State.modBind (s : State) (b : Nat) (f : BindSt → BindSt) : State :=
  { s with binds := Tab.set s.binds {} b (f (s.bind b)) }

/-- Dispatch packer d. -/
def State.dp (s : State) (d : Nat) : PackSt := Tab.get s.dpack {} d
/-- Dispatch packer d changed. -/
def State.modDp (s : State) (d : Nat) (f : PackSt → PackSt) : State :=
  { s with dpack := Tab.set s.dpack {} d (f (s.dp d)) }

/-- Return packer r. -/
def State.rp (s : State) (r : Nat) : PackSt := Tab.get s.rpack {} r
/-- Return packer r changed. -/
def State.modRp (s : State) (r : Nat) (f : PackSt → PackSt) : State :=
  { s with rpack := Tab.set s.rpack {} r (f (s.rp r)) }

/-- Combiner m. -/
def State.comb (s : State) (m : Nat) : CombSt := Tab.get s.combs {} m
/-- Combiner m changed. -/
def State.modComb (s : State) (m : Nat) (f : CombSt → CombSt) : State :=
  { s with combs := Tab.set s.combs {} m (f (s.comb m)) }

/-- Ring function r. -/
def State.rfn (s : State) (r : Nat) : RingFn := Tab.get s.rfns {} r
/-- Ring function r changed. -/
def State.modRfn (s : State) (r : Nat) (f : RingFn → RingFn) : State :=
  { s with rfns := Tab.set s.rfns {} r (f (s.rfn r)) }

/-- The always-on domain changed. -/
def State.modAo (s : State) (f : AoSt → AoSt) : State := { s with ao := f s.ao }
/-- The PCIe endpoint changed. -/
def State.modPcie (s : State) (f : PcieSt → PcieSt) : State := { s with pcie := f s.pcie }
/-- Faults and ensign mode changed. -/
def State.modFault (s : State) (f : FaultSt → FaultSt) : State := { s with fault := f s.fault }
/-- Security and management changed. -/
def State.modSec (s : State) (f : SecSt → SecSt) : State := { s with sec := f s.sec }
/-- The GDDR6 memory changed. -/
def State.modGddr (s : State) (f : GddrSt → GddrSt) : State := { s with gddr := f s.gddr }
/-- Bring-up status changed. -/
def State.modBoot (s : State) (f : BootSt → BootSt) : State := { s with boot := f s.boot }

/-- The commands that are waiting. -/
def State.withQueue (s : State) (q : List Instr) : State := { s with pending := q }

/-! ### Time and place -/

/-- The time base, in ns (01 R27). -/
def State.now (s : State) : Nat := s.ao.time

/-- The sector of a logical core (00 R3). -/
def sectorOf (c : Nat) : Nat := c / 16

/-- The index C0 to C15 of a logical core (00 R3). -/
def indexOf (c : Nat) : Nat := c % 16

/-- The owner Halyard (18 R470): false north, true south. -/
def State.owner (s : State) : Bool := s.ao.ownerSouth

/-! ### Free values (log 10) -/

/-- The state with one more free value drawn. -/
def State.drawn (s : State) : State := { s with free := s.free + 1 }

/-! ### What the block sends out (log 9) -/

/-- Something sent out. -/
def State.send (s : State) (o : Out) : State := { s with out := s.out ++ [o] }

/-! ### Counter slots (20 R506) -/

/-- The key of a slot: kinds 0 to 3 of R506, and 4 for the running value of the step that is open (R508). -/
def ckey (scope idx id sub kind : Nat) : Nat := (((scope * 65536 + idx) * 1024 + id) * 65536 + sub) * 8 + kind

/-- Counters saturate at 2^64 - 1 (02 R60, 20 R506). -/
def satCtr (v : Nat) : Nat := min v (2 ^ 64 - 1)

/-- The value of a slot. -/
def State.ctrAt (s : State) (scope idx id sub kind : Nat) : Nat := Tab.get s.ctr 0 (ckey scope idx id sub kind)

/-- A slot set. -/
def State.ctrPut (s : State) (scope idx id sub kind v : Nat) : State :=
  { s with ctr := Tab.set s.ctr 0 (ckey scope idx id sub kind) (satCtr v) }

/-- A slot advanced by inc. -/
def State.ctrAdd (s : State) (scope idx id sub kind inc : Nat) : State :=
  if inc = 0 then s else s.ctrPut scope idx id sub kind (s.ctrAt scope idx id sub kind + inc)

/-- An occurrence of a counter of a scope other than core. -/
def State.count (s : State) (scope idx id sub inc : Nat) : State := s.ctrAdd scope idx id sub 0 inc

/-- The counters of a unit at zero: a reset of its domain (20 R507, 00 R13). -/
def State.clearCtrs (s : State) (scope idx : Nat) : State :=
  let u := scope * 65536 + idx
  { s with ctr := Tab.restrict s.ctr fun a => a / (8 * 65536 * 1024) != u, snap := Tab.erase s.snap u }

/-- No sub-index (20 R506). -/
abbrev noSub : Nat := 0xFFFF

/-- An occurrence of a device counter. -/
def State.countDev (s : State) (id : Nat) (sub : Nat := noSub) (inc : Nat := 1) : State := s.count 0 0 id sub inc
/-! ### Interrupts -/

/-- The mask bit of MSI-X vector v (13 R324; bit 0 of the entry's fourth word, set at reset as PCI Express has it). -/
def State.msixMasked (s : State) (v : Nat) : Bool := nbit (Tab.get s.pcie.msixTab 1 (4 * v + 3)).toNat 0

/-- MSI-X vector v fires (13 R326, 21 R524): discarded while MSI-X is disabled, bus mastering is off or the link is
down; pending while masked; otherwise sent, a TLP of 4 payload bytes (20 R512, counter 143 of R505). -/
def State.fireVector (s : State) (v : Nat) : State :=
  if !s.pcie.msixEn || !s.pcie.linkUp || !s.pcie.busMaster then s
  else if s.pcie.fmask || s.msixMasked v then
    s.modPcie fun p => { p with pba := BitVec.ofNat 64 (nsetBit p.pba.toNat v) }
  else (s.send (.msix v)).countDev 143 noSub 4

/-- A cause bit that was 0 is set and vector v fires; a bit already 1 does not fire (21 R523). -/
def fireIf (was : Bool) (v : Nat) (s : State) : State := if was then s else s.fireVector v

/-- Bit i of INT_DEV_CAUSE set by hardware (21, Interrupt causes). -/
def State.raiseDev (s : State) (i : Nat) : State :=
  fireIf (nbit s.pcie.cause i) (if i < 4 then 0 else 10) (s.modPcie fun p => { p with cause := nsetBit p.cause i })

/-- Bit i (0 LEARN_SKIPPED … 4 LATE) of NET_STEP_STATUS[k] set by hardware (05 R137, 21 R522). -/
def State.raiseNet (s : State) (k i : Nat) : State :=
  fireIf (nbit (s.net k).events i) (16 + k) (s.modNet k fun n => { n with events := nsetBit n.events i })

/-- Bit i of STC_STATUS[n] set by hardware (15 R390, 21 R522). -/
def State.raiseStc (s : State) (n i : Nat) : State :=
  fireIf (nbit (s.stc n).status i) (32 + n) (s.modStc n fun c => { c with status := nsetBit c.status i })

/-- Bit i of MB_EVENT set: 0 DECIDED, 1 COMPLETED. MB0 to MB7 have a vector (13 R326); `msix` is false for a
completion whose command asks for none (13 R336). -/
def State.raiseMb (s : State) (m i : Nat) (msix : Bool) : State :=
  let was := nbit (s.mb m).event i
  let s := s.modMb m fun b => { b with event := nsetBit b.event i }
  if m < 8 && msix then fireIf was (1 + m) s else s

/-- Bit i (3 to 6) of PWR_STATUS set by hardware; vector 11 (21 R522). -/
def State.raisePwr (s : State) (i : Nat) : State :=
  fireIf (nbit s.ao.pwrEvents i) 11 (s.modAo fun a => { a with pwrEvents := nsetBit a.pwrEvents i })

/-- An entry of the flow event FIFO (13 R327): 256 entries, a further one is lost; vector 9 fires when the FIFO
changes from empty. -/
def State.flowEvent (s : State) (kind flow : Nat) : State :=
  if s.pcie.flowEv.length < 256 then
    fireIf (!s.pcie.flowEv.isEmpty) 9 (s.modPcie fun p => { p with flowEv := p.flowEv ++ [(kind, flow)] })
  else s.modPcie fun p => { p with flowOvf := true }

/-! ### Consumption of fabric messages (11 R280, R287) -/

/-- RX_WM advanced over the longest run of consumed messages above it. -/
def rxAdvance : Nat → FlowSt → FlowSt
  | 0, f => f
  | n + 1, f =>
    let m := (f.rxWm + 1) % 2 ^ 32
    if Tab.get f.consumed false m then
      rxAdvance n { f with rxWm := m, consumed := Tab.set f.consumed false m false
                           delivered := Tab.set f.delivered false m false
                           stage := f.stage.filter fun x => x.mseq != m }
    else f

/-- Message m of a flow is consumed. -/
def FlowSt.consume (f : FlowSt) (m : Nat) : FlowSt :=
  let f := { f with consumed := Tab.set f.consumed false m true, ackDue := true }
  rxAdvance (f.consumed.length + 1) f

/-- An event is popped, removed or dropped: a token event frees its credit (08 R207), and the message it came from is
consumed with its last event (R280). -/
def State.evDone (s : State) (e : EvItem) : State :=
  let c := fld e.ev 57 48
  let s := if e.token && c < 128 then s.modCore c fun k => { k with creditUsed := k.creditUsed - 1 } else s
  if e.flow = 0 then s
  else s.modFlow (e.flow - 1) fun f =>
    let n := Tab.get f.unpopped 0 e.mseq
    let f := { f with unpopped := Tab.set f.unpopped 0 e.mseq (n - 1) }
    if n ≤ 1 then f.consume e.mseq else f

/-- The events of a list are all done. -/
def State.evsDone (s : State) (l : List EvItem) : State := l.foldl State.evDone s

/-! ### State sensors (19 R491) -/

/-- State sensors 3 power state, 4 thermal level, 5 ensign mode, 6 fault, 7 DEV_READY and LINKS_READY. -/
def State.sensor (s : State) (id : Nat) : Nat :=
  match id with
  | 3 => if s.ao.pstate = 0 && (upTo 8).all (fun n => (s.sector n).gated) then 1 else s.ao.pstate
  | 4 => if s.ao.emergency then 2 else b2n s.ao.throttle
  | 5 => b2n s.fault.ensActive
  | 6 => if s.fault.fatal then 3 else if nbit s.fault.events 3 then 2 else b2n (nbit s.fault.events 2)
  | _ => b2n s.boot.devReady + 2 * b2n s.boot.linksReady

/-- After a change from s0, a PlatformEventMessage for each state sensor that changed goes to the registered endpoint. -/
def State.platform (s0 s : State) : State :=
  match s.sec.receiver with
  | none => s
  | some r => ([3, 4, 5, 6, 7] : List Nat).foldl (fun s id =>
      if s.sensor id = s0.sensor id then s else s.send (.mgmt 1 0x0A [r, BitVec.ofNat 8 id, BitVec.ofNat 8 (s.sensor id)])) s

/-! ### Bytes sent to the host -/

/-- BAR accesses reach the device: the link is up and the function is not in D3hot (13 R321). -/
def State.barOpen (s : State) : Bool := s.pcie.linkUp && !s.pcie.d3

/-- BAR0 accesses reach the device (R525, 17 R440). -/
def State.bar0Open (s : State) : Bool := s.barOpen && !s.ao.inReset && (s.boot.fwVerified || s.boot.phase == 9)

/-- A posted write of bytes to a bus address, counted in PCIE_TX_BYTES (143). One sent while the link is down is discarded (13 R321). -/
def State.hostWrite (s : State) (addr : Nat) (bytes : List Byte) : State :=
  if bytes.isEmpty || !s.pcie.linkUp || !s.pcie.busMaster then s
  else (s.send (.hostWrite addr bytes)).countDev 143 noSub bytes.length

end Sys2Proof.Machine
end

