-- ==== Sys2Proof/Machine/Flags.lean ====
section
/-! DEFINITION. Flags.lean: the counters (02 R60, 20 R505 to R511) and the trace records (20 R515 to R517), with the
programmable counters that follow both. A counter's ID is its place in the counter tables, in the order of R505. -/

namespace Sys2Proof.Machine

/-! ### Counter IDs (20 R505) -/

/-- ACC_SAT: per core, per step (R60). -/
abbrev Ctr.accSat : Nat := 1

/-- ACC_GUARD_OVF: per core (R60). -/
abbrev Ctr.accGuardOvf : Nat := 2

/-- CONV_SAT: per core and per emitter (R60). -/
abbrev Ctr.convSat : Nat := 3

/-- CONV_NAN: per core and per emitter (R60). -/
abbrev Ctr.convNan : Nat := 4

/-- STATE_NAN: per core (R60). -/
abbrev Ctr.stateNan : Nat := 5

/-- WEIGHT_SAT: per core (R60). -/
abbrev Ctr.weightSat : Nat := 6

/-- TRACE_SAT: per core (R60). -/
abbrev Ctr.traceSat : Nat := 7

/-- DROP_FORMAT: per core (R60). -/
abbrev Ctr.dropFormat : Nat := 8

/-- TYPE_IGNORED: per core (R92). -/
abbrev Ctr.typeIgnored : Nat := 9

/-- ROW_DISABLED: per core (R92). -/
abbrev Ctr.rowDisabled : Nat := 10

/-- RQ_HWM: per core, per step (R92). -/
abbrev Ctr.rqHwm : Nat := 11

/-- EQ_HWM: per core, per step (R92). -/
abbrev Ctr.eqHwm : Nat := 12

/-- DELAY_CLAMP: per core (R92). -/
abbrev Ctr.delayClamp : Nat := 13

/-- DELAY_RING_FULL: per core (R92). -/
abbrev Ctr.delayRingFull : Nat := 14

/-- FETCH_UPD_STALL: per core (R92). -/
abbrev Ctr.fetchUpdStall : Nat := 15

/-- FIRE_EMIT_STALL: per core, per step (R92). -/
abbrev Ctr.fireEmitStall : Nat := 16

/-- SEQ_ACCESS_FAULT: per core (R92). -/
abbrev Ctr.seqAccessFault : Nat := 17

/-- EVENTS_DELIVERED: per core, per step (R92). -/
abbrev Ctr.eventsDelivered : Nat := 18

/-- SOP_COUNT: per core, per step (R92). -/
abbrev Ctr.sopCount : Nat := 19

/-- NEURONS_EVALUATED: per core, per step (R92). -/
abbrev Ctr.neuronsEvaluated : Nat := 20

/-- STEP_LATE_DROP: per core, per step (R138). -/
abbrev Ctr.stepLateDrop : Nat := 21

/-- LATE_QUEUE: per core, per step (R138). -/
abbrev Ctr.lateQueue : Nat := 22

/-- LATE_DELAY: per core, per step (R138). -/
abbrev Ctr.lateDelay : Nat := 23

/-- LATE_EMIT: per core, per step (R138). -/
abbrev Ctr.lateEmit : Nat := 24

/-- LATE_ARRIVAL: per core, per step (R138). -/
abbrev Ctr.lateArrival : Nat := 25

/-- LEARN_SKIP: per core, per step (R138). -/
abbrev Ctr.learnSkip : Nat := 26

/-- FIRE_OVERRUN: per core (R138). -/
abbrev Ctr.fireOverrun : Nat := 27

/-- FIRE_OVERRUN_NS: per core (R138). -/
abbrev Ctr.fireOverrunNs : Nat := 28

/-- DELTA_SUPERSEDED: per core, per step (R138). -/
abbrev Ctr.deltaSuperseded : Nat := 29

/-- STEP_EARLY: per network (R138). -/
abbrev Ctr.stepEarly : Nat := 30

/-- STEP_TICK_MERGED: per network (R138). -/
abbrev Ctr.stepTickMerged : Nat := 31

/-- STEP_STRETCH: per network (R138). -/
abbrev Ctr.stepStretch : Nat := 32

/-- STEP_STRETCH_NS: per network (R138). -/
abbrev Ctr.stepStretchNs : Nat := 33

/-- MOD_SAT: per core (R168). -/
abbrev Ctr.modSat : Nat := 34

/-- RULE_SAT: per core (R168). -/
abbrev Ctr.ruleSat : Nat := 35

/-- SYN_DELAY_CLAMP: per core (R168). -/
abbrev Ctr.synDelayClamp : Nat := 36

/-- DELAY_CEIL_HIT: per core (R168). -/
abbrev Ctr.delayCeilHit : Nat := 37

/-- LOOKUP_UPD_STALL: per core (R168). -/
abbrev Ctr.lookupUpdStall : Nat := 38

/-- RENORM: per core (R168). -/
abbrev Ctr.renorm : Nat := 39

/-- LEARN_ROWS: per core, per step (R168). -/
abbrev Ctr.learnRows : Nat := 40

/-- LEARN_SYN: per core, per step (R168). -/
abbrev Ctr.learnSyn : Nat := 41

/-- ERR_DISCARD: per core, per step (R189). -/
abbrev Ctr.errDiscard : Nat := 42

/-- ERR_SAT: per core (R189). -/
abbrev Ctr.errSat : Nat := 43

/-- ERR_GUARD_OVF: per core (R189). -/
abbrev Ctr.errGuardOvf : Nat := 44

/-- ERR_EVENTS: per core, per step (R189). -/
abbrev Ctr.errEvents : Nat := 45

/-- ERR_SOP_COUNT: per core, per step (R189). -/
abbrev Ctr.errSopCount : Nat := 46

/-- GRAD_SAT: per core (R189). -/
abbrev Ctr.gradSat : Nat := 47

/-- LOG_WAIT: per network (R189). -/
abbrev Ctr.logWait : Nat := 48

/-- LOG_WAIT_NS: per network (R189). -/
abbrev Ctr.logWaitNs : Nat := 49

/-- SNAPSHOT_STALL: per core (R189). -/
abbrev Ctr.snapshotStall : Nat := 50

/-- TOKEN_EVENT_IGNORED: per token function (R219). -/
abbrev Ctr.tokenEventIgnored : Nat := 51

/-- TOKEN_ROUTER_NAN: per dispatch packer (R219). -/
abbrev Ctr.tokenRouterNan : Nat := 52

/-- TOKEN_SENT: per dispatch and return packer (R219). -/
abbrev Ctr.tokenSent : Nat := 53

/-- TOKEN_DELTA_SENT: per dispatch and return packer (R219). -/
abbrev Ctr.tokenDeltaSent : Nat := 54

/-- TOKEN_BYTES: per packer (R219). -/
abbrev Ctr.tokenBytes : Nat := 55

/-- TOKEN_ADMITTED: per binding (R219). -/
abbrev Ctr.tokenAdmitted : Nat := 56

/-- TOKEN_REFUSED_CAP: per binding (R219). -/
abbrev Ctr.tokenRefusedCap : Nat := 57

/-- TOKEN_REFUSED_PAGED: per binding (R219). -/
abbrev Ctr.tokenRefusedPaged : Nat := 58

/-- TOKEN_NAK_RX: per dispatch and return packer, per reason (R219). -/
abbrev Ctr.tokenNakRx : Nat := 59

/-- TOKEN_FALLBACK: per combiner (R219). -/
abbrev Ctr.tokenFallback : Nat := 60

/-- TOKEN_RETURN_LATE: per combiner (R219). -/
abbrev Ctr.tokenReturnLate : Nat := 61

/-- TOKEN_WINDOW_TIMEOUT: per binding (R219). -/
abbrev Ctr.tokenWindowTimeout : Nat := 62

/-- DROP_UNROUTABLE: per router (R241). -/
abbrev Ctr.dropUnroutable : Nat := 63

/-- DROP_FENCED: per router (R241). -/
abbrev Ctr.dropFenced : Nat := 64

/-- SCHED_SLIP: per router (R241). -/
abbrev Ctr.schedSlip : Nat := 65

/-- LINK_ECC_CORR: per link direction and ring port (R241). -/
abbrev Ctr.linkEccCorr : Nat := 66

/-- LINK_REPLAY: per link direction and ring port (R241). -/
abbrev Ctr.linkReplay : Nat := 67

/-- BANK_STALL: per requester (R241). -/
abbrev Ctr.bankStall : Nat := 68

/-- BANK_TEST_STALL: per sector (R241). -/
abbrev Ctr.bankTestStall : Nat := 69

/-- MEM_ECC_CORR: per sector (R241). -/
abbrev Ctr.memEccCorr : Nat := 70

/-- MEM_ECC_UNCORR: per sector (R241). -/
abbrev Ctr.memEccUncorr : Nat := 71

/-- DESC_POSTED: per core (R265). -/
abbrev Ctr.descPosted : Nat := 72

/-- DESC_NO_CREDIT: per core (R265). -/
abbrev Ctr.descNoCredit : Nat := 73

/-- DESC_GATED: per core (R265). -/
abbrev Ctr.descGated : Nat := 74

/-- DESC_NAK_RX: per core, per reason (R265). -/
abbrev Ctr.descNakRx : Nat := 75

/-- DESC_REFUSED: per queue, per reason (R265). -/
abbrev Ctr.descRefused : Nat := 76

/-- REPLY_DISCARD: per core (R265). -/
abbrev Ctr.replyDiscard : Nat := 77

/-- STATUS_DISCARD: per core (R265). -/
abbrev Ctr.statusDiscard : Nat := 78

/-- SYNC_MISMATCH: per sector (R265). -/
abbrev Ctr.syncMismatch : Nat := 79

/-- SYNC_NOTIFY_MERGED: per sector (R265). -/
abbrev Ctr.syncNotifyMerged : Nat := 80

/-- LINK_FEC_CORR: per port (R296). -/
abbrev Ctr.linkFecCorr : Nat := 81

/-- LINK_FEC_UNCORR: per port (R296). -/
abbrev Ctr.linkFecUncorr : Nat := 82

/-- LINK_CRC_ERR: per port (R296). -/
abbrev Ctr.linkCrcErr : Nat := 83

/-- LINK_RETRY: per port (R296). -/
abbrev Ctr.linkRetry : Nat := 84

/-- LINK_RETRAIN: per port (R296). -/
abbrev Ctr.linkRetrain : Nat := 85

/-- FWD_DROP: per port (R296). -/
abbrev Ctr.fwdDrop : Nat := 86

/-- E2E_CRC_ERR: per flow (R296). -/
abbrev Ctr.e2eCrcErr : Nat := 87

/-- E2E_STALE_EPOCH: per flow (R296). -/
abbrev Ctr.e2eStaleEpoch : Nat := 88

/-- E2E_NO_FLOW: per device (R296). -/
abbrev Ctr.e2eNoFlow : Nat := 89

/-- E2E_DUP: per flow (R296). -/
abbrev Ctr.e2eDup : Nat := 90

/-- E2E_GAP: per flow (R296). -/
abbrev Ctr.e2eGap : Nat := 91

/-- E2E_RETRANSMIT: per flow (R296). -/
abbrev Ctr.e2eRetransmit : Nat := 92

/-- E2E_NAK_RX: per flow, per code (R296). -/
abbrev Ctr.e2eNakRx : Nat := 93

/-- E2E_FORCE_DISCARD: per flow (R296). -/
abbrev Ctr.e2eForceDiscard : Nat := 94

/-- FAULT_INJECTED: per port (R296). -/
abbrev Ctr.faultInjected : Nat := 95

/-- GDDR_EDC_RETRY: per controller (R319). -/
abbrev Ctr.gddrEdcRetry : Nat := 96

/-- GDDR_ECC_CORR: per controller (R319). -/
abbrev Ctr.gddrEccCorr : Nat := 97

/-- GDDR_ECC_UNCORR: per controller (R319). -/
abbrev Ctr.gddrEccUncorr : Nat := 98

/-- GDDR_ADDR_TAG_ERR: per controller (R319). -/
abbrev Ctr.gddrAddrTagErr : Nat := 99

/-- PAGE_LATE: per core (R319). -/
abbrev Ctr.pageLate : Nat := 100

/-- GDDR_HOST_DENIED: per device (R319). -/
abbrev Ctr.gddrHostDenied : Nat := 101

/-- MB_SLOT_DISCARD: per mailbox (R344). -/
abbrev Ctr.mbSlotDiscard : Nat := 102

/-- MB_POST_IGNORED: per mailbox (R344). -/
abbrev Ctr.mbPostIgnored : Nat := 103

/-- MB_REFUSED: per mailbox, per code (R344). -/
abbrev Ctr.mbRefused : Nat := 104

/-- MB_DUP: per mailbox (R344). -/
abbrev Ctr.mbDup : Nat := 105

/-- P2P_DISCARD: per stream context (R344). -/
abbrev Ctr.p2pDiscard : Nat := 106

/-- STC_FRAMES: per context (R391). -/
abbrev Ctr.stcFrames : Nat := 107

/-- STC_EVENTS: per context (R391). -/
abbrev Ctr.stcEvents : Nat := 108

/-- STC_SLOT_DISCARD: per context (R391). -/
abbrev Ctr.stcSlotDiscard : Nat := 109

/-- STC_BAD_FRAME: per context (R391). -/
abbrev Ctr.stcBadFrame : Nat := 110

/-- STC_AE_DISCARD: per context (R391). -/
abbrev Ctr.stcAeDiscard : Nat := 111

/-- RESULT_OVERFLOW: per context (R391). -/
abbrev Ctr.resultOverflow : Nat := 112

/-- RING_EVENT_IGNORED: per ring port (R391). -/
abbrev Ctr.ringEventIgnored : Nat := 113

/-- TMR_WRITE_LOCKED: per channel (R391). -/
abbrev Ctr.tmrWriteLocked : Nat := 114

/-- LOUT_ASSERT: per pin (R391). -/
abbrev Ctr.loutAssert : Nat := 115

/-- PWR_WARN_COUNT: per device (R426). -/
abbrev Ctr.pwrWarnCount : Nat := 116

/-- PWR_WARN_NS: per device (R426). -/
abbrev Ctr.pwrWarnNs : Nat := 117

/-- THROTTLE_COUNT: per device (R426). -/
abbrev Ctr.throttleCount : Nat := 118

/-- THROTTLE_NS: per device (R426). -/
abbrev Ctr.throttleNs : Nat := 119

/-- FREQ_CHANGE: per sector (R426). -/
abbrev Ctr.freqChange : Nat := 120

/-- SECTOR_GATE: per sector (R426). -/
abbrev Ctr.sectorGate : Nat := 121

/-- MIGRATE_COUNT: per sector (R475). -/
abbrev Ctr.migrateCount : Nat := 122

/-- MIGRATE_NS: per sector (R475). -/
abbrev Ctr.migrateNs : Nat := 123

/-- MIGRATE_STRETCH: per network (R475). -/
abbrev Ctr.migrateStretch : Nat := 124

/-- MIGRATE_STRETCH_NS: per network (R475). -/
abbrev Ctr.migrateStretchNs : Nat := 125

/-- ROTATE_DEFERRED: per sector (R475). -/
abbrev Ctr.rotateDeferred : Nat := 126

/-- SELFTEST_SLICES: per sector (R475). -/
abbrev Ctr.selftestSlices : Nat := 127

/-- SELFTEST_FAIL: per sector (R475). -/
abbrev Ctr.selftestFail : Nat := 128

/-- NONOWNER_WRITE: per device (R475). -/
abbrev Ctr.nonownerWrite : Nat := 129

/-- LATCH_REFUSED: per device (R475). -/
abbrev Ctr.latchRefused : Nat := 130

/-- ENSIGN_ENTRY: per device (R475). -/
abbrev Ctr.ensignEntry : Nat := 131

/-- AUTH_REFUSED: per device (R493). -/
abbrev Ctr.authRefused : Nat := 132

/-- MCTP_DISCARD: per device (R493). -/
abbrev Ctr.mctpDiscard : Nat := 133

/-- DROP_QUEUE: per core, per step (R514). -/
abbrev Ctr.dropQueue : Nat := 134

/-- SYN_RD_BYTES: per core, per step (R514). -/
abbrev Ctr.synRdBytes : Nat := 135

/-- SYN_WR_BYTES: per core, per step (R514). -/
abbrev Ctr.synWrBytes : Nat := 136

/-- STATE_BYTES: per core, per step (R514). -/
abbrev Ctr.stateBytes : Nat := 137

/-- SMEM_BYTES: per core, sub 0 read, 1 write; per sector for the descriptor engine (R514). -/
abbrev Ctr.smemBytes : Nat := 138

/-- GDDR_BYTES: per controller (R514). -/
abbrev Ctr.gddrBytes : Nat := 139

/-- OXP_TX_BYTES: per port (R514). -/
abbrev Ctr.oxpTxBytes : Nat := 140

/-- OXP_RX_BYTES: per port (R514). -/
abbrev Ctr.oxpRxBytes : Nat := 141

/-- OXP_FWD_BYTES: per port (R514). -/
abbrev Ctr.oxpFwdBytes : Nat := 142

/-- PCIE_TX_BYTES: per device (R514). -/
abbrev Ctr.pcieTxBytes : Nat := 143

/-- PCIE_RX_BYTES: per device (R514). -/
abbrev Ctr.pcieRxBytes : Nat := 144

/-- BKPT_HITS: per core (R514). -/
abbrev Ctr.bkptHits : Nat := 145

/-- HALT_MISSED_STEP: per core (R514). -/
abbrev Ctr.haltMissedStep : Nat := 146

/-- DEBUG_STRETCH: per network (R514). -/
abbrev Ctr.debugStretch : Nat := 147

/-- DEBUG_STRETCH_NS: per network (R514). -/
abbrev Ctr.debugStretchNs : Nat := 148

/-- DEBUG_HOLD_STEPS: per network (R514). -/
abbrev Ctr.debugHoldSteps : Nat := 149

/-- DEBUG_HOLD_NS: per network (R514). -/
abbrev Ctr.debugHoldNs : Nat := 150

/-- TRACE_RECORDS: per sector (R514). -/
abbrev Ctr.traceRecords : Nat := 151

/-- TRACE_DROP: per sector (R514). -/
abbrev Ctr.traceDrop : Nat := 152

/-- DROP_RESET: per device (R514). -/
abbrev Ctr.dropReset : Nat := 153

/-- DROP_SHED: per core (R514). -/
abbrev Ctr.dropShed : Nat := 154

/-! ### The tables of counters -/

/-- Sub-indices of a counter kept per instance and per code: instance * 16 + code (20 R506). -/
def pairSubs (n : Nat) (codes : List Nat) : List Nat := (upTo n).flatMap fun i => codes.map fun c => i * 16 + c

/-- Sub-indices of GDDR_BYTES: controller * 16 + class * 2 + direction (20 R513). -/
def gddrSubs : List Nat := (upTo 12).flatMap fun c => (upTo 10).map fun k => c * 16 + k

/-- Counter table of R505, part 1: (ID, scope, kind 0 running 1 per step 2 level, sub-indices). -/
def ctrRows1 : List (Nat × Nat × Nat × List Nat) := [
  (1, 2, 1, [0xFFFF]),
  (2, 2, 0, [0xFFFF]),
  (3, 2, 0, [0xFFFF]),
  (3, 0, 0, upTo 1024),
  (4, 2, 0, [0xFFFF]),
  (4, 0, 0, upTo 1024),
  (5, 2, 0, [0xFFFF]),
  (6, 2, 0, [0xFFFF]),
  (7, 2, 0, [0xFFFF]),
  (8, 2, 0, [0xFFFF]),
  (9, 2, 0, [0xFFFF]),
  (10, 2, 0, [0xFFFF]),
  (11, 2, 2, [0xFFFF]),
  (12, 2, 2, [0xFFFF]),
  (13, 2, 0, [0xFFFF]),
  (14, 2, 0, [0xFFFF]),
  (15, 2, 0, [0xFFFF]),
  (16, 2, 1, [0xFFFF]),
  (17, 2, 0, [0xFFFF]),
  (18, 2, 1, [0xFFFF]),
  (19, 2, 1, [0xFFFF]),
  (20, 2, 1, [0xFFFF]),
  (21, 2, 1, [0xFFFF]),
  (22, 2, 1, [0xFFFF]),
  (23, 2, 1, [0xFFFF]),
  (24, 2, 1, [0xFFFF]),
  (25, 2, 1, [0xFFFF]),
  (26, 2, 1, [0xFFFF]),
  (27, 2, 0, [0xFFFF]),
  (28, 2, 0, [0xFFFF]),
  (29, 2, 1, [0xFFFF]),
  (30, 3, 0, [0xFFFF]),
  (31, 3, 0, [0xFFFF]),
  (32, 3, 0, [0xFFFF]),
  (33, 3, 0, [0xFFFF]),
  (34, 2, 0, [0xFFFF]),
  (35, 2, 0, [0xFFFF]),
  (36, 2, 0, [0xFFFF]),
  (37, 2, 0, [0xFFFF]),
  (38, 2, 0, [0xFFFF])]

/-- Counter table of R505, part 2: (ID, scope, kind 0 running 1 per step 2 level, sub-indices). -/
def ctrRows2 : List (Nat × Nat × Nat × List Nat) := [
  (39, 2, 0, [0xFFFF]),
  (40, 2, 1, [0xFFFF]),
  (41, 2, 1, [0xFFFF]),
  (42, 2, 1, [0xFFFF]),
  (43, 2, 0, [0xFFFF]),
  (44, 2, 0, [0xFFFF]),
  (45, 2, 1, [0xFFFF]),
  (46, 2, 1, [0xFFFF]),
  (47, 2, 0, [0xFFFF]),
  (48, 3, 0, [0xFFFF]),
  (49, 3, 0, [0xFFFF]),
  (50, 2, 0, [0xFFFF]),
  (51, 0, 0, upTo 1024),
  (52, 0, 0, upTo 16),
  (53, 0, 0, upTo 32),
  (54, 0, 0, upTo 32),
  (55, 0, 0, upTo 32),
  (56, 0, 0, upTo 64),
  (57, 0, 0, upTo 64),
  (58, 0, 0, upTo 64),
  (59, 0, 0, pairSubs 32 [1, 2, 3, 4, 5]),
  (60, 0, 0, upTo 16),
  (61, 0, 0, upTo 16),
  (62, 0, 0, upTo 64),
  (63, 1, 0, [0xFFFF]),
  (64, 1, 0, [0xFFFF]),
  (65, 1, 0, [0xFFFF]),
  (66, 1, 0, upTo 4),
  (67, 1, 0, upTo 4),
  (68, 2, 0, upTo 2),
  (68, 1, 0, [0xFFFF]),
  (69, 1, 0, [0xFFFF]),
  (70, 1, 0, [0xFFFF]),
  (71, 1, 0, [0xFFFF]),
  (72, 2, 0, [0xFFFF]),
  (73, 2, 0, [0xFFFF]),
  (74, 2, 0, [0xFFFF]),
  (75, 2, 0, [1, 2, 3, 4]),
  (76, 2, 0, pairSubs 16 [1, 2, 3, 4]),
  (77, 2, 0, [0xFFFF])]

/-- Counter table of R505, part 3: (ID, scope, kind 0 running 1 per step 2 level, sub-indices). -/
def ctrRows3 : List (Nat × Nat × Nat × List Nat) := [
  (78, 2, 0, [0xFFFF]),
  (79, 1, 0, [0xFFFF]),
  (80, 1, 0, [0xFFFF]),
  (81, 4, 0, [0xFFFF]),
  (82, 4, 0, [0xFFFF]),
  (83, 4, 0, [0xFFFF]),
  (84, 4, 0, [0xFFFF]),
  (85, 4, 0, [0xFFFF]),
  (86, 4, 0, [0xFFFF]),
  (87, 5, 0, [0xFFFF]),
  (88, 5, 0, [0xFFFF]),
  (89, 0, 0, [0xFFFF]),
  (90, 5, 0, [0xFFFF]),
  (91, 5, 0, [0xFFFF]),
  (92, 5, 0, [0xFFFF]),
  (93, 5, 0, [1, 2, 3, 4, 5, 8, 9]),
  (94, 5, 0, [0xFFFF]),
  (95, 4, 0, [0xFFFF]),
  (96, 0, 0, upTo 12),
  (97, 0, 0, upTo 12),
  (98, 0, 0, upTo 12),
  (99, 0, 0, upTo 12),
  (100, 2, 0, [0xFFFF]),
  (101, 0, 0, [0xFFFF]),
  (102, 6, 0, [0xFFFF]),
  (103, 6, 0, [0xFFFF]),
  (104, 6, 0, [0x10, 0x11, 0x12, 0x13, 0x14, 0x20]),
  (105, 6, 0, [0xFFFF]),
  (106, 7, 0, [0xFFFF]),
  (107, 7, 0, [0xFFFF]),
  (108, 7, 0, [0xFFFF]),
  (109, 7, 0, [0xFFFF]),
  (110, 7, 0, [0xFFFF]),
  (111, 7, 0, [0xFFFF]),
  (112, 7, 0, [0xFFFF]),
  (113, 1, 0, [0xFFFF]),
  (114, 0, 0, upTo 16),
  (115, 0, 0, upTo 8),
  (116, 0, 0, [0xFFFF]),
  (117, 0, 0, [0xFFFF])]

/-- Counter table of R505, part 4: (ID, scope, kind 0 running 1 per step 2 level, sub-indices). -/
def ctrRows4 : List (Nat × Nat × Nat × List Nat) := [
  (118, 0, 0, [0xFFFF]),
  (119, 0, 0, [0xFFFF]),
  (120, 1, 0, [0xFFFF]),
  (121, 1, 0, [0xFFFF]),
  (122, 1, 0, [0xFFFF]),
  (123, 1, 0, [0xFFFF]),
  (124, 3, 0, [0xFFFF]),
  (125, 3, 0, [0xFFFF]),
  (126, 1, 0, [0xFFFF]),
  (127, 1, 0, [0xFFFF]),
  (128, 1, 0, [0xFFFF]),
  (129, 0, 0, [0xFFFF]),
  (130, 0, 0, [0xFFFF]),
  (131, 0, 0, [0xFFFF]),
  (132, 0, 0, [0xFFFF]),
  (133, 0, 0, [0xFFFF]),
  (134, 2, 1, [0xFFFF]),
  (135, 2, 1, [0xFFFF]),
  (136, 2, 1, [0xFFFF]),
  (137, 2, 1, [0xFFFF]),
  (138, 2, 0, upTo 2),
  (138, 1, 0, upTo 2),
  (139, 0, 0, gddrSubs),
  (140, 4, 0, [0xFFFF]),
  (141, 4, 0, [0xFFFF]),
  (142, 4, 0, [0xFFFF]),
  (143, 0, 0, [0xFFFF]),
  (144, 0, 0, [0xFFFF]),
  (145, 2, 0, [0xFFFF]),
  (146, 2, 0, [0xFFFF]),
  (147, 3, 0, [0xFFFF]),
  (148, 3, 0, [0xFFFF]),
  (149, 3, 0, [0xFFFF]),
  (150, 3, 0, [0xFFFF]),
  (151, 1, 0, [0xFFFF]),
  (152, 1, 0, [0xFFFF]),
  (153, 0, 0, [0xFFFF]),
  (154, 2, 0, [0xFFFF])]

/-- Every fixed counter, in ascending counter ID. -/
def ctrRows : List (Nat × Nat × Nat × List Nat) :=
  ctrRows1 ++ ctrRows2 ++ ctrRows3 ++ ctrRows4

/-! ### Slots -/

/-- The scopes of 14 R372. -/
abbrev Scope.device : Nat := 0
/-- sector scope -/
abbrev Scope.sector : Nat := 1
/-- core scope -/
abbrev Scope.core : Nat := 2
/-- network scope -/
abbrev Scope.net : Nat := 3
/-- port scope -/
abbrev Scope.port : Nat := 4
/-- flow scope -/
abbrev Scope.flow : Nat := 5
/-- mailbox scope -/
abbrev Scope.mailbox : Nat := 6
/-- stream scope -/
abbrev Scope.stream : Nat := 7

/-- Whether a counter is kept per step: the counters of R60 to R514 so marked (20 R508). -/
def perStep (id : Nat) : Bool := (ctrRows.find? fun r => r.1 == id && r.2.1 == 2).any fun r => r.2.2.1 == 1

/-- An occurrence of a sector counter. -/
def State.countSec (s : State) (n id : Nat) (sub : Nat := noSub) (inc : Nat := 1) : State := s.count Scope.sector n id sub inc
/-- An occurrence of a network counter. -/
def State.countNet (s : State) (k id : Nat) (inc : Nat := 1) : State := s.count Scope.net k id noSub inc
/-- An occurrence of a port counter. -/
def State.countPort (s : State) (p id : Nat) (inc : Nat := 1) : State := s.count Scope.port p id noSub inc
/-- An occurrence of a flow counter. -/
def State.countFlow (s : State) (f id : Nat) (sub : Nat := noSub) (inc : Nat := 1) : State := s.count Scope.flow f id sub inc
/-- An occurrence of a mailbox counter. -/
def State.countMb (s : State) (m id : Nat) (sub : Nat := noSub) : State := s.count Scope.mailbox m id sub 1
/-- An occurrence of a stream counter. -/
def State.countStc (s : State) (n id : Nat) (inc : Nat := 1) : State := s.count Scope.stream n id noSub inc

/-! ### Trace records (20 R515 to R517) -/

/-- The marking of a core as R506 and R516 lay it out. -/
def CoreSt.mark (k : CoreSt) : Nat := k.layer * 65536 + k.oper

/-- A trace record of R516. -/
def traceBytes (t kind gap unit mark step a b : Nat) : List Byte :=
  toLe 8 t ++ toLe 1 kind ++ toLe 1 gap ++ toLe 2 unit ++ toLe 4 mark ++ toLe 4 step ++ toLe 4 a ++ toLe 8 b

/-- A record staged in sector n's staging area of 8,192 records (20 R515); one that finds it full is lost, is counted
in TRACE_DROP and marks the next with GAP (R517). -/
def State.traceSector (s : State) (n kind unit mark step a b : Nat) : State :=
  let q := s.sector n
  if 8192 ≤ q.traceStage.length then
    (s.setSector n { q with traceGap := true }).countSec n Ctr.traceDrop
  else
    s.setSector n { q with
      traceStage := q.traceStage ++ [traceBytes s.now kind (b2n q.traceGap) unit mark step a b], traceGap := false }

/-- EN of TRACE_CTRL (20 R518). -/
def State.traceOn (s : State) : Bool := nbit s.traceCtrl.toNat 31

/-- Record `kind` of core c, written while EN is 1 in TRACE_CTRL and TRACE_CFG and the kind's bit of TRACE_CFG is set
(20 R515, R517). -/
def State.traceCore (s : State) (c bit kind a b : Nat) : State :=
  let k := s.core c
  if s.traceOn && nbit k.traceCfg.toNat 31 && nbit k.traceCfg.toNat bit then
    s.traceSector (sectorOf c) kind c k.mark (if k.net = 0 then 0 else k.step % 2 ^ 32) a b
  else s

/-- A POP or EMIT record, one for SAMPLE + 1 occurrences (20 R517): `skip` is the number of occurrences since the
last. Answers the new count and the state. -/
def State.traceSampled (s : State) (c bit kind a b skip : Nat) : Nat × State :=
  let k := s.core c
  if s.traceOn && nbit k.traceCfg.toNat 31 && nbit k.traceCfg.toNat bit then
    if fld k.traceCfg 15 0 ≤ skip then (0, s.traceCore c bit kind a b) else (skip + 1, s)
  else (skip, s)

/-- Records 10 to 12 of the ring, in sector 0, written while EN and the kind's bit of TRACE_CTRL are set (R517). -/
def State.traceRing (s : State) (bit kind unit mark a b : Nat) : State :=
  if s.traceOn && nbit s.traceCtrl.toNat bit then s.traceSector 0 kind unit mark 0 a b else s

/-! ### Core counters and the programmable counters (20 R508, R510) -/

/-- Bit i of SEQ_INT_STATUS of a core set, whatever its enable (21 R527). -/
def State.raiseSeq (s : State) (c i : Nat) : State :=
  s.modCore c fun k => { k with intStatus := nsetBit k.intStatus i }

/-- A programmable counter counts event `ev` while EN is set and the marking matches its filters (20 R510). -/
def Pmc.counts (p : Pmc) (k : CoreSt) (ev : Nat) : Bool :=
  nbit p.cfg.toNat 31 && fld p.cfg 9 0 == ev
    && (!nbit p.cfg.toNat 29 || fld p.filter 31 16 == k.layer) && (!nbit p.cfg.toNat 28 || fld p.filter 15 0 == k.oper)

/-- Programmable counter i advanced: reaching the threshold raises COUNTER and writes a PMC record (20 R510). -/
def State.pmcAdd (s : State) (c i inc : Nat) : State :=
  let k := s.core c
  let p := Tab.get k.pmcs {} i
  let v := satCtr (p.value.toNat + inc)
  let s' := s.setCore c { k with pmcs := Tab.set k.pmcs {} i { p with value := BitVec.ofNat 64 v } }
  if p.thresh.toNat ≠ 0 && p.value.toNat < p.thresh.toNat && p.thresh.toNat ≤ v then
    (s'.raiseSeq c 2).traceCore c 24 9 i v
  else s'

/-- Every programmable counter of core c that counts event `ev` advanced by inc. -/
def State.pmcEvent (s : State) (c ev inc : Nat) : State :=
  (Tab.keys (s.core c).pmcs).foldl (fun s i =>
    if (Tab.get (s.core c).pmcs {} i).counts (s.core c) ev then s.pmcAdd c i inc else s) s

/-- An occurrence of a core counter, with the programmable counters that count it. -/
def State.countCoreSub (s : State) (c id sub inc : Nat) : State :=
  if inc = 0 then s else (s.ctrAdd Scope.core c id sub (if perStep id then 4 else 0) inc).pmcEvent c id inc

/-- An occurrence of a core counter without sub-index. -/
def State.countCore (s : State) (c id : Nat) (inc : Nat := 1) : State := s.countCoreSub c id noSub inc

/-- A level of a core (R92): the highest value of the step. -/
def State.level (s : State) (c id v : Nat) : State :=
  if s.ctrAt Scope.core c id noSub 4 < v then s.ctrPut Scope.core c id noSub 4 v else s

/-- A drop of core scope: counted, with its DROP record (20 R517). -/
def State.dropCore (s : State) (c id ev : Nat) : State := (s.countCore c id).traceCore c 27 4 id ev

/-- A drop at a router: counted in the sector's block. -/
def State.dropRouter (s : State) (n id : Nat) : State := s.countSec n id

/-! ### Per-step snapshot (20 R508) -/

/-- The programmable counters at a step boundary: those with PER_STEP start again (20 R510). -/
def pmcsClosed (t : Tab Pmc) : Tab Pmc :=
  t.filterMap fun e =>
    let p : Pmc := if nbit e.2.cfg.toNat 30 then { e.2 with value := 0 } else e.2
    if p = {} then none else some (e.1, p)

/-- An event sent by the emit stage of core c: counted for the STEP record (R517), under counter ID 0, which no block
shows, and as programmable event 0x306 (20 R511). -/
def State.countSent (s : State) (c : Nat) : State := (s.ctrAdd 2 c 0 noSub 4 1).pmcEvent c 0x306 1

/-- The per-step slots of core c closed: running values copied to kind 1, added to kind 2 and cleared; a level copied
to kind 3 and restarted at the present occupancy. -/
def State.snapCore (s : State) (c : Nat) : State :=
  let k := s.core c
  let s := ctrRows.foldl (fun (s : State) r =>
    if r.2.1 == 2 && r.2.2.1 == 1 then
      let v := s.ctrAt 2 c r.1 noSub 4
      ((s.ctrPut 2 c r.1 noSub 1 v).ctrAdd 2 c r.1 noSub 2 v).ctrPut 2 c r.1 noSub 4 0
    else if r.2.1 == 2 && r.2.2.1 == 2 then
      (s.ctrPut 2 c r.1 noSub 3 (s.ctrAt 2 c r.1 noSub 4)).ctrPut 2 c r.1 noSub 4
        (if r.1 == Ctr.rqHwm then k.rq.length else k.eq.length)
    else s) s
  let s := { s with snap := Tab.set s.snap (0, 0) (2 * 65536 + c) (k.step, s.now) }
  let s := s.modCore c fun k => { k with pmcs := pmcsClosed k.pmcs }
  (s.traceCore c 28 3 (s.ctrAt 2 c Ctr.eventsDelivered noSub 1)
    (s.ctrAt 2 c Ctr.neuronsEvaluated noSub 1 % 2 ^ 32 + s.ctrAt 2 c 0 noSub 4 % 2 ^ 32 * 2 ^ 32)).ctrPut 2 c 0 noSub 4 0

end Sys2Proof.Machine
end

