-- ==== Sys2Proof/Machine/Float.lean ====
section
/-! DEFINITION. Float.lean: F32 arithmetic (02 R34, R51): IEEE 754 binary32, round to nearest with ties to even,
subnormals kept, every NaN result the quiet NaN 0x7FC0_0000, no trap and no flag. Each operation forms its exact value
as a signed fraction and rounds once. -/

namespace Sys2Proof.Machine

/-- The quiet NaN of R51. -/
abbrev f32NaN : Word32 := 0x7FC00000

/-- 1.0. -/
abbrev f32One : Word32 := 0x3F800000

/-- A decoded F32 value: NaN, an infinity, or (-1)^neg * m * 2^(e - 149). -/
inductive FVal where
  | nan
  | inf (neg : Bool)
  | fin (neg : Bool) (m : Nat) (e : Nat)
  deriving DecidableEq, Repr

/-- The value of an F32 word. -/
def f32Val (x : Word32) : FVal :=
  let n := x.toNat
  let ex := nfld n 30 23
  let fr := nfld n 22 0
  if ex = 255 then (if fr = 0 then .inf (nbit n 31) else .nan)
  else if ex = 0 then .fin (nbit n 31) fr 0
  else .fin (nbit n 31) (fr + 2 ^ 23) (ex - 1)

/-- Nearest integer to num / den, ties to even (den not 0). -/
def rneDiv (num den : Nat) : Nat :=
  let q := num / den
  let r := num % den
  if 2 * r < den then q else if den < 2 * r then q + 1 else q + q % 2

/-- The F32 word nearest to (-1)^neg * num / den (den not 0); beyond the largest finite value, the infinity. -/
def f32Round (neg : Bool) (num den : Nat) : Word32 :=
  let sign := if neg then 2 ^ 31 else 0
  if num = 0 then BitVec.ofNat 32 sign
  else
    -- num/den lies in [2^(a-1), 2^(a+1)) with a = log2 num - log2 den; e = floor(log2(num/den)), at least -126
    let a : Int := (Nat.log2 num : Int) - (Nat.log2 den : Int)
    let below : Bool := if a < 0 then num * 2 ^ a.natAbs < den else num < den * 2 ^ a.natAbs
    let e : Int := max (if below then a - 1 else a) (-126)
    let sh : Int := 23 - e
    let q := if sh < 0 then rneDiv num (den * 2 ^ sh.natAbs) else rneDiv (num * 2 ^ sh.natAbs) den
    let bits := (e + 126).toNat * 2 ^ 23 + q
    BitVec.ofNat 32 (sign + min bits 0x7F800000)

/-- The F32 word nearest to an integer over a positive denominator. -/
def f32OfFrac (n : Int) (den : Nat) : Word32 := f32Round (n < 0) n.natAbs den

/-- f32(): an integer rounded to F32 (02 R49). -/
def f32OfInt (n : Int) : Word32 := f32OfFrac n 1

/-- The infinity of a sign. -/
def f32Inf (neg : Bool) : Word32 := if neg then 0xFF800000 else 0x7F800000

/-- The zero of a sign. -/
def f32Zero (neg : Bool) : Word32 := if neg then 0x80000000 else 0

def f32IsNaN (x : Word32) : Bool := match f32Val x with | .nan => true | _ => false

/-- Every NaN operand or result reads as the quiet NaN. -/
def f32Canon (x : Word32) : Word32 := if f32IsNaN x then f32NaN else x

/-- Sign inverted; a NaN gives the quiet NaN. -/
def f32Neg (x : Word32) : Word32 := if f32IsNaN x then f32NaN else x ^^^ 0x80000000

/-- Magnitude; a NaN gives the quiet NaN. -/
def f32Abs (x : Word32) : Word32 := if f32IsNaN x then f32NaN else x &&& 0x7FFFFFFF

/-- The sum. -/
def f32Add (x y : Word32) : Word32 :=
  match f32Val x, f32Val y with
  | .nan, _ => f32NaN
  | _, .nan => f32NaN
  | .inf a, .inf b => if a == b then f32Inf a else f32NaN
  | .inf a, _ => f32Inf a
  | _, .inf b => f32Inf b
  | .fin a m e, .fin b n f =>
    let i : Int := (if a then -(m : Int) else m) * 2 ^ e + (if b then -(n : Int) else n) * 2 ^ f
    if i = 0 then f32Zero (a && b) else f32OfFrac i (2 ^ 149)

/-- The difference. -/
def f32Sub (x y : Word32) : Word32 := if f32IsNaN y then f32NaN else f32Add x (y ^^^ 0x80000000)

/-- The product. -/
def f32Mul (x y : Word32) : Word32 :=
  match f32Val x, f32Val y with
  | .nan, _ => f32NaN
  | _, .nan => f32NaN
  | .inf a, .inf b => f32Inf (a != b)
  | .inf a, .fin b n _ => if n = 0 then f32NaN else f32Inf (a != b)
  | .fin a m _, .inf b => if m = 0 then f32NaN else f32Inf (a != b)
  | .fin a m e, .fin b n f => f32Round (a != b) (m * n * 2 ^ (e + f)) (2 ^ 298)

/-- The quotient. -/
def f32Div (x y : Word32) : Word32 :=
  match f32Val x, f32Val y with
  | .nan, _ => f32NaN
  | _, .nan => f32NaN
  | .inf _, .inf _ => f32NaN
  | .inf a, .fin b _ _ => f32Inf (a != b)
  | .fin a _ _, .inf b => f32Zero (a != b)
  | .fin a m e, .fin b n f =>
    if n = 0 then (if m = 0 then f32NaN else f32Inf (a != b))
    else f32Round (a != b) (m * 2 ^ e) (n * 2 ^ f)

/-- An order on F32 words other than NaN: the value as a multiple of 2^-149, infinities beyond every finite value. -/
def f32Key (x : Word32) : Int :=
  match f32Val x with
  | .nan => 0
  | .inf neg => if neg then -(2 ^ 300 : Int) else 2 ^ 300
  | .fin neg m e => if neg then -((m * 2 ^ e : Nat) : Int) else ((m * 2 ^ e : Nat) : Int)

/-- x < y; false where either is NaN. -/
def f32Lt (x y : Word32) : Bool := !f32IsNaN x && !f32IsNaN y && decide (f32Key x < f32Key y)

/-- x ≤ y; false where either is NaN. -/
def f32Le (x y : Word32) : Bool := !f32IsNaN x && !f32IsNaN y && decide (f32Key x ≤ f32Key y)

/-- x = y; false where either is NaN. -/
def f32Eq (x y : Word32) : Bool := !f32IsNaN x && !f32IsNaN y && decide (f32Key x = f32Key y)

/-- The integer nearest to a finite value, ties to even. -/
def f32Rne (x : Word32) : Int :=
  match f32Val x with
  | .fin neg m e => let q := rneDiv (m * 2 ^ e) (2 ^ 149); if neg then -(q : Int) else (q : Int)
  | _ => 0

/-- The largest integer not above a finite value. -/
def f32FloorInt (x : Word32) : Int :=
  match f32Val x with
  | .fin neg m e => let v := m * 2 ^ e; if neg then -(((v + 2 ^ 149 - 1) / 2 ^ 149 : Nat) : Int) else ((v / 2 ^ 149 : Nat) : Int)
  | _ => 0

/-- The square root, correctly rounded: isqrt of the value scaled by an even power with a sticky bit below. -/
def f32Sqrt (x : Word32) : Word32 :=
  match f32Val x with
  | .nan => f32NaN
  | .inf neg => if neg then f32NaN else f32Inf false
  | .fin neg m e =>
    if m = 0 then f32Zero neg
    else if neg then f32NaN
    else
      -- x = m 2^(e-149) = m 2^(e+251) / 2^400, so sqrt x = sqrt(m 2^(e+251)) / 2^200
      let n := m * 2 ^ (e + 251)
      let r := Nat.sqrt n
      f32Round false (2 * r + (if r * r = n then 0 else 1)) (2 ^ 201)

/-- Positive, normal and finite: what R39 asks of a scale. -/
def f32Scale (x : Word32) : Bool :=
  match f32Val x with
  | .fin neg m _ => !neg && decide (2 ^ 23 ≤ m)
  | _ => false

end Sys2Proof.Machine
end

