-- ==== Sys2Proof/Machine/Operands.lean ====
section
/-! DEFINITION. Operands.lean: the operand forms of the device: event words (02 R40, R41; 03 R61 to R63), payload
formats and every conversion between number formats (02 R44, R49, R52, R53, R55, R57, R58). -/

namespace Sys2Proof.Machine

/-! ### Event words -/

/-- Type, bits [63:60] (03 R61): 1 SPIKE, 2 GRADED, 3 MODULATOR, 4 ERROR, 5 SYNC, 6 PENNANT. -/
def evType (e : Word64) : Nat := fld e 63 60
/-- Format version, bits [59:58] (00 R9). -/
def evFmt (e : Word64) : Nat := fld e 59 58
/-- Destination core, bits [57:48]. -/
def evCore (e : Word64) : Nat := fld e 57 48
/-- Destination row, bits [47:36]. -/
def evRow (e : Word64) : Nat := fld e 47 36
/-- Delay, bits [35:30]. -/
def evDelay (e : Word64) : Nat := fld e 35 30
/-- Payload field, bits [29:14]. -/
def evPayload (e : Word64) : Nat := fld e 29 14
/-- OUTLIER, bit 13 (02 R40). -/
def evOutlier (e : Word64) : Bool := nbit e.toNat 13
/-- PFMT, bits [12:11]. -/
def evPfmt (e : Word64) : Nat := fld e 12 11
/-- RING, bit 6 (03 R62). -/
def evRing (e : Word64) : Bool := nbit e.toNat 6
/-- Type-specific bits [1:0]. -/
def evTs (e : Word64) : Nat := fld e 1 0

/-- The payload as the integer that PFMT names: P8 in bits [21:14], P16 in bits [29:14] (02 R41). -/
def evInt (e : Word64) : Int := if evPfmt e = 0 then sext 8 (fld e 21 14) else sext 16 (evPayload e)

/-- The factor q of R43: 1 for a SPIKE whatever its payload (02 R42). -/
def evQ (e : Word64) : Int := if evType e = 1 then 1 else evInt e

/-- An event word from its fields; a payload is the sign extension to 16 bits of its integer (02 R41). -/
def mkEvent (typ core row delay payload : Nat) (outlier : Bool) (pfmt srcSector : Nat) (ring : Bool)
    (srcIndex ts : Nat) : Word64 :=
  BitVec.ofNat 64 (typ % 16 * 2 ^ 60 + core % 1024 * 2 ^ 48 + row % 4096 * 2 ^ 36 + delay % 64 * 2 ^ 30
    + payload % 65536 * 2 ^ 14 + b2n outlier * 2 ^ 13 + pfmt % 4 * 2 ^ 11 + srcSector % 16 * 2 ^ 7 + b2n ring * 2 ^ 6
    + srcIndex % 16 * 2 ^ 2 + ts % 4)

/-- The payload field of an integer (02 R41). -/
def payloadOf (v : Int) : Nat := toField 16 v

/-! ### Narrowing (02 R52, R53, R55) -/

/-- The result of a narrowing: the code, whether it clamped (CONV_SAT), whether it was NaN (CONV_NAN). -/
structure Narrow where
  /-- the code -/
  q : Int
  /-- clamped -/
  sat : Bool
  /-- a NaN -/
  nan : Bool
  deriving DecidableEq, Repr

/-- The bounds of R52 for P8 (p16 false) or P16 with a zero point. -/
def pLo (p16 : Bool) (z : Int) : Int := if p16 then (if z = 0 then -32767 else -32768) else (if z = 0 then -127 else -128)
/-- The upper bound of R52. -/
def pHi (p16 : Bool) : Int := if p16 then 32767 else 127

/-- A value already divided by its scale, rounded to nearest even, shifted by the zero point and clamped (R52, R53). -/
def narrowInt (v : Word32) (z lo hi : Int) : Narrow :=
  match f32Val v with
  | .nan => ⟨z, false, true⟩
  | .inf neg => ⟨if neg then lo else hi, true, false⟩
  | .fin _ _ _ =>
    let q := f32Rne v + z
    ⟨clampI lo hi q, decide (q < lo ∨ hi < q), false⟩

/-- R53: v over its scale, narrowed to P8 or P16 with zero point z. -/
def narrowP (v scale : Word32) (p16 : Bool) (z : Int) : Narrow := narrowInt (f32Div v scale) z (pLo p16 z) (pHi p16)

/-- The max-abs statistic m after one more element (02 R54): NaN excluded, an infinity as the largest finite value. -/
def maxAbsStep (m v : Word32) : Word32 :=
  match f32Val v with
  | .nan => m
  | .inf _ => 0x7F7FFFFF
  | .fin _ _ _ => if f32Lt m (f32Abs v) then f32Abs v else m

/-- s_tok of R55 for zero point z (0 or -128). -/
def tokenScale (m : Word32) (z : Int) : Word32 :=
  if f32Eq m 0 then f32One else if z = 0 then f32Div m (f32OfInt 127) else f32Div m (f32OfInt 255)

/-- s_out of R56. -/
def outlierScale (m : Word32) : Word32 := if f32Eq m 0 then f32One else f32Div m (f32OfInt 32767)

/-! ### Accumulation (02 R43 to R46) -/

/-- One exact term added to acc56; answers the sum, held at the 56-bit bounds, and whether it would leave them (R45). -/
def accAdd (acc term : Int) : Int × Bool :=
  let v := acc + term
  (clampI (-(2 ^ 55)) (2 ^ 55 - 1) v, decide (v < -(2 ^ 55) ∨ 2 ^ 55 - 1 < v))

/-- The A48 clamp of R44 with `sat`. -/
def a48 (c : Int) : Int × Bool :=
  (clampI (-(2 ^ 47)) (2 ^ 47 - 1) c, decide (c < -(2 ^ 47) ∨ 2 ^ 47 - 1 < c))

/-! ### Traces (02 R57, R58) -/

/-- One draw of the xorshift generator: the new state; the draw is its low 16 bits (R58). -/
def rngNext (x : Word64) : Word64 :=
  let x := x ^^^ (x <<< 13)
  let x := x ^^^ (x >>> 7)
  x ^^^ (x <<< 17)

/-- The draw that a state returns. -/
def rngDraw (x : Word64) : Nat := fld x 15 0

/-- A seed of zero is replaced (R59). -/
def rngSeed (x : Word64) : Word64 := if x = 0 then 0x9E3779B97F4A7C15 else x

/-- Stochastic rounding of a new trace value with 16 fraction bits; answers the TR8 value and whether it clamped (R57). -/
def traceRound (x draw : Nat) : Nat × Bool :=
  let i := x / 2 ^ 16 + (if draw < x % 2 ^ 16 then 1 else 0)
  if 255 < i then (255, true) else (i, false)

/-! ### Decay (03 R79) -/

/-- alpha^delta by repeated squaring, `fuel` bits. -/
def powLoop : Nat → Word32 → Word32 → Nat → Word32
  | 0, result, _, _ => result
  | fuel + 1, result, base, delta =>
    if delta = 0 then result
    else powLoop fuel (if delta % 2 = 1 then f32Mul result base else result) (f32Mul base base) (delta / 2)

/-- alpha^delta as the device computes it (R79); a delta has at most 32 bits. -/
def f32Pow (alpha : Word32) (delta : Nat) : Word32 := powLoop 33 f32One alpha delta

end Sys2Proof.Machine
end

