-- ==== Sys2Proof/Machine/CoreMem.lean ====
section
/-! DEFINITION. CoreMem.lean: the records of an event core (04 R93 to R101, 06 R141 to R143, 07 R177): fields of the row
table, column table, neuron record and route entry, and the weights, tags and delays of the synapse array. -/

namespace Sys2Proof.Machine

/-! ### Words -/

/-- Word w of row table entry i. -/
def CoreSt.rowWord (k : CoreSt) (i w : Nat) : Nat := (Tab.get k.rowW 0 (8 * i + w)).toNat
/-- Word w of row table entry i replaced. -/
def CoreSt.putRow (k : CoreSt) (i w v : Nat) : CoreSt :=
  { k with rowW := Tab.set k.rowW 0 (8 * i + w) (BitVec.ofNat 32 v) }
/-- Word w of column table entry j. -/
def CoreSt.colWord (k : CoreSt) (j w : Nat) : Nat := (Tab.get k.colW 0 (16 * j + w)).toNat
/-- Word w of column table entry j replaced. -/
def CoreSt.putCol (k : CoreSt) (j w v : Nat) : CoreSt :=
  { k with colW := Tab.set k.colW 0 (16 * j + w) (BitVec.ofNat 32 v) }
/-- Word w of neuron record j. -/
def CoreSt.neu (k : CoreSt) (j w : Nat) : Word32 := Tab.get k.neuW 0 (8 * j + w)
/-- Word w of neuron record j replaced. -/
def CoreSt.putNeu (k : CoreSt) (j w : Nat) (v : Word32) : CoreSt := { k with neuW := Tab.set k.neuW 0 (8 * j + w) v }
/-- Route entry i. -/
def CoreSt.route (k : CoreSt) (i : Nat) : Nat := (Tab.get k.routeW 0 i).toNat
/-- acc56 entry a. -/
def CoreSt.acc56 (k : CoreSt) (a : Nat) : Int := Tab.get k.acc 0 a
/-- acc56 entry a replaced. -/
def CoreSt.putAcc (k : CoreSt) (a : Nat) (v : Int) : CoreSt := { k with acc := Tab.set k.acc 0 a v }

/-! ### Row table (04 R96, 06 R142, 07 R177) -/

/-- ENABLE -/
def CoreSt.rEnable (k : CoreSt) (i : Nat) : Bool := nbit (k.rowWord i 0) 31
/-- OUTLIER_ROW -/
def CoreSt.rOutlier (k : CoreSt) (i : Nat) : Bool := nbit (k.rowWord i 0) 30
/-- UPD_PENDING -/
def CoreSt.rPending (k : CoreSt) (i : Nat) : Bool := nbit (k.rowWord i 0) 29
/-- UPD_PENDING set or cleared -/
def CoreSt.setPending (k : CoreSt) (i : Nat) (b : Bool) : CoreSt := k.putRow i 0 (nput (k.rowWord i 0) 29 29 (b2n b))
/-- DELAY -/
def CoreSt.rDelay (k : CoreSt) (i : Nat) : Nat := nfld (k.rowWord i 0) 28 23
/-- DELAY_CEIL -/
def CoreSt.rCeil (k : CoreSt) (i : Nat) : Nat := nfld (k.rowWord i 0) 22 17
/-- PRE_TRACE -/
def CoreSt.rTrace (k : CoreSt) (i : Nat) : Nat := nfld (k.rowWord i 0) 7 0
/-- C, the segment length -/
def CoreSt.rLen (k : CoreSt) (i : Nat) : Nat := nfld (k.rowWord i 1) 29 16 + 1
/-- SEG_START -/
def CoreSt.rStart (k : CoreSt) (i : Nat) : Nat := nfld (k.rowWord i 1) 13 0
/-- WBASE -/
def CoreSt.rBase (k : CoreSt) (i : Nat) : Nat := nfld (k.rowWord i 2) 20 0
/-- PRE_LAST -/
def CoreSt.rLast (k : CoreSt) (i : Nat) : Nat := k.rowWord i 3
/-- IN_CODE -/
def CoreSt.rInCode (k : CoreSt) (i : Nat) : Int := sext 16 (nfld (k.rowWord i 4) 31 16)
/-- RULE -/
def CoreSt.rRule (k : CoreSt) (i : Nat) : Nat := nfld (k.rowWord i 4) 15 12
/-- PRE_SET -/
def CoreSt.rPreSet (k : CoreSt) (i : Nat) : Nat := nfld (k.rowWord i 4) 11 9
/-- HOLD -/
def CoreSt.rHold (k : CoreSt) (i : Nat) : Nat := nfld (k.rowWord i 4) 8 5
/-- CODE_TRACK -/
def CoreSt.rTrack (k : CoreSt) (i : Nat) : Bool := nbit (k.rowWord i 4) 4
/-- DL_EN -/
def CoreSt.rDlEn (k : CoreSt) (i : Nat) : Bool := nbit (k.rowWord i 4) 3
/-- DGRAD -/
def CoreSt.rDgrad (k : CoreSt) (i : Nat) : Int := sext 32 (k.rowWord i 5)
/-- T_EN of column c, for c below 4,096 -/
def CoreSt.tEn (k : CoreSt) (c : Nat) : Bool := nbit (k.rowWord c 6) 31
/-- T_ROW_START -/
def CoreSt.tStart (k : CoreSt) (c : Nat) : Nat := nfld (k.rowWord c 6) 23 12
/-- R, the length of the transposed segment -/
def CoreSt.tRows (k : CoreSt) (c : Nat) : Nat := nfld (k.rowWord c 6) 11 0 + 1
/-- REV_EN -/
def CoreSt.revEn (k : CoreSt) (i : Nat) : Bool := nbit (k.rowWord i 7) 31
/-- REV_RING -/
def CoreSt.revRing (k : CoreSt) (i : Nat) : Bool := nbit (k.rowWord i 7) 30
/-- REV_DEST -/
def CoreSt.revDest (k : CoreSt) (i : Nat) : Nat := nfld (k.rowWord i 7) 29 20
/-- REV_COL -/
def CoreSt.revCol (k : CoreSt) (i : Nat) : Nat := nfld (k.rowWord i 7) 19 8
/-- ERR_SHIFT -/
def CoreSt.errShift (k : CoreSt) (i : Nat) : Nat := nfld (k.rowWord i 7) 7 2

/-- Row i covers column j. -/
def CoreSt.covers (k : CoreSt) (i j : Nat) : Bool := k.rStart i ≤ j && j < k.rStart i + k.rLen i

/-! ### Column table (04 R98, 06 R143) -/

/-- A word of the column table as F32. -/
def CoreSt.colF (k : CoreSt) (j w : Nat) : Word32 := Tab.get k.colW 0 (16 * j + w)
/-- COLSUM -/
def CoreSt.cSum (k : CoreSt) (j : Nat) : Int := sext 32 (k.colWord j 8)
/-- COLSUM changed by d -/
def CoreSt.addSum (k : CoreSt) (j : Nat) (d : Int) : CoreSt := k.putCol j 8 (toField 32 (k.cSum j + d))
/-- EMIT_ZP -/
def CoreSt.cEmitZp (k : CoreSt) (j : Nat) : Int := sext 16 (nfld (k.colWord j 9) 31 16)
/-- ZP -/
def CoreSt.cZp (k : CoreSt) (j : Nat) : Int := sext 16 (nfld (k.colWord j 9) 15 0)
/-- DEST_COUNT -/
def CoreSt.cDests (k : CoreSt) (j : Nat) : Nat := nfld (k.colWord j 10) 20 14
/-- ROUTE_PTR -/
def CoreSt.cRoute (k : CoreSt) (j : Nat) : Nat := nfld (k.colWord j 10) 13 0
/-- k of the column's winner-take-all group -/
def CoreSt.cWtaK (k : CoreSt) (j : Nat) : Nat := nfld (k.colWord j 11) 27 26 + 1
/-- WTA_GROUP -/
def CoreSt.cGroup (k : CoreSt) (j : Nat) : Nat := nfld (k.colWord j 11) 25 16
/-- COMP_VALID -/
def CoreSt.cComp (k : CoreSt) (j : Nat) : Bool := nbit (k.colWord j 11) 14
/-- COMPANION -/
def CoreSt.cCompanion (k : CoreSt) (j : Nat) : Nat := nfld (k.colWord j 11) 13 0
/-- REFRAC -/
def CoreSt.cRefrac (k : CoreSt) (j : Nat) : Nat := nfld (k.colWord j 12) 24 17
/-- RESET_SUB -/
def CoreSt.cResetSub (k : CoreSt) (j : Nat) : Bool := nbit (k.colWord j 12) 16
/-- MOD_CH -/
def CoreSt.cModCh (k : CoreSt) (j : Nat) : Nat := nfld (k.colWord j 12) 15 14
/-- EMIT_TYPE -/
def CoreSt.cEmitType (k : CoreSt) (j : Nat) : Nat := nfld (k.colWord j 12) 13 12
/-- EMIT_FMT: true P16 -/
def CoreSt.cP16 (k : CoreSt) (j : Nat) : Bool := nbit (k.colWord j 12) 11
/-- DELTA -/
def CoreSt.cDelta (k : CoreSt) (j : Nat) : Bool := nbit (k.colWord j 12) 10
/-- ACC_MODE: true persistent -/
def CoreSt.cPersist (k : CoreSt) (j : Nat) : Bool := nbit (k.colWord j 12) 9
/-- EXP -/
def CoreSt.cExp (k : CoreSt) (j : Nat) : Nat := nfld (k.colWord j 12) 8 6
/-- MODEL -/
def CoreSt.cModel (k : CoreSt) (j : Nat) : Nat := nfld (k.colWord j 12) 5 0
/-- GUARD_OVF -/
def CoreSt.cGuard (k : CoreSt) (j : Nat) : Bool := nbit (k.colWord j 13) 8
/-- GUARD_OVF set or cleared -/
def CoreSt.setGuard (k : CoreSt) (j : Nat) (b : Bool) : CoreSt := k.putCol j 13 (nput (k.colWord j 13) 8 8 (b2n b))
/-- POST_TRACE -/
def CoreSt.cTrace (k : CoreSt) (j : Nat) : Nat := nfld (k.colWord j 13) 7 0
/-- POST_LAST -/
def CoreSt.cLast (k : CoreSt) (j : Nat) : Nat := k.colWord j 14
/-- RENORM_EN -/
def CoreSt.cRenormEn (k : CoreSt) (j : Nat) : Bool := nbit (k.colWord j 15) 31
/-- RENORM_MARK -/
def CoreSt.cMark (k : CoreSt) (j : Nat) : Bool := nbit (k.colWord j 15) 30
/-- RENORM_MARK set or cleared -/
def CoreSt.setMark (k : CoreSt) (j : Nat) (b : Bool) : CoreSt := k.putCol j 15 (nput (k.colWord j 15) 30 30 (b2n b))
/-- MOD_SHIFT -/
def CoreSt.cModShift (k : CoreSt) (j : Nat) : Nat := nfld (k.colWord j 15) 29 25
/-- RX_MOD_CH -/
def CoreSt.cRxCh (k : CoreSt) (j : Nat) : Nat := nfld (k.colWord j 15) 24 23
/-- MOD_EN -/
def CoreSt.cModEn (k : CoreSt) (j : Nat) : Bool := nbit (k.colWord j 15) 22
/-- POST_EN -/
def CoreSt.cPostEn (k : CoreSt) (j : Nat) : Bool := nbit (k.colWord j 15) 21
/-- POST_SRC: true for every evaluation -/
def CoreSt.cPostSrc (k : CoreSt) (j : Nat) : Bool := nbit (k.colWord j 15) 20
/-- POST_SET -/
def CoreSt.cPostSet (k : CoreSt) (j : Nat) : Nat := nfld (k.colWord j 15) 19 17

/-- The columns a core of mode m has (04 R93). -/
def modeCols (m : Nat) : Nat := if m = 1 then 1024 else 16384
/-- The weight words a core of mode m has (04 R93). -/
def modeWords (m : Nat) : Nat := if m = 2 then 1048576 else 1572864

/-- The columns of a core, those with any word in the column table: every other column is all zero. -/
def CoreSt.listedCols (k : CoreSt) : List Nat := ((Tab.keys k.colW).map (· / 16)).dedup

/-- The persistent columns. -/
def CoreSt.persistCols (k : CoreSt) : List Nat := k.listedCols.filter k.cPersist

/-- The rows loaded in the core (14 R551). -/
def CoreSt.rowsUsed (k : CoreSt) : List Nat := upTo k.nRows

/-! ### Synapses (04 R93 to R95) -/

/-- The synapse word of row i at column j (R95). -/
def CoreSt.synAddr (k : CoreSt) (i j : Nat) : Nat := k.rBase i + (j - k.rStart i)
/-- The stored synapse word at address a. -/
def CoreSt.synWord (k : CoreSt) (a : Nat) : Nat := (Tab.get k.syn 0 a).toNat
/-- A synapse word stored. -/
def CoreSt.putSyn (k : CoreSt) (a v : Nat) : CoreSt := { k with syn := Tab.set k.syn 0 a (BitVec.ofNat 16 v) }

/-- The weight integer in a stored word: S16, or bits [15:4] in S12D4 (02 R36). -/
def weightOf (mode w : Nat) : Int := if mode = 1 then sext 12 (w / 16) else sext 16 w
/-- The per-synapse delay in a stored word, 0 outside S12D4. -/
def synDelay (mode w : Nat) : Nat := if mode = 1 then w % 16 else 0
/-- The stored word of a weight and delay. -/
def synPack (mode : Nat) (w : Int) (d : Nat) : Nat := if mode = 1 then toField 12 w * 16 + d % 16 else toField 16 w
/-- The bound of a stored weight (02 R35). -/
def weightMax (mode : Nat) : Int := if mode = 1 then 2047 else 32767

/-- The weight of row i at column j. -/
def CoreSt.weight (k : CoreSt) (i j : Nat) : Int := weightOf k.mode (k.synWord (k.synAddr i j))

/-- The T8 tag of the synapse whose weight is at word a (04 R94). -/
def CoreSt.tag (k : CoreSt) (a : Nat) : Nat :=
  let w := k.synWord (1048576 + a / 2)
  if a % 2 = 0 then w % 256 else w / 256
/-- A tag stored. -/
def CoreSt.putTag (k : CoreSt) (a v : Nat) : CoreSt :=
  let w := k.synWord (1048576 + a / 2)
  k.putSyn (1048576 + a / 2) (if a % 2 = 0 then w / 256 * 256 + v % 256 else v % 256 * 256 + w % 256)

/-- Bytes of a fetch of n synapses from word a: 2 for each weight word, and for each tag word in tagged mode (20 R512). -/
def fetchBytes (mode a n : Nat) : Nat := 2 * n + (if mode = 2 && 0 < n then 2 * ((a + n - 1) / 2 - a / 2 + 1) else 0)

/-! ### Accumulators (02 R43 to R46, 04 R116) -/

/-- The accumulator entry of column j in step n for a product of per-synapse delay d (04 R116). -/
def accIndex (mode n j d : Nat) : Nat := if mode = 1 then (n + d) % 16 * 1024 + j else j

/-- A term added to acc56 entry a of column j: the core, and whether the sum would leave 56 bits (R43, R45). -/
def CoreSt.accTerm (k : CoreSt) (a j : Nat) (term : Int) : CoreSt × Bool :=
  let r := accAdd (k.acc56 a) term
  let k := k.putAcc a r.1
  if r.2 then (k.setGuard j true, true) else (k, false)

/-- Accumulator clear of column j (R46): z * colsum * 2^e in persistent mode, 0 in reset mode; the guard flag clears. -/
def CoreSt.accClear (k : CoreSt) (j : Nat) : CoreSt :=
  let v := if k.cPersist j then k.cZp j * k.cSum j * 2 ^ k.cExp j else 0
  let k := k.putAcc j (clampI (-(2 ^ 55)) (2 ^ 55 - 1) v)
  if k.cGuard j then k.setGuard j false else k

/-- IN_CODE of a row with CODE_TRACK set to ZP of column SEG_START (06 R160). -/
def CoreSt.resetInCode (k : CoreSt) (i : Nat) : CoreSt :=
  k.putRow i 4 (nput (k.rowWord i 4) 31 16 (toField 16 (k.cZp (k.rStart i))))

/-- IN_CODE of every row with CODE_TRACK reset. -/
def CoreSt.resetInCodes (k : CoreSt) : CoreSt :=
  k.rowsUsed.foldl (fun k i => if k.rTrack i then k.resetInCode i else k) k

/-- Guard overflows counted: one ACC_GUARD_OVF each, ENGINE_FAULT raised, and a fault-log entry due (02 R45, 03 R89, 18 R458). -/
def State.guardOvf (s : State) (c n : Nat) : State :=
  if n = 0 then s else ((s.countCore c Ctr.accGuardOvf n).raiseSeq c 3).modFault fun f =>
    { f with guardDue := if f.guardDue.contains c then f.guardDue else f.guardDue ++ [c] }

end Sys2Proof.Machine
end

