-- ==== Sys2Proof/Config.lean ====
section
/-! DEFINITION. Config.lean: the values that the spec leaves open or that come from outside the block, as constants
without a value (log 10). Applied to State.free, a free-value constant gives a fresh value at each draw. -/

namespace Sys2Proof

/-- A byte whose value the spec does not give: a byte of a checkpoint (07 R185), of a nonce (19 R479), of a report of
the security core. -/
opaque Config.freeByte : Nat → Byte

/-- The GDDR6 address that an all-reduce chunk names at the receiving member, which the spec does not give (07 R184; log 22). -/
opaque Config.chunkAddr : Nat → BitVec 64

/-- How many rows of a READ_WEIGHTS are still to be copied when DELIVER n + 1 ends, and for how many cycles a write-back waits for one of
them: timing that the spec does not give (07 R187; log 84). -/
opaque Config.snapLeft : Nat → Nat

/-- The length of a checkpoint, whose layout the spec does not give (07 R185). -/
opaque Config.ckptLen : Nat → Nat

/-- A number whose value the spec does not give: which bit an injected error flips (11 R297). -/
opaque Config.freeNat : Nat → Nat

/-- The error scale of the router layer of a dispatch packer (08 R214), which no record of a load image carries. -/
opaque Config.routerErrScale : Nat → Word32

/-- The DeviceID public key, derived from the fused identity secret (19 R481). -/
opaque Config.deviceIdKey : List Byte

/-- Whether an Ed25519 signature holds (RFC 8032, outside the spec): key, message, signature. The keys are 0 production
firmware, 1 development firmware, 2 debug authority, 3 life-cycle authority, 4 development debug (19 R478, R484). -/
opaque Config.sigOk : Nat → List Byte → List Byte → Bool

/-- The Ed25519 signature by the alias key of the firmware with a given digest over a message (19 R481, R487). -/
opaque Config.aliasSig : List Byte → List Byte → List Byte

/-- The certificates of levels 0 to 2 in the flash identity area, and the alias certificate for a firmware digest and a
life-cycle state (19 R482). -/
opaque Config.certChain : List Byte → Nat → List Byte

/-- The digest of the boot ROM (19 R486, measurement 1). -/
opaque Config.romDigest : List Byte

/-- The digest of the board firmware descriptor (19 R486, measurement 3). -/
opaque Config.boardDigest : List Byte

/-- Header fields and digest of the firmware that the board's flash came with, by slot: FW_VERSION, SVN, and SHA-512 of
header and body (19 R484; log 11). -/
opaque Config.flashVersion : Nat → Word32
/-- Its SVN. -/
opaque Config.flashSvn : Nat → BitVec 6
/-- Its digest. -/
opaque Config.flashDigest : Nat → List Byte

/-- A byte of a flash slot as the board came, where nothing has been written since (19 R483). -/
opaque Config.flashByte : Nat → Nat → Byte

/-- The 4 bytes that measurement 4 digests: of life-cycle state, LC_PENDING and PERMS, whose order the spec does not give
(19 R486). -/
opaque Config.stateBytes : Nat → Bool → Nat → List Byte

/-- The DMTF measurement value type of a measurement index, which the spec does not give (19 R486). -/
opaque Config.measureType : Nat → BitVec 7

/-- Spare rows and column groups that the fuses leave unused in a sector (17 R434). -/
opaque Config.spareElems : Nat → Nat

/-- The device input power in W, from the power manager's estimate (19 R491). -/
opaque Config.inputPower : Nat → Nat

/-- Whether a byte offset of a core sequencer's data memory lies in its request area, whose place the spec does not give (03 R89;
log 82). -/
opaque Config.requestArea : Nat → Bool

/-- The die stepping in the fuses (21, DEV_IDENT). -/
opaque Config.stepping : Nat

end Sys2Proof
end

