-- ==== Sys2Proof/Machine/GddrMem.lean ====
section
/-! DEFINITION. GddrMem.lean: the GDDR6 memory as its users see it (12 R304 to R307, R309): device addresses, blocks of
64 bytes, poison, and the byte counts of 20 R513. -/

namespace Sys2Proof.Machine

/-! ### The address map (12 R304, R309) -/

/-- Usable capacity in bytes; device addresses run below it. -/
def GddrSt.top (g : GddrSt) : Nat := g.usable * 2 ^ 28

/-- Chunk of a device address: 31 data blocks of 64 bytes with inline ECC, 2 KiB without. -/
def GddrSt.chunk (g : GddrSt) (a : Nat) : Nat := if g.ecc then a / 64 / 31 else a / 2048

/-- The controller of a device address. -/
def GddrSt.controller (g : GddrSt) (a : Nat) : Nat := g.chunk a % 12

/-- The channel of a device address: 0 A, 1 B. -/
def GddrSt.channel (g : GddrSt) (a : Nat) : Nat := g.chunk a / 12 % 2

/-- Start of the command journal. -/
abbrev journalBase : Nat := 0x04000000
/-- Start of the flow commit area. -/
abbrev commitBase : Nat := 0x05000000
/-- Start of the fault log. -/
abbrev faultLogBase : Nat := 0x05180000
/-- Start of the retransmit region. -/
abbrev rtxBase : Nat := 0x06000000
/-- Start of the staging pool. -/
def GddrSt.stgBase (g : GddrSt) : Nat := rtxBase + g.rtxSize
/-- Start of the image area. -/
def GddrSt.imageBase (g : GddrSt) : Nat := g.stgBase + g.stgSize

/-! ### Classes (12 R316; sub-index numbering of 20 R513) -/

/-- The number of a traffic class. -/
def classNum : GddrClass → Nat
  | .system => 0
  | .fabric => 1
  | .paging => 2
  | .compute => 3
  | .host => 4

/-- The blocks that n bytes from a touch, with the bytes of each. -/
def blockSpan (a n : Nat) : List (Nat × Nat) :=
  if n = 0 then []
  else (upTo ((a + n - 1) / 64 - a / 64 + 1)).map fun i =>
    let b := a / 64 + i
    (b, min (a + n) (b * 64 + 64) - max a (b * 64))

/-- An access counted in GDDR_BYTES, 64 bytes for each block that it touches (20 R512); `dir` 0 read, 1 write. -/
def State.gddrCount (s : State) (a n : Nat) (cls : GddrClass) (dir : Nat) : State :=
  (blockSpan a n).foldl (fun s x =>
    s.countDev Ctr.gddrBytes (s.gddr.controller (x.1 * 64) * 16 + classNum cls * 2 + dir) 64) s

/-! ### Reads and writes -/

/-- Some block that n bytes from a touch is poisoned (12 R305). -/
def State.gPoisoned (s : State) (a n : Nat) : Bool := (blockSpan a n).any fun x => Tab.get s.gddr.poison false x.1

/-- The bytes of a block with those selected by the mask replaced. -/
def maskBytes (mask : Word64) (old data : List Byte) : List Byte :=
  (upTo 64).map fun i => if nbit mask.toNat i then data.getD i 0 else old.getD i 0

/-- The channel of a device address does not serve: it retrains, or it has stopped (R303). -/
def GddrSt.waits (g : GddrSt) (a : Nat) : Bool := Tab.get g.chan 0 (g.controller a * 2 + g.channel a) != 0

/-- Some block that n bytes from a touch waits for its channel (R303). -/
def State.gHeld (s : State) (a n : Nat) : Bool := !s.gddr.chan.isEmpty && (blockSpan a n).any fun x => s.gddr.waits (x.1 * 64)

/-- The Reserved range of the address map, which reads as zero (R309). -/
def reservedAddr (a : Nat) : Bool := 0x05200000 ≤ a && a < rtxBase

/-- Bytes stored in the memory; those of the Reserved range are not. -/
def GddrSt.store (g : GddrSt) (a : Nat) (bytes : List Byte) : GddrSt :=
  { g with mem := if a < rtxBase && 0x05200000 < a + bytes.length then
      memWrite (memWrite g.mem a (bytes.take (0x05200000 - a))) (max a rtxBase) (bytes.drop (rtxBase - a))
    else memWrite g.mem a bytes }

/-- The memory once the writes that wait for a channel have been made, in the order in which they reached it (R307). -/
def GddrSt.settled (g : GddrSt) : GddrSt :=
  g.held.foldl (fun g q => match q.op with
    | .write mask data => g.store q.addr (maskBytes mask (memRead g.mem q.addr 64) data)
    | .read => g) g

/-- The bytes at a device address: those that a read finds after every write that reached its controller before (R307). -/
def State.gPeek (s : State) (a n : Nat) : List Byte := memRead (if s.gddr.held.isEmpty then s.gddr.mem else s.gddr.settled.mem) a n

/-- Event bit i of controller g set: 3 EDC_RETRAIN, 2 ECC_UNCORR, 1 ADDR_TAG, 0 CHAN_FAULT (12, Registers). -/
def State.gddrEvent (s : State) (g i : Nat) : State :=
  s.modGddr fun m => { m with events := Tab.set m.events 0 g (nsetBit (Tab.get m.events 0 g) i) }

/-- The ECC check of the blocks that a read of n bytes from a touches, one that is poisoned being uncorrectable again (R305). -/
def State.gCheck (s : State) (a n : Nat) : State :=
  if s.gddr.poison.isEmpty || !s.gddr.ecc then s
  else (blockSpan a n).foldl (fun s x =>
    let g := s.gddr.controller (x.1 * 64)
    if Tab.get s.gddr.poison false x.1 then (s.countDev Ctr.gddrEccUncorr g).gddrEvent g 2 else s) s

/-- Device addresses whose contents the firmware keeps in a form that the spec does not give: the save area, the command
journal and the fault log (R309; log 54). -/
def firmwareArea (a : Nat) : Bool := a < commitBase || (faultLogBase ≤ a && a < 0x05200000)

/-- The firmware has put something where address a lies: the journal once a command has been accepted, the fault log once it has an
entry, the save area after either. Before that its areas read as zero, as at the first DEV_READY (R308). -/
def State.firmwareUsed (s : State) (a : Nat) : Bool :=
  let j := s.mbox.any fun m => m.2.jhead != 0
  let l := s.fault.entriesCold != 0
  firmwareArea a && (if a < journalBase then j || l else if a < commitBase then j else l)

/-- The bytes that a request from outside the firmware finds: those of the firmware's own areas are free values where no
such request has written them. -/
def State.gView (s : State) (a n : Nat) : List Byte × State :=
  if n = 0 || !(firmwareArea a || firmwareArea (a + n - 1)) then (s.gPeek a n, s)
  else
    ((upTo n).map fun i =>
      let b := memByte s.gddr.mem (a + i)
      if s.firmwareUsed (a + i) && b = 0 then Config.freeByte (s.free + i) else b,
     { s with free := s.free + n })

/-- The request for the part of a write of bytes from a that falls in block b, with n bytes there. -/
def blockWrite (a : Nat) (bytes : List Byte) (b n : Nat) : GddrReq :=
  let lo := max a (b * 64)
  { addr := b * 64, op := .write (BitVec.ofNat 64 ((2 ^ n - 1) * 2 ^ (lo - b * 64))) (zeros (lo - b * 64) ++ (bytes.drop (lo - a)).take n) }

/-- Bytes stored at a device address (R306): poison leaves a block that the write covers whole, and a part written to a poisoned block
is checked and leaves it poisoned. -/
def State.gStore (s : State) (a : Nat) (bytes : List Byte) : State :=
  let span := blockSpan a bytes.length
  let s := if s.gddr.poison.isEmpty then s
    else (span.filter fun x => x.2 != 64).foldl (fun s x => s.gCheck (x.1 * 64) 64) s
  s.modGddr fun g =>
    let g := g.store a bytes
    { g with poison := if g.poison.isEmpty then [] else ((span.filter fun x => x.2 == 64).map Prod.fst).foldl (fun t b => Tab.set t false b false) g.poison }

/-- Bytes written to a device address. The part that falls in blocks of a channel that retrains waits there, behind what waits already
(R303, R307). -/
def State.gPoke (s : State) (a : Nat) (bytes : List Byte) : State :=
  if !s.gHeld a bytes.length then s.gStore a bytes
  else (blockSpan a bytes.length).foldl (fun s x =>
    if s.gddr.waits (x.1 * 64) then s.modGddr fun g => { g with held := g.held ++ [blockWrite a bytes x.1 x.2] }
    else
      let lo := max a (x.1 * 64)
      s.gStore lo ((bytes.drop (lo - a)).take x.2)) s

/-- A read by an engine of class `cls`, checked and counted. -/
def State.gRead (s : State) (a n : Nat) (cls : GddrClass) : List Byte × State := (s.gPeek a n, (s.gCheck a n).gddrCount a n cls 0)

/-- A write by an engine of class `cls`, counted. -/
def State.gWrite (s : State) (a : Nat) (bytes : List Byte) (cls : GddrClass) : State :=
  (s.gPoke a bytes).gddrCount a bytes.length cls 1

end Sys2Proof.Machine
end

