-- ==== Sys2Proof/Machine/Hash.lean ====
section
/-! DEFINITION. Hash.lean: SHA-512 (00, abbreviations; 14 R356; 17 R443; 19 R478, R486), and the CRC-32 of 11 R271 and
CRC-32C of 11 R279, as their standards give them (log 7). -/

namespace Sys2Proof.Machine

/-! ### SHA-512 -/

/-- The 80 round constants of 64 bits, five to a number, the first of each five in its high bits. -/
def shaFives : List Nat := [
  0x428a2f98d728ae227137449123ef65cdb5c0fbcfec4d3b2fe9b5dba58189dbbc3956c25bf348b538,
  0x59f111f1b605d019923f82a4af194f9bab1c5ed5da6d8118d807aa98a303024212835b0145706fbe,
  0x243185be4ee4b28c550c7dc3d5ffb4e272be5d74f27b896f80deb1fe3b1696b19bdc06a725c71235,
  0xc19bf174cf692694e49b69c19ef14ad2efbe4786384f25e30fc19dc68b8cd5b5240ca1cc77ac9c65,
  0x2de92c6f592b02754a7484aa6ea6e4835cb0a9dcbd41fbd476f988da831153b5983e5152ee66dfab,
  0xa831c66d2db43210b00327c898fb213fbf597fc7beef0ee4c6e00bf33da88fc2d5a79147930aa725,
  0x06ca6351e003826f142929670a0e6e7027b70a8546d22ffc2e1b21385c26c9264d2c6dfc5ac42aed,
  0x53380d139d95b3df650a73548baf63de766a0abb3c77b2a881c2c92e47edaee692722c851482353b,
  0xa2bfe8a14cf10364a81a664bbc423001c24b8b70d0f89791c76c51a30654be30d192e819d6ef5218,
  0xd69906245565a910f40e35855771202a106aa07032bbd1b819a4c116b8d2d0c81e376c085141ab53,
  0x2748774cdf8eeb9934b0bcb5e19b48a8391c0cb3c5c95a634ed8aa4ae3418acb5b9cca4f7763e373,
  0x682e6ff3d6b2b8a3748f82ee5defb2fc78a5636f43172f6084c87814a1f0ab728cc702081a6439ec,
  0x90befffa23631e28a4506cebde82bde9bef9a3f7b2c67915c67178f2e372532bca273eceea26619c,
  0xd186b8c721c0c207eada7dd6cde0eb1ef57d4f7fee6ed17806f067aa72176fba0a637dc5a2c898a6,
  0x113f9804bef90dae1b710b35131c471b28db77f523047d8432caab7b40c724933c9ebe0a15c9bebc,
  0x431d67c49c100d4c4cc5d4becb3e42b6597f299cfc657e2a5fcb6fab3ad6faec6c44198c4a475817]

/-- The round constants in order. -/
def shaRounds : List Word64 := shaFives.flatMap fun v => (upTo 5).map fun i => BitVec.ofNat 64 (v >>> (64 * (4 - i)))

/-- Initial hash value. -/
def shaInit : List Word64 := [
  0x6a09e667f3bcc908, 0xbb67ae8584caa73b, 0x3c6ef372fe94f82b, 0xa54ff53a5f1d36f1,
  0x510e527fade682d1, 0x9b05688c2b3e6c1f, 0x1f83d9abfb41bd6b, 0x5be0cd19137e2179]

/-- Rotation right. -/
def rotr64 (x : Word64) (n : Nat) : Word64 := (x >>> n) ||| (x <<< (64 - n))

/-- A number from bytes, the first the most significant. -/
def beNat (l : List Byte) : Nat := l.foldl (fun a b => a * 256 + b.toNat) 0

/-- n bytes of v, the first the most significant. -/
def toBe (n v : Nat) : List Byte := (toLe n v).reverse

/-- A message padded to whole blocks of 128 bytes. -/
def shaPad (m : List Byte) : List Byte :=
  m ++ [0x80] ++ zeros ((240 - (m.length + 1) % 128) % 128) ++ toBe 16 (8 * m.length)

/-- The sixteen words of a block. -/
def shaWords (b : List Byte) : List Word64 := (upTo 16).map fun i => BitVec.ofNat 64 (beNat ((b.drop (8 * i)).take 8))

/-- One round: the working variables a to h and the 16 words still to come. -/
def shaRound (r : List Word64 × List Word64) (k : Word64) : List Word64 × List Word64 :=
  let g (i : Nat) := r.1.getD i 0
  let w (i : Nat) := r.2.getD i 0
  let s1 := rotr64 (g 4) 14 ^^^ rotr64 (g 4) 18 ^^^ rotr64 (g 4) 41
  let ch := (g 4 &&& g 5) ^^^ (~~~(g 4) &&& g 6)
  let t1 := g 7 + s1 + ch + k + w 0
  let s0 := rotr64 (g 0) 28 ^^^ rotr64 (g 0) 34 ^^^ rotr64 (g 0) 39
  let maj := (g 0 &&& g 1) ^^^ (g 0 &&& g 2) ^^^ (g 1 &&& g 2)
  let e1 := rotr64 (w 14) 19 ^^^ rotr64 (w 14) 61 ^^^ (w 14 >>> 6)
  let e0 := rotr64 (w 1) 1 ^^^ rotr64 (w 1) 8 ^^^ (w 1 >>> 7)
  ([t1 + s0 + maj, g 0, g 1, g 2, g 3 + t1, g 4, g 5, g 6], r.2.tail ++ [e1 + w 9 + e0 + w 0])

/-- The hash value after one block. -/
def shaBlock (h : List Word64) (b : List Byte) : List Word64 :=
  let r := shaRounds.foldl shaRound (h, shaWords b)
  (upTo 8).map fun i => h.getD i 0 + r.1.getD i 0

/-- n blocks. -/
def shaBlocks : Nat → List Word64 → List Byte → List Word64
  | 0, h, _ => h
  | n + 1, h, m => shaBlocks n (shaBlock h (m.take 128)) (m.drop 128)

/-- The SHA-512 digest of a message, 64 bytes. -/
def sha512 (m : List Byte) : List Byte :=
  let p := shaPad m
  (shaBlocks (p.length / 128) shaInit p).flatMap fun w => toBe 8 w.toNat

/-! ### CRC -/

/-- One bit of a reflected CRC of 32 bits. -/
def crcBit (poly : Word32) (c : Word32) : Word32 := if nbit c.toNat 0 then (c >>> 1) ^^^ poly else c >>> 1

/-- One byte of a reflected CRC. -/
def crcByte (poly : Word32) (c : Word32) (b : Byte) : Word32 :=
  (upTo 8).foldl (fun c _ => crcBit poly c) (c ^^^ b.setWidth 32)

/-- A reflected CRC of 32 bits, all ones in and inverted out. -/
def crc32With (poly : Word32) (m : List Byte) : Word32 := ~~~(m.foldl (crcByte poly) 0xFFFFFFFF)

/-- CRC-32. -/
def crc32 (m : List Byte) : Word32 := crc32With 0xEDB88320 m

/-- CRC-32C. -/
def crc32c (m : List Byte) : Word32 := crc32With 0x82F63B78 m

end Sys2Proof.Machine
end

