-- ==== Sys2Proof/Machine/Mailbox.lean ====
section
/-! DEFINITION. Mailbox.lean: commands of the mailboxes (13 R328 to R348): their fields, the checks of the decision, the
journal, and completion. The commands' own effects stand in the files of their families. -/

namespace Sys2Proof.Machine

/-! ### Codes (13 R332, 14 R347) -/

abbrev codeAccepted : Nat := 0x01
abbrev codeDone : Nat := 0x02
abbrev codeNoFit : Nat := 0x10
abbrev codeBadImage : Nat := 0x11
abbrev codeState : Nat := 0x12
abbrev codeAuthority : Nat := 0x13
abbrev codeVersion : Nat := 0x14
abbrev codeFault : Nat := 0x20

abbrev Why.badField : Nat := 0x0100
abbrev Why.noNetwork : Nat := 0x0101
abbrev Why.netRunning : Nat := 0x0102
abbrev Why.netHalted : Nat := 0x0103
abbrev Why.noSource : Nat := 0x0104
abbrev Why.coreUnassigned : Nat := 0x0105
abbrev Why.coreUnavailable : Nat := 0x0106
abbrev Why.noSlot : Nat := 0x0107
abbrev Why.digest : Nat := 0x0108
abbrev Why.imageFormat : Nat := 0x0109
abbrev Why.admission : Nat := 0x010A
abbrev Why.notTraining : Nat := 0x010B
abbrev Why.streamBound : Nat := 0x010C
abbrev Why.streamUnbound : Nat := 0x010D
abbrev Why.flowState : Nat := 0x010E
abbrev Why.commitInvalid : Nat := 0x010F
abbrev Why.tooHot : Nat := 0x0110
abbrev Why.notHalted : Nat := 0x0111
abbrev Why.noEnsign : Nat := 0x0112
abbrev Why.triggerActive : Nat := 0x0113
abbrev Why.handshakeTimeout : Nat := 0x0114
abbrev Why.flowsOpen : Nat := 0x0115
abbrev Why.noSpare : Nat := 0x0116
abbrev Why.ensignActive : Nat := 0x0117
abbrev Why.noRegion : Nat := 0x0118
abbrev Why.noCommonVersion : Nat := 0x0119
abbrev Why.noQuota : Nat := 0x011A

/-! ### The command (13 R329) -/

/-- OPCODE of a command. -/
def cmdOp (c : List Byte) : Nat := leAt c 0x08 2
/-- NET of a command. -/
def cmdNet (c : List Byte) : Nat := leAt c 0x10 1
/-- RESULT_ADDR of a command. -/
def cmdResAddr (c : List Byte) : Nat := leAt c 0x18 8
/-- RESULT_LEN of a command. -/
def cmdResLen (c : List Byte) : Nat := leAt c 0x20 4
/-- FLAGS bit 0: no MSI-X for the completion. -/
def cmdQuiet (c : List Byte) : Bool := nbit (leAt c 0x11 1) 0

/-- Opcode table of R345: (opcode, NET names a slot, feature bit + 1 or 0, LEN8). -/
def opTable : List (Nat × Bool × Nat × Nat) := [
  (0x0001, false, 0, 11), (0x0002, false, 0, 9), (0x0010, false, 0, 22), (0x0011, false, 0, 9),
  (0x0020, true, 0, 12), (0x0021, true, 0, 9), (0x0022, true, 0, 9), (0x0023, true, 0, 8), (0x0024, true, 0, 8),
  (0x0030, true, 0, 11), (0x0031, true, 0, 9), (0x0032, true, 4, 9), (0x0033, true, 0, 9), (0x0034, true, 0, 10),
  (0x0040, true, 6, 12), (0x0041, false, 6, 9), (0x0050, false, 0, 9), (0x0051, false, 0, 8), (0x0060, false, 0, 9),
  (0x0061, false, 0, 9), (0x0070, true, 8, 9), (0x0071, false, 8, 8), (0x0072, false, 8, 8), (0x0080, true, 9, 9),
  (0x0081, true, 9, 9), (0x0082, false, 9, 10), (0x0083, false, 9, 11), (0x0090, false, 10, 9)]

/-- The table's row for an opcode. -/
def opRow (op : Nat) : Option (Nat × Bool × Nat × Nat) := opTable.find? fun r => r.1 == op

/-- MM0 and MM1 carry the command (R338). -/
def mmCarries (op : Nat) : Bool := [0x01, 0x02, 0x61, 0x50, 0x51, 0x60, 0x71, 0x72].contains op

/-- A debug command, or SET_FAULT_INJECT. -/
def isDebugOp (op : Nat) : Bool := [0x80, 0x81, 0x82, 0x83, 0x90].contains op

/-- The life-cycle state and any debug authorisation permit debug commands, `bit` 0, or fault injection, `bit` 1 (19
R476, R480). -/
def SecSt.debugAllowed (q : SecSt) (bit : Nat) : Bool :=
  q.lc == 0 || q.lc == 1 || q.lc == 3 || (q.lc == 2 && q.auth && nbit q.perms bit)

/-- Check 7 of R332. -/
def SecSt.permits (q : SecSt) (c : List Byte) : Bool :=
  let op := cmdOp c
  if isDebugOp op then q.debugAllowed (if op = 0x90 then 1 else 0)
  else if op = 0x60 then
    if leAt c 0x40 1 = 2 then q.lc == 0 || q.lc == 1 || q.lc == 3 else q.lc != 4
  else true

/-! ### Check 9: the command's own fields (14 R346, R348 and each command's section) -/

/-- What a refusal at the decision answers: code and reason. -/
abbrev Refuse := Option (Nat × Nat)

/-- BAD_FIELD unless the condition holds. -/
def needField (ok : Bool) : Refuse := if ok then none else some (codeState, Why.badField)

/-- A logical core number: 128 to 1,023 is CORE_UNASSIGNED, more is BAD_FIELD (R4, R348). -/
def needCore (c : Nat) : Refuse :=
  if c < 128 then none else if c < 1024 then some (codeVersion, Why.coreUnassigned) else some (codeState, Why.badField)

/-- The first refusal of two. -/
def Refuse.and (a b : Refuse) : Refuse := match a with
  | some x => some x
  | none => b

/-- Index ranges of the counter scopes (14 R372). -/
def scopeSize (scope : Nat) : Nat := [1, 8, 128, 16, 12, 49152, 10, 32].getD scope 0

/-- The windows of a sequencer's memory map (03 R86), as (start, bytes, may be written by DEBUG_WRITE). -/
def seqWindows : List (Nat × Nat × Bool) := [
  (0x00000000, 0x8000, true), (0x00010000, 0x8000, true), (0x00020000, 0x1000, true), (0x01000000, 0x300000, true),
  (0x01400000, 0x80000, true), (0x01500000, 0x100000, true), (0x01600000, 0x100000, true), (0x01700000, 0x10000, true),
  (0x01800000, 0x20000, false), (0x01900000, 0x40000, false), (0x10000000, 0x800000, true)]

/-- Bytes of the flow-context store: 49,152 contexts of 32 bytes (11 R283). -/
abbrev flowStoreBytes : Nat := 49152 * 32

/-- Range, UNIT and read-only checks of DEBUG_READ and DEBUG_WRITE (14 R375). -/
def debugFields (c : List Byte) (write : Bool) : Refuse :=
  let space := leAt c 0x40 1
  let unit := leAt c 0x42 2
  let dlen := leAt c 0x44 4
  let addr := leAt c 0x48 8
  let fits (size : Nat) : Bool := addr + dlen ≤ size
  let lens := needField (dlen % 4 == 0 && 4 ≤ dlen && dlen ≤ 1048576)
  let own : Refuse := match space with
    | 0 => (needCore unit).and (needField
        (seqWindows.any fun w => w.1 ≤ addr && addr + dlen ≤ w.1 + w.2.1 && (!write || w.2.2)
        && (!write || addr + dlen ≤ 0x10020000 || 0x10028000 ≤ addr)))
    | 1 => needField (unit < 8 && fits 0x800000 && (!write || addr + dlen ≤ 0x20000 || 0x28000 ≤ addr))
    | 2 => needField (unit == 0 && fits flowStoreBytes && !write)
    | 3 => needField (unit == 0 && fits 131072 && !write)
    | 4 => needField (unit < 8 && fits 1024)
    | 5 => (needCore unit).and (needField (fits 0x1080))
    | 6 => needField (unit == 0)
    | _ => needField false
  lens.and own

/-- The fields of each command against their ranges. -/
def ownFields (c : List Byte) : Refuse :=
  let b (o : Nat) : Nat := leAt c o 1
  let h (o : Nat) : Nat := leAt c o 2
  let w (o : Nat) : Nat := leAt c o 4
  let q (o : Nat) : Nat := leAt c o 8
  match cmdOp c with
  | 0x0001 => needField (b 0x40 ≤ b 0x41)
  | 0x0002 => needField (h 0x40 ≤ 4)
  | 0x0010 => needField (b 0x40 ≤ 1 && q 0x48 % 64 == 0 && q 0x58 % 65536 == 0)
  | 0x0020 => needField (b 0x40 < 32 && b 0x41 ≤ 2 && q 0x48 % 16 == 0 && (b 0x50 == 0 || (4 ≤ b 0x50 && b 0x50 ≤ 15))
      && h 0x54 ≤ 32767 && (if b 0x41 = 0 then b 0x51 ≤ 2 && b 0x52 ≤ 1 else b 0x51 == 0 && b 0x52 == 0)
      && (b 0x41 == 0 || h 0x54 == 0))
  | 0x0021 => needField (b 0x40 < 32)
  | 0x0022 => needField (1 ≤ b 0x40 && b 0x40 ≤ 3 && b 0x41 < 16 && (b 0x40 != 2 || b 0x42 < 8)
      && (if b 0x40 = 3 then w 0x44 == 0 else 1000 ≤ w 0x44 && w 0x44 ≤ 10000000))
  | 0x0030 => needCore (h 0x40)
  | 0x0031 => (needCore (h 0x40)).and (needField (1 ≤ h 0x44 && h 0x44 ≤ 4096 && b 0x46 ≤ 1))
  | 0x0032 => needField (b 0x42 ≤ 63)
  | 0x0040 => needField (w 0x40 < 49152 && h 0x44 != 0xFFFF && h 0x46 < 49152 && b 0x48 ≤ 1
      && (w 0x4C == 0 || (5 ≤ w 0x4C && w 0x4C ≤ 10000)) && 1 ≤ w 0x50 && 1 ≤ w 0x54 && 1 ≤ w 0x58 && w 0x58 ≤ 60000)
  | 0x0041 => needField (w 0x40 < 49152 && b 0x44 ≤ 1)
  | 0x0050 => needField (b 0x40 == 0 || b 0x40 == 2 || b 0x40 == 3)
  | 0x0060 => needField (b 0x40 ≤ 3 && b 0x41 < 8 && (b 0x40 != 0 || h 0x42 ≤ 16) && (b 0x40 != 1 || h 0x42 ≤ 63)
      && (b 0x40 != 3 || w 0x44 == 0 || (60 ≤ w 0x44 && w 0x44 ≤ 86400)))
  | 0x0061 =>
    (needField (b 0x40 ≤ 7 && b 0x41 ≤ 1)).and
      -- a core scope names a core (00 R4)
      (if b 0x40 = 2 then needCore (w 0x44) else needField (w 0x44 < scopeSize (b 0x40)))
  | 0x0070 => needField (10 ≤ w 0x44 && w 0x44 ≤ 60000)
  | 0x0080 => if h 0x40 = 0xFFFF then none else needCore (h 0x40)
  | 0x0081 => if h 0x40 = 0xFFFF then none else needCore (h 0x40)
  | 0x0082 => debugFields c false
  | 0x0083 => debugFields c true
  | 0x0090 => needField (b 0x40 < 12 && b 0x41 ≤ 4 && (b 0x41 == 0 || 1 ≤ h 0x42))
  | _ => none

/-- Check 9 of R332 for a command on mailbox m: LEN8 and NET as R345 gives, RESULT_ADDR where a result is produced (a
management mailbox has none, 19 R490), then its own fields. -/
def checkFields (m : Nat) (c : List Byte) : Refuse :=
  match opRow (cmdOp c) with
  | none => none
  | some r =>
    (needField (leAt c 0x0A 2 == r.2.2.2 && (if r.2.1 then cmdNet c < 16 else cmdNet c == 0xFF)
      && (8 ≤ m || cmdResAddr c != 0 || !([0x02, 0x31, 0x61, 0x82] : List Nat).contains (cmdOp c)))).and (ownFields c)

/-! ### Completion (13 R335 to R337) -/

/-- Entry `seq` of a journal replaced. -/
def putEntry (l : List JEntry) (e : JEntry) : List JEntry := l.map fun x => if x.seq = e.seq then e else x

/-- A completion record written at its place, COMPLETED set, and the interrupt sent unless FLAGS bit 0 is set (R335,
R336); on MM0 and MM1 the record goes to the endpoint that posted the command (19 R490). -/
def State.showRecord (s : State) (m : Nat) (e : JEntry) (r : List Byte) : State :=
  let s := s.modMb m fun b => { b with comp := memWrite b.comp (64 * (e.seq % 64)) r }
  let s := s.raiseMb m 1 (!cmdQuiet e.cmd)
  if 8 ≤ m then s.send (.mgmt 0x7E 0x03 ((s.mb m).endpoint :: r)) else s

/-- The completion record of R335. -/
def recordBytes (e : JEntry) (code rflags reason epoch resBytes now : Nat) (inline : List Byte) : List Byte :=
  toLe 8 e.seq ++ toLe 2 (cmdOp e.cmd) ++ toLe 1 code ++ toLe 1 rflags ++ toLe 2 reason ++ zeros 2 ++ toLe 4 epoch
    ++ toLe 4 resBytes ++ toLe 8 e.tAccept ++ toLe 8 now ++ fitBytes 24 inline

/-- The marking that a command's trace records carry (20 R504). -/
def cmdMark (c : List Byte) : Nat := leAt c 0x0C 2 * 65536 + leAt c 0x0E 2

/-- Entry e of mailbox m completes. -/
def State.complete (s : State) (m : Nat) (e : JEntry) (code reason : Nat) (inline : List Byte) (resBytes : Nat := 0)
    (short : Bool := false) : State :=
  let r := recordBytes e code (2 * b2n short) reason s.ao.epoch resBytes s.now inline
  let s := s.modMb m fun b => { b with
    journal := putEntry b.journal { e with st := 2, record := r }, highDone := max b.highDone e.seq }
  (s.showRecord m e r).traceRing 29 11 0xFFFF (cmdMark e.cmd) code e.seq

/-- DONE. -/
def State.finish (s : State) (m : Nat) (e : JEntry) (inline : List Byte := []) : State := s.complete m e codeDone 0 inline

/-- A refusal after acceptance: the command had no effect (R335). -/
def State.refuse (s : State) (m : Nat) (e : JEntry) (code reason : Nat) (inline : List Byte := []) : State :=
  s.complete m e code reason inline

/-- DONE with result bytes written at RESULT_ADDR, at most RESULT_LEN of them (R336); a management mailbox has no result
address, and shows what fits in INLINE (19 R490). -/
def State.finishResult (s : State) (m : Nat) (e : JEntry) (bytes : List Byte) (inline : List Byte := []) : State :=
  if 8 ≤ m then s.complete m e codeDone 0 (if bytes.length ≤ 24 then bytes else inline) 0 (24 < bytes.length)
  else
    let sent := if s.pcie.linkUp && s.pcie.busMaster then bytes.take (cmdResLen e.cmd) else []
    (s.hostWrite (cmdResAddr e.cmd) sent).complete m e codeDone 0 inline sent.length (sent.length < bytes.length)

/-! ### Execution in order (13 R334) -/

/-- Opcodes that are serialised across mailboxes as admissions (R357). -/
def isAdmission (op : Nat) : Bool := op == 0x10 || op == 0x11

/-- The network slots that a command names: NET, and for UNLOAD_IMAGE every slot of its image (R359). -/
def State.slotsNamed (s : State) (c : List Byte) : List Nat :=
  if cmdOp c = 0x11 then (upTo 16).filter fun k => (s.net k).image == leAt c 0x40 2 && leAt c 0x40 2 != 0
  else if cmdNet c < 16 then [cmdNet c] else []

/-- The oldest command of mailbox m that has not completed. -/
def State.oldest (s : State) (m : Nat) : Option JEntry := (s.mb m).journal.find? fun e => e.st != 2

/-- Entry e of mailbox m waits for a command of another mailbox accepted before it (R334). -/
def State.mustWait (s : State) (m : Nat) (e : JEntry) : Bool :=
  (upTo 10).any fun o => o != m && (s.mb o).journal.any fun x => x.st != 2 && x.order < e.order &&
    ((isAdmission (cmdOp x.cmd) && isAdmission (cmdOp e.cmd)) || (s.slotsNamed x.cmd).any (s.slotsNamed e.cmd).contains)

/-- The entry of mailbox m that may start now, if its opcode is `op`. -/
def State.front (s : State) (m op : Nat) : Option JEntry :=
  match s.oldest m with
  | some e => if e.st = 0 && cmdOp e.cmd = op && !s.mustWait m e then some e else none
  | none => none

/-- A debug command accepted under an authorisation that has ended (19 R480). -/
def State.authEnded (s : State) (e : JEntry) : Bool := e.revoked || (e.underAuth && !s.sec.permits e.cmd)

/-- While the compute partition is held after a FATAL fault, every command but HELLO, GET_INFO, READ_COUNTERS and those
of the management mailboxes completes FAILED_FAULT (18 R459). -/
def State.heldOff (s : State) (m op : Nat) : Bool := s.fault.fatal && m < 8 && !([0x01, 0x02, 0x61] : List Nat).contains op

/-- With its GDDR6 configuration rejected the device completes only HELLO, GET_INFO and READ_COUNTERS; every other command
completes REFUSED_STATE, for a reason that the spec does not give (17 R433; log 10). -/
def State.memRejected (s : State) (op : Nat) : Bool := s.boot.bootErr == 4 && !([0x01, 0x02, 0x61] : List Nat).contains op

/-- A command executes: `f` gives its effect on the entry that is in front. Nothing happens while no Halyard serves, or
while the front command of the mailbox is another one. -/
def State.runCmd (s : State) (m op : Nat) (f : State → JEntry → State) : State :=
  if !s.ao.serving then s
  else match s.front m op with
    | none => s
    | some e =>
      let s := s.traceRing 29 10 0xFFFF (cmdMark e.cmd) m e.seq
      if s.authEnded e then s.refuse m e codeAuthority 0x000B
      else if s.heldOff m op then s.complete m e codeFault 0 []
      else if s.memRejected op then (s.drawn).refuse m e codeState (Config.freeNat s.free % 2 ^ 16)
      else f s e

/-- The command waits for an event of the device: its entry is executing. -/
def State.park (s : State) (m : Nat) (e : JEntry) : State :=
  s.modMb m fun b => { b with journal := putEntry b.journal { e with st := 1 } }

/-- The executing entry of mailbox m. -/
def State.parked (s : State) (m : Nat) : Option JEntry := (s.mb m).journal.find? fun e => e.st == 1

/-- The executing command of mailbox m, held as m + 1, completes. -/
def State.wakeCmd (s : State) (m1 : Nat) (f : State → Nat → JEntry → State) : State :=
  if m1 = 0 then s
  else match s.parked (m1 - 1) with
    | none => s
    | some e => f s (m1 - 1) e

/-! ### Checks that many commands share -/

/-- Slot NET holds a loaded network, else NO_NETWORK. -/
def State.needNet (s : State) (m : Nat) (e : JEntry) (f : State → State) : State :=
  if (s.net (cmdNet e.cmd)).image = 0 then s.refuse m e codeState Why.noNetwork else f s

/-- The network was shed by ensign mode: ENSIGN_ACTIVE (14 R373). -/
def State.needNotShed (s : State) (m : Nat) (e : JEntry) (f : State → State) : State :=
  if (s.net (cmdNet e.cmd)).shed then s.refuse m e codeState Why.ensignActive else f s

/-- CORE belongs to NET, else CORE_UNAVAILABLE. -/
def State.needMember (s : State) (m : Nat) (e : JEntry) (c : Nat) (f : State → State) : State :=
  if (s.net (cmdNet e.cmd)).cores.contains c then f s else s.refuse m e codeState Why.coreUnavailable

end Sys2Proof.Machine
end

