-- ==== Sys2Proof/Machine/ImageParse.lean ====
section
/-! DEFINITION. ImageParse.lean: the structure of a load image (14 R352 to R354, R543, R544, R551, R552): its header, its
section table and records, and the contents that a core's sections give the core. -/

namespace Sys2Proof.Machine

/-- A failed check of R356: what the completion carries. -/
structure Fail where
  /-- completion code -/
  code : Nat
  /-- reason -/
  reason : Nat
  /-- logical core concerned, 0xFFFF for none -/
  core : Nat := 0xFFFF
  /-- section index -/
  sect : Nat := 0
  /-- byte offset of the failing entry within the image -/
  ofs : Nat := 0
  /-- byte 12: the image would never fit -/
  hard : Bool := false
  deriving DecidableEq, Repr

/-- A section of an image. -/
structure Sec where
  /-- its index in the table -/
  idx : Nat
  /-- SKIND -/
  kind : Nat
  /-- TARGET -/
  target : Nat
  /-- length -/
  len : Nat
  /-- byte offset within the image -/
  ofs : Nat
  /-- its bytes -/
  body : List Byte
  deriving DecidableEq, Repr

/-- A record of a record section. -/
structure Rec where
  /-- RKIND -/
  kind : Nat
  /-- RINDEX -/
  num : Nat
  /-- byte offset within the image -/
  ofs : Nat
  /-- its section's index -/
  sect : Nat
  /-- its section's TARGET -/
  target : Nat
  /-- its bytes, header included -/
  b : List Byte
  deriving DecidableEq, Repr

/-- A parsed image. -/
structure Image where
  /-- IKIND -/
  kind : Nat := 0
  /-- FEATURES -/
  features : BitVec 128 := 0
  /-- its bytes -/
  bytes : List Byte := []
  /-- its sections -/
  secs : List Sec := []
  /-- its records -/
  recs : List Rec := []
  deriving DecidableEq, Repr

/-- An answer of a check. -/
abbrev Chk := Option Fail

/-- A check that must hold. -/
def chk (ok : Bool) (f : Fail) : Chk := if ok then none else some f

/-- The first failure over a list. -/
def chkAll {α : Type} (l : List α) (f : α → Chk) : Chk := l.findSome? f

/-! ### Section kinds (14 R353, R551) -/

/-- The kinds whose TARGET is a logical core. -/
def isCoreKind (k : Nat) : Bool := 0x02 ≤ k && k ≤ 0x0A
/-- The kinds made of records. -/
def isRecKind (k : Nat) : Bool := [0x02, 0x0B, 0x0C, 0x0D, 0x0E, 0x0F].contains k

/-- A TARGET in the range of its kind; false for a kind that R353 does not list. -/
def targetOk (kind target : Nat) : Bool :=
  if kind = 0x01 || kind = 0x10 then target < 16
  else if isCoreKind kind then target < 128
  else if kind = 0x0B then target < 8
  else if [0x0C, 0x0D, 0x0E, 0x0F, 0x20].contains kind then target = 0xFFFF
  else false

/-- A length that R551 allows; record sections are checked by their framing. -/
def lenOk (kind len : Nat) : Bool :=
  let mult (m : Nat) : Bool := len % m == 0 && decide (m ≤ len)
  match kind with
  | 0x01 => len == 64
  | 0x03 => mult 32
  | 0x04 => mult 64
  | 0x05 => mult 2
  | 0x06 => mult 32
  | 0x07 => mult 4
  | 0x08 => len == 4224
  | 0x09 => len == 672
  | 0x0A => len == 65536
  | 0x10 => len == 0
  | 0x20 => len == 131080
  | _ => true

/-! ### Records (14 R543, R544) -/

/-- A length rounded up to a multiple of 8. -/
def round8 (n : Nat) : Nat := (n + 7) / 8 * 8

/-- The length that R544 gives a record, from the counts in it; none for a kind that it does not list. -/
def recLen (kind : Nat) (b : List Byte) : Option Nat :=
  let h (o : Nat) : Nat := leAt b o 2
  let w (o : Nat) : Nat := leAt b o 4
  match kind with
  | 0x0001 => some 64
  | 0x0002 => some 24
  | 0x0101 => some 24
  | 0x0102 => some 32
  | 0x0103 => some 32
  | 0x0201 => some 32
  | 0x0202 => some (round8 (56 + 8 * w 0x2C))
  | 0x0203 => some (round8 (20 + 4 * h 0x10))
  | 0x0301 => some 32
  | 0x0302 => some (round8 (24 + 4 * leAt b 0x12 1))
  | 0x0303 => some (round8 (48 + 4 * h 0x28))
  | 0x0304 => some 32
  | 0x0305 => some 32
  | 0x0306 => some 24
  | 0x0401 => some 24
  | 0x0402 => some 32
  | 0x0403 => some 32
  | 0x0404 => some (round8 (32 + 4 * w 0x10 + 8 * w 0x14 + 4 * w 0x18))
  | 0x0501 => some 40
  | _ => none

/-- The section kind that holds a record kind. -/
def recHome (kind : Nat) : Nat := if kind < 0x100 then 0x02 else 0x0A + kind / 256

/-- The records of a section from byte `pos` on: all of them, or the offset at which the framing fails. -/
def framed : Nat → Sec → Nat → List Byte → Except Nat (List Rec)
  | 0, _, pos, _ => .error pos
  | fuel + 1, sec, pos, rest =>
    if rest.isEmpty then .ok []
    else
      let kind := leAt rest 0 2
      let len := leAt rest 4 4
      match recLen kind rest with
      | none => .error pos
      | some n =>
        if recHome kind ≠ sec.kind || len ≠ n || n < 16 || rest.length < n then .error pos
        else match framed fuel sec (pos + n) (rest.drop n) with
          | .error p => .error p
          | .ok l => .ok ({ kind := kind, num := leAt rest 8 4, ofs := sec.ofs + pos, sect := sec.idx
                            target := sec.target, b := rest.take n } :: l)

/-- The first record that repeats the kind and RINDEX of an earlier one; GRANT may repeat. -/
def repeated : List Rec → Option Rec
  | [] => none
  | r :: t => match t.find? fun x => x.kind == r.kind && x.num == r.num && x.kind != 0x0103 with
    | some x => some x
    | none => repeated t

/-! ### Step 2 of R356 -/

/-- A failure of step 2. -/
def badFormat (sect ofs core : Nat) : Fail := { code := codeBadImage, reason := Why.imageFormat, core, sect, ofs }

/-- The core a section concerns. -/
def Sec.core (x : Sec) : Nat := if isCoreKind x.kind && x.target < 128 then x.target else 0xFFFF

/-- The sections of the table, in its order. -/
def sectionsOf (b : List Byte) (n : Nat) : List Sec :=
  (upTo n).map fun i =>
    let e := (b.drop (64 + 16 * i)).take 16
    let len := leAt e 4 4
    let ofs := leAt e 8 8
    { idx := i, kind := leAt e 0 2, target := leAt e 2 2, len := len, ofs := ofs, body := (b.drop ofs).take len }

/-- Two sections share a byte. -/
def Sec.meets (x y : Sec) : Bool := decide (max x.ofs y.ofs < min (x.ofs + x.len) (y.ofs + y.len))

/-- The first failure of one section against the header and the sections before it. -/
def sectionChk (imgLen n ikind : Nat) (earlier : List Sec) (x : Sec) : Chk :=
  chk (targetOk x.kind x.target && (x.kind == 0x20) == (ikind == 1) && lenOk x.kind x.len && x.ofs % 64 == 0
      && decide (64 + 16 * n ≤ x.ofs) && decide (x.ofs + x.len ≤ imgLen)
      && earlier.all fun y => !(y.kind == x.kind && y.target == x.target) && !x.meets y)
    (badFormat x.idx (64 + 16 * x.idx) x.core)

/-- The first failure of the sections, each against those before it. -/
def sectionsChk (imgLen n ikind : Nat) : List Sec → List Sec → Chk
  | _, [] => none
  | earlier, x :: t => match sectionChk imgLen n ikind earlier x with
    | some f => some f
    | none => sectionsChk imgLen n ikind (x :: earlier) t

/-- The records of every record section. -/
def recordsOf : List Sec → Except Fail (List Rec)
  | [] => .ok []
  | x :: t =>
    if !isRecKind x.kind then recordsOf t
    else match framed (x.len / 16 + 1) x 0 x.body with
      | .error p => .error (badFormat x.idx (x.ofs + p) x.core)
      | .ok l => match repeated l with
        | some r => .error (badFormat x.idx r.ofs x.core)
        | none => match recordsOf t with
          | .error f => .error f
          | .ok m => .ok (l ++ m)

/-- Step 2 of R356: the header, the section table, IMG_LEN and the structure of every section. -/
def parseImage (b : List Byte) (cmdLen : Nat) : Except Fail Image :=
  let n := leAt b 0x10 4
  let ikind := leAt b 0x06 2
  let secs := sectionsOf b n
  if b.length < 64 || leAt b 0 4 ≠ 0x49545A47 || leAt b 0x04 2 ≠ 1 || 1 < ikind || leAt b 0x08 8 ≠ cmdLen
      || b.length ≠ cmdLen || n < 1 || 65535 < n || cmdLen < 64 + 16 * n then .error (badFormat 0 0 0xFFFF)
  else match sectionsChk cmdLen n ikind [] secs with
    | some f => .error f
    | none =>
      if ikind = 1 && n ≠ 1 then .error (badFormat 0 0 0xFFFF)
      else match recordsOf secs with
        | .error f => .error f
        | .ok recs => .ok { kind := ikind, features := BitVec.ofNat 128 (leAt b 0x18 16), bytes := b, secs, recs }

/-! ### Looking into an image -/

/-- The section of a kind and target. -/
def Image.sec? (g : Image) (kind target : Nat) : Option Sec := g.secs.find? fun x => x.kind == kind && x.target == target

/-- The body of a section, empty where the image has none. -/
def Image.body (g : Image) (kind target : Nat) : List Byte := ((g.sec? kind target).map Sec.body).getD []

/-- The records of a kind. -/
def Image.ofKind (g : Image) (k : Nat) : List Rec := g.recs.filter fun r => r.kind == k

/-- The record of a kind and RINDEX, of a kind of which the image has one section. -/
def Image.rec? (g : Image) (k num : Nat) : Option Rec := g.recs.find? fun r => r.kind == k && r.num == num

/-- The number at an offset of a record. -/
def Rec.at (r : Rec) (o n : Nat) : Nat := leAt r.b o n

/-- Numbers of `n` bytes each. -/
def chunks : Nat → Nat → List Byte → List Nat
  | 0, _, _ => []
  | fuel + 1, n, l => if l.isEmpty then [] else leNat (l.take n) :: chunks fuel n (l.drop n)

/-- The numbers of `n` bytes that a byte string holds. -/
def numbers (n : Nat) (l : List Byte) : List Nat := chunks (l.length / n + 1) n l

/-- The non-zero words of a byte string, by index from i on. -/
def wordTab (mask : Nat → Nat) (i : Nat) : List Nat → Tab Word32
  | [] => []
  | v :: t =>
    let x := v &&& mask i
    if x = 0 then wordTab mask (i + 1) t else (i, BitVec.ofNat 32 x) :: wordTab mask (i + 1) t

/-- The non-zero halves of a byte string, by index. -/
def halfTab (i : Nat) : List Nat → Tab SynWord
  | [] => []
  | v :: t => if v = 0 then halfTab (i + 1) t else (i, BitVec.ofNat 16 v) :: halfTab (i + 1) t

/-- The non-zero bytes of a byte string, by index. -/
def byteTab (i : Nat) : List Byte → Tab Byte
  | [] => []
  | v :: t => if v = 0 then byteTab (i + 1) t else (i, v) :: byteTab (i + 1) t

/-! ### Bits that a window keeps (00 R10: a reserved field reads as zero) -/

/-- Row table (04 R96, 06 R142, 07 R177); UPD_PENDING is read-only and loads as 0. -/
def rowMask (i : Nat) : Nat :=
  [0xDFFE00FF, 0x3FFF3FFF, 0x001FFFFF, 0xFFFFFFFF, 0xFFFFFFF8, 0xFFFFFFFF, 0x80FFFFFF, 0xFFFFFFFC].getD (i % 8) 0
/-- Column table (04 R98, 06 R143); GUARD_OVF is read-only and loads as 0; RENORM_MARK set is refused (06). -/
def colMask (i : Nat) : Nat :=
  if i % 16 < 10 then 0xFFFFFFFF
  else [0x001FFFFF, 0x0FFF7FFF, 0x01FFFFFF, 0x000000FF, 0xFFFFFFFF, 0xFFFE0000].getD (i % 16 - 10) 0
/-- Neuron record (04 R101). -/
def neuMask (i : Nat) : Nat := if i % 8 = 7 then 0x0000FF00 else 0xFFFFFFFF
/-- Route entry (04 R99). -/
abbrev routeMask : Nat := 0xFFFFFFF8
/-- Program entry (04 R552). -/
abbrev entMask : Nat := 0x8001FFFF
/-- Rule table entry (06 R141). -/
def ruleMask (i : Nat) : Nat := if i % 12 = 0 then 0x001F3F3F else if i % 12 < 9 then 0xFFFFFFFF else 0
/-- Trace parameter set (06 R141). -/
abbrev setMask : Nat := 0x00FFFFFF
/-- TRAIN_CFG (07 R177). -/
abbrev trainMask : Nat := 0xFF800000
/-- QUEUE_CFG (10 R243). -/
abbrev queueMask : Nat := 0xFFFFFF00

/-! ### The contents of a core (14 R353, R545, R551) -/

/-- The CORE record of a core. -/
def Image.coreRec (g : Image) (c : Nat) : Option Rec := g.recs.find? fun r => r.kind == 0x0001 && r.target == c

/-- A field of the CORE record, 0 without one. -/
def Image.cfg (g : Image) (c o n : Nat) : Nat := ((g.coreRec c).map fun r => r.at o n).getD 0

/-- Accumulators of listed columns cleared as a load does (02 R46). -/
def CoreSt.clearAccs (k : CoreSt) : CoreSt := k.listedCols.foldl CoreSt.accClear { k with acc := [] }

/-- Core c as its sections fill it: windows that no section covers are zero, accumulators and input codes set. -/
def Image.buildCore (g : Image) (c : Nat) (k : CoreSt) : CoreSt :=
  let rows := g.body 0x03 c
  let prog := numbers 4 (g.body 0x08 c)
  let plas := numbers 4 (g.body 0x09 c)
  let sq := g.body 0x0A c
  let k : CoreSt := { k with
    nRows := rows.length / 32
    mode := g.cfg c 0x10 1
    rowW := wordTab rowMask 0 (numbers 4 rows)
    colW := wordTab colMask 0 (numbers 4 (g.body 0x04 c))
    neuW := wordTab neuMask 0 (numbers 4 (g.body 0x06 c))
    routeW := wordTab (fun _ => routeMask) 0 (numbers 4 (g.body 0x07 c))
    syn := halfTab 0 (numbers 2 (g.body 0x05 c))
    prog := wordTab (fun _ => 0xFFFFFFFF) 0 (prog.take 1024)
    progEnt := wordTab (fun _ => entMask) 0 (prog.drop 1024)
    rules := wordTab (fun _ => 0xFFFFFFFF) 0 (plas.take 64)
    ruleTab := wordTab ruleMask 0 ((plas.drop 64).take 96)
    traceSets := wordTab (fun _ => setMask) 0 (plas.drop 160)
    rng := rngSeed (BitVec.ofNat 64 (g.cfg c 0x18 8))
    credit := g.cfg c 0x12 2
    trainCfg := BitVec.ofNat 32 (g.cfg c 0x20 4 &&& trainMask)
    stgBase := g.cfg c 0x24 4
    stgLen := g.cfg c 0x28 4
    seq := { imem := byteTab 0 (sq.take 32768), dmem := byteTab 0 (sq.drop 32768) }
    queues := (g.recs.filter fun r => r.kind == 0x0002 && r.target == c).foldl (fun t r =>
      Tab.set t {} r.num { cfg := BitVec.ofNat 32 (r.at 0x10 4 &&& queueMask), closed := false }) [] }
  k.clearAccs.resetInCodes

/-! ### Networks, maps and lists -/

/-- A network of an image (14 R354). -/
structure ImgNet where
  /-- network index -/
  idx : Nat
  /-- its section -/
  sec : Sec
  /-- its cores, ascending -/
  cores : List Nat
  deriving DecidableEq, Repr

/-- A field of a NETWORK section. -/
def ImgNet.at (n : ImgNet) (o k : Nat) : Nat := leAt n.sec.body o k

/-- The networks of an image, in ascending index. -/
def Image.nets (g : Image) : List ImgNet :=
  (upTo 16).filterMap fun i => (g.sec? 0x01 i).map fun x =>
    { idx := i, sec := x, cores := (upTo 128).filter fun c => nbit (leAt x.body 0x10 16) c }

/-- The network of a core in the image. -/
def Image.netOf (g : Image) (c : Nat) : Option ImgNet := g.nets.find? fun n => n.cores.contains c

/-- Network index i. -/
def Image.net? (g : Image) (i : Nat) : Option ImgNet := g.nets.find? fun n => n.idx == i

/-- Words of an element map's destination list as (core, row). -/
def destOf (w : Nat) : Nat × Nat := (nfld w 9 0, nfld w 21 10)

/-- The element map of a record (14 R549). -/
def Rec.elemMap (r : Rec) : ElemMap :=
  let ne := r.at 0x10 4
  let no := r.at 0x14 4
  let nd := r.at 0x18 4
  let dests := ((numbers 4 (r.b.drop (0x20 + 4 * ne + 8 * no))).take nd).map destOf
  { elems := ((numbers 4 (r.b.drop 0x20)).take ne).map fun w => (dests.drop (nfld w 23 0)).take (nfld w 27 24 + 1)
    outs := ((numbers 8 (r.b.drop (0x20 + 4 * ne))).take no).map fun w =>
      (nfld w 15 0, (dests.drop (nfld w 39 16)).take (nfld w 43 40 + 1)) }

/-- Element map `num` of an image; the empty map where it declares none. -/
def Image.elemMap (g : Image) (num : Nat) : ElemMap := ((g.rec? 0x0404 num).map Rec.elemMap).getD {}

/-- Outlier list `num` of an image: its indices (14 R550). -/
def Image.outliers (g : Image) (num : Nat) : List Nat :=
  ((g.rec? 0x0501 num).map fun r => (numbers 2 ((r.b.drop 0x18).take 16)).take (r.at 0x10 1)).getD []

/-- Every destination that an element map names. -/
def ElemMap.dests (m : ElemMap) : List (Nat × Nat) := m.elems.flatten ++ m.outs.flatMap Prod.snd

/-- The network index a ring function is bound to. -/
def Image.bound (g : Image) (fn : Nat) : Option Nat := (g.rec? 0x0401 fn).map fun r => r.at 0x10 1

end Sys2Proof.Machine
end

