-- ==== Sys2Proof/Machine/Router.lean ====
section
/-! DEFINITION. Router.lean: the event network (09 R220 to R235): where an item goes, the buffers of the sector
routers, best-effort arbitration, scheduled flits, link protection and the alignment pulse. -/

namespace Sys2Proof.Machine

/-! ### Where an item goes -/

/-- The sector's clock runs: powered, not stopped for a relock (01 R26), not gated (16 R417), no compute-partition reset
in progress (17 R442), and the compute partition not held after a FATAL fault (18 R459). -/
def State.sectorRuns (s : State) (n : Nat) : Bool :=
  (s.sector n).powered && !(s.sector n).stopped && !(s.sector n).gated && !s.fault.fatal && (s.boot.crStep == 0 || s.boot.crStep == 8)

/-- The physical core that carries index i of sector n (01 R18). -/
def SectorSt.phys (q : SectorSt) (i : Nat) : Nat := Tab.get q.mapPhys i i

/-- STATE of index i in the core map: 0 ACTIVE, 1 MIGRATING, 2 UNAVAILABLE. -/
def SectorSt.mstate (q : SectorSt) (i : Nat) : Nat := Tab.get q.mapState 0 i

/-- The port of the core that carries logical core c: 4 + its physical index (09 R226). -/
def State.corePort (s : State) (c : Nat) : Nat :=
  let p := (s.sector (sectorOf c)).phys (indexOf c)
  4 + (if p ≤ 16 then p else indexOf c)

/-- The output port towards sector d from sector n: along the row first, then across (09 R223). -/
def towards (n d : Nat) : Nat := if d % 4 < n % 4 then 0 else if n % 4 < d % 4 then 1 else 2

/-- An event whose core number is unassigned in generation 1 (00 R4). -/
def Item.unroutable : Item → Bool
  | .event e => 128 ≤ evCore e.ev
  | _ => false

/-- The destination sector of an item; a ring-destined event has none. -/
def Item.dest : Item → Option Nat
  | .event e => some (sectorOf (evCore e.ev))
  | .ring _ _ _ _ => none
  | .desc dst _ => some (sectorOf dst)
  | .status core _ _ _ => some (sectorOf core)
  | .sync sector _ => some sector
  | .mark core _ _ => some (sectorOf core)

/-- The output port of router n that an item takes (09 R223, R226). -/
def State.outPort (s : State) (n : Nat) (it : Item) : Nat :=
  match it.dest with
  | none => 3
  | some d =>
    if d = n then
      match it with
      | .event e => s.corePort (evCore e.ev)
      | .sync _ _ => 22
      | _ => 21
    else towards n d

/-- The sector beyond mesh output port 0 west, 1 east, 2 across of sector n. -/
def neighbour (n port : Nat) : Nat := if port = 0 then n - 1 else if port = 1 then n + 1 else (n + 4) % 8

/-- The link of the neighbour at which a flit from mesh output port `port` arrives. -/
def farLink (port : Nat) : Nat := if port = 0 then 1 else if port = 1 then 0 else 2

/-! ### Buffers -/

/-- Input port p of a router. -/
def SectorSt.inPort (q : SectorSt) (p : Nat) : InPort := Tab.get q.inp {} p

/-- Input port p changed. -/
def State.modIn (s : State) (n p : Nat) (f : InPort → InPort) : State :=
  s.modSector n fun q => { q with inp := Tab.set q.inp {} p (f (q.inPort p)) }

/-- Link l of a sector. -/
def SectorSt.link (q : SectorSt) (l : Nat) : LinkSt := Tab.get q.links {} l

/-- Link l of sector n changed. -/
def State.modLink (s : State) (n l : Nat) (f : LinkSt → LinkSt) : State :=
  s.modSector n fun q => { q with links := Tab.set q.links {} l (f (q.link l)) }

/-- The flits of an item (09 R220): a descriptor message, which a STATUS is too (10 R244, R247), has 4, a synchronisation
message 2. -/
def Item.flits : Item → Nat
  | .desc _ _ => 4
  | .status _ _ _ _ => 4
  | .sync _ _ => 2
  | _ => 1

/-- KIND of each flit of an item (09 R221): 0 single-flit item, 1 message head, 2 body, 3 tail. The ECC field beside it is a
code whose matrix the spec does not give: the outcome of its check is an operand of LINK_FLIT_RECEIVE (log 76). -/
def Item.kinds (it : Item) : List Nat :=
  if it.flits = 1 then [0] else 1 :: List.replicate (it.flits - 2) 2 ++ [3]

/-- Flits held in a list of items. -/
def flitsOf (l : List Item) : Nat := (l.map Item.flits).sum

/-- Input port p of router n takes one more best-effort item. -/
def State.roomAt (s : State) (n p : Nat) (it : Item) : Bool := flitsOf ((s.sector n).inPort p).be + it.flits ≤ 32

/-- An item put into the best-effort buffer of input port p. -/
def State.offer (s : State) (n p : Nat) (it : Item) : State := s.modIn n p fun i => { i with be := i.be ++ [it] }

/-- A flit of the scheduled class (09 R221). -/
def Item.isSched : Item → Bool
  | .event e => e.sched
  | _ => false

/-- What the buffer behind link l of a sector holds: an input port's best-effort buffer, or for link 4 what the ring has
received. -/
def SectorSt.behind (q : SectorSt) (l : Nat) : List Item := if l = 4 then q.toRing else (q.inPort l).be

/-- Link l of sector n takes one more best-effort item: its receive buffer has room for those in flight and this, and it has
not stopped (R226, R235). -/
def State.linkRoom (s : State) (n l : Nat) (it : Item) : Bool :=
  let q := s.sector n
  !(q.link l).stopped
    && decide (flitsOf (q.behind l ++ (q.link l).inFlight.filter (!·.isSched)) + it.flits ≤ 32)

/-- Link l of sector n takes one more scheduled flit: its scheduled buffer of 8 has room (R226). -/
def State.schedRoom (s : State) (n l : Nat) : Bool :=
  let q := s.sector n
  !(q.link l).stopped
    && decide ((q.inPort l).sched.length + ((q.link l).inFlight.filter Item.isSched).length < 8)

/-- The engine of sector n may hand over more: its last message is within the buffer of port 21, whose further items wait in
the stalled engine (R226). -/
def State.engFree (s : State) (n : Nat) : Bool := flitsOf ((s.sector n).inPort 21).be ≤ 32

/-- An item put on link l towards sector n. -/
def State.onLink (s : State) (n l : Nat) (it : Item) : State :=
  s.modLink n l fun k => { k with inFlight := k.inFlight ++ [it] }

/-- An item injected by the ring into the sector of its destination, through that sector's ring port (09 R223). While the
port is full it waits at the ring, behind the items in flight (01 R31). -/
def State.inject (s : State) (n : Nat) (it : Item) : State := s.onLink n 3 it

/-! ### Best-effort arbitration (09 R233) -/

/-- The generator of output `port` of router n. -/
def lfsrOf (n port : Nat) (o : OutPort) : Nat := ((o.lfsr.map BitVec.toNat).getD (0x8000 + 16 * n + port)) % 65536

/-- One step of the generator. -/
def lfsrStep (x : Nat) : Nat := (x * 2 + b2n (nbit x 15 ^^ nbit x 13 ^^ nbit x 12 ^^ nbit x 10)) % 65536

/-- The requesting input that an output grants: the first overdue one, else the (s mod m + 1)-th. -/
def arbiter (sd : Nat) (waits : Tab Nat) (req : List Nat) : Nat :=
  match req.find? fun p => 24 ≤ Tab.get waits 0 p with
  | some p => p
  | none => req.getD (sd % req.length) 0

/-- The grant counts after a grant: others that requested advance, every other count returns to 0. -/
def waitsAfter (waits : Tab Nat) (req : List Nat) (won : Nat) : Tab Nat :=
  (req.filter (· != won)).map fun p => (p, Tab.get waits 0 p + 1)

/-- The input ports of router n whose oldest best-effort item waits for output `port`. -/
def State.requests (s : State) (n port : Nat) : List Nat :=
  (upTo 23).filter fun p =>
    match ((s.sector n).inPort p).be with
    | [] => false
    | it :: _ => s.outPort n it == port

/-- The oldest best-effort item of input port p taken out. -/
def State.dropHead (s : State) (n p : Nat) : State := s.modIn n p fun i => { i with be := i.be.tail }

/-- The events granted to core ports with one more: a scheduled one goes ahead of every best-effort one (R229). -/
def toCoreAdd (l : List Item) (it : Item) : List Item :=
  if it.isSched then l.filter Item.isSched ++ [it] ++ l.filter (!·.isSched) else l ++ [it]

/-- An item leaves router n through output `port`: onto a mesh link or the ring port, or to a core port, the descriptor
engine or the synchronisation unit. -/
def State.leave (s : State) (n port : Nat) (it : Item) : State :=
  if port < 3 then s.onLink (neighbour n port) (farLink port) it
  else if port = 3 then s.onLink n 4 it
  else s.modSector n fun q =>
    if port = 21 then { q with toDesc := q.toDesc ++ [it] }
    else if port = 22 then { q with toSync := q.toSync ++ [it] }
    else { q with toCore := toCoreAdd q.toCore it }

/-- Output `port` of router n takes the best-effort item: a mesh link has room and its far sector's clock runs (01 R26), or
the ring port has room (01 R31). -/
def State.outReady (s : State) (n port : Nat) (it : Item) : Bool :=
  if port < 3 then s.sectorRuns (neighbour n port) && s.linkRoom (neighbour n port) (farLink port) it
  else if port = 3 then s.linkRoom n 4 it
  else true

/-- Input ports whose oldest item is an event with an unassigned core number. -/
def State.unroutableAt (s : State) (n : Nat) : List Nat :=
  (upTo 23).filter fun p => (((s.sector n).inPort p).be.head?).any Item.unroutable

/-- ROUTER_FORWARD: an unroutable event at the head of an input buffer is dropped and counted (R225); otherwise output
`out` grants one of its requests. -/
def execRouterForward (sector : SectorId) (out : Fin 23) (s : State) : Res :=
  .next <|
    let n := sector.val
    if !s.sectorRuns n then s
    else match s.unroutableAt n with
    | p :: _ =>
      let s' := (s.dropHead n p).dropRouter n Ctr.dropUnroutable
      match ((s.sector n).inPort p).be with
      | .event e :: _ => s'.evDone e
      | _ => s'
    | [] =>
      let req := s.requests n out.val
      if req.isEmpty then s
      else
        let o := Tab.get (s.sector n).outp {} out.val
        let sd := lfsrOf n out.val o
        let won := arbiter sd o.waits req
        match ((s.sector n).inPort won).be with
        | [] => s
        | it :: _ =>
          if !s.outReady n out.val it then s
          else
            let s := s.dropHead n won
            let s := s.modSector n fun q =>
              { q with outp := Tab.set q.outp {} out.val
                        { lfsr := some (BitVec.ofNat 16 (lfsrStep sd)), waits := waitsAfter o.waits req won } }
            s.leave n out.val it

/-! ### Scheduled class (09 R227 to R232) -/

/-- The slots of the entries of router n for the stream from index i to core d (R227). -/
def schedSlots (q : SectorSt) (i d : Nat) : List (Nat × Nat) :=
  (upTo 256).filterMap fun e =>
    let w := (Tab.get q.schedTab 0 e).toNat
    if nbit w 31 && nfld w 30 27 == i && nfld w 26 17 == d then some (nfld w 16 11, nfld w 10 9) else none

/-- An event from core c travels scheduled: its source and destination match a valid entry of the source router (R228). -/
def State.isSched (s : State) (c : Nat) (e : Word64) : Bool :=
  !(schedSlots (s.sector (sectorOf c)) (indexOf c) (evCore e)).isEmpty

/-- Sector frequency of an operating point in MHz (16 R409). -/
def opMHz (op : Nat) : Nat := if op = 0 then 1400 else if op = 1 then 1200 else if op = 2 then 1000 else 700

/-- Sector cycles since the last alignment pulse; the frame counter is this count modulo 64 (R231; log 45). -/
def SectorSt.cycles (q : SectorSt) (now : Nat) : Nat := (now - q.pulseAt) * opMHz q.op / 1000

/-- The frame counter of a sector router (R231). -/
def SectorSt.frame (q : SectorSt) (now : Nat) : Nat := q.cycles now % 64

/-- The first owned slot at or after cycle f: its cycle and its lane. -/
def nextSlot (f : Nat) (slots : List (Nat × Nat)) : Nat × Nat :=
  slots.foldl (fun best x =>
    let d := f + (x.1 + 64 - f % 64) % 64
    if d < best.1 then (d, x.2) else best) (f + 64, 0)

/-- Two events of one stream: the same source sector and index, the same destination core. -/
def sameStream (a b : Word64) : Bool := fld a 10 2 == fld b 10 2 && evCore a == evCore b

/-- The cycle and lane of event e of core c as it enters scheduled buffer p of router n (R228): the first owned slot at least 6
cycles on and after those of earlier events of its stream. -/
def State.dueOf (s : State) (c p : Nat) (e : EvItem) : Nat × Nat :=
  let q := s.sector (sectorOf c)
  let earlier := ((q.inPort p).sched.filter fun x => sameStream x.ev e.ev).map fun x => x.due + 1
  nextSlot (earlier.foldl max (q.cycles s.now + 6)) (schedSlots q (indexOf c) (evCore e.ev))

/-- The event of a scheduled buffer whose cycle comes first. -/
def firstDue : List EvItem → Option EvItem
  | [] => none
  | e :: t => match firstDue t with
    | some x => some (if x.due < e.due then x else e)
    | none => some e

/-- Lane `l` of output `out` in cycle `at_` is due to another scheduled flit that waits in router n. -/
def State.laneDue (s : State) (n out at_ l : Nat) (e : EvItem) : Bool :=
  ((s.sector n).inp.flatMap fun x => x.2.sched).any fun x =>
    x != e && x.due == at_ && x.lane == l && s.outPort n (.event x) == out

/-- The lane in which a scheduled flit takes a mesh output: its own, or where another flit holds that in this cycle the next
one that no scheduled flit holds or is due in (R232). -/
def State.laneOf (s : State) (n out : Nat) (e : EvItem) : Nat :=
  let held := (Tab.get (s.sector n).outp {} out).lanes
  if !held.contains (e.due, e.lane) then e.lane
  else
    let free (l : Nat) : Bool := !held.contains (e.due, l) && !s.laneDue n out e.due l e
    ((([1, 2, 3] : List Nat).map fun d => (e.lane + d) % 4).find? free).getD ((e.lane + 1) % 4)

/-- Output `out` of router n takes a scheduled flit: the far scheduled buffer of a mesh link has room and the far sector's
clock runs. Best-effort traffic never holds it (R229). -/
def State.schedReady (s : State) (n out : Nat) : Bool :=
  if out < 3 then s.sectorRuns (neighbour n out) && s.schedRoom (neighbour n out) (farLink out) else true

/-- A scheduled flit crosses mesh output `out` in lane l, which is recorded; a lane other than its own is a slip. -/
def State.slipTo (s : State) (n out : Nat) (e : EvItem) (l : Nat) : State :=
  let s := s.modSector n fun q =>
    let o := Tab.get q.outp {} out
    { q with outp := Tab.set q.outp {} out { o with lanes := ((e.due, l) :: o.lanes).take 128 } }
  if l = e.lane then s
  else (s.countSec n Ctr.schedSlip).modSector n fun q => { q with netEvents := nsetBit q.netEvents 3 }

/-- SCHEDULED_FLIT_SEND: of the scheduled events of input `port` the one whose cycle comes first crosses its next link, or
enters its core port, once that cycle has come; one with an unassigned core number is dropped and counted (R225). -/
def execScheduledFlitSend (sector : SectorId) (port : Fin 23) (s : State) : Res :=
  .next <|
    let n := sector.val
    let q := s.sector n
    let l := (q.inPort port.val).sched
    let without (e : EvItem) : State := s.modIn n port.val fun i => { i with sched := i.sched.erase e }
    if !s.sectorRuns n then s
    else match l.find? fun e => Item.unroutable (.event e) with
    | some e => ((without e).dropRouter n Ctr.dropUnroutable).evDone e
    | none =>
      match firstDue l with
      | none => s
      | some e =>
        let out := s.outPort n (.event e)
        if q.cycles s.now < e.due || !s.schedReady n out then s
        else
          let t := if out < 3 then (without e).slipTo n out e (s.laneOf n out e) else without e
          t.leave n out (.event e)

/-- The scheduled flits of a sector with their cycles counted from a pulse that comes `d` cycles after the last. -/
def SectorSt.rebase (q : SectorSt) (d : Nat) : SectorSt :=
  let f (e : EvItem) : EvItem := if e.sched then { e with due := e.due - d } else e
  let g (it : Item) : Item := match it with | .event e => .event (f e) | x => x
  { q with
    inp := q.inp.map fun x => (x.1, { x.2 with sched := x.2.sched.map f })
    links := q.links.map fun x => (x.1, { x.2 with inFlight := x.2.inFlight.map g })
    outp := (q.outp.map fun x => (x.1, { x.2 with lanes := [] })).filter fun x => x.2 != {} }

/-- The alignment pulse (R231): every frame counter is 0 and ALIGNED is set. -/
def State.alignPulse (s : State) : State :=
  (upTo 8).foldl (fun s n => s.modSector n fun q => { q.rebase (q.cycles s.now) with pulseAt := s.now, aligned := true }) s

/-- ALIGNMENT_PULSE: every frame counter is set to 0 in the same cycle (R231). -/
def execAlignmentPulse (s : State) : Res := .next s.alignPulse

/-! ### Link protection (09 R235) -/

/-- A flit of link l enters the buffer behind it: a scheduled one is due 4 cycles after the hop it has made (R229). -/
def State.flitIn (s : State) (n l : Nat) (it : Item) : State :=
  if l = 4 then s.modSector n fun q => { q with toRing := q.toRing ++ [it] }
  else match it with
  | .event e => if e.sched then s.modIn n l fun i => { i with sched := i.sched ++ [{ e with due := e.due + 4 }] } else s.offer n l it
  | _ => s.offer n l it

/-- The buffer behind link l of sector n has room for the item. -/
def State.flitRoom (s : State) (n l : Nat) (it : Item) : Bool :=
  if it.isSched then decide (((s.sector n).inPort l).sched.length < 8) else decide (flitsOf ((s.sector n).behind l) + it.flits ≤ 32)

/-- LINK_FLIT_RECEIVE: the oldest flit in flight on link l of a sector (0 to 2 mesh, 3 and 4 the ring port inward and outward)
is checked and enters its buffer; an uncorrectable one stays with its sender and a replay is requested. -/
def execLinkFlitReceive (sector : SectorId) (link : Fin 5) (ecc : EccResult) (s : State) : Res :=
  .next <|
    let n := sector.val
    let l := link.val
    let k := (s.sector n).link l
    match k.inFlight with
    | [] => s
    | it :: rest =>
      if k.stopped || k.replay || !s.sectorRuns n then s
      else match ecc with
      | .uncorrectable => s.modLink n l fun k => { k with replay := true, fails := k.fails + 1 }
      | .tagMismatch => s.modLink n l fun k => { k with replay := true, fails := k.fails + 1 }
      | _ =>
        if !s.flitRoom n l it then s
        else
          let s := s.modLink n l fun k => { k with inFlight := rest, fails := 0 }
          (if ecc = .corrected then s.countSec n Ctr.linkEccCorr (min l 3) else s).flitIn n l it

/-- A flit that a replay delays by 12 cycles (R235). -/
def Item.replayed : Item → Item
  | .event e => .event (if e.sched then { e with due := e.due + 12 } else e)
  | x => x

/-- LINK_REPLAY: the sender resends from the failed link cycle; at the third failure of one cycle the link stops. -/
def execLinkReplay (sector : SectorId) (link : Fin 5) (s : State) : Res :=
  .next <|
    let n := sector.val
    let l := link.val
    let k := (s.sector n).link l
    if !k.replay then s
    else if 3 ≤ k.fails then
      (s.modLink n l fun k => { k with replay := false, stopped := true }).modSector n fun q =>
        { q with netEvents := nsetBit q.netEvents 1 }
    else
      ((s.modLink n l fun k => { k with replay := false, inFlight := k.inFlight.map Item.replayed }).countSec n
        Ctr.linkReplay (min l 3)).modSector n fun q => { q with netEvents := nsetBit q.netEvents 2 }

end Sys2Proof.Machine
end

