-- ==== Sys2Proof/Machine/Pipeline.lean ====
section
/-! DEFINITION. Pipeline.lean: the delivery pipeline of an event core (03 R64 to R75, 05 R124, R131): the receive-queue
write, the pop and row lookup, the delay ring, and the fetch beats that accumulate. -/

namespace Sys2Proof.Machine

/-! ### The core's step -/

/-- The network of a core: its slot, where it has one. -/
def CoreSt.slot (k : CoreSt) : Option Nat := if k.net = 0 then none else some (k.net - 1)

/-- The network slot record of core c. -/
def State.netOf (s : State) (c : Nat) : NetSt := if (s.core c).net = 0 then {} else s.net ((s.core c).net - 1)

/-- Current step c of R124: the step whose cutoff is the next to come at core c; on a network that does not run, the step that its
next opening opens. -/
def State.cutStep (s : State) (c : Nat) : Nat :=
  let k := s.core c
  if k.phase = 0 then (s.netOf c).step + 1
  else if k.phase = 1 || (k.phase = 2 && k.fireOf < k.step) then k.step else k.step + 1

/-- The step that the delivery pipeline works in: FIRE n begins once the events of step n past the receive stage have completed,
also where step n + 1 has opened meanwhile (R125 item 1, R129). -/
def CoreSt.pipeStep (k : CoreSt) : Nat := if k.phase = 2 then k.fireOf else k.step

/-- Step n is a delta refresh step of the network (05 R131). -/
def NetSt.refreshStep (n : NetSt) (step : Nat) : Bool := n.refreshQ != 0 && step % n.refreshQ == 0 && step != 0

/-- The step of the network is a backward step (07 R169). -/
def NetSt.backward (n : NetSt) : Bool := n.fwd != 0 && n.fwd ≤ n.pos

/-- The core's engines are halted or stopping (20 R494). -/
def CoreSt.halted (k : CoreSt) : Bool := k.engHalted || k.haltPending

/-! ### Receive-queue write (03 R65, 05 R124, 01 R21, R22) -/

/-- Events of a list that are not token expansion events: these may use only the unreserved part of a queue (08 R207). -/
def plainEvents (l : List EvItem) : Nat := (l.filter fun e => !e.token).length

/-- An event is written into core c's receive queue, or dropped: shed (18 R464), late or malformed against its tag
(05 R124), or finding the queue full (03 R65). -/
def State.rqWrite (s : State) (c : Nat) (e : EvItem) : State :=
  let k := s.core c
  let n := s.netOf c
  if n.shed then (s.dropCore c Ctr.dropShed e.ev.toNat).evDone e
  else
    let d := (e.tag + 4 - s.cutStep c % 4) % 4
    if k.net ≠ 0 && 2 ≤ d then
      let s := s.modCore c fun k => { k with popped := Tab.set k.popped 0 e.tag (Tab.get k.popped 0 e.tag + 1) }
      let s := (s.countCore c Ctr.lateArrival).dropCore c Ctr.stepLateDrop e.ev.toNat
      (s.raiseNet (k.net - 1) 4).evDone e
    else if !e.token && 4096 ≤ plainEvents k.rq + k.credit then (s.dropCore c Ctr.dropQueue e.ev.toNat).evDone e
    else
      let s := s.setCore c { k with rq := k.rq ++ [e] }
      s.level c Ctr.rqHwm (k.rq.length + 1)

/-- An event reaches its destination router: dropped for an UNAVAILABLE core, held in the migration buffer for a
MIGRATING one, else written into the receive queue. -/
def State.deliver (s : State) (n : Nat) (e : EvItem) : State :=
  let c := evCore e.ev
  let q := s.sector n
  match q.mstate (indexOf c) with
  | 2 => (s.dropRouter n Ctr.dropFenced).evDone e
  | 1 =>
    if !e.token && 4096 ≤ plainEvents q.migBuf + (s.core c).credit then
      (s.dropCore c Ctr.dropQueue e.ev.toNat).evDone e
    else
      -- its 64-bit word lies in bank 1, its sideband in the router (09 R236)
      s.setSector n { q with
        migBuf := q.migBuf ++ [e], mem := memWrite q.mem (0x20000 + 8 * q.migBuf.length) (toLe 8 e.ev.toNat)
        poison := Tab.erase q.poison (0x4000 + q.migBuf.length) }
  | _ => s.rqWrite c e

/-- The events held in the migration buffer: words from bank 1, sidebands from the router (09 R236). -/
def SectorSt.migHeld (q : SectorSt) : List EvItem :=
  q.migBuf.zipIdx.map fun x => { x.1 with ev := BitVec.ofNat 64 (memNat q.mem (0x20000 + 8 * x.2) 8) }

/-- RECEIVE_QUEUE_WRITE: the oldest event granted to a core port of the sector is written. -/
def execReceiveQueueWrite (sector : SectorId) (s : State) : Res :=
  .next <|
    let n := sector.val
    match (s.sector n).toCore with
    | [] => s
    | it :: rest =>
      if !s.sectorRuns n then s
      else
        let s := s.modSector n fun q => { q with toCore := rest }
        match it with
        | .event e => s.deliver n e
        | _ => s

/-! ### Row lookup and the delay ring (03 R64, R68 to R70) -/

/-- Entries in the delay ring. -/
def CoreSt.delayed (k : CoreSt) : Nat := (k.delay.map fun e => e.2.length).sum

/-- The row marked in the touched-row bitmap of the current step (06 R151). -/
def CoreSt.touchRow (k : CoreSt) (i : Nat) : CoreSt :=
  { k with touchedRow := Tab.set k.touchedRow false (k.pipeStep % 2 * 4096 + i) true }

/-- Row lookup of the event p of core c (SPIKE, GRADED or MODULATOR): answers the event when it proceeds to fetch or
waits in row lookup, none when it is consumed or goes to the delay ring. -/
def State.lookupRow (s : State) (c : Nat) (p : InPipe) : State × Option InPipe :=
  let k := s.core c
  let e := p.item.ev
  let i := evRow e
  if k.nRows ≤ i || !k.rEnable i || (evOutlier e != k.rOutlier i) then (s.countCore c Ctr.rowDisabled, none)
  else if k.rDlEn i && k.rPending i then (s.countCore c Ctr.lookupUpdStall, some p)
  else
    let d0 := evDelay e + k.rDelay i
    let s := if !p.released && 63 < d0 then s.countCore c Ctr.delayClamp else s
    let d := if p.released then 0 else min d0 63
    if d = 0 then (s.modCore c fun k => k.touchRow i, some { p with looked := true })
    else if 32768 ≤ k.delayed then
      ((s.countCore c Ctr.delayRingFull).modCore c fun k => k.touchRow i, some { p with looked := true })
    else
      let slot := (k.pipeStep + d) % 64
      (s.modCore c fun k => { k with delay := Tab.set k.delay [] slot (Tab.get k.delay [] slot ++ [p.item]) }, none)

/-- Row lookup of an ERROR event: it never enters the delay ring (07 R178). -/
def State.lookupErr (s : State) (c : Nat) (p : InPipe) : State × Option InPipe :=
  let k := s.core c
  let e := p.item.ev
  if evDelay e ≠ 0 || !k.tEn (evRow e) then (s.countCore c Ctr.rowDisabled, none)
  else (s, some { p with looked := true })

/-- The marking of core c changed by a PENNANT (20 R502): 0 layer, 1 operator, 2 closes. -/
def State.pennant (s : State) (c kind id : Nat) : State :=
  let s := s.modCore c fun k =>
    if kind = 0 then { k with layer := id } else if kind = 1 then { k with oper := id }
    else if kind = 2 then { k with layer := 0xFFFF, oper := 0xFFFF } else k
  if kind < 3 then s.traceCore c 26 5 kind id else s

/-- A SYNC event handed to the sector's synchronisation unit (03 R63, 10 R261). -/
def syncOfEvent (e : Word64) : SyncReq :=
  { path := 0, op := fld e 29 28 + 1, obj := b2n (nbit e.toNat 0) * 4096 + evRow e, operand := fld e 27 14, core := evCore e }

/-- An event that has left the receive queue or the delay slot: SYNC and PENNANT leave here; others go to row lookup. -/
def State.received (s : State) (c : Nat) (p : InPipe) : State :=
  let e := p.item.ev
  let back := (s.netOf c).backward
  if evFmt e ≠ 0 || 2 ≤ evPfmt e then s.dropCore c Ctr.dropFormat e.toNat
  else match evType e with
  | 5 => s.modSector (sectorOf c) fun q => { q with toSync := q.toSync ++ [.sync (sectorOf c) (syncOfEvent e)] }
  | 6 => s.pennant c (evTs e) (evPayload e)
  | 4 =>
    if !back then s.countCore c Ctr.errDiscard
    else
      let r := s.lookupErr c p
      r.1.modCore c fun k => { k with lookup := r.2 }
  | 1 | 2 | 3 =>
    if back then s.countCore c Ctr.errDiscard
    else
      let r := s.lookupRow c p
      r.1.modCore c fun k => { k with lookup := r.2 }
  | _ => s.countCore c Ctr.typeIgnored

/-- The receive stage may act: DELIVER, not halted, row lookup free, clock running. -/
def State.canPop (s : State) (c : Nat) : Bool :=
  let k := s.core c
  s.sectorRuns (sectorOf c) && k.phase == 1 && !k.halted && k.lookup.isNone && k.seeds.isEmpty
    && (s.sector (sectorOf c)).mstate (indexOf c) == 0

/-- EVENT_POP: the head of the receive queue is popped when it is tagged for the current step and the open delay slot
is empty (03 R69, R71; 05 R124). -/
def execEventPop (core : CoreId) (s : State) : Res :=
  .next <|
    let c := core.val
    let k := s.core c
    match k.rq with
    | [] => s
    | e :: rest =>
      if !s.canPop c || e.tag ≠ k.step % 4 || !(Tab.get k.delay [] (k.step % 64)).isEmpty then s
      else
        let s := s.setCore c { k with rq := rest, popped := Tab.set k.popped 0 e.tag (Tab.get k.popped 0 e.tag + 1) }
        let s := (s.pmcEvent c 0x305 1).evDone e
        let t := s.traceSampled c 30 1 (evRow e.ev) e.ev.toNat k.popSkip
        let s := t.2.modCore c fun k => { k with popSkip := t.1 }
        s.received c { item := e }

/-- DELAY_SLOT_RELEASE: the oldest event of slot n mod 64 goes to row lookup, ahead of the receive queue (R69). -/
def execDelaySlotRelease (core : CoreId) (s : State) : Res :=
  .next <|
    let c := core.val
    let k := s.core c
    let slot := k.step % 64
    match Tab.get k.delay [] slot with
    | [] => s
    | e :: rest =>
      if !s.canPop c then s
      else (s.setCore c { k with delay := Tab.set k.delay [] slot rest }).received c { item := e, released := true }

/-! ### Fetch beats (03 R71 to R75) -/

/-- The columns of a fetch beat: 512 at most, of a segment of len columns from `start`. -/
def beatCols (start len beat : Nat) : List Nat := (upTo (min 512 (len - 512 * beat))).map fun x => start + 512 * beat + x

/-- One product of the beat accumulated: column j of row i for event e with factor q, in step n. `keep` is false where
R131 keeps products out of persistent columns. Answers the core and how many sums met the 56-bit bound. -/
def accColumn (i n : Nat) (q : Int) (keep : Bool) (r : CoreSt × Nat) (j : Nat) : CoreSt × Nat :=
  let k := r.1
  if !keep && k.cPersist j then r
  else
    let w := k.synWord (k.synAddr i j)
    let d := synDelay k.mode w
    let t := k.accTerm (accIndex k.mode n j d) j (weightOf k.mode w * q * 2 ^ k.cExp j)
    let k := if d = 0 then { t.1 with touched := Tab.set t.1.touched false j true }
             else { t.1 with wake := Tab.set t.1.wake false ((n + d) % 64 * 16384 + j) true }
    (k, r.2 + b2n t.2)

/-- One product of a MODULATOR beat (06 R145): a sum that would leave 48 bits stops and counts. -/
def modColumn (i n ch : Nat) (q : Int) (r : CoreSt × Nat) (j : Nat) : CoreSt × Nat :=
  let k := r.1
  if !k.cModEn j || k.cRxCh j != ch then r
  else
    let a := n % 2 * 16384 + j
    let v := Tab.get k.modBank 0 a + k.weight i j * q
    let x := a48 v
    ({ k with modBank := Tab.set k.modBank 0 a x.1 }, r.2 + b2n x.2)

/-- The beats of an ERROR event's transposed read of column c, the gate column of a GLU pair included (07 R179). -/
def CoreSt.errBeats (k : CoreSt) (c : Nat) : Nat :=
  (k.tRows c + 127) / 128 + (if k.cModel c = 5 && k.tEn (c + 1) then (k.tRows (c + 1) + 127) / 128 else 0)

/-- The transposed read of column c with derivative code D and payload q (07 R178): the core, and the counts of ERR_SAT
and ERR_GUARD_OVF, of transposed reads and of their rows. -/
def CoreSt.errColumn (k : CoreSt) (c : Nat) (d q : Int) : CoreSt × Nat × Nat × Nat × Nat :=
  let p := d * q
  let dc0 : Int := if p < 0 then -(rneDiv p.natAbs 16384 : Int) else (rneDiv p.natAbs 16384 : Int)
  let dc := clampI (-32767) 32767 dc0
  let s1 := b2n (dc != dc0)
  if dc = 0 then (k, s1, 0, 0, 0)
  else
    let v := Tab.get k.dsum 0 c + dc
    let v' := clampI (-(2 ^ 31)) (2 ^ 31 - 1) v
    let k := { k with dsum := Tab.set k.dsum 0 c v' }
    let r := (upTo (k.tRows c)).foldl (fun (r : CoreSt × Nat) x =>
      let i := k.tStart c + x
      let a := accAdd (Tab.get r.1.eps 0 i) (k.weight i c * dc * 2 ^ k.cExp c)
      ({ r.1 with eps := Tab.set r.1.eps 0 i a.1 }, r.2 + b2n a.2)) (k, 0)
    (r.1, s1 + b2n (v' != v), r.2, 1, k.tRows c)

/-- A whole transposed read for an ERROR event or seed to column c (07 R178, R179), D taken from `deriv`. -/
def State.errDeliver (s : State) (core c : Nat) (q : Int) : State :=
  let k := s.core core
  let r := k.errColumn c (Tab.get k.deriv 0 c) q
  let g := if k.cModel c = 5 && c % 2 = 0 && k.tEn (c + 1) then r.1.errColumn (c + 1) (Tab.get k.deriv 0 (c + 1)) q
           else (r.1, 0, 0, 0, 0)
  let s := s.setCore core g.1
  let s := s.countCore core Ctr.errSat (r.2.1 + g.2.1)
  let s := s.countCore core Ctr.errGuardOvf (r.2.2.1 + g.2.2.1)
  let s := s.countCore core Ctr.errEvents (max r.2.2.2.1 g.2.2.2.1)
  let rows := r.2.2.2.2 + g.2.2.2.2
  (s.countCore core Ctr.errSopCount rows).countCore core Ctr.synRdBytes (2 * rows)

/-- Rows that the fetch of event e would read: its row, or the rows of its transposed segments. -/
def CoreSt.fetchRows (k : CoreSt) (e : Word64) : List Nat :=
  if evType e = 4 then
    let c := evRow e
    (upTo (k.tRows c)).map (k.tStart c + ·)
      ++ (if k.cModel c = 5 && c % 2 = 0 && k.tEn (c + 1) then (upTo (k.tRows (c + 1))).map (k.tStart (c + 1) + ·) else [])
  else [evRow e]

/-- The last beat of an event to row i of C columns has accumulated: delivered and SOP counts, IN_CODE (06 R160), the
input sum of the activation log (07 R175) and DELTA_SUPERSEDED (05 R131). -/
def State.delivered (s : State) (c i : Nat) (e : Word64) (keep : Bool) : State :=
  let k := s.core c
  let s := (s.countCore c Ctr.eventsDelivered).countCore c Ctr.sopCount (k.rLen i)
  let superseded := !keep && (upTo (k.rLen i)).any fun x => k.cPersist (k.rStart i + x)
  let s := if superseded then s.countCore c Ctr.deltaSuperseded else s
  if evType e = 3 then s
  else s.modCore c fun k =>
    let k := if k.rTrack i && keep then k.putRow i 4 (nput (k.rowWord i 4) 31 16 (toField 16 (k.rInCode i + evQ e))) else k
    if nbit k.trainCfg.toNat 23 then
      { k with xsum := Tab.set k.xsum 0 i (Tab.get k.xsum 0 i + evQ e - k.cZp (k.rStart i)) } else k

/-- One beat of a SPIKE, GRADED or MODULATOR event. -/
def State.beat (s : State) (c : Nat) (p : InPipe) : State :=
  let k := s.core c
  let e := p.item.ev
  let i := evRow e
  let cols := beatCols (k.rStart i) (k.rLen i) p.beat
  let s := s.countCore c Ctr.synRdBytes (fetchBytes k.mode (k.rBase i + 512 * p.beat) cols.length)
  let keep := !((s.netOf c).refreshStep k.pipeStep) || p.item.refresh || evRing e
  let s :=
    if evType e = 3 then
      let r := cols.foldl (modColumn i k.pipeStep (evTs e) (evQ e)) (s.core c, 0)
      (s.setCore c r.1).countCore c Ctr.modSat r.2
    else
      let r := cols.foldl (accColumn i k.pipeStep (evQ e) keep) (s.core c, 0)
      (s.setCore c r.1).guardOvf c r.2
  if (p.beat + 1) * 512 < k.rLen i then s.modCore c fun k => { k with fetch := some { p with beat := p.beat + 1 } }
  else (s.modCore c fun k => { k with fetch := none }).delivered c i e (keep || evType e == 3)

/-- The next seed of a backward step, handled as an ERROR event to its column before the first pop (07 R173). -/
def State.seedBeat (s : State) (c : Nat) : State :=
  let k := s.core c
  match k.seeds with
  | [] => s
  | (j, q) :: rest =>
    let e := mkEvent 4 c j 0 0 false 1 0 false 0 0
    if !k.tEn j then (s.setCore c { k with seeds := rest }).countCore c Ctr.rowDisabled
    else if (k.fetchRows e).any k.rPending then s.countCore c Ctr.fetchUpdStall
    else (s.setCore c { k with seeds := rest }).errDeliver c j q

/-- FETCH_BEAT: the event in row lookup completes its lookup or moves to the free fetch port, and the event that holds
the port makes one beat; it stalls while a row it reads is update-pending (R73). -/
def execFetchBeat (core : CoreId) (s : State) : Res :=
  .next <|
    let c := core.val
    if !s.sectorRuns (sectorOf c) then s
    else
      -- a stalled lookup (06 R154) tries again
      let s := match (s.core c).lookup with
        | some p => if p.looked then s else
            let r := s.lookupRow c p
            r.1.modCore c fun k => { k with lookup := r.2 }
        | none => s
      -- row lookup hands its occupant to a free fetch port
      let s := match (s.core c).fetch, (s.core c).lookup with
        | none, some p => if p.looked then s.modCore c fun k => { k with fetch := some p, lookup := none } else s
        | _, _ => s
      match (s.core c).fetch with
      | none => s.seedBeat c
      | some p =>
        let k := s.core c
        let e := p.item.ev
        if (k.fetchRows e).any k.rPending then s.countCore c Ctr.fetchUpdStall
        else
          let s := s.pmcEvent c 0x301 1
          if evType e = 4 then
            if p.beat + 1 < k.errBeats (evRow e) then s.modCore c fun k => { k with fetch := some { p with beat := p.beat + 1 } }
            else (s.modCore c fun k => { k with fetch := none }).errDeliver c (evRow e) (evQ e)
          else s.beat c p

end Sys2Proof.Machine
end

