-- ==== Sys2Proof/Machine/Learn.lean ====
section
/-! DEFINITION. Learn.lean: on-chip plasticity (06): the LEARN phase, traces, rule programs, the write-back of a row,
renormalisation and delay learning. A row of the weight phase retires whole (R153). -/

namespace Sys2Proof.Machine

/-! ### Arithmetic -/

/-- rne(v / 2^s) on integers. -/
def rneShift (v : Int) (s : Nat) : Int :=
  let q := rneDiv v.natAbs (2 ^ s)
  if v < 0 then -(q : Int) else (q : Int)

/-- sat32 of R158: the value, and whether it clamped. -/
def sat32 (v : Int) : Int × Bool :=
  (clampI (-(2 ^ 31)) (2 ^ 31 - 1) v, decide (v < -(2 ^ 31) ∨ 2 ^ 31 - 1 < v))

/-- The decay factor of R147 by repeated squaring, `fuel` bits. -/
def traceDecayLoop : Nat → Nat → Nat → Nat → Nat
  | 0, d, _, _ => d
  | fuel + 1, d, b, delta =>
    if delta = 0 then d
    else traceDecayLoop fuel (if delta % 2 = 1 then d * b / 65536 else d) (b * b / 65536) (delta / 2)

/-- D of R147 for a LAMBDA code and delta elapsed steps. -/
def traceDecay (lam delta : Nat) : Nat := traceDecayLoop 33 65536 lam delta

/-- LAMBDA of a trace parameter set (R141). -/
def CoreSt.tsLambda (k : CoreSt) (t : Nat) : Nat := fld (Tab.get k.traceSets 0 t) 15 0
/-- INC of a trace parameter set. -/
def CoreSt.tsInc (k : CoreSt) (t : Nat) : Nat := fld (Tab.get k.traceSets 0 t) 23 16

/-- Elapsed steps of a trace, modulo 2^32 (R147). -/
def traceDelta (n last : Nat) : Nat := (n + 2 ^ 32 - last % 2 ^ 32) % 2 ^ 32

/-! ### The trace phase (R148 to R150) -/

/-- A trace written: the value, with one draw; `p.2` counts TRACE_SAT. -/
def CoreSt.newTrace (k : CoreSt) (set trace last inc n : Nat) : CoreSt × Nat × Bool :=
  let x := trace * traceDecay (k.tsLambda set) (traceDelta n last) + inc * 65536
  let g := rngNext k.rng
  let r := traceRound x (rngDraw g)
  ({ k with rng := g }, r.1, r.2)

/-- PRE_TRACE of row i written in step n with increment inc (R148). -/
def CoreSt.writePre (n : Nat) (r : CoreSt × Nat) (x : Nat × Nat) : CoreSt × Nat :=
  let i := x.1
  let k := r.1
  let w := k.newTrace (k.rPreSet i) (k.rTrace i) (k.rLast i) x.2 n
  let k := (w.1.putRow i 0 (nput (w.1.rowWord i 0) 7 0 w.2.1)).putRow i 3 (n % 2 ^ 32)
  ({ k with tracesWritten := Tab.set k.tracesWritten false i true }, r.2 + b2n w.2.2)

/-- POST_TRACE of column j written in step n with increment inc. -/
def CoreSt.writePost (n : Nat) (r : CoreSt × Nat) (x : Nat × Nat) : CoreSt × Nat :=
  let j := x.1
  let k := r.1
  let w := k.newTrace (k.cPostSet j) (k.cTrace j) (k.cLast j) x.2 n
  let k := (w.1.putCol j 13 (nput (w.1.colWord j 13) 7 0 w.2.1)).putCol j 14 (n % 2 ^ 32)
  ({ k with tracesWritten := Tab.set k.tracesWritten false (4096 + j) true }, r.2 + b2n w.2.2)

/-- Row i was touched in step n. -/
def CoreSt.rowTouched (k : CoreSt) (n i : Nat) : Bool := Tab.get k.touchedRow false (n % 2 * 4096 + i)

/-- Row i is in the walk set of LEARN n (R151). -/
def CoreSt.inWalk (k : CoreSt) (n i : Nat) : Bool :=
  k.rRule i != 0 && (k.rowTouched n i || Tab.get k.rowCal false (n % 16 * 4096 + i))

/-- The refresh steps of 03 R79. -/
def ageRefresh (n : Nat) : Bool := n != 0 && n % 2 ^ 30 == 0

/-- The rows whose PRE_TRACE LEARN n writes, with their increments (R148, R150). -/
def CoreSt.preWrites (k : CoreSt) (n : Nat) : List (Nat × Nat) :=
  k.rowsUsed.filterMap fun i =>
    if k.rRule i = 0 then none
    else if k.rowTouched n i then some (i, k.tsInc (k.rPreSet i))
    else if ageRefresh n && 2 ^ 30 ≤ traceDelta n (k.rLast i) then some (i, 0) else none

/-- The columns whose POST_TRACE LEARN n writes, with their increments. -/
def CoreSt.postWrites (k : CoreSt) (n : Nat) : List (Nat × Nat) :=
  k.listedCols.filterMap fun j =>
    if !k.cPostEn j then none
    else if k.cPostSrc j && Tab.get k.evaluated false j then some (j, Tab.get k.postInc 0 j)
    else if !k.cPostSrc j && Tab.get k.emitted false j then some (j, k.tsInc (k.cPostSet j))
    else if ageRefresh n && 2 ^ 30 ≤ traceDelta n (k.cLast j) then some (j, 0) else none

/-- HOLD of a touched row: its bits in the next h calendar slots (R151). -/
def CoreSt.holdRow (k : CoreSt) (n i : Nat) : CoreSt :=
  (upTo (k.rHold i)).foldl (fun k x => { k with rowCal := Tab.set k.rowCal false ((n + 1 + x) % 16 * 4096 + i) true }) k

/-- The modulator of column j in LEARN n, and whether it clamped (R146). -/
def CoreSt.modulator (k : CoreSt) (n j : Nat) : Int × Bool :=
  if k.cModEn j then sat32 (rneShift (Tab.get k.modBank 0 (n % 2 * 16384 + j)) (k.cModShift j)) else (0, false)

/-! ### Rule programs (R157, R158) -/

/-- A rule lane: r0 to r7, the predicate, the DACC total and the count of RULE_SAT. -/
structure RuleLane where
  /-- registers -/
  r : Tab Int
  /-- predicate -/
  p : Bool
  /-- total of DACC -/
  dacc : Int
  /-- RULE_SAT -/
  sat : Nat
  deriving DecidableEq, Repr

/-- Register i of a rule lane. -/
def RuleLane.reg (l : RuleLane) (i : Nat) : Int := Tab.get l.r 0 i
/-- Register i written. -/
def RuleLane.put (l : RuleLane) (i : Nat) (v : Int) : RuleLane := { l with r := Tab.set l.r 0 i v }
/-- Register i written through sat32. -/
def RuleLane.putSat (l : RuleLane) (i : Nat) (v : Int) : RuleLane :=
  let x := sat32 v
  { l.put i x.1 with sat := l.sat + b2n x.2 }

/-- Sign of an integer. -/
def sgnI (v : Int) : Int := if v < 0 then -1 else if v = 0 then 0 else 1

/-- One instruction w other than END, with the rule's constants. -/
def CoreSt.ruleStep (k : CoreSt) (rule : Nat) (w : Nat) (l : RuleLane) : RuleLane :=
  let d := nfld w 24 22
  let a := l.reg (nfld w 21 19)
  let b := l.reg (nfld w 18 16)
  let imm := sext 16 (nfld w 15 0)
  let s := nfld w 4 0
  if nbit w 25 && !l.p then l
  else match nfld w 31 26 with
  | 0x01 => l.putSat d (a + b)
  | 0x02 => l.putSat d (a - b)
  | 0x03 => l.putSat d (a + imm)
  | 0x04 => l.putSat d (rneShift (a * b) s)
  | 0x05 => l.putSat d (a * imm)
  | 0x06 => l.put d (rneShift a s)
  | 0x07 => l.putSat d (a * 2 ^ s)
  | 0x08 => l.put d (min a b)
  | 0x09 => l.put d (max a b)
  | 0x0A => l.putSat d a.natAbs
  | 0x0B => l.put d (sgnI a)
  | 0x0C => l.put d (sext 32 (Tab.get k.ruleTab 0 (12 * (rule - 1) + 1 + nfld w 2 0)).toNat)
  | 0x0D => l.put d imm
  | 0x0E => { l with p := decide (b < a) }
  | 0x0F => { l with p := decide (a = b) }
  | 0x10 => { l with p := nbit (toField 32 a) s }
  | 0x11 => { l with p := !l.p }
  | 0x12 => l.put d (if l.p then a else b)
  | 0x13 => { l with dacc := l.dacc + a }
  | 0x14 => l.put d 0
  | _ => l

/-- A rule run from store address a for len more instructions; END ends it. DESIGN CHOICE (log 83): a rule that DEBUG_WRITE lets run past
store address 63 reads 0 there, which is END. -/
def CoreSt.ruleRun (k : CoreSt) (rule : Nat) : Nat → Nat → RuleLane → RuleLane
  | 0, _, l => l
  | len + 1, a, l =>
    let w := (Tab.get k.rules 0 a).toNat
    if nfld w 31 26 = 0 then l else CoreSt.ruleRun k rule len (a + 1) (k.ruleStep rule w l)

/-! ### Write-back of a row (R153, R159, R161, R162) -/

/-- What a write-back counts. -/
structure WbCount where
  /-- WEIGHT_SAT -/
  wsat : Nat := 0
  /-- RULE_SAT -/
  rsat : Nat := 0
  /-- SYN_DELAY_CLAMP -/
  dclamp : Nat := 0
  /-- ACC_GUARD_OVF -/
  guard : Nat := 0
  deriving DecidableEq, Repr

/-- A weight of row i at column j replaced by w, clamped under R35: COLSUM of a main row (02 R47), the persistent
correction (R161) and the renormalisation mark (R162). The stored per-synapse delay is d. -/
def CoreSt.writeWeight (k : CoreSt) (i j : Nat) (w : Int) (d : Nat) (n : WbCount) : CoreSt × WbCount :=
  let m := weightMax k.mode
  let w' := clampI (-m) m w
  let old := k.weight i j
  let a := k.synAddr i j
  let k := k.putSyn a (synPack k.mode w' d)
  let k := if k.rOutlier i || w' = old then k else k.addSum j (w' - old)
  let c := if k.cPersist j && w' != old then k.accTerm j j ((w' - old) * k.rInCode i * 2 ^ k.cExp j) else (k, false)
  let k := c.1
  let k := if 16384 ≤ w'.natAbs && k.cRenormEn j && k.cExp j < 7 && !k.cMark j then k.setMark j true else k
  (k, { n with wsat := n.wsat + b2n (w' != w), guard := n.guard + b2n c.2 })

/-- The halving of R162 for row i at column j of the columns renormalised in this LEARN; as a write-back that leaves |w| at 16,384 it
marks the column again, and outlier rows stay out of COLSUM (02 R47). -/
def CoreSt.halve (i : Nat) (r : CoreSt × WbCount) (j : Nat) : CoreSt × WbCount :=
  let k := r.1
  if !Tab.get k.renormCols false j then r
  else
    let w := k.synWord (k.synAddr i j)
    let old := weightOf k.mode w
    let new := rneShift old 1
    let k := k.putSyn (k.synAddr i j) (synPack k.mode new (synDelay k.mode w))
    let k := if k.rOutlier i then k else k.addSum j (new - old)
    let k := if 16384 ≤ new.natAbs && k.cRenormEn j && k.cExp j < 7 then k.setMark j true else k
    let c := if k.cPersist j then k.accTerm j j ((2 * new - old) * k.rInCode i * 2 ^ (k.cExp j - 1)) else (k, false)
    (c.1, { r.2 with guard := r.2.guard + b2n c.2 })

/-- One synapse of a rule run in LEARN n: start registers of R157, the rule, and the write-back of R159. Answers also
the DACC total. -/
def CoreSt.ruleSyn (i n rule start len : Nat) (r1 : Int) (touched : Bool) (r : CoreSt × WbCount × Int) (j : Nat) :
    CoreSt × WbCount × Int :=
  let k := r.1
  let a := k.synAddr i j
  let w := k.synWord a
  let post : Int :=
    if !k.cPostEn j then 0
    else if Tab.get k.tracesWritten false (4096 + j) then (k.cTrace j * 65536 : Nat)
    else (k.cTrace j * traceDecay (k.tsLambda (k.cPostSet j)) (traceDelta n (k.cLast j)) : Nat)
  let tag := if k.mode = 2 then k.tag a else 0
  let r6 := b2n touched + 2 * b2n (Tab.get k.emitted false j) + 4 * b2n (Tab.get k.evaluated false j)
  let regs : List (Nat × Int) := [(0, weightOf k.mode w), (1, r1), (2, post), (3, (k.modulator n j).1), (4, (tag : Int)),
    (5, (synDelay k.mode w : Int)), (6, (r6 : Int))]
  let l := k.ruleRun rule len start { r := regs.filter (·.2 != 0), p := false, dacc := 0, sat := 0 }
  let d := clampI 0 15 (l.reg 5)
  let x := k.writeWeight i j (l.reg 0) d.toNat
    { r.2.1 with rsat := r.2.1.rsat + l.sat, dclamp := r.2.1.dclamp + b2n (k.mode = 1 && d != l.reg 5) }
  let t := clampI 0 255 (l.reg 4)
  let y := if k.mode = 2 then (x.1.putTag a t.toNat, { x.2 with rsat := x.2.rsat + b2n (t != l.reg 4) }) else x
  (y.1, y.2, r.2.2 + l.dacc)

/-- The counts of a write-back added to core c. -/
def State.countWb (s : State) (c : Nat) (n : WbCount) : State :=
  (((s.countCore c Ctr.weightSat n.wsat).countCore c Ctr.ruleSat n.rsat).countCore c Ctr.synDelayClamp n.dclamp).guardOvf c n.guard

/-- DGRAD and DELAY of a retiring row (R159, R163), with the counts of RULE_SAT and DELAY_CEIL_HIT. -/
def CoreSt.delayLearn (k : CoreSt) (i : Nat) (dacc : Int) : CoreSt × Nat × Nat :=
  let t := sat32 (k.rDgrad i + dacc)
  let g : Int := 2 ^ fld (Tab.get k.ruleTab 0 (12 * (k.rRule i - 1))) 20 16
  let put (k : CoreSt) (dg : Int) (dl : Nat) : CoreSt :=
    (k.putRow i 5 (toField 32 dg)).putRow i 0 (nput (k.rowWord i 0) 28 23 dl)
  if !k.rDlEn i then (put k t.1 (k.rDelay i), b2n t.2, 0)
  else if g ≤ t.1 then
    if k.rDelay i < k.rCeil i then (put k (t.1 - g) (k.rDelay i + 1), b2n t.2, 0) else (put k (t.1 - g) (k.rDelay i), b2n t.2, 1)
  else if t.1 ≤ -g then
    if 0 < k.rDelay i then (put k (t.1 + g) (k.rDelay i - 1), b2n t.2, 0) else (put k (t.1 + g) (k.rDelay i), b2n t.2, 1)
  else (put k t.1 (k.rDelay i), b2n t.2, 0)

/-- Row i of LEARN n: halved where the columns are renormalised, its rule run when it is in the walk set, and retired;
UPD_PENDING clears (R152, R153). DESIGN CHOICE (log 83): a row whose RULE DEBUG_WRITE has set to 9 to 15 reads a rule-table entry of 0,
so it runs the store's instruction 0 with L 1. -/
def State.learnRow (s : State) (c i : Nat) : State :=
  let k := s.core c
  let n := k.learnStep
  let cols := (upTo (k.rLen i)).map (k.rStart i + ·)
  let h := cols.foldl (CoreSt.halve i) (k, {})
  let bytes := fetchBytes k.mode (k.rBase i) (k.rLen i)
  if !k.inWalk n i then
    let s := (s.setCore c (h.1.setPending i false)).countWb c h.2
    (s.countCore c Ctr.synRdBytes (2 * k.rLen i)).countCore c Ctr.synWrBytes (2 * k.rLen i)
  else
    let rule := k.rRule i
    let e := (Tab.get k.ruleTab 0 (12 * (rule - 1))).toNat
    let r1 : Int := if Tab.get k.tracesWritten false i then (k.rTrace i * 65536 : Nat)
      else (k.rTrace i * traceDecay (k.tsLambda (k.rPreSet i)) (traceDelta n (k.rLast i)) : Nat)
    let r := cols.foldl (CoreSt.ruleSyn i n rule (nfld e 5 0) (nfld e 13 8 + 1) r1 (k.rowTouched n i)) (h.1, h.2, 0)
    let d := r.1.delayLearn i r.2.2
    let s := (s.setCore c (d.1.setPending i false)).countWb c { r.2.1 with rsat := r.2.1.rsat + d.2.1 }
    let s := (s.countCore c Ctr.delayCeilHit d.2.2).countCore c Ctr.learnRows
    ((s.countCore c Ctr.learnSyn (k.rLen i)).countCore c Ctr.synRdBytes bytes).countCore c Ctr.synWrBytes bytes

/-! ### The LEARN phase (R152) -/

/-- The next renormalisation mask: every row whose segment covers a marked column (R162). -/
def CoreSt.buildMask (k : CoreSt) : Tab Bool :=
  let marks := k.listedCols.filter k.cMark
  if marks.isEmpty then [] else (k.rowsUsed.filter fun i => marks.any (k.covers i)).map fun i => (i, true)

/-- Step 6 of R152: LEARN n retires: the modulator bank, the touched-row bitmap and the calendar slot clear, rows it
skipped are no longer pending (R164), and the next renormalisation mask is built when a column was marked (R162). -/
def CoreSt.learnRetire (k : CoreSt) : CoreSt :=
  let n := k.learnStep
  let inStep (lo size : Nat) (a : Nat) : Bool := lo ≤ a && a < lo + size
  let k := k.learnSkipped.foldl (fun k i => k.setPending i false) k
  { k with
    modBank := Tab.restrict k.modBank fun a => !inStep (n % 2 * 16384) 16384 a
    touchedRow := Tab.restrict k.touchedRow fun a => !inStep (n % 2 * 4096) 4096 a
    rowCal := Tab.restrict k.rowCal fun a => !inStep (n % 16 * 4096) 4096 a
    renormMask := k.buildMask
    renormCols := [], learning := false, learnRows := [], learnSkipped := [], tracesWritten := []
    learnGrad := false, learnDsum := [], learnX := [], learnT := f32One }

/-- LEARN retires once no row is left. -/
def State.learnCheck (s : State) (c : Nat) : State :=
  if (s.core c).learning && (s.core c).learnRows.isEmpty then s.modCore c CoreSt.learnRetire else s

/-- The columns that the walk rows of LEARN n cover, whose modulators its rules see. -/
def CoreSt.walkCols (k : CoreSt) (rows : List Nat) : List Nat :=
  k.listedCols.filter fun j => k.cModEn j && rows.any fun i => k.covers i j

/-- Steps 1 to 3 of R152 in the cycle in which FIRE n ends. DESIGN CHOICE (log 83): RULE_SAT counts a modulator clamp (R146) once for each
MOD_EN column that a row of the walk set covers, here. -/
def State.learnStart (s : State) (c n : Nat) : State :=
  let k := s.core c
  let walk := k.rowsUsed.filter (k.inWalk n)
  let mask := k.rowsUsed.filter fun i => Tab.get k.renormMask false i
  let rows := k.rowsUsed.filter fun i => k.inWalk n i || Tab.get k.renormMask false i
  let k := rows.foldl (fun k i => k.setPending i true) k
  let marks := k.listedCols.filter k.cMark
  let k := marks.foldl (fun k j =>
    (k.putCol j 12 (nput (k.colWord j 12) 8 6 (min 7 (k.cExp j + 1)))).setMark j false) k
  let k := { k with renormCols := if mask.isEmpty && marks.isEmpty then [] else marks.map fun j => (j, true) }
  let pre := k.preWrites n
  let post := k.postWrites n
  let r := pre.foldl (CoreSt.writePre n) (k, 0)
  let r := post.foldl (CoreSt.writePost n) r
  let k := (k.rowsUsed.filter (k.rowTouched n)).foldl (fun k i => k.holdRow n i) r.1
  let clamps := ((k.walkCols walk).filter fun j => (k.modulator n j).2).length
  let s := s.setCore c { k with learning := true, learnStep := n, learnRows := rows, learnMark := k.mark }
  let s := (s.countCore c Ctr.renorm marks.length).countCore c Ctr.traceSat r.2
  (s.countCore c Ctr.ruleSat clamps).learnCheck c

/-- Step 5 of 05 R125: rows of LEARN n - 1 not begun are skipped and counted; renormalisation rows never are (R162,
R164). -/
def State.learnCutoff (s : State) (c : Nat) : State :=
  let k := s.core c
  if !k.learning then s
  else
    let keep := k.learnRows.filter fun i => Tab.get k.renormMask false i
    let skipped := k.learnRows.length - keep.length
    let gone := k.learnRows.filter fun i => !Tab.get k.renormMask false i
    let s := (s.setCore c { k with learnRows := keep, learnSkipped := gone }).countCore c Ctr.learnSkip skipped
    let s := if skipped != 0 && k.net != 0 then s.raiseNet (k.net - 1) 0 else s
    s.learnCheck c

/-- The pending rows that the fetch port waits for (03 R73). -/
def CoreSt.fetchWaits (k : CoreSt) : List Nat :=
  match k.fetch, k.seeds with
  | some p, _ => (k.fetchRows p.item.ev).filter k.rPending
  | none, (j, _) :: _ => (k.fetchRows (mkEvent 4 0 j 0 0 false 1 0 false 0 0)).filter k.rPending
  | none, [] => []

/-- The pending row that row lookup waits for (R154). -/
def CoreSt.lookupWaits (k : CoreSt) : List Nat :=
  match k.lookup with
  | some p => if !p.looked && k.rDlEn (evRow p.item.ev) && k.rPending (evRow p.item.ev) then [evRow p.item.ev] else []
  | none => []

/-- The row that the weight phase takes next: one that a fetch waits for, one that row lookup waits for, else the lowest (R155). -/
def CoreSt.nextLearnRow (k : CoreSt) : Option Nat :=
  match k.learnRows.find? k.fetchWaits.contains, k.learnRows.find? k.lookupWaits.contains with
  | some i, _ => some i
  | none, some i => some i
  | none, none => k.learnRows.head?

/-- The counts of a LEARN row are attributed to the marking in force when LEARN began (20 R502). -/
def State.underMark (s : State) (c : Nat) (f : State → State) : State :=
  let k := s.core c
  let s := f (s.setCore c { k with layer := k.learnMark / 65536, oper := k.learnMark % 65536 })
  s.modCore c fun x => { x with layer := k.layer, oper := k.oper }

end Sys2Proof.Machine
end

