-- ==== Sys2Proof/Machine/Tables.lean ====
section
/-! DEFINITION. Tables.lean: the fixed F32 tables that the spec defines by formula: sig_tab (04 R109) and exp_tab
(08 R192), each entry the F32 nearest to its formula's value. -/

namespace Sys2Proof.Machine

/-- Part 1 of `sigTab`. -/
def sigTab1 : List Nat := [
  0x33F1AADC, 0x3408EC2B, 0x341B274F, 0x342FCFDF, 0x3447389A, 0x3461BF40, 0x347FCE10, 0x3490EEB7,
  0x34A43AE2, 0x34BA18D3, 0x34D2E020, 0x34EEF406, 0x3507627D, 0x35196936, 0x352DD660, 0x3544FBCB,
  0x355F362C, 0x357CEE8E, 0x358F4DFE, 0x35A262AB, 0x35B801BB, 0x35D081C7, 0x35EC44EF, 0x3605DD32,
  0x3617B013, 0x362BE27E, 0x3642C557, 0x365CB447, 0x367A172D, 0x368DB1DD, 0x36A08FA6, 0x36B5F082,
  0x36CE2A0F, 0x36E99D53, 0x37045C20, 0x3715FBB4, 0x3729F3FB, 0x374094EF, 0x375A3931, 0x37774772,
  0x378C1A08, 0x379EC172, 0x37B3E4AD, 0x37CBD85F, 0x37E6FC72, 0x3802DECC, 0x38144B7C, 0x38280A10,
  0x383E6997, 0x3857C3A8, 0x38747DC5, 0x388A857A, 0x389CF6C3, 0x38B1DC95, 0x38C98A97, 0x38E45F95,
  0x3901637B, 0x39129D34, 0x392621E6, 0x393C3FAC, 0x39554F03, 0x3971B42D, 0x3988F05F, 0x399B2AB1]

/-- Part 2 of `sigTab`. -/
def sigTab2 : List Nat := [
  0x39AFD1EF, 0x39C738A9, 0x39E1BC65, 0x39FFC713, 0x3A10E859, 0x3A243093, 0x3A3A092D, 0x3A52C94B,
  0x3A6ED39C, 0x3A874BED, 0x3A994A41, 0x3AADAC60, 0x3AC4C351, 0x3ADEEAC6, 0x3AFC8A7D, 0x3B0F0BE8,
  0x3B220BBC, 0x3B378FC2, 0x3B4FECC9, 0x3B6B82A6, 0x3B855ECA, 0x3B970BE5, 0x3BAB0D97, 0x3BC1B1A4,
  0x3BDB4FB4, 0x3BF84A82, 0x3C0C8895, 0x3C1F104D, 0x3C340294, 0x3C4BAE1F, 0x3C666B21, 0x3C824E1F,
  0x3C9357D1, 0x3CA69009, 0x3CBC3B0A, 0x3CD4A486, 0x3CF02034, 0x3D07852A, 0x3D18E414, 0x3D2C642E,
  0x3D4241A2, 0x3D5ABD73, 0x3D761D6B, 0x3D8A55EB, 0x3D9B5B89, 0x3DAE4868, 0x3DC34695, 0x3DDA8099,
  0x3DF420A9, 0x3E0827C7, 0x3E1799AF, 0x3E287701, 0x3E3ACDC2, 0x3E4EA820, 0x3E640B81, 0x3E7AF791,
  0x3E89B2B1, 0x3E96A358, 0x3EA442B1, 0x3EB2819D, 0x3EC14D03, 0x3ED08E01, 0x3EE02A67, 0x3EF00553]

/-- Part 3 of `sigTab`. -/
def sigTab3 : List Nat := [
  0x3F000000, 0x3F07FD56, 0x3F0FEACD, 0x3F17B900, 0x3F1F597F, 0x3F26BF31, 0x3F2DDEA8, 0x3F34AE54,
  0x3F3B26A8, 0x3F41421C, 0x3F46FD20, 0x3F4C55F8, 0x3F514C90, 0x3F55E240, 0x3F5A1994, 0x3F5DF60E,
  0x3F617BEB, 0x3F64AFED, 0x3F67972D, 0x3F6A36F3, 0x3F6C948F, 0x3F6EB543, 0x3F709E29, 0x3F725429,
  0x3F73DBE6, 0x3F7539BD, 0x3F7671BF, 0x3F7787AD, 0x3F787EFE, 0x3F795ADC, 0x3F7A1E28, 0x3F7ACB80,
  0x3F7B6541, 0x3F7BED8F, 0x3F7C6653, 0x3F7CD148, 0x3F7D2FF6, 0x3F7D83BF, 0x3F7DCDDE, 0x3F7E0F6B,
  0x3F7E4961, 0x3F7E7C9D, 0x3F7EA9E5, 0x3F7ED1E8, 0x3F7EF542, 0x3F7F147D, 0x3F7F3013, 0x3F7F4870,
  0x3F7F5DF4, 0x3F7F70F4, 0x3F7F81BB, 0x3F7F908B, 0x3F7F9D9E, 0x3F7FA92A, 0x3F7FB35B, 0x3F7FBC5A,
  0x3F7FC44B, 0x3F7FCB4E, 0x3F7FD17E, 0x3F7FD6F4, 0x3F7FDBC6, 0x3F7FE007, 0x3F7FE3C8, 0x3F7FE719]

/-- Part 4 of `sigTab`. -/
def sigTab4 : List Nat := [
  0x3F7FEA06, 0x3F7FEC9B, 0x3F7FEEE2, 0x3F7FF0E5, 0x3F7FF2AB, 0x3F7FF43C, 0x3F7FF59E, 0x3F7FF6D6,
  0x3F7FF7EA, 0x3F7FF8DD, 0x3F7FF9B4, 0x3F7FFA71, 0x3F7FFB18, 0x3F7FFBAC, 0x3F7FFC2E, 0x3F7FFCA1,
  0x3F7FFD06, 0x3F7FFD60, 0x3F7FFDAF, 0x3F7FFDF5, 0x3F7FFE32, 0x3F7FFE68, 0x3F7FFE98, 0x3F7FFEC2,
  0x3F7FFEE8, 0x3F7FFF09, 0x3F7FFF26, 0x3F7FFF3F, 0x3F7FFF56, 0x3F7FFF6A, 0x3F7FFF7C, 0x3F7FFF8B,
  0x3F7FFF99, 0x3F7FFFA5, 0x3F7FFFB0, 0x3F7FFFB9, 0x3F7FFFC1, 0x3F7FFFC9, 0x3F7FFFCF, 0x3F7FFFD5,
  0x3F7FFFDA, 0x3F7FFFDF, 0x3F7FFFE2, 0x3F7FFFE6, 0x3F7FFFE9, 0x3F7FFFEC, 0x3F7FFFEE, 0x3F7FFFF0,
  0x3F7FFFF2, 0x3F7FFFF4, 0x3F7FFFF5, 0x3F7FFFF6, 0x3F7FFFF8, 0x3F7FFFF9, 0x3F7FFFF9, 0x3F7FFFFA,
  0x3F7FFFFB, 0x3F7FFFFB, 0x3F7FFFFC, 0x3F7FFFFC, 0x3F7FFFFD, 0x3F7FFFFD, 0x3F7FFFFE, 0x3F7FFFFE]

/-- Part 5 of `sigTab`. -/
def sigTab5 : List Nat := [
  0x3F7FFFFE]

/-- sig_tab of R109: entry k is the F32 nearest to 1 / (1 + e^(16 - k/8)). -/
def sigTab : List Nat := sigTab1 ++ sigTab2 ++ sigTab3 ++ sigTab4 ++ sigTab5

/-- Part 1 of `expTab`. -/
def expTab1 : List Nat := [
  0x3F800000, 0x3F707D60, 0x3F61EB51, 0x3F543B41, 0x3F475F7D, 0x3F3B4B29, 0x3F2FF231, 0x3F254939,
  0x3F1B4598, 0x3F11DD4A, 0x3F0906E5, 0x3F00B992, 0x3EF1DA07, 0x3EE332D9, 0x3ED56EF0, 0x3EC88088,
  0x3EBC5AB2, 0x3EB0F145, 0x3EA638D9, 0x3E9C26B4, 0x3E92B0C2, 0x3E89CD8D, 0x3E817431, 0x3E7338A8,
  0x3E647C3C, 0x3E56A45E, 0x3E49A337, 0x3E3D6BC4, 0x3E31F1CC, 0x3E2729D5, 0x3E1D0916, 0x3E13856D,
  0x3E0A9555, 0x3E022FDF, 0x3DF49946, 0x3DE5C77C, 0x3DD7DB8C, 0x3DCAC78B, 0x3DBE7E61, 0x3DB2F3C6,
  0x3DA81C2E, 0x3D9DECC0, 0x3D945B4C, 0x3D8B5E3F, 0x3D82EC9C, 0x3D75FBE2, 0x3D67149C, 0x3D59147E,
  0x3D4BED86, 0x3D3F928D, 0x3D33F737, 0x3D290FE6, 0x3D1ED1B4, 0x3D153261, 0x3D0C284C, 0x3D03AA6C,
  0x3CF76081, 0x3CE8639F, 0x3CDA4F35, 0x3CCD152C, 0x3CC0A84A, 0x3CB4FC1F, 0x3CAA0500, 0x3C9FB7F4]

/-- Part 2 of `expTab`. -/
def expTab2 : List Nat := [
  0x3C960AAE, 0x3C8CF37E, 0x3C84694E, 0x3C78C724, 0x3C69B489, 0x3C5B8BB5, 0x3C4E3E7F, 0x3C41BF99,
  0x3C360282, 0x3C2AFB7D, 0x3C209F82, 0x3C16E434, 0x3C0DBFD7, 0x3C052945, 0x3BFA2FD0, 0x3BEB075A,
  0x3BDCC9FF, 0x3BCF6980, 0x3BC2D87D, 0x3BB70A61, 0x3BABF360, 0x3BA18860, 0x3B97BEF6, 0x3B8E8D58,
  0x3B85EA53, 0x3B7B9A86, 0x3B6C5C17, 0x3B5E0A17, 0x3B509633, 0x3B43F2F8, 0x3B3813BF, 0x3B2CECAA,
  0x3B227290, 0x3B189AF5, 0x3B0F5C03, 0x3B06AC78, 0x3AFD074B, 0x3AEDB2C1, 0x3ADF4BFF, 0x3AD1C49A,
  0x3AC50F0C, 0x3AB91E9E, 0x3AADE75D, 0x3AA35E12, 0x3A997833, 0x3A902BD9, 0x3A876FB7, 0x3A7E7620,
  0x3A6F0B5D, 0x3A608FB9, 0x3A52F4B8, 0x3A462CBD, 0x3A3A2AFF, 0x3A2EE37C, 0x3A244AEB, 0x3A1A56B2,
  0x3A10FCDD, 0x3A083411, 0x39FFE709, 0x39F065EC, 0x39E1D549, 0x39D4268E, 0x39C74C0C, 0x39BB38E6]

/-- Part 3 of `expTab`. -/
def expTab3 : List Nat := [
  0x39AFE108, 0x39A5391A, 0x399B3673, 0x3991CF10, 0x3988F988, 0x3980AD04, 0x3971C271, 0x39631CB1,
  0x39555A20, 0x39486CFB, 0x393C4853, 0x3930E004, 0x392628A3, 0x391C1779, 0x3912A274, 0x3909C01D,
  0x39016791, 0x38F320F0, 0x38E465F3, 0x38D68F6F, 0x38C98F8D, 0x38BD594B, 0x38B1E071, 0x38A71988,
  0x389CF9C5, 0x3893770A, 0x388A87D1, 0x3882232C, 0x3874816B, 0x3865B113, 0x3857C67F, 0x384AB3C4,
  0x383E6BCE, 0x3832E253, 0x38280BC9, 0x381DDD59, 0x38144CD4, 0x380B50A8, 0x3802DFD8, 0x37F5E3E5,
  0x37E6FE13, 0x37D8FF52, 0x37CBD9A3, 0x37BF7FDF, 0x37B3E5AA, 0x37A8FF6A, 0x379EC237, 0x379523D4,
  0x378C1AA1, 0x37839D95, 0x37774861, 0x37684CF6, 0x375A39EB, 0x374D012C, 0x37409580, 0x3734EA79,
  0x3729F46C, 0x371FA861, 0x3715FC0C, 0x370CE5BF, 0x37045C64, 0x36F8AEE2, 0x36E99DBE, 0x36DB764C]

/-- Part 4 of `expTab`. -/
def expTab4 : List Nat := [
  0x36CE2A62, 0x36C1ACB4, 0x36B5F0C2, 0x36AAEAD1, 0x36A08FD8, 0x3696D57D, 0x368DB204, 0x36851C49,
  0x367A176A, 0x366AF06E, 0x365CB477, 0x364F5546, 0x3642C57C, 0x3636F888, 0x362BE29B, 0x3621789F,
  0x3617B02A, 0x360E7F71, 0x3605DD44, 0x35FB81FD, 0x35EC450A, 0x35DDF46F, 0x35D081DC, 0x35C3DFDC,
  0x35B801CC, 0x35ACDBCD, 0x35A262B8, 0x35988C13, 0x358F4E08, 0x35869F56, 0x357CEE9E, 0x356D9B93,
  0x355F3638, 0x3551B025, 0x3544FBD5, 0x35390C90, 0x352DD668, 0x35234E24, 0x3519693C, 0x35101DCA,
  0x35076282, 0x34FE5D4F, 0x34EEF40D, 0x34E079D3, 0x34D2E025, 0x34C61969, 0x34BA18D7, 0x34AED26E,
  0x34A43AE5, 0x349A47A5, 0x3490EEB9, 0x348826C9, 0x347FCE14, 0x34704E7A, 0x3461BF43, 0x345411DE,
  0x3447389C, 0x343B26A4, 0x342FCFE1, 0x342528FE, 0x341B2751, 0x3411C0D8, 0x3408EC2C, 0x3400A078]

/-- Part 5 of `expTab`. -/
def expTab5 : List Nat := [
  0x33F1AADE]

/-- exp_tab of R192: entry i is the F32 nearest to e^(-i/16). -/
def expTab : List Nat := expTab1 ++ expTab2 ++ expTab3 ++ expTab4 ++ expTab5

end Sys2Proof.Machine
end

