-- ==== Sys2Proof/Machine/Neuron.lean ====
section
/-! DEFINITION. Neuron.lean: the evaluation of one neuron (02 R44, R49; 04 R103 to R115): the fire read, the built-in
models, neuron programs, graded and delta emission, and the derivative codes of gradient training (07 R172, R173). -/

namespace Sys2Proof.Machine

/-! ### The fire read -/

/-- A fire read of one column (R44, R49): F32 of the A48 value times SCALE, and `sat`. -/
structure FireRead where
  /-- the A48 value -/
  a : Int
  /-- the clamp acted -/
  sat : Bool
  deriving DecidableEq, Repr

/-- R44 for column j in step n. -/
def CoreSt.fireRead (k : CoreSt) (n j : Nat) : FireRead :=
  let r := a48 (k.acc56 (accIndex k.mode n j 0) - k.cZp j * k.cSum j * 2 ^ k.cExp j)
  ⟨r.1, r.2⟩

/-- t and t_out of column j (R49): those of the rows that feed it from a token function, 1.0 outside token inputs. -/
def CoreSt.tOf (k : CoreSt) (j : Nat) : Word32 × Word32 :=
  ((k.tokT.find? fun r => decide (k.rStart r.1 ≤ j) && decide (j < k.rStart r.1 + k.rLen r.1)).map Prod.snd).getD (f32One, f32One)

/-- The neuron input x of column j in step n (R49), and the columns whose read clamped. -/
def CoreSt.input (k : CoreSt) (n j : Nat) : Word32 × List Nat :=
  let r := k.fireRead n j
  let x := f32Mul (f32Mul (f32OfInt r.a) (k.colF j 0)) (k.tOf j).1
  let s := if r.sat then [j] else []
  if k.cComp j then
    let c := k.cCompanion j
    let q := k.fireRead n c
    (f32Add x (f32Mul (f32Mul (f32OfInt q.a) (k.colF c 0)) (k.tOf c).2), s ++ (if q.sat then [c] else []))
  else (x, s)

/-- The accumulator of column j after its fire read: 0 in reset mode, which clears the guard flag, kept in persistent
(R46). -/
def CoreSt.readDone (k : CoreSt) (n j : Nat) : CoreSt :=
  if k.cPersist j then k
  else
    let k := k.putAcc (accIndex k.mode n j 0) 0
    if k.cGuard j then k.setGuard j false else k

/-- Accumulators of column j, and of its companion, after the fire read. -/
def CoreSt.afterRead (k : CoreSt) (n j : Nat) : CoreSt :=
  let c := k.cCompanion j
  if k.cComp j then (k.readDone n j).readDone n c else k.readDone n j

/-! ### Records -/

/-- The fields of a neuron record that an evaluation changes (R101). -/
structure NRec where
  /-- V -/
  v : Word32
  /-- U -/
  u : Word32
  /-- G -/
  g : Word32
  /-- E -/
  e : Word32
  /-- P0 -/
  p0 : Word32
  /-- P1 -/
  p1 : Word32
  /-- REFRAC_LEFT -/
  r : Nat
  deriving DecidableEq, Repr

/-- The record of column j. -/
def CoreSt.nrec (k : CoreSt) (j : Nat) : NRec :=
  { v := k.neu j 0, u := k.neu j 1, g := k.neu j 2, e := k.neu j 3, p0 := k.neu j 5, p1 := k.neu j 6,
    r := fld (k.neu j 7) 15 8 }

/-- The record of column j written back in step n. -/
def CoreSt.putNrec (k : CoreSt) (j n : Nat) (x : NRec) : CoreSt :=
  let k := (((((k.putNeu j 0 x.v).putNeu j 1 x.u).putNeu j 2 x.g).putNeu j 3 x.e).putNeu j 5 x.p0).putNeu j 6 x.p1
  (k.putNeu j 4 (BitVec.ofNat 32 n)).putNeu j 7 (BitVec.ofNat 32 (x.r % 256 * 256))

/-- A record holds NaN (02 R51). -/
def NRec.hasNaN (x : NRec) : Bool :=
  f32IsNaN x.v || f32IsNaN x.u || f32IsNaN x.g || f32IsNaN x.e || f32IsNaN x.p0 || f32IsNaN x.p1

/-- What the evaluation of one column answers, before winner-take-all and emission. -/
structure EvalOut where
  /-- record when the column does not fire, or loses (R117) -/
  rest : NRec
  /-- record after the firing updates -/
  fired : NRec
  /-- the column would emit -/
  fires : Bool
  /-- margin of R117 -/
  margin : Word32
  /-- the output y of a graded model or program -/
  y : Word32
  /-- derivative before scaling (07 R172) -/
  deriv : Word32
  /-- seed before rounding (07 R173) -/
  seed : Word32
  /-- f10 at END (06 R148) -/
  inc : Word32
  /-- steps of the wakes requested (03 R77) -/
  wakes : List Nat
  deriving DecidableEq, Repr

/-! ### Minimum, maximum, sigma -/

/-- max of IEEE 754-2019: NaN if either is NaN; +0.0 over -0.0. -/
def f32Max (x y : Word32) : Word32 :=
  if f32IsNaN x || f32IsNaN y then f32NaN
  else if f32Key x = f32Key y then (if nbit x.toNat 31 then y else x)
  else if f32Lt x y then y else x

/-- min of IEEE 754-2019: NaN if either is NaN; -0.0 under +0.0. -/
def f32Min (x y : Word32) : Word32 :=
  if f32IsNaN x || f32IsNaN y then f32NaN
  else if f32Key x = f32Key y then (if nbit x.toNat 31 then x else y)
  else if f32Lt x y then x else y

/-- Entry i of an F32 table. -/
def tabF (t : List Nat) (i : Nat) : Word32 := BitVec.ofNat 32 (t.getD i 0)

/-- σ of R109. -/
def sigma (z : Word32) : Word32 :=
  if f32IsNaN z then f32NaN
  else
    let t := f32Min (f32Max z (f32OfInt (-16))) (f32OfInt 16)
    let w := f32Mul (f32Add t (f32OfInt 16)) (f32OfInt 8)
    let i := (f32FloorInt w).toNat
    if 256 ≤ i then tabF sigTab 256
    else
      let f := f32Sub w (f32OfInt i)
      f32Add (tabF sigTab i) (f32Mul (f32Sub (tabF sigTab (i + 1)) (tabF sigTab i)) f)

/-! ### Built-in models (R105 to R108) -/

/-- The surrogate derivative of a spiking model (07 R172). -/
def spikeDeriv (accept : Bool) (v th theta : Word32) : Word32 :=
  if accept then f32Max 0 (f32Sub f32One (f32Div (f32Abs (f32Sub v th)) theta)) else 0

/-- LIF (`alif` false) and ALIF of R105 for column j with input x after delta steps. -/
def CoreSt.evalLif (k : CoreSt) (j : Nat) (alif : Bool) (x : Word32) (delta : Nat) : EvalOut :=
  let q := k.nrec j
  let accept := q.r < delta
  let r := q.r - delta
  let v0 := f32Mul q.v (f32Pow (k.colF j 2) delta)
  let v := if accept then f32Add v0 x else v0
  let u := if alif then f32Mul q.u (f32Pow (k.colF j 3) delta) else q.u
  let th := if alif then f32Add (k.colF j 4) u else k.colF j 4
  let rest := { q with v := v, u := u, r := r }
  { rest := rest
    fired := { rest with v := if k.cResetSub j then f32Sub v th else k.colF j 5
                         u := if alif then f32Add u (k.colF j 7) else u
                         r := k.cRefrac j }
    fires := accept && f32Le th v
    margin := f32Sub v th, y := 0, deriv := spikeDeriv accept v th (k.colF j 4), seed := 0, inc := 0, wakes := [] }

/-- Complex product of R106. -/
def cmul (a b : Word32 × Word32) : Word32 × Word32 :=
  (f32Sub (f32Mul a.1 b.1) (f32Mul a.2 b.2), f32Add (f32Mul a.1 b.2) (f32Mul a.2 b.1))

/-- cpow of R106. -/
def cpowLoop : Nat → Word32 × Word32 → Word32 × Word32 → Nat → Word32 × Word32
  | 0, result, _, _ => result
  | fuel + 1, result, base, delta =>
    if delta = 0 then result
    else cpowLoop fuel (if delta % 2 = 1 then cmul result base else result) (cmul base base) (delta / 2)

/-- RF of R106. -/
def CoreSt.evalRf (k : CoreSt) (j : Nat) (x : Word32) (delta : Nat) : EvalOut :=
  let q := k.nrec j
  let accept := q.r < delta
  let z := cmul (q.v, q.u) (cpowLoop 33 (f32One, 0) (k.colF j 5, k.colF j 6) delta)
  let v := if accept then f32Add z.1 x else z.1
  let rest := { q with v := v, u := z.2, r := q.r - delta }
  { rest := rest, fired := { rest with r := k.cRefrac j }
    fires := accept && f32Le (k.colF j 4) v
    margin := f32Sub v (k.colF j 4), y := 0, deriv := spikeDeriv accept v (k.colF j 4) (k.colF j 4), seed := 0, inc := 0
    wakes := [] }

/-- RELU and LINEAR of R107. -/
def CoreSt.evalGraded (k : CoreSt) (j : Nat) (relu : Bool) (x : Word32) : EvalOut :=
  let q := k.nrec j
  let y0 := f32Add x (k.colF j 5)
  let y := if relu then f32Max y0 0 else y0
  let rest := { q with v := y }
  { rest := rest, fired := rest, fires := k.cEmitType j != 0, margin := y, y := y
    deriv := if relu then (if f32Lt 0 y0 then f32One else 0) else f32One, seed := 0, inc := 0, wakes := [] }

/-- GLU value column of R108, with the gate's input xg. -/
def CoreSt.evalGlu (k : CoreSt) (j : Nat) (xv xg : Word32) (delta : Nat) : EvalOut :=
  let q := k.nrec j
  let v := f32Add (f32Mul (f32Sub q.v xv) (f32Pow (k.colF j 2) delta)) xv
  let s := sigma (f32Add xg (k.colF j 5))
  let rest := { q with v := v }
  { rest := rest, fired := rest, fires := k.cEmitType j != 0, margin := f32Mul v s, y := f32Mul v s
    deriv := s, seed := 0, inc := 0, wakes := [] }

/-! ### Neuron programs (R113, R114) -/

/-- A lane while a program runs. -/
structure Lane where
  /-- f0 to f15 -/
  f : Tab Word32
  /-- predicate -/
  p : Bool
  /-- value copied by the last effective EMIT -/
  out : Option Word32
  /-- wakes requested -/
  wakes : List Nat
  deriving DecidableEq, Repr

/-- Register i. -/
def Lane.reg (l : Lane) (i : Nat) : Word32 := Tab.get l.f 0 i
/-- Register i written. -/
def Lane.put (l : Lane) (i : Nat) (v : Word32) : Lane := { l with f := Tab.set l.f 0 i v }

/-- One instruction w of the program of column j after delta steps, other than END. -/
def CoreSt.nstep (k : CoreSt) (j delta : Nat) (w : Nat) (l : Lane) : Lane :=
  let op := nfld w 31 27
  let a := l.reg (nfld w 21 18)
  let b := l.reg (nfld w 17 14)
  let c := l.reg (nfld w 13 10)
  let put := l.put (nfld w 25 22)
  if nbit w 26 && !l.p then l
  else match op with
  | 0x01 => put (f32Add a b)
  | 0x02 => put (f32Sub a b)
  | 0x03 => put (f32Mul a b)
  | 0x04 => put (f32Div a b)
  | 0x05 => put (f32Add (f32Mul a b) c)
  | 0x06 => put (f32Min a b)
  | 0x07 => put (f32Max a b)
  | 0x08 => put (f32Abs a)
  | 0x09 => put (f32Neg a)
  | 0x0A => put (sigma a)
  | 0x0B => put (f32Pow a delta)
  | 0x0C => put (BitVec.ofNat 32 (nfld w 15 0 * 65536))
  | 0x0D => if nfld w 21 18 < 6 then put (k.colF j (nfld w 21 18 + 2)) else l
  | 0x0E => { l with p := f32Lt b a }
  | 0x0F => { l with p := f32Le b a }
  | 0x10 => { l with p := f32Eq a b }
  | 0x11 => { l with p := !l.p }
  | 0x12 => put (if l.p then a else b)
  | 0x13 => { l with out := some a }
  | 0x14 => if nfld w 5 0 = 0 then l else { l with wakes := l.wakes ++ [nfld w 5 0] }
  | _ => l

/-- The program from store address a for len more instructions; END ends it. DESIGN CHOICE (log 83): an entry that DEBUG_WRITE lets run past
store address 1,023 reads 0 there, which is END. -/
def CoreSt.nrun (k : CoreSt) (j delta : Nat) : Nat → Nat → Lane → Lane
  | 0, _, l => l
  | len + 1, a, l =>
    let w := (Tab.get k.prog 0 a).toNat
    if nfld w 31 27 = 0 then l else CoreSt.nrun k j delta len (a + 1) (k.nstep j delta w l)

/-- The user program of column j with input x (R113 to R115). DESIGN CHOICE (log 83): a program whose entry has PVALID 0, which only
DEBUG_WRITE can leave a column with, runs no instruction. -/
def CoreSt.evalProg (k : CoreSt) (j : Nat) (x : Word32) (sat : Bool) (delta : Nat) : EvalOut :=
  let q := k.nrec j
  let ent := (Tab.get k.progEnt 0 (k.cModel j - 32)).toNat
  let start : List (Nat × Word32) := [(0, x), (1, f32Pow (k.colF j 2) delta), (2, q.v), (3, q.u), (4, q.g), (5, q.e), (6, q.p0), (7, q.p1),
    (8, if sat then f32One else 0), (9, if k.cGuard j then f32One else 0)]
  let l0 : Lane := { f := start.filter (·.2 != 0), p := false, out := none, wakes := [] }
  let l := if nbit ent 31 then k.nrun j delta (nfld ent 16 10 + 1) (nfld ent 9 0) l0 else l0
  let rest := { q with v := l.reg 2, u := l.reg 3, g := l.reg 4, e := l.reg 5, p0 := l.reg 6, p1 := l.reg 7 }
  let y := l.out.getD 0
  { rest := rest, fired := rest, fires := l.out.isSome && k.cEmitType j != 0, margin := y, y := y
    deriv := l.reg 11, seed := l.reg 12, inc := l.reg 10, wakes := l.wakes }

/-! ### Emission (R110, R111, 05 R131) -/

/-- The items of a column and its record after emission, with the counts of CONV_SAT and CONV_NAN. -/
structure Emission where
  /-- record to be written back -/
  q : NRec
  /-- items, in order -/
  items : List EmitItem
  /-- CONV_SAT -/
  sat : Nat
  /-- CONV_NAN -/
  nan : Nat
  deriving DecidableEq, Repr

/-- The emission of column j in step n, whose record is q. `mayEmit` is false where the column emits nothing this step
(a loser, no effective EMIT, the last forward step of 07 R170); `refresh` adds the refresh-marked item of R131.
DESIGN CHOICE (log 83): a column with DELTA 1 and EMIT_TYPE 0 has no graded emission, so its E is neither narrowed nor written back. -/
def CoreSt.emitCol (k : CoreSt) (j n : Nat) (q : NRec) (y : Word32) (mayEmit refresh quiet : Bool) : Emission :=
  let typ := k.cEmitType j
  let item (p : Int) (p16 : Bool) (v : Word32) (r : Bool) : EmitItem :=
    { typ := typ, payload := BitVec.ofNat 16 (payloadOf p), pfmt := b2n p16, col := j, modCh := if typ = 3 then k.cModCh j else 0,
      refresh := r, step := n, value := v }
  if typ = 0 then { q := q, items := [], sat := 0, nan := 0 }
  else if typ = 1 then
    { q := q, items := if mayEmit && !quiet then [item 1 false f32One false] else [], sat := 0, nan := 0 }
  else if !k.cDelta j then
    if mayEmit && !quiet then
      let r := narrowP y (k.colF j 1) (k.cP16 j) (k.cEmitZp j)
      { q := q, items := [item r.q (k.cP16 j) y false], sat := b2n r.sat, nan := b2n r.nan }
    else { q := q, items := [], sat := 0, nan := 0 }
  else
    let z := k.cEmitZp j
    let e0 := narrowInt q.e 0 (pLo (k.cP16 j) z) (pHi (k.cP16 j))
    let e := if e0.nan then z else e0.q
    let yLast := f32Mul (f32OfInt (e - z)) (k.colF j 1)
    let past := mayEmit && !quiet && f32Lt (k.colF j 4) (f32Abs (f32Sub y yLast))
    let r := narrowP y (k.colF j 1) (k.cP16 j) z
    let d0 := r.q - e
    let d := clampI (-32767) 32767 d0
    let sends := past && d != 0
    let e' := if sends then e + d else e
    let items := (if sends then [item d true y false] else [])
      ++ (if refresh && !quiet && e' - z != 0 then [item (e' - z) true (f32Mul (f32OfInt (e' - z)) (k.colF j 1)) true] else [])
    { q := { q with e := f32OfInt e' }, items := items
      sat := b2n e0.sat + (if past then b2n r.sat + b2n (d != d0) else 0), nan := b2n e0.nan + (if past then b2n r.nan else 0) }

/-! ### Codes of gradient training (07 R172, R173) -/

/-- A value times `scale`, rounded to a code in ±32,767; NaN gives 0. -/
def codeOf (v scale : Word32) : Narrow := narrowInt (f32Mul v scale) 0 (-32767) 32767

end Sys2Proof.Machine
end

