-- ==== Sys2Proof/Machine/SectorMem.lean ====
section
/-! DEFINITION. SectorMem.lean: the bytes of sector memory (09 R236, R239, R240): reads, writes, poison of 64-bit words
and the bank atomics. -/

namespace Sys2Proof.Machine

/-- Poison left after a write: a 64-bit word written whole is clean. -/
def poisonAfter (p : Tab Bool) (a len : Nat) : Tab Bool :=
  if p.isEmpty then [] else p.filter fun e => !(decide (a ≤ 8 * e.1) && decide (8 * e.1 + 8 ≤ a + len))

/-- Bytes stored in a sector's memory. -/
def SectorSt.poke (q : SectorSt) (a : Nat) (bytes : List Byte) : SectorSt :=
  { q with mem := memWrite q.mem a bytes, poison := poisonAfter q.poison a bytes.length }

/-- Bytes stored in sector n's memory. -/
def State.smemPoke (s : State) (n a : Nat) (bytes : List Byte) : State := s.modSector n fun q => q.poke a bytes

/-- A byte of bank 0 as a write leaves it (10 R259; 00 R8, R10): PENDING is read-only and the reserved bits stay 0. -/
def objByte (old : Byte) (a : Nat) (b : Byte) : Byte :=
  match a % 16 with
  | 10 => 0
  | 11 => (b &&& 0xE0) ||| (old &&& 0x10)
  | 12 => 0
  | 13 => 0
  | 14 => b &&& 0xFE
  | _ => b

/-- What a write of bytes from a stores: bytes of synchronisation objects keep their read-only and reserved bits. -/
def SectorSt.maskObjs (q : SectorSt) (a : Nat) (bytes : List Byte) : List Byte :=
  if 0x20000 ≤ a then bytes
  else bytes.zipIdx.map fun x => if a + x.2 < 0x20000 then objByte (memByte q.mem (a + x.2)) (a + x.2) x.1 else x.1

/-- Bytes stored in sector n's memory by a requester that is not the synchronisation unit (09 R236; 10 R259). -/
def State.smemStore (s : State) (n a : Nat) (bytes : List Byte) : State :=
  s.smemPoke n a ((s.sector n).maskObjs a bytes)

/-- The bank that holds byte a of sector n is under test: a request to it stalls (09 R240). -/
def State.bankHolds (s : State) (n a : Nat) : Bool := (s.sector n).bankTest == a / 131072 + 1

/-- A request to len bytes from a meets a bank under test. -/
def State.bankHoldsAny (s : State) (n a len : Nat) : Bool :=
  let t := (s.sector n).bankTest
  t != 0 && len != 0 && decide (a / 131072 + 1 ≤ t) && decide (t ≤ (a + len - 1) / 131072 + 1)

/-- A stalled request cycle of a bank under test (09 R240). -/
def State.testStall (s : State) (n : Nat) : State := s.countSec n Ctr.bankTestStall

/-- len bytes of sector n's memory from a. -/
def State.smemPeek (s : State) (n a len : Nat) : List Byte := memRead (s.sector n).mem a len

/-- Some 64-bit word that len bytes from a touch is poisoned. -/
def SectorSt.poisoned (q : SectorSt) (a len : Nat) : Bool :=
  q.poison.any fun e => decide (8 * e.1 < a + len) && decide (a < 8 * e.1 + 8)

/-- An uncorrectable word returned: MEM_ECC_UNCORR and MEM_UNCORR (R240). -/
def State.memUncorr (s : State) (n : Nat) : State :=
  (s.countSec n Ctr.memEccUncorr).modSector n fun q => { q with netEvents := nsetBit q.netEvents 0 }

/-- Bytes of an atomic's operand: ADD32, ADD64, ADDF32, SWAP32, SWAP64 (R239). -/
def atomicBytes (kind : Nat) : Nat := if kind = 1 || kind = 4 then 8 else 4

/-- What an atomic stores (R239): adds wrap, ADDF32 rounds to nearest even. -/
def atomicResult (kind old operand : Nat) : Nat :=
  if kind = 0 then (old + operand) % 2 ^ 32
  else if kind = 1 then (old + operand) % 2 ^ 64
  else if kind = 2 then (f32Add (BitVec.ofNat 32 old) (BitVec.ofNat 32 operand)).toNat
  else if kind = 3 then operand % 2 ^ 32
  else operand % 2 ^ 64

/-- A bank atomic on sector n's memory: the value found and the state after it. -/
def State.smemAtomic (s : State) (n a kind operand : Nat) : Nat × State :=
  let w := atomicBytes kind
  let old := memNat (s.sector n).mem a w
  (old, s.smemStore n a (toLe w (atomicResult kind old operand)))

/-- Bytes of a sector-memory access counted in SMEM_BYTES of a core: sub-index 0 read, 1 write (20 R512). -/
def State.smemCountCore (s : State) (c dir n : Nat) : State := s.countCoreSub c Ctr.smemBytes dir n

/-- Bytes of an access by a sector's descriptor engine counted in SMEM_BYTES of the sector. -/
def State.smemCountSec (s : State) (n dir bytes : Nat) : State := s.countSec n Ctr.smemBytes dir bytes

end Sys2Proof.Machine
end

