-- ==== Sys2Proof/Machine/Train.lean ====
section
/-! DEFINITION. Train.lean: gradient training (07): log frames, the load of a backward step, row evaluation, and the
gradient writes of LEARN. -/

namespace Sys2Proof.Machine

/-! ### Log frames (07 R174 to R176) -/

/-- LOG_EN of TRAIN_CFG. -/
def CoreSt.logEn (k : CoreSt) : Bool := nbit k.trainCfg.toNat 23

/-- NC: one more than the highest column with T_EN 1. -/
def CoreSt.frameCols (k : CoreSt) : Nat := (upTo (min 4096 (modeCols k.mode))).foldl (fun m c => if k.tEn c then c + 1 else m) 0

/-- Offset of the derivative codes in a frame. -/
def frameCodeAt (nr : Nat) : Nat := (0x20 + 2 * nr + 3) / 4 * 4

/-- Bytes of one frame, a multiple of 64. -/
def CoreSt.frameSize (k : CoreSt) : Nat := (frameCodeAt k.nRows + 4 * k.frameCols + 63) / 64 * 64

/-- X_i of R175, and whether it clamped. -/
def CoreSt.xInput (k : CoreSt) (i : Nat) : Int × Bool :=
  let v := if k.rTrack i then k.rInCode i - k.cZp (k.rStart i) else Tab.get k.xsum 0 i
  (clampI (-32767) 32767 v, decide (v < -32767 ∨ 32767 < v))

/-- The frame that core k writes for forward step n, with the number of X values that clamped. -/
def CoreSt.frame (k : CoreSt) (n : Nat) : List Byte × Nat :=
  let nc := k.frameCols
  let xs := k.rowsUsed.map k.xInput
  let clamps := (xs.filter fun x => x.2).length
  let body := toLe 8 n ++ toLe 4 k.tScale.toNat ++ toLe 2 k.nRows ++ toLe 2 nc ++ toLe 4 (b2n (clamps != 0)) ++ zeros 12
    ++ xs.flatMap fun x => toLe 2 (toField 16 x.1)
  let codes := (upTo nc).flatMap fun c => toLe 2 (toField 16 (Tab.get k.deriv 0 c)) ++ toLe 2 (toField 16 (Tab.get k.seedCode 0 c))
  (fitBytes k.frameSize (fitBytes (frameCodeAt k.nRows) body ++ codes), clamps)

/-- The cores of a network that write log frames, ascending. -/
def State.logCores (s : State) (n : NetSt) : List Nat := (sortNat n.cores).filter fun c => (s.core c).logEn

/-- Address of core c's frame of forward step f in the activation log: slot f, cores ascending (log 20). -/
def State.frameAddr (s : State) (n : NetSt) (c f : Nat) : Nat :=
  let base := match s.regions.find? fun r => r.image == n.image && r.num + 1 == n.logRegion with
    | some r => r.base
    | none => 0
  let cs := s.logCores n
  let slot := (cs.map fun x => (s.core x).frameSize).sum
  base + f * slot + ((cs.filter (· < c)).map fun x => (s.core x).frameSize).sum

/-- Sector-memory address of the staging place of frame f. -/
def CoreSt.stageAddr (k : CoreSt) (f : Nat) : Nat := k.stgBase + f % 2 * k.frameSize

/-- The log frame of forward step f, written to the staging area and to the activation log (R174, R176). -/
def State.writeFrame (s : State) (c n f : Nat) : State :=
  let k := s.core c
  if !k.logEn then s
  else
    let r := k.frame n
    let s := s.countCore c Ctr.convSat r.2
    let s := (s.smemPoke (sectorOf c) (k.stageAddr f) r.1).smemCountCore c 1 r.1.length
    (s.gWrite (s.frameAddr (s.netOf c) c f) r.1 .compute).modCore c fun k => { k with frameReady := f + 1 }

/-- Frame f of core c prefetched into the staging area (R176). -/
def State.fetchFrame (s : State) (c f : Nat) : State :=
  let k := s.core c
  if !k.logEn then s
  else
    let r := s.gRead (s.frameAddr (s.netOf c) c f) k.frameSize .compute
    ((r.2.smemPoke (sectorOf c) (k.stageAddr f) r.1).smemCountCore c 1 r.1.length).modCore c fun k => { k with frameReady := f + 1 }

/-- A list of signed 16-bit values at step `stride` from `off`, as a table. -/
def signedTab (l : List Byte) (off stride n : Nat) : Tab Int :=
  ((upTo n).map fun i => (i, sext 16 (leAt l (off + stride * i) 2))).filter fun e => e.2 != 0

/-- The backward step paired with frame f begins: D, seeds, X and t come from the staged frame (R173, R178, R181). -/
def State.loadFrame (s : State) (c f : Nat) : State :=
  let k := s.core c
  if !k.logEn then s.setCore c { k with deriv := [], seedCode := [], xsum := [], seeds := [], tScale := f32One }
  else
    let l := memRead (s.sector (sectorOf c)).mem (k.stageAddr f) k.frameSize
    let at_ := frameCodeAt k.nRows
    let seeds := signedTab l (at_ + 2) 4 k.frameCols
    (s.setCore c { k with
      deriv := signedTab l at_ 4 k.frameCols, seedCode := seeds, seeds := seeds
      xsum := signedTab l 0x20 2 k.nRows, tScale := BitVec.ofNat 32 (leAt l 0x08 4) }).smemCountCore c 0 k.frameSize

/-! ### Row evaluation (07 R180) -/

/-- The rows of FIRE in a backward step: items in ascending row order, and the count of ERR_SAT. Rows with eps 0 are
skipped; every eps returns to 0. -/
def CoreSt.fireRows (k : CoreSt) (n : Nat) (lastStep : Bool) : List EmitItem × Nat :=
  (k.eps.map fun e =>
    let i := e.1
    let q0 := rneShift e.2 (k.errShift i)
    let q := clampI (-32767) 32767 q0
    let item : EmitItem := { typ := 4, payload := BitVec.ofNat 16 (payloadOf q), pfmt := 1, col := i, step := n }
    (if k.revEn i && q != 0 && !lastStep then [item] else [], b2n (q != q0))).foldl
    (fun (r : List EmitItem × Nat) x => (r.1 ++ x.1, r.2 + x.2)) ([], 0)

/-! ### Gradient writes (07 R181, R182) -/

/-- Columns with a contribution to row i in the LEARN in progress. -/
def CoreSt.gradCols (k : CoreSt) (i : Nat) : List Nat :=
  (Tab.keys k.learnDsum).filter fun c => k.tEn c && k.tStart c ≤ i && i < k.tStart c + k.tRows c

/-- 2^(-n) as F32. -/
def f32TwoNeg (n : Nat) : Word32 := f32OfFrac 1 (2 ^ n)

/-- g of R181 for row i and column c, and whether it clamped. -/
def CoreSt.gradient (k : CoreSt) (i c : Nat) : Int × Bool :=
  let v := f32Mul (f32Mul (f32OfInt (Tab.get k.learnX 0 i * Tab.get k.learnDsum 0 c)) k.learnT) (f32TwoNeg (fld k.trainCfg 29 24))
  let r := narrowInt v 0 (-(2 ^ 31)) (2 ^ 31 - 1)
  (r.q, r.sat)

/-- GDDR6 address of the gradient word of synapse word a (R182). -/
def CoreSt.gradAddr (k : CoreSt) (a : Nat) : Nat := k.gradBase.toNat * 64 + 4 * a

/-- Row i of the LEARN of a backward step under UPDATE_MODE (R181). -/
def State.gradRow (s : State) (c i : Nat) : State :=
  let k := s.core c
  let mode := fld k.trainCfg 31 30
  let gs := (k.gradCols i).map fun j => (j, k.gradient i j)
  let s := s.countCore c Ctr.gradSat (gs.filter fun x => x.2.2).length
  let nz := gs.filter fun x => x.2.1 != 0
  if mode = 1 then
    let r := nz.foldl (fun (r : CoreSt × WbCount) x =>
      r.1.writeWeight i x.1 (r.1.weight i x.1 - x.2.1) (synDelay k.mode (k.synWord (k.synAddr i x.1))) r.2) (s.core c, {})
    let s := (s.setCore c r.1).countWb c r.2
    (s.countCore c Ctr.synRdBytes (2 * nz.length)).countCore c Ctr.synWrBytes (2 * nz.length)
  else if 2 ≤ mode then
    let s := nz.foldl (fun (s : State) x =>
      let a := k.gradAddr (k.synAddr i x.1)
      let t := sat32 (sext 32 (leNat (s.gPeek a 4)) + x.2.1)
      (s.gPoke a (toLe 4 (toField 32 t.1))).countCore c Ctr.gradSat (b2n t.2)) s
    ((nz.map fun x => k.gradAddr (k.synAddr i x.1) / 64).dedup).foldl (fun s b =>
      (s.gddrCount (b * 64) 64 .compute 0).gddrCount (b * 64) 64 .compute 1) s
  else s

/-- The gradient LEARN of backward step n begins in the cycle in which FIRE n ends: the rows of the transposed segments
of every column with a non-zero sum are pending and visited in ascending order (R181). -/
def State.gradStart (s : State) (c n : Nat) : State :=
  let k := s.core c
  let k := { k with learnDsum := k.dsum, learnX := k.xsum, learnT := k.tScale, dsum := [] }
  let rows := k.rowsUsed.filter fun i => !(k.gradCols i).isEmpty
  let k := rows.foldl (fun k i => k.setPending i true) k
  (s.setCore c { k with learning := true, learnGrad := true, learnStep := n, learnRows := rows, learnMark := k.mark }).learnCheck c

/-! ### The rows of LEARN -/

/-- A row of a write-back page set is dirty after a write-back (12 R314). -/
def State.markDirty (s : State) (c i : Nat) : State :=
  let k := s.core c
  let inSet (p : PageSet) : Bool := p.core == c && p.writeBack &&
    ((p.buf0 ≤ k.rBase i && k.rBase i < p.buf0 + p.words) || (p.bufs == 2 && p.buf1 ≤ k.rBase i && k.rBase i < p.buf1 + p.words))
  if s.pageSets.any inSet then s.modCore c fun k => { k with dirtyRows := Tab.set k.dirtyRows false i true } else s

/-- Row i of the LEARN in progress on core c retires. -/
def State.retireRow (s : State) (c i : Nat) : State :=
  let k0 := s.core c
  let s := s.underMark c fun s =>
    if (s.core c).learnGrad then (s.gradRow c i).modCore c fun k => k.setPending i false else s.learnRow c i
  -- gradients that accumulate in GDDR6 write back no weight
  let s := if k0.learnGrad && fld k0.trainCfg 31 30 != 1 then s else s.markDirty c i
  (s.pmcEvent c 0x303 1).modCore c fun k => { k with learnRows := k.learnRows.filter (· != i) }

end Sys2Proof.Machine
end

