-- ==== Sys2Proof/Machine/ImageCheck.lean ====
section
/-! DEFINITION. ImageCheck.lean: the validity checks of step 4 of 14 R356: 00 R4, 02 R35, R39, R56, 04 R118, 05 R119,
R127, R128, R131, 06 R167, 07 R188, 08 R205, R207, R218, 15 R381, 18 R462 and the ranges of 14 R543 to R550. -/

namespace Sys2Proof.Machine

/-- An image with its cores as they would load. -/
structure Cand where
  /-- the image -/
  img : Image
  /-- its networks -/
  nets : List ImgNet
  /-- its cores, by number -/
  cores : Tab CoreSt

/-- Core c of a candidate. -/
def Cand.core (g : Cand) (c : Nat) : CoreSt := Tab.get g.cores {} c
/-- The network of core c. -/
def Cand.netOf (g : Cand) (c : Nat) : Option ImgNet := g.nets.find? fun n => n.cores.contains c
/-- The network index of core c, 16 for none. -/
def Cand.netIdx (g : Cand) (c : Nat) : Nat := ((g.netOf c).map ImgNet.idx).getD 16

/-- Cores with a section of their own. -/
def Image.coreNums (g : Image) : List Nat := (upTo 128).filter fun c => g.secs.any fun x => isCoreKind x.kind && x.target == c

/-- A candidate. -/
def Image.cand (g : Image) : Cand :=
  { img := g, nets := g.nets, cores := g.coreNums.map fun c => (c, g.buildCore c {}) }

/-- REFUSED_BAD_IMAGE, ADMISSION. -/
def badImage (core sect ofs : Nat) : Fail := { code := codeBadImage, reason := Why.admission, core, sect, ofs }

/-- ADMISSION at an offset of a core's section. -/
def Cand.bad (g : Cand) (c kind ofs : Nat) : Fail :=
  match g.img.sec? kind c with
  | some x => badImage c x.idx (x.ofs + ofs)
  | none => badImage c 0 ofs

/-- ADMISSION at a record. -/
def Rec.bad (r : Rec) : Fail := badImage (if r.kind < 0x100 then r.target else 0xFFFF) r.sect r.ofs

/-- ADMISSION at a NETWORK section. -/
def ImgNet.bad (n : ImgNet) : Fail := badImage 0xFFFF n.sec.idx n.sec.ofs

/-! ### Declared things -/

/-- 0xFFFF_FFFF -/
abbrev none32 : Nat := 0xFFFFFFFF

/-- Region `num` is declared, of KIND k. -/
def Image.regionOk (g : Image) (num k : Nat) : Bool := (g.rec? 0x0201 num).any fun r => r.at 0x10 1 == k
/-- The size of region `num`. -/
def Image.regionSize (g : Image) (num : Nat) : Nat := ((g.rec? 0x0201 num).map fun r => r.at 0x18 8).getD 0
/-- An element map is named that the image declares, or none where that is allowed. -/
def Image.mapOk (g : Image) (num : Nat) (opt : Bool) : Bool := (opt && num == none32) || (g.rec? 0x0404 num).isSome
/-- An outlier list is named that the image declares, or none, and its elements lie below n. -/
def Image.listOk (g : Image) (num n : Nat) : Bool :=
  num == none32 || ((g.rec? 0x0501 num).isSome && (g.outliers num).all (· < n))
/-- A network index of the image. -/
def Image.netOk (g : Image) (i : Nat) : Bool := (g.sec? 0x01 i).isSome

/-! ### Networks (05 R119, R127, R128; 07 R169, R188) -/

/-- A core has an ERROR route. -/
def CoreSt.hasErr (k : CoreSt) : Bool := k.rowsUsed.any k.revEn
/-- UPDATE_MODE -/
def CoreSt.updMode (k : CoreSt) : Nat := fld k.trainCfg 31 30
/-- The error maps of network i: those of its dispatch layers and of its bindings (08 R213; 14 R548). -/
def Image.errMaps (g : Image) (i : Nat) : List Nat :=
  (((g.ofKind 0x0301).filter fun r => g.bound (0x100 + 2 * r.num) == some i).map (·.at 0x1C 4)
    ++ ((g.ofKind 0x0303).filter fun r => r.at 0x14 1 == i).map (·.at 0x20 4)).filter (· != none32)
/-- The network is a training network: its image has an ERROR route, in a row table or through an error map (R169, 08 R213). -/
def Cand.trains (g : Cand) (n : ImgNet) : Bool := (n.cores.any fun c => (g.core c).hasErr) || !(g.img.errMaps n.idx).isEmpty

/-- The checks of a network against those before it. -/
def Cand.netChk (g : Cand) (earlier : List ImgNet) (n : ImgNet) : Chk :=
  let f := n.at 0x08 2
  let b := n.at 0x0A 2
  let err := g.trains n
  let upd := n.cores.any fun c => 2 ≤ (g.core c).updMode
  let lr := n.at 0x20 4
  let m := n.at 0x04 4
  let logs := n.cores.any fun c => (g.core c).logEn
  chk (decide (n.at 0x00 1 ≤ 1)
      && (!(f != 0 || b != 0 || err) || decide (1 ≤ b ∧ b ≤ f))
      && (if lr = none32 then !logs else g.img.regionOk lr 2)
      && (n.at 0x00 1 == 1 || (!err && !upd && decide (200 ≤ m ∧ m ≤ 9999900)))
      && n.cores.all fun c => earlier.all fun e => !e.cores.contains c) n.bad

/-- The checks of every network. -/
def Cand.netsChk (g : Cand) : List ImgNet → List ImgNet → Chk
  | _, [] => none
  | earlier, n :: t => match g.netChk earlier n with
    | some f => some f
    | none => g.netsChk (n :: earlier) t

/-! ### The CORE and QUEUE records (14 R545, 10 R243) -/

/-- A core's own records, and that it belongs to a network of the image. -/
def Cand.cfgChk (g : Cand) (c : Nat) : Chk :=
  let rs := g.img.recs.filter fun r => r.kind == 0x0001 && r.target == c
  let cfg (o n : Nat) : Nat := g.img.cfg c o n
  let log := nbit (cfg 0x20 4) 23
  let grad := cfg 0x2C 4
  (chk ((g.netOf c).isSome && rs.length == 1) (g.bad c 0x02 0)).or
  ((chk (rs.all fun r => r.num == 0 && decide (cfg 0x10 1 ≤ 2) && decide (cfg 0x12 2 ≤ 2048)
      && (if log then cfg 0x24 4 % 64 == 0 && decide (0x28000 ≤ cfg 0x24 4) && decide (cfg 0x24 4 + cfg 0x28 4 ≤ 0x800000)
          else cfg 0x24 4 == 0 && cfg 0x28 4 == 0)
      && (if grad = none32 then decide ((g.core c).updMode < 2) else g.img.regionOk grad 3)
      && cfg 0x30 8 % 64 == 0) (g.bad c 0x02 0)).or
  (chkAll (g.img.recs.filter fun r => r.kind == 0x0002 && r.target == c) fun r =>
    let q := r.at 0x10 4
    chk (decide (r.num < 16) && nbit q 31 && decide (nfld q 15 12 ≤ 10) && decide (nfld q 11 8 ≤ 10)
      && decide (0x28000 ≤ 256 * nfld q 30 16)
      && decide (256 * nfld q 30 16 + 32 * (2 ^ nfld q 15 12 + 2 ^ nfld q 11 8) ≤ 0x800000)) r.bad))

/-! ### Rows (04 R95, R97, R108, R118; 06 R167; 07 R188) -/

/-- The columns of row i's segment. -/
def CoreSt.segCols (k : CoreSt) (i : Nat) : List Nat := (upTo (k.rLen i)).map (· + k.rStart i)

/-- Column j is the companion of some column. -/
def CoreSt.isCompanion (k : CoreSt) (j : Nat) : Bool := k.listedCols.any fun x => k.cComp x && k.cCompanion x == j

/-- Row i belongs to a transposed segment of a core that trains. -/
def CoreSt.trained (k : CoreSt) (i : Nat) : Bool :=
  k.updMode != 0 && k.rowsUsed.any fun c => k.tEn c && k.tStart c ≤ i && i < k.tStart c + k.tRows c

/-- One loaded row on its own. -/
def CoreSt.rowOk (k : CoreSt) (bound i : Nat) : Bool :=
  let last := k.rStart i + k.rLen i - 1
  let persists := (k.segCols i).any k.cPersist
  decide (k.rDelay i ≤ k.rCeil i) && (!k.rDlEn i || bound != 0) && decide (k.rRule i ≤ 8)
    && (k.rRule i == 0 || !k.rOutlier i) && decide (last < modeCols k.mode)
    && (!k.rOutlier i || (k.segCols i).all k.isCompanion)
    && (k.cModel (k.rStart i) != 5 || k.rStart i % 2 == 0) && (k.cModel last != 5 || last % 2 == 1)
    && (!persists || k.rTrack i || (k.rRule i == 0 && !k.trained i))

/-- The weight ranges of rows i and j overlap. -/
def CoreSt.rowsMeet (k : CoreSt) (i j : Nat) : Bool :=
  decide (max (k.rBase i) (k.rBase j) < min (k.rBase i + k.rLen i) (k.rBase j + k.rLen j))

/-- Column c's transposed segment (07 R177, R188). -/
def CoreSt.transOk (k : CoreSt) (c : Nat) : Bool :=
  !k.tEn c ||
    let rows := (upTo (k.tRows c)).map (· + k.tStart c)
    (rows.all fun i => decide (i < k.nRows) && k.covers i c && !k.rOutlier i && k.rRule i == 0)
      && (rows.flatMap k.segCols).all fun j => k.colF j 0 == k.colF c 0

/-- The reverse route of row i (07 R177, R188; 04 R118). -/
def Cand.revOk (g : Cand) (c i : Nat) : Bool :=
  let k := g.core c
  !k.revEn i ||
    if k.revRing i then g.img.bound (k.revDest i) == some (g.netIdx c)
    else (g.netOf c).any fun n => n.cores.contains (k.revDest i) &&
      (g.core (k.revDest i)).tEn (k.revCol i) && (g.core (k.revDest i)).mode != 1

/-- The rows of core c. -/
def Cand.rowsChk (g : Cand) (c : Nat) : Chk :=
  let k := g.core c
  chkAll k.rowsUsed fun i =>
    chk (k.rowOk (g.img.cfg c 0x14 4) i && k.transOk i && g.revOk c i && !(k.hasErr && k.rRule i != 0)
      && (upTo i).all fun j => !k.rowsMeet i j) (g.bad c 0x03 (32 * i))

/-! ### Rules and programs (06 R158, R167; 04 R114, R118, R552) -/

/-- Rule r (1 to 8) of a core: within the store, no reserved or refused OP, END last and nowhere else. -/
def CoreSt.ruleOk (k : CoreSt) (r : Nat) : Bool :=
  let w0 := (Tab.get k.ruleTab 0 (12 * (r - 1))).toNat
  let start := nfld w0 5 0
  let len := nfld w0 13 8 + 1
  let ops := (upTo len).map fun i => fld (Tab.get k.rules 0 (start + i)) 31 26
  decide (start + len ≤ 64) && ops.all (fun o => o < 0x14) && ops.getLastD 1 == 0 && (ops.take (len - 1)).all (· != 0)

/-- The rules that the rows of core c name. -/
def Cand.rulesChk (g : Cand) (c : Nat) : Chk :=
  let k := g.core c
  chkAll ((k.rowsUsed.map k.rRule).filter (· != 0)).dedup fun r =>
    chk (k.ruleOk r) (g.bad c 0x09 (0x100 + 0x30 * (r - 1)))

/-- An instruction of a neuron program that a load accepts. -/
def progInstrOk (w : Nat) : Bool :=
  let op := nfld w 31 27
  decide (op ≤ 0x14) && (op != 0x0D || decide (nfld w 21 18 ≤ 5)) && (op != 0x14 || nfld w 5 0 != 0)

/-- Program entry p of a core. -/
def CoreSt.progOk (k : CoreSt) (trains : Bool) (p : Nat) : Bool :=
  let e := (Tab.get k.progEnt 0 p).toNat
  let start := nfld e 9 0
  let len := nfld e 16 10 + 1
  let ws := (upTo len).map fun i => (Tab.get k.prog 0 (start + i)).toNat
  !nbit e 31 || (decide (start + len ≤ 1024) && ws.all progInstrOk && nfld (ws.getLastD 0xF8000000) 31 27 == 0
    && (ws.take (len - 1)).all (fun w => nfld w 31 27 != 0) && (!trains || ws.all fun w => nfld w 31 27 != 0x14))

/-- The programs of core c. -/
def Cand.progsChk (g : Cand) (c : Nat) : Chk :=
  chkAll (upTo 32) fun p => chk ((g.core c).progOk ((g.netOf c).any g.trains) p) (g.bad c 0x08 (0x1000 + 4 * p))

/-! ### Columns (02 R39; 04 R93, R99, R103, R108, R111, R112, R117, R118; 05 R131; 06 R167) -/

/-- A scale that R39 accepts: positive, normal and finite. -/
def scaleOk (x : Word32) : Bool := !nbit x.toNat 31 && fld x 30 23 != 0 && fld x 30 23 != 255

/-- The route entries in the run of column j. -/
def CoreSt.runOf (k : CoreSt) (j : Nat) : List Nat := (upTo (k.cDests j)).map (· + k.cRoute j)

/-- The rows that column j's routes name in cores of the image: (core, row), loaded rows only. -/
def Cand.destRows (g : Cand) (c j : Nat) : List (Nat × Nat) :=
  let k := g.core c
  (k.runOf j).filterMap fun r =>
    let w := k.route r
    let m := nfld w 30 21
    let i := nfld w 20 9
    if nbit w 31 || (g.core m).nRows ≤ i then none else some (m, i)

/-- The columns that column j reaches: (core, column). -/
def Cand.reached (g : Cand) (c j : Nat) : List (Nat × Nat) :=
  (g.destRows c j).flatMap fun d => ((g.core d.1).segCols d.2).map fun x => (d.1, x)

/-- Column j on its own. -/
def CoreSt.colOk (k : CoreSt) (refresh covered : Bool) (j : Nat) : Bool :=
  let m := k.cModel j
  let et := k.cEmitType j
  (!covered || scaleOk (k.colF j 0)) && (!(2 ≤ et || k.cDelta j) || scaleOk (k.colF j 1))
    && (!k.cComp j || !k.cComp (k.cCompanion j))
    && (k.mode != 1 || (k.cZp j == 0 && !k.cPersist j && !k.cComp j))
    && (decide (m < 6) || (decide (32 ≤ m) && nbit (Tab.get k.progEnt 0 (m - 32)).toNat 31))
    && (if m < 3 then decide (et ≤ 1) else decide (32 ≤ m) || et != 1)
    && (m != 5 || k.cModel (if j % 2 = 0 then j + 1 else j - 1) == 5)
    && decide (k.cDests j ≤ 64) && (k.cDests j == 0 || decide (k.cRoute j + k.cDests j ≤ 16384))
    && !k.cMark j && !(k.cExp j == 7 && k.cRenormEn j)
    && (!k.cDelta j || (f32Eq (k.neu j 3) (f32OfInt (k.cEmitZp j))
        && !(refresh && k.cP16 j && k.cEmitZp j != 0)))

/-- A route entry of core c: a core of its network, or a ring function bound to it. -/
def Cand.routeOk (g : Cand) (c r : Nat) : Bool :=
  let w := (g.core c).route r
  if nbit w 31 then g.img.bound (nfld w 30 21) == some (g.netIdx c)
  else (g.netOf c).any fun n => n.cores.contains (nfld w 30 21)

/-- A column that column j of core c reaches: persistent for a DELTA column (R112), a zero point within -128 to +127 for
P8 payloads, those of SPIKE events among them (R39, R42). -/
def Cand.reachOk (g : Cand) (c j : Nat) (d : Nat × Nat) : Bool :=
  let k := g.core c
  let y := g.core d.1
  (!k.cDelta j || y.cPersist d.2)
    && (!(k.cEmitType j == 1 || (k.cEmitType j == 2 && !k.cP16 j && !k.cDelta j)) || decide (-128 ≤ y.cZp d.2 ∧ y.cZp d.2 ≤ 127))

/-- The columns of core c. -/
def Cand.colsChk (g : Cand) (c : Nat) : Chk :=
  let k := g.core c
  let refresh := (g.netOf c).any fun n => n.at 0x02 2 != 0
  let cover := (k.rowsUsed.flatMap k.segCols).dedup
  chkAll (k.listedCols ++ cover.filter fun j => !k.listedCols.contains j) fun j =>
    (chk (k.colOk refresh (cover.contains j) j) (g.bad c 0x04 (64 * j))).or
    ((chkAll (k.runOf j) fun r => chk (g.routeOk c r) (g.bad c 0x07 (4 * r))).or
    ((chkAll (g.reached c j) fun d => chk (g.reachOk c j d) (g.bad d.1 0x04 (64 * d.2))).or
    (chkAll (if k.cEmitType j = 3 then g.destRows c j else []) fun d =>
      chk ((g.core d.1).rRule d.2 == 0) (g.bad d.1 0x03 (32 * d.2)))))

/-- A winner-take-all group of a core (R117). -/
def CoreSt.groupOk (k : CoreSt) (grp : Nat) : Bool :=
  let js := k.listedCols.filter fun j => k.cGroup j == grp
  let lo := js.foldl min 16384
  let hi := js.foldl max 0
  hi + 1 - lo == js.length && decide (js.length ≤ 1024) && decide (k.cWtaK lo ≤ js.length)
    && js.all fun j => k.cModel j == k.cModel lo && k.cWtaK j == k.cWtaK lo && !k.cDelta j

/-- The groups, neuron records, synapses and routes of core c. -/
def Cand.restChk (g : Cand) (c : Nat) : Chk :=
  let k := g.core c
  (chkAll ((k.listedCols.map k.cGroup).filter (· != 0)).dedup fun grp =>
    chk (k.groupOk grp) (g.bad c 0x04 (64 * (k.listedCols.filter fun j => k.cGroup j == grp).foldl min 16384))).or
  ((chkAll ((Tab.keys k.neuW).map (· / 8)).dedup fun j =>
    chk (decide (fld (k.neu j 7) 15 8 ≤ k.cRefrac j)) (g.bad c 0x06 (32 * j))).or
  ((chkAll (k.syn.filter fun e => e.1 < modeWords k.mode) fun e =>
    chk (if k.mode = 1 then e.2.toNat / 16 != 0x800 else e.2.toNat != 0x8000) (g.bad c 0x05 (2 * e.1))).or
  (chk (decide ((g.img.body 0x07 c).length ≤ 65536)) (g.bad c 0x07 65536))))

/-- Every check of core c. -/
def Cand.coreChk (g : Cand) (c : Nat) : Chk :=
  (g.cfgChk c).or ((g.rowsChk c).or ((g.rulesChk c).or ((g.progsChk c).or ((g.colsChk c).or (g.restChk c)))))

/-! ### Sectors (14 R546) -/

/-- A record of a SECTOR section. -/
def Cand.sectorRec (g : Cand) (r : Rec) : Chk :=
  let w := r.at 0x10 4
  let base := r.at 0x10 4
  let len := r.at 0x14 4
  let first := r.at 0x18 2
  let cnt := r.at 0x1A 2
  let nw := r.at 0x1C 4
  chk (match r.kind with
    | 0x0101 => decide (r.num < 256) && nbit w 31 && (g.netOf (r.target * 16 + nfld w 30 27)).any fun n =>
        n.cores.contains (nfld w 26 17)
    | 0x0102 => decide (r.num < 8160) && nfld (r.at 0x18 4) 31 30 != 0
        && (!nbit nw 31 || (nfld nw 30 21 / 16 == r.target && (g.netOf (nfld nw 30 21)).isSome))
    | 0x0103 => g.img.netOk r.num && base % 64 == 0 && len % 64 == 0
        && (len == 0 || (decide (0x28000 ≤ base) && decide (base + len ≤ 0x800000)))
        && (cnt == 0 || decide (first + cnt ≤ 8160))
    | _ => true) r.bad

/-! ### Regions, page sets and replica groups (14 R547) -/

/-- A record of a REGIONS section. -/
def Cand.regionRec (g : Cand) (r : Rec) : Chk :=
  let net := r.at 0x11 1
  let size := r.at 0x18 8
  let home := r.at 0x10 4
  let words := r.at 0x20 4
  let pages := r.at 0x24 4
  let members := r.at 0x10 2
  chk (match r.kind with
    | 0x0201 => decide (r.num < 65536) && decide (1 ≤ r.at 0x10 1 ∧ r.at 0x10 1 ≤ 7) && (net == 0xFF || g.img.netOk net)
        && size != 0 && size % 65536 == 0
    | 0x0202 => (g.netOf (r.num % 128)).isSome && g.img.regionOk home 1 && decide (1 ≤ r.at 0x14 1 ∧ r.at 0x14 1 ≤ 2)
        && decide (r.at 0x15 1 ≤ 1) && (r.at 0x16 1 == 0xFF || (g.img.rec? 0x0303 (r.at 0x16 1)).isSome)
        && words != 0 && pages != 0 && r.at 0x28 4 != 0 && r.at 0x30 8 % 64 == 0
        && decide (r.at 0x30 8 + 2 * words * pages ≤ g.img.regionSize home)
        && ((numbers 8 (r.b.drop 0x38)).take (r.at 0x2C 4)).all fun e =>
          decide (nfld e 31 0 < r.at 0x28 4) && decide (nfld e 47 32 < pages)
    | 0x0203 => g.img.netOk r.num && decide (2 ≤ members ∧ members ≤ 4096) && decide (r.at 0x12 2 < members)
        && ((numbers 4 (r.b.drop 0x18)).take (members - 1)).all (· < 49152)
    | _ => true) r.bad

/-! ### Ring functions and token units (08 R190, R205, R207, R218; 14 R548, R549; 15 R377, R381) -/

/-- The record that a ring function number needs besides its BIND record: none for line and result functions. -/
def Image.fnDeclared (g : Image) (fn : Nat) : Bool :=
  if fn < 0x40 then (g.rec? 0x0402 fn).isSome
  else if fn < 0x100 then false
  else if fn < 0x120 then (g.rec? 0x0301 ((fn - 0x100) / 2)).isSome
  else if fn < 0x130 then (g.rec? 0x0304 (fn - 0x120)).isSome
  else if fn < 0x140 then (g.rec? 0x0305 (fn - 0x130)).isSome
  else if fn < 0x170 then true
  else if fn < 0x190 then (g.rec? 0x0403 (fn - 0x170)).isSome
  else false

/-- Every destination of a map is a loaded row of a core of network i. -/
def Cand.rowDests (g : Cand) (m : ElemMap) (i : Nat) : Bool :=
  (g.img.net? i).any fun n => m.dests.all fun d => n.cores.contains d.1 && decide (d.2 < (g.core d.1).nRows)

/-- Every destination of an error map is a column of a core of network i that ERROR events can reach: below 4,096, with T_EN 1, on a
core not in S12D4 mode (07 R188). -/
def Cand.colDests (g : Cand) (num i : Nat) : Bool :=
  num == none32 || (g.img.net? i).any fun n => (g.img.elemMap num).dests.all fun d =>
    n.cores.contains d.1 && decide (d.2 < 4096) && (g.core d.1).tEn d.2 && (g.core d.1).mode != 1

/-- The columns that a map's events reach: (core, column). -/
def Cand.mapCols (g : Cand) (m : ElemMap) : List (Nat × Nat) :=
  m.dests.flatMap fun d => ((g.core d.1).segCols d.2).map fun j => (d.1, j)

/-- z of a sample format (15 R383): U8, U16, S16. -/
def formatZ (fmt : Nat) : Int := if fmt = 0 then -128 else if fmt = 1 then -32768 else 0

/-- An ELEMENT_MAP record on its own: counts, and runs within the destination list; a core number beyond the device is
refused wherever it stands (00 R4). -/
def Rec.mapOk (r : Rec) : Bool :=
  let ne := r.at 0x10 4
  let no := r.at 0x14 4
  let nd := r.at 0x18 4
  decide (1 ≤ ne ∧ ne ≤ 65536) && decide (no ≤ 8)
    && (((numbers 4 (r.b.drop 0x20)).take ne).all fun w => decide (nfld w 23 0 + nfld w 27 24 + 1 ≤ nd))
    && (((numbers 8 (r.b.drop (0x20 + 4 * ne))).take no).all fun w =>
      decide (nfld w 15 0 < ne) && decide (nfld w 39 16 + nfld w 43 40 + 1 ≤ nd))
    && r.elemMap.dests.all fun d => d.1 < 128

/-- An INGEST record (15 R381). -/
def Cand.ingestOk (g : Cand) (r : Rec) : Bool :=
  let fk := r.at 0x10 1
  let fmt := r.at 0x11 1
  let delta := r.at 0x12 1
  let ne := r.at 0x14 4
  let m := g.img.elemMap (r.at 0x18 4)
  let net := (g.img.bound r.num).getD 16
  decide (r.num < 64) && decide (fk ≤ 2) && decide (1 ≤ ne ∧ ne ≤ 65536) && g.img.mapOk (r.at 0x18 4) false
    && g.img.netOk net && decide (ne ≤ m.elems.length) && g.rowDests m net
    && (if fk = 0 then decide (fmt ≤ 2) && decide (delta ≤ 1) && !(delta == 1 && fmt == 1)
          && decide (ne * (if fmt = 0 then 1 else 2) ≤ 65520)
          && (g.mapCols m).all fun d => (g.core d.1).cZp d.2 == formatZ fmt && (delta == 0 || (g.core d.1).cPersist d.2)
        else fmt == 0 && delta == 0 && (fk != 2 || decide (ne ≤ 4096)))

/-- A record of a RING_FUNCS section. -/
def Cand.ringRec (g : Cand) (r : Rec) : Chk :=
  chk (match r.kind with
    | 0x0401 => g.img.netOk (r.at 0x10 1) && g.img.fnDeclared r.num
    | 0x0402 => g.ingestOk r
    | 0x0403 =>
      let m := g.img.elemMap (r.at 0x14 4)
      decide (r.num < 32) && decide (r.at 0x10 4 < 49152) && g.img.mapOk (r.at 0x14 4) false
        && decide (m.elems.length ≤ 4096) && m.elems.all (fun d => d.length == 1)
        && g.img.listOk (r.at 0x18 4) 4096 && (g.img.bound (0x170 + r.num)).isSome
    | 0x0404 => r.mapOk
    | _ => true) r.bad

/-- An outlier list (02 R56). -/
def listRec (r : Rec) : Chk :=
  let l := (numbers 2 ((r.b.drop 0x18).take 16)).take (r.at 0x10 1)
  chk (decide (r.at 0x10 1 ≤ 8) && l.dedup.length == l.length) r.bad

/-- A record of a TOKENS section. -/
def Cand.tokenRec (g : Cand) (r : Rec) : Chk :=
  let i := g.img
  let flows (o n : Nat) : Bool := ((numbers 4 (r.b.drop o)).take n).all (· < 49152)
  chk (match r.kind with
    | 0x0301 =>
      let n := r.at 0x10 2
      let net := (i.bound (0x100 + 2 * r.num)).getD 16
      decide (r.num < 16) && decide (1 ≤ n ∧ n ≤ 4096) && decide (1 ≤ r.at 0x12 1 ∧ r.at 0x12 1 ≤ 4)
        && decide (r.at 0x13 1 ≤ 1) && i.listOk (r.at 0x14 4) n && decide (1 ≤ r.at 0x18 2 ∧ r.at 0x18 2 ≤ 1024)
        && i.netOk net && i.bound (0x101 + 2 * r.num) == some net
        && i.mapOk (r.at 0x1C 4) true && g.colDests (r.at 0x1C 4) net
    | 0x0302 =>
      let d := i.rec? 0x0301 (r.num / 1024)
      d.any (fun x => decide (r.num % 1024 < x.at 0x18 2)) && decide (1 ≤ r.at 0x12 1 ∧ r.at 0x12 1 ≤ 64)
        && flows 0x18 (r.at 0x12 1)
    | 0x0303 =>
      let net := r.at 0x14 1
      let m := i.elemMap (r.at 0x1C 4)
      decide (r.num < 64) && decide (1 ≤ r.at 0x12 2 ∧ r.at 0x12 2 ≤ 4096) && i.netOk net
        && ((i.net? net).any fun n => n.at 0x00 1 == 1)
        && ((i.ofKind 0x0303).all fun x => x.at 0x14 1 == net && (x.num == r.num || x.at 0x10 2 != r.at 0x10 2))
        && r.at 0x15 1 != 0 && decide (1 ≤ r.at 0x16 1 ∧ r.at 0x16 1 ≤ 63) && decide (r.at 0x17 1 ≤ 1)
        && decide (10 ≤ r.at 0x18 4 ∧ r.at 0x18 4 ≤ 1000000)
        && i.mapOk (r.at 0x1C 4) false && decide (r.at 0x12 2 ≤ m.elems.length) && g.rowDests m net
        && i.mapOk (r.at 0x20 4) true && g.colDests (r.at 0x20 4) net
        && (r.at 0x24 1 == 0xFF || (i.rec? 0x0304 (r.at 0x24 1)).any fun x => x.at 0x10 1 == r.num)
        && (r.at 0x26 2 == 0xFFFF || (i.ofKind 0x0202).any fun x => x.num / 128 == r.at 0x26 2)
        && decide (1 ≤ r.at 0x28 2 ∧ r.at 0x28 2 ≤ 4096) && flows 0x30 (r.at 0x28 2)
    | 0x0304 =>
      let b := i.rec? 0x0303 (r.at 0x10 1)
      decide (r.num < 16) && decide (r.at 0x11 1 ≤ 1) && decide (1 ≤ r.at 0x12 2 ∧ r.at 0x12 2 ≤ 4096)
        && i.listOk (r.at 0x14 4) (r.at 0x12 2)
        && b.any fun x => i.bound (0x120 + r.num) == some (x.at 0x14 1)
    | 0x0305 =>
      let p := r.at 0x10 1
      let net := (i.bound (0x130 + r.num)).getD 16
      let m := i.elemMap (r.at 0x14 4)
      decide (r.num < 16) && ((i.rec? 0x0301 p).any fun x => decide (x.at 0x10 2 ≤ m.elems.length))
        && decide (r.at 0x11 1 ≤ 1) && decide (1 ≤ r.at 0x12 1 ∧ r.at 0x12 1 ≤ 63)
        && i.netOk net && i.bound (0x100 + 2 * p) == some net && i.mapOk (r.at 0x14 4) false && g.rowDests m net
    | 0x0306 => decide (r.num < 49152) && decide (r.at 0x10 2 ≤ 256)
    | _ => true) r.bad

/-- The maps of the token functions that write to cores: (function, map). -/
def Image.tokenMaps (g : Image) : List (Nat × ElemMap) :=
  (g.ofKind 0x0303).map (fun r => (r.num, g.elemMap (r.at 0x1C 4)))
    ++ (g.ofKind 0x0305).map fun r => (0x130 + r.num, g.elemMap (r.at 0x14 4))

/-- Columns fed by a token function take no event from another source (08 R205). -/
def Cand.tokenFedChk (g : Cand) : Chk :=
  let fed := g.img.tokenMaps.map fun x => (x.1, (g.mapCols x.2).dedup)
  let isFed (d : Nat × Nat) : Bool := fed.any fun x => x.2.contains d
  (chkAll g.img.tokenMaps fun x => chkAll ((g.mapCols x.2).dedup) fun d =>
    chk (fed.all fun y => y.1 == x.1 || !y.2.contains d) (g.bad d.1 0x04 (64 * d.2))).or
  ((chkAll (g.img.ofKind 0x0402) fun r => chk ((g.mapCols (g.img.elemMap (r.at 0x18 4))).all fun d => !isFed d) r.bad).or
  (if fed.isEmpty then none
   else chkAll (Tab.keys g.cores) fun c => chkAll (g.core c).listedCols fun j =>
    chk ((g.reached c j).all fun d => !isFed d) (g.bad c 0x04 (64 * j))))

/-- Columns that events of P8 token bodies reach, of a binding or of a TOKEN ingest function, have a zero point within -128 to +127
(02 R39; 08 R205; 15 R387). -/
def Cand.tokenZpChk (g : Cand) : Chk :=
  let maps := (g.img.ofKind 0x0303).map (·.at 0x1C 4) ++ ((g.img.ofKind 0x0402).filter fun r => r.at 0x10 1 == 2).map (·.at 0x18 4)
  chkAll maps fun num => chkAll (g.mapCols (g.img.elemMap num)).dedup fun d =>
    chk (decide (-128 ≤ (g.core d.1).cZp d.2 ∧ (g.core d.1).cZp d.2 ≤ 127)) (g.bad d.1 0x04 (64 * d.2))

/-- The columns routed to ring function fn: (core, column, DEST_ROW). -/
def Cand.columnsTo (g : Cand) (fn : Nat) : List (Nat × Nat × Nat) :=
  (Tab.keys g.cores).flatMap fun c =>
    let k := g.core c
    k.listedCols.flatMap fun j => (k.runOf j).filterMap fun r =>
      let w := k.route r
      if nbit w 31 && nfld w 30 21 == fn then some (c, j, nfld w 20 9) else none

/-- The maps of an image through which token functions write to cores: element maps and error maps (08 R207, R213). -/
def Cand.writtenMaps (g : Cand) : List ElemMap :=
  g.img.tokenMaps.map Prod.snd ++ ((g.nets.flatMap fun n => g.img.errMaps n.idx).map g.img.elemMap)

/-- A core that an element map names has a token credit (08 R207), and one that no token function writes to has none (14 R545); a
combiner also writes to the router columns of its layer (08 R214). -/
def Cand.creditChk (g : Cand) (c : Nat) : Chk :=
  let credit := g.img.cfg c 0x12 2
  let named := g.writtenMaps.any fun m => m.dests.any fun d => d.1 == c
  let router := (g.img.ofKind 0x0305).any fun r => (g.columnsTo (0x101 + 2 * r.at 0x10 1)).any fun x => x.1 == c
  chk (if named then credit != 0 else credit == 0 || router) (g.bad c 0x02 0)

/-- Columns routed to one element input share EMIT_SCALE, with EMIT_ZP 0 (08 R194, R218). -/
def Cand.inputChk (g : Cand) (fn : Nat) : Chk :=
  let l := g.columnsTo fn
  let first := (l.head?.map fun x => (g.core x.1).colF x.2.1 1).getD 0
  chkAll l fun x => chk ((g.core x.1).colF x.2.1 1 == first && (g.core x.1).cEmitZp x.2.1 == 0) (g.bad x.1 0x04 (64 * x.2.1))

/-- A router group (08 R191, R218). -/
def Cand.routerChk (g : Cand) (fn : Nat) : Chk :=
  let l := g.columnsTo fn
  chkAll l fun x =>
    let k := g.core x.1
    chk (k.cModel x.2.1 == 4 && !k.cDelta x.2.1 && l.all fun y =>
      (g.core y.1).colF y.2.1 1 == k.colF x.2.1 1 && (g.core y.1).cEmitZp y.2.1 == k.cEmitZp x.2.1)
      (g.bad x.1 0x04 (64 * x.2.1))

/-- The inputs of every packer of the image. -/
def Cand.packersChk (g : Cand) : Chk :=
  (chkAll (g.img.ofKind 0x0301) fun r => (g.inputChk (0x100 + 2 * r.num)).or (g.routerChk (0x101 + 2 * r.num))).or
  (chkAll (g.img.ofKind 0x0304) fun r => g.inputChk (0x120 + r.num))

/-! ### Ensign networks (18 R462) -/

/-- A core's contents with every core that a route or reverse route names replaced by its image under m. -/
def CoreSt.mapped (k : CoreSt) (m : Nat → Nat) : CoreSt :=
  { k with
    routeW := k.routeW.map fun e => (e.1, if nbit e.2.toNat 31 then e.2 else put e.2 30 21 (m (fld e.2 30 21)))
    rowW := k.rowW.map fun e => (e.1, if e.1 % 8 = 7 && !nbit e.2.toNat 30 then put e.2 29 20 (m (fld e.2 29 20)) else e.2) }

/-- Two cores hold the same: one is a copy of the other. -/
def CoreSt.sameAs (x y : CoreSt) : Bool :=
  x.nRows == y.nRows && x.mode == y.mode && x.rowW == y.rowW && x.colW == y.colW && x.neuW == y.neuW && x.routeW == y.routeW
    && x.syn == y.syn && x.prog == y.prog && x.progEnt == y.progEnt && x.rules == y.rules && x.ruleTab == y.ruleTab
    && x.traceSets == y.traceSets

/-- An ensign network. -/
def Cand.ensignOk (g : Cand) (n : ImgNet) : Bool :=
  let secs := (n.cores.map sectorOf).dedup
  let north := n.cores.filter fun c => sectorOf c < 4
  let south := n.cores.filter fun c => 4 ≤ sectorOf c
  let m (c : Nat) : Nat := south.getD (north.findIdx (· == c)) c
  n.at 0x00 1 == 0 && secs.length == 2 && !north.isEmpty && north.length == south.length
    && ((north.zip south).all fun p => ((g.core p.1).mapped m).sameAs (g.core p.2))
    && ((g.img.ofKind 0x0402).all fun r => g.img.bound r.num != some n.idx ||
        (g.img.elemMap (r.at 0x18 4)).elems.all fun ds => ds.any (fun d => sectorOf d.1 < 4) && ds.any fun d => 4 ≤ sectorOf d.1)
    && n.cores.all fun c =>
      let k := g.core c
      k.listedCols.all fun j => (k.runOf j).all fun r =>
        !nbit (k.route r) 31 || decide (0x148 ≤ nfld (k.route r) 30 21 ∧ nfld (k.route r) 30 21 < 0x150)

/-- The ENSIGN sections. -/
def Cand.ensignChk (g : Cand) : Chk :=
  chkAll (g.img.secs.filter fun x => x.kind == 0x10) fun x =>
    chk ((g.img.net? x.target).any g.ensignOk) (badImage 0xFFFF x.idx x.ofs)

/-! ### Step 4 -/

/-- Every core of a network has its sections. -/
def Cand.membersChk (g : Cand) : Chk :=
  chkAll g.nets fun n => chkAll n.cores fun c =>
    chk (g.img.sec? 0x02 c).isSome (badImage c n.sec.idx (n.sec.ofs + 0x10))

/-- Step 4 of R356 for a compute image, in the order of the manual's chapters (log 51). -/
def Cand.validity (g : Cand) : Chk :=
  (g.netsChk [] g.nets).or (g.membersChk.or
  ((chkAll (g.img.ofKind 0x0404) g.ringRec).or ((chkAll (g.img.ofKind 0x0501) listRec).or
  ((chkAll (Tab.keys g.cores) g.coreChk).or
  ((chkAll (g.img.recs.filter fun r => r.kind / 256 == 1) g.sectorRec).or
  ((chkAll (g.img.recs.filter fun r => r.kind / 256 == 2) g.regionRec).or
  ((chkAll (g.img.recs.filter fun r => r.kind / 256 == 4) g.ringRec).or
  ((chkAll (g.img.recs.filter fun r => r.kind / 256 == 3) g.tokenRec).or
  ((chkAll (Tab.keys g.cores) g.creditChk).or
  (g.tokenFedChk.or (g.tokenZpChk.or (g.packersChk.or g.ensignChk))))))))))))

end Sys2Proof.Machine
end

