-- ==== Sys2Proof/Machine/ImageFit.lean ====
section
/-! DEFINITION. ImageFit.lean: the fit checks of step 5 of 14 R356 (04 R118, R551, 03 R70, 07 R188, 05 R119, 01 R22,
09 R230, 17 R437, 20 R515, 12 R310, R311) and the placement of regions. -/

namespace Sys2Proof.Machine

/-- REFUSED_DOES_NOT_FIT. -/
def noFit (reason core sect ofs : Nat) (hard : Bool) : Fail := { code := codeNoFit, reason, core, sect, ofs, hard }

/-- A shortfall of a core's own: no device state could remove it. -/
def Cand.hard (g : Cand) (c kind ofs : Nat) : Fail :=
  match g.img.sec? kind c with
  | some x => noFit Why.admission c x.idx (x.ofs + ofs) true
  | none => noFit Why.admission c 0 ofs true

/-! ### Capacity of a core (04 R118, 14 R551) -/

/-- The last synapse word that core k's rows use, plus 1. -/
def CoreSt.wordsUsed (k : CoreSt) : Nat := k.rowsUsed.foldl (fun m i => max m (k.rBase i + k.rLen i)) 0

/-- Capacity of core c. -/
def Cand.capChk (g : Cand) (c : Nat) : Chk :=
  let k := g.core c
  let cols := modeCols k.mode
  let len (kind : Nat) : Nat := ((g.img.sec? kind c).map Sec.len).getD 0
  let grad := g.img.cfg c 0x2C 4
  (chk (decide (k.nRows ≤ 4096)) (g.hard c 0x03 (32 * 4096))).or
  ((chkAll k.rowsUsed fun i => chk (decide (k.rBase i + k.rLen i ≤ modeWords k.mode)) (g.hard c 0x03 (32 * i))).or
  ((chk (decide (len 0x04 ≤ 64 * cols)) (g.hard c 0x04 (64 * cols))).or
  ((chk (decide (len 0x06 ≤ 32 * cols)) (g.hard c 0x06 (32 * cols))).or
  ((chk (decide (len 0x05 ≤ 3145728)) (g.hard c 0x05 3145728)).or
  ((chk (decide (g.img.cfg c 0x14 4 ≤ 32768)) (g.hard c 0x02 0x14)).or
  ((chkAll ((g.img.ofKind 0x0202).filter fun r => r.num % 128 == c) fun r =>
    chk (decide (r.at 0x18 4 + r.at 0x20 4 ≤ modeWords k.mode)
      && (r.at 0x14 1 == 1 || decide (r.at 0x1C 4 + r.at 0x20 4 ≤ modeWords k.mode))) (g.hard c 0x05 0)).or
  ((chk (!k.logEn || decide (2 * k.frameSize ≤ k.stgLen)) (g.hard c 0x02 0)).or
  (chk (grad == none32 || decide (g.img.cfg c 0x30 8 + 4 * k.wordsUsed ≤ g.img.regionSize grad)) (g.hard c 0x02 0)))))))))

/-- The activation log of a network holds its F frames (07 R188). -/
def Cand.logChk (g : Cand) (n : ImgNet) : Chk :=
  let slot := ((n.cores.filter fun c => (g.core c).logEn).map fun c => (g.core c).frameSize).sum
  chk (slot == 0 || decide (n.at 0x08 2 * slot ≤ g.img.regionSize (n.at 0x20 4)))
    (noFit Why.admission 0xFFFF n.sec.idx (n.sec.ofs + 0x20) true)

/-! ### Slots, cores and ring units in use -/

/-- Free network slots, ascending. -/
def State.freeSlots (s : State) : List Nat := (upTo 16).filter fun k => (s.net k).image == 0

/-- Slots for the networks. -/
def State.slotChk (s : State) (g : Cand) : Chk :=
  match g.nets.drop s.freeSlots.length with
  | [] => none
  | n :: _ => some (noFit Why.noSlot 0xFFFF n.sec.idx n.sec.ofs false)

/-- A core that the image needs is free and not UNAVAILABLE (01 R22, 05 R119). -/
def State.coreFree (s : State) (c : Nat) : Bool :=
  (s.core c).net == 0 && (s.sector (sectorOf c)).mstate (indexOf c) != 2

/-- The image's cores. -/
def State.coresChk (s : State) (g : Cand) : Chk :=
  chkAll (Tab.keys g.cores) fun c =>
    chk (s.coreFree c) { (g.hard c 0x02 0) with reason := Why.coreUnavailable, hard := false }

/-- No binding of a loaded image has the expert ID of one of this image (08 R218): REFUSED_BAD_IMAGE, before the image's fit is looked
at (14 R356). -/
def State.expertChk (s : State) (g : Cand) : Chk :=
  chkAll (g.img.ofKind 0x0303) fun r =>
    chk ((Tab.keys s.binds).all fun b => !(s.bind b).valid || (s.bind b).expert != r.at 0x10 2) r.bad

/-- Ring functions and token units that loaded images hold; the bindings of a device have one home network (08 R200). -/
def State.unitChk (s : State) (g : Cand) : Chk :=
  let at_ (r : Rec) : Fail := noFit Why.admission 0xFFFF r.sect r.ofs false
  (chkAll (g.img.ofKind 0x0401) fun r => chk ((s.rfn r.num).net == 0) (at_ r)).or
  ((chkAll (g.img.ofKind 0x0303) fun r => chk ((Tab.keys s.binds).all fun b => !(s.bind b).valid) (at_ r)).or
  ((chkAll (g.img.ofKind 0x0301) fun r => chk (!(s.dp r.num).valid) (at_ r)).or
  ((chkAll (g.img.ofKind 0x0304) fun r => chk (!(s.rp r.num).valid) (at_ r)).or
  (chkAll (g.img.ofKind 0x0305) fun r => chk (!(s.comb r.num).valid) (at_ r)))))

/-! ### Scheduled streams (09 R227 to R230) -/

/-- A scheduled stream: source sector, entry, and its word. -/
abbrev Sched := Nat × Nat × Nat

/-- The hops from sector n to sector d: (sector left, output port). -/
def hopsTo : Nat → Nat → Nat → List (Nat × Nat)
  | 0, _, _ => []
  | fuel + 1, n, d => if n = d then [] else (n, towards n d) :: hopsTo fuel (neighbour n (towards n d)) d

/-- Hops of a stream. -/
def schedHops (x : Sched) : List (Nat × Nat) := hopsTo 5 x.1 (sectorOf (nfld x.2.2 26 17))

/-- Link uses of a stream: (sector * 4 + port, frame cycle, lane). -/
def schedUses (x : Sched) : List (Nat × Nat × Nat) :=
  let h := schedHops x
  (upTo h.length).filterMap fun k => (h[k]?).map fun p => (p.1 * 4 + p.2, (nfld x.2.2 16 11 + 4 * k) % 64, nfld x.2.2 10 9)

/-- The receive-queue write of a stream: (core, frame cycle). -/
def schedWrite (x : Sched) : Nat × Nat := (nfld x.2.2 26 17, (nfld x.2.2 16 11 + 4 * (schedHops x).length) % 64)

/-- Streams x stands among `all`: lanes, links and receive queues within R230. -/
def schedOk (all : List Sched) (x : Sched) : Bool :=
  let others := all.filter fun y => y.1 != x.1 || y.2.1 != x.2.1
  let uses := others.flatMap schedUses
  let writes := others.map schedWrite
  ((schedUses x).all fun u => !uses.contains u && decide ((uses.filter fun v => v.1 == u.1 && v.2.1 == u.2.1).length < 2))
    && !writes.contains (schedWrite x) && decide ((writes.filter fun v => v.1 == (schedWrite x).1).length < 32)

/-- The valid entries of every router. -/
def State.schedAll (s : State) : List Sched :=
  (upTo 8).flatMap fun n => (s.sector n).schedTab.filterMap fun e =>
    if nbit e.2.toNat 31 then some (n, e.1, e.2.toNat) else none

/-- The sectors of a stream's path share a frequency group: sectors that run are raised to the common operating point (01
R25; 16 R409, R410). -/
def State.schedGroup (s : State) (x : Sched) : Bool :=
  (s.sector x.1).powered && (schedHops x).all fun p => (s.sector (neighbour p.1 p.2)).powered

/-- The scheduled streams of the image, with every stream already loaded. -/
def State.schedChk (s : State) (g : Cand) : Chk :=
  let rs := g.img.ofKind 0x0101
  let mine : List Sched := rs.map fun r => (r.target, r.num, r.at 0x10 4)
  chkAll rs fun r =>
    let x : Sched := (r.target, r.num, r.at 0x10 4)
    let alone := schedOk mine x
    chk (alone && schedOk (s.schedAll ++ mine) x && (s.schedAll.all fun y => y.1 != x.1 || y.2.1 != x.2.1) && s.schedGroup x)
      (noFit Why.admission 0xFFFF r.sect r.ofs (!alone))

/-! ### Sector memory (17 R437, 20 R515) -/

/-- Data that the image places in sector memory: (sector, base, length, section, offset in the image). -/
def Cand.smemData (g : Cand) : List (Nat × Nat × Nat × Nat × Nat) :=
  (g.img.ofKind 0x0002).map (fun r =>
      let q := r.at 0x10 4
      (sectorOf r.target, 256 * nfld q 30 16, 32 * (2 ^ nfld q 15 12 + 2 ^ nfld q 11 8), r.sect, r.ofs))
    ++ (g.img.ofKind 0x0001).map (fun r => (sectorOf r.target, r.at 0x24 4, r.at 0x28 4, r.sect, r.ofs))
    ++ (g.img.ofKind 0x0103).map fun r => (r.target, r.at 0x10 4, r.at 0x14 4, r.sect, r.ofs)

/-- Data that loaded images have in sector n's memory: (base, length). -/
def State.smemUsed (s : State) (n : Nat) : List (Nat × Nat) :=
  ((s.sector n).grants.map fun g => (g.2.1, g.2.2.1))
    ++ (Tab.keys s.cores).flatMap fun c =>
      if sectorOf c ≠ n then []
      else ((s.core c).stgBase, (s.core c).stgLen) :: (s.core c).queues.filterMap fun e =>
        let q := e.2.cfg.toNat
        if nbit q 31 then some (256 * nfld q 30 16, 32 * (2 ^ nfld q 15 12 + 2 ^ nfld q 11 8)) else none

/-- A range reaches the trace staging banks 62 and 63. -/
def inTraceBanks (base len : Nat) : Bool := len != 0 && decide (0x7C0000 < base + len)

/-- A range lies in a failed bank of sector n. -/
def State.inFailedBank (s : State) (n base len : Nat) : Bool :=
  len != 0 && (upTo 64).any fun b => nbit (Tab.get s.ao.badBanks 0 n).toNat b
    && decide (max base (b * 0x20000) < min (base + len) (b * 0x20000 + 0x20000))

/-- Failed banks and the trace staging area. -/
def State.bankChk (s : State) (g : Cand) : Chk :=
  let own := (g.img.ofKind 0x0201).any fun r => r.at 0x10 1 == 5
  let other := s.regions.any fun r => r.kind == 5
  (chkAll g.smemData fun d =>
    let tr := inTraceBanks d.2.1 d.2.2.1
    chk (!s.inFailedBank d.1 d.2.1 d.2.2.1 && !(tr && (own || other)))
      (noFit Why.admission 0xFFFF d.2.2.2.1 d.2.2.2.2 (tr && own))).or
  (if own && (upTo 8).any fun n => (s.smemUsed n).any fun u => inTraceBanks u.1 u.2 then
    chkAll ((g.img.ofKind 0x0201).filter fun r => r.at 0x10 1 == 5) fun r =>
      some (noFit Why.admission 0xFFFF r.sect r.ofs false)
   else none)

/-! ### GDDR6 regions (12 R309 to R311) -/

/-- A size rounded up to 64 KiB. -/
def round64K (n : Nat) : Nat := (n + 65535) / 65536 * 65536

/-- The lowest multiple of 64 KiB from lo on at which `size` bytes meet no range and stay below hi. -/
def placeAt (lo hi size : Nat) (taken : List (Nat × Nat)) : Option Nat :=
  ((lo :: taken.map fun t => round64K (t.1 + t.2)).filter fun b =>
    decide (lo ≤ b) && decide (b + size ≤ hi) && taken.all fun t => t.2 == 0 || decide (b + size ≤ t.1) || decide (t.1 + t.2 ≤ b)).foldl
    (fun m b => match m with | none => some b | some a => some (min a b)) none

/-- Places for a list of sizes, in order. -/
def placeAll (lo hi : Nat) : List Nat → List (Nat × Nat) → Option (List Nat)
  | [], _ => some []
  | n :: t, taken => match placeAt lo hi n taken with
    | none => none
    | some b => (placeAll lo hi t ((b, n) :: taken)).map (b :: ·)

/-- The ranges of placed regions. -/
def State.placed (s : State) : List (Nat × Nat) := s.regions.map fun r => (r.base, r.size)

/-- The regions of an image to place: the matrix-image copy of R443, then its REGION records in ascending number. -/
def Image.wanted (g : Image) : List (Nat × Rec) :=
  ((sortNat ((g.ofKind 0x0201).map Rec.num)).filterMap fun n => g.rec? 0x0201 n).map fun r => (r.at 0x18 8, r)

/-- The bases of the matrix-image copy and of the declared regions, avoiding `avoid`. -/
def State.placeImage (s : State) (g : Image) (avoid : List (Nat × Nat)) : Option (List Nat) :=
  placeAll (round64K s.gddr.imageBase) s.gddr.top (round64K g.bytes.length :: g.wanted.map Prod.fst) (avoid ++ s.placed)

/-- Placement of every region. -/
def State.regionChk (s : State) (g : Cand) (avoid : List (Nat × Nat)) : Chk :=
  if (s.placeImage g.img avoid).isSome then none
  else
    let total := round64K g.img.bytes.length + (g.img.wanted.map Prod.fst).sum
    let x := g.img.sec? 0x0C 0xFFFF
    some (noFit Why.admission 0xFFFF ((x.map Sec.idx).getD 0) ((x.map Sec.ofs).getD 0)
      (decide (s.gddr.top - s.gddr.imageBase < total)))

/-! ### Step 5 -/

/-- Step 5 of R356. -/
def State.fitChk (s : State) (g : Cand) (avoid : List (Nat × Nat)) : Chk :=
  (chkAll (Tab.keys g.cores) g.capChk).or ((chkAll g.nets g.logChk).or
  ((s.slotChk g).or ((s.coresChk g).or ((s.unitChk g).or ((s.schedChk g).or ((s.bankChk g).or (s.regionChk g avoid)))))))

end Sys2Proof.Machine
end

