-- ==== Sys2Proof/Machine/Clock.lean ====
section
/-! DEFINITION. Clock.lean: sector clocks (16 R409, R410, R412, R417): operating points and their relocks, stretching, and
the gating of idle sectors. -/

namespace Sys2Proof.Machine

/-- The highest operating point that the board's setpoint allows (R409). -/
def BoardSt.op (b : BoardSt) : Nat := if 750 ≤ b.setpoint then 0 else if 720 ≤ b.setpoint then 1 else if 700 ≤ b.setpoint then 2 else 3

/-- A scheduled stream's path meets sector n. -/
def schedMeets (n : Nat) (x : Sched) : Bool := x.1 == n || (schedHops x).any fun p => neighbour p.1 p.2 == n

/-- The operating point that sector n is to have: the common one with a core of a loaded network or a scheduled path
across it, else OP3 (R409, R410). -/
def State.opFor (s : State) (n : Nat) : Nat :=
  if ((Tab.keys s.cores).any fun c => sectorOf c == n && (s.core c).net != 0) || s.schedAll.any (schedMeets n) then s.board.op
  else 3

/-- The operating point that a sector has, or is being locked to. -/
def SectorSt.opSet (q : SectorSt) : Nat := if q.opNext = 0 then q.op else q.opNext - 1

/-- Sectors whose operating point is to change are stopped for a relock; each change counts (R410). -/
def State.retune (s : State) : State :=
  (upTo 8).foldl (fun s n =>
    let t := s.opFor n
    if !(s.sector n).powered || (s.sector n).opSet = t then s
    else (s.modSector n fun q => { q with opNext := t + 1, stopped := true, aligned := false }).countSec n Ctr.freqChange) s

/-- What is in flight on link l towards sector n lands in the buffer behind it, where it has its room. -/
def State.landLink (s : State) (n l : Nat) : State :=
  let q := ((s.sector n).link l).inFlight
  if q.isEmpty then s else q.foldl (fun s it => s.flitIn n l it) (s.modLink n l fun k => { k with inFlight := [], replay := false })

/-- The mesh links of sector n in both directions carry nothing any more (01 R24): a link switches its mode empty. -/
def State.emptyLinks (s : State) (n : Nat) : State :=
  ([0, 1, 2] : List Nat).foldl (fun s p => (s.landLink n p).landLink (neighbour n p) (farLink p)) s

/-- PLL_RELOCK_COMPLETE: the sector resumes at its new operating point, its links empty; after the last sector of the change
the alignment pulse is sent. -/
def execPllRelockComplete (sector : SectorId) (s : State) : Res :=
  .next <|
    let n := sector.val
    if (s.sector n).opNext = 0 then s
    else
      let s := (s.emptyLinks n).modSector n fun q => { q with op := q.opNext - 1, opNext := 0, stopped := false }
      if (upTo 8).any fun i => (s.sector i).stopped then s
      else s.alignPulse

/-- The clock of sector n is stretched: PWR_WARN or THROTTLE holds while the sector is clocked (R412, R424). -/
def State.stretched (s : State) (n : Nat) : Bool :=
  let q := s.sector n
  (s.ao.pwrWarn || s.ao.throttle) && q.powered && !q.stopped && !q.gated

/-- A scheduled path of a running network forbids that sector n gates (R417). -/
def State.noGate (s : State) (n : Nat) : Bool :=
  s.schedAll.any fun x => schedMeets n x && (s.netOf (nfld x.2.2 26 17)).running

/-- The sequencer waits for an interrupt, is halted, or has no program (log 56). -/
def SeqSt.idle (q : SeqSt) (halted : Bool) : Bool := q.wfi || halted || q.imem.isEmpty

/-- Nothing in a core keeps its sector's clock (R417). -/
def CoreSt.idleCore (k : CoreSt) : Bool :=
  k.rq.isEmpty && (Tab.get k.delay [] (k.step % 64)).isEmpty && k.eq.isEmpty && k.fireWait.isEmpty && k.lookup.isNone
    && k.fetch.isNone && k.seeds.isEmpty && k.phase != 2 && !k.learning && k.seq.idle k.seqHalted
    && (Tab.keys k.wake).all fun a => a / 16384 != k.step % 64

/-- Sector n may gate. -/
def State.mayGate (s : State) (n : Nat) : Bool :=
  let q := s.sector n
  q.powered && !q.stopped && !q.gated && s.ao.pstate == 0 && !s.noGate n
    && ((Tab.keys s.cores).all fun c => sectorOf c != n || (s.core c).idleCore)
    && q.toDesc.isEmpty && q.moves.isEmpty && q.toSync.isEmpty && q.toCore.isEmpty && q.toRing.isEmpty
    && (q.inp.all fun i => i.2.be.isEmpty && i.2.sched.isEmpty) && q.links.all fun l => l.2.inFlight.isEmpty

/-- SECTOR_GATE: a sector that has been idle for 64 cycles enters P1. -/
def execSectorGate (sector : SectorId) (s : State) : Res :=
  .next <|
    let n := sector.val
    if s.mayGate n then s.platform ((s.modSector n fun q => { q with gated := true }).countSec n Ctr.sectorGate) else s

/-- SECTOR_UNGATE: an offered flit, a tick or a Halyard request ungates the sector. -/
def execSectorUngate (sector : SectorId) (s : State) : Res :=
  .next <|
    if (s.sector sector.val).gated then s.platform (s.modSector sector.val fun q => { q with gated := false }) else s

end Sys2Proof.Machine
end

