-- ==== Sys2Proof/Machine/Port.lean ====
section
/-! DEFINITION. Port.lean: the fabric ports (11 R266 to R278, R297 to R299): frames, go-back-N, credit, forwarding,
training, time exchange and fault injection. -/

namespace Sys2Proof.Machine

/-! ### Port states (R268) -/

abbrev portDown : Nat := 0
abbrev portTraining : Nat := 1
abbrev portMeasure : Nat := 2
abbrev portUp : Nat := 3
abbrev portRetrain : Nat := 4
abbrev portFailed : Nat := 5

/-! ### Segments (R279) -/

/-- A segment header with its data. -/
structure Seg where
  /-- DST_DEV -/
  dstDev : Nat
  /-- SRC_DEV -/
  srcDev : Nat
  /-- DST_FLOW -/
  dstFlow : Nat
  /-- EPOCH -/
  epoch : Nat
  /-- MSEQ -/
  mseq : Nat
  /-- MKIND -/
  kind : Nat
  /-- VC -/
  vc : Nat
  /-- HOPS_LEFT -/
  hops : Nat
  /-- SEG -/
  seg : Nat
  /-- LAST -/
  last : Bool
  /-- MLEN -/
  mlen : Nat
  /-- E2E_CRC -/
  crc : Nat
  /-- segment data -/
  data : List Byte
  deriving DecidableEq, Repr

/-- Word A. -/
def Seg.wordA (g : Seg) : Nat := g.dstDev % 65536 * 2 ^ 48 + g.srcDev % 65536 * 2 ^ 32 + g.dstFlow % 65536 * 2 ^ 16 + g.epoch % 65536
/-- Word B with a HOPS_LEFT. -/
def Seg.wordB (g : Seg) (hops : Nat) : Nat :=
  g.mseq % 2 ^ 32 * 2 ^ 32 + g.kind % 16 * 2 ^ 28 + g.vc % 4 * 2 ^ 26 + hops % 64 * 2 ^ 20 + g.seg % 64 * 2 ^ 14 + b2n g.last * 2 ^ 13

/-- E2E_CRC of a segment: CRC-32C over words A and B, HOPS_LEFT taken as 0, and the data. -/
def Seg.e2e (g : Seg) : Nat := (crc32c (toLe 8 g.wordA ++ toLe 8 (g.wordB 0) ++ g.data)).toNat

/-- Bytes rounded up to a multiple of m. -/
def roundUp (n m : Nat) : Nat := (n + m - 1) / m * m

/-- The payload of the DATA frame that carries a segment, in multiples of 8 bytes (R271). -/
def Seg.bytes (g : Seg) : List Byte :=
  toLe 8 g.wordA ++ toLe 8 (g.wordB g.hops) ++ toLe 4 g.crc ++ toLe 4 g.mlen ++ fitBytes (roundUp g.data.length 8) g.data

/-- The segment in a payload: its data are the bytes of the message that its index and MLEN give it. -/
def parseSeg (p : List Byte) : Seg :=
  let a := leAt p 0 8
  let b := leAt p 8 8
  let mlen := leAt p 20 4
  let seg := nfld b 19 14
  { dstDev := nfld a 63 48, srcDev := nfld a 47 32, dstFlow := nfld a 31 16, epoch := nfld a 15 0
    mseq := nfld b 63 32, kind := nfld b 31 28, vc := nfld b 27 26, hops := nfld b 25 20, seg := seg, last := nbit b 13
    mlen := mlen, crc := leAt p 16 4, data := (p.drop 24).take (min 1024 (mlen - 1024 * seg)) }

/-- The segments of a message (R279). -/
def segsOf (dstDev srcDev dstFlow epoch mseq kind vc : Nat) (body : List Byte) : List Seg :=
  let n := (body.length + 1023) / 1024
  (upTo n).map fun i =>
    let g : Seg := { dstDev := dstDev, srcDev := srcDev, dstFlow := dstFlow, epoch := epoch, mseq := mseq, kind := kind, vc := vc
                     hops := 63, seg := i, last := i + 1 == n, mlen := body.length, crc := 0, data := (body.drop (1024 * i)).take 1024 }
    { g with crc := g.e2e }

/-! ### Routing (R276 to R278) -/

/-- The port and message channel by which a device is reached: the primary while it is UP, else a valid alternate. -/
def State.routeTo (s : State) (dev : Nat) : Option (Nat × Nat) :=
  let e := (Tab.get s.routes 0 dev).toNat
  let up (p : Nat) : Bool := p < 12 && (s.port p).state == portUp
  if !nbit e 15 then none
  else if up (nfld e 14 11) then some (nfld e 14 11, nfld e 10 9)
  else if nbit e 8 && up (nfld e 7 4) then some (nfld e 7 4, nfld e 3 2)
  else none

/-- A frame queued at port p. -/
def State.queueFrame (s : State) (p vc : Nat) (fwd : Bool) (src : Nat) (payload : List Byte) : State :=
  s.modPort p fun o => { o with txQ := o.txQ ++ [{ vc := vc, fwd := fwd, src := src, payload := payload }] }

/-- A waiting frame as it leaves by a route of message channel v: one of this device takes that channel, a forwarded one keeps
the channel of its header (log 26). -/
def Frame.onRoute (f : Frame) (v : Nat) : Frame :=
  if f.fwd || f.vc = 2 || f.vc = v then f
  else
    let g := { parseSeg f.payload with vc := v }
    { f with vc := v, payload := { g with crc := g.e2e }.bytes }

/-- The frames that wait at port p and that another port now reaches go there; those that no port reaches wait on (R278). -/
def State.reroutePort (s : State) (p : Nat) : State :=
  (s.port p).txQ.foldl (fun s f =>
    match s.routeTo (parseSeg f.payload).dstDev with
    | none => s
    | some (q, v) =>
      if q = p then s
      else (s.modPort p fun o => { o with txQ := o.txQ.erase f }).modPort q fun o => { o with txQ := o.txQ ++ [f.onRoute v] }) s

/-- The port of each frame that waits chosen anew, as a port becomes UP or leaves UP, or the route table is replaced (R276, R278). -/
def State.reroute (s : State) : State := (upTo 12).foldl State.reroutePort s

/-! ### Frames (R271) -/

/-- Bytes of a frame with n payload bytes, from its link word to its trailer. -/
def frameBytes (n : Nat) : Nat := 16 + n

/-- The virtual channel whose credit an outgoing frame returns: the one most is owed to. -/
def PortSt.creditVc (o : PortSt) : Nat :=
  (upTo 3).foldl (fun b v => if Tab.get o.owed 0 b < Tab.get o.owed 0 v then v else b) 0

/-- The link word of an outgoing frame. -/
def PortSt.linkWord (o : PortSt) (ltype lseq len : Nat) : Nat :=
  let v := o.creditVc
  ltype % 16 * 2 ^ 60 + lseq % 256 * 2 ^ 50 + o.rxSeq % 256 * 2 ^ 42 + b2n o.retryDue * 2 ^ 41 + v * 2 ^ 39
    + min 511 (Tab.get o.owed 0 v / 64) * 2 ^ 30 + len % 2048 * 2 ^ 19

/-- A frame as bytes; the link CRC covers link word and payload. -/
def frameOf (linkWord : Nat) (payload : List Byte) : List Byte :=
  let l := toLe 8 linkWord ++ payload
  l ++ toLe 4 (crc32 l).toNat ++ zeros 4

/-- What sending a frame does to its port: the credit in its link word is returned and LRETRY has been sent. -/
def PortSt.sentWord (o : PortSt) : PortSt :=
  let v := o.creditVc
  { o with owed := Tab.set o.owed 0 v (Tab.get o.owed 0 v - min 511 (Tab.get o.owed 0 v / 64) * 64), retryDue := false }

/-- A DATA or CTRL frame sent, from which the 200 ns of R274 run. -/
def PortSt.sentFrame (o : PortSt) (now : Nat) : PortSt := { o.sentWord with txAt := now }

/-- Bytes sent at a port counted; a forwarded frame counts in both (20 R512, R514). -/
def State.countTx (s : State) (p n : Nat) (fwd : Bool) : State :=
  let s := s.countPort p Ctr.oxpTxBytes n
  if fwd then s.countPort p Ctr.oxpFwdBytes n else s

/-- Bytes sent out of a port, with any frame that SWAP held back behind them. -/
def State.putFrame (s : State) (p : Nat) (bytes : List Byte) (corrupt : Bool) : State :=
  let held := (s.port p).swapped
  let s := (s.send (.frame p 1 bytes corrupt)).modPort p fun o => { o with swapped := [] }
  held.foldl (fun s b => s.send (.frame p 1 b false)) s

/-- One bit of the segment data flipped: which one is free (R297). -/
def flipBit (n : Nat) (payload : List Byte) : List Byte :=
  let bits := 8 * (payload.length - 24)
  let i := if bits = 0 then 0 else n % bits
  let b := payload.getD (24 + i / 8) 0
  putBytes payload (24 + i / 8) [b ^^^ BitVec.ofNat 8 (2 ^ (i % 8))]

/-- A fresh DATA frame of port p transmitted, under any injection (R297). -/
def State.transmit (s : State) (p : Nat) (f : Frame) (word : Nat) : State :=
  let o := s.port p
  let due := o.injMode ≠ 0 && o.injN ≤ o.injCount + 1
  let n := frameBytes f.payload.length
  let s := s.modPort p fun o => { o with injCount := if o.injMode = 0 then 0 else if due then 0 else o.injCount + 1 }
  if !due then (s.putFrame p (frameOf word f.payload) false).countTx p n f.fwd
  else
    let s := s.countPort p Ctr.faultInjected
    match o.injMode with
    | 1 => s
    | 2 => (s.putFrame p (frameOf word f.payload) true).countTx p n f.fwd
    | 3 => ((s.putFrame p (frameOf word (flipBit (Config.freeNat s.free) f.payload)) false).drawn).countTx p n f.fwd
    | _ => (s.modPort p fun o => { o with swapped := o.swapped ++ [frameOf word f.payload] }).countTx p n f.fwd

/-- The first waiting frame whose channel holds credit for its whole length (R275). -/
def PortSt.nextTx (o : PortSt) : Option Frame :=
  o.txQ.find? fun f => frameBytes f.payload.length ≤ Tab.get o.credit 32768 f.vc

/-- DATA_FRAME_SEND: the next frame to be resent, or a fresh frame within the window of 64 and its channel's credit. -/
def execDataFrameSend (port : PortId) (s : State) : Res :=
  .next <|
    let p := port.val
    let o := s.port p
    if o.state ≠ portUp then s
    else if 0 < o.resend then
      match o.replay[o.replay.length - o.resend]? with
      | none => s
      | some f =>
        let word := o.linkWord 1 f.lseq (f.payload.length / 8)
        let s := s.modPort p fun o =>
          { o.sentFrame s.now with
            replay := o.replay.set (o.replay.length - o.resend) { f with resent := f.resent + 1 }
            resend := o.resend - 1, unacked := 0 }
        ((s.putFrame p (frameOf word f.payload) false).countTx p (frameBytes f.payload.length) f.fwd).countPort p Ctr.linkRetry
    else if 64 ≤ o.replay.length then s
    else match o.nextTx with
    | none => s
    | some f =>
      let n := frameBytes f.payload.length
      let word := o.linkWord 1 o.txSeq (f.payload.length / 8)
      let s := s.modPort p fun o =>
        { o.sentFrame s.now with
          txQ := o.txQ.erase f, replay := o.replay ++ [{ f with lseq := o.txSeq, resent := 0 }], txSeq := (o.txSeq + 1) % 256
          credit := Tab.set o.credit 32768 f.vc (Tab.get o.credit 32768 f.vc - n)
          lackAt := if o.replay.isEmpty then s.now else o.lackAt, unacked := 0 }
      let s := if f.src = 0 then s else s.modPort (f.src - 1) fun q =>
        { q with owed := Tab.set q.owed 0 f.vc (Tab.get q.owed 0 f.vc + n) }
      s.transmit p f word

/-- LACK and LRETRY of a received frame (R274). -/
def PortSt.ackBy (o : PortSt) (now lack : Nat) (lretry : Bool) : PortSt :=
  let left := o.replay.dropWhile fun f => (lack + 256 - f.lseq) % 256 < 64
  let moved := left.length < o.replay.length
  let left := if moved then left.map fun f => { f with resent := 0 } else left
  { o with replay := left, resend := if lretry then left.length else min o.resend left.length
           lackAt := if moved then now else o.lackAt }

/-- Credit returned for a channel, in units of 64 bytes (R271). -/
def PortSt.credited (o : PortSt) (vc units : Nat) : PortSt :=
  { o with credit := Tab.set o.credit 32768 vc (min 32768 (Tab.get o.credit 32768 vc + 64 * units)) }

/-- A rejected frame, or a gap: later frames are discarded until the resend, and LRETRY is sent once (R274). -/
def PortSt.gap (o : PortSt) : PortSt := { o with rxGap := true, retryDue := o.retryDue || !o.rxGap }

/-- The outcome of the checks of a received frame: the state, and whether the frame goes on (R273). -/
def State.checkFrame (s : State) (p : Nat) (check : FrameCheck) : State × Bool :=
  match check with
  | .good => (s, true)
  | .fecCorrected => (s.countPort p Ctr.linkFecCorr, true)
  | .fecUncorrectable => ((s.countPort p Ctr.linkFecUncorr).modPort p PortSt.gap, false)
  | .crcError => ((s.countPort p Ctr.linkCrcErr).modPort p PortSt.gap, false)

/-- The buffer space of a payload on channel vc of port p is free again. -/
def State.freeRx (s : State) (p vc n : Nat) : State :=
  s.modPort p fun o => { o with owed := Tab.set o.owed 0 vc (Tab.get o.owed 0 vc + n) }

/-- An accepted segment forwarded, or discarded in FWD_DROP (R277). Its channel stays that of its header (log 26). -/
def State.forward (s : State) (p : Nat) (payload : List Byte) : State :=
  let g := parseSeg payload
  let drop (s : State) : State := (s.countPort p Ctr.fwdDrop).freeRx p g.vc (frameBytes payload.length)
  if g.hops = 0 then drop s
  else match s.routeTo g.dstDev with
  | none => drop s
  | some (q, _) => s.queueFrame q g.vc true (p + 1) ({ g with hops := g.hops - 1 }.bytes)

/-- DATA_FRAME_RECEIVE: checked, acknowledged, and accepted when its LSEQ is one above the last. -/
def execDataFrameReceive (port : PortId) (lseq : Byte) (lack : Byte) (lretry : Bool) (cvc : Fin 3) (credit : Nat)
    (payload : List Byte) (check : FrameCheck) (s : State) : Res :=
  .next <|
    let p := port.val
    if (s.port p).state ≠ portUp then s
    else
      let r := s.checkFrame p check
      if !r.2 then r.1
      else
        let s := r.1.modPort p fun o => (o.ackBy s.now lack.toNat lretry).credited cvc.val credit
        let o := s.port p
        if lseq.toNat ≠ (o.rxSeq + 1) % 256 then
          -- a frame already accepted is discarded; any other is a gap
          if (o.rxSeq + 256 - lseq.toNat) % 256 < 64 then s else s.modPort p PortSt.gap
        else
          let s := s.modPort p fun o => { o with rxSeq := lseq.toNat, rxGap := false, unacked := o.unacked + 1 }
          let s := s.countPort p Ctr.oxpRxBytes (frameBytes payload.length)
          if (parseSeg payload).dstDev ≠ s.deviceId then s.forward p payload
          else s.modPort p fun o => { o with rxQ := o.rxQ ++ [payload] }

/-- CTRL_FRAME_RECEIVE: LACK, LRETRY and credit. -/
def execCtrlFrameReceive (port : PortId) (lack : Byte) (lretry : Bool) (cvc : Fin 3) (credit : Nat) (check : FrameCheck)
    (s : State) : Res :=
  .next <|
    let p := port.val
    if (s.port p).state ≠ portUp then s
    else
      let r := s.checkFrame p check
      if !r.2 then r.1
      else (r.1.modPort p fun o => (o.ackBy s.now lack.toNat lretry).credited cvc.val credit).countPort p Ctr.oxpRxBytes 16

/-- CTRL_FRAME_SEND: after 16 frames, after 200 ns without an outgoing frame, or for an LRETRY. -/
def execCtrlFrameSend (port : PortId) (s : State) : Res :=
  .next <|
    let p := port.val
    let o := s.port p
    if o.state ≠ portUp || !(16 ≤ o.unacked || o.retryDue || o.txAt + 200 ≤ s.now) then s
    else
      let word := o.linkWord 2 0 0
      let s := s.modPort p fun o => { o.sentFrame s.now with unacked := 0 }
      (s.send (.frame p 2 (frameOf word []) false)).countTx p 16 false

/-- LINK_ACK_TIMEOUT: 2 µs without LACK advancing while frames are outstanding. -/
def execLinkAckTimeout (port : PortId) (s : State) : Res :=
  .next <|
    let p := port.val
    let o := s.port p
    if o.state ≠ portUp || o.replay.isEmpty || s.now < o.lackAt + 2000 then s
    else s.modPort p fun o => { o with resend := o.replay.length, lackAt := s.now }

/-! ### Training (R268 to R270) -/

/-- LINKS_READY once every enabled port is UP or FAILED (R268, 17 R433), from the end of phase 5 on. -/
def State.checkLinks (s : State) : State :=
  if 4 ≤ s.boot.phase && s.boot.phase ≤ 8 && (upTo 12).all fun p => !(s.port p).enabled || (s.port p).state == portUp || (s.port p).state == portFailed
  then s.platform (s.modBoot fun b => { b with linksReady := true }) else s

/-- LANES at which a port trains, from its bad lanes and the pair it was degraded to: none where the attempt fails. A
degraded port stays at 2 lanes (R269). -/
def trainLanes (bad : BitVec 4) (lanes : Nat) : Option Nat :=
  let lo := fld bad 1 0 == 0
  let hi := fld bad 3 2 == 0
  if lo && hi then some lanes
  else if lo then some 1
  else if hi then some 2
  else none

/-- The port trains: in TRAINING or RETRAIN, or DOWN after a port reset, from which the firmware trains it (R268, log 86). -/
def State.trains (s : State) (p : Nat) : Bool :=
  let o := s.port p
  o.state == portTraining || o.state == portRetrain || (o.state == portDown && o.trainDue && s.ao.pstate != 3)

/-- PORT_TRAINING_COMPLETE: the port enters MEASURE, tries again, or FAILED after three failures within 10 s. -/
def execPortTrainingComplete (port : PortId) (badLanes : BitVec 4) (s : State) : Res :=
  .next <|
    let p := port.val
    let o := s.port p
    if !s.trains p then s
    else match trainLanes badLanes o.lanes with
    | some l =>
      s.modPort p fun o => { o with
        state := portMeasure, lanes := l, laneBad := badLanes, rounds := 0, trainDue := false
        events := if l = 0 then o.events else nsetBit o.events 0 }
    | none =>
      let times := (s.now :: o.failTimes).filter fun t => s.now < t + 10000000000
      if 3 ≤ times.length then
        (s.modPort p fun o => { o with state := portFailed, trainDue := false, laneBad := badLanes, failTimes := times, events := nsetBit o.events 1 }).checkLinks
      else s.modPort p fun o => { o with state := portTraining, trainDue := false, laneBad := badLanes, failTimes := times }

/-- RETRAIN_TRIGGER: an UP port enters RETRAIN; the replay buffer is kept. -/
def execRetrainTrigger (port : PortId) (cause : RetrainCause) (s : State) : Res :=
  .next <|
    let p := port.val
    let o := s.port p
    if o.state ≠ portUp || (cause = .resends && !o.replay.any fun f => 16 ≤ f.resent) then s
    else ((s.modPort p fun o => { o with state := portRetrain, events := nsetBit o.events 2 }).countPort p Ctr.linkRetrain).reroute

/-! ### Time exchange (R298) -/

/-- A TIME frame. -/
def State.sendTime (s : State) (p t1 t2 t3 : Nat) : State :=
  let word := (s.port p).linkWord 3 0 3
  let s := s.modPort p PortSt.sentWord
  (s.send (.frame p 3 (frameOf word (toLe 8 t1 ++ toLe 8 t2 ++ toLe 8 t3)) false)).countTx p 40 false

/-- TIME_EXCHANGE: 8 rounds begin with the first T1: in MEASURE, and on an UP port 100 ms after the last exchange began. -/
def execTimeExchange (port : PortId) (s : State) : Res :=
  .next <|
    let p := port.val
    let o := s.port p
    if o.state ≠ portMeasure && !(o.state = portUp && o.exchAt + 100000000 ≤ s.now) then s
    else (s.modPort p fun o => { o with rounds := 8, best := none, exchAt := s.now }).sendTime p s.now 0 0

/-- The round kept of two: the smaller d (R298). -/
def betterRound (best : Option (Int × Int)) (r : Int × Int) : Int × Int :=
  match best with
  | some b => if r.2 < b.2 then r else b
  | none => r

/-- The measurement written at the end of 8 rounds; a port in MEASURE is UP and resends what its replay buffer holds. -/
def PortSt.measured (o : PortSt) (now : Nat) (r : Int × Int) : PortSt :=
  let dt : Int := ((now + 2 ^ 32 - o.at_.toNat) % 2 ^ 32 : Nat)
  let rate : Int := if o.ofsValid && dt ≠ 0 then (r.1 - sext 32 o.offset.toNat) * 100000000 / dt else 0
  { o with
    offset := BitVec.ofInt 32 r.1, delay := (r.2 % 65536).toNat, rate := BitVec.ofNat 32 (toField 16 rate), at_ := BitVec.ofNat 32 now
    ofsValid := true, rounds := 0, best := none
    state := portUp, resend := if o.state = portMeasure then o.replay.length else o.resend
    lackAt := if o.state = portMeasure then now else o.lackAt }

/-- A TIME frame of the exchange: an initiator's T1 is answered at once; an answer completes a round of this end. -/
def State.takeTime (s : State) (p t1 t2 t3 : Nat) (answer : Bool) : State :=
  let o := s.port p
  if !answer then s.sendTime p t1 s.now s.now
  else if o.rounds = 0 then s
  else
    let d (x y : Nat) : Int := (x : Int) - (y : Int)
    let t4 := s.now
    let th := (d t2 t1 - d t4 t3) / 2
    let de := (d t4 t1 - d t3 t2) / 2
    let b := betterRound o.best (th, de)
    if 1 < o.rounds then (s.modPort p fun o => { o with rounds := o.rounds - 1, best := some b }).sendTime p s.now 0 0
    else ((s.modPort p fun o => o.measured s.now b).checkLinks).reroute

/-- TIME_FRAME_RECEIVE: checked as every frame; its link word carries LACK, LRETRY and credit (R271, R274). `answer` false is
an initiator's T1. -/
def execTimeFrameReceive (port : PortId) (t1 : Word64) (t2 : Word64) (t3 : Word64) (frame : TimeFrame) (s : State) : Res :=
  .next <|
    let p := port.val
    if (s.port p).state ≠ portMeasure && (s.port p).state ≠ portUp then s
    else
      let r := s.checkFrame p frame.check
      if !r.2 then r.1
      else
        let s := (r.1.modPort p fun o =>
          (o.ackBy s.now frame.lack.toNat frame.lretry).credited frame.cvc.val frame.credit).countPort p Ctr.oxpRxBytes 40
        s.takeTime p t1.toNat t2.toNat t3.toNat frame.answer

/-! ### Resets and injection -/

/-- FABRIC_PORT_RESET: the replay buffer clears, injection stops, and the port is DOWN, from which the firmware trains it
again where it is enabled (R268, R270, R297, 17 R444). The port's registers return to their reset values; frames that only
wait for it take another port where one reaches their destination (R278, log 86). -/
def execFabricPortReset (port : PortId) (s : State) : Res :=
  .next <|
    let p := port.val
    let s := ((s.clearCtrs 4 p).modPort p fun o => { o with state := portDown }).reroute
    let o := s.port p
    s.setPort p { enabled := o.enabled, variant := o.variant, trainDue := o.enabled, txQ := o.txQ }

end Sys2Proof.Machine
end

