-- ==== Sys2Proof/Machine/RingPort.lean ====
section
/-! DEFINITION. RingPort.lean: how the I/O ring injects events for a network (05 R124, R133; 02 R49): the step they
belong to, the counts of the quiescence rule, and the token scales that an expansion sets. -/

namespace Sys2Proof.Machine

/-- The next cutoff of a DEADLINE network: C_n, moved by a debug hold (20 R501). -/
def State.nextCut (s : State) (k : Nat) : Nat := if (s.net k).held then s.now + (s.net k).holdRest else (s.net k).cN

/-- The step whose cutoff is the next to come at the ring port (05 R124): the current step while its cutoff is still to
come, else the next. -/
def State.ringStep (s : State) (k : Nat) : Nat :=
  let n := s.net k
  let open_ := n.running && n.phase != 0 && (if n.lockstep then n.phase == 1 else n.held || decide (s.now < n.cN))
  if open_ then n.step else n.step + 1

/-- An event tagged for a step enters the sector of its destination core through the sector's ring port; one with an
unassigned core enters sector 0 and is dropped there (09 R225). RING is set, SRC_INDEX is 0 and SRC_SECTOR names the
sector of the ring port (02 R40, 03 R62). -/
def State.ringPut (s : State) (step : Nat) (e : EvItem) : State :=
  let c := evCore e.ev
  let n := if c < 128 then sectorOf c else 0
  s.inject n (.event { e with tag := step % 4, ev := put (put e.ev 6 2 16) 10 7 n })

/-- An event that ring function fn injects for step `step`, counted in its sent total of the tag (05 R133). -/
def State.ringEvent (s : State) (fn step : Nat) (e : EvItem) : State :=
  (s.ringPut step e).modRfn fn fun r =>
    { r with sent := Tab.set r.sent 0 (step % 4) (Tab.get r.sent 0 (step % 4) + 1) }

/-- An event of an EVENTS message injected for network k, counted in the ring port's total (05 R133; log 27). -/
def State.flowRingEvent (s : State) (k step : Nat) (e : EvItem) : State :=
  (s.ringPut step e).modNet k fun n =>
    { n with ringSent := Tab.set n.ringSent 0 (step % 4) (Tab.get n.ringSent 0 (step % 4) + 1) }

/-- t, and t_out where given, of step `step` for the columns of the row that event e is written to (02 R49, 08 R205): at once when
its core is in that step, else when it begins. The core's log frame carries the last t set (log 78). -/
def State.setT (s : State) (e : Word64) (step : Nat) (t : Word32) (tOut : Option Word32) : State :=
  s.modCore (evCore e) fun k =>
    let u := tOut.getD f32One
    if k.step = step && (k.phase = 1 || k.phase = 2) then
      { k with tScale := t, tOut := u, tokT := Tab.set k.tokT (f32One, f32One) (evRow e) (t, u) }
    else { k with tAhead := some (t, u), tokTAhead := Tab.set k.tokTAhead (f32One, f32One) (evRow e) (t, u) }

/-- Ring function fn has marked the end of its input for a step (05 R133). -/
def State.closeRing (s : State) (fn step : Nat) : State := s.modRfn fn fun r => { r with closedStep := max r.closedStep (step + 1) }

/-- The ring functions bound to network k, by number: those in the function table (1,024 stands for the unpacker, log 33). -/
def State.ringsOf (s : State) (k : Nat) : List Nat := (Tab.keys s.rfns).filter fun f => (s.rfn f).net == k + 1

end Sys2Proof.Machine
end

