-- ==== Sys2Proof/Machine/Flow.lean ====
section
/-! DEFINITION. Flow.lean: flows of the fabric (11 R279 to R295): contexts, retention, assembly, acknowledgement, commit
records, the handshake, and what an EVENTS, SYNC_INC, BULK or TOKEN message does at its receiver. -/

namespace Sys2Proof.Machine

/-! ### Sequence numbers and states (R283, R284) -/

abbrev flowClosed : Nat := 0
abbrev flowOpening : Nat := 1
abbrev flowOpen : Nat := 2
abbrev flowClosing : Nat := 3
abbrev flowReopening : Nat := 4

/-- a ≤ b modulo 2^32 (R284). -/
def seqLe (a b : Nat) : Bool := (b + 2 ^ 32 - a % 2 ^ 32) % 2 ^ 32 < 2 ^ 31

/-- The next sequence number. -/
def seqNext (a : Nat) : Nat := (a + 1) % 2 ^ 32

/-! ### Space in the retransmit region and the staging pool (R286, R287) -/

/-- 64-byte units of a retained message: a 16-byte record, then the body. -/
def recUnits (len : Nat) : Nat := (16 + len + 63) / 64

/-- 64-byte units of a staged message. -/
def stgUnits (len : Nat) : Nat := (len + 63) / 64

/-- First start at or after which n units of [0, size) are free of the used (start, length) pieces. -/
def firstFree (size n : Nat) (used : List (Nat × Nat)) : Option Nat :=
  (sortNat (0 :: used.map fun u => u.1 + u.2)).find? fun a => a + n ≤ size && used.all fun u => a + n ≤ u.1 || u.1 + u.2 ≤ a

/-- The flows that are not CLOSED. -/
def State.openFlows (s : State) : List FlowSt := (s.flows.map Prod.snd).filter fun f => f.fstate != flowClosed

/-- Bytes written to a circular space of `size` units from unit `lo` of an area at `base`, at unit `at_`. -/
def State.ringWrite (s : State) (base lo size at_ : Nat) (bytes : List Byte) : State :=
  let room := 64 * (lo + size - at_)
  (s.gWrite (base + 64 * at_) (bytes.take room) .fabric).gWrite (base + 64 * lo) (bytes.drop room) .fabric

/-- Retransmit units of a flow. -/
def FlowSt.rtxUnits (f : FlowSt) : Nat := f.rtxQuota / 64

/-- Units that a flow's retained messages take. -/
def FlowSt.rtxUsed (f : FlowSt) : Nat := (f.rtx.map fun m => recUnits m.body.length).sum

/-- A position of the flow's retransmit space, n units on. -/
def FlowSt.rtxStep (f : FlowSt) (at_ n : Nat) : Nat := f.rtxAt + (at_ - f.rtxAt + n) % max 1 f.rtxUnits

/-- Free staging credit beyond RX_ARRIVED, in units of 64 bytes (R288). -/
def FlowSt.stgFree (f : FlowSt) : Nat := f.stgQuota / 64 - (f.stage.map fun m => stgUnits m.body.length).sum

/-! ### Commit records (R290) -/

/-- A commit record. Its 32 bytes hold these fields in this order, then a CRC-32 (log 28). -/
structure Commit where
  /-- PEER_DEV -/
  peerDev : Nat
  /-- PEER_FLOW -/
  peerFlow : Nat
  /-- EPOCH -/
  epoch : Nat
  /-- valid -/
  valid : Bool
  /-- NEXT_SEQ -/
  next : Nat
  /-- ACKED_SEQ -/
  acked : Nat
  /-- RX_WM -/
  wm : Nat
  /-- RTX_HEAD -/
  head : Nat
  /-- RTX_TAIL -/
  tail : Nat
  deriving DecidableEq, Repr

/-- The record as bytes. -/
def Commit.bytes (c : Commit) : List Byte :=
  let l := toLe 2 c.peerDev ++ toLe 2 c.peerFlow ++ toLe 2 c.epoch ++ toLe 2 (b2n c.valid) ++ toLe 4 c.next ++ toLe 4 c.acked
    ++ toLe 4 c.wm ++ toLe 4 c.head ++ toLe 4 c.tail
  l ++ toLe 4 (crc32 l).toNat

/-- The record in memory. -/
def State.commitOf (s : State) (f : Nat) : Commit :=
  let l := s.gPeek (commitBase + 32 * f) 32
  { peerDev := leAt l 0 2, peerFlow := leAt l 2 2, epoch := leAt l 4 2, valid := nbit (leAt l 6 2) 0, next := leAt l 8 4
    acked := leAt l 12 4, wm := leAt l 16 4, head := leAt l 20 4, tail := leAt l 24 4 }

/-- The record of flow f is valid and its CRC holds. -/
def State.commitGood (s : State) (f : Nat) : Bool :=
  let l := s.gPeek (commitBase + 32 * f) 32
  (s.commitOf f).valid && leAt l 28 4 == (crc32 (l.take 28)).toNat

/-- The record of flow f changed and written. -/
def State.commitMod (s : State) (f : Nat) (g : Commit → Commit) : State :=
  s.gWrite (commitBase + 32 * f) (g (s.commitOf f)).bytes .system

/-- Every field of the record written from the context. -/
def State.commitAll (s : State) (f : Nat) : State :=
  let x := s.flow f
  s.commitMod f fun _ => { peerDev := x.peerDev, peerFlow := x.peerFlow, epoch := x.epoch, valid := true, next := x.nextSeq
                           acked := x.ackedSeq, wm := x.rxWm, head := x.rtxHead, tail := x.rtxTail }

/-! ### Sending (R279, R286, R289) -/

/-- A message put on the wire of flow f: its segments queue at the port that reaches the peer, on the channel of the
route, or on VC2 for ACK, OPEN and OPEN_ACK. `none` where no port reaches it. -/
def State.wire (s : State) (f kind mseq : Nat) (body : List Byte) : Option State :=
  let x := s.flow f
  match s.routeTo x.peerDev with
  | none => none
  | some (p, v) =>
    let vc := if 5 ≤ kind then 2 else v
    some ((segsOf x.peerDev s.deviceId x.peerFlow x.epoch mseq kind vc body).foldl
      (fun s g => s.queueFrame p vc false 0 g.bytes) s)

/-- A source offers a message of flow f; it waits there until it has room in the flow's quota (R286; log 29). -/
def State.offerMsg (s : State) (f kind : Nat) (body : List Byte) (ackFlow : Nat := 0) (ackSeq : Nat := 0) (sub : Nat := 0)
    (prev : Option (List Int) := none) : State :=
  s.modFlow f fun x => { x with
    srcQ := x.srcQ ++ [{ kind := kind, body := body, ackFlow := ackFlow, ackSeq := ackSeq, sub := sub, prev := prev }] }

/-- What a source has offered to flow f is retained: it may go on. Until then it stalls (R286). -/
def State.srcFree (s : State) (f : Nat) : Bool := (s.flow f).srcQ.isEmpty

/-- A message of flow f is consumed (R280), which is to be acknowledged. -/
def State.consumeMsg (s : State) (f m : Nat) : State := s.modFlow f fun x => { x.consume m with ackDue := true }

/-- A message of flow f is refused with a code (R288): listed in the acknowledgements, and consumed. -/
def State.refuseMsg (s : State) (f m code : Nat) : State :=
  (s.modFlow f fun x => { x with refused := x.refused ++ [(m, code)] }).consumeMsg f m

/-- The oldest offered message is retained, if the quota has room: record and body written, sequence number given, and
NEXT_SEQ and RTX_TAIL committed. A RETURN token so retained acknowledges its dispatch token (08 R208). -/
def State.retain (s : State) (f : Nat) : State :=
  let x := s.flow f
  match x.srcQ with
  | [] => s
  | m :: rest =>
    let u := recUnits m.body.length
    if x.fstate ≠ flowOpen || x.rtxUnits < x.rtxUsed + u || 2 ^ 30 ≤ x.rtx.length then s
    else
      let m' := { m with mseq := x.nextSeq, at_ := x.rtxTail, sent := false }
      let bytes := toLe 4 m'.mseq ++ toLe 4 m.body.length ++ toLe 4 m.kind ++ zeros 4 ++ m.body
      let s := s.ringWrite rtxBase x.rtxAt x.rtxUnits x.rtxTail bytes
      let s := s.modFlow f fun x => { x with
        srcQ := rest, rtx := x.rtx ++ [m'], nextSeq := seqNext x.nextSeq, rtxTail := x.rtxStep x.rtxTail u
        rtxHead := if x.rtx.isEmpty then m'.at_ else x.rtxHead
        rtoAt := if x.rtx.isEmpty then s.now else x.rtoAt, lastProgress := if x.rtx.isEmpty then s.now else x.lastProgress }
      let s := s.commitMod f fun c => { c with next := (s.flow f).nextSeq, tail := (s.flow f).rtxTail }
      if m.ackFlow = 0 then s else s.consumeMsg (m.ackFlow - 1) m.ackSeq

/-- Credit left: what the peer last reported, less the messages beyond its RX_ARRIVED that are on their way (R289). -/
def FlowSt.creditLeft (x : FlowSt) : Nat :=
  x.credit - ((x.rtx.filter fun m => m.sent && !seqLe m.mseq x.peerArrived).map fun m => 64 * stgUnits m.body.length).sum

/-- The oldest retained message still to be sent goes out, within the credit. A resend reads the region, where poison
sets STALLED (12 R305). -/
def State.sendNext (s : State) (f : Nat) : State :=
  let x := s.flow f
  match x.rtx.find? fun m => !m.sent with
  | none => s
  | some m =>
    if x.creditLeft < 64 * stgUnits m.body.length || x.fstate = flowClosed || x.fstate = flowOpening then s
    else
      let a := rtxBase + 64 * m.at_
      let n := 16 + m.body.length
      -- the units that its record takes, which may wrap round the flow's space
      let units := (upTo (recUnits m.body.length)).map fun i => rtxBase + 64 * x.rtxStep m.at_ i
      if m.again && units.any fun a => s.gHeld a 64 then s else
      let s := if m.again then units.foldl (fun s a => s.gCheck a 64) (s.gddrCount a n .fabric 0) else s
      if m.again && units.any fun a => s.gPoisoned a 64 then
        if x.stalled then s else (s.modFlow f fun x => { x with stalled := true }).flowEvent 1 f
      else match s.wire f m.kind m.mseq m.body with
      | none => s
      | some s =>
        let s := if m.again then s.countFlow f Ctr.e2eRetransmit else s
        s.modFlow f fun x => { x with rtx := x.rtx.map fun o => if o.mseq = m.mseq then { o with sent := true, again := false } else o }

/-- FLOW_MESSAGE_SEND: the oldest offered message is retained where the quota has room, and the oldest message still to
be sent goes out. -/
def execFlowMessageSend (flow : FlowId) (s : State) : Res := .next <| (s.retain flow.val).sendNext flow.val

/-- Retained messages above the peer's RX_ARRIVED that were sent are to be sent again (R289); those at or below it are not to
be sent (R292). -/
def FlowSt.resendAll (x : FlowSt) : FlowSt :=
  { x with rtx := x.rtx.map fun m =>
      if seqLe m.mseq x.peerArrived then { m with sent := true, again := false }
      else if m.sent then { m with sent := false, again := true }
      else m }

/-- Messages at or below a watermark leave the region (R286). -/
def FlowSt.freeTo (x : FlowSt) (wm : Nat) : FlowSt :=
  let left := x.rtx.filter fun m => !seqLe m.mseq wm
  { x with rtx := left, ackedSeq := wm, rtxHead := (left.head?.map (·.at_)).getD x.rtxTail }

/-- Progress: RX_ARRIVED of the peer advanced (R289); STALLED clears and PROGRESS is reported (13 R327). -/
def State.flowProgress (s : State) (f arrived : Nat) : State :=
  let x := s.flow f
  if x.peerArrived = arrived || !seqLe x.peerArrived arrived then s
  else
    let s := s.modFlow f fun x => { x with peerArrived := arrived, lastProgress := s.now, rtoAt := s.now, rto := x.rtoSet, stalled := false }
    if x.stalled then s.flowEvent 2 f else s

/-! ### Opening and closing (R291 to R293) -/

/-- Body of OPEN and OPEN_ACK: mode, epoch, NEXT_SEQ, RX_WM, RX_ARRIVED and staging credit, 4 bytes each (log 30). -/
def FlowSt.openBody (x : FlowSt) : List Byte :=
  toLe 4 (b2n x.resume) ++ toLe 4 x.epoch ++ toLe 4 x.nextSeq ++ toLe 4 x.rxWm ++ toLe 4 x.rxArrived ++ toLe 4 x.stgFree

/-- OPEN (6) or OPEN_ACK (7) sent, where a port reaches the peer. -/
def State.sendOpen (s : State) (f kind : Nat) : State := (s.wire f kind 0 (s.flow f).openBody).getD s

/-- The code cache and the mirror of flow f are invalid (08 R215). -/
def State.dropCaches (s : State) (f : Nat) : State := s.modFlow f fun x => { x with cache := [], mirror := [] }

/-- After the exchange (R292): sends from the peer's RX_ARRIVED + 1 on, retains from its RX_WM + 1 on, and the flow is
OPEN; its record is written. -/
def State.opened (s : State) (f wm arrived credit : Nat) : State :=
  let s := (s.modFlow f fun x =>
    { ({ x with peerArrived := arrived, credit := 64 * credit }.freeTo wm).resendAll with
      fstate := flowOpen, rto := x.rtoSet, rtoAt := s.now, lastProgress := s.now, gather := [], nextSeg := 0 }).dropCaches f
  let s := s.commitAll f
  let w := (s.flow f).waiter
  (s.modFlow f fun x => { x with waiter := 0 }).wakeCmd w fun s m e => s.finish m e

/-- The context of flow f is cleared, and its commit record made invalid. A waiting OPEN_FLOW keeps its timeout. -/
def State.clearFlow (s : State) (f : Nat) : State :=
  let x := s.flow f
  let s := (s.dropCaches f).commitMod f fun c => { c with valid := false }
  s.setFlow f { waiter := x.waiter, hsDeadline := x.hsDeadline, cacheSize := x.cacheSize }

/-- A CLOSING flow whose messages are all acknowledged is closed, and CLOSE_FLOW answered. -/
def State.closeCheck (s : State) (f : Nat) : State :=
  let x := s.flow f
  if x.fstate = flowClosing && seqNext x.ackedSeq = x.nextSeq then
    (s.clearFlow f).wakeCmd x.closer fun s m e => s.finish m e
  else s

/-- Free quota for OPEN_FLOW: where the flow's spaces go, or none. -/
def State.quotaAt (s : State) (rtx stg : Nat) : Option (Nat × Nat) :=
  let fl := s.openFlows
  match firstFree (s.gddr.rtxSize / 64) (rtx / 64) (fl.map fun f => (f.rtxAt, f.rtxQuota / 64)),
        firstFree (s.gddr.stgSize / 64) (stg / 64) (fl.map fun f => (f.stgAt, f.stgQuota / 64)) with
  | some a, some b => some (a, b)
  | _, _ => none

/-- OPEN_FLOW: a NEW or RESUME context sends its first OPEN and waits for the handshake. -/
def execOpenFlow (mb : MboxId) (s : State) : Res :=
  .next <| s.runCmd mb.val 0x40 fun s e =>
    let m := mb.val
    let w (o : Nat) : Nat := leAt e.cmd o 4
    let f := w 0x40
    let dev := leAt e.cmd 0x44 2
    let peer := leAt e.cmd 0x46 2
    let resume := leAt e.cmd 0x48 1 == 1
    let rto := if w 0x4C = 0 then 20 else w 0x4C
    let rtx := w 0x50 * 65536
    let stg := w 0x54 * 65536
    s.needNet m e fun s => s.needNotShed m e fun s =>
      let x := s.flow f
      let c := s.commitOf f
      if dev = s.deviceId then s.refuse m e codeState Why.badField
      else if x.fstate ≠ flowClosed then s.refuse m e codeState Why.flowState
      else if resume && (!s.commitGood f || c.epoch == 0xFFFF || c.peerDev != dev || c.peerFlow != peer) then
        s.refuse m e codeState Why.commitInvalid
      else match s.quotaAt rtx stg with
      | none => s.refuse m e codeNoFit Why.noQuota
      | some (ra, sa) =>
        let kept := if resume then Tab.get s.gddr.rtxKeep [] f else []
        let y : FlowSt := { peerDev := dev, peerFlow := peer, fstate := flowOpening, net := cmdNet e.cmd, resume := resume
                            rtoSet := rto, rto := rto, rtxQuota := rtx, stgQuota := stg, rtxAt := ra, stgAt := sa, stgTail := sa
                            hsDeadline := s.now + w 0x58 * 1000000, waiter := m + 1, openAt := s.now, cacheSize := x.cacheSize
                            lastProgress := s.now, rtoAt := s.now }
        let y := if resume then
            { y with epoch := c.epoch + 1, nextSeq := c.next, ackedSeq := c.acked, rxWm := c.wm, rxArrived := c.wm
                     rtxHead := c.head, rtxTail := c.tail
                     rtx := (kept.filter fun k => !seqLe k.mseq c.acked && seqLe (seqNext k.mseq) c.next).map
                       fun k => { k with sent := false, again := true } }
          else { y with epoch := 1, nextSeq := 1, rtxHead := ra, rtxTail := ra }
        let s := (s.park m e).setFlow f y
        let s := s.modGddr fun g => { g with rtxKeep := Tab.erase g.rtxKeep f }
        s.sendOpen f 6

/-- CLOSE_FLOW. -/
def execCloseFlow (mb : MboxId) (s : State) : Res :=
  .next <| s.runCmd mb.val 0x41 fun s e =>
    let m := mb.val
    let f := leAt e.cmd 0x40 4
    let force := leAt e.cmd 0x44 1 == 1
    let x := s.flow f
    if x.fstate = flowClosed then s.finish m e
    else if force then
      let s := (s.countFlow f Ctr.e2eForceDiscard noSub x.rtx.length).clearFlow f
      (s.finish m e).wakeCmd x.closer fun s m e => s.finish m e
    else ((s.park m e).modFlow f fun x => { x with fstate := flowClosing, closer := m + 1 }).closeCheck f

/-- OPEN_RESEND: every 100 µs while the flow is OPENING. -/
def execOpenResend (flow : FlowId) (s : State) : Res :=
  .next <|
    let f := flow.val
    let x := s.flow f
    if x.fstate ≠ flowOpening || s.now < x.openAt + 100000 then s
    else (s.modFlow f fun x => { x with openAt := s.now }).sendOpen f 6

/-- OPEN_HANDSHAKE_TIMEOUT: the command fails, and the context is CLOSED again (log 31). -/
def execOpenHandshakeTimeout (flow : FlowId) (s : State) : Res :=
  .next <|
    let f := flow.val
    let x := s.flow f
    if x.waiter = 0 || s.now < x.hsDeadline then s
    else
      let s := if x.fstate = flowOpening then s.setFlow f { cacheSize := x.cacheSize } else s.modFlow f fun x => { x with waiter := 0 }
      let s := if x.fstate = flowOpening && x.resume then s.modGddr fun g => { g with rtxKeep := Tab.set g.rtxKeep [] f x.rtx } else s
      s.wakeCmd x.waiter fun s m e => s.complete m e codeFault Why.handshakeTimeout []

/-! ### Timers (R289, R290) -/

/-- Messages are unacknowledged: retained ones above the peer's RX_ARRIVED, sent or still waiting for credit or for a port. -/
def FlowSt.unacked (x : FlowSt) : Bool := x.rtx.any fun m => !seqLe m.mseq x.peerArrived

/-- E2E_RETRANSMIT_TIMEOUT: resend, and the timeout doubles, to 10 ms at most. -/
def execE2eRetransmitTimeout (flow : FlowId) (s : State) : Res :=
  .next <|
    let f := flow.val
    let x := s.flow f
    if x.fstate = flowClosed || x.fstate = flowOpening || !x.unacked || s.now < x.rtoAt + x.rto * 1000 then s
    else s.modFlow f fun x => { x.resendAll with rto := min 10000 (2 * x.rto), rtoAt := s.now }

/-- FLOW_STALLED: 1 s without progress sets STALLED and is reported. -/
def execFlowStalled (flow : FlowId) (s : State) : Res :=
  .next <|
    let f := flow.val
    let x := s.flow f
    if x.fstate = flowClosed || x.stalled || !x.unacked || s.now < x.lastProgress + 1000000000 then s
    else (s.modFlow f fun x => { x with stalled := true }).flowEvent 1 f

/-- COMMIT_RECORD_UPDATE: ACKED_SEQ and RTX_HEAD of a flow that is not CLOSED. -/
def execCommitRecordUpdate (flow : FlowId) (s : State) : Res :=
  .next <|
    let f := flow.val
    let x := s.flow f
    if x.fstate = flowClosed || x.fstate = flowOpening then s
    else s.commitMod f fun c => { c with acked := x.ackedSeq, head := x.rtxHead }

/-! ### Receiving (R285, R287, R288, R292) -/

/-- The first received segment that satisfies a test, taken out of the port's buffer, whose space is free again. -/
def State.takeRx (s : State) (p : Nat) (want : Seg → Bool) : Option (Seg × State) :=
  match (s.port p).rxQ.find? fun b => want (parseSeg b) with
  | none => none
  | some b =>
    let g := parseSeg b
    some (g, (s.modPort p fun o => { o with rxQ := o.rxQ.erase b }).freeRx p g.vc (frameBytes b.length))

/-- Why a received segment of flow f is discarded (R279, R285), with its count; none where it goes on. -/
def State.badSeg (s : State) (g : Seg) : Option State :=
  let x := s.flow g.dstFlow
  if 49152 ≤ g.dstFlow then some (s.countDev Ctr.e2eNoFlow)
  else if g.e2e ≠ g.crc then some (s.countFlow g.dstFlow Ctr.e2eCrcErr)
  else if x.fstate = flowClosed || g.srcDev ≠ x.peerDev then some (s.countDev Ctr.e2eNoFlow)
  else if g.epoch ≠ x.epoch then some (s.countFlow g.dstFlow Ctr.e2eStaleEpoch)
  else none

/-- A message received whole: staged, and RX_ARRIVED advances. -/
def State.arrive (s : State) (f : Nat) (g : Seg) (body : List Byte) : State :=
  let x := s.flow f
  let u := stgUnits body.length
  let size := x.stgQuota / 64
  let s := s.ringWrite s.gddr.stgBase x.stgAt size x.stgTail body
  s.modFlow f fun x => { x with
    stage := x.stage ++ [{ mseq := g.mseq, kind := g.kind, body := body, at_ := x.stgTail }]
    stgTail := x.stgAt + (x.stgTail - x.stgAt + u) % max 1 size
    rxArrived := g.mseq, gather := [], nextSeg := 0, ackDue := true }

/-- SEGMENT_RECEIVE: the oldest segment of a sequenced message at the port. -/
def execSegmentReceive (port : PortId) (s : State) : Res :=
  .next <|
    match s.takeRx port.val fun g => g.kind < 5 || 7 < g.kind with
    | none => s
    | some (g, s) =>
      match s.badSeg g with
      | some s => s
      | none =>
        let f := g.dstFlow
        let x := s.flow f
        if seqLe g.mseq x.rxArrived then (s.countFlow f Ctr.e2eDup).modFlow f fun x => { x with ackDue := true }
        else if g.mseq = seqNext x.rxArrived && g.seg = x.nextSeg then
          let body := x.gather ++ g.data
          if g.last then s.arrive f g body
          else s.modFlow f fun x => { x with gather := body, nextSeg := x.nextSeg + 1 }
        else (s.countFlow f Ctr.e2eGap).modFlow f fun x => { x with gather := [], nextSeg := 0, gapDue := true }

/-- ACK_SEND: an ACK that is due leaves once RX_WM is in the commit record; it lists refused messages at or below RX_WM,
at most 16. -/
def execAckSend (flow : FlowId) (gap : Bool) (s : State) : Res :=
  .next <|
    let f := flow.val
    let x := s.flow f
    if x.fstate = flowClosed || x.fstate = flowOpening || !(if gap then x.gapDue else x.ackDue) then s
    else
      let s := s.commitMod f fun c => { c with wm := x.rxWm }
      let due := (x.refused.filter fun r => seqLe r.1 x.rxWm).take 16
      let body := toLe 4 x.rxWm ++ toLe 4 x.rxArrived ++ toLe 8 (x.stgFree % 2 ^ 32 + due.length * 2 ^ 32 + b2n gap * 2 ^ 37)
        ++ due.flatMap fun r => toLe 8 (r.1 * 2 ^ 32 + r.2 % 16)
      match s.wire f 5 0 body with
      | none => s
      | some s => s.modFlow f fun x => { x with
          refused := x.refused.filter fun r => !due.contains r
          ackDue := x.refused.length != due.length && !due.isEmpty
          gapDue := if gap then false else x.gapDue }

/-- A refused message is counted and, if it is a token packet, handed to the token units (R288, 08 R203). -/
def State.nak (s : State) (f : Nat) (r : Nat × Nat) : State :=
  match (s.flow f).rtx.find? fun m => m.mseq == r.1 with
  | none => s
  | some m =>
    let s := s.countFlow f Ctr.e2eNakRx r.2
    if m.kind = 2 then s.modFlow f fun x => { x with naks := x.naks ++ [{ msg := m, code := r.2 }] } else s

/-- ACK: the oldest ACK at the port. -/
def execAck (port : PortId) (s : State) : Res :=
  .next <|
    match s.takeRx port.val fun g => g.kind == 5 with
    | none => s
    | some (g, s) =>
      match s.badSeg g with
      | some s => s
      | none =>
        let f := g.dstFlow
        let wm := leAt g.data 0 4
        let arrived := leAt g.data 4 4
        let w1 := leAt g.data 8 8
        if !seqLe (s.flow f).ackedSeq wm then s
        else
          let refused := (upTo (nfld w1 36 32)).map fun i =>
            let e := leAt g.data (16 + 8 * i) 8
            (nfld e 63 32, nfld e 3 0)
          let s := (refused.foldl (fun s r => s.nak f r) s).flowProgress f arrived
          let s := s.modFlow f fun x => { x.freeTo wm with credit := 64 * nfld w1 31 0 }
          let s := if nbit w1 37 then s.modFlow f FlowSt.resendAll else s
          s.closeCheck f

/-- OPEN: the oldest OPEN at the port (R292). -/
def execOpenMsg (port : PortId) (s : State) : Res :=
  .next <|
    match s.takeRx port.val fun g => g.kind == 6 with
    | none => s
    | some (g, s) =>
      let f := g.dstFlow
      let x := s.flow f
      let b (i : Nat) : Nat := leAt g.data (4 * i) 4
      if 49152 ≤ f then s.countDev Ctr.e2eNoFlow
      else if g.e2e ≠ g.crc then s.countFlow f Ctr.e2eCrcErr
      else if g.srcDev = x.peerDev && x.fstate = flowOpening && !x.resume && b 0 = 0 && b 1 = 1 then
        (s.sendOpen f 7).opened f (b 3) (b 4) (b 5)
      else if g.srcDev = x.peerDev && x.fstate = flowOpen && b 0 = 1 && b 1 = x.epoch + 1 then
        let s := s.modFlow f fun x => { x with fstate := flowReopening, epoch := x.epoch + 1 }
        (s.sendOpen f 7).opened f (b 3) (b 4) (b 5)
      else s.countFlow f Ctr.e2eStaleEpoch

/-- OPEN_ACK: the oldest OPEN_ACK at the port completes the handshake of an OPENING context. -/
def execOpenAck (port : PortId) (s : State) : Res :=
  .next <|
    match s.takeRx port.val fun g => g.kind == 7 with
    | none => s
    | some (g, s) =>
      let f := g.dstFlow
      let x := s.flow f
      let b (i : Nat) : Nat := leAt g.data (4 * i) 4
      match s.badSeg g with
      | some s => s
      | none =>
        if x.fstate = flowOpening && b 1 = x.epoch then s.opened f (b 3) (b 4) (b 5)
        -- one of the right epoch that comes again has nothing to complete
        else if b 1 = x.epoch then s
        else s.countFlow f Ctr.e2eStaleEpoch

/-! ### Delivery to consumers (R280 to R282) -/

/-- The first staged message not yet delivered. -/
def FlowSt.nextMsg (x : FlowSt) : Option Msg :=
  x.stage.find? fun m => !Tab.get x.delivered false m.mseq && !Tab.get x.consumed false m.mseq

/-- Message m has been passed to its consumer. -/
def State.markDelivered (s : State) (f m : Nat) : State :=
  s.modFlow f fun x => { x with delivered := Tab.set x.delivered false m true }

/-- The consumer's network of a flow is loaded. -/
def State.flowBound (s : State) (x : FlowSt) : Bool := (s.net x.net).image != 0

/-- Flows that end at the device make no progress: in P2 and P3 (16 R418) and while a FATAL fault holds the compute
partition (18 R459). -/
def State.flowsHeld (s : State) : Bool := decide (2 ≤ s.ao.pstate) || s.fault.fatal

/-- The compute partition takes inbound messages: during its reset they stay unacknowledged too (01 R29). -/
def State.takesIn (s : State) : Bool := s.boot.crStep == 0 && !s.flowsHeld

/-- The next message of flow f, where it is of kind `kind`; one of a reserved kind, or without a bound consumer, is
refused with UNSUPPORTED. -/
def State.deliverMsg (s : State) (f kind : Nat) (g : State → Msg → State) : State :=
  match if s.flowsHeld then none else (s.flow f).nextMsg with
  | none => s
  | some m =>
    if m.kind = 0 || 7 < m.kind || (m.kind = kind && m.kind ≠ 4 && !s.flowBound (s.flow f)) then s.refuseMsg f m.mseq 9
    else if m.kind ≠ kind then s
    else g s m

/-- EVENTS_MESSAGE: the events of a message enter the network with RING set, once the network runs; t is the message's
scale. -/
def execEventsMessage (flow : FlowId) (s : State) : Res :=
  .next <|
    let f := flow.val
    s.deliverMsg f 1 fun s m =>
      let k := (s.flow f).net
      if !(s.net k).running || !s.takesIn then s
      else
        let n := nfld (leAt m.body 0 8) 44 32
        let step := s.ringStep k
        let evs := (upTo n).map fun i => BitVec.ofNat 64 (nsetBit (leAt m.body (8 + 8 * i) 8) 6)
        let s := (s.markDelivered f m.mseq).modFlow f fun x => { x with unpopped := Tab.set x.unpopped 0 m.mseq n }
        let s := evs.foldl (fun s e =>
          (s.flowRingEvent k step { ev := e, flow := f + 1, mseq := m.mseq }).setT e step (BitVec.ofNat 32 (leAt m.body 0 4)) none) s
        if n = 0 then s.consumeMsg f m.mseq else s

/-- TOKEN_MESSAGE: a token packet is passed to the token units. -/
def execTokenMessage (flow : FlowId) (s : State) : Res :=
  .next <| s.deliverMsg flow.val 2 fun s m =>
    (s.markDelivered flow.val m.mseq).modFlow flow.val fun x => { x with tokQ := x.tokQ ++ [m] }

/-- Object o of sector n is granted to network k (14 R546). -/
def State.objGranted (s : State) (n k o : Nat) : Bool :=
  (s.sector n).grants.any fun g => g.1 == k && g.2.2.2.1 ≤ o && o < g.2.2.2.1 + g.2.2.2.2

/-- SYNC_INC: the operation goes to the sector's synchronisation unit, or draws PROTECTION. -/
def execSyncInc (flow : FlowId) (s : State) : Res :=
  .next <|
    let f := flow.val
    s.deliverMsg f 3 fun s m =>
      let w := leAt m.body 0 8
      let n := nfld w 2 0
      let o := nfld w 15 3
      -- unacknowledged during a compute-partition reset (01 R29), or while the ring port is full (01 R31)
      if !s.takesIn || !s.linkRoom n 3 (.sync n {}) then s
      else if !s.objGranted n (s.flow f).net o || 8160 ≤ o then (s.markDelivered f m.mseq).refuseMsg f m.mseq 8
      else (s.markDelivered f m.mseq).inject n
        (.sync n { path := 2, op := nfld w 17 16 + 1, obj := o, operand := nfld w 63 32, flow := f + 1, mseq := m.mseq })

/-! ### SET_FAULT_INJECT (R297, 14 R376) -/

/-- SET_FAULT_INJECT. -/
def execSetFaultInject (mb : MboxId) (s : State) : Res :=
  .next <| s.runCmd mb.val 0x90 fun s e =>
    let p := leAt e.cmd 0x40 1
    let mode := leAt e.cmd 0x41 1
    (s.modPort p fun o => { o with injMode := mode, injN := leAt e.cmd 0x42 2, injCount := 0 }).finish mb.val e

end Sys2Proof.Machine
end

