-- ==== Sys2Proof/Machine/Sync.lean ====
section
/-! DEFINITION. Sync.lean: the queues of the descriptor engine as rings in sector memory (10 R242 to R244), and the
synchronisation objects with their operations and notifications (10 R259 to R264). -/

namespace Sys2Proof.Machine

/-! ### Descriptor fields (10 R244) -/

/-- DOP -/
def Desc.dop (d : Desc) : Nat := fld d.w0 63 60
/-- DVER -/
def Desc.dver (d : Desc) : Nat := fld d.w0 59 58
/-- DST_CORE -/
def Desc.dst (d : Desc) : Nat := fld d.w0 57 48
/-- DST_QUEUE -/
def Desc.dstQ (d : Desc) : Nat := fld d.w0 47 44
/-- SRC_CORE -/
def Desc.src (d : Desc) : Nat := fld d.w0 43 34
/-- RPL_QUEUE -/
def Desc.rplQ (d : Desc) : Nat := fld d.w0 33 30
/-- WANT_REPLY -/
def Desc.wantReply (d : Desc) : Bool := nbit d.w0.toNat 29
/-- EPOCH -/
def Desc.epoch (d : Desc) : Nat := fld d.w0 23 16
/-- TAG -/
def Desc.tag (d : Desc) : Nat := fld d.w0 15 0
/-- SPACE -/
def Desc.space (d : Desc) : Nat := fld d.w1 63 62
/-- SECTOR -/
def Desc.sect (d : Desc) : Nat := fld d.w1 61 59
/-- OFFSET -/
def Desc.ofs (d : Desc) : Nat := fld d.w1 58 0
/-- LEN -/
def Desc.len (d : Desc) : Nat := fld d.w2 63 32
/-- SYNC_OP -/
def Desc.syncOp (d : Desc) : Nat := fld d.w2 31 28

/-- The 32 bytes of a descriptor, as a ring entry holds them. -/
def Desc.bytes (d : Desc) : List Byte :=
  toLe 8 d.w0.toNat ++ toLe 8 d.w1.toNat ++ toLe 8 d.w2.toNat ++ toLe 8 d.w3.toNat

/-- The descriptor that 32 bytes spell. -/
def descOf (l : List Byte) : Desc :=
  { w0 := BitVec.ofNat 64 (leAt l 0 8), w1 := BitVec.ofNat 64 (leAt l 8 8)
    w2 := BitVec.ofNat 64 (leAt l 16 8), w3 := BitVec.ofNat 64 (leAt l 24 8) }

/-- The class of a descriptor: 1 REPLY, 0 the others (R246). -/
def Desc.cls (d : Desc) : Nat := if d.dop = 2 then 1 else 0

/-! ### Status entries (10 R247) -/

abbrev stDone : Nat := 1
abbrev stNak : Nat := 2
abbrev stPoison : Nat := 3
abbrev stDiscarded : Nat := 4

abbrev nakFull : Nat := 1
abbrev nakClosed : Nat := 2
abbrev nakNoQueue : Nat := 3
abbrev nakProtection : Nat := 4

/-- A status entry. -/
def statusWord (kind reason tag result : Nat) : Word64 :=
  BitVec.ofNat 64 (kind % 16 * 2 ^ 60 + reason % 16 * 2 ^ 56 + tag % 65536 * 2 ^ 32 + result % 2 ^ 32)

/-- A status message sent by sector n's engine towards the sender of a descriptor. -/
def State.sendStatus (s : State) (n : Nat) (d : Desc) (kind reason result : Nat) : State :=
  s.offer n 21 (.status d.src (statusWord kind reason d.tag result) d.cls d.ser)

/-- The descriptor message that a status entry travels as (R244): DOP STATUS to the sender's core, the entry in word 1. -/
def statusMsg (core : Nat) (entry : Word64) : Desc :=
  { w0 := BitVec.ofNat 64 (3 * 2 ^ 60 + core % 1024 * 2 ^ 48), w1 := entry }

/-! ### Queues -/

/-- Queue q of a core. -/
def CoreSt.queue (k : CoreSt) (q : Nat) : QueueSt := Tab.get k.queues {} q
/-- Queue q of core c changed. -/
def State.modQueue (s : State) (c q : Nat) (f : QueueSt → QueueSt) : State :=
  s.modCore c fun k => { k with queues := Tab.set k.queues {} q (f (k.queue q)) }

/-- VALID of QUEUE_CFG (R243). -/
def QueueSt.valid (q : QueueSt) : Bool := nbit q.cfg.toNat 31
/-- Entries of the request ring. -/
def QueueSt.reqSize (q : QueueSt) : Nat := 2 ^ fld q.cfg 15 12
/-- Entries of the reply ring. -/
def QueueSt.rplSize (q : QueueSt) : Nat := 2 ^ fld q.cfg 11 8
/-- Sector-memory offset of request entry i. -/
def QueueSt.reqAt (q : QueueSt) (i : Nat) : Nat := 256 * fld q.cfg 30 16 + 32 * (i % q.reqSize)
/-- Sector-memory offset of reply entry i. -/
def QueueSt.rplAt (q : QueueSt) (i : Nat) : Nat := 256 * fld q.cfg 30 16 + 32 * q.reqSize + 32 * (i % q.rplSize)
/-- The request ring has a free entry. -/
def QueueSt.reqRoom (q : QueueSt) : Bool := q.reqs.length < q.reqSize
/-- Reply entries in use. -/
def QueueSt.rplHeld (q : QueueSt) : Nat := q.rpls.length + q.reserved.length
/-- Request entries in use, queued or taken and not yet done. -/
def QueueSt.reqHeld (q : QueueSt) : Nat := q.reqs.length

/-- The entry of a ring of `size` entries that takes its next write: the one after the last, past any still in use. -/
def freeSlot (size seq : Nat) (l : List QEntry) : Nat :=
  (((upTo size).map fun i => (seq + i) % size).find? fun x => l.all fun e => e.slot != x).getD (seq % size)

/-- Where the next request entry is written. -/
def QueueSt.nextReq (q : QueueSt) : Nat := freeSlot q.reqSize q.reqNext q.reqs
/-- Where the next reply entry is written. -/
def QueueSt.nextRpl (q : QueueSt) : Nat := freeSlot q.rplSize q.rplNext q.rpls

/-- The queue is declared and open. -/
def QueueSt.isOpen (q : QueueSt) : Bool := q.valid && !q.closed

/-- A descriptor written into the request ring of queue q of core c by the engine of its sector. -/
def State.queuePut (s : State) (c q : Nat) (d : Desc) : State :=
  let x := (s.core c).queue q
  let s := s.smemPoke (sectorOf c) (x.reqAt x.nextReq) d.bytes
  (s.modQueue c q fun x => { x with
    reqs := x.reqs ++ [{ slot := x.nextReq, seq := x.reqNext, ser := d.ser }], reqNext := x.reqNext + 1 }).smemCountSec
      (sectorOf c) 1 32

/-! ### Synchronisation objects (10 R259) -/

/-- Word w of object o of a sector. -/
def SectorSt.objWord (q : SectorSt) (o w : Nat) : Nat := memNat q.mem (16 * o + 4 * w) 4

/-- Word w of object o of sector n written. -/
def State.putObj (s : State) (n o w v : Nat) : State := s.smemPoke n (16 * o + 4 * w) (toLe 4 v)

/-- TYPE: 0 none, 1 counter, 2 barrier, 3 semaphore. -/
def SectorSt.objType (q : SectorSt) (o : Nat) : Nat := nfld (q.objWord o 2) 31 30
/-- ARMED -/
def SectorSt.objArmed (q : SectorSt) (o : Nat) : Bool := nbit (q.objWord o 2) 29
/-- PENDING -/
def SectorSt.objPending (q : SectorSt) (o : Nat) : Bool := nbit (q.objWord o 2) 28
/-- GEN -/
def SectorSt.objGen (q : SectorSt) (o : Nat) : Nat := nfld (q.objWord o 2) 15 0
/-- NOTIFY_EN -/
def SectorSt.objNotify (q : SectorSt) (o : Nat) : Bool := nbit (q.objWord o 3) 31
/-- NOTIFY_CORE -/
def SectorSt.objCore (q : SectorSt) (o : Nat) : Nat := nfld (q.objWord o 3) 30 21
/-- NOTIFY_QUEUE -/
def SectorSt.objQueue (q : SectorSt) (o : Nat) : Nat := nfld (q.objWord o 3) 20 17

/-- Bit b of the word with TYPE set to v. -/
def State.putObjBit (s : State) (n o b : Nat) (v : Bool) : State :=
  s.putObj n o 2 (nput ((s.sector n).objWord o 2) b b (b2n v))

/-- The NOTIFY descriptor of object o of sector n (R263). -/
def notifyDesc (n o core queue value gen : Nat) : Desc :=
  { w0 := BitVec.ofNat 64 (6 * 2 ^ 60 + core * 2 ^ 48 + queue * 2 ^ 44)
    w1 := BitVec.ofNat 64 (2 * 2 ^ 62 + n * 2 ^ 59 + o)
    w3 := BitVec.ofNat 64 (value * 2 ^ 32 + gen) }

/-- `cnt` crossings of object o, of which crossing i carries VALUE v - i * dv and GEN g + i (R263): each takes a free
entry of the queue; where the ring is full the notification waits in PENDING, and a further one merges into it. A
closed queue discards. -/
def State.notify (s : State) (n o cnt v dv g : Nat) : State :=
  let q := s.sector n
  if cnt = 0 || !q.objNotify o then s
  else
    let c := q.objCore o
    let k := q.objQueue o
    if sectorOf c ≠ n then s
    else
      let x := (s.core c).queue k
      if !x.isOpen then s.countCore c Ctr.replyDiscard cnt
      else
        let free := if q.objPending o then 0 else x.reqSize - x.reqs.length
        let put := min cnt free
        let s := (upTo put).foldl (fun s i =>
          s.queuePut c k (notifyDesc n o c k (v - (i + 1) * dv) ((g + (i + 1) * b2n (dv != 0)) % 65536))) s
        if put = cnt then s
        else if q.objPending o then s.countSec n Ctr.syncNotifyMerged noSub cnt
        else (s.putObjBit n o 28 true).countSec n Ctr.syncNotifyMerged noSub (cnt - put - 1)

/-- The operation suits the object's TYPE (R260): codes 1 ADD to 6 READ. -/
def syncFits (op ty : Nat) : Bool :=
  (op == 1 && ty == 1) || (op == 2 && ty == 2) || (op == 3 && ty == 3) || (op == 4 && ty == 3)
    || (op == 5 && (ty == 1 || ty == 3)) || op == 6

/-- Operation `op` on object o of sector n, which suits it (R260): the RESULT and the state. -/
def State.syncApply (s : State) (n o op operand : Nat) : Nat × State :=
  let q := s.sector n
  let old := q.objWord o 0
  let target := q.objWord o 1
  let new := (old + operand) % 2 ^ 32
  if op = 1 then
    let s' := s.putObj n o 0 new
    (old, if q.objArmed o && decide (old < target ∧ target ≤ new) then
        (s'.putObjBit n o 29 false).notify n o 1 new 0 (q.objGen o) else s')
  else if op = 2 then
    let cnt := if target = 0 then 0 else new / target
    let s := s.putObj n o 0 (new - cnt * target)
    let s := s.putObj n o 2 (nput (q.objWord o 2) 15 0 (q.objGen o + cnt))
    (old, s.notify n o cnt new target (q.objGen o))
  else if op = 3 then
    let s' := s.putObj n o 0 new
    (old, if q.objArmed o && decide (target ≤ new) then
        (s'.putObjBit n o 29 false).notify n o 1 new 0 (q.objGen o) else s')
  else if op = 4 then
    if operand ≤ old then (1, s.putObj n o 0 (old - operand)) else (0, s)
  else if op = 5 then
    let s' := (s.putObj n o 1 operand).putObjBit n o 29 true
    (old, if operand ≤ old then s'.notify n o 1 old 0 (q.objGen o) else s')
  else (old, s)

/-- The operation at the head of the synchronisation unit's input, when its code is `op` (R261). -/
def State.syncHead (s : State) (n op : Nat) : State :=
  match (s.sector n).toSync with
  | .sync _ r :: rest =>
    if r.op ≠ op || !s.sectorRuns n || (r.path == 1 && !s.engFree n) then s
    else if s.bankHolds n (16 * r.obj) then s.testStall n
    else
      let s := s.modSector n fun q => { q with toSync := rest }
      let s := if (s.sector n).poisoned (16 * r.obj) 16 then s.memUncorr n else s
      let ok := syncFits r.op ((s.sector n).objType r.obj) && (r.path == 1 || decide (r.op ≤ 3))
      let a := if ok then s.syncApply n r.obj r.op r.operand else (0, s)
      let s := a.2
      if r.path = 1 then
        s.offer n 21 (.status r.core (if ok then statusWord stDone 0 r.tag a.1 else statusWord stNak nakProtection r.tag 0) 0 r.ser)
      else
        let s := if ok then s else s.countSec n Ctr.syncMismatch
        if r.path = 2 && r.flow ≠ 0 then s.consumeMsg (r.flow - 1) r.mseq else s
  | _ => s

/-- SYNC_ADD -/
def execSyncAdd (sector : SectorId) (s : State) : Res := .next <| s.syncHead sector.val 1
/-- SYNC_ARRIVE -/
def execSyncArrive (sector : SectorId) (s : State) : Res := .next <| s.syncHead sector.val 2
/-- SYNC_POST -/
def execSyncPost (sector : SectorId) (s : State) : Res := .next <| s.syncHead sector.val 3
/-- SYNC_TRYWAIT -/
def execSyncTrywait (sector : SectorId) (s : State) : Res := .next <| s.syncHead sector.val 4
/-- SYNC_ARM -/
def execSyncArm (sector : SectorId) (s : State) : Res := .next <| s.syncHead sector.val 5
/-- SYNC_READ -/
def execSyncRead (sector : SectorId) (s : State) : Res := .next <| s.syncHead sector.val 6

/-! ### Pending notifications (10 R263) -/

/-- The pending notification of object o takes a free entry with the values of the moment; a closed queue discards it. -/
def State.writePending (s : State) (n o : Nat) : State :=
  let q := s.sector n
  let c := q.objCore o
  let k := q.objQueue o
  let x := (s.core c).queue k
  if !q.objPending o || sectorOf c ≠ n then s
  else if !x.isOpen then (s.putObjBit n o 28 false).countCore c Ctr.replyDiscard
  else if !x.reqRoom then s
  else (s.queuePut c k (notifyDesc n o c k (q.objWord o 0) (q.objGen o))).putObjBit n o 28 false

/-- PENDING_NOTIFY_WRITE -/
def execPendingNotifyWrite (sector : SectorId) (obj : Fin 8192) (s : State) : Res :=
  .next <|
    if !s.sectorRuns sector.val then s
    else if s.bankHolds sector.val (16 * obj.val) then s.testStall sector.val
    else s.writePending sector.val obj.val

/-- Objects of sector n whose pending notification waits for queue k of core c, in ascending order. -/
def SectorSt.pendingFor (q : SectorSt) (c k : Nat) : List Nat :=
  ((q.mem.takeWhile fun e => e.1 < 0x20000).filter fun e => e.1 % 16 == 11 && nbit e.2.toNat 4).filterMap fun e =>
    let o := e.1 / 16
    if q.objCore o = c && q.objQueue o = k then some o else none

/-- Pending notifications of queue k of core c go ahead of any request. -/
def State.flushPending (s : State) (c k : Nat) : State :=
  ((s.sector (sectorOf c)).pendingFor c k).foldl (fun s o => s.writePending (sectorOf c) o) s

end Sys2Proof.Machine
end

