-- ==== Sys2Proof/Machine/Desc.lean ====
section
/-! DEFINITION. Desc.lean: descriptor channels (10 R245 to R258): posting, status, the reader's side of the queues, and
the descriptor engine of a sector. -/

namespace Sys2Proof.Machine

/-! ### What the sender's engine checks (10 R250, R251) -/

/-- The bytes a to a+len-1 lie within the union of ranges (base, length): the first range that holds a is followed. -/
def inRanges : Nat → List (Nat × Nat) → Nat → Nat → Bool
  | 0, _, _, _ => false
  | fuel + 1, l, a, len =>
    if len = 0 then true
    else match l.find? fun r => r.1 ≤ a && a < r.1 + r.2 with
      | none => false
      | some r => inRanges fuel l (r.1 + r.2) (len - (r.1 + r.2 - a))

/-- Sector-memory ranges granted to network slot k in sector n (14 R546). -/
def State.smemGrants (s : State) (n k : Nat) : List (Nat × Nat) :=
  ((s.sector n).grants.filter fun g => g.1 == k).map fun g => (g.2.1, g.2.2.1)

/-- GDDR6 regions granted to network slot k (14 R546). -/
def State.gddrGrants (s : State) (k : Nat) : List (Nat × Nat) :=
  (s.regions.filter fun r => r.net == k).map fun r => (r.base, r.size)

/-- Data that a descriptor of network slot k may name (R251): word 1 of R244, or word 3 of a MOVE. -/
def State.mayName (s : State) (k space n ofs len : Nat) : Bool :=
  if space = 3 then false
  else if space = 2 then s.objGranted n k ofs && decide (ofs < 8160)
  else if len = 0 then true
  else if space = 0 then decide (0x28000 ≤ ofs) && inRanges ((s.smemGrants n k).length + 1) (s.smemGrants n k) ofs len
  else inRanges ((s.gddrGrants k).length + 1) (s.gddrGrants k) ofs len

/-- Word 3 of a MOVE read as a location: SPACE, SECTOR, OFFSET. -/
def Desc.dest (d : Desc) : Nat × Nat × Nat := (fld d.w3 63 62, fld d.w3 61 59, fld d.w3 58 0)

/-- One end of a MOVE lies in the sender's own sector memory or in GDDR6 (R256). -/
def moveEnd (own space n : Nat) : Bool := space == 1 || (space == 0 && n == own)

/-- The reason for which the sender's engine refuses a descriptor of core c, 0 for none. -/
def State.senderCheck (s : State) (c : Nat) (d : Desc) : Nat :=
  let own := sectorOf c
  let net := (s.core c).net
  -- a core of no network has no grants
  let k := if net = 0 then 0x10000 else net - 1
  if d.dver ≠ 0 || !([1, 2, 4, 5] : List Nat).contains d.dop then nakProtection
  else if d.dop = 1 || d.dop = 2 then
    if 128 ≤ d.dst then nakNoQueue
    else if (s.core d.dst).net ≠ 0 && (s.core d.dst).net ≠ net then nakProtection
    else if s.mayName k d.space d.sect d.ofs d.len then 0 else nakProtection
  else if d.dop = 4 then
    if d.space == 2 && d.syncOp != 0 && decide (d.syncOp ≤ 6) && s.mayName k 2 d.sect d.ofs 1 then 0 else nakProtection
  else
    let t := d.dest
    if d.ofs % 8 == 0 && t.2.2 % 8 == 0 && d.len % 8 == 0 && decide (8 ≤ d.len) && decide (d.len ≤ 16777216)
      && moveEnd own d.space d.sect && moveEnd own t.1 t.2.1 && (d.space == 0 || t.1 == 0)
      && s.mayName k d.space d.sect d.ofs d.len && s.mayName k t.1 t.2.1 t.2.2 d.len then 0 else nakProtection

/-! ### Posting (10 R245, R246, R248) -/

/-- Descriptors of a class that a core has outstanding. -/
def CoreSt.outOf (k : CoreSt) (cls : Nat) : Nat := (k.outst.filter fun o => o.cls == cls).length

/-- The outcome of a post: 0 POSTED, 1 NO_CREDIT, 2 GATED. -/
def CoreSt.postOutcome (k : CoreSt) (d : Desc) : Nat :=
  if k.gate.isSome then 2
  else if 64 ≤ k.outOf d.cls then 1
  else if d.dop = 1 && d.wantReply then
    let q := k.queue d.rplQ
    if q.isOpen && decide (q.rplHeld < q.rplSize) then 0 else 1
  else 0

/-- An item handed to sector n's own descriptor engine. -/
def State.toOwn (s : State) (n : Nat) (it : Item) : State := s.modSector n fun q => { q with toDesc := q.toDesc ++ [it] }

/-- The bits of DESC_SEND i that are not reserved (R244). -/
def sendMask (i : Nat) : Nat := if i = 0 then 0xE0FFFFFF else if i = 4 then 0xF0000000 else 0xFFFFFFFF

/-- The descriptor in DESC_SEND0 to DESC_SEND7 with SRC_CORE and EPOCH filled in by the engine. -/
def CoreSt.sendDesc (k : CoreSt) (c : Nat) : Desc :=
  let h (i : Nat) : Nat := (Tab.get k.descSend 0 i).toNat
  let w (i : Nat) : Word64 := BitVec.ofNat 64 (h (2 * i) + h (2 * i + 1) * 2 ^ 32)
  { w0 := put (put (w 0) 43 34 c) 23 16 k.epoch, w1 := w 1, w2 := w 2, w3 := w 3 }

/-- The request that a REPLY of core k to core `dst` answers: one with its TAG that the core has taken and not yet done. -/
def State.answered (s : State) (c : Nat) (d : Desc) : Nat :=
  let k := s.core c
  let n := sectorOf c
  let l := k.queues.flatMap fun x => (x.2.reqs.take x.2.taken).filter fun e =>
    let r := descOf (s.smemPeek n (x.2.reqAt e.slot) 32)
    r.src == d.dst && r.tag == d.tag && r.wantReply && r.rplQ == d.dstQ
  (l.head?.map (·.ser)).getD 0

/-- A write of v to DESC_SEND7 of core c: the descriptor is posted. -/
def State.descPost (s : State) (c : Nat) (v : Word32) : State :=
  let s := s.modCore c fun k => { k with descSend := Tab.set k.descSend 0 7 v }
  let n := sectorOf c
  let d0 := (s.core c).sendDesc c
  let d : Desc := { d0 with ser := (s.sector n).posts + 1, reSer := if d0.dop = 2 then s.answered c d0 else 0 }
  let r := (s.core c).postOutcome d
  let s := s.modCore c fun k => { k with postResult := r, postTag := d.tag }
  if r = 2 then s.countCore c Ctr.descGated
  else if r = 1 then s.countCore c Ctr.descNoCredit
  else
    let s := s.modSector n fun q => { q with posts := q.posts + 1 }
    let s := s.modCore c fun k => { k with outst := k.outst ++ [{ cls := d.cls, desc := d }] }
    let s := if d.dop = 1 && d.wantReply then s.modQueue c d.rplQ fun q => { q with reserved := q.reserved ++ [d.ser] } else s
    let s := s.countCore c Ctr.descPosted
    let why := s.senderCheck c d
    if why ≠ 0 then s.toOwn n (.status c (statusWord stNak why d.tag 0) d.cls d.ser)
    else if d.dop = 5 then s.toOwn n (.desc c d)
    else if d.dop = 4 then
      s.offer n 21 (.sync d.sect { path := 1, op := d.syncOp, obj := d.ofs, operand := fld d.w3 31 0, core := c, tag := d.tag, ser := d.ser })
    else s.offer n 21 (.desc d.dst d)

/-- The engine of core c's sector serves its sequencer: its clock runs and its last message has left (09 R226). -/
def State.engServes (s : State) (c : Nat) : Bool := s.sectorRuns (sectorOf c) && s.engFree (sectorOf c)

/-- DESC_POST: a write to DESC_SEND7. -/
def execDescPost (core : CoreId) (value : Word32) (s : State) : Res :=
  .next <| if s.engServes core.val then s.descPost core.val value else s

/-! ### Status entries (10 R246, R247, R252, R253) -/

/-- The outstanding descriptor of a post, and the others. -/
def takeOut (ser : Nat) : List Outstanding → Option Outstanding × List Outstanding
  | [] => (none, [])
  | o :: t => if o.desc.ser == ser then (some o, t) else let r := takeOut ser t; (r.1, o :: r.2)

/-- The part of core k's status FIFO for class cls has room (R246). -/
def CoreSt.statusRoom (k : CoreSt) (cls : Nat) : Bool := (k.statusFifo.filter fun x => x.2 == cls).length < 64

/-- A status entry of post `ser` reaches core c: the descriptor that it ends is no longer outstanding; one that ends nothing is
discarded (R254). -/
def State.statusIn (s : State) (c : Nat) (e : Word64) (cls ser : Nat) : State :=
  let k := s.core c
  let r := takeOut ser k.outst
  match r.1 with
  | none => s.countCore c Ctr.statusDiscard
  | some o =>
    let nak := fld e 63 60 == stNak
    let why := fld e 59 56
    let s := s.setCore c { k with
      outst := r.2, statusFifo := k.statusFifo ++ [(e, cls)]
      nakDest := if nak && why == nakFull then k.nakDest ++ [o.desc.dst * 16 + o.desc.dstQ] else k.nakDest }
    let s := if nak && o.desc.dop == 1 && o.desc.wantReply then
        s.modQueue c o.desc.rplQ fun q => { q with reserved := q.reserved.erase ser } else s
    if nak then s.countCoreSub c Ctr.descNakRx why 1 else s

/-- The tails of the request rings of a core's OPEN queues (R253). -/
def CoreSt.tails (k : CoreSt) : Tab Nat :=
  (upTo 16).filterMap fun q => if (k.queue q).isOpen then some (q, (k.queue q).reqNext + 1) else none

/-- A read of STATUS_POP_LO: bits 31:0 of the oldest entry, 0 when there is none; a QUEUE_FULL NAK advances the epoch,
records the tails and sets the retry gate. -/
def State.statusPop (s : State) (c : Nat) : Nat × State :=
  let k := s.core c
  match k.statusFifo with
  | [] => (0, s.setCore c { k with statusHi := 0 })
  | (e, _) :: rest =>
    let k := { k with statusFifo := rest, statusHi := BitVec.ofNat 32 (fld e 63 32) }
    let k := if fld e 63 60 == stNak && fld e 59 56 == nakFull then
        { k with epoch := (k.epoch + 1) % 256, gate := some k.tails
                 gateMarks := if k.gateMarks.contains (k.nakDest.headD 0) then k.gateMarks else k.gateMarks ++ k.nakDest.take 1
                 nakDest := k.nakDest.tail }
      else k
    (fld e 31 0, s.setCore c k)

/-- STATUS_POP -/
def execStatusPop (core : CoreId) (s : State) : Res :=
  .next <| if s.sectorRuns (sectorOf core.val) then (s.statusPop core.val).2 else s

/-- STATUS_ENTRY: the oldest item at a sector's engine is a status entry; it waits while its part of the FIFO is full, unless it
is one to be discarded (log 77). -/
def execStatusEntry (sector : SectorId) (s : State) : Res :=
  .next <|
    let n := sector.val
    match (s.sector n).toDesc with
    | .status c e cls ser :: rest =>
      if s.sectorRuns n && ((s.core c).statusRoom cls || (takeOut ser (s.core c).outst).1.isNone) then
        (s.modSector n fun q => { q with toDesc := rest }).statusIn c e cls ser
      else s
    | _ => s

/-- Every entry before each recorded tail is taken and done. -/
def CoreSt.drained (k : CoreSt) (t : Tab Nat) : Bool :=
  t.all fun e => !(k.queue e.1).isOpen || (k.queue e.1).reqs.all fun x => e.2 ≤ x.seq + 1

/-- RETRY_GATE_CLEAR: the gate clears and a mark release goes to each queue named by a popped QUEUE_FULL. -/
def execRetryGateClear (core : CoreId) (s : State) : Res :=
  .next <|
    let c := core.val
    let k := s.core c
    match k.gate with
    | none => s
    | some t =>
      if !k.drained t || !s.engServes c then s
      else
        let s := s.setCore c { k with gate := none, gateMarks := [] }
        k.gateMarks.foldl (fun s m => s.offer (sectorOf c) 21 (.mark (m / 16) (m % 16) c)) s

/-- MARK_RELEASE: the mark of sender and queue is cleared. -/
def execMarkRelease (sector : SectorId) (s : State) : Res :=
  .next <|
    let n := sector.val
    match (s.sector n).toDesc with
    | .mark c q src :: rest =>
      if s.sectorRuns n then
        (s.modSector n fun x => { x with toDesc := rest }).modQueue c q fun x => { x with marks := Tab.set x.marks 0 src 0 }
      else s
    | _ => s

/-! ### The reader (10 R243, R249, R258) -/

/-- QPOP_STATUS after a POP. -/
def State.popStatus (s : State) (c : Nat) (took poison : Bool) : State :=
  s.modCore c fun k => { k with qpopTook := took, qpopPoison := poison }

/-- The descriptor in the ring entry at offset a, with the post that filled it. -/
def State.entryAt (s : State) (c a : Nat) (e : QEntry) : Desc :=
  { descOf (s.smemPeek (sectorOf c) a 32) with ser := e.ser }

/-- A ring entry read into QPOP_DATA: whether it holds a poisoned word, and its descriptor. -/
def State.popRead (s : State) (c a : Nat) (e : QEntry) : Bool × Desc × State :=
  let n := sectorOf c
  let bad := (s.sector n).poisoned a 32
  let d := s.entryAt c a e
  let s := (s.modCore c fun k => { k with qpopData := d }).smemCountSec n 0 32
  (bad, d, (if bad then s.memUncorr n else s).popStatus c true bad)

/-- POP_REQ on queue q of core c. -/
def State.popReq (s : State) (c q : Nat) : State :=
  let x := (s.core c).queue q
  match x.isOpen, x.reqs[x.taken]? with
  | true, some e =>
    let r := s.popRead c (x.reqAt e.slot) e
    if !r.1 then r.2.2.modQueue c q fun x => { x with taken := x.taken + 1 }
    else
      -- a poisoned entry is freed (R258)
      let s := r.2.2.modQueue c q fun x => { x with reqs := x.reqs.eraseIdx x.taken }
      let s := if r.2.1.dop = 6 then s else s.sendStatus (sectorOf c) r.2.1 stPoison 0 0
      s.flushPending c q
  | _, _ => s.popStatus c false false

/-- POP_RPL on queue q of core c. -/
def State.popRpl (s : State) (c q : Nat) : State :=
  let x := (s.core c).queue q
  match x.isOpen, x.rpls with
  | true, e :: rest =>
    let r := s.popRead c (x.rplAt e.slot) e
    (r.2.2.modQueue c q fun x => { x with rpls := rest }).sendStatus (sectorOf c) r.2.1 (if r.1 then stPoison else stDone) 0 0
  | _, _ => s.popStatus c false false

/-- DONE on queue q of core c: the oldest taken request is completed and its entry freed. -/
def State.queueDone (s : State) (c q : Nat) : State :=
  let x := (s.core c).queue q
  match x.isOpen && x.taken != 0, x.reqs with
  | true, e :: rest =>
    let d := s.entryAt c (x.reqAt e.slot) e
    let s := s.modQueue c q fun x => { x with reqs := rest, taken := x.taken - 1 }
    let s := if d.dop = 6 then s else s.sendStatus (sectorOf c) d stDone 0 (s.core c).qdoneResult.toNat
    s.flushPending c q
  | _, _ => s.modCore c fun k => { k with qpopTook := false }

/-- Queue q of core c closes: its requests end with QUEUE_CLOSED, its replies are discarded. -/
def State.closeQueue (s : State) (c q : Nat) : State :=
  let x := (s.core c).queue q
  if !x.isOpen then s
  else
    let n := sectorOf c
    let s := s.modQueue c q fun x => { x with closed := true, reqs := [], taken := 0, rpls := [], reserved := [] }
    let s := x.reqs.foldl (fun s e =>
      let d := s.entryAt c (x.reqAt e.slot) e
      if d.dop = 6 then s.countCore c Ctr.replyDiscard
      else (s.sendStatus n d stNak nakClosed 0).countCoreSub c Ctr.descRefused (q * 16 + nakClosed) 1) s
    x.rpls.foldl (fun s e => (s.sendStatus n (s.entryAt c (x.rplAt e.slot) e) stDiscarded 0 0).countCore c Ctr.replyDiscard) s

/-- A ring of queue q of core c reaches into a bank under test, so that the engine's access to it stalls (09 R240). -/
def State.ringHeld (s : State) (c q : Nat) : Bool :=
  let x := (s.core c).queue q
  x.isOpen && s.bankHoldsAny (sectorOf c) (x.reqAt 0) (32 * (x.reqSize + x.rplSize))

/-- A command of core c's sequencer to its queue q, once the engine serves it. -/
def State.queueCmd (s : State) (c q : Nat) (f : State → State) : State :=
  if !s.engServes c then s else if s.ringHeld c q then s.testStall (sectorOf c) else f s

/-- POP_REQ -/
def execPopReq (core : CoreId) (queue : Fin 16) (s : State) : Res :=
  .next <| s.queueCmd core.val queue.val fun s => s.popReq core.val queue.val
/-- POP_RPL -/
def execPopRpl (core : CoreId) (queue : Fin 16) (s : State) : Res :=
  .next <| s.queueCmd core.val queue.val fun s => s.popRpl core.val queue.val
/-- QUEUE_DONE -/
def execQueueDone (core : CoreId) (queue : Fin 16) (s : State) : Res :=
  .next <| s.queueCmd core.val queue.val fun s => s.queueDone core.val queue.val
/-- QUEUE_CLOSE -/
def execQueueClose (core : CoreId) (queue : Fin 16) (s : State) : Res :=
  .next <| s.queueCmd core.val queue.val fun s => s.closeQueue core.val queue.val

/-! ### The destination engine (10 R248, R250, R252) -/

/-- A request refused at the destination. -/
def State.refuseDesc (s : State) (n : Nat) (d : Desc) (why : Nat) : State :=
  (s.sendStatus n d stNak why 0).countCoreSub d.dst Ctr.descRefused (d.dstQ * 16 + why) 1

/-- The pair of sender and queue marked with the request's epoch. -/
def State.markFull (s : State) (n : Nat) (d : Desc) : State :=
  (s.modQueue d.dst d.dstQ fun x => { x with marks := Tab.set x.marks 0 d.src (d.epoch + 1) }).refuseDesc n d nakFull

/-- The descriptor is one that its sender's engine has ended meanwhile (R254): the sender has not been reset since, and it is
no longer outstanding. -/
def State.endedPost (s : State) (d : Desc) : Bool :=
  let k := s.core d.src
  decide (k.serFrom ≤ d.ser) && d.ser != 0 && k.outst.all fun o => o.desc.ser != d.ser || o.ended

/-- A REQUEST decided by the engine of sector n. -/
def State.requestIn (s : State) (n : Nat) (d : Desc) : State :=
  let x := (s.core d.dst).queue d.dstQ
  if s.endedPost d then s
  else if (s.sector n).mstate (indexOf d.dst) = 2 || !x.valid then s.refuseDesc n d nakNoQueue
  else if x.closed then s.refuseDesc n d nakClosed
  else if Tab.get x.marks 0 d.src = d.epoch + 1 then s.refuseDesc n d nakFull
  else
    let s := s.modQueue d.dst d.dstQ fun x => { x with marks := Tab.set x.marks 0 d.src 0 }
    let s := s.flushPending d.dst d.dstQ
    if !((s.core d.dst).queue d.dstQ).reqRoom then s.markFull n d else s.queuePut d.dst d.dstQ d

/-- A REPLY decided by the engine of sector n. -/
def State.replyIn (s : State) (n : Nat) (d : Desc) : State :=
  let x := (s.core d.dst).queue d.dstQ
  if (s.sector n).mstate (indexOf d.dst) = 2 || !x.valid then s.sendStatus n d stNak nakNoQueue 0
  else
    -- the reservation of the request that it answers; where that is not known, the oldest
    let of := if d.reSer = 0 then x.reserved.headD 0 else d.reSer
    if x.closed || !x.reserved.contains of then (s.countCore d.dst Ctr.replyDiscard).sendStatus n d stDiscarded 0 0
    else
      let s := s.smemPoke n (x.rplAt x.nextRpl) d.bytes
      (s.modQueue d.dst d.dstQ fun x => { x with
        rpls := x.rpls ++ [{ slot := x.nextRpl, seq := x.rplNext, ser := d.ser }], rplNext := x.rplNext + 1
        reserved := x.reserved.erase of }).smemCountSec n 1 32

/-- The oldest item at sector n's engine, where it is a descriptor of kind `dop`. -/
def State.descHead (s : State) (n dop : Nat) (f : State → Desc → State) : State :=
  match (s.sector n).toDesc with
  | .desc _ d :: rest =>
    if d.dop ≠ dop || !s.sectorRuns n || !s.engFree n then s
    else if dop ≠ 5 && s.ringHeld d.dst d.dstQ then s.testStall n
    else f (s.modSector n fun q => { q with toDesc := rest }) d
  | _ => s

/-- DESCRIPTOR_REQUEST -/
def execDescriptorRequest (sector : SectorId) (s : State) : Res :=
  .next <| s.descHead sector.val 1 fun s d => s.requestIn sector.val d
/-- DESCRIPTOR_REPLY -/
def execDescriptorReply (sector : SectorId) (s : State) : Res :=
  .next <| s.descHead sector.val 2 fun s d => s.replyIn sector.val d

/-! ### Copies (10 R256, R258) -/

/-- DESCRIPTOR_MOVE: the engine of the sender's own sector starts the copy. -/
def execDescriptorMove (core : CoreId) (s : State) : Res :=
  .next <|
    let n := sectorOf core.val
    match (s.sector n).toDesc with
    | .desc _ d :: _ =>
      if d.src ≠ core.val then s
      else s.descHead n 5 fun s d => s.modSector n fun q => { q with moves := q.moves ++ [{ core := core.val, desc := d }] }
    | _ => s

/-- Bytes before the first poisoned word of a range in sector n's memory or in GDDR6. -/
def State.cleanBytes (s : State) (space n a len : Nat) : Nat :=
  let bad := if space = 0 then ((s.sector n).poison.map fun e => 8 * e.1).filter fun w => a ≤ w && w < a + len
    else (s.gddr.poison.map fun e => max a (64 * e.1)).filter fun w => a ≤ w && w < a + len && a < w + 64
           && Tab.get s.gddr.poison false (w / 64)
  bad.foldl (fun m w => min m (w - a)) len

/-- The copy of a MOVE by the engine of sector n: bytes copied, and the state. -/
def State.moveCopy (s : State) (n : Nat) (d : Desc) : Nat × State :=
  let t := d.dest
  let good := s.cleanBytes d.space n d.ofs d.len
  let bytes := if d.space = 0 then s.smemPeek n d.ofs good else s.gPeek d.ofs good
  let s := if d.space = 0 then s.smemCountSec n 0 good else s.gddrCount d.ofs good .compute 0
  let s := if good < d.len then (if d.space = 0 then s.memUncorr n else s.gCheck (d.ofs + good) 1) else s
  let s := if t.1 = 0 then (s.smemPoke n t.2.2 bytes).smemCountSec n 1 good else s.gWrite t.2.2 bytes .compute
  (good, s)

/-- A MOVE of sector n reads or writes a bank under test (09 R240). -/
def State.moveHeld (s : State) (n : Nat) (d : Desc) : Bool :=
  (d.space == 0 && s.bankHoldsAny n d.ofs d.len) || (d.dest.1 == 0 && s.bankHoldsAny n d.dest.2.2 d.len)

/-- The first MOVE of a core, and the others. -/
def takeMove (c : Nat) : List MoveSt → Option MoveSt × List MoveSt
  | [] => (none, [])
  | m :: t => if m.core = c then (some m, t) else let r := takeMove c t; (r.1, m :: r.2)

/-- MOVE_COMPLETE: the last write is accepted, or the copy stops at a poisoned word; the status is written. -/
def execMoveComplete (core : CoreId) (s : State) : Res :=
  .next <|
    let c := core.val
    let n := sectorOf c
    let r := takeMove c (s.sector n).moves
    match r.1 with
    | none => s
    | some m =>
      let t := m.desc.dest
      if !s.sectorRuns n then s
      -- its GDDR6 channel retrains (12 R303)
      else if (m.desc.space != 0 && s.gHeld m.desc.ofs m.desc.len) || (t.1 != 0 && s.gHeld t.2.2 m.desc.len) then s
      else if s.moveHeld n m.desc then s.testStall n
      else
        let x := (s.modSector n fun q => { q with moves := r.2 }).moveCopy n m.desc
        x.2.toOwn n (.status c (statusWord (if x.1 = m.desc.len then stDone else stPoison) 0 m.desc.tag x.1) 0 m.desc.ser)

/-! ### Resets (10 R243, R254) -/

/-- Every descriptor outstanding to sector n, of a core outside it, ends with QUEUE_CLOSED. -/
def State.endOutstanding (s : State) (n : Nat) : State :=
  (Tab.keys s.cores).foldl (fun s c =>
    if sectorOf c = n then s
    else
      let theirs (o : Outstanding) : Bool :=
        (if o.desc.dop = 4 then o.desc.sect else sectorOf o.desc.dst) == n && o.desc.dop != 5 && !o.ended
      let l := (s.core c).outst.filter theirs
      let s := if l.isEmpty then s
        else s.modCore c fun k => { k with outst := k.outst.map fun o => if theirs o then { o with ended := true } else o }
      l.foldl (fun s o =>
        s.toOwn (sectorOf c) (.status c (statusWord stNak nakClosed o.desc.tag 0) o.cls o.desc.ser)) s) s

/-- The descriptor state of core c as a core reset leaves it; its queues close first. -/
def State.resetDesc (s : State) (c : Nat) : State :=
  let s := (upTo 16).foldl (fun s q => s.closeQueue c q) s
  s.modCore c fun k => { k with
    queues := (k.queues.map fun e => (e.1, ({ cfg := e.2.cfg } : QueueSt))).filter fun e => e.2 != {}
    descSend := [], postResult := 0, postTag := 0, statusFifo := [], nakDest := [], statusHi := 0, qpopData := {}
    qdoneResult := 0, qpopTook := false, qpopPoison := false, outst := [], epoch := 0, gate := none, gateMarks := []
    serFrom := (s.sector (sectorOf c)).posts + 1 }

end Sys2Proof.Machine
end

