-- ==== Sys2Proof/Machine/Fire.lean ====
section
/-! DEFINITION. Fire.lean: the FIRE phase of an event core (03 R76 to R82; 04 R104, R117; 05 R129, R131; 07 R170, R171):
the fire set, evaluation of its columns, winner-take-all, emission, and the end of the phase. -/

namespace Sys2Proof.Machine

/-! ### The fire set (R76) -/

/-- Columns whose last evaluation is 2^30 or more steps back (R79). -/
def CoreSt.stale (k : CoreSt) (n : Nat) : List Nat :=
  if ageRefresh n then (upTo (modeCols k.mode)).filter fun j => 2 ^ 30 ≤ traceDelta n (k.neu j 4).toNat else []

/-- The companion columns of the core. -/
def CoreSt.companions (k : CoreSt) : List Nat := (k.listedCols.filter k.cComp).map k.cCompanion

/-- The columns evaluated with column j: both of a GLU pair (04 R108). DESIGN CHOICE (log 83): where only one of a pair is in the fire
set, as S12D4 delays can leave it, both are evaluated. -/
def CoreSt.pairOf (k : CoreSt) (j : Nat) : List Nat :=
  let p := if j % 2 = 0 then j + 1 else j - 1
  if k.cModel j = 5 && k.cModel p = 5 then [j, p] else [j]

/-- The fire set of step n in ascending order; `refresh` is true when step n + 1 is a delta refresh step. -/
def CoreSt.fireSet (k : CoreSt) (n : Nat) (refresh : Bool) : List Nat :=
  let slot := n % 64 * 16384
  let woken := ((Tab.keys k.wake).filter fun a => slot ≤ a && a < slot + 16384).map (· - slot)
  let mains := k.listedCols.filter fun j => k.cComp j && Tab.get k.touched false (k.cCompanion j)
  let deltas := if refresh then k.listedCols.filter k.cDelta else []
  let all := Tab.keys k.touched ++ woken ++ mains ++ k.stale n ++ deltas
  let comps := k.companions
  sortNat ((all.flatMap k.pairOf).dedup.filter fun j => !comps.contains j)

/-! ### Evaluation (04 R104) -/

/-- One evaluated column: its outcome (none for a GLU gate, which changes nothing but LAST_STEP), and the columns whose
fire read clamped. -/
structure ColEval where
  /-- column -/
  j : Nat
  /-- outcome -/
  out : Option EvalOut
  /-- columns whose fire read clamped -/
  sats : List Nat
  deriving DecidableEq, Repr

/-- The gate column of a GLU pair. -/
def CoreSt.isGate (k : CoreSt) (j : Nat) : Bool := k.cModel j = 5 && j % 2 == 1

/-- An outcome that leaves the record as it is and emits nothing: a reserved model code, which only DEBUG_WRITE can
place (04 R118; log 21). -/
def CoreSt.evalNone (k : CoreSt) (j : Nat) : EvalOut :=
  { rest := k.nrec j, fired := k.nrec j, fires := false, margin := 0, y := 0, deriv := 0, seed := 0, inc := 0, wakes := [] }

/-- Column j evaluated in step n. -/
def CoreSt.evalCol (k : CoreSt) (n j : Nat) : ColEval :=
  let x := k.input n j
  let delta := traceDelta n (k.neu j 4).toNat
  if k.isGate j then
    -- its input is read by the value column, which counts its clamp here
    { j := j, out := none, sats := x.2 }
  else
    let o : EvalOut := match k.cModel j with
      | 0 => k.evalLif j false x.1 delta
      | 1 => k.evalLif j true x.1 delta
      | 2 => k.evalRf j x.1 delta
      | 3 => k.evalGraded j true x.1
      | 4 => k.evalGraded j false x.1
      | 5 => k.evalGlu j x.1 (k.input n (j + 1)).1 delta
      | m => if 32 ≤ m then k.evalProg j x.1 (k.fireRead n j).sat delta else k.evalNone j
    { j := j, out := some o, sats := x.2 }

/-! ### Winner-take-all (04 R117) -/

/-- A column that would emit. -/
def ColEval.candidate (k : CoreSt) (e : ColEval) : Bool := (e.out.any (·.fires)) && k.cEmitType e.j != 0

/-- Candidate a ranks before candidate b: larger margin, NaN last, ties to the lower index. -/
def ranksBefore (a b : ColEval) : Bool :=
  let x := (a.out.map (·.margin)).getD f32NaN
  let y := (b.out.map (·.margin)).getD f32NaN
  match f32IsNaN x, f32IsNaN y with
  | false, true => true
  | true, false => false
  | true, true => a.j < b.j
  | false, false => f32Lt y x || (f32Eq x y && a.j < b.j)

/-- Column e loses in its winner-take-all group among the evaluated columns. -/
def CoreSt.loses (k : CoreSt) (all : List ColEval) (e : ColEval) : Bool :=
  let g := k.cGroup e.j
  g != 0 && e.candidate k &&
    k.cWtaK e.j ≤ (all.filter fun o => k.cGroup o.j == g && o.candidate k && ranksBefore o e).length

/-! ### Write-back and emission -/

/-- What a FIRE phase adds up. -/
structure FireSum where
  /-- items in order -/
  items : List EmitItem := []
  /-- CONV_SAT -/
  sat : Nat := 0
  /-- CONV_NAN -/
  nan : Nat := 0
  /-- STATE_NAN -/
  stateNan : Nat := 0
  /-- ACC_SAT -/
  accSat : Nat := 0
  deriving DecidableEq, Repr

/-- A wake request of column j, t steps ahead of step n (R77). -/
def CoreSt.wakeIn (k : CoreSt) (n j t : Nat) : CoreSt := { k with wake := Tab.set k.wake false ((n + t) % 64 * 16384 + j) true }

/-- f10 as an increment: rounded, clamped to 0 to 255, NaN 0 (06 R148). -/
def incOf (v : Word32) : Nat := (narrowInt v 0 0 255).q.toNat

/-- The derivative and seed codes of an evaluated column logged in a forward step (07 R172, R173). -/
def CoreSt.logCodes (k : CoreSt) (j : Nat) (d seed : Word32) : CoreSt × Nat × Nat :=
  let a := codeOf d (f32OfInt 16384)
  let b := codeOf seed f32One
  ({ k with deriv := Tab.set k.deriv 0 j a.q, seedCode := Tab.set k.seedCode 0 j b.q }, b2n a.sat + b2n b.sat, b2n a.nan + b2n b.nan)

/-- Column e written back: record, accumulators, emission, wakes, increments and codes. `k0` is the core as FIRE began. DESIGN CHOICE
(log 83): a column of DEST_COUNT 0, whose items are discarded at the head of the queue (03 R83), counts as having emitted for R148. -/
def fireCol (k0 : CoreSt) (n : Nat) (all : List ColEval) (refresh quiet : Bool) (r : CoreSt × FireSum) (e : ColEval) :
    CoreSt × FireSum :=
  let j := e.j
  let k := r.1.afterRead n j
  let k := { k with evaluated := Tab.set k.evaluated false j true }
  let t := { r.2 with accSat := r.2.accSat + e.sats.length }
  match e.out with
  | none =>
    -- the gate: derivative v_j * s * (1 - s) of its value column, and LAST_STEP
    let k := k.putNeu j 4 (BitVec.ofNat 32 n)
    match (all.find? fun o => o.j + 1 == j).bind (·.out) with
    | some o =>
      if k0.logEn then
        let c := k.logCodes j (f32Mul (f32Mul o.rest.v o.deriv) (f32Sub f32One o.deriv)) 0
        (c.1, { t with sat := t.sat + c.2.1, nan := t.nan + c.2.2 })
      else (k, t)
    | none => (k, t)
  | some o =>
    let loser := k0.loses all e
    let emits := o.fires && !loser
    let q := if emits then o.fired else o.rest
    let em := k0.emitCol j n q o.y emits refresh quiet
    let k := k.putNrec j n em.q
    let k := { k with emitted := Tab.set k.emitted false j (!em.items.isEmpty), postInc := Tab.set k.postInc 0 j (incOf o.inc) }
    let k := o.wakes.foldl (fun k w => k.wakeIn n j w) k
    let c := if k0.logEn then k.logCodes j o.deriv o.seed else (k, 0, 0)
    (c.1, { items := t.items ++ em.items, sat := t.sat + em.sat + c.2.1, nan := t.nan + em.nan + c.2.2
            stateNan := t.stateNan + b2n em.q.hasNaN, accSat := t.accSat })

/-! ### The phase -/

/-- How many of the waiting items the next issue has: those of its group of 64 columns (R78; log 81). -/
def issueLen : List EmitItem → Nat
  | [] => 0
  | x :: rest => (rest.takeWhile fun y => y.col / 64 == x.col / 64).length + 1

/-- Issues enter the emit queue, each when the queue has entries for all its items (R82); `fuel` bounds their number. -/
def CoreSt.admitFuel : Nat → CoreSt → CoreSt
  | 0, k => k
  | fuel + 1, k =>
    let m := issueLen k.fireWait
    if m = 0 || 2048 < k.eq.length + m then k
    else CoreSt.admitFuel fuel { k with eq := k.eq ++ k.fireWait.take m, fireWait := k.fireWait.drop m }

/-- The issues that wait enter the emit queue as far as it has room for them. -/
def CoreSt.admitIssues (k : CoreSt) : CoreSt := CoreSt.admitFuel k.fireWait.length k

/-- The items of a FIRE phase enter the emit queue issue by issue. -/
def CoreSt.enqueue (k : CoreSt) (items : List EmitItem) : CoreSt := { k with fireWait := items }.admitIssues

/-- Issue cycles of a FIRE phase (R78): each group issues once per model among its columns, a program for its L cycles. -/
def CoreSt.issueCycles (k : CoreSt) (cols : List Nat) : Nat :=
  ((cols.map fun j => (j / 64, k.cModel j)).dedup.map fun g =>
    if 32 ≤ g.2 then nfld (Tab.get k.progEnt 0 (g.2 - 32)).toNat 16 10 + 1 else 1).sum

/-- The columns of a forward step evaluated: everything of FIRE n but its end. -/
def State.fireForward (s : State) (c n : Nat) : State :=
  let k := s.core c
  let net := s.netOf c
  let refresh := net.refreshStep (n + 1)
  let quiet := net.fwd != 0 && net.pos + 1 == net.fwd
  let set := k.fireSet n refresh
  let all := set.map (k.evalCol n)
  let slot := n % 64 * 16384
  let k1 := { k with emitted := [], evaluated := [], postInc := [], deriv := [], seedCode := [] }
  let r := all.foldl (fireCol k n all refresh quiet) (k1, {})
  let k2 := { r.1 with touched := [], wake := Tab.restrict r.1.wake fun a => !(slot ≤ a && a < slot + 16384) }
  let s := s.setCore c (k2.enqueue r.2.items)
  let s := (s.countCore c Ctr.accSat r.2.accSat).countCore c Ctr.convSat r.2.sat
  let s := (s.countCore c Ctr.convNan r.2.nan).countCore c Ctr.stateNan r.2.stateNan
  let s := (s.countCore c Ctr.neuronsEvaluated all.length).countCore c Ctr.stateBytes (64 * all.length)
  let s := s.pmcEvent c 0x302 (k.issueCycles set)
  s.level c Ctr.eqHwm (s.core c).eq.length

/-- The rows of a backward step evaluated (07 R171, R180). -/
def State.fireBackward (s : State) (c n : Nat) : State :=
  let k := s.core c
  let net := s.netOf c
  let r := k.fireRows n (net.pos + 1 == net.fwd + net.bwd)
  let s := s.setCore c ({ k with eps := [] }.enqueue r.1)
  (s.countCore c Ctr.errSat r.2).level c Ctr.eqHwm (s.core c).eq.length

/-- DELIVER of step n begins on core c (05 R131; 07 R173, R178): on a delta refresh step persistent columns clear, and a
backward step takes its log frame and prefetches the next (R176). -/
def State.deliverBegin (s : State) (c n : Nat) : State :=
  let net := s.netOf c
  let f := net.fwd + net.fwd - 1 - net.pos
  let s := if net.backward then
      let s := s.loadFrame c f
      if net.pos + 1 < net.fwd + net.bwd then s.fetchFrame c (f - 1) else s
    else
      s.modCore c fun k =>
        let t := k.tAhead.getD (f32One, f32One)
        { k with xsum := [], deriv := [], seedCode := [], tScale := t.1, tOut := t.2, tAhead := none, tokT := k.tokTAhead, tokTAhead := [] }
  let s := s.modCore c fun k => { k with phase := 1 }
  if net.refreshStep n && !net.backward then
    s.modCore c fun k => ((k.persistCols.foldl CoreSt.accClear k).resetInCodes)
  else s

/-- FIRE of step n, or its skipping, is over on core c: the core waits for the next step, or goes on with the one that has
opened meanwhile (05 R122, R129). -/
def State.coreAdvance (s : State) (c : Nat) : State :=
  let k := s.core c
  match k.opens with
  | [] => s.modCore c fun k => { k with phase := 3 }
  | _ :: rest =>
    let s := if k.step = k.fireOf then (s.snapCore c).modCore c fun k => { k with step := k.fireOf + 1 } else s
    (s.modCore c fun k => { k with opens := rest, phase := 1 }).deliverBegin c (s.core c).step

/-- FIRE n of core c ends (05 R122, R129; 03 R89; 06 R152): the STEP interrupt, LEARN n, the log frame, and DELIVER of
the next step where it has opened meanwhile, which is an overrun. -/
def State.fireEnd (s : State) (c : Nat) : State :=
  let k := s.core c
  let n := k.fireOf
  let net := s.netOf c
  let s := s.raiseSeq c 0
  let s := if net.backward then s.gradStart c n
    else
      let s := if net.fwd != 0 then s.writeFrame c n net.pos else s
      s.learnStart c n
  let s := match k.opens with
    | [] => s
    | t :: _ =>
      let s := (s.countCore c Ctr.fireOverrun).countCore c Ctr.fireOverrunNs (s.now - t)
      if k.net = 0 then s else s.raiseNet (k.net - 1) 3
  s.coreAdvance c

/-- FIRE may begin or go on at core c (05 R122, R123): in-flight events have completed, LEARN of the step before has
retired, and no halt holds it (20 R499). -/
def State.canFire (s : State) (c : Nat) : Bool :=
  let k := s.core c
  k.phase == 2 && !k.learning && k.lookup.isNone && k.fetch.isNone && k.seeds.isEmpty && !k.fireHeld && k.fireWait.isEmpty
    && s.sectorRuns (sectorOf c) && (s.sector (sectorOf c)).mstate (indexOf c) == 0

end Sys2Proof.Machine
end

