-- ==== Sys2Proof/Machine/Emit.lean ====
section
/-! DEFINITION. Emit.lean: the emit stage (03 R82 to R85, 04 R99, R100; 05 R124; 09 R228), and PENNANT events of a
sequencer (20 R503). -/

namespace Sys2Proof.Machine

/-- One destination of an item: a ring function or a core, row, delay. -/
structure EmitDest where
  /-- a ring function -/
  ring : Bool
  /-- core or ring function -/
  dest : Nat
  /-- row -/
  row : Nat
  /-- delay -/
  delay : Nat
  deriving DecidableEq, Repr

/-- Destinations of an item: DEST_COUNT of its column, or the one of an ERROR item (07 R180). -/
def CoreSt.destCount (k : CoreSt) (x : EmitItem) : Nat := if x.typ = 4 then 1 else k.cDests x.col

/-- Destination i of an item (04 R99, 07 R180). DESIGN CHOICE (log 83): a run that DEBUG_WRITE leads past entry 16,383 reads entries of
0 there, a destination of core 0, row 0. -/
def CoreSt.destOf (k : CoreSt) (x : EmitItem) (i : Nat) : EmitDest :=
  if x.typ = 4 then { ring := k.revRing x.col, dest := k.revDest x.col, row := k.revCol x.col, delay := 0 }
  else
    let w := k.route (k.cRoute x.col + i)
    { ring := nbit w 31, dest := nfld w 30 21, row := nfld w 20 9, delay := nfld w 8 3 }

/-- The event word of an item for a destination, sent by core c (03 R83). DESIGN CHOICE (log 83): R83 sends the item's `OUTLIER`, but no
field of an item, a column or a route gives it, so every event a core emits carries 0. -/
def emitWord (c : Nat) (x : EmitItem) (d : EmitDest) : Word64 :=
  mkEvent x.typ d.dest d.row d.delay x.payload.toNat false x.pfmt (sectorOf c) false (indexOf c) (if x.typ = 3 then x.modCh else 0)

/-- The event of destination i of an item, with its sideband: tagged for the step after its FIRE (05 R124). -/
def CoreSt.emitEvent (k : CoreSt) (c : Nat) (x : EmitItem) (i : Nat) : EvItem :=
  { ev := emitWord c x (k.destOf x i), tag := (x.step + 1) % 4, refresh := x.refresh }

/-- An event for a core enters the sector router through the port of core c, scheduled or best-effort, where the buffer
has room (09 R226, R228). -/
def State.toRouter (s : State) (c : Nat) (e : EvItem) (mayBeSched : Bool) : Option State :=
  let n := sectorOf c
  let p := s.corePort c
  if mayBeSched && s.isSched c e.ev then
    if 8 ≤ ((s.sector n).inPort p).sched.length then none
    else
      let d := s.dueOf c p e
      some (s.modIn n p fun i => { i with sched := i.sched ++ [{ e with sched := true, due := d.1, lane := d.2 }] })
  else if !s.roomAt n p (.event e) then none
  else some (s.offer n p (.event e))

/-- An event sent by core c counted in its sent total of the tag (05 R133). -/
def State.addSent (s : State) (c tag : Nat) : State :=
  s.modCore c fun k => { k with sent := Tab.set k.sent 0 tag (Tab.get k.sent 0 tag + 1) }

/-- The outlier channels of the list of a ring function: of a packer, or of a flow sender (02 R54, R56). -/
def State.outliersOf (s : State) (fn : Nat) : List Nat :=
  if 0x100 ≤ fn && fn < 0x120 then (if fn % 2 = 0 then (s.dp ((fn - 0x100) / 2)).outl else [])
  else if 0x120 ≤ fn && fn < 0x130 then (s.rp (fn - 0x120)).outl else (s.rfn fn).outl

/-- Destination i of item x sent: to the ring port (R100) with the column's EMIT_SCALE, or to a core. -/
def State.sendDest (s : State) (c : Nat) (x : EmitItem) (i : Nat) : Option State :=
  let k := s.core c
  let d := k.destOf x i
  let e := k.emitEvent c x i
  if d.ring then
    let it : Item := .ring d.dest c e (if x.typ = 4 then f32One else k.colF x.col 1)
    if !s.roomAt (sectorOf c) (s.corePort c) it then none
    else
      let s' := s.offer (sectorOf c) (s.corePort c) it
      some (if (s.outliersOf d.dest).contains d.row then s' else s'.modCore c fun k =>
        { k with maxAbs := Tab.set k.maxAbs 0 d.dest (maxAbsStep (Tab.get k.maxAbs 0 d.dest) x.value) })
  else (s.toRouter c e true).map fun s => s.addSent c e.tag

/-- The emit stage of a halted core finishes only the item it has begun (20 R494); while a FIRE still has items to hand
over it goes on, so that the FIRE ends. -/
def CoreSt.emitStops (k : CoreSt) (x : EmitItem) : Bool := k.halted && x.sent = 0 && (k.fireWait.isEmpty || k.engHalted)

/-- The item at the head sends its next destination; the item leaves with its last one. Answers the state and whether it
changed. -/
def State.emitHead (s : State) (c : Nat) : State :=
  let k := s.core c
  match k.eq with
  | [] => s
  | x :: rest =>
    if k.destCount x = 0 then s.modCore c fun k => { k with eq := rest }
    else if k.emitStops x then s
    else match s.sendDest c x x.sent with
    | none => s
    | some s =>
      let s := s.countSent c
      let s := if x.sent = 0 then
          let t := s.traceSampled c 29 2 x.col (k.emitEvent c x 0).ev.toNat k.emitSkip
          t.2.modCore c fun k => { k with emitSkip := t.1 }
        else s
      s.modCore c fun k =>
        if x.sent + 1 < k.destCount x then { k with eq := { x with sent := x.sent + 1 } :: rest } else { k with eq := rest }

/-- A write of PENNANT_SEND by the sequencer of core c (20 R503): the state, or none where the destination lies outside the
sender's network. With its buffer full the event waits at the port: the state is then unchanged. -/
def State.pennantSend (s : State) (c v : Nat) : Option State :=
  let k := s.core c
  let dst := nfld v 29 20
  if k.net = 0 || !(s.netOf c).cores.contains dst then none
  else
    let ev := mkEvent 6 dst 0 0 (nfld v 15 0) false 1 (sectorOf c) false (indexOf c) (nfld v 31 30)
    let e : EvItem := { ev := ev, tag := s.cutStep c % 4 }
    some (((s.toRouter c e false).map fun s => s.addSent c e.tag).getD s)

/-- PENNANT_SEND: a write of the register by the core's sequencer. -/
def execPennantSend (core : CoreId) (value : Word32) (s : State) : Res :=
  .next <|
    if !s.sectorRuns (sectorOf core.val) then s
    else match s.pennantSend core.val value.toNat with
    | some s => s
    | none => s.countCore core.val Ctr.seqAccessFault

end Sys2Proof.Machine
end

