-- ==== Sys2Proof/Machine/Token.lean ====
section
/-! DEFINITION. Token.lean: experts and travelling tokens (08): the token packet, the dispatch and return packers, the
token unpacker with its windows and admission, expansion, and the combiner. -/

namespace Sys2Proof.Machine

/-! ### Ring functions (R190) -/

abbrev fnDispatch (p : Nat) : Nat := 0x100 + 2 * p
abbrev fnRouter (p : Nat) : Nat := 0x101 + 2 * p
abbrev fnReturn (p : Nat) : Nat := 0x120 + p
abbrev fnCombiner (p : Nat) : Nat := 0x130 + p
/-- The token unpacker as an emitter of its home network: it has no ring function number (log 33). -/
abbrev fnUnpacker : Nat := 1024

/-- The first item of the ring port of sector n whose function number satisfies a test, taken out. -/
def State.takeRing (s : State) (n : Nat) (want : Nat → Bool) : Option (Nat × Nat × EvItem × Word32 × State) :=
  let test (it : Item) : Bool := match it with | .ring fn _ _ _ => want fn | _ => false
  match (s.sector n).toRing.find? test with
  | some (.ring fn src e scale) => some (fn, src, e, scale, s.modSector n fun q => { q with toRing := q.toRing.erase (.ring fn src e scale) })
  | _ => none

/-- An event that a ring function does not take (R190, 15 R377): token functions count it by function, others by port. -/
def State.ringIgnored (s : State) (n fn : Nat) : State :=
  if 0x100 ≤ fn && fn < 0x140 && (s.rfn fn).net != 0 then s.countDev Ctr.tokenEventIgnored fn
  else s.countSec n Ctr.ringEventIgnored

/-- Ring function fn is bound to the network of the emitting core (15 R377). -/
def State.ringBound (s : State) (fn src : Nat) : Bool := (s.rfn fn).net != 0 && (s.rfn fn).net == (s.core src).net

/-- No event for ring function fn is on its way to, or waits at, a ring port. -/
def State.ringQuiet (s : State) (fn : Nat) : Bool :=
  let isFn (it : Item) : Bool := match it with | .ring g _ _ _ => g == fn | _ => false
  (upTo 8).all fun n => !(s.sector n).toRing.any isFn && !((s.sector n).link 4).inFlight.any isFn
    && (s.sector n).inp.all fun p => !p.2.be.any isFn

/-- One more term in a table of exact sums, kept by tag and element. -/
def addSumAt (t : Tab Int) (tag i : Nat) (v : Int) : Tab Int := Tab.set t 0 (tag * 4096 + i) (Tab.get t 0 (tag * 4096 + i) + v)

/-- PACKER_EVENT_ACCEPT: the oldest event for a token function at the sector's ring port. -/
def execPackerEventAccept (sector : SectorId) (s : State) : Res :=
  .next <|
    match s.takeRing sector.val fun fn => 0x100 ≤ fn && fn < 0x140 with
    | none => s
    | some (fn, src, e, scale, s) =>
      let ty := evType e.ev
      let i := evRow e.ev
      let q := evInt e.ev
      if !s.ringBound fn src then s.ringIgnored sector.val fn
      else if fn < 0x120 then
        if ty ≠ 2 then s.ringIgnored sector.val fn
        else if fn % 2 = 0 then s.modDp ((fn - 0x100) / 2) fun k => { k with sums := addSumAt k.sums e.tag i q, scale := scale }
        else s.modDp ((fn - 0x100) / 2) fun k => { k with winners := k.winners ++ [(e.tag, i, q)], rScale := scale }
      else if fn < 0x130 then
        if ty = 2 then s.modRp (fn - 0x120) fun k => { k with sums := addSumAt k.sums e.tag i q, scale := scale }
        else if ty = 4 then s.modRp (fn - 0x120) fun k => { k with errs := addSumAt k.errs e.tag i q }
        else s.ringIgnored sector.val fn
      else if ty = 4 then s.modComb (fn - 0x130) fun k => { k with errs := addSumAt k.errs e.tag i q }
      else s.ringIgnored sector.val fn

/-! ### Token packets (R197, R198) -/

abbrev kindDispatch : Nat := 0
abbrev kindReturn : Nat := 1
abbrev kindError : Nat := 2
abbrev kindClose : Nat := 3

/-- Zero point of a body. -/
def zpOf (zpm : Nat) : Int := if zpm = 1 then -128 else 0

/-- The header of a packet. -/
def Token.header (t : Token) : List Byte :=
  let hi := t.kind % 4 * 2 ^ 60 + b2n t.delta * 2 ^ 59 + t.zpm % 2 * 2 ^ 58 + t.outl.length % 16 * 2 ^ 54 + t.slot % 4 * 2 ^ 52
    + (t.n - 1) % 4096 * 2 ^ 40 + t.expert % 65536 * 2 ^ 16 + t.seq % 65536
  toLe 8 (t.window % 2 ^ 32 * 2 ^ 32 + t.tscale.toNat) ++ toLe 8 hi

/-- A section padded to 8 bytes. -/
def padSection (l : List Byte) : List Byte := fitBytes (roundUp l.length 8) l

/-- The elements whose codes differ from a base. -/
def diffElems (codes base : List Int) : List Nat := (upTo codes.length).filter fun i => codes.getD i 0 != base.getD i 0

/-- DELTA body against a base: the bitmap, then the new codes. -/
def deltaBody (codes base : List Int) : List Byte :=
  let d := diffElems codes base
  let nb := (codes.length + 7) / 8
  ((upTo nb).map fun b => BitVec.ofNat 8 (((upTo 8).map fun x => if d.contains (8 * b + x) then 2 ^ x else 0).sum))
    ++ d.map fun i => BitVec.ofNat 8 (toField 8 (codes.getD i 0))

/-- The packet of a token; `base` is the mirror of a DELTA body. A CLOSE packet's TSCALE is 1.0 (R197; log 79). -/
def Token.bytes (t : Token) (base : List Int) : List Byte :=
  if t.kind = kindClose then
    toLe 8 (t.window % 2 ^ 32 * 2 ^ 32 + f32One.toNat) ++ toLe 8 (kindClose * 2 ^ 60 + t.expert % 65536 * 2 ^ 16)
  else
    t.header
      ++ padSection (if t.kind = kindError then t.codes.flatMap fun c => toLe 2 (toField 16 c)
        else if t.delta then deltaBody t.codes base else t.codes.map fun c => BitVec.ofNat 8 (toField 8 c))
      ++ (if t.outl.isEmpty then [] else
        padSection (toLe 4 t.sout.toNat ++ zeros 4 ++ t.outl.flatMap fun o => toLe 2 o.1 ++ toLe 2 (toField 16 o.2)))

/-- A packet taken apart: header and sections; `good` is false where it breaks a FORMAT rule of R203 that needs no
binding. -/
structure Packet where
  /-- the header's fields, with codes for a FULL or ERROR body -/
  tok : Token
  /-- FORMAT rules hold -/
  good : Bool
  /-- changed elements and their codes, of a DELTA body -/
  news : List (Nat × Int)
  deriving DecidableEq, Repr

/-- A packet parsed. -/
def parsePacket (b : List Byte) : Packet :=
  let lo := leAt b 0 8
  let hi := leAt b 8 8
  let kind := nfld hi 61 60
  let n := nfld hi 51 40 + 1
  let nout := nfld hi 57 54
  let delta := nbit hi 59
  let nb := (n + 7) / 8
  let bits := (upTo n).filter fun i => nbit (byteAt b (16 + i / 8)) (i % 8)
  let bodyLen := roundUp (if kind = kindError then 2 * n else if delta then nb + bits.length else n) 8
  let at_ := 16 + bodyLen
  let outLen := if nout = 0 then 0 else roundUp (8 + 4 * nout) 8
  let t : Token := {
    kind := kind, delta := delta, zpm := b2n (nbit hi 58), slot := nfld hi 53 52, n := n, expert := nfld hi 31 16, seq := nfld hi 15 0
    window := nfld lo 63 32, tscale := BitVec.ofNat 32 (nfld lo 31 0)
    codes := if kind = kindError then (upTo n).map fun i => sext 16 (leAt b (16 + 2 * i) 2)
      else (upTo n).map fun i => sext 8 (byteAt b (16 + i))
    sout := if nout = 0 then f32One else BitVec.ofNat 32 (leAt b at_ 4)
    outl := (upTo nout).map fun i => (leAt b (at_ + 8 + 4 * i) 2, sext 16 (leAt b (at_ + 10 + 4 * i) 2)) }
  { tok := t
    good := nfld hi 63 62 == 0 && (if kind = kindClose then b.length == 16 else nout ≤ 8 && b.length == at_ + outLen)
    news := (upTo bits.length).map fun x => (bits.getD x 0, sext 8 (byteAt b (16 + nb + x))) }

/-- The main codes of a packet on a base. -/
def Packet.codes (p : Packet) (base : List Int) : List Int :=
  if p.tok.delta then p.news.foldl (fun l e => l.set e.1 e.2) base else p.tok.codes

/-! ### Code caches (R215) -/

/-- The codes held for a sequence. -/
def CodeCache.find (c : CodeCache) (seq : Nat) : Option (List Int) := (c.find? fun e => e.1 == seq).map Prod.snd

/-- The entry of a sequence replaced; the one least recently replaced gives way. -/
def CodeCache.put (c : CodeCache) (size seq : Nat) (codes : List Int) : CodeCache :=
  let l : CodeCache := (c.filter fun e => e.1 != seq) ++ [(seq, codes)]
  l.drop (l.length - size)

/-! ### Building a body (R194 to R196) -/

/-- The elements of a packer for a tag, as F32 values. -/
def PackSt.values (k : PackSt) (tag : Nat) : List Word32 :=
  (upTo k.n).map fun i => f32Mul (f32OfInt (Tab.get k.sums 0 (tag * 4096 + i))) k.scale

/-- A vector narrowed for a token (02 R55, R56): codes, s_tok, outlier entries, s_out, and the counts of CONV_SAT and
CONV_NAN. -/
def narrowToken (zpm : Nat) (outl : List Nat) (v : List Word32) : Token × Nat × Nat :=
  let z := zpOf zpm
  let main := (upTo v.length).filter fun i => !outl.contains i
  let m := main.foldl (fun m i => maxAbsStep m (v.getD i 0)) 0
  let mo := outl.foldl (fun m i => maxAbsStep m (v.getD i 0)) 0
  let st := tokenScale m z
  let so := outlierScale mo
  let codes := (upTo v.length).map fun i => if outl.contains i then ⟨z, false, false⟩ else narrowP (v.getD i 0) st false z
  let outs := outl.map fun i => (i, narrowP (v.getD i 0) so true 0)
  let all := codes ++ outs.map Prod.snd
  ({ n := v.length, zpm := zpm, tscale := st, codes := codes.map (·.q), sout := so, outl := outs.map fun o => (o.1, o.2.q) },
    (all.filter (·.sat)).length, (all.filter (·.nan)).length)

/-- A token packet offered to its flow, FULL or DELTA by R196, with the mirror updated and its counters: `sub` is the
packer's place among the packers' sub-indices. -/
def State.sendToken (s : State) (sub f : Nat) (t : Token) (ackFlow ackSeq : Nat) : State :=
  let x := s.flow f
  let base := CodeCache.find x.mirror t.seq
  let cached := t.kind = kindDispatch || t.kind = kindReturn
  let delta := cached && match base with
    | some b => b.length == t.n && (diffElems t.codes b).length + (t.n + 7) / 8 < t.n
    | none => false
  let bytes := ({ t with delta := delta } : Token).bytes (base.getD [])
  let s := if cached then s.modFlow f fun x => { x with mirror := CodeCache.put x.mirror x.cacheSize t.seq t.codes } else s
  let s := if t.kind = kindClose then s else (s.countDev Ctr.tokenSent sub).countDev Ctr.tokenDeltaSent sub (b2n delta)
  (s.countDev Ctr.tokenBytes sub bytes.length).offerMsg f 2 bytes ackFlow ackSeq (sub + 1) base

/-! ### Gates (R191, R192) -/

/-- A logit put in its place: descending, arrival order among equals, NaN last. -/
def insWinner (w : Nat × Word32) : List (Nat × Word32) → List (Nat × Word32)
  | [] => [w]
  | x :: t => if (f32IsNaN x.2 && !f32IsNaN w.2) || f32Lt x.2 w.2 then w :: x :: t else x :: insWinner w t

/-- The winners in slot order. -/
def sortWinners (l : List (Nat × Word32)) : List (Nat × Word32) := l.foldl (fun t w => insWinner w t) []

/-- The part r of R192 for a logit. -/
def gatePart (ym y : Word32) : Word32 :=
  let d := f32Sub ym y
  if f32IsNaN d then 0
  else
    let w := f32Mul (f32Min d (f32OfInt 16)) (f32OfInt 16)
    let i := (f32FloorInt w).toNat
    if 256 ≤ i then tabF expTab 256
    else f32Add (tabF expTab i) (f32Mul (f32Sub (tabF expTab (i + 1)) (tabF expTab i)) (f32Sub w (f32OfInt i)))

/-- The gates of the slots. -/
def gatesOf (ys : List Word32) : List Word32 :=
  let r := ys.map (gatePart (ys.headD 0))
  let sum := match r with
    | [] => 0
    | a :: t => t.foldl f32Add a
  r.map fun x => f32Div x sum

/-! ### The dispatch packer (R193, R199) -/

/-- The flows that a packer uses for tokens, with the expert first named on each. -/
def PackSt.flowsUsed (k : PackSt) : List (Nat × Nat) :=
  (k.dir.flatMap fun e => e.2.2.map fun f => (f, e.2.1)).foldl (fun l x => if l.any fun y => y.1 == x.1 then l else l ++ [x]) []

/-- Every item that the network's cores emitted for the step has left them. -/
def State.emitDone (s : State) (k : Nat) : Bool :=
  (s.net k).cores.all fun c => (s.core c).eq.isEmpty && (s.core c).fireWait.isEmpty

/-- The slots of a step of dispatch packer p: position and gate, in slot order, with true where every winner is NaN. -/
def PackSt.slotsOf (k : PackSt) (tag : Nat) : List (Nat × Word32) × Bool :=
  let ws := (k.winners.filter fun w => w.1 == tag).take k.k
  let ys := sortWinners (ws.map fun w => (w.2.1, f32Mul (f32OfInt (w.2.2 - k.rZp)) k.rScale))
  let gates := gatesOf (ys.map Prod.snd)
  ((upTo ys.length).map fun i => ((ys.getD i (0, 0)).1, gates.getD i 0), !ys.isEmpty && ys.all fun y => f32IsNaN y.2)

/-- The token of slot i sent by dispatch packer p. -/
def State.dispatchSlot (s : State) (p window : Nat) (body : Token) (i : Nat) (slot : Nat × Word32) : State × SlotSt :=
  let k := s.dp p
  let e := Tab.get k.dir (0, []) slot.1
  match e.2[k.seq % max 1 e.2.length]? with
  | none => (s, { st := 2, gate := slot.2, pos := slot.1 })
  | some f =>
    (s.sendToken p f { body with kind := kindDispatch, slot := i, expert := e.1, seq := k.seq, window := window } 0 0,
      { st := 0, gate := slot.2, flow := f, pos := slot.1 })

/-- The combiners of dispatch packer p. -/
def State.combsOf (s : State) (p : Nat) : List Nat := (upTo 16).filter fun m => (s.comb m).valid && (s.comb m).packer == p

/-- CLOSE packets of window w: on each flow that packer p uses, once every packer of its network that uses the flow has
built the window. -/
def State.sendCloses (s : State) (p step : Nat) : State :=
  let k := s.dp p
  k.flowsUsed.foldl (fun s f =>
    let wait := (upTo 16).any fun d => d != p && (s.dp d).valid && (s.dp d).net == k.net && (s.dp d).built ≤ step
      && (s.dp d).flowsUsed.any fun g => g.1 == f.1
    if wait then s
    else s.sendToken p f.1 { kind := kindClose, expert := f.2, window := step % 2 ^ 32, seq := 0, tscale := 0 } 0 0) s

/-- TOKEN_DISPATCH_BUILD: at the end of a step of its network, packer p sends a token for each slot of a forward step and closes
the window; a backward step has no token, and its window is closed all the same (R199). A packer whose earlier messages wait
for their flow stalls (11 R286). -/
def execTokenDispatchBuild (packer : Fin 16) (s : State) : Res :=
  .next <|
    let p := packer.val
    let k := s.dp p
    let n := s.net k.net
    if !k.valid || !n.running || n.step = 0 || n.step < k.built || !s.emitDone k.net || k.flowsUsed.any (fun f => !s.srcFree f.1)
        || !s.ringQuiet (fnDispatch p) || !s.ringQuiet (fnRouter p) then s
    else
      let step := n.step
      let tag := step % 4
      let w := step % 2 ^ 32
      let sl := k.slotsOf tag
      let nb := narrowToken k.zpm k.outl (k.values tag)
      let s := s.modDp p fun k => { k with
        built := step + 1, sums := Tab.restrict k.sums fun a => a / 4096 != tag, winners := k.winners.filter fun x => x.1 != tag }
      if n.backward then s.sendCloses p step
      else
      let r : State × List SlotSt :=
        if sl.2 then (s.countDev Ctr.tokenRouterNan p, sl.1.map fun x => { st := 2, gate := x.2, pos := x.1 })
        else if sl.1.isEmpty then (s, [])
        else
          let s := (s.countDev Ctr.convSat (fnDispatch p) nb.2.1).countDev Ctr.convNan (fnDispatch p) nb.2.2
          (upTo sl.1.length).foldl (fun (r : State × List SlotSt) i =>
            let d := r.1.dispatchSlot p w nb.1 i (sl.1.getD i (0, 0))
            (d.1, r.2 ++ [d.2])) (s, [])
      let s := (s.combsOf p).foldl (fun s m => s.modComb m fun c =>
        { c with wins := c.wins ++ [{ window := w, seq := k.seq, slots := r.2, pos := n.pos }] }) r.1
      s.sendCloses p step

/-! ### The unpacker: windows and admission (R200 to R204) -/

/-- The bindings of the device. -/
def State.bindings (s : State) : List Nat := (upTo 64).filter fun b => (s.bind b).valid

/-- The home network's slot, where a binding is loaded (R200). -/
def State.homeNet (s : State) : Option Nat := (s.bindings.head?).map fun b => (s.bind b).net

/-- The next token message of flow f, where its KIND is `kind`. -/
def State.nextTok (s : State) (f kind : Nat) : Option (Msg × Packet × State) :=
  match (s.flow f).tokQ with
  | [] => none
  | m :: rest =>
    let p := parsePacket m.body
    if p.tok.kind = kind then some (m, p, s.modFlow f fun x => { x with tokQ := rest }) else none

/-- Flow f has nothing more to say of window w to binding b: CLOSE has come, or the unpacker has given it up (R202). -/
def BindSt.closedBy (b : BindSt) (w f : Nat) : Bool :=
  (Tab.get b.closed 0 f != 0 && seqLe (w + 1) (Tab.get b.closed 0 f)) || b.gaveUp.contains f

/-- Every flow of every binding has closed window w. -/
def State.allClosed (s : State) (w : Nat) : Bool := s.bindings.all fun b => (s.bind b).flows.all ((s.bind b).closedBy w)

/-- Admission order: source device, sequence, slot (R201). -/
def tokLe (a b : Token) : Bool :=
  a.src < b.src || (a.src == b.src && (a.seq < b.seq || (a.seq == b.seq && a.slot ≤ b.slot)))

/-- A token put in admission order, after those of the same key. -/
def insTok (t : Token) : List Token → List Token
  | [] => [t]
  | x :: l => if tokLe x t then x :: insTok t l else t :: x :: l

/-- The tokens in admission order. -/
def sortToks (l : List Token) : List Token := l.foldl (fun a t => insTok t a) []

/-- Two tokens of the same key. -/
def sameKey (a b : Token) : Bool := a.src == b.src && a.seq == b.seq && a.slot == b.slot

/-- Token a comes before b in flow order (R201). -/
def flowBefore (a b : Token) : Bool := a.flow < b.flow || (a.flow == b.flow && a.mseq != b.mseq && seqLe a.mseq b.mseq)

/-- A token repeats the key of one that comes before it in flow order among all those of its window (R201). -/
def repeats (all : List Token) (t : Token) : Bool := all.any fun u => sameKey u t && flowBefore u t

/-- A held token refused with a code. -/
def State.refuseTok (s : State) (t : Token) (code : Nat) : State := s.refuseMsg t.flow t.mseq code

/-- Admission for window w at binding b (R201, R217); `all` are the tokens of the window at every binding. -/
def State.admitWindow (s : State) (all : List Token) (w b : Nat) : State :=
  let x := s.bind b
  let mine := sortToks (x.held.filter fun t => t.window == w)
  let r := (mine.filter fun t => !repeats all t, mine.filter (repeats all))
  let s := s.modBind b fun x => { x with
    held := x.held.filter fun t => t.window != w, gaveUp := [], tRef := s.now, closeAt := x.closeAt.filter fun e => e.1 != w }
  let s := r.2.foldl (fun s t => s.refuseTok t 5) s
  if !(s.net x.net).running then r.1.foldl (fun s t => s.refuseTok t 3) s
  else if 2 ≤ x.state then
    r.1.foldl (fun s t => ((s.refuseTok t 1).countDev Ctr.tokenRefusedCap b).countDev Ctr.tokenRefusedPaged b) s
  else
    let s := (s.modBind b fun x => { x with admitted := x.admitted ++ r.1.take x.cap }).countDev Ctr.tokenAdmitted b (r.1.take x.cap).length
    (r.1.drop x.cap).foldl (fun s t => (s.refuseTok t 1).countDev Ctr.tokenRefusedCap b) s

/-- K of R206: the largest CAP. -/
def State.blockLen (s : State) : Nat := (s.bindings.map fun b => (s.bind b).cap).foldl max 0

/-- Window w decided: admission at every binding, its CLOSE messages consumed, and its block of token steps queued. -/
def State.decideWindow (s : State) (w : Nat) : State :=
  let all := (s.bindings.flatMap fun b => (s.bind b).held).filter fun t => t.window == w
  let s := s.bindings.foldl (fun s b => s.admitWindow all w b) s
  let due := s.tok.closes.filter fun c => c.2.2 == w
  let s := due.foldl (fun s c => s.consumeMsg c.1 c.2.1) s
  { s with tok := { s.tok with
      window := some (seqNext w), closes := s.tok.closes.filter fun c => c.2.2 != w, blocks := s.tok.blocks ++ [(w, s.blockLen)] } }

/-! ### Token steps and expansion (R205 to R208) -/

/-- The events of a token through an element map (R205): main codes with P8, outlier entries with P16. -/
def tokenEvents (m : ElemMap) (t : Token) (typ : Nat) (p16 : Bool) (flow mseq : Nat) : List EvItem :=
  let mk (out : Bool) (p : Bool) (v : Int) (d : Nat × Nat) : EvItem :=
    { ev := mkEvent typ d.1 d.2 0 (payloadOf v) out (b2n p) 0 true 0 0, token := true, flow := flow, mseq := mseq }
  ((upTo t.codes.length).flatMap fun i =>
      let v := t.codes.getD i 0
      if t.zpm = 0 && v = 0 then [] else (m.elems.getD i []).map (mk false p16 v))
    ++ t.outl.flatMap fun o => (((m.outs.find? fun x => x.1 == o.1).map Prod.snd).getD []).map (mk true true o.2)

/-- Events queued for injection by a ring function into network k. -/
def State.queueExpansion (s : State) (fn k : Nat) (t tOut : Word32) (evs : List EvItem) : State :=
  { s with expand := s.expand ++ evs.map fun e => { fn := fn, net := k, item := e, t := t, tOut := tOut } }

/-- Token t, of a binding with no return path, is not acknowledged yet (R208, R216); one of another binding leaves `inLayer` with
its RETURN. -/
def State.unackedTok (s : State) (b : Nat) (t : Token) : Bool :=
  (s.bind b).ret != 0xFF || !(seqLe t.mseq (s.flow t.flow).rxWm || Tab.get (s.flow t.flow).consumed false t.mseq)

/-- Token t of binding b expanded in step `step` of the home network. -/
def State.expandToken (s : State) (b step : Nat) (t : Token) : State :=
  let x := s.bind b
  let ack := x.ret = 0xFF
  let evs := tokenEvents x.elemMap t 2 false (if ack then t.flow + 1 else 0) t.mseq
  let s := if ack then s.modFlow t.flow fun f => { f with unpopped := Tab.set f.unpopped 0 t.mseq evs.length } else s
  let s := if ack && evs.isEmpty then s.consumeMsg t.flow t.mseq else s
  let pos := (s.net x.net).pos
  (s.queueExpansion fnUnpacker x.net t.tscale t.sout evs).modBind b fun x =>
    { x with inLayer := (x.inLayer.filter fun y => s.unackedTok b y.2) ++ [(step, t)]
             byPos := if (s.net x.net).fwd = 0 then [] else x.byPos ++ [(pos, t)] }

/-- An ERROR token expanded into ERROR events through an error map (R213). -/
def State.expandError (s : State) (fn k : Nat) (m : ElemMap) (t : Token) : State :=
  let evs := tokenEvents m { t with zpm := 0, outl := [] } 4 true (t.flow + 1) t.mseq
  let s := s.modFlow t.flow fun f => { f with unpopped := Tab.set f.unpopped 0 t.mseq evs.length }
  let s := if evs.isEmpty then s.consumeMsg t.flow t.mseq else s
  s.queueExpansion fn k f32One f32One evs

/-- The forward position paired with the current backward step (07 R169). -/
def NetSt.pairedPos (n : NetSt) : Nat := n.fwd + n.fwd - 1 - n.pos

/-- The ERROR token that binding b waits for at forward position f, for token t: the held one of the same key. -/
def State.heldError (s : State) (t : Token) : Option Token :=
  s.errTok.find? fun e => e.flow == t.flow && e.seq == t.seq && e.slot == t.slot && e.window == t.window && e.expert == t.expert

/-- The tokens of the paired forward position whose ERROR tokens the home network's backward step still waits for. -/
def State.errorsDue (s : State) (k : Nat) : List (Nat × Token) :=
  let n := s.net k
  if !n.backward then []
  else s.bindings.flatMap fun b =>
    if (s.bind b).net != k || (s.bind b).ret == 0xFF then []
    else ((s.bind b).byPos.filter fun x => x.1 == n.pairedPos).map fun x => (b, x.2)

/-- The held ERROR tokens of the home network's current backward step are expanded. -/
def State.takeErrors (s : State) (k : Nat) : State :=
  (s.errorsDue k).foldl (fun s x =>
    match s.heldError x.2 with
    | none => s
    | some e =>
      let s := { s with errTok := s.errTok.erase e }
      let pos := (s.net k).pairedPos
      let step := (s.net k).step
      let s := s.modBind x.1 fun b => { b with byPos := b.byPos.erase (pos, x.2), errIn := b.errIn ++ [(step, { e with flow := x.2.flow })] }
      s.expandError fnUnpacker k (s.bind x.1).errMap e) s

/-- The token step of the home network's current step begins, if its block is decided (R206): the j-th admitted token of
each binding is expanded. -/
def State.tokenStep (s : State) (k : Nat) : State :=
  let n := s.net k
  if s.homeNet != some k || !n.running || n.phase != 1 then s
  else if n.backward then s.takeErrors k
  else if s.tok.started = n.step + 1 then s
  else match s.tok.blocks with
  | [] => s
  | (w, len) :: rest =>
    let j := s.tok.next
    let s := { s with tok := { s.tok with
      started := n.step + 1, next := if j + 1 < len then j + 1 else 0, blocks := if j + 1 < len then s.tok.blocks else rest } }
    s.bindings.foldl (fun s b =>
      match (s.bind b).admitted with
      | t :: r => if t.window = w then (s.modBind b fun x => { x with admitted := r }).expandToken b n.step t else s
      | [] => s) s

/-- The windows that can be decided are (R201). The first window seen is the first (log 34). -/
def State.decideReady (s : State) : State :=
  match s.homeNet with
  | none => s
  | some k =>
    match s.tok.window with
    | none => s
    | some w => if s.allClosed w then (s.decideWindow w).tokenStep k else s

/-- Free credit of core c (R207). -/
def CoreSt.freeCredit (k : CoreSt) : Nat := k.credit - k.creditUsed

/-- One event of an expansion written, where its core has credit and the network's step is open. -/
def State.expandOne (s : State) (n : Nat) (x : Expansion) : State :=
  let c := evCore x.item.ev
  let k := s.core c
  if sectorOf c ≠ n || 128 ≤ c || (k.credit != 0 && k.freeCredit = 0) || !s.linkRoom n 3 (.event x.item) then s
  else
    let step := s.ringStep x.net
    -- a core that no element map names has no credit: the event uses the unreserved part of its queue (R214; log 80)
    let s := if k.credit = 0 then s.ringEvent x.fn step { x.item with token := false }
      else (s.modCore c fun k => { k with creditUsed := k.creditUsed + 1 }).ringEvent x.fn step x.item
    let s := if evType x.item.ev = 4 then s else s.setT x.item.ev step x.t (some x.tOut)
    { s with expand := s.expand.erase x }

/-- TOKEN_EXPANSION: the events that wait for cores of the sector are written, oldest first, within their credit. -/
def execTokenExpansion (sector : SectorId) (s : State) : Res :=
  .next <|
    let s := match s.homeNet with
      | some k => s.tokenStep k
      | none => s
    s.expand.foldl (fun s x => s.expandOne sector.val x) s

/-! ### Receiving tokens (R203) -/

/-- The binding that holds an expert. -/
def State.bindingOf (s : State) (expert : Nat) : Option Nat := s.bindings.find? fun b => (s.bind b).expert == expert

/-- The code of R203 with which an arriving DISPATCH packet on flow f is refused. -/
def State.dispatchRefusal (s : State) (f : Nat) (p : Packet) : Option Nat :=
  let t := p.tok
  if !p.good then some 5
  else match s.bindingOf t.expert with
  | none => some 2
  | some b =>
    let x := s.bind b
    if t.n ≠ x.n || t.zpm ≠ x.zpm then some 5
    else if !(s.net x.net).running || !x.flows.contains f then some 3
    else if s.tok.window.any fun w => !seqLe w t.window then some 3
    else if t.delta && (CodeCache.find (s.flow f).cache t.seq).all (fun c => c.length != t.n) then some 4
    else none

/-- The token of a packet as received on flow f, with its codes, and the cache updated (R215). -/
def State.takeToken (s : State) (f : Nat) (m : Msg) (p : Packet) : Token × State :=
  let x := s.flow f
  let codes := p.codes ((CodeCache.find x.cache p.tok.seq).getD [])
  ({ p.tok with codes := codes, src := x.peerDev, flow := f, mseq := m.mseq },
    s.modFlow f fun x => { x with cache := CodeCache.put x.cache x.cacheSize p.tok.seq codes })

/-- Bytes that a token takes in the token buffer: those of its FULL packet (log 52). -/
def Token.bufferBytes (t : Token) : Nat := 16 + t.n + (if t.outl.isEmpty then 0 else 8 + 4 * t.outl.length)

/-- Size of the token buffer, the region of KIND 6 of network k (14 R548), where the image declares one. -/
def State.tokenBuffer (s : State) (k : Nat) : Option Nat :=
  (s.regions.find? fun r => r.kind == 6 && r.image == (s.net k).image && r.net == k).map fun r => r.size

/-- The token buffer takes another token (R204). -/
def State.tokenRoom (s : State) (t : Token) : Bool :=
  match s.homeNet.bind s.tokenBuffer with
  | none => true
  | some size =>
    decide (((s.bindings.flatMap fun b => (s.bind b).held ++ (s.bind b).admitted).map Token.bufferBytes).sum
      + t.bufferBytes ≤ size)

/-- The window that the unpacker decides first, where none has been seen; T_c of it runs from now (log 34). -/
def State.seeWindow (s : State) (w : Nat) : State :=
  if s.tok.window.isSome then s
  else
    let s := s.bindings.foldl (fun s b => s.modBind b fun x => { x with tRef := s.now }) s
    { s with tok := { s.tok with window := some w } }

/-- TOKEN_DISPATCH_RECEIVE: not taken while the token buffer is full (R204). -/
def execTokenDispatchReceive (flow : FlowId) (s : State) : Res :=
  .next <|
    let f := flow.val
    match s.nextTok f kindDispatch with
    | none => s
    | some (m, p, s') =>
      if !s.tokenRoom p.tok || !s.takesIn then s
      else
      let s := s'
      match s.dispatchRefusal f p with
      | some code => s.refuseMsg f m.mseq code
      | none =>
        let r := s.takeToken f m p
        match r.2.bindingOf p.tok.expert with
        | none => r.2
        | some b =>
          (r.2.modBind b fun x => { x with held := x.held ++ [r.1] }).seeWindow p.tok.window

/-- TOKEN_CLOSE_RECEIVE: held until its window is decided; one for a window already decided is consumed at once. -/
def execTokenCloseReceive (flow : FlowId) (s : State) : Res :=
  .next <|
    let f := flow.val
    match s.nextTok f kindClose with
    | none => s
    | some (m, p, s') =>
      if !s.takesIn then s
      else
      let s := s'
      let w := p.tok.window
      let mine := s.bindings.filter fun b => (s.bind b).flows.contains f
      if !p.good then s.refuseMsg f m.mseq 5
      else if (s.bindingOf p.tok.expert).isNone then s.refuseMsg f m.mseq 2
      else if mine.isEmpty then s.refuseMsg f m.mseq 3
      else if s.tok.window.any fun d => !seqLe d w then s.consumeMsg f m.mseq
      else
        let s := s.seeWindow w
        let s := { s with tok := { s.tok with closes := s.tok.closes ++ [(f, m.mseq, w)] } }
        let s := mine.foldl (fun s b => s.modBind b fun x => { x with
          closed := Tab.set x.closed 0 f (w + 1)
          closeAt := if x.closeAt.any fun e => e.1 == w then x.closeAt else x.closeAt ++ [(w, s.now)] }) s
        s.decideReady

/-- The instant from which T_c of window w runs at a binding (R202): the first CLOSE of w, else the decision before. -/
def BindSt.closeRef (x : BindSt) (w : Nat) : Nat := ((x.closeAt.find? fun e => e.1 == w).map Prod.snd).getD x.tRef

/-- TOKEN_WINDOW_TIMEOUT: binding b gives up the flows that have not closed the window and whose context is not OPEN, is
STALLED, or has passed T_c (R202). -/
def execTokenWindowTimeout (binding : Fin 64) (s : State) : Res :=
  .next <|
    let b := binding.val
    let x := s.bind b
    match s.tok.window with
    | none => s
    | some w =>
      let late := x.closeRef w + x.tc * 1000 ≤ s.now
      let gone := x.flows.filter fun f => !x.closedBy w f &&
        ((s.flow f).fstate != flowOpen || (s.flow f).stalled || late)
      if !x.valid || gone.isEmpty then s
      else
        let s := s.modBind b fun x => { x with gaveUp := x.gaveUp ++ gone }
        (if x.gaveUp.isEmpty then s.countDev Ctr.tokenWindowTimeout b else s).decideReady

/-! ### The return packer (R209, R213) -/

/-- RETURN_TOKEN_SEND: the RETURN token of the oldest token whose outputs are those of the current step, or the ERROR
token of the oldest expanded ERROR token whose input errors are. -/
def execReturnTokenSend (packer : Fin 16) (s : State) : Res :=
  .next <|
    let r := packer.val
    let k := s.rp r
    let b := k.binding
    let x := s.bind b
    let n := s.net x.net
    if !k.valid || !x.valid || !n.running || !s.emitDone x.net || !s.ringQuiet (fnReturn r)
        || ((x.inLayer.map Prod.snd ++ x.errIn.map Prod.snd).any fun t => !s.srcFree t.flow) then s
    else if n.backward then
      match x.errIn with
      | [] => s
      | (st, t) :: rest =>
        if n.step < st + x.ld then s
        else
          let tag := (st + x.ld) % 4
          let errs := (upTo k.n).map fun i => Tab.get k.errs 0 (tag * 4096 + i)
          let codes := errs.map (clampI (-32767) 32767)
          let s := s.countDev Ctr.convSat (fnReturn r) (errs.filter fun v => clampI (-32767) 32767 v != v).length
          let s := (s.modBind b fun x => { x with errIn := rest }).modRp r fun k =>
            { k with errs := Tab.restrict k.errs fun a => a / 4096 != tag }
          s.sendToken (16 + r) t.flow { kind := kindError, n := k.n, slot := t.slot, expert := t.expert, seq := t.seq
                                        window := t.window, codes := codes, tscale := f32One } 0 0
    else match x.inLayer with
    | [] => s
    | (st, t) :: rest =>
      if n.step < st + x.ld then s
      else
        let tag := (st + x.ld) % 4
        let nb := narrowToken k.zpm k.outl (k.values tag)
        let s := (s.countDev Ctr.convSat (fnReturn r) nb.2.1).countDev Ctr.convNan (fnReturn r) nb.2.2
        let s := (s.modBind b fun x => { x with inLayer := rest }).modRp r fun k =>
          { k with sums := Tab.restrict k.sums fun a => a / 4096 != tag }
        s.sendToken (16 + r) t.flow
          { nb.1 with kind := kindReturn, slot := t.slot, expert := t.expert, seq := t.seq, window := t.window } (t.flow + 1) t.mseq

/-! ### The combiner (R210 to R214) -/

/-- The cutoff of step w + L_r of a DEADLINE network has passed for window place p of combiner c (R212). -/
def State.cutPassed (s : State) (c : CombSt) (p : PendWin) : Bool :=
  let n := s.net c.net
  let t := (p.window + c.lr) % 2 ^ 32
  !n.lockstep && (if t = n.step % 2 ^ 32 then n.phase != 0 && !n.held && decide (n.cN ≤ s.now) else seqLe t (n.step % 2 ^ 32))

/-- The first waiting slot of combiner c for a token of window w, sequence, slot and flow, as (window, slot) places. -/
def CombSt.waiting (c : CombSt) (w seq slot f : Nat) : Option Nat :=
  (upTo c.wins.length).find? fun i =>
    let p := c.wins.getD i {}
    let x := p.slots.getD slot {}
    p.window == w && p.seq == seq && !p.mixed && slot < p.slots.length && x.st == 0 && x.flow == f

/-- Slot `slot` of window place i of combiner m changed. -/
def State.setSlot (s : State) (m i slot : Nat) (g : SlotSt → SlotSt) : State :=
  s.modComb m fun c =>
    let p := c.wins.getD i {}
    { c with wins := c.wins.set i { p with slots := p.slots.set slot (g (p.slots.getD slot {})) } }

/-- Every combiner's slot that waits for the token resolved. -/
def State.resolveSlots (s : State) (w seq slot f : Nat) (g : SlotSt → SlotSt) : State :=
  (upTo 16).foldl (fun s m =>
    match (s.comb m).waiting w seq slot f with
    | some i => if (s.comb m).valid && !s.cutPassed (s.comb m) ((s.comb m).wins.getD i {}) then s.setSlot m i slot g else s
    | none => s) s

/-- The mirror after a token of this end was refused at its arrival, so that the peer's cache did not take it (R215): what it
held before comes back, unless a later token has replaced it. -/
def CodeCache.undo (c : CodeCache) (seq : Nat) (codes : List Int) (prev : Option (List Int)) : CodeCache :=
  if c.find seq != some codes then c
  else match prev with
    | some p => c.map fun e => if e.1 = seq then (seq, p) else e
    | none => c.filter fun e => e.1 != seq

/-- A negative acknowledgement of a token packet of this end (R203): counted for the packer that sent it, and a DISPATCH
token's slot is refused. -/
def State.tokenNak (s : State) (f : Nat) (r : Nak) : State :=
  let p := parsePacket r.msg.body
  let t := p.tok
  let s := if r.msg.sub = 0 then s else s.countDev Ctr.tokenNakRx ((r.msg.sub - 1) * 16 + r.code)
  let s := if r.code ≠ 1 && (t.kind = kindDispatch || t.kind = kindReturn) then
      s.modFlow f fun x => { x with mirror := x.mirror.undo t.seq (p.codes (r.msg.prev.getD [])) r.msg.prev }
    else s
  if t.kind = kindDispatch then s.resolveSlots t.window t.seq t.slot f fun x => { x with st := 2 } else s

/-- TOKEN_RETURN_RECEIVE: a negative acknowledgement, or a RETURN token, resolves its slot. A RETURN token for a slot
resolved otherwise is acknowledged and discarded. -/
def execTokenReturnReceive (flow : FlowId) (s : State) : Res :=
  .next <|
    let f := flow.val
    match (s.flow f).naks with
    | r :: rest => (s.modFlow f fun x => { x with naks := rest }).tokenNak f r
    | [] =>
      if !s.takesIn then s else
      match s.nextTok f kindReturn with
      | none => s
      | some (m, p, s) =>
        if !p.good then s.refuseMsg f m.mseq 5
        else if p.tok.delta && (CodeCache.find (s.flow f).cache p.tok.seq).all (fun c => c.length != p.tok.n) then s.refuseMsg f m.mseq 4
        else
          let r := s.takeToken f m p
          let t := r.1
          (r.2.resolveSlots t.window t.seq t.slot f fun x => { x with st := 1, tok := t }).consumeMsg f m.mseq

/-- The value o of slot x at element i (R210). -/
def SlotSt.value (x : SlotSt) (i : Nat) : Word32 :=
  match x.tok.outl.find? fun o => o.1 == i with
  | some o => f32Mul (f32OfInt o.2) x.tok.sout
  | none => f32Mul (f32OfInt (x.tok.codes.getD i 0 - zpOf x.tok.zpm)) x.tok.tscale

/-- The gates with the fallback of refused slots (R211). -/
def CombSt.gates (c : CombSt) (slots : List SlotSt) : List SlotSt :=
  if c.renorm && slots.any fun x => x.st != 1 then
    match slots.filter fun x => x.st == 1 with
    | [] => slots
    | a :: t =>
      let sum := t.foldl (fun v x => f32Add v x.gate) a.gate
      slots.map fun x => { x with gate := f32Div x.gate sum }
  else slots

/-- The mix of R210 over n elements. -/
def mixOf (slots : List SlotSt) (n : Nat) : List Word32 :=
  (upTo n).map fun i => (slots.filter fun x => x.st == 1).foldl (fun acc x => f32Add acc (f32Mul (x.value i) x.gate)) 0

/-- The combined output narrowed to P16 with zero point 0 (R210). -/
def narrowMix (y : List Word32) : Word32 × List Narrow :=
  let tc := outlierScale (y.foldl maxAbsStep 0)
  (tc, y.map fun v => narrowP v tc true 0)

/-- The window at place i of combiner m is mixed and its output queued for expansion. -/
def State.mixWindow (s : State) (m i : Nat) : State :=
  let c := s.comb m
  let p := c.wins.getD i {}
  let k := s.dp c.packer
  let n := s.net c.net
  let late := (p.slots.filter fun x => x.st == 0).length
  let slots := c.gates (p.slots.map fun x => if x.st = 0 then { x with st := 2 } else x)
  let y := narrowMix (mixOf slots k.n)
  let s := (s.countDev Ctr.tokenFallback m (slots.filter fun x => x.st == 2).length).countDev Ctr.tokenReturnLate m late
  let s := (s.countDev Ctr.convSat (fnCombiner m) (y.2.filter (·.sat)).length).countDev Ctr.convNan (fnCombiner m) (y.2.filter (·.nan)).length
  let t : Token := { n := k.n, zpm := k.zpm, codes := y.2.map (·.q) }
  let s := s.queueExpansion (fnCombiner m) c.net y.1 f32One (tokenEvents c.elemMap t 2 true 0 0)
  s.modComb m fun c =>
    if n.fwd = 0 then { c with wins := c.wins.eraseIdx i }
    else { c with wins := c.wins.set i { p with slots := slots, mixed := true, mixPos := n.pos } }

/-- The exact nearest integer of an F32 value within the bounds of P16 with zero point 0 (R213, R214). -/
def errCode (v : Word32) : Narrow := narrowInt v 0 (-32767) 32767

/-- The errors of the combined output of a mixed window (R213, R214): an ERROR token to each returned slot, and an ERROR
event to each winner's router column. -/
def State.combineErrors (s : State) (m tag : Nat) (p : PendWin) : State :=
  let c := s.comb m
  let k := s.dp c.packer
  let err (i : Nat) : Int := Tab.get c.errs 0 (tag * 4096 + i)
  let idx := upTo p.slots.length
  let ge := p.slots.map fun x => if x.st = 1 then (upTo k.n).foldl (fun a i => f32Add a (f32Mul (f32OfInt (err i)) (x.value i))) 0 else 0
  let mean := idx.foldl (fun a j => f32Add a (f32Mul (p.slots.getD j {}).gate (ge.getD j 0))) 0
  -- conversions clamped under R52 count for the combiner (02 R60)
  let counted (s : State) (l : List Narrow) : State :=
    (s.countDev Ctr.convSat (fnCombiner m) (l.filter (·.sat)).length).countDev Ctr.convNan (fnCombiner m) (l.filter (·.nan)).length
  idx.foldl (fun s j =>
    let x := p.slots.getD j {}
    let s := if x.st = 1 then
        let codes := (upTo k.n).map fun i => errCode (f32Mul (f32OfInt (err i)) x.gate)
        (counted s codes).sendToken c.packer x.flow
          { kind := kindError, n := k.n, slot := j, expert := x.tok.expert, seq := p.seq, window := p.window, tscale := f32One
            codes := codes.map (·.q) } 0 0
      else s
    let e := errCode (f32Div (f32Mul x.gate (f32Sub (ge.getD j 0) mean)) (Config.routerErrScale c.packer))
    let s := counted s [e]
    let ev := mkEvent 4 k.rCore (k.rCol + x.pos) 0 (payloadOf e.q) false 1 0 true 0 0
    s.queueExpansion (fnCombiner m) c.net f32One f32One [{ ev := ev, token := true }]) s

/-- The place of the window that combiner m resolves in the network's step: that of step - L_r. -/
def State.dueWindow (s : State) (m : Nat) : Option Nat :=
  let c := s.comb m
  (upTo c.wins.length).find? fun i =>
    let p := c.wins.getD i {}
    !p.mixed && seqLe ((p.window + c.lr) % 2 ^ 32) ((s.net c.net).step % 2 ^ 32)

/-- The place of the mixed window whose errors are those of the backward step before the current one. -/
def State.dueErrors (s : State) (m : Nat) : Option Nat :=
  let c := s.comb m
  let n := s.net c.net
  if n.fwd = 0 || !(n.fwd < n.pos || n.pos = 0) then none
  else
    let pos := if n.pos = 0 then n.fwd + n.bwd else n.pos
    (upTo c.wins.length).find? fun i => (c.wins.getD i {}).mixed && (c.wins.getD i {}).mixPos == n.fwd + n.fwd - pos

/-- COMBINER_RESOLVE: in step w + L_r, once every slot of window w is resolved or the cutoff of a DEADLINE step has
passed; in a backward step, the errors of the window mixed in the paired forward step. -/
def execCombinerResolve (comb : Fin 16) (s : State) : Res :=
  .next <|
    let m := comb.val
    let c := s.comb m
    let n := s.net c.net
    if !c.valid || !n.running then s
    else match s.dueWindow m with
    | some i =>
      let p := c.wins.getD i {}
      if p.slots.all (fun x => x.st != 0) || s.cutPassed c p then s.mixWindow m i else s
    | none =>
      match s.dueErrors m with
      | none => s
      | some i =>
        if !s.emitDone c.net || !s.ringQuiet (fnCombiner m) then s
        else
          let tag := n.step % 4
          let s := s.combineErrors m tag (c.wins.getD i {})
          s.modComb m fun c => { c with wins := c.wins.eraseIdx i, errs := Tab.restrict c.errs fun a => a / 4096 != tag }

/-- The dispatch packer whose token an ERROR token from a home device answers: the one whose window still holds the slot, else
the first that names the expert on the flow. -/
def State.errorPacker (s : State) (f : Nat) (t : Token) : Option Nat :=
  let sentIt (d : Nat) : Bool := (s.combsOf d).any fun m => (s.comb m).wins.any fun p =>
    p.window == t.window && p.seq == t.seq && (p.slots.getD t.slot {}).flow == f && (p.slots.getD t.slot {}).st == 1
  let names (d : Nat) : Bool := (s.dp d).dir.any fun e => e.2.1 == t.expert && e.2.2.contains f
  let l := (upTo 16).filter fun d => (s.dp d).valid && names d
  match l.find? sentIt with
  | some d => some d
  | none => l.head?

/-- TOKEN_ERROR_RECEIVE: an ERROR token from a source waits for, or is expanded in, the home network's paired backward
step; one from a home device is expanded to the dispatch layer's columns in the source network (R213). -/
def execTokenErrorReceive (flow : FlowId) (s : State) : Res :=
  .next <|
    let f := flow.val
    match s.nextTok f kindError with
    | none => s
    | some (m, p, s') =>
      if !s.takesIn then s
      else
      let s := s'
      let t : Token := { p.tok with flow := f, mseq := m.mseq }
      -- the body's zero point is 0 (R198), so a ZPM of 1 breaks the format (log 79)
      if !p.good || t.zpm != 0 then s.refuseMsg f m.mseq 5
      else match s.bindings.find? fun b => (s.bind b).flows.contains f && (s.bind b).expert == t.expert with
      | some b =>
        if t.n ≠ (s.bind b).n then s.refuseMsg f m.mseq 5
        else if !(s.net (s.bind b).net).running then s.refuseMsg f m.mseq 3
        else
        let s := { s with errTok := s.errTok ++ [t] }
        match s.homeNet with
        | some k => if (s.net k).backward then s.takeErrors k else s
        | none => s
      | none => match s.errorPacker f t with
        | some d =>
          if t.n ≠ (s.dp d).n then s.refuseMsg f m.mseq 5
          else if !(s.net (s.dp d).net).running then s.refuseMsg f m.mseq 3
          else s.expandError (fnDispatch d) (s.dp d).net (s.dp d).errMap t
        | none => s.refuseMsg f m.mseq 2

/-! ### Closing steps (05 R133) and resets (R216) -/

/-- Nothing of ring function fn waits to be injected. -/
def State.noExpansion (s : State) (fn : Nat) : Bool := s.expand.all fun x => x.fn != fn

/-- A token function has closed the current step of its network: a dispatch packer once it has built it, a return packer
once no RETURN token of it is due, a combiner once no window is due, the unpacker once its token step is written. -/
def State.tokenClosed (s : State) (fn : Nat) : Bool :=
  if fn = fnUnpacker then
    match s.homeNet with
    | none => true
    | some k =>
      let n := s.net k
      (if n.backward then (s.errorsDue k).isEmpty else s.tok.started == n.step + 1) && s.noExpansion fn
  else if fn < 0x120 then
    let k := s.dp ((fn - 0x100) / 2)
    ((s.net k.net).step < k.built || fn % 2 == 1) && s.noExpansion fn
  else if fn < 0x130 then
    let x := s.bind (s.rp (fn - 0x120)).binding
    !(s.rp (fn - 0x120)).valid || x.inLayer.all fun t => (s.net x.net).step < t.1 + x.ld
  else (s.dueWindow (fn - 0x130)).isNone && s.noExpansion fn

/-- A compute-partition reset: admitted tokens whose RETURN is not yet retained are expanded again from the start of
their token step when the home network next runs; decisions already sent stand (R216). -/
def State.tokenReset (s : State) : State :=
  let s := s.bindings.foldl (fun s b => s.modBind b fun x =>
    { x with admitted := (x.inLayer.map Prod.snd).filter (s.unackedTok b) ++ x.admitted, inLayer := [], byPos := [], errIn := [] }) s
  let ws := (s.bindings.flatMap fun b => (s.bind b).admitted.map (·.window)).dedup
  let blocks := (sortNat (ws ++ s.tok.blocks.map Prod.fst).dedup).map fun w => (w, s.blockLen)
  { s with expand := [], tok := { s.tok with blocks := blocks, next := 0, started := 0 } }

end Sys2Proof.Machine
end

