-- ==== Sys2Proof/Machine/Paging.lean ====
section
/-! DEFINITION. Paging.lean: the GDDR6 controllers' service of block requests (12 R303 to R307) and weight paging
(12 R313 to R315, 08 R217). -/

namespace Sys2Proof.Machine

/-! ### Block requests -/

/-- Block b poisoned, or clean. -/
def State.setPoison (s : State) (b : Nat) (p : Bool) : State :=
  s.modGddr fun m => { m with poison := Tab.set m.poison false b p }

/-- What the ECC check of block b finds: a block already poisoned stays uncorrectable (R306); without ECC nothing is
checked (R305). -/
def GddrSt.check (m : GddrSt) (b : Nat) (ecc : EccResult) : EccResult :=
  if !m.ecc then .clean else if Tab.get m.poison false b then .uncorrectable else ecc

/-- The counts, events and poison of a check (R305). -/
def State.gddrChecked (s : State) (g b : Nat) (r : EccResult) : State :=
  match r with
  | .clean => s
  | .corrected => s.countDev Ctr.gddrEccCorr g
  | .uncorrectable => ((s.countDev Ctr.gddrEccUncorr g).gddrEvent g 2).setPoison b true
  | .tagMismatch => ((s.countDev Ctr.gddrAddrTagErr g).gddrEvent g 1).setPoison b true

/-- One block request served (R306, R307). -/
def State.gddrServe (s : State) (q : GddrReq) : State :=
  let b := q.addr / 64
  let g := s.gddr.controller (b * 64)
  let old := memRead s.gddr.mem (b * 64) 64
  match q.op with
  | .read =>
    let r := s.gView (b * 64) 64
    let s := (r.2.gddrChecked g b (r.2.gddr.check b q.ecc)).gddrCount (b * 64) 64 q.cls 0
    s.modGddr fun m => { m with readData := r.1, readPoison := Tab.get m.poison false b }
  | .write mask data =>
    let whole := mask.toNat + 1 == 2 ^ 64
    let s := if whole || !s.gddr.ecc then s else s.gddrChecked g b (s.gddr.check b q.ecc)
    let s := s.modGddr fun m => m.store (b * 64) (maskBytes mask old data)
    let s := if whole then s.setPoison b false else s
    s.gddrCount (b * 64) 64 q.cls 1

/-- GDDR_ACCESS: a request to a trained controller is served; while its channel retrains it waits; a channel that has
stopped serves nothing. A burst that fails its CRC is reissued, and at the fourth failure the channel retrains (R303). -/
def execGddrAccess (addr : Nat) (op : GddrOp) (cls : GddrClass) (ecc : EccResult) (crcFailures : Nat) (s : State) : Res :=
  .next <|
    let a := addr / 64 * 64
    let g := s.gddr.controller a
    let ch := g * 2 + s.gddr.channel a
    let q : GddrReq := { addr := a, op := op, cls := cls, ecc := ecc }
    if s.gddr.top ≤ a || Tab.get s.gddr.state 0 g != 1 then s
    else match Tab.get s.gddr.chan 0 ch with
    | 0 =>
      if crcFailures < 4 then (s.countDev Ctr.gddrEdcRetry g crcFailures).gddrServe q
      else
        ((s.countDev Ctr.gddrEdcRetry g 3).gddrEvent g 3).modGddr fun m =>
          { m with chan := Tab.set m.chan 0 ch 1, held := m.held ++ [q] }
    | 1 => s.modGddr fun m => { m with held := m.held ++ [q] }
    | _ => s

/-- GDDR_CHANNEL_RETRAIN: a retraining channel (false A, true B) resumes, reissues the burst and serves what waited, or
stops with CHAN_FAULT. -/
def execGddrChannelRetrain (gc : GcId) (channel : Bool) (succeeds : Bool) (s : State) : Res :=
  .next <|
    let g := gc.val
    let ch := g * 2 + b2n channel
    if Tab.get s.gddr.chan 0 ch != 1 then s
    else if succeeds then
      let mine (q : GddrReq) : Bool := s.gddr.controller q.addr * 2 + s.gddr.channel q.addr == ch
      let due := s.gddr.held.filter mine
      let s := s.modGddr fun m => { m with chan := Tab.set m.chan 0 ch 0, held := m.held.filter fun q => !mine q }
      due.foldl State.gddrServe (s.countDev Ctr.gddrEdcRetry g)
    else (s.modGddr fun m => { m with chan := Tab.set m.chan 0 ch 2 }).gddrEvent g 0

/-! ### Page sets (R313, R314; 14 R547) -/

/-- Page set `num` of core c. -/
def State.pageSet (s : State) (c num : Nat) : Option PageSet := s.pageSets.find? fun p => p.core == c && p.num == num

/-- First word of buffer b. -/
def PageSet.base (p : PageSet) (b : Nat) : Nat := if b = 0 then p.buf0 else p.buf1

/-- The page that the schedule needs in step n. -/
def PageSet.needed (p : PageSet) (n : Nat) : Option Nat := (p.sched.find? fun e => e.1 == n % p.period).map Prod.snd

/-- The page of the first schedule entry after step n, within one period. -/
def PageSet.nextNeeded (p : PageSet) (n : Nat) : Option Nat := ((upTo p.period).filterMap fun t => p.needed (n + 1 + t)).head?

/-- Key of buffer b of a set in the core's page table. -/
def PageSet.key (p : PageSet) (b : Nat) : Nat := p.num * 2 + b

/-- Some buffer of the set holds the page. -/
def CoreSt.holdsPage (k : CoreSt) (p : PageSet) (page : Nat) : Bool :=
  (upTo p.bufs).any fun b => Tab.get k.pages 0 (p.key b) == page + 1

/-- The buffer that a page-in fills: the only one, an empty one in use, or the idle one (R314). -/
def CoreSt.fillBuf (k : CoreSt) (p : PageSet) : Nat :=
  if p.bufs = 1 then 0
  else
    let u := Tab.get k.pageBuf 0 p.num
    if Tab.get k.pages 0 (p.key u) = 0 then u else 1 - u

/-- The page-in due at step n: the page that the step needs and no buffer holds, else the next one of the schedule. A
single buffer is filled only while the step needs nothing of it. -/
def CoreSt.pageDue (k : CoreSt) (p : PageSet) (n : Nat) : Option Nat :=
  let late := match p.needed n with
    | some x => if k.holdsPage p x then none else some x
    | none => none
  match late with
  | some x => some x
  | none =>
    if p.bufs = 1 && (p.needed n).isSome then none
    else match p.nextNeeded n with
    | some x => if k.holdsPage p x then none else some x
    | none => none

/-- The binding of a paged set works on a window block: a token of it is admitted or in its layers (R314, 08 R217). -/
def State.bindBusy (s : State) (b : Nat) : Bool :=
  !(s.bind b).admitted.isEmpty || ((s.bind b).inLayer.any fun y => s.unackedTok b y.2) || s.tok.next != 0

/-- The rows whose words lie in a range of synapse words (log 24). -/
def CoreSt.rowsIn (k : CoreSt) (base words : Nat) : List Nat := k.rowsUsed.filter fun i => base ≤ k.rBase i && k.rBase i < base + words

/-- Device address of page x of a set. -/
def PageSet.pageAddr (p : PageSet) (x : Nat) : Nat := p.home + 2 * p.words * x

/-- Bytes of n synapse words. -/
def CoreSt.synBytes (k : CoreSt) (a n : Nat) : List Byte := (upTo n).flatMap fun x => toLe 2 (k.synWord (a + x))

/-- The dirty rows of a write-back buffer copied out to the home of the page it holds (R314). -/
def State.pageOut (s : State) (c : Nat) (p : PageSet) (b : Nat) : State :=
  let k := s.core c
  let held := Tab.get k.pages 0 (p.key b)
  if !p.writeBack || held = 0 then s
  else (k.rowsIn (p.base b) p.words).foldl (fun s i =>
    let k := s.core c
    if !Tab.get k.dirtyRows false i then s
    else
      let s := s.gWrite (p.pageAddr (held - 1) + 2 * (k.rBase i - p.base b)) (k.synBytes (k.rBase i) (k.rLen i)) .paging
      (s.modCore c fun k => { k with dirtyRows := Tab.set k.dirtyRows false i false }).countCore c Ctr.synRdBytes (2 * k.rLen i)) s

/-- Two word ranges meet. -/
def meets (a n b m : Nat) : Bool := a < b + m && b < a + n

/-- The state of a paged binding. -/
def State.setBindState (s : State) (b v : Nat) : State := if b < 64 then s.modBind b fun x => { x with state := v } else s

/-- Other sets of core c whose buffers share words with the buffer about to be filled lose their page, and their binding
is paged out. -/
def State.evict (s : State) (c : Nat) (p : PageSet) (b : Nat) : State :=
  s.pageSets.foldl (fun s o =>
    if o.core != c || o.num == p.num then s
    else (upTo o.bufs).foldl (fun s ob =>
      if meets (o.base ob) o.words (p.base b) p.words && Tab.get (s.core c).pages 0 (o.key ob) != 0 then
        ((s.pageOut c o ob).modCore c fun k => { k with pages := Tab.set k.pages 0 (o.key ob) 0 }).setBindState o.binding 2
      else s) s) s

/-- A row of buffer b is being read or written: LEARN or a waiting WRITE_WEIGHTS holds it, or a fetch of it is in progress (R314). -/
def CoreSt.bufferUsed (k : CoreSt) (p : PageSet) (b : Nat) : Bool :=
  let busy := k.learnRows ++ k.learnSkipped ++ k.hostRows.map Prod.fst
    ++ (match k.fetch with | some x => if x.beat = 0 then [] else k.fetchRows x.item.ev | none => [])
  (k.rowsIn (p.base b) p.words).any busy.contains

/-- The page-in would take words of another set whose binding works on a window block: it waits (08 R217). -/
def State.evictWaits (s : State) (c : Nat) (p : PageSet) (b : Nat) : Bool :=
  s.pageSets.any fun o => o.core == c && o.num != p.num && decide (o.binding < 64) && s.bindBusy o.binding &&
    (upTo o.bufs).any fun ob => meets (o.base ob) o.words (p.base b) p.words && Tab.get (s.core c).pages 0 (o.key ob) != 0

/-- PAGE_IN_START: the page-in of a set that the schedule calls for begins; every row of the buffer is update-pending. -/
def execPageInStart (core : CoreId) (set : Nat) (s : State) : Res :=
  .next <|
    let c := core.val
    match s.pageSet c set with
    | none => s
    | some p =>
      let k := s.core c
      match k.pageDue p (s.netOf c).step with
      | none => s
      | some page =>
        let b := k.fillBuf p
        if Tab.get k.paging 0 set != 0 || !s.sectorRuns (sectorOf c) || (p.binding < 64 && s.bindBusy p.binding)
            || k.bufferUsed p b || s.evictWaits c p b then s
        else
          let s := (s.pageOut c p b).evict c p b
          let s := s.modCore c fun k =>
            let k := (k.rowsIn (p.base b) p.words).foldl (fun k i => k.setPending i true) k
            { k with pages := Tab.set k.pages 0 (p.key b) 0, paging := Tab.set k.paging 0 set (page + 1) }
          s.setBindState p.binding 3

/-- A synapse word brought in by a page-in: COLSUM of a main row follows the stored weights (02 R47; log 25). -/
def CoreSt.pageWord (i : Nat) (k : CoreSt) (x : Nat × Nat) : CoreSt :=
  let j := k.rStart i + x.1
  let old := k.weight i j
  let k := k.putSyn (k.synAddr i j) x.2
  let new := weightOf k.mode x.2
  if k.rOutlier i || new = old then k else k.addSum j (new - old)

/-- Where a page-in stops: the bytes of the page before its first poisoned block (R305). -/
def State.pageClean (s : State) (p : PageSet) (page : Nat) : Nat :=
  let a := p.pageAddr page
  (((blockSpan a (2 * p.words)).filter fun x => Tab.get s.gddr.poison false x.1).map fun x => max a (x.1 * 64) - a).foldl min (2 * p.words)

/-- Row i of a page filled; a row that the page-in does not reach, because it stops at poison, stays pending (12 R305). -/
def State.pageRow (s : State) (c : Nat) (p : PageSet) (b page i : Nat) : State :=
  let k := s.core c
  let n := min (k.rLen i) (p.base b + p.words - k.rBase i)
  let a := p.pageAddr page + 2 * (k.rBase i - p.base b)
  if s.pageClean p page < 2 * (k.rBase i - p.base b) + 2 * n then s
  else
    let l := s.gPeek a (2 * n)
    let k := (upTo n).foldl (fun k x => k.pageWord i (x, leAt l (2 * x) 2)) k
    (s.setCore c { k.setPending i false with dirtyRows := Tab.set k.dirtyRows false i false }).countCore c Ctr.synWrBytes (2 * n)

/-- Words of the buffer outside every row, which a page-in fills all the same. -/
def State.pageRest (s : State) (c : Nat) (p : PageSet) (b page : Nat) : State :=
  let rows := (s.core c).rowsIn (p.base b) p.words
  let k := s.core c
  let free := (upTo (s.pageClean p page / 2)).filter fun x => !rows.any fun i => k.rBase i ≤ p.base b + x && p.base b + x < k.rBase i + k.rLen i
  let l := s.gPeek (p.pageAddr page) (2 * p.words)
  s.setCore c (free.foldl (fun k x => k.putSyn (p.base b + x) (leAt l (2 * x) 2)) k)

/-- PAGE_IN_COMPLETE: the words are in, the rows are no longer pending, and the page is held; a binding is paged in once
every core of its set holds its page. A page-in that met poison stops: the page is not held. -/
def execPageInComplete (core : CoreId) (set : Nat) (s : State) : Res :=
  .next <|
    let c := core.val
    match s.pageSet c set with
    | none => s
    | some p =>
      let k := s.core c
      match Tab.get k.paging 0 set with
      | 0 => s
      | page + 1 =>
        if !s.sectorRuns (sectorOf c) || s.gHeld (p.pageAddr page) (2 * p.words) then s
        else
          let b := k.fillBuf p
          let poisoned := s.gPoisoned (p.pageAddr page) (2 * p.words)
          let s := (k.rowsIn (p.base b) p.words).foldl (fun s i => s.pageRow c p b page i) (s.pageRest c p b page)
          let s := (s.gCheck (p.pageAddr page) (min (2 * p.words) (s.pageClean p page + 64))).gddrCount (p.pageAddr page) (2 * p.words) .paging 0
          let s := s.modCore c fun k =>
            { k with paging := Tab.set k.paging 0 set 0
                     pages := if poisoned then k.pages else Tab.set k.pages 0 (p.key b) (page + 1)
                     pageBuf := if !poisoned && p.needed (s.netOf c).step = some page then Tab.set k.pageBuf 0 p.num b else k.pageBuf }
          let whole := s.pageSets.all fun o => o.num != set || o.image != p.image ||
            (upTo o.bufs).any fun ob => Tab.get (s.core o.core).pages 0 (o.key ob) != 0
          if !poisoned && whole then s.setBindState p.binding 1 else s

/-- At the opening of step n on core c (R314, R315): a set whose needed page lies in the idle buffer swaps; one whose
needed page is still to be filled counts PAGE_LATE. -/
def State.pageOpen (s : State) (c n : Nat) : State :=
  (s.pageSets.filter fun p => p.core == c).foldl (fun s p =>
    match p.needed n with
    | none => s
    | some x =>
      let k := s.core c
      if !k.holdsPage p x then s.countCore c Ctr.pageLate
      else if p.bufs = 2 && Tab.get k.pages 0 (p.key (1 - Tab.get k.pageBuf 0 p.num)) = x + 1 then
        s.setCore c { k with pageBuf := Tab.set k.pageBuf 0 p.num (1 - Tab.get k.pageBuf 0 p.num) }
      else s) s

end Sys2Proof.Machine
end

