-- ==== Sys2Proof/Machine/Stream.lean ====
section
/-! DEFINITION. Stream.lean: stream contexts, their windows and encoders (15 R378 to R389; 14 R360), result records
(R390) and event flow senders (R404). -/

namespace Sys2Proof.Machine

/-! ### Windows and slots (R378, R379; 13 R343) -/

/-- STATUS bits of R390 are raised with a count: a discarded write or post. -/
def State.slotDiscard (s : State) (n : Nat) : State := (s.countStc n Ctr.stcSlotDiscard).raiseStc n 2

/-- Slot q of context n is POSTED. -/
def StcSt.isPosted (c : StcSt) (q : Nat) : Bool := c.posted.any fun p => p.1 == q

/-- The bytes of a window write that fall into slot q, with their offset in the window. -/
def slotPiece (off : Nat) (bytes : List Byte) (q : Nat) : Nat × List Byte :=
  let lo := max off (q * 0x10000)
  let hi := min (off + bytes.length) ((q + 1) * 0x10000)
  (lo, (bytes.drop (lo - off)).take (hi - lo))

/-- Bytes stored in the window, the reserved bytes 0xFFF0 to 0xFFF7 of each slot left out. -/
def winStore (m : Memory) (a : Nat) : List Byte → Memory
  | [] => m
  | b :: t => winStore (if 0xFFF0 ≤ a % 0x10000 && a % 0x10000 < 0xFFF8 then m else memSetByte m a b) (a + 1) t

/-- A write to the window of context n: discarded while it is unbound; in a POSTED slot discarded; one that covers a
slot's byte 0xFFF8 posts it with the length in its post word. -/
def State.stcWrite (s : State) (n off : Nat) (bytes : List Byte) : State :=
  if !s.bar0Open then s
  else
    let s := s.countDev Ctr.pcieRxBytes noSub bytes.length
    if !(s.stc n).bound || s.ao.pstate = 3 then s.countStc n Ctr.p2pDiscard
    else (upTo 4).foldl (fun s q =>
      let p := slotPiece off bytes q
      if p.2.isEmpty then s
      else if (s.stc n).isPosted q then s.slotDiscard n
      else
        let s := s.modStc n fun c => { c with win := winStore c.win p.1 p.2 }
        let post := q * 0x10000 + 0xFFF8
        if p.1 ≤ post && post < p.1 + p.2.length then
          s.modStc n fun c => { c with posted := c.posted ++ [(q, memNat c.win post 4, s.now)] }
        else s) s

/-- STREAM_WINDOW_WRITE. -/
def execStreamWindowWrite (stc : StcId) (offset : Fin 262144) (bytes : List Byte) (s : State) : Res :=
  .next <| s.stcWrite stc.val offset.val bytes

/-- STREAM_SLOT_POST: a write of the post word. -/
def execStreamSlotPost (stc : StcId) (slot : Fin 4) (len : Word32) (s : State) : Res :=
  .next <| s.stcWrite stc.val (slot.val * 0x10000 + 0xFFF8) (toLe 4 len.toNat)

/-! ### Guard time (R387) -/

/-- Total destinations of an element map. -/
def ElemMap.destTotal (m : ElemMap) : Nat := (m.elems.map List.length).sum + (m.outs.map fun o => o.2.length).sum

/-- E of R387 in ring cycles, for a frame of len bytes that injects v events. -/
def encodeCycles (len v : Nat) : Nat := (len + 63) / 64 + (v + 3) / 4 + 24

/-- Ring cycles of 1.2 GHz fit into a time in ns (01 R26). -/
def cyclesFit (cycles ns : Nat) : Bool := cycles * 5 ≤ ns * 6

/-- Bytes of a sample. -/
def sampleBytes (fmt : Nat) : Nat := if fmt = 0 then 1 else 2

/-- The longest token packet of n elements: header, body, and an outlier section of 8 channels (08 R197, R198). -/
def tokenMax (n : Nat) : Nat := 16 + roundUp n 8 + 40

/-- The guard time of ingest function r, in ring cycles: none for DELTA and AE frames. -/
def RingFn.guard (r : RingFn) : Option Nat :=
  if r.fkind = 0 then (if r.delta then none else some (encodeCycles (r.nelem * sampleBytes r.fmt) r.map.destTotal))
  else if r.fkind = 2 then some (encodeCycles (tokenMax r.nelem) r.map.destTotal)
  else none

/-- The guard time of ingest function r fits P_d - M, both in units of 10 ns (R382, 05 R135). -/
def RingFn.guardFits (r : RingFn) (period margin : Nat) : Bool :=
  match r.guard with
  | none => true
  | some c => cyclesFit c (10 * (period - margin))

/-! ### Binding (R382, 14 R360) -/

/-- Context n bound by a BIND_STREAM command. -/
def State.bindStc (s : State) (n : Nat) (c : List Byte) : State :=
  s.modStc n fun x => { x with
    bound := true, skind := leAt c 0x41 1, net := cmdNet c, ifn := leAt c 0x42 2, resLog2 := leAt c 0x50 1
    resAddr := leAt c 0x48 8, thresh := leAt c 0x54 2, bindWait := 0, win := [], posted := [], refs := [], prod := 0, cons := 0 }

/-- Context n unbound: its slots are FREE and its window is discarded. A DELTA context leaves its references to be sent as
z - r at the next opening. -/
def State.unbindStc (s : State) (n : Nat) : State :=
  let c := s.stc n
  let last := if (s.rfn c.ifn).delta && c.skind == 0 && !c.refs.isEmpty then [(c.net, c.ifn, c.refs)] else []
  let s := if c.posted.isEmpty then s else s.raiseStc n 0
  s.modStc n fun c => { c with bound := false, unbindWait := 0, win := [], posted := [], refs := [], farewell := c.farewell ++ last }

/-- The fields of a BIND_STREAM block agree with ingest function `fn` of network k. -/
def State.bindFits (s : State) (k n : Nat) (c : List Byte) : Bool :=
  let fn := leAt c 0x42 2
  let r := s.rfn fn
  let net := s.net k
  fn < 64 && r.net == k + 1 && r.fkind == leAt c 0x41 1 && r.fmt == leAt c 0x51 1 && b2n r.delta == leAt c 0x52 1
    && r.nelem == leAt c 0x58 4
    && !((upTo 32).any fun o => o != n && ((s.stc o).bound || (s.stc o).bindWait != 0) && (s.stc o).ifn == fn && (s.stc o).net == k)
    && (net.lockstep || net.source.kind == 0 || r.guardFits net.source.period net.margin)

/-- BIND_STREAM: at once on a halted network, at the next opening of a running one. -/
def execBindStream (mb : MboxId) (s : State) : Res :=
  .next <| s.runCmd mb.val 0x20 fun s e =>
    let m := mb.val
    let n := leAt e.cmd 0x40 1
    let k := cmdNet e.cmd
    s.needNet m e fun s => s.needNotShed m e fun s =>
      if (s.stc n).bound || (s.stc n).bindWait != 0 then s.refuse m e codeState Why.streamBound
      else if !s.bindFits k n e.cmd then s.refuse m e codeState Why.badField
      else if (s.net k).running then
        (s.park m e).modStc n fun c => { c with bindWait := m + 1, net := k, ifn := leAt e.cmd 0x42 2 }
      else (s.bindStc n e.cmd).finish m e

/-- UNBIND_STREAM: at once on a halted network, at the next opening of a running one. -/
def execUnbindStream (mb : MboxId) (s : State) : Res :=
  .next <| s.runCmd mb.val 0x21 fun s e =>
    let m := mb.val
    let n := leAt e.cmd 0x40 1
    let k := cmdNet e.cmd
    s.needNet m e fun s => s.needNotShed m e fun s =>
      if !(s.stc n).bound || (s.stc n).net != k then s.refuse m e codeState Why.streamUnbound
      else if (s.net k).running then (s.park m e).modStc n fun c => { c with unbindWait := m + 1 }
      else (s.unbindStc n).finish m e

/-! ### Injection -/

/-- A stream event (03 R62: RING set). -/
def streamEvent (typ : Nat) (d : Nat × Nat) (p16 : Bool) (v : Int) : EvItem :=
  { ev := mkEvent typ d.1 d.2 0 (payloadOf v) false (b2n p16) 0 true 0 0 }

/-- v sent to every destination of element i of ingest function fn, for step `step`; answers the events sent. -/
def State.sendElem (s : State) (fn step typ i : Nat) (p16 : Bool) (v : Int) : State × Nat :=
  let d := (s.rfn fn).map.elems.getD i []
  (d.foldl (fun s x => s.ringEvent fn step (streamEvent typ x p16 v)) s, d.length)

/-- The same for a list of elements with their values. -/
def State.sendElems (s : State) (fn step typ : Nat) (p16 : Bool) (l : List (Nat × Int)) : State × Nat :=
  l.foldl (fun (r : State × Nat) x =>
    let t := r.1.sendElem fn step typ x.1 p16 x.2
    (t.1, r.2 + t.2)) (s, 0)

/-- The references of a DELTA context sent with a sign for step `step` (R386). -/
def State.sendRefs (s : State) (n fn step : Nat) (sign : Int) (refs : Tab Int) : State :=
  let r := s.sendElems fn step 2 true (refs.map fun x => (x.1, sign * x.2))
  r.1.countStc n Ctr.stcEvents r.2

/-- At the opening of step `step` of network k: bindings and unbindings that waited take effect, unbound DELTA contexts
send z - r, and on a delta refresh step bound ones send r - z (R386). A backward step sends neither (07 R170): what is due goes out at
the next forward step. -/
def State.streamsOpen (s : State) (k step : Nat) : State :=
  let s := (upTo 32).foldl (fun s n =>
    let c := s.stc n
    let s := if c.unbindWait != 0 && c.bound && c.net == k then
        (s.unbindStc n).wakeCmd c.unbindWait fun s m e => s.finish m e
      else s
    if c.bindWait != 0 && c.net == k then s.wakeCmd c.bindWait fun s m e => (s.bindStc n e.cmd).finish m e else s) s
  let s := (upTo 32).foldl (fun s n =>
    let mine := if (s.net k).backward then [] else (s.stc n).farewell.filter fun f => f.1 == k
    let s := if (s.net k).backward then s else s.modStc n fun c => { c with farewell := c.farewell.filter fun f => f.1 != k }
    mine.foldl (fun s f => s.sendRefs n f.2.1 step (-1) f.2.2) s) s
  if !(s.net k).refreshStep step || (s.net k).backward then s
  else (upTo 32).foldl (fun s n =>
    let c := s.stc n
    if c.bound && c.net == k && c.skind == 0 && (s.rfn c.ifn).delta then s.sendRefs n c.ifn step 1 c.refs else s) s

/-! ### Scanning (R379, R380) -/

/-- Context n may scan its oldest posted frame, of kind `kind`: its network runs a forward step, and under LOCKSTEP the
frame was posted before T_t of the open step; a frame with a guard time fits before the next cutoff. -/
def State.canScan (s : State) (n kind : Nat) : Bool :=
  let c := s.stc n
  let k := s.net c.net
  let r := s.rfn c.ifn
  match c.posted with
  | [] => false
  | p :: _ =>
    c.bound && c.skind == kind && k.running && !k.backward && !k.shed && s.boot.crStep == 0
      && (if k.lockstep then k.step != 0 && k.phase == 1 && p.2.2 < k.tN
          else match r.guard with
            | none => true
            | some _ => s.nextCut c.net ≤ s.now || cyclesFit (encodeCycles p.2.1 r.map.destTotal) (s.nextCut c.net - s.now))

/-- The oldest posted slot of context n is FREE again. -/
def State.releaseSlot (s : State) (n : Nat) : State := (s.modStc n fun c => { c with posted := c.posted.tail }).raiseStc n 0

/-- A frame refused unscanned. -/
def State.badFrame (s : State) (n : Nat) : State := ((s.countStc n Ctr.stcBadFrame).raiseStc n 3).releaseSlot n

/-- A frame scanned, `events` injected. -/
def State.scanned (s : State) (n events : Nat) : State :=
  ((s.countStc n Ctr.stcFrames).countStc n Ctr.stcEvents events).releaseSlot n

/-- Slot and LEN of the oldest posted frame of context n, with its bytes; LEN is limited to a slot's data. -/
def StcSt.frame (c : StcSt) : Nat × List Byte :=
  match c.posted with
  | [] => (0, [])
  | p :: _ => (p.2.1, memRead c.win (p.1 * 0x10000) (min p.2.1 0xFFF0))

/-- The code of a sample and whether it was clamped (R383). -/
def sampleCode (fmt : Nat) (frame : List Byte) (i : Nat) : Int × Bool :=
  if fmt = 0 then ((byteAt frame i : Int) - 128, false)
  else if fmt = 1 then ((leAt frame (2 * i) 2 : Int) - 32768, false)
  else
    let v := sext 16 (leAt frame (2 * i) 2)
    if v = -32768 then (-32767, true) else (v, false)

/-- Zero point of a sample format (R383). -/
def sampleZp (fmt : Nat) : Int := if fmt = 0 then -128 else if fmt = 1 then -32768 else 0

/-- One element of a DELTA frame against its reference, held as r - z (R385): the reference and the difference to send,
and whether it was clamped. -/
def deltaElem (t : Nat) (ref code : Int) : Int × Option Int × Bool :=
  let d := code - ref
  if (d.natAbs : Nat) ≤ t then (ref, none, false)
  else
    let q := clampI (-32767) 32767 d
    (ref + q, some q, decide (q ≠ d))

/-- What a DELTA scan has gathered: references, differences by element, clamps. -/
abbrev DeltaScan := Tab Int × List (Nat × Int) × Nat

/-- Every element of a DELTA frame. -/
def deltaScan (c : StcSt) (fmt nelem : Nat) (frame : List Byte) : DeltaScan :=
  (upTo nelem).foldl (fun (r : DeltaScan) i =>
    let code := (sampleCode fmt frame i).1 - sampleZp fmt
    let x := deltaElem c.thresh (Tab.get r.1 0 i) code
    (Tab.set r.1 0 i x.1, (match x.2.1 with | some d => r.2.1 ++ [(i, d)] | none => r.2.1), r.2.2 + b2n x.2.2)) (c.refs, [], 0)

/-- FRAME_ENCODE. -/
def execFrameEncode (stc : StcId) (s : State) : Res :=
  .next <|
    let n := stc.val
    let c := s.stc n
    let r := s.rfn c.ifn
    if !s.canScan n 0 then s
    else
      let f := c.frame
      if f.1 ≠ r.nelem * sampleBytes r.fmt then s.badFrame n
      else
        let step := s.ringStep c.net
        let s := s.countDev Ctr.convSat c.ifn ((upTo r.nelem).filter fun i => (sampleCode r.fmt f.2 i).2).length
        if r.delta then
          let d := deltaScan c r.fmt r.nelem f.2
          let s := (s.modStc n fun c => { c with refs := d.1 }).countDev Ctr.convSat c.ifn d.2.2
          let x := s.sendElems c.ifn step 2 true d.2.1
          x.1.scanned n x.2
        else
          let x := s.sendElems c.ifn step 2 (r.fmt != 0) ((upTo r.nelem).map fun i => (i, (sampleCode r.fmt f.2 i).1))
          x.1.scanned n x.2

/-- AE_FRAME_SCAN. -/
def execAeFrameScan (stc : StcId) (s : State) : Res :=
  .next <|
    let n := stc.val
    let c := s.stc n
    let r := s.rfn c.ifn
    if !s.canScan n 1 then s
    else
      let f := c.frame
      if f.1 = 0 || f.1 % 8 ≠ 0 || 0xFFF0 < f.1 then s.badFrame n
      else
        let step := s.ringStep c.net
        let els := (upTo (f.1 / 8)).map fun i =>
          let w := leAt f.2 (8 * i) 8
          2 * nfld w 31 16 + nfld w 15 15
        let s := s.countStc n Ctr.stcAeDiscard (els.filter fun e => r.nelem ≤ e).length
        let x := s.sendElems c.ifn step 1 false ((els.filter fun e => e < r.nelem).map fun e => (e, 1))
        x.1.scanned n x.2

/-- TOKEN_FRAME_SCAN: the packet is expanded without admission, in one step, and gives the step's sequence ID to the
dispatch packers of the network. -/
def execTokenFrameScan (stc : StcId) (s : State) : Res :=
  .next <|
    let n := stc.val
    let c := s.stc n
    let r := s.rfn c.ifn
    if !s.canScan n 2 then s
    else
      let f := c.frame
      let p := parsePacket f.2
      let t := p.tok
      if 0xFFF0 < f.1 || f.1 < 16 || t.kind ≠ kindDispatch || t.delta || t.n ≠ r.nelem || !p.good then s.badFrame n
      else
        let step := s.ringStep c.net
        let evs := (tokenEvents r.map t 2 false 0 0).map fun e => { e with token := false }
        let s := evs.foldl (fun s e => (s.ringEvent c.ifn step e).setT e.ev step t.tscale (some t.sout)) s
        let s := (upTo 16).foldl (fun s d =>
          if (s.dp d).valid && (s.dp d).net == c.net then s.modDp d fun k => { k with seq := t.seq } else s) s
        s.scanned n evs.length

/-- Ingest function fn holds no frame that its context has taken for the open step of a LOCKSTEP network (R380). -/
def State.ingestClosed (s : State) (fn : Nat) : Bool :=
  (upTo 32).all fun n =>
    let c := s.stc n
    let k := s.net c.net
    !(c.bound && c.ifn == fn && (s.rfn fn).net == c.net + 1) || k.backward || c.posted.all fun p => k.tN ≤ p.2.2

/-! ### Result records (R390) -/

/-- The number of the step whose FIRE emitted an event that core c sent with `tag` (05 R124). -/
def State.emitStep (s : State) (c tag : Nat) : Nat :=
  let n := (s.core c).step
  n - (n + 5 - tag % 4) % 4

/-- The ring functions that RESULT_RECORD_WRITE consumes: result functions, and numbers that take nothing (R377). -/
def isResultFn (fn : Nat) : Bool := !((0x100 ≤ fn && fn < 0x150) || (0x170 ≤ fn && fn < 0x190))

/-- RESULT_RECORD_WRITE: the oldest such event at the sector's ring port. -/
def execResultRecordWrite (sector : SectorId) (s : State) : Res :=
  .next <|
    match s.takeRing sector.val isResultFn with
    | none => s
    | some (fn, src, e, _, s) =>
      let n := fn - 0x150
      let c := s.stc n
      let ty := evType e.ev
      if fn < 0x150 || 0x170 ≤ fn || !s.ringBound fn src || !c.bound || c.resLog2 = 0 || (s.rfn fn).net != c.net + 1
          || (ty != 1 && ty != 2) then s.ringIgnored sector.val fn
      else if (c.prod + 65536 - c.cons) % 65536 = 2 ^ c.resLog2 then (s.countStc n Ctr.resultOverflow).raiseStc n 4
      else
        let spike := ty == 1
        let rec_ := toLe 4 (s.emitStep src e.tag) ++ toLe 4 s.now ++ toLe 2 (if spike then 1 else toField 16 (evInt e.ev))
          ++ toLe 2 (evRow e.ev) ++ toLe 2 (src + b2n spike * 2 ^ 10 + (if c.prod / 2 ^ c.resLog2 % 2 = 0 then 2 ^ 15 else 0)) ++ zeros 2
        let s := s.hostWrite (c.resAddr + 16 * (c.prod % 2 ^ c.resLog2)) rec_
        (s.modStc n fun c => { c with prod := (c.prod + 1) % 65536 }).raiseStc n 1

/-! ### Event flow senders (R404) -/

/-- The events that wait for function fn at the ring ports, taken in sector order, of one FIRE phase. -/
def State.gatherFlow (s : State) (fn : Nat) : State :=
  (upTo 8).foldl (fun s n =>
    (s.sector n).toRing.foldl (fun s it =>
      match it with
      | .ring g src e scale =>
        let r := s.rfn fn
        if g != fn || (!r.vec.isEmpty && r.tag != e.tag) then s
        else
          let s := s.modSector n fun q => { q with toRing := q.toRing.erase it }
          if !s.ringBound fn src || (evType e.ev != 1 && evType e.ev != 2) then s.ringIgnored n fn
          else s.modRfn fn fun r => { r with
            vec := r.vec ++ [(evRow e.ev, evInt e.ev, evType e.ev == 1)], tag := e.tag
            scale := if evType e.ev = 2 then scale else r.scale }
      | _ => s) s) s

/-- The events of a gathered vector, narrowed, with s_tok and the counts of CONV_SAT and CONV_NAN: main elements, outlier
elements, then SPIKE events. -/
def RingFn.flowEvents (r : RingFn) : List Word64 × Word32 × Nat × Nat :=
  let g := r.vec.filter fun x => !x.2.2
  let size := (g.map fun x => x.1 + 1).foldl max 0
  let sums := (upTo size).map fun i => ((g.filter fun x => x.1 == i).map fun x => x.2.1).sum
  let nb := narrowToken 0 (r.outl.filter (· < size)) (sums.map fun v => f32Mul (f32OfInt v) r.scale)
  let put (typ : Nat) (out : Bool) (p16 : Bool) (v : Int) (i : Nat) : List Word64 :=
    (r.map.elems.getD i []).map fun d => mkEvent typ d.1 d.2 0 (payloadOf v) out (b2n p16) 0 false 0 0
  ((upTo size).flatMap (fun i => let v := nb.1.codes.getD i 0; if v = 0 then [] else put 2 false false v i)
    ++ nb.1.outl.flatMap (fun o => if o.2 = 0 then [] else put 2 true true o.2 o.1)
    ++ (r.vec.filter fun x => x.2.2).flatMap (fun x => put 1 false false 1 x.1), nb.1.tscale, nb.2.1, nb.2.2)

/-- EVENTS messages of at most 8,190 events each, all with the scale; `n` bounds their number. -/
def eventsBodies (scale : Word32) : Nat → List Word64 → List (List Byte)
  | 0, _ => []
  | n + 1, l =>
    if l.isEmpty then []
    else
      let h := l.take 8190
      (toLe 8 (h.length * 2 ^ 32 + scale.toNat) ++ h.flatMap fun w => toLe 8 w.toNat) :: eventsBodies scale n (l.drop 8190)

/-- EVENT_FLOW_SEND: sender f gathers the events that wait for it, and sends its vector once the FIRE phase has been
emitted. While its flow's quota is full it stalls, and so do the events at the ring ports (11 R286). -/
def execEventFlowSend (sender : Fin 32) (s : State) : Res :=
  .next <|
    let fn := 0x170 + sender.val
    if !s.srcFree (s.rfn fn).flow then s else
    let s := s.gatherFlow fn
    let r := s.rfn fn
    if r.net = 0 || r.vec.isEmpty || !s.emitDone (r.net - 1) || !s.ringQuiet fn then s
    else
      let x := r.flowEvents
      let s := (s.countDev Ctr.convSat fn x.2.2.1).countDev Ctr.convNan fn x.2.2.2
      let s := s.modRfn fn fun r => { r with vec := [] }
      (eventsBodies x.2.1 x.1.length x.1).foldl (fun s b => s.offerMsg r.flow 1 b) s

end Sys2Proof.Machine
end

