-- ==== Sys2Proof/Machine/Weights.lean ====
section
/-! DEFINITION. Weights.lean: WRITE_WEIGHTS, READ_WEIGHTS, APPLY_UPDATES, CHECKPOINT and RESTORE (06 R165; 07 R183 to
R187; 14 R363 to R366). -/

namespace Sys2Proof.Machine

/-! ### Blocks (07 R186) -/

/-- Distinct columns covered by a row range, ascending. -/
def CoreSt.coveredCols (k : CoreSt) (first rows : Nat) : List Nat :=
  (upTo (modeCols k.mode)).filter fun j => (upTo rows).any fun x => k.covers (first + x) j

/-- A column entry. -/
def CoreSt.colEntry (k : CoreSt) (j : Nat) : List Byte :=
  toLe 2 j ++ toLe 1 (k.cExp j) ++ zeros 1 ++ toLe 2 (toField 16 (k.cZp j)) ++ zeros 2 ++ toLe 4 (k.colF j 0).toNat
    ++ toLe 4 (toField 32 (k.cSum j))

/-- Bytes of a row record of C columns, padded to 16. -/
def rowRecBytes (len word : Nat) (tags : Bool) : Nat := (16 + word * len + (if tags then len else 0) + 15) / 16 * 16

/-- A row record. -/
def State.rowRecord (s : State) (c i source : Nat) : List Byte :=
  let k := s.core c
  let n := k.rLen i
  let tags := k.mode == 2 && source == 0
  let words := (upTo n).flatMap fun x =>
    let a := k.rBase i + x
    if source = 0 then toLe 2 (k.synWord a) else s.gPeek (k.gradAddr a) 4
  let body := toLe 2 i ++ zeros 2 ++ toLe 2 (k.rStart i) ++ toLe 2 n ++ zeros 8 ++ words
    ++ (if tags then (upTo n).map fun x => BitVec.ofNat 8 (k.tag (k.rBase i + x)) else [])
  fitBytes (rowRecBytes n (if source = 0 then 2 else 4) tags) body

/-- The block of R186 from its column entries and row records. -/
def State.weightBlock (s : State) (c first rows source step : Nat) (cols recs : List Byte) : List Byte :=
  let k := s.core c
  toLe 2 1 ++ toLe 1 k.mode ++ toLe 1 source ++ toLe 2 c ++ toLe 2 first ++ toLe 2 rows ++ toLe 2 (k.coveredCols first rows).length
    ++ zeros 4 ++ toLe 8 step ++ zeros 40 ++ cols ++ recs

/-! ### READ_WEIGHTS (07 R187, 14 R364) -/

/-- READ_WEIGHTS of mailbox m gives its block of column entries and row records, with the step number it reports. -/
def State.readNow (s : State) (m : Nat) (e : JEntry) (step : Nat) (cols recs : List Byte) : State :=
  let w (o : Nat) : Nat := leAt e.cmd o 2
  let c := w 0x40
  let rows := upTo (w 0x44)
  let k := s.core c
  let src := leAt e.cmd 0x46 1
  let s := s.finishResult m e (s.weightBlock c (w 0x42) (w 0x44) src step cols recs)
  let words := (rows.map fun x => k.rLen (w 0x42 + x)).sum
  if src = 0 then s.countCore c Ctr.synRdBytes (rows.map fun x => fetchBytes k.mode (k.rBase (w 0x42 + x)) (k.rLen (w 0x42 + x))).sum
  else if words = 0 then s
  else rows.foldl (fun s x => (s.gCheck (k.gradAddr (k.rBase (w 0x42 + x))) (4 * k.rLen (w 0x42 + x))).gddrCount (k.gradAddr (k.rBase (w 0x42 + x))) (4 * k.rLen (w 0x42 + x)) .compute 0) s

/-- Row i copied for the READ_WEIGHTS that waits on core c, if it is one of those still to be copied. -/
def State.copyRow (s : State) (c i : Nat) : State :=
  let k := s.core c
  if !k.snapTodo.contains i then s
  else s.wakeCmd k.snapWait fun s _ e =>
    let r := s.rowRecord c i (leAt e.cmd 0x46 1)
    s.modCore c fun k => { k with snapTodo := k.snapTodo.filter (· != i), snapGot := k.snapGot ++ [(i, r)] }

/-- The column entries copied for it, once LEARN of the step it reports has retired. -/
def State.copyCols (s : State) (c : Nat) : State :=
  let k := s.core c
  if k.snapWait = 0 || k.snapCols.isSome || (k.learning && k.learnStep = k.snapStep) then s
  else s.wakeCmd k.snapWait fun s _ e =>
    s.modCore c fun k => { k with snapCols := some ((k.coveredCols (leAt e.cmd 0x42 2) (leAt e.cmd 0x44 2)).flatMap k.colEntry) }

/-- DELIVER n + 1 of core c ends: the rows of a READ_WEIGHTS whose LEARN n write-back has retired are copied, but for a number of the
last ones that the spec leaves to the copy's speed (R187; log 84). -/
def State.copyDeliver (s : State) (c : Nat) : State :=
  let k := s.core c
  if k.snapWait = 0 then s
  else
    let rows := k.snapTodo.filter fun i => !k.learnRows.contains i
    let s := ((rows.take (rows.length - Config.snapLeft s.free)).foldl (fun s i => s.copyRow c i) s).copyCols c
    s.drawn

/-- LEARN retires row i on core c. A row that a READ_WEIGHTS of an earlier step has still to copy is copied first, and the write-back
waits; a row of the step it reports is copied when it has retired (R187). -/
def State.retireCopied (s : State) (c i : Nat) : State :=
  let k := s.core c
  if k.snapWait = 0 || !k.snapTodo.contains i then s.retireRow c i
  else if k.learnStep = k.snapStep then (s.retireRow c i).copyRow c i
  else
    let s := (s.countCore c Ctr.snapshotStall (1 + Config.snapLeft s.free)).drawn
    (s.copyRow c i).retireRow c i

/-- A READ_WEIGHTS that waits on core c ends once every row is copied; what FIRE and LEARN of the next step have left is copied then. -/
def State.serveSnap (s : State) (c : Nat) : State :=
  let k := s.core c
  if k.snapWait = 0 then s
  else
    let s := s.copyCols c
    let s := if !k.learning && (k.snapStep + 1 < k.step || k.phase == 3 || k.phase == 0) then k.snapTodo.foldl (fun s i => s.copyRow c i) s else s
    let k := s.core c
    match k.snapCols with
    | some cols =>
      if !k.snapTodo.isEmpty then s
      else
        let recs := (sortNat (k.snapGot.map Prod.fst)).flatMap fun i => ((k.snapGot.find? (·.1 == i)).map Prod.snd).getD []
        (s.wakeCmd k.snapWait fun s m e => s.readNow m e k.snapStep cols recs).modCore c fun k =>
          { k with snapWait := 0, snapTodo := [], snapGot := [], snapCols := none }
    | none => s

/-- READ_WEIGHTS: on a halted network at once; during a run at the opening of the next step, n being the step before. -/
def execReadWeights (mb : MboxId) (s : State) : Res :=
  .next <| s.runCmd mb.val 0x31 fun s e =>
    let m := mb.val
    let c := leAt e.cmd 0x40 2
    let first := leAt e.cmd 0x42 2
    let k := s.core c
    let n := s.net (cmdNet e.cmd)
    s.needNet m e fun s => s.needNotShed m e fun s => s.needMember m e c fun s =>
      if k.nRows < first + leAt e.cmd 0x44 2 then s.refuse m e codeState Why.badField
      else if leAt e.cmd 0x46 1 = 1 && fld k.trainCfg 31 30 < 2 then s.refuse m e codeState Why.notTraining
      else if n.running then
        (s.park m e).modNet (cmdNet e.cmd) fun n => { n with waits := n.waits ++ [m] }
      else s.readNow m e n.step ((k.coveredCols first (leAt e.cmd 0x44 2)).flatMap k.colEntry)
        ((upTo (leAt e.cmd 0x44 2)).flatMap fun x => s.rowRecord c (first + x) (leAt e.cmd 0x46 1))

/-! ### WRITE_WEIGHTS (06 R165, 14 R363) -/

/-- The row records of a block, as (row, start, length, body), or none where the block breaks R186 or R363. -/
def takeRows (k : CoreSt) : Nat → Nat → List Byte → Option (List (Nat × List Byte))
  | 0, _, rest => if rest.isEmpty then some [] else none
  | n + 1, i, rest =>
    let len := leAt rest 6 2
    let size := rowRecBytes len 2 (k.mode == 2)
    if rest.length < size || leAt rest 0 2 ≠ i || leAt rest 4 2 ≠ k.rStart i || len ≠ k.rLen i || k.nRows ≤ i then none
    else match takeRows k n (i + 1) (rest.drop size) with
      | none => none
      | some l => some ((i, (rest.take size).drop 16) :: l)

/-- A stored word holds an excluded code (02 R35). -/
def excluded (mode w : Nat) : Bool := if mode = 1 then w / 16 == 0x800 else w == 0x8000

/-- The rows of a WRITE_WEIGHTS block, or none where it is refused. -/
def CoreSt.writeRows (k : CoreSt) (c : Nat) (b : List Byte) : Option (List (Nat × List Byte)) :=
  let rows := leAt b 8 2
  if b.length < 64 || leAt b 0 2 ≠ 1 || byteAt b 3 ≠ 0 || byteAt b 2 ≠ k.mode || leAt b 4 2 ≠ c then none
  else match takeRows k rows (leAt b 6 2) (b.drop (64 + 16 * leAt b 10 2)) with
    | none => none
    | some l =>
      if b.length < 64 + 16 * leAt b 10 2 || l.any (fun r => (upTo (k.rLen r.1)).any fun x => excluded k.mode (leAt r.2 (2 * x) 2))
      then none else some l

/-- Row i written from the words (and tags) of its record: a write-back without a rule (R153, R159, R161). -/
def CoreSt.hostRow (k : CoreSt) (i : Nat) (body : List Byte) : CoreSt × WbCount :=
  let n := k.rLen i
  let r := (upTo n).foldl (fun (r : CoreSt × WbCount) x =>
    let w := leAt body (2 * x) 2
    r.1.writeWeight i (k.rStart i + x) (weightOf k.mode w) (synDelay k.mode w) r.2) (k, {})
  let k' := if k.mode = 2 then (upTo n).foldl (fun (k' : CoreSt) x => k'.putTag (k.rBase i + x) (byteAt body (2 * n + x))) r.1 else r.1
  (if k'.learning then k' else { k' with renormMask := k'.buildMask }, r.2)

/-- The waiting rows of a WRITE_WEIGHTS whose row the engine no longer holds are written; the command ends with the last. -/
def State.hostApply (s : State) (c : Nat) : State :=
  let k := s.core c
  if k.hostMb = 0 then s
  else
    let ready := k.hostRows.filter fun r => !k.learnRows.contains r.1 && !k.learnSkipped.contains r.1
    let left := k.hostRows.filter fun r => k.learnRows.contains r.1 || k.learnSkipped.contains r.1
    let s := ready.foldl (fun s r =>
      let s := s.copyRow c r.1
      let h := (s.core c).hostRow r.1 r.2
      (((s.setCore c h.1).countWb c h.2).countCore c Ctr.synWrBytes (fetchBytes k.mode (k.rBase r.1) (k.rLen r.1))).markDirty c r.1) s
    let s := s.modCore c fun k => { k with hostRows := left }
    if left.isEmpty then (s.wakeCmd k.hostMb fun s m e => s.finish m e).modCore c fun k => { k with hostMb := 0 } else s

/-- WRITE_WEIGHTS: `hostData` is the block at SRC_ADDR. -/
def execWriteWeights (mb : MboxId) (hostData : List Byte) (s : State) : Res :=
  .next <| s.runCmd mb.val 0x30 fun s e =>
    let m := mb.val
    let c := leAt e.cmd 0x40 2
    s.needNet m e fun s => s.needNotShed m e fun s => s.needMember m e c fun s =>
      let len := leAt e.cmd 0x50 4
      let s := s.countDev Ctr.pcieRxBytes noSub (min len hostData.length)
      match (s.core c).writeRows c hostData with
      | none => s.refuse m e codeBadImage Why.admission
      | some rows =>
        if hostData.length ≠ len then s.refuse m e codeBadImage Why.admission
        else ((s.park m e).modCore c fun k => { k with hostRows := rows, hostMb := m + 1 }).hostApply c

/-! ### APPLY_UPDATES (07 R183, R184; 14 R365) -/

/-- UPDATE_MODE of a core is ACCUMULATE or REPLICATED. -/
def CoreSt.accumulates (k : CoreSt) : Bool := 2 ≤ fld k.trainCfg 31 30

/-- The updates of row i of core c: the page words, which an all-reduce has replaced under REPLICATED, scaled, subtracted and zeroed
(R183). -/
def State.applyRow (s : State) (c mul shift : Nat) (i : Nat) : State :=
  let k := s.core c
  let n := k.rLen i
  let s := (s.gddrCount (k.gradAddr (k.rBase i)) (4 * n) .compute 0).gddrCount (k.gradAddr (k.rBase i)) (4 * n) .compute 1
  let s := (upTo n).foldl (fun (s : State) x =>
    let k := s.core c
    let a := k.gradAddr (k.rBase i + x)
    let d := rneShift (sext 32 (leNat (s.gPeek a 4)) * mul) shift
    let w := k.synWord (k.rBase i + x)
    let r := if d = 0 then (k, {}) else k.writeWeight i (k.rStart i + x) (weightOf k.mode w - d) (synDelay k.mode w) {}
    let s := (s.setCore c r.1).countWb c r.2
    s.gPoke a (toLe 4 0)) s
  ((s.markDirty c i).countCore c Ctr.synRdBytes (2 * n)).countCore c Ctr.synWrBytes (2 * n)

/-- Core c applies its updates. -/
def State.applyCore (s : State) (c mul shift : Nat) : State :=
  let k := s.core c
  if !k.accumulates then s
  else (k.rowsUsed.foldl (fun s i => s.applyRow c mul shift i) s).modCore c fun k =>
    if k.learning then k else { k with renormMask := k.buildMask }

/-- Every core of the network applies its updates, and APPLY_UPDATES of mailbox m is done. -/
def State.applyAll (s : State) (m : Nat) (e : JEntry) : State :=
  let mul := leAt e.cmd 0x40 2
  let shift := leAt e.cmd 0x42 1
  ((sortNat (s.net (cmdNet e.cmd)).cores).foldl (fun s c => s.applyCore c mul shift) s).finish m e

/-! ### The all-reduce (07 R184; log 22) -/

/-- The replica group of network k: this device's position, and the other members with their flows. -/
def State.groupOf (s : State) (k : Nat) : Option (Nat × List (Nat × Nat)) :=
  (s.groups.find? fun g => g.1 == k).map fun g =>
    (g.2.1, ((upTo (g.2.2.length + 1)).filter (· != g.2.1)).zip g.2.2)

/-- The cores of network k in REPLICATED mode, ascending. -/
def State.replCores (s : State) (k : Nat) : List Nat := sortNat ((s.net k).cores.filter fun c => fld (s.core c).trainCfg 31 30 == 3)

/-- APPLY_UPDATES of network k reduces first. -/
def State.reduces (s : State) (k : Nat) : Bool := (s.groupOf k).isSome && !(s.replCores k).isEmpty

/-- The synapse words whose gradient words a core's loaded rows use, ascending: what is reduced. -/
def CoreSt.pageWords (k : CoreSt) : List Nat :=
  sortNat ((k.rowsUsed.flatMap fun i => (upTo (k.rLen i)).map (k.rBase i + ·)).dedup)

/-- Chunk j of a list, cut into one chunk for each of `members`. -/
def chunkOf (l : List Nat) (members j : Nat) : List Nat :=
  (l.take (l.length * (j + 1) / members)).drop (l.length * j / members)

/-- Chunk j of network k: (core, synapse word) pairs, core by core. -/
def State.chunkWords (s : State) (k members j : Nat) : List (Nat × Nat) :=
  (s.replCores k).flatMap fun c => (chunkOf (s.core c).pageWords members j).map fun a => (c, a)

/-- Data sent on flow f as BULK messages of at most 65,520 data bytes each, behind their 16-byte target. -/
def State.sendBulk (s : State) (f : Nat) (data : List Byte) : State :=
  (upTo ((data.length + 65519) / 65520)).foldl (fun s i =>
    (s.offerMsg f 4 (toLe 8 (Config.chunkAddr s.free).toNat ++ zeros 8 ++ (data.drop (65520 * i)).take 65520)).drawn) s

/-- The partial sums of a chunk: the page words, as 64-bit words. -/
def State.partials (s : State) (l : List (Nat × Nat)) : List Byte :=
  l.flatMap fun x => toLe 8 (toField 64 (sext 32 (leNat (s.gPeek ((s.core x.1).gradAddr x.2) 4))))

/-- The all-reduce of network k begins for the APPLY_UPDATES of mailbox m1 - 1: each member gets this device's partial sums of its
chunk. A command that starts again after a compute-partition reset goes on with the reduction it had begun. -/
def State.reduceStart (s : State) (k m1 : Nat) : State :=
  match (s.net k).reduce, s.groupOf k with
  | some r, _ => s.modNet k fun n => { n with reduce := some (m1, r.2) }
  | none, none => s
  | none, some (me, peers) =>
    let all := peers.length + 1
    let own := s.partials (s.chunkWords k all me)
    let s := peers.foldl (fun s p => s.sendBulk p.2 (s.partials (s.chunkWords k all p.1))) s
    s.modNet k fun n => { n with reduce := some (m1, false), chunks := Tab.set n.chunks [] me own }

/-- The reduce-scatter of network k ends once every member's partial sums have arrived: two's complement 64-bit sums, each clamped to
32 bits once, go to every member. -/
def State.reduceSum (s : State) (k : Nat) : State :=
  match (s.net k).reduce, s.groupOf k with
  | some (m1, false), some (me, peers) =>
    let all := peers.length + 1
    let ws := s.chunkWords k all me
    let got (x : Nat) : List Byte := Tab.get (s.net k).chunks [] x
    if peers.any fun p => (got p.1).length < 8 * ws.length then s
    else
      let r := ws.zipIdx.map fun w =>
        (w.1.1, sat32 (sext 64 (toField 64 (((upTo all).map fun x => sext 64 (leAt (got x) (8 * w.2) 8)).sum))))
      let out := r.flatMap fun x => toLe 4 (toField 32 x.2.1)
      let s := r.foldl (fun s x => s.countCore x.1 Ctr.gradSat (b2n x.2.2)) s
      let s := peers.foldl (fun s p => s.sendBulk p.2 out) s
      s.modNet k fun n => { n with
        reduce := some (m1, true)
        chunks := Tab.set (peers.foldl (fun t p => Tab.set t [] p.1 ((Tab.get t [] p.1).drop (8 * ws.length))) n.chunks) [] me out }
  | _, _ => s

/-- The all-gather of network k ends once every member's reduced chunk has arrived: the pages take the reduced words, every core
applies them, and the command is done. -/
def State.reduceEnd (s : State) (k : Nat) : State :=
  match (s.net k).reduce, s.groupOf k with
  | some (m1, true), some (me, peers) =>
    let all := peers.length + 1
    let got (x : Nat) : List Byte := Tab.get (s.net k).chunks [] x
    if peers.any fun p => (got p.1).length < 4 * (s.chunkWords k all p.1).length then s
    else
      let s' := (upTo all).foldl (fun s' x => (s.chunkWords k all x).zipIdx.foldl (fun s' w =>
        s'.gPoke ((s.core w.1.1).gradAddr w.1.2) (((got x).drop (4 * w.2)).take 4)) s') s
      let s' := s'.modNet k fun n => { n with
        reduce := none, waits := n.waits.filter fun m => m + 1 != m1
        chunks := (upTo all).foldl (fun t x =>
          Tab.set t [] x (if x = me then [] else (Tab.get t [] x).drop (4 * (s.chunkWords k all x).length))) n.chunks }
      s'.wakeCmd m1 fun s m e => s.applyAll m e
  | _, _ => s

/-- The all-reduce of network k goes as far as what has arrived allows. -/
def State.reduceGo (s : State) (k : Nat) : State := (s.reduceSum k).reduceEnd k

/-- Data of a BULK message of flow f: where the flow is that of a member of a replica group, the next bytes of its chunks. -/
def State.takeChunk (s : State) (f : Nat) (data : List Byte) : State :=
  (upTo 16).foldl (fun s k =>
    match s.groupOf k with
    | some (_, peers) => match peers.find? fun p => p.2 == f with
      | some p => s.modNet k fun n => { n with chunks := Tab.set n.chunks [] p.1 (Tab.get n.chunks [] p.1 ++ data) }
      | none => s
    | none => s) s

/-- APPLY_UPDATES of mailbox m acts on its network: at once, or after its all-reduce. -/
def State.applyNow (s : State) (m : Nat) (e : JEntry) : State :=
  let k := cmdNet e.cmd
  if s.reduces k then ((s.park m e).reduceStart k (m + 1)).reduceGo k else s.applyAll m e

/-- APPLY_UPDATES: at once on a halted network, at the next cycle boundary of a running one. -/
def execApplyUpdates (mb : MboxId) (s : State) : Res :=
  .next <| s.runCmd mb.val 0x32 fun s e =>
    let m := mb.val
    s.needNet m e fun s => s.needNotShed m e fun s =>
      let n := s.net (cmdNet e.cmd)
      if !(n.cores.any fun c => (s.core c).accumulates) then s.refuse m e codeState Why.notTraining
      else if n.running then (s.park m e).modNet (cmdNet e.cmd) fun n => { n with waits := n.waits ++ [m] }
      else s.applyNow m e

/-! ### CHECKPOINT and RESTORE (07 R185, 14 R366) -/

/-- The digest of the load image of a network. -/
def State.imageDigest (s : State) (n : NetSt) : List Byte := (Tab.get s.images {} n.image).digest

/-- The gradient pages of core c as (address, byte) pairs. -/
def State.gradCells (s : State) (c : Nat) : List Host.Cell :=
  let k := s.core c
  if !k.accumulates then []
  else k.rowsUsed.flatMap fun i => (upTo (4 * k.rLen i)).map fun x =>
    let a := k.gradAddr (k.rBase i) + x
    (a, memByte s.gddr.mem a)

/-- The bytes of a checkpoint: free values (log 10). -/
def ckptBytes (seed len : Nat) : List Byte := (upTo len).map fun i => Config.freeByte (seed + i)

/-- CHECKPOINT of mailbox m into region r. -/
def State.checkpointNow (s : State) (m : Nat) (e : JEntry) (r : Region) : State :=
  let n := s.net (cmdNet e.cmd)
  let cs := sortNat n.cores
  let len := min (Config.ckptLen s.free) r.size
  let ck : Ckpt := { base := r.base, len := len, seed := s.free, digest := s.imageDigest n
                     cores := cs.map fun c => (c, s.core c), grads := cs.flatMap s.gradCells, step := n.step, pos := n.pos }
  let s := s.gWrite r.base (ckptBytes s.free len) .compute
  let s := { s with free := s.free + len }
  let s := s.modGddr fun g => { g with ckpts := ck :: g.ckpts }
  s.finish m e (toLe 8 r.base ++ toLe 8 len)

/-- The region that CHECKPOINT names: of kind 4, of the image of its network. -/
def State.ckptRegion (s : State) (e : JEntry) : Option Region :=
  s.regions.find? fun r => r.kind == 4 && r.image == (s.net (cmdNet e.cmd)).image && r.num == leAt e.cmd 0x40 2

/-- CHECKPOINT: at once on a halted network, at the next cycle boundary of a running training network. -/
def execCheckpoint (mb : MboxId) (s : State) : Res :=
  .next <| s.runCmd mb.val 0x33 fun s e =>
    let m := mb.val
    s.needNet m e fun s => s.needNotShed m e fun s =>
      let n := s.net (cmdNet e.cmd)
      match s.ckptRegion e with
      | none => s.refuse m e codeState Why.noRegion
      | some r =>
        if n.running then
          if n.fwd = 0 then s.refuse m e codeState Why.netRunning
          else (s.park m e).modNet (cmdNet e.cmd) fun n => { n with waits := n.waits ++ [m] }
        else s.checkpointNow m e r

/-- What RESTORE reloads of a core: the list of R185, on a core otherwise as it stands (log 23). -/
def CoreSt.restored (k x : CoreSt) : CoreSt :=
  { k with
    syn := x.syn, nRows := x.nRows, rowW := x.rowW, colW := x.colW, neuW := x.neuW, acc := x.acc, delay := x.delay
    routeW := x.routeW, prog := x.prog, progEnt := x.progEnt, rules := x.rules, ruleTab := x.ruleTab
    traceSets := x.traceSets, modBank := x.modBank, touchedRow := x.touchedRow, rowCal := x.rowCal
    renormMask := x.renormMask, rng := x.rng, trainCfg := x.trainCfg, gradBase := x.gradBase, step := x.step
    queues := k.queues.map fun q => (q.1, if q.2.valid then { q.2 with closed := false } else q.2) }

/-- The network takes up a checkpoint. -/
def State.restoreNow (s : State) (k : Nat) (ck : Ckpt) : State :=
  let s := ck.cores.foldl (fun s x => s.modCore x.1 fun c => c.restored x.2) s
  -- every block of the pages is written whole where they cover it
  let whole (b : Nat) : Bool := (upTo 64).all fun i => ck.grads.any fun x => x.1 == 64 * b + i
  let s := s.modGddr fun g => { g with
    mem := ck.grads.foldl (fun t x => memSetByte t x.1 x.2) g.mem, poison := g.poison.filter fun x => !whole x.1 }
  s.modNet k fun n => { n with step := ck.step, pos := ck.pos, everRun := true }

/-- RESTORE: the checkpoint whose bytes stand at CKPT_ADDR, wherever CHECKPOINT wrote them (log 23). -/
def execRestore (mb : MboxId) (s : State) : Res :=
  .next <| s.runCmd mb.val 0x34 fun s e =>
    let m := mb.val
    let addr := leAt e.cmd 0x40 8
    let len := leAt e.cmd 0x48 8
    s.needNet m e fun s => s.needNotShed m e fun s =>
      let n := s.net (cmdNet e.cmd)
      if n.running then s.refuse m e codeState Why.netRunning
      else if s.gddr.top < addr + len then s.refuse m e codeState Why.badField
      else
        let s := s.gddrCount addr len .compute 0
        match s.gddr.ckpts.find? fun x => x.len == len && x.digest == s.imageDigest n
            && s.gPeek addr len == ckptBytes x.seed x.len with
        | none => s.refuse m e codeBadImage Why.digest
        | some ck => (s.restoreNow (cmdNet e.cmd) ck).finish m e

/-! ### Waits of a network at an opening -/

/-- The commands that wait for the opening of the next step: those that need a cycle boundary act only at one. -/
def State.serveWaits (s : State) (k : Nat) (boundary : Bool) : State :=
  let n := s.net k
  n.waits.foldl (fun s m =>
    match s.parked m with
    | none => s.modNet k fun n => { n with waits := n.waits.filter (· != m) }
    | some e =>
      let gone (s : State) : State := s.modNet k fun n => { n with waits := n.waits.filter (· != m) }
      match cmdOp e.cmd with
      | 0x31 =>
        let c := leAt e.cmd 0x40 2
        (gone s).modCore c fun x => { x with
          snapWait := m + 1, snapStep := n.step, snapTodo := (upTo (leAt e.cmd 0x44 2)).map (leAt e.cmd 0x42 2 + ·)
          snapGot := [], snapCols := none }
      | 0x32 => if boundary then (gone s).applyNow m e else s
      | 0x33 => if boundary then
          match s.ckptRegion e with
          | some r => (gone s).checkpointNow m e r
          | none => (gone s).refuse m e codeState Why.noRegion
        else s
      | _ => gone s) s

end Sys2Proof.Machine
end

