-- ==== Sys2Proof/Machine/StepEngine.lean ====
section
/-! DEFINITION. StepEngine.lean: the step master (05): cutoffs, the opening of steps, ticks, quiescence, the end of FIRE
and of a run; the commands FIRE_PHASE, EMIT_SEND and LEARN_ROW_RETIRE, which can end a phase. -/

namespace Sys2Proof.Machine

/-! ### What follows the progress of a core -/

/-- Commands that wait for rows of the core, or for its LEARN to retire, go on. -/
def State.settle (s : State) (c : Nat) : State := (s.hostApply c).serveSnap c

/-- Everything of the step has ended on core c: FIRE, LEARN and emission (05 R136). -/
def CoreSt.stepOver (k : CoreSt) : Bool :=
  (k.phase == 3 || k.phase == 0) && !k.learning && k.eq.isEmpty && k.fireWait.isEmpty && !k.halted && k.opens.isEmpty

/-- The run of network k ends: the current step closes on every core (20 R508), and a source that waited is in force. -/
def State.stopNet (s : State) (k : Nat) : State :=
  let s := (s.net k).cores.foldl (fun s c =>
    ((s.snapCore c).modCore c fun x => { x with phase := 0, fireReported := false }).serveSnap c) s
  s.modNet k fun n => { n with
    running := false, halting := 0, phase := 0, tickHeld := false, quiescent := false, held := false
    source := n.nextSource.getD n.source, nextSource := none, stretchFrom := 0, migrateFrom := 0 }

/-- A core of the network migrates. -/
def State.migrating (s : State) (k : Nat) : Bool :=
  (s.net k).cores.any fun c => (s.sector (sectorOf c)).mstate (indexOf c) == 1

/-- A waiting HALT_RUN completes once the step is over on every core, and no migration is in progress (18 R456). -/
def State.haltCheck (s : State) (k : Nat) : State :=
  let n := s.net k
  if n.halting = 0 || !n.running || s.migrating k || !n.cores.all (fun c => (s.core c).stepOver) then s
  else (s.stopNet k).wakeCmd n.halting fun s m e => s.finish m e [0]

/-- The same for the network of core c. -/
def State.haltCheckOf (s : State) (c : Nat) : State :=
  if (s.core c).net = 0 then s else s.haltCheck ((s.core c).net - 1)

/-! ### The cutoff (05 R125, R132; 20 R499, R500) -/

/-- A late drop: its own counter and STEP_LATE_DROP, with a DROP record. -/
def State.lateDrop (s : State) (c id : Nat) (ev : Word64) : State := (s.countCore c id).dropCore c Ctr.stepLateDrop ev.toNat

/-- Steps 2 to 4 of R125 at core c in step n: queue entries tagged n, delay slot n mod 64, and items of earlier FIREs. -/
def State.dropLate (s : State) (c : Nat) : State :=
  let k := s.core c
  let n := k.step
  let q := k.rq.filter fun e => e.tag == n % 4
  let d := Tab.get k.delay [] (n % 64)
  let old := k.eq.filter fun x => x.step < n
  let s := s.setCore c { k with
    rq := k.rq.filter fun e => e.tag != n % 4, delay := Tab.set k.delay [] (n % 64) [], eq := k.eq.filter fun x => !(x.step < n) }
  let s := q.foldl (fun s e => (s.lateDrop c Ctr.lateQueue e.ev).evDone e) s
  let s := d.foldl (fun s e => s.lateDrop c Ctr.lateDelay e.ev) s
  let s := old.foldl (fun s x =>
    ((upTo (k.destCount x)).drop x.sent).foldl (fun s i => s.lateDrop c Ctr.lateEmit (k.emitEvent c x i).ev) s) s
  if (q.isEmpty && d.isEmpty && old.isEmpty) || k.net = 0 then s else s.raiseNet (k.net - 1) 4

/-- A halted core skips FIRE n: the wake slot joins the touched set (20 R500). -/
def State.missFire (s : State) (c : Nat) : State :=
  let k := s.core c
  let slot := k.step % 64 * 16384
  let inSlot (a : Nat) : Bool := slot ≤ a && a < slot + 16384
  let woken := (Tab.keys k.wake).filter inSlot
  let s := s.setCore c { k with
    touched := woken.foldl (fun t a => Tab.set t false (a - slot) true) k.touched
    wake := Tab.restrict k.wake fun a => !inSlot a, fireOf := k.step }
  (s.countCore c Ctr.haltMissedStep).coreAdvance c

/-- The cutoff of step n at core c of a DEADLINE network. -/
def State.coreCutoff (s : State) (c : Nat) : State :=
  let s := (((s.dropLate c).learnCutoff c).copyDeliver c).settle c
  if (s.core c).halted then (s.missFire c).settle c
  else s.modCore c fun k => { k with phase := 2, fireOf := k.step, maxAbs := [] }

/-- A cutoff of core c is due (05 R125, R129): its time has come, or a later step has opened. -/
def State.cutoffDue (s : State) (c : Nat) : Bool :=
  let k := s.core c
  let n := s.netOf c
  s.sectorRuns (sectorOf c) && k.net != 0 && n.running && !n.lockstep && k.phase == 1 && ((!n.held && n.cN ≤ s.now) || !k.opens.isEmpty)

/-- STEP_CUTOFF. -/
def execStepCutoff (core : CoreId) (s : State) : Res :=
  .next <| if s.cutoffDue core.val then (s.coreCutoff core.val).haltCheckOf core.val else s

/-! ### Opening a step (05 R121, R129, R135; 07 R169, R183, R185) -/

/-- Step n + 1 opens at core c at time t: at once, or behind a FIRE that still runs. -/
def State.coreOpen (s : State) (c t : Nat) : State :=
  let k := s.core c
  if k.phase = 2 || k.phase = 1 then
    let s := if k.step = k.fireOf && k.phase = 2 then (s.snapCore c).modCore c fun k => { k with step := k.fireOf + 1 } else s
    s.modCore c fun k => { k with opens := k.opens ++ [t] }
  else
    let n := (s.netOf c).step
    ((s.snapCore c).modCore c fun k => { k with step := n, fireReported := false }).deliverBegin c n

/-- The training position after the next opening (07 R169). -/
def NetSt.nextPos (n : NetSt) : Nat := if n.fwd = 0 || n.cycleNew then 0 else (n.pos + 1) % (n.fwd + n.bwd)

/-- The opening would be a cycle boundary, where APPLY_UPDATES and CHECKPOINT act. -/
def NetSt.atBoundary (n : NetSt) : Bool := n.nextPos == 0

/-- Some command waits for a cycle boundary. -/
def State.boundaryWaits (s : State) (k : Nat) : Bool :=
  (s.net k).waits.any fun m => (s.parked m).any fun e => cmdOp e.cmd == 0x32 || cmdOp e.cmd == 0x33

/-- An APPLY_UPDATES that waits for the boundary of network k begins its all-reduce, if it makes one. -/
def State.reduceWaiting (s : State) (k : Nat) : State :=
  match (s.net k).waits.find? fun m => (s.parked m).any fun e => cmdOp e.cmd == 0x32 with
  | some m => if s.reduces k && (s.net k).reduce.isNone then (s.reduceStart k (m + 1)).reduceGo k else s
  | none => s

/-- Totals of the quiescence rule for tags no longer in use are cleared. -/
def State.clearTotals (s : State) (k tag : Nat) : State :=
  let s := (s.net k).cores.foldl (fun s c => s.modCore c fun x => { x with
    sent := Tab.set x.sent 0 tag 0, popped := Tab.set x.popped 0 tag 0, reported := Tab.set x.reported 0 tag 0 }) s
  let s := (s.ringsOf k).foldl (fun s f => s.modRfn f fun r => { r with sent := Tab.set r.sent 0 tag 0 }) s
  let s := s.modRfn fnUnpacker fun r => if s.homeNet = some k then { r with sent := Tab.set r.sent 0 tag 0 } else r
  let keep (t : Tab Int) : Tab Int := Tab.restrict t fun a => a / 4096 != tag
  let s := (upTo 16).foldl (fun s p =>
    let s := if (s.dp p).valid && (s.dp p).net == k then
      s.modDp p fun d => { d with sums := keep d.sums, winners := d.winners.filter fun w => w.1 != tag } else s
    let s := if (s.rp p).valid && (s.bind (s.rp p).binding).net == k then
      s.modRp p fun d => { d with sums := keep d.sums, errs := keep d.errs } else s
    if (s.comb p).valid && (s.comb p).net == k then s.modComb p fun d => { d with errs := keep d.errs } else s) s
  s.modNet k fun n => { n with
    sentRep := Tab.restrict n.sentRep fun a => a / 4096 != tag, ringSent := Tab.set n.ringSent 0 tag 0 }

/-- The sector that is step master of network k: that of its lowest core (R121). -/
def State.stepMaster (s : State) (k : Nat) : Nat := sectorOf ((s.net k).cores.foldl min 127)

/-- The totals of the open step reported so far, sent (with those of the ring port) and popped (R133). -/
def State.totals (s : State) (k : Nat) : Nat × Nat :=
  let n := s.net k
  let tag := n.step % 4
  let sent := (n.sentRep.filter fun e => e.1 / 4096 == tag).map fun e => e.2 - 1
  let pops := n.cores.map fun c => Tab.get (s.core c).reported 0 tag - 1
  (sent.sum + Tab.get n.ringSent 0 tag, pops.sum)

/-- The totals of a LOCKSTEP network in VALUE of objects 8,160 + 2k and 8,161 + 2k of its step master (10 R264). -/
def State.writeTotals (s : State) (k : Nat) : State :=
  if !(s.net k).lockstep then s
  else
    let t := s.totals k
    let a := 16 * (8160 + 2 * k)
    ((s.smemPoke (s.stepMaster k) a (toLe 4 t.1)).smemPoke (s.stepMaster k) (a + 16) (toLe 4 t.2))

/-- Step n + 1 of network k opens with T_{n+1} = t. -/
def State.openStep (s : State) (k t : Nat) : State :=
  let n := s.net k
  -- cutoffs of step n that are still to be taken
  let s := if n.lockstep then s else n.cores.foldl (fun s c =>
    if (s.core c).phase = 1 && s.sectorRuns (sectorOf c) then s.coreCutoff c else s) s
  -- the alignment pulse of the first step boundary after a stretch (09 R231)
  let s := if !s.ao.pwrWarn && ((upTo 8).any fun n => (s.sector n).powered && !(s.sector n).aligned)
      && (upTo 8).all (fun n => !(s.sector n).stopped) then s.alignPulse else s
  let s := s.serveWaits k n.atBoundary
  let s := s.modNet k fun n =>
    let src := n.nextSource.getD n.source
    let step := n.step + 1
    { n with source := src, nextSource := none, step := step, pos := n.nextPos, cycleNew := false, tickHeld := false
             quiescent := false, phase := 1, tN := t, dN := t + 10 * src.period, cN := t + 10 * src.period - 10 * n.margin }
  let step := (s.net k).step
  let s := (s.clearTotals k ((step + 2) % 4)).writeTotals k
  let s := (upTo 64).foldl (fun s b =>
    if (s.bind b).valid && (s.bind b).net == k && (s.net k).pos == 0 then s.modBind b fun x => { x with byPos := [] } else s) s
  -- a debug hold that waited for this opening (20 R501)
  let s := if !n.lockstep && n.holdEn && !(s.net k).held && n.cores.any (fun c => (s.core c).halted) then
      s.modNet k fun n => { n with held := true, holdStart := t, holdRest := n.cN - n.tN }
    else s
  let s := n.cores.foldl (fun s c => (s.coreOpen c t).pageOpen c step) s
  let s := s.streamsOpen k step
  s.tokenStep k

/-- The source whose tick opens the next step: one that was set meanwhile (05 R135). -/
def NetSt.tickSource (n : NetSt) : StepSource := n.nextSource.getD n.source

/-- A LOCKSTEP network opens its next step if nothing is in the way: its tick has come or its source has none, every core
has reported, no core migrates (18 R451), and no command that waits for the boundary waits for a LEARN. -/
def State.tryOpen (s : State) (k : Nat) : State :=
  let n := s.net k
  if !n.lockstep || !n.running || n.halting != 0 || !(n.phase == 3 || n.phase == 0) || !(s.boot.crStep == 0 || s.boot.crStep == 8)
      || !(n.tickHeld || n.tickSource.kind == 3) then s
  else if s.migrating k then
    if n.migrateFrom = 0 then s.modNet k fun n => { n with migrateFrom := s.now + 1 } else s
  else if n.atBoundary && s.boundaryWaits k && n.cores.any (fun c => (s.core c).learning) then s
  else
    -- a command that all-reduces holds the opening until its reduction has ended (07 R183, R184)
    let s := if n.atBoundary then s.reduceWaiting k else s
    if (s.net k).reduce.isSome then s else
    let s := if n.migrateFrom = 0 then s
      else ((s.countNet k Ctr.migrateStretch).countNet k Ctr.migrateStretchNs (s.now - (n.migrateFrom - 1))).modNet k
        fun n => { n with migrateFrom := 0 }
    let s := if n.tickHeld && n.heldAt < s.now then s.countNet k Ctr.stepStretchNs (s.now - n.heldAt) else s
    s.openStep k s.now

/-- A tick of the source of network k (05 R130, R134, R135, R136; 20 R501). DESIGN CHOICE (log 83): an early tick of a TIMER source, which
only a change of source can bring, is held until D_n and counted as R130 has it for an ENCODER source. -/
def State.tick (s : State) (k : Nat) : State :=
  let n := s.net k
  if !n.running || n.halting != 0 then s
  else if n.held then s.countNet k Ctr.debugHoldSteps
  else if n.tickHeld then (s.countNet k Ctr.stepTickMerged).raiseNet k 1
  else if n.lockstep then
    let s := (s.modNet k fun n => { n with tickHeld := true, heldAt := s.now }).tryOpen k
    if (s.net k).tickHeld then (s.countNet k Ctr.stepStretch).raiseNet k 2 else s
  else if n.phase != 0 && s.now < n.dN then
    (s.modNet k fun n => { n with tickHeld := true, heldAt := s.now }).countNet k Ctr.stepEarly
  else s.openStep k s.now

/-- HELD_TICK_RELEASE: a held early tick opens step n + 1 at D_n. -/
def execHeldTickRelease (net : NetId) (s : State) : Res :=
  .next <|
    let k := net.val
    let n := s.net k
    if !n.running || n.lockstep || !n.tickHeld || n.held || n.halting != 0 || s.now < n.dN then s else s.openStep k n.dN

/-! ### Quiescence (05 R132, R133) -/

/-- Core c holds no item of step t - 1. -/
def CoreSt.emitterClosed (k : CoreSt) (t : Nat) : Bool := k.fireWait.isEmpty && k.eq.all fun x => t ≤ x.step

/-- Core c is idle for step t. -/
def CoreSt.idleFor (k : CoreSt) (t : Nat) : Bool :=
  k.rq.all (fun e => e.tag != t % 4) && (Tab.get k.delay [] (t % 64)).isEmpty && k.lookup.isNone && k.fetch.isNone && k.seeds.isEmpty

/-- Ring function fn has closed the open step of its network: ingest functions and token functions by their input; the
others inject nothing. -/
def State.ringClosed (s : State) (fn : Nat) : Bool :=
  if fn < 64 then s.ingestClosed fn else if 0x100 ≤ fn && (fn < 0x140 || fn = fnUnpacker) then s.tokenClosed fn else true

/-- Emitters among the ring functions of network k, the unpacker of its bindings included. -/
def State.ringEmitters (s : State) (k : Nat) : List Nat :=
  s.ringsOf k ++ (if s.homeNet = some k then [fnUnpacker] else [])

/-- QUIESCENCE_REPORT: core `unit`, or ring function `unit`, of a LOCKSTEP network reports what it has closed. -/
def execQuiescenceReport (net : NetId) (ring : Bool) (unit : Nat) (s : State) : Res :=
  .next <|
    let k := net.val
    let n := s.net k
    let t := n.step
    let tag := t % 4
    if !n.lockstep || !n.running || n.phase != 1 then s
    else if ring then
      if !(s.ringEmitters k).contains unit || !s.ringClosed unit then s
      else (s.modNet k fun n =>
        { n with sentRep := Tab.set n.sentRep 0 (tag * 4096 + 128 + unit) (Tab.get (s.rfn unit).sent 0 tag + 1) }).writeTotals k
    else if !n.cores.contains unit then s
    else
      let c := s.core unit
      let s := if c.emitterClosed t then
          s.modNet k fun n => { n with sentRep := Tab.set n.sentRep 0 (tag * 4096 + unit) (Tab.get c.sent 0 tag + 1) }
        else s
      let s := if c.idleFor t then
          s.modCore unit fun x => { x with reported := Tab.set x.reported 0 tag (Tab.get x.popped 0 tag + 1) }
        else s
      s.writeTotals k

/-- Every emitter has closed, every core is idle, and the totals are equal. -/
def State.quiescentNow (s : State) (k : Nat) : Bool :=
  let n := s.net k
  let tag := n.step % 4
  let t := s.totals k
  n.cores.all (fun c => Tab.get n.sentRep 0 (tag * 4096 + c) != 0) && n.cores.all (fun c => Tab.get (s.core c).reported 0 tag != 0)
    && (s.ringEmitters k).all (fun f => Tab.get n.sentRep 0 (tag * 4096 + 128 + f) != 0) && t.1 == t.2

/-- STEP_QUIESCENT: C_n of a LOCKSTEP step; every core takes its cutoff, and nothing is dropped. FIRE of a halted core
waits for its resume (20 R499). -/
def execStepQuiescent (net : NetId) (s : State) : Res :=
  .next <|
    let k := net.val
    let n := s.net k
    if !n.lockstep || !n.running || n.phase != 1 || !s.quiescentNow k then s
    else
      let s := s.modNet k fun n => { n with
        phase := 2, cN := s.now, quiescent := true
        stretchFrom := if n.cores.any (fun c => (s.core c).halted) then s.now + 1 else 0 }
      n.cores.foldl (fun s c => ((s.copyDeliver c).serveSnap c).modCore c fun x =>
        { x with phase := 2, fireOf := x.step, fireHeld := x.halted, maxAbs := [] }) s

/-- FIRE_END_REPORT: a core of a LOCKSTEP network reports the end of its FIRE; the last report, with the tick, opens the
next step. -/
def execFireEndReport (core : CoreId) (s : State) : Res :=
  .next <|
    let c := core.val
    let k := s.core c
    let n := s.netOf c
    if k.net = 0 || !n.running || !n.lockstep || n.phase != 2 || k.phase != 3 || k.halted then s
    else
      let s := s.modCore c fun k => { k with fireReported := true }
      if n.cores.all fun o => (s.core o).fireReported && (s.core o).phase == 3 then
        ((s.modNet (k.net - 1) fun n => { n with phase := 3 }).haltCheck (k.net - 1)).tryOpen (k.net - 1)
      else s

/-! ### FIRE, emission and LEARN of a core -/

/-- FIRE_PHASE: FIRE begins once in-flight events have completed and LEARN of the step before has retired (05 R122,
R123); it ends when every item has entered the emit queue. -/
def execFirePhase (core : CoreId) (s : State) : Res :=
  .next <|
    let c := core.val
    if !s.canFire c then s
    else
      let s := if (s.netOf c).backward then s.fireBackward c (s.core c).fireOf else s.fireForward c (s.core c).fireOf
      if (s.core c).fireWait.isEmpty then ((s.fireEnd c).settle c).haltCheckOf c else s

/-- EMIT_SEND: the emit stage sends one event; items that wait for room follow, and FIRE ends with the last of them. -/
def execEmitSend (core : CoreId) (s : State) : Res :=
  .next <|
    let c := core.val
    if !s.sectorRuns (sectorOf c) || (s.sector (sectorOf c)).mstate (indexOf c) != 0 then s
    else
      let waiting := !(s.core c).fireWait.isEmpty
      let s := if waiting then s.countCore c Ctr.fireEmitStall else s
      let s := (s.emitHead c).modCore c CoreSt.admitIssues
      let s := s.level c Ctr.eqHwm (s.core c).eq.length
      let s := if waiting && (s.core c).fireWait.isEmpty && (s.core c).phase == 2 then (s.fireEnd c).settle c else s
      let s := s.haltCheckOf c
      if (s.core c).net = 0 then s else s.tryOpen ((s.core c).net - 1)

/-- LEARN_ROW_RETIRE: the weight phase takes its next row and commits it (06 R153, R155; 07 R181). -/
def execLearnRowRetire (core : CoreId) (s : State) : Res :=
  .next <|
    let c := core.val
    let k := s.core c
    match k.nextLearnRow with
    | none => s
    | some i =>
      if !k.learning || !s.sectorRuns (sectorOf c) || (s.sector (sectorOf c)).mstate (indexOf c) != 0 then s
      else
        let s := (((s.retireCopied c i).learnCheck c).settle c).haltCheckOf c
        if k.net = 0 then s else s.tryOpen (k.net - 1)

/-- BULK: the data go to the GDDR6 address in the first 8 bytes of the target (log 32); data of a replica group's flow are also the next
part of its all-reduce (07 R184). -/
def execBulk (flow : FlowId) (s : State) : Res :=
  .next <|
    let f := flow.val
    s.deliverMsg f 4 fun s m =>
      let a := leAt m.body 0 8
      let data := m.body.drop 16
      let s := if a + data.length ≤ s.gddr.top then s.gWrite a data .fabric else s
      let s := ((s.markDelivered f m.mseq).consumeMsg f m.mseq).takeChunk f data
      (upTo 16).foldl (fun s k => if (s.net k).reduce.isNone then s else (s.reduceGo k).tryOpen k) s

end Sys2Proof.Machine
end

