-- ==== Sys2Proof/Machine/Image.lean ====
section
/-! DEFINITION. Image.lean: loading, unloading and reloading images (14 R355 to R359, 12 R310, R311, 17 R443). -/

namespace Sys2Proof.Machine

/-! ### What an image gives each unit -/

/-- Slot of network index i: the i-th lowest assigned (R356). -/
def Image.slotOf (g : Image) (slots : List Nat) (i : Nat) : Nat := slots.getD (g.nets.findIdx fun n => n.idx == i) 0

/-- Base of declared region `num` of image h. -/
def State.regionBase (s : State) (h num : Nat) : Nat :=
  ((s.regions.find? fun r => r.image == h && r.num == num && r.kind != 0).map Region.base).getD 0

/-- The parts of a core that no load image fills: debug, tracing and interrupt registers. -/
def CoreSt.bare (k : CoreSt) : CoreSt :=
  { bkpts := k.bkpts, pmcs := k.pmcs, traceCfg := k.traceCfg, layer := k.layer, oper := k.oper, intEn := k.intEn
    intStatus := k.intStatus, seqHalted := k.seqHalted }

/-- Core c filled from image h, which is g; its gradient pages are zeroed (07 R182). -/
def State.installCore (s : State) (g : Image) (h : Nat) (slots : List Nat) (c : Nat) : State :=
  let net := (g.netOf c).map fun n => g.slotOf slots n.idx + 1
  let reg := g.cfg c 0x2C 4
  let base := s.regionBase h reg + g.cfg c 0x30 8
  let k := { g.buildCore c (s.core c).bare with
    net := net.getD 0, image := h, gradBase := if reg = none32 then 0 else BitVec.ofNat 32 (base / 64) }
  let s := s.setCore c k
  if reg = none32 then s
  else s.modGddr fun m => { m with
    mem := m.mem.filter fun x => x.1 < base || base + 4 * k.wordsUsed ≤ x.1
    poison := m.poison.filter fun x => 64 * x.1 < base || base + 4 * k.wordsUsed < 64 * x.1 + 64 }

/-- A network slot filled: halted, without a source, at step 0 (R356). -/
def Image.netSt (g : Image) (h : Nat) (digest : List Byte) (n : ImgNet) : NetSt :=
  { image := h, index := n.idx, lockstep := n.at 0x00 1 == 1, cores := n.cores, margin := n.at 0x04 4
    refreshQ := n.at 0x02 2, fwd := n.at 0x08 2, bwd := n.at 0x0A 2, isEnsign := (g.sec? 0x10 n.idx).isSome
    logRegion := if n.at 0x20 4 = none32 then 0 else n.at 0x20 4 + 1, measure := digest }

/-- A SECTOR record takes effect in its sector. -/
def Image.sectorRec (g : Image) (slots : List Nat) (s : State) (r : Rec) : State :=
  match r.kind with
  | 0x0101 => s.modSector r.target fun q => { q with
      schedTab := Tab.set q.schedTab 0 r.num (BitVec.ofNat 32 (r.at 0x10 4 &&& 0xFFFFFE00)) }
  | 0x0102 =>
    let w (o mask : Nat) : List Byte := toLe 4 (r.at o 4 &&& mask)
    s.smemPoke r.target (16 * r.num) (w 0x10 0xFFFFFFFF ++ w 0x14 0xFFFFFFFF ++ w 0x18 0xE000FFFF ++ w 0x1C 0xFFFE0000)
  | 0x0103 => s.modSector r.target fun q => { q with
      grants := q.grants ++ [(g.slotOf slots r.num, r.at 0x10 4, r.at 0x14 4, r.at 0x18 2, r.at 0x1A 2)] }
  | _ => s

/-- A PAGE_SET record. -/
def State.pageSetOf (s : State) (h : Nat) (r : Rec) : PageSet :=
  { num := r.num / 128, core := r.num % 128, image := h, home := s.regionBase h (r.at 0x10 4) + r.at 0x30 8
    bufs := r.at 0x14 1, writeBack := nbit (r.at 0x15 1) 0, binding := r.at 0x16 1, buf0 := r.at 0x18 4, buf1 := r.at 0x1C 4
    words := r.at 0x20 4, pages := r.at 0x24 4, period := r.at 0x28 4
    sched := ((numbers 8 (r.b.drop 0x38)).take (r.at 0x2C 4)).map fun e => (nfld e 31 0, nfld e 47 32) }

/-- A REGIONS record that is no REGION. -/
def Image.regionRec (g : Image) (h : Nat) (slots : List Nat) (s : State) (r : Rec) : State :=
  match r.kind with
  | 0x0202 => { s with pageSets := s.pageSets ++ [s.pageSetOf h r] }
  | 0x0203 =>
    let k := g.slotOf slots r.num
    { s with groups :=
        Tab.ins (Tab.erase s.groups k) k (r.at 0x12 2, (numbers 4 (r.b.drop 0x18)).take (r.at 0x10 2 - 1)) }
  | _ => s

/-- An outlier list by number, empty for none. -/
def Image.outl (g : Image) (num : Nat) : List Nat := if num = none32 then [] else g.outliers num
/-- An element map by number, empty for none. -/
def Image.mapOf (g : Image) (num : Nat) : ElemMap := if num = none32 then {} else g.elemMap num

/-- EMIT_SCALE of the columns routed to ring function fn (08 R194); 1.0 where none is. -/
def Cand.scaleTo (g : Cand) (fn : Nat) : Word32 :=
  ((g.columnsTo fn).head?.map fun x => (g.core x.1).colF x.2.1 1).getD 0x3F800000

/-- A dispatch packer as its record and its columns give it. -/
def Cand.dispatchOf (g : Cand) (h : Nat) (net : Nat → Nat) (r : Rec) : PackSt :=
  let i := g.img
  let router := (g.columnsTo (0x101 + 2 * r.num)).head?
  { valid := true, image := h, net := net (0x100 + 2 * r.num), n := r.at 0x10 2, k := r.at 0x12 1, zpm := r.at 0x13 1
    outl := i.outl (r.at 0x14 4), positions := r.at 0x18 2, errMap := i.mapOf (r.at 0x1C 4)
    dir := (i.ofKind 0x0302).foldl (fun t x => if x.num / 1024 = r.num then
        Tab.ins t (x.num % 1024) (x.at 0x10 2, (numbers 4 (x.b.drop 0x18)).take (x.at 0x12 1)) else t) []
    scale := g.scaleTo (0x100 + 2 * r.num), rScale := g.scaleTo (0x101 + 2 * r.num)
    rZp := (router.map fun x => (g.core x.1).cEmitZp x.2.1).getD 0
    rCore := (router.map Prod.fst).getD 0, rCol := (router.map fun x => x.2.1 - x.2.2).getD 0 }

/-- A binding as its record gives it; a paged one starts paged out (08 R217). -/
def Image.bindingOf (g : Image) (h : Nat) (slots : List Nat) (r : Rec) : BindSt :=
  { valid := true, state := if r.at 0x26 2 = 0xFFFF then 0 else 2, expert := r.at 0x10 2, cap := r.at 0x15 1, image := h
    n := r.at 0x12 2, net := g.slotOf slots (r.at 0x14 1), ld := r.at 0x16 1, zpm := r.at 0x17 1, tc := r.at 0x18 4
    elemMap := g.mapOf (r.at 0x1C 4), errMap := g.mapOf (r.at 0x20 4), ret := r.at 0x24 1, pageSet := r.at 0x26 2
    flows := (numbers 4 (r.b.drop 0x30)).take (r.at 0x28 2) }

/-- A TOKENS record takes effect. -/
def Cand.tokenUnit (g : Cand) (h : Nat) (slots : List Nat) (s : State) (r : Rec) : State :=
  let i := g.img
  let net (fn : Nat) : Nat := i.slotOf slots ((i.bound fn).getD 0)
  match r.kind with
  | 0x0301 => s.modDp r.num fun _ => g.dispatchOf h net r
  | 0x0303 => s.modBind r.num fun _ => i.bindingOf h slots r
  | 0x0304 => s.modRp r.num fun _ =>
      { valid := true, image := h, net := net (0x120 + r.num), n := r.at 0x12 2, zpm := r.at 0x11 1
        outl := i.outl (r.at 0x14 4), binding := r.at 0x10 1, scale := g.scaleTo (0x120 + r.num) }
  | 0x0305 => s.modComb r.num fun _ =>
      { valid := true, image := h, net := net (0x130 + r.num), packer := r.at 0x10 1, renorm := r.at 0x11 1 == 1
        lr := r.at 0x12 1, elemMap := i.mapOf (r.at 0x14 4) }
  | 0x0306 => s.modFlow r.num fun f => { f with cacheSize := r.at 0x10 2 }
  | _ => s

/-- A BIND record binds its ring function, with the INGEST or FLOW_SENDER record beside it. -/
def Image.ringFn (g : Image) (h : Nat) (slots : List Nat) (s : State) (r : Rec) : State :=
  if r.kind ≠ 0x0401 then s
  else
    let x : RingFn := { net := g.slotOf slots (r.at 0x10 1) + 1, image := h }
    s.modRfn r.num fun _ => match g.rec? 0x0402 r.num, g.rec? 0x0403 (r.num - 0x170) with
      | some y, _ => { x with fkind := y.at 0x10 1, fmt := y.at 0x11 1, delta := y.at 0x12 1 == 1, nelem := y.at 0x14 4
                              map := g.mapOf (y.at 0x18 4) }
      | none, some y => if r.num < 0x170 then x else
          { x with map := g.mapOf (y.at 0x14 4), flow := y.at 0x10 4, outl := g.outl (y.at 0x18 4) }
      | none, none => x

/-- Everything of image h but its regions and slots is put in place. -/
def State.install (s : State) (g : Cand) (h : Nat) (slots : List Nat) : State :=
  let i := g.img
  let s := (Tab.keys g.cores).foldl (fun s c => s.installCore i h slots c) s
  let s := i.recs.foldl (i.sectorRec slots) s
  let s := i.recs.foldl (i.regionRec h slots) s
  let s := i.recs.foldl (i.ringFn h slots) s
  i.recs.foldl (g.tokenUnit h slots) s

/-! ### LOAD_IMAGE (R355 to R358) -/

/-- INLINE of a refusal. -/
def Fail.inline (f : Fail) : List Byte := toLe 2 f.core ++ toLe 2 f.sect ++ toLe 8 f.ofs ++ toLe 1 (b2n f.hard)

/-- A refusal of the image. -/
def State.refuseImage (s : State) (m : Nat) (e : JEntry) (f : Fail) : State := s.refuse m e f.code f.reason f.inline

/-- Step 3: every feature bit was granted to the mailbox, with the bits that a network that trains (3) or a token
function (4) needs (13 R340). -/
def State.featureChk (s : State) (m : Nat) (g : Cand) : Chk :=
  let need := g.img.features.toNat ||| (if g.nets.any fun n => n.at 0x08 2 != 0 || g.trains n then 8 else 0)
    ||| (if g.img.recs.any fun r => r.kind / 256 == 3 then 16 else 0)
  chk (nclear need (s.mb m).granted.toNat == 0) { code := codeVersion, reason := 0x0009, ofs := 0x18 }

/-- DONE of a load. -/
def State.loaded (s : State) (m : Nat) (e : JEntry) (h bitmap : Nat) (digest : List Byte) : State :=
  s.finish m e (toLe 2 h ++ toLe 2 bitmap ++ digest.take 20)

/-- The next handle that no image has (log 12). -/
def State.freeHandle (s : State) : Nat :=
  ((upTo 65535).map fun i => (s.nextHandle - 1 + i) % 65535 + 1).find? (fun h => !(Tab.keys s.images).contains h) |>.getD 0

/-- A handle given to an image. -/
def State.keepImage (s : State) (h : Nat) (r : ImageRec) : State :=
  { s with images := Tab.ins (Tab.erase s.images h) h r, nextHandle := h % 65535 + 1 }

/-- A route-table entry holds codes of R276: ports 0 to 11, message channels VC0 and VC1. -/
def routeOk (e : Nat) : Bool := nfld e 14 11 < 12 && nfld e 10 9 < 2 && nfld e 7 4 < 12 && nfld e 3 2 < 2

/-- The value checks of a fabric image (R356 step 4): DEVICE_ID 0xFFFF is never assigned, and no entry holds a reserved code
(11 R276; log 86). -/
def Image.fabricChk (g : Image) : Chk :=
  let b := g.body 0x20 0xFFFF
  (chk (leAt b 0 2 != 0xFFFF) (g.cand.bad 0xFFFF 0x20 0)).or
    (((numbers 2 (b.drop 8)).findIdx? fun e => !routeOk e).map fun i => g.cand.bad 0xFFFF 0x20 (8 + 2 * i))

/-- A fabric image takes effect (R358): reserved bits of a route entry read as zero (00 R8). -/
def State.loadFabric (s : State) (m : Nat) (e : JEntry) (g : Image) (digest : List Byte) : State :=
  let b := g.body 0x20 0xFFFF
  let id := leAt b 0 2
  if id ≠ s.deviceId && (s.flows.any fun f => f.2.fstate != 0) then s.refuse m e codeState Why.flowsOpen
  else
    let h := s.freeHandle
    let s := { s with deviceId := id, routes := halfTab 0 ((numbers 2 (b.drop 8)).map fun e => e / 4 * 4) }
    let s := s.modSec fun q => { q with fabricMeasure := digest }
    (s.reroute.keepImage h { kind := 1, bytes := g.bytes, digest := digest }).loaded m e h 0 digest

/-- The ranges that placement avoids: the preserved range, and the image's own source (R357). -/
def loadAvoid (c : List Byte) : List (Nat × Nat) :=
  [(leAt c 0x58 8, leAt c 0x60 8)] ++ if leAt c 0x40 1 = 1 then [(leAt c 0x48 8, leAt c 0x50 8)] else []

/-- An admitted compute image takes its slots, its regions and its cores. -/
def State.loadCompute (s : State) (m : Nat) (e : JEntry) (g : Cand) (digest : List Byte) (bases : List Nat) : State :=
  let i := g.img
  let h := s.freeHandle
  let slots := s.freeSlots.take g.nets.length
  let copy : Region := { image := h, base := bases.headD 0, size := round64K i.bytes.length }
  let regions := (i.wanted.zip bases.tail).map fun x =>
    { kind := x.1.2.at 0x10 1, net := if x.1.2.at 0x11 1 = 0xFF then 0xFF else i.slotOf slots (x.1.2.at 0x11 1), image := h
      num := x.1.2.num, base := x.2, size := x.1.1 : Region }
  let s := { s with regions := s.regions ++ copy :: regions }
  let s := s.gWrite copy.base i.bytes .system
  let s := s.keepImage h { bytes := i.bytes, digest := digest, slots := slots }
  let s := (g.nets.zip slots).foldl (fun s x => s.setNet x.2 (i.netSt h digest x.1)) s
  (s.install g h slots).retune.loaded m e h (slots.foldl (fun b k => nsetBit b k) 0) digest

/-- The bytes of an image, or none where its source cannot be read: a range outside the image area, or poison. -/
def State.imageSource (s : State) (c : List Byte) (hostData : List Byte) : State × Option (List Byte) :=
  let len := leAt c 0x50 8
  let a := leAt c 0x48 8
  if leAt c 0x40 1 = 0 then (s.countDev Ctr.pcieRxBytes noSub len, some (fitBytes len hostData))
  else ((s.gCheck a len).gddrCount a len .system 0, if s.gPoisoned a len then none else some (s.gPeek a len))

/-- LOAD_IMAGE: `hostData` is what SRC_ADDR in host memory holds (SRC_KIND 0). -/
def execLoadImage (mb : MboxId) (hostData : List Byte) (s : State) : Res :=
  .next <| s.runCmd mb.val 0x10 fun s e =>
    let m := mb.val
    let c := e.cmd
    let len := leAt c 0x50 8
    if leAt c 0x40 1 = 1 && (leAt c 0x48 8 < s.gddr.imageBase || s.gddr.top < leAt c 0x48 8 + len) then
      s.refuse m e codeState Why.badField
    else match s.imageSource c hostData with
    | (s, none) => s.complete m e codeFault 0 []
    | (s, some b) =>
      let digest := sha512 b
      if nbit (leAt c 0x41 1) 0 && digest != (c.drop 0x70).take 64 then
        s.refuseImage m e { code := codeBadImage, reason := Why.digest }
      else match parseImage b len with
      | .error f => s.refuseImage m e f
      | .ok g =>
        let k := g.cand
        match s.featureChk m k with
        | some f => s.refuseImage m e f
        | none =>
          if g.kind = 1 then
            match g.fabricChk with
            | some f => s.refuseImage m e f
            | none => s.loadFabric m e g digest
          else match ((k.validity).or (s.expertChk k)).or (s.fitChk k (loadAvoid c)) with
          | some f => s.refuseImage m e f
          | none => s.loadCompute m e k digest ((s.placeImage g (loadAvoid c)).getD [])

/-! ### UNLOAD_IMAGE (R359) -/

/-- The image that handle h names, parsed again. -/
def State.imageOf (s : State) (h : Nat) : Option Image :=
  let b := (Tab.get s.images {} h).bytes
  match parseImage b b.length with
  | .ok g => some g
  | .error _ => none

/-- The flows that the CACHE records of image h name have a code cache of 0 entries again (08 R215). -/
def State.dropCacheSizes (s : State) (h : Nat) : State :=
  ((s.imageOf h).elim [] Image.recs).foldl (fun s r =>
    if r.kind = 0x0306 then s.modFlow r.num fun f => { f with cacheSize := 0 } else s) s

/-- Everything that image h holds is freed: queues close, streams are unbound, cores, slots, regions, token units, ring
functions, scheduled streams and grants are free. GDDR6 contents stay (R311). -/
def State.freeImage (s : State) (h : Nat) : State :=
  let cs := (Tab.keys s.cores).filter fun c => (s.core c).image == h
  let slots := (Tab.get s.images {} h).slots
  let s := s.dropCacheSizes h
  let s := cs.foldl (fun s c => s.resetDesc c) s
  let s := (upTo 32).foldl (fun s n => if (s.stc n).bound && slots.contains (s.stc n).net then s.unbindStc n else s) s
  let s := (upTo 32).foldl (fun s n => s.modStc n fun c => { c with
    farewell := c.farewell.filter fun x => !slots.contains x.1 }) s
  let s := if s.fault.ensSet && slots.contains s.fault.ensNet then
    s.modFault fun f => { f with ensSet := false, ensNet := 0, ensEnabled := 0 } else s
  let s := cs.foldl (fun s c => s.modCore c fun k => k.bare) s
  let s := slots.foldl (fun s k => s.setNet k {}) s
  let s := (upTo 8).foldl (fun s n => s.modSector n fun q => { q with
    grants := q.grants.filter fun x => !slots.contains x.1
    schedTab := q.schedTab.filter fun x => !cs.contains (fld x.2 26 17) }) s
  State.retune { s with
    regions := s.regions.filter fun r => r.image != h
    pageSets := s.pageSets.filter fun p => p.image != h
    groups := s.groups.filter fun x => !slots.contains x.1
    binds := s.binds.filter fun x => x.2.image != h
    dpack := s.dpack.filter fun x => x.2.image != h
    rpack := s.rpack.filter fun x => x.2.image != h
    combs := s.combs.filter fun x => x.2.image != h
    rfns := s.rfns.filter fun x => x.2.image != h
    expand := s.expand.filter fun x => !slots.contains x.net
    tok := if s.binds.any fun x => x.2.image == h then {} else s.tok
    images := Tab.erase s.images h }

/-- UNLOAD_IMAGE. -/
def execUnloadImage (mb : MboxId) (s : State) : Res :=
  .next <| s.runCmd mb.val 0x11 fun s e =>
    let m := mb.val
    let h := leAt e.cmd 0x40 2
    let slots := (Tab.get s.images {} h).slots
    if !(Tab.keys s.images).contains h then s.refuse m e codeState Why.badField
    else if slots.any fun k => (s.net k).running then s.refuse m e codeState Why.netRunning
    else if s.flows.any fun f => f.2.fstate != 0 && slots.contains f.2.net then s.refuse m e codeState Why.flowsOpen
    else (s.freeImage h).finish m e

/-! ### Reload (17 R443, R444) -/

/-- The image copy in GDDR6 stands as it was loaded. -/
def State.copyGood (s : State) (h : Nat) : Bool :=
  let r := Tab.get s.images {} h
  match s.regions.find? fun x => x.image == h && x.kind == 0 with
  | none => false
  | some x => !s.gPoisoned x.base r.bytes.length && sha512 (s.gPeek x.base r.bytes.length) == r.digest

/-- A slot as a reload leaves it: halted, its source, designation and step number kept; the next RUN is a first one. -/
def NetSt.reloaded (n : NetSt) (fresh : NetSt) : NetSt :=
  { fresh with source := n.nextSource.getD n.source, step := n.step, events := n.events, shed := n.shed, holdEn := n.holdEn
               stepHi := n.stepHi, blocked := n.blocked }

/-- Image h is loaded again from its copy, under its handle and slots. -/
def State.reload (s : State) (h : Nat) : State :=
  let r := Tab.get s.images {} h
  match s.imageOf h with
  | none => s
  | some g =>
    let s := (g.nets.zip r.slots).foldl (fun s x => s.modNet x.2 fun n => n.reloaded (g.netSt h r.digest x.1)) s
    let s := { s with pageSets := s.pageSets.filter (fun p => p.image != h) }
    let s := (upTo 8).foldl (fun s n => s.modSector n fun q => { q with grants := q.grants.filter fun x => !r.slots.contains x.1 }) s
    let i := g
    let k := g.cand
    let s := (Tab.keys k.cores).foldl (fun s c => s.installCore i h r.slots c) s
    let s := i.recs.foldl (i.sectorRec r.slots) s
    i.recs.foldl (i.regionRec h r.slots) s

/-- The cores of image h that satisfy p are loaded again (R444). -/
def State.reloadCores (s : State) (h : Nat) (p : Nat → Bool) : State :=
  match s.imageOf h with
  | none => s
  | some g => (g.coreNums.filter p).foldl (fun s c => s.installCore g h (Tab.get s.images {} h).slots c) s

end Sys2Proof.Machine
end

