-- ==== Sys2Proof/Machine/Timer.lean ====
section
/-! DEFINITION. Timer.lean: the timer channels (15 R392 to R400) and the line outputs (R401 to R403). A command that
makes a channel advance also does what follows from it in that kernel cycle and the next: matches, wraps, pairs, captures
and follow actions (log 40). -/

namespace Sys2Proof.Machine

/-! ### Fields of TMR_CTRL and TMR_SNAPCFG (R399) -/

/-- SINGLE -/
def TimerSt.single (t : TimerSt) : Bool := nbit t.ctrl.toNat 30
/-- PAIR_HI -/
def TimerSt.pairBit (t : TimerSt) : Bool := nbit t.ctrl.toNat 29
/-- TICK_SEL -/
def TimerSt.tickSel (t : TimerSt) : Nat := fld t.ctrl 28 27
/-- FOLLOW -/
def TimerSt.follow (t : TimerSt) : Nat := fld t.ctrl 26 24
/-- LEADER -/
def TimerSt.leader (t : TimerSt) : Nat := fld t.ctrl 23 20
/-- LEAD_ON -/
def TimerSt.leadOn (t : TimerSt) : Nat := fld t.ctrl 19 18
/-- PIN_GATE -/
def TimerSt.pinGate (t : TimerSt) : Nat := fld t.ctrl 17 16
/-- PIN -/
def TimerSt.pin (t : TimerSt) : Nat := fld t.ctrl 15 13
/-- DEBOUNCE -/
def TimerSt.debounce (t : TimerSt) : Nat := fld t.ctrl 12 9
/-- PIN_EN -/
def TimerSt.pinEn (t : TimerSt) : Bool := nbit t.ctrl.toNat 8
/-- SNAPx_MODE -/
def TimerSt.mode (t : TimerSt) (x : Bool) : Nat := if x then fld t.snapcfg 31 29 else fld t.snapcfg 15 13
/-- SNAPx_ACT -/
def TimerSt.act (t : TimerSt) (x : Bool) : Nat := if x then fld t.snapcfg 28 27 else fld t.snapcfg 12 11
/-- SNAPx_EVERY -/
def TimerSt.every (t : TimerSt) (x : Bool) : Nat := if x then fld t.snapcfg 23 16 else fld t.snapcfg 7 0
/-- TMR_SNAPx -/
def TimerSt.snap (t : TimerSt) (x : Bool) : Nat := if x then t.snap1 else t.snap0
/-- FRESHx -/
def TimerSt.fresh (t : TimerSt) (x : Bool) : Bool := nbit t.status (1 + b2n x)
/-- A capture mode -/
def isCapture (mode : Nat) : Bool := 2 ≤ mode && mode ≤ 5

/-- The channel that c follows; one that names itself follows no one (R397). -/
def TimerSt.leaderOf (t : TimerSt) (c : Nat) : Option Nat := if t.leader = c then none else some t.leader

/-- Channel c advances on the wraps of the even channel below it (R398). -/
def TimerSt.paired (t : TimerSt) (c : Nat) : Bool := c % 2 == 1 && t.pairBit

/-- The debounced level of the channel's pin. -/
def State.tmrPin (s : State) (c : Nat) : Bool := (s.tmr c).level

/-- Every count condition of channel c holds (R393, R397): COUNT_ON, the leader's OUT_STATE, the pin gate. -/
def State.tmrCounts (s : State) (c : Nat) : Bool :=
  let t := s.tmr c
  let gate := match t.pinGate with
    | 1 => s.tmrPin c
    | 2 => !s.tmrPin c
    | _ => true
  let lead := match t.leaderOf c with
    | none => true
    | some l => if t.follow = 4 then (s.tmr l).out else if t.follow = 5 then !(s.tmr l).out else true
  t.on && gate && lead

/-- The channel is locked: a valid slot names it with a TIMER or ENCODER source (R399). -/
def State.tmrLocked (s : State) (c : Nat) : Bool :=
  (upTo 16).any fun k => let n := s.net k; n.image != 0 && (n.source.kind == 1 || n.source.kind == 2) && n.source.ch == c

/-- The level of TOUTp (R396). -/
def State.tout (s : State) (p : Nat) : Bool :=
  let t := s.tmr (nfld s.ao.toutMap.toNat (4 * p + 3) (4 * p))
  t.pinEn && t.out

/-! ### Counting -/

/-- A match is due in compare mode. -/
def TimerSt.due (t : TimerSt) (x : Bool) : Bool := if x then t.due1 else t.due0

/-- The count becomes v: a unit in compare mode whose TMR_SNAPx it comes to equal has a match to take (R396). -/
def TimerSt.setCount (t : TimerSt) (v : Nat) : TimerSt :=
  { t with count := v, due0 := t.mode false == 1 && v == t.snap0, due1 := t.mode true == 1 && v == t.snap1 }

/-- The match of unit x taken: FRESHx, and SNAPx_ACT on OUT_STATE (R396). -/
def TimerSt.takeMatch (t : TimerSt) (x : Bool) : TimerSt :=
  let t := { t with
    status := nsetBit t.status (1 + b2n x)
    out := match t.act x with
      | 1 => true
      | 2 => false
      | 3 => !t.out
      | _ => t.out }
  if x then { t with due1 := false } else { t with due0 := false }

/-- Unit x captures the count v: an unread capture is replaced with OVERCAPTUREx (R395). -/
def TimerSt.capture (t : TimerSt) (x : Bool) (v : Nat) : TimerSt :=
  let st := if t.fresh x then nsetBit t.status (3 + b2n x) else t.status
  let t := { t with status := nsetBit st (1 + b2n x) }
  if x then { t with snap1 := v } else { t with snap0 := v }

/-- The wrap event of channel c: WRAPPED, and COUNT_ON cleared under SINGLE (R393); the tick of every network that the
channel paces (R400). -/
def State.tmrWrapped (s : State) (c : Nat) : State :=
  let s := s.modTmr c fun t => { t with status := nsetBit t.status 0, on := t.on && !t.single }
  ((upTo 16).filter fun k =>
    let n := s.net k
    n.image != 0 && (n.tickSource.kind == 1 || n.tickSource.kind == 2) && n.tickSource.ch == c).foldl State.tick s

/-- Channel c has a lead event of kind `why` (0 wrap, 1 and 2 snap units) to broadcast (R397). -/
def State.leads (s : State) (c why : Nat) : List Nat := if (s.tmr c).leadOn = why then [c] else []

/-- Matches of channel c that are due are taken; answers the lead events. -/
def State.tmrMatches (s : State) (c : Nat) : State × List Nat :=
  [false, true].foldl (fun r x =>
    if (r.1.tmr c).due x then (r.1.modTmr c fun t => t.takeMatch x, r.2 ++ r.1.leads c (1 + b2n x)) else r) (s, [])

/-- One advance of channel c, `force` for a restart that decides the count (R393, R397). Answers the lead events. -/
def State.tmrStep (s : State) (c : Nat) (force : Bool) : State × List Nat :=
  let r := s.tmrMatches c
  let t := r.1.tmr c
  let wrap := t.count == t.limit
  let s := r.1.modTmr c fun t => t.setCount (if force || wrap then 0 else (t.count + 1) % 2 ^ 32)
  if wrap then (s.tmrWrapped c, r.2 ++ s.leads c 0) else (s, r.2)

/-- One tick for channel c, and for the odd channel paired with it when it wraps (R398). -/
def State.tmrTick (s : State) (c : Nat) (force : Bool) : State × List Nat :=
  let wrap := (s.tmr c).count == (s.tmr c).limit
  let r := s.tmrStep c force
  if wrap && c % 2 = 0 && (r.1.tmr (c + 1)).paired (c + 1) && r.1.tmrCounts (c + 1) then
    let q := r.1.tmrStep (c + 1) false
    (q.1, r.2 ++ q.2)
  else r

/-- Captures in mode 5 of the followers of a channel with a lead event: they take the counts held at the start of the
cycle, `s0` (R395). -/
def State.tmrCaptureLead (s0 s : State) (l : Nat) : State × List Nat :=
  (upTo 16).foldl (fun r c =>
    if (r.1.tmr c).leaderOf c ≠ some l then r
    else [false, true].foldl (fun r x =>
      if (r.1.tmr c).mode x = 5 then (r.1.modTmr c fun t => t.capture x (s0.tmr c).count, r.2 ++ r.1.leads c (1 + b2n x)) else r) r)
    (s, [])

/-- FOLLOW of channel c, and a tick under TICK_SEL 0b11, in the cycle after a lead event of its leader; the conditions
are those of `s0`, the start of that cycle (R393, R397). -/
def State.tmrFollow (s0 s : State) (c : Nat) : State × List Nat :=
  let t := s.tmr c
  let ticks := t.tickSel == 3 && !t.paired c && s0.tmrCounts c
  let s := match t.follow with
    | 2 => s.modTmr c fun t => { t with on := true, pre := if t.on then t.pre else 0 }
    | 3 => s.modTmr c fun t => { t with on := false }
    | _ => s
  if ticks then s.tmrTick c (t.follow == 1)
  else if t.follow = 1 then
    let r := s.tmrMatches c
    (r.1.modTmr c fun t => t.setCount 0, r.2)
  else (s, [])

/-- Lead events broadcast, cycle after cycle, for at most n cycles (log 40). -/
def State.tmrLead : Nat → State → State → List Nat → State
  | 0, _, s, _ => s
  | n + 1, s0, s, ls =>
    if ls.isEmpty then s
    else
      -- captures on lead events, in the same cycle, chained once round the channels
      let r := ls.foldl (fun (r : State × List Nat) l => let q := State.tmrCaptureLead s0 r.1 l; (q.1, r.2 ++ q.2)) (s, [])
      let all := (ls ++ r.2).dedup
      let s1 := r.1
      let f := ((upTo 16).filter fun c => match (s1.tmr c).leaderOf c with
        | some l => all.contains l
        | none => false).foldl (fun (q : State × List Nat) c => let x := State.tmrFollow s1 q.1 c; (x.1, q.2 ++ x.2)) (s1, [])
      State.tmrLead n s1 f.1 f.2.dedup

/-- A tick of channel c with everything that follows from it. -/
def State.tmrTicked (s : State) (c : Nat) : State := let r := s.tmrTick c false; State.tmrLead 16 s r.1 r.2

/-- TIMER_COUNT_ADVANCE: a kernel cycle of a channel that counts kernel cycles; on the (DIV + 1)-th it advances, below
LIMIT. -/
def execTimerCountAdvance (ch : TimerId) (s : State) : Res :=
  .next <|
    let c := ch.val
    let t := s.tmr c
    if !t.on || t.tickSel ≠ 0 || t.paired c then s
    else if t.pre < t.div then s.modTmr c fun t => { t with pre := t.pre + 1 }
    else if !s.tmrCounts c then s.modTmr c fun t => { t with pre := 0 }
    else if t.count = t.limit then s
    else (s.modTmr c fun t => { t with pre := 0 }).tmrTicked c

/-- TIMER_WRAP: the (DIV + 1)-th kernel cycle of such a channel at LIMIT takes the count to 0. -/
def execTimerWrap (ch : TimerId) (s : State) : Res :=
  .next <|
    let c := ch.val
    let t := s.tmr c
    if t.tickSel ≠ 0 || t.paired c || t.pre < t.div || !s.tmrCounts c || t.count ≠ t.limit then s
    else (s.modTmr c fun t => { t with pre := 0 }).tmrTicked c

/-- An accepted edge at the snap units of channel c, thinned by SNAPx_EVERY (R395); the captured count is that of the
start of the cycle. -/
def State.tmrEdge (s : State) (c : Nat) (rising : Bool) : State × List Nat :=
  let start := (s.tmr c).count
  [false, true].foldl (fun r x =>
    let t := r.1.tmr c
    if t.mode x = 4 || (t.mode x = 2 && rising) || (t.mode x = 3 && !rising) then
      let n := (if x then t.edge1 else t.edge0) + 1
      let put (t : TimerSt) (v : Nat) : TimerSt := if x then { t with edge1 := v } else { t with edge0 := v }
      if t.every x < n then (r.1.modTmr c fun t => (put t 0).capture x start, r.2 ++ r.1.leads c (1 + b2n x))
      else (r.1.modTmr c fun t => put t n, r.2)
    else r) (s, [])

/-- The channels whose debounce stage accepts level `high` of pin p once it has been shown by `samples` + 1 consecutive kernel
samples: they name the pin, have the other level, and have DEBOUNCE at most `samples` (R394). -/
def State.accepts (s : State) (p : Nat) (high : Bool) (samples : Nat) : List Nat :=
  (upTo 16).filter fun c => (s.tmr c).pin == p && (s.tmr c).level != high && decide ((s.tmr c).debounce ≤ samples)

/-- TIN_EDGE_ACCEPTED: a pin has shown a new level for `samples` + 1 kernel samples, and the channels whose debounce stage that
fills accept the edge. -/
def execTinEdgeAccepted (pin : Fin 8) (edge : PinEdge) (s : State) : Res :=
  .next <|
    let rising := edge.rising
    let mine := s.accepts pin.val rising edge.samples.val
    if mine.isEmpty then s
    else
      -- captures and ticks see the counts and conditions of the start of the cycle
      let ticking := mine.filter fun c =>
        let t := s.tmr c
        (t.tickSel == (if rising then 1 else 2)) && !t.paired c && s.tmrCounts c
      let r := mine.foldl (fun (r : State × List Nat) c => let q := r.1.tmrEdge c rising; (q.1, r.2 ++ q.2)) (s, [])
      let r := ticking.foldl (fun (r : State × List Nat) c => let q := r.1.tmrTick c false; (q.1, r.2 ++ q.2)) r
      let s' := mine.foldl (fun s c => s.modTmr c fun t => { t with level := rising }) r.1
      State.tmrLead 16 s s' r.2.dedup

/-- SNAP_COMPARE_MATCH: the match of a unit whose compare value the count has come to equal. -/
def execSnapCompareMatch (ch : TimerId) (unit : Bool) (s : State) : Res :=
  .next <|
    let c := ch.val
    if !(s.tmr c).due unit then s
    else State.tmrLead 16 s (s.modTmr c fun t => t.takeMatch unit) (s.leads c (1 + b2n unit))

/-! ### Host accesses (R395, R396, R398, R399) -/

/-- A host read of n bytes answered with v: its completion is counted (20 R512). -/
def State.hostReturn (s : State) (n v : Nat) : State := (s.send (.readData (toLe n v))).countDev Ctr.pcieTxBytes noSub n

/-- TMR_CTRL as read. -/
def State.tmrCtrl (s : State) (c : Nat) : Nat :=
  nput (nput (s.tmr c).ctrl.toNat 31 31 (b2n (s.tmr c).on)) 7 7 (b2n (s.tmrLocked c))

/-- TMR_STATUS as read. -/
def TimerSt.statusWord (t : TimerSt) : Nat := nput t.status 31 31 (b2n t.out)

/-- Register `reg` of channel c written: 0 CTRL, 1 DIV, 2 COUNT, 3 LIMIT, 4 SNAP0, 5 SNAP1, 6 SNAPCFG, 7 STATUS, 8 PAIR_HI. -/
def State.tmrWrite (s : State) (c reg v : Nat) : State :=
  if reg < 4 && s.tmrLocked c then s.countDev Ctr.tmrWriteLocked c
  else match reg with
    | 0 => s.modTmr c fun t =>
        let w := nfld v 30 8 * 256
        { t with ctrl := BitVec.ofNat 32 (if c % 2 = 0 then nput w 29 29 0 else w), on := nbit v 31
                 pre := if t.on then t.pre else 0 }
    | 1 => s.modTmr c fun t => { t with div := v % 65536, pre := 0 }
    | 2 => s.modTmr c fun t => t.setCount v
    | 3 => s.modTmr c fun t => { t with limit := v }
    | 4 => s.modTmr c fun t => { t with snap0 := v }
    | 5 => s.modTmr c fun t => { t with snap1 := v }
    | 6 => s.modTmr c fun t => { t with snapcfg := BitVec.ofNat 32 v &&& 0xF8FFF8FF, edge0 := 0, edge1 := 0 }
    | 7 => s.modTmr c fun t => { t with status := nclear t.status (v % 32) }
    | _ => s

/-- A host write of a register of channel c: matches of the cycles before compare against the old values. -/
def State.tmrHostWrite (s : State) (c reg v : Nat) : State :=
  let r := s.tmrMatches c
  (State.tmrLead 16 s r.1 r.2).tmrWrite c reg v

/-! ### Line outputs (R401 to R403) -/

/-- The pin once the changes that waited until `now` have been made (R402). -/
def LoutSt.settled (l : LoutSt) (now : Nat) : LoutSt :=
  let l := if l.upAt ≠ 0 && l.upAt ≤ now + 1 then { l with asserted := true, changedAt := l.upAt, upAt := 0 } else l
  if l.downAt ≠ 0 && l.downAt ≤ now + 1 then { l with asserted := false, changedAt := l.downAt, downAt := 0 } else l

/-- LOUTp as it drives now. -/
def State.loutPin (s : State) (p : Nat) : LoutSt := (s.lout p).settled s.now

/-- The electrical level of LOUTp (R401, R403): low until LOUT_CFG is written. -/
def State.loutLevel (s : State) (p : Nat) : Bool :=
  let l := s.loutPin p
  l.configured && (l.asserted != l.pol)

/-- The time + 1 from which the pin may change again: it changes at most once per 10 ns (R402). -/
def LoutSt.mayChange (l : LoutSt) (now : Nat) : Nat := max (now + 1) (if l.changedAt = 0 then 0 else l.changedAt + 10)

/-- An assertion: at once, or once the pin may change; a deassertion of the same instant, and one that still waits, are
superseded. A pulse restarts its width (R401, R402). -/
def LoutSt.assert (l : LoutSt) (now : Nat) : LoutSt :=
  let t := l.mayChange now
  let l' := { l with assertedAt := now + 1, downAt := 0 }
  if l.asserted || l.upAt ≠ 0 then { l' with pulseEnd := if l.pulse then max now (l.upAt - 1) + 10 * max l.width 1 else 0 }
  else if l.changedAt = now + 1 then
    { l' with asserted := true, changedAt := 0, pulseEnd := if l.pulse then now + 10 * max l.width 1 else 0 }
  else if t = now + 1 then
    { l' with asserted := true, changedAt := t, pulseEnd := if l.pulse then now + 10 * max l.width 1 else 0 }
  else { l' with upAt := t, pulseEnd := if l.pulse then t - 1 + 10 * max l.width 1 else 0 }

/-- A deassertion: none in PULSE mode or beside an assertion of the same instant; behind an assertion that has not been driven
for 10 ns it waits (R402). -/
def LoutSt.deassert (l : LoutSt) (now : Nat) : LoutSt :=
  if l.pulse || l.assertedAt = now + 1 then l
  else if l.upAt ≠ 0 then { l with downAt := l.upAt + 10 }
  else if !l.asserted then l
  else if l.mayChange now = now + 1 then { l with asserted := false, changedAt := now + 1 }
  else { l with downAt := l.mayChange now }

/-- An assertion of the pin changes it: LOUT_ASSERT counts it. -/
def LoutSt.rises (l : LoutSt) (now : Nat) : Bool := !(l.asserted || l.upAt ≠ 0 || l.changedAt = now + 1)

/-- A line event at pin p: `on` asserts. -/
def State.loutEvent (s : State) (p : Nat) (on : Bool) : State :=
  let l := s.loutPin p
  let s' := if on && l.rises s.now then s.countDev Ctr.loutAssert p else s
  s'.modLout p fun _ => if on then l.assert s.now else l.deassert s.now

/-- Neither copy of the ensign network can run: the compute partition is held, or each copy has an UNAVAILABLE core (18 R469). -/
def State.noCopy (s : State) : Bool :=
  let bad (south : Bool) : Bool := (Tab.keys s.cores).any fun c =>
    (s.core c).net == s.fault.ensNet + 1 && decide (64 ≤ c) == south && (s.sector (sectorOf c)).mstate (indexOf c) == 2
  s.fault.fatal || (bad false && bad true)

/-- LINE_OUTPUT_EVENT: the oldest event for a line output at the sector's ring port. In ensign mode a pin takes only
events of its ensign line function, and none while neither copy can run; outside it those are consumed with no effect (R377,
R403; 18 R469). -/
def execLineOutputEvent (sector : SectorId) (s : State) : Res :=
  .next <|
    match s.takeRing sector.val fun fn => 0x140 ≤ fn && fn < 0x150 with
    | none => s
    | some (fn, src, e, _, s) =>
      let p := fn % 8
      let ty := evType e.ev
      if !s.ringBound fn src || (ty != 1 && ty != 2) || (decide (0x148 ≤ fn) != s.fault.ensActive)
          || (s.fault.ensActive && s.noCopy) then s.ringIgnored sector.val fn
      else
        let s := if s.fault.ensActive then
            s.modFault fun f => { f with ensDriven := put f.ensDriven p p 1 } else s
        s.loutEvent p (ty == 1 || evInt e.ev != 0)

/-- LOUT_PULSE_END: a pulse whose width has passed ends. -/
def execLoutPulseEnd (pin : Fin 8) (s : State) : Res :=
  .next <|
    let p := pin.val
    let l := s.loutPin p
    if l.pulseEnd = 0 || s.now < l.pulseEnd then s
    else s.modLout p fun _ => { l with asserted := false, pulseEnd := 0, changedAt := s.now + 1 }

/-- The effect of the entry into ensign mode on pin p (R403). -/
def LoutSt.ensign (l : LoutSt) (init : Bool) : LoutSt := { l with asserted := init, pulseEnd := 0, upAt := 0, downAt := 0 }

end Sys2Proof.Machine
end

