-- ==== Sys2Proof/Machine/Faults.lean ====
section
/-! DEFINITION. Faults.lean: the fault record and FAULT_N (18 R457 to R461), what a fault stops, clears and fences (18
R458, R464; 17 R442, R444), and the entry into ensign mode (18 R462 to R469). -/

namespace Sys2Proof.Machine

/-! ### The fault record (18 R457, R460, R461) -/

abbrev classNotice : Nat := 0
abbrev classDegraded : Nat := 1
abbrev classUncorr : Nat := 2
abbrev classFatal : Nat := 3

/-- FAULT_N is low (18 R461, 17 R433). -/
def State.faultLow (s : State) : Bool := s.fault.fatal || nbit s.fault.events 3 || s.boot.phase == 9

/-- FAULT_EVT is set when FAULT_N falls (21, Interrupt causes). -/
def State.faultEdge (was : Bool) (s : State) : State := if !was && s.faultLow then s.raiseDev 1 else s

/-- A fault-log entry (R460). -/
def faultEntry (t cls src unit action addr epoch detail : Nat) : List Byte :=
  toLe 8 t ++ toLe 1 cls ++ toLe 1 src ++ toLe 2 unit ++ toLe 2 action ++ zeros 2 ++ toLe 8 addr ++ toLe 4 epoch ++ toLe 4 detail

/-- An entry of the fault log, with the event bit of its class (R457, R461); the log holds 512 KiB (12 R309, log 54). -/
def State.logFault (s : State) (cls src unit action : Nat) (addr : Nat := 0) (detail : Nat := 0) : State :=
  State.faultEdge s.faultLow <| s.modFault fun f => { f with
    log := (faultEntry s.now cls src unit action addr s.ao.epoch detail :: f.log).take 16384
    entries := min 65535 (f.entries + 1), entriesCold := min (2 ^ 32 - 1) (f.entriesCold + 1)
    events := if cls = classDegraded then nsetBit f.events 2 else if classUncorr ≤ cls then nsetBit f.events 3 else f.events }

/-! ### Halting a network at once -/

/-- The executing command of mailbox m starts again from its first stage (18 R473; log 55). -/
def State.requeue (s : State) (m : Nat) : State :=
  match s.parked m with
  | none => s
  | some e => s.modMb m fun b => { b with journal := putEntry b.journal { e with st := 0 } }

/-- The last step whose FIRE core c has completed. -/
def CoreSt.fired (k : CoreSt) : Nat := if k.phase = 3 then k.step else if k.phase = 2 then k.fireOf - 1 else k.step - 1

/-- The last step of network k that completed its FIRE (17 R443). -/
def State.lastFired (s : State) (k : Nat) : Nat :=
  let n := s.net k
  if n.phase = 0 then n.step else n.cores.foldl (fun m c => min m (s.core c).fired) n.step

/-- Network k is halted at once (18 R458): it runs on from its last completed FIRE; commands that waited for its next
opening start again, and a waiting HALT_RUN completes. -/
def State.haltNow (s : State) (k : Nat) : State :=
  let n := s.net k
  if !n.running then s
  else
    let last := s.lastFired k
    let halting := n.halting
    let s := n.waits.foldl State.requeue s
    let s := (upTo 32).foldl (fun s i =>
      let c := s.stc i
      if c.net ≠ k || (c.bindWait = 0 && c.unbindWait = 0) then s
      else ((if c.bindWait = 0 then s else s.requeue (c.bindWait - 1)) |> fun s =>
        if c.unbindWait = 0 then s else s.requeue (c.unbindWait - 1)).modStc i fun c => { c with bindWait := 0, unbindWait := 0 }) s
    let s := s.stopNet k
    let s := n.cores.foldl (fun s c => s.modCore c fun x => { x with opens := [], fireHeld := false }) s
    (s.modNet k fun n => { n with waits := [], step := last }).wakeCmd halting fun s m e => s.finish m e [0]

/-- The cores of network k that run on when those that satisfy p halt: in ensign mode a copy of the ensign network, north or
south, none of whose cores does (18 R466). -/
def State.copyLeft (s : State) (k : Nat) (p : Nat → Bool) : List Nat :=
  let n := s.net k
  if s.fault.ensActive && k == s.fault.ensNet && n.running then
    n.cores.filter fun c => !n.cores.any fun d => p d && decide (64 ≤ d) == decide (64 ≤ c)
  else []

/-- The cores of network k outside `keep` stop at once, and the others run on. -/
def State.haltCopy (s : State) (k : Nat) (keep : List Nat) : State :=
  let s := ((s.net k).cores.filter fun c => !keep.contains c).foldl (fun s c =>
    ((s.snapCore c).modCore c fun x => { x with phase := 0, fireReported := false, opens := [], fireHeld := false }).serveSnap c) s
  (s.modNet k fun n => { n with cores := keep }).haltCheck k

/-- Every network with a core that satisfies p is halted at once; in ensign mode the other copy of the ensign network runs
on (18 R466; log 90). -/
def State.haltNets (s : State) (p : Nat → Bool) : State :=
  (upTo 16).foldl (fun s k =>
    let keep := s.copyLeft k p
    if !(s.net k).cores.any p then s else if keep.isEmpty then s.haltNow k else s.haltCopy k keep) s

/-! ### Events held in a core (01 R31) -/

/-- The events that core c holds: receive queue, delay ring, row lookup and fetch, and the migration buffer while it
migrates. -/
def State.heldEvents (s : State) (c : Nat) : List EvItem :=
  let k := s.core c
  let q := s.sector (sectorOf c)
  k.rq ++ k.delay.flatMap Prod.snd ++ (k.lookup.map InPipe.item).toList ++ (k.fetch.map InPipe.item).toList
    ++ (if q.mstate (indexOf c) = 1 then q.migHeld else [])

/-- Events still to be sent by the emit stage of a core. -/
def CoreSt.heldEmits (k : CoreSt) : Nat := ((k.eq ++ k.fireWait).map fun x => k.destCount x - x.sent).sum

/-- The events held in core c are dropped; answers how many. -/
def State.dropHeld (s : State) (c : Nat) : Nat × State :=
  -- an event past the receive queue was done at its pop (11 R280)
  let unpopped := (s.core c).rq ++ (if (s.sector (sectorOf c)).mstate (indexOf c) = 1 then (s.sector (sectorOf c)).migHeld else [])
  let n := (s.heldEvents c).length + (s.core c).heldEmits
  let s := s.modCore c fun k => { k with rq := [], delay := [], lookup := none, fetch := none, eq := [], fireWait := [] }
  let s := s.modSector (sectorOf c) fun q => if q.mstate (indexOf c) = 1 then { q with migBuf := [] } else q
  (n, s.evsDone unpopped)

/-- The same, counted in DROP_RESET of the device. -/
def State.dropReset (s : State) (c : Nat) : State :=
  let r := s.dropHeld c
  r.2.countDev Ctr.dropReset noSub r.1

/-! ### Migration abandoned (18 R456) -/

/-- The events of a list are written into the queue of core c, in order (01 R21). -/
def State.replayTo (s : State) (c : Nat) (l : List EvItem) : State := l.foldl (fun s e => s.rqWrite c e) s

/-- The migration of sector n is abandoned: the map entry stays on the source, the buffered events are replayed to it,
and a RUN_SELFTEST that asked for it starts again. -/
def State.abandonMig (s : State) (n : Nat) : State :=
  match (s.sector n).mig with
  | none => s
  | some g =>
    let held := (s.sector n).migHeld
    let s := s.modSector n fun q => { q with
      mig := none, migBuf := [], mapState := Tab.set q.mapState 0 (indexOf g.core) 0, spareValid := true }
    let s := s.replayTo g.core held
    if g.mb = 0 then s else s.requeue (g.mb - 1)

/-! ### Fences and failed banks (18 R454; 17 R435, R437; 01 R22) -/

/-- Every pin drives its ENS_INIT state (R403, R469). -/
def State.pinsInit (s : State) (init : Nat → Bool) : State :=
  (upTo 8).foldl (fun s p => s.modLout p fun l => l.ensign (init p)) s

/-- Logical index i of sector n becomes UNAVAILABLE: its network goes on with its other cores (R22). Where no copy of the ensign
network is left in ensign mode, the pins go to ENS_INIT (18 R469). -/
def State.unavailable (s : State) (n i : Nat) : State :=
  let c := 16 * n + i
  let s := s.modSector n fun q => { q with mapState := Tab.set q.mapState 0 i 2 }
  let s := (upTo 16).foldl (fun s k => if (s.net k).cores.contains c then
    s.modNet k fun x => { x with cores := x.cores.filter (· != c) } else s) s
  if s.fault.ensActive && s.noCopy then s.pinsInit fun p => (s.lout p).ensInit else s

/-- The logical index that physical core p of sector n carries. -/
def SectorSt.carried (q : SectorSt) (p : Nat) : Option Nat := (upTo 16).find? fun i => q.mstate i != 2 && q.phys i == p

/-- Core c is at a step boundary of its network: its emission of FIRE n has ended and LEARN n has retired. -/
def State.atStepBoundary (s : State) (c : Nat) : Bool :=
  let k := s.core c
  k.net == 0 || !(s.netOf c).running || k.stepOver

/-- The core map after the fence of physical core p: its logical core moves to the spare if there is a valid one, else it
becomes UNAVAILABLE. -/
def State.fenceMap (s : State) (n p : Nat) : State :=
  let q := s.sector n
  match q.carried p with
    | none => if p = q.spareIndex then s.modSector n fun q => { q with spareValid := false } else s
    | some i =>
      if q.spareValid then
        s.modSector n fun q => { q with mapPhys := Tab.set q.mapPhys i i q.spareIndex, spareValid := false }
      else s.unavailable n i

/-- Physical core p of sector n is fenced, in the fault record and in the repair record of the flash. -/
def State.fencePhys (s : State) (n p : Nat) : State :=
  let bit (t : Tab (BitVec 17)) : Tab (BitVec 17) := Tab.set t 0 n (put (Tab.get t 0 n) p p 1)
  let s := s.modAo fun a => { a with fenced := bit a.fenced }
  (s.modSec fun q => { q with flashFence := bit q.flashFence }).fenceMap n p

/-- Bank b of sector n is marked failed; without bank 0 or 1 the sector holds no network. -/
def State.failBank (s : State) (n b : Nat) : State :=
  let bit (t : Tab Word64) : Tab Word64 := Tab.set t 0 n (put (Tab.get t 0 n) b b 1)
  let s := s.modAo fun a => { a with badBanks := bit a.badBanks }
  let s := s.modSec fun q => { q with flashBanks := bit q.flashBanks }
  if b < 2 then (upTo 16).foldl (fun s i => s.unavailable n i) (s.haltNets fun c => sectorOf c == n) else s

/-- The networks with data in bank b of sector n: grants, and rings and staging areas of their cores. -/
def State.bankNets (s : State) (n b : Nat) : List Nat :=
  let hits (base len : Nat) : Bool := len != 0 && decide (max base (b * 0x20000) < min (base + len) (b * 0x20000 + 0x20000))
  (upTo 16).filter fun k =>
    (s.sector n).grants.any (fun g => g.1 == k && hits g.2.1 g.2.2.1)
    || (Tab.keys s.cores).any fun c => (s.core c).net == k + 1 && sectorOf c == n &&
      (hits (s.core c).stgBase (s.core c).stgLen || (s.core c).queues.any fun e =>
        e.2.valid && hits (e.2.reqAt 0) (32 * (e.2.reqSize + e.2.rplSize)))

/-! ### Core and sector resets (17 R444) -/

/-- Commands parked on core c end: an uncorrectable fault or a reset stopped them part way (14 R346). -/
def State.failParked (s : State) (c : Nat) : State :=
  let k := s.core c
  let s := s.wakeCmd k.hostMb fun s m e => s.complete m e codeFault 0 []
  s.wakeCmd k.snapWait fun s m e => s.complete m e codeFault 0 []

/-- Core c is cleared: what it held is dropped, its queues close, and every array of it is zero. -/
def State.clearCore (s : State) (c : Nat) : State :=
  ((((s.failParked c).dropReset c).resetDesc c).setCore c {}).clearCtrs Scope.core c

/-- Core c is cleared, its network halted and its part of the image loaded again. -/
def State.resetOneCore (s : State) (c : Nat) : State :=
  let h := (s.core c).image
  let s := (s.haltNets (· == c)).clearCore c
  if h = 0 then s else s.reloadCores h (· == c)

/-- The events that wait in the routers and buffers of sector n (01 R31), and what they hold of other units. -/
def SectorSt.inTransit (q : SectorSt) : List Item :=
  q.inp.flatMap (fun e => e.2.be ++ e.2.sched.map Item.event) ++ q.toCore ++ q.toRing ++ q.links.flatMap (fun e => e.2.inFlight)

/-- Those that are events. -/
def itemEvents (l : List Item) : List EvItem := l.filterMap fun
  | .event e => some e
  | .ring _ _ e _ => some e
  | _ => none

/-- Sector n's router and buffers are emptied; the events in them are counted in DROP_RESET. -/
def State.dropTransit (s : State) (n : Nat) : State :=
  let evs := itemEvents (s.sector n).inTransit
  ((s.modSector n fun q => { q with
    inp := [], toCore := [], toRing := [], toDesc := [], toSync := [], moves := []
    links := (q.links.map fun e => (e.1, { e.2 with inFlight := [] })).filter fun e => e.2 != {} }).evsDone evs).countDev
      Ctr.dropReset noSub evs.length

/-- What a reset clears in a sector beside its cores: memory, routers, schedule, alignment and the SECTOR registers. -/
def SectorSt.cleared (q : SectorSt) : SectorSt :=
  { mapState := q.mapState, mapPhys := q.mapPhys, spareIndex := q.spareIndex, spareValid := q.spareValid
    lastTest := q.lastTest, rotInterval := q.rotInterval, traceWr := q.traceWr, traceRd := q.traceRd
    op := q.op, opNext := q.opNext, stopped := q.stopped, gated := q.gated, posts := q.posts
    powered := q.powered, up := q.up, waveFailed := q.waveFailed, softUsed := q.softUsed
    spareElem := q.spareElem, softPending := q.softPending, test := q.test.map fun t => { t with slice := 0 } }

/-- Sector n is cleared: its cores, its memory with the synchronisation objects, its routers. -/
def State.clearSector (s : State) (n : Nat) : State :=
  let s := s.abandonMig n
  let s := ((Tab.keys s.cores).filter fun c => sectorOf c == n).foldl State.clearCore s
  let s := (s.endOutstanding n).dropTransit n
  (s.modSector n SectorSt.cleared).clearCtrs Scope.sector n

/-- Images with a core in sector n, or a record for it, have their part of the sector loaded again. -/
def State.reloadSector (s : State) (n : Nat) : State :=
  (Tab.keys s.images).foldl (fun s h => match s.imageOf h with
    | none => s
    | some g => if g.kind ≠ 0 then s else
      (g.recs.filter fun r => r.kind / 256 == 1 && r.target == n).foldl (g.sectorRec (Tab.get s.images {} h).slots)
        (s.reloadCores h fun c => sectorOf c == n)) s

/-- A reset of sector n (R444). -/
def State.resetOneSector (s : State) (n : Nat) : State :=
  ((s.haltNets fun c => sectorOf c == n).clearSector n).reloadSector n

/-! ### The compute partition (17 R442; 18 R459) -/

/-- Every network is halted at once. -/
def State.haltAll (s : State) : State := (upTo 16).foldl State.haltNow s

/-- Commands parked on core c start again from their first stage (13 R342). -/
def State.requeueCore (s : State) (c : Nat) : State :=
  let k := s.core c
  let s := if k.hostMb = 0 then s else s.requeue (k.hostMb - 1)
  let s := if k.snapWait = 0 then s else s.requeue (k.snapWait - 1)
  s.modCore c fun k => { k with hostMb := 0, hostRows := [], snapWait := 0, snapTodo := [], snapGot := [], snapCols := none }

/-- A compute-partition reset starts; one in progress goes on (17 R445). Commands of the journal that were executing
start again (13 R342). -/
def State.crStart (s : State) : State :=
  if s.boot.crStep ≠ 0 || s.fault.fatal then s
  else
    let s := (Tab.keys s.cores).foldl State.requeueCore s.haltAll
    let s := { s with ao := { s.ao with serving := false }, boot := { s.boot with crStep := 1, phase := 8 } }
    (upTo 8).foldl (fun s n => s.modSector n fun q => { q with test := q.test.map fun t => { t with slice := 0 } })
      ((upTo 8).foldl State.abandonMig s)

/-- Events in flight in the ring to or from the compute partition are discarded (step 1 of R442). Their messages stay
unconsumed, to be delivered again (11 R294). -/
def State.dropRing (s : State) : State :=
  let flows := s.flows
  let evs := s.expand.map (·.item)
  let s := ({ s with expand := [] }.evsDone evs).countDev Ctr.dropReset noSub evs.length
  let s := (upTo 8).foldl (fun s n =>
    let q := s.sector n
    let l := q.toRing ++ (q.link 3).inFlight ++ (q.link 4).inFlight
    let evs := itemEvents l
    ((s.modSector n fun q => { q with
      toRing := []
      links := Tab.set (Tab.set q.links {} 3 { q.link 3 with inFlight := [] }) {} 4 { q.link 4 with inFlight := [] } }).evsDone evs).countDev
        Ctr.dropReset noSub evs.length) s
  { s with flows := flows }

/-- The compute partition is cleared (step 2 of R442); messages of the events dropped stay unconsumed. -/
def State.clearCompute (s : State) : State :=
  let flows := s.flows
  let s := (upTo 8).foldl State.clearSector s
  let s := (upTo 128).foldl (fun s c => s.clearCtrs Scope.core c) s
  { (upTo 16).foldl (fun s k => s.clearCtrs Scope.net k) s with flows := flows }

/-- The compute partition is held in reset (R459); in ensign mode no copy can run, so the pins hold ENS_INIT (R469). -/
def State.holdFatal (s : State) : State :=
  let was := s.faultLow
  let s := ((s.haltAll.dropRing).clearCompute).modFault fun f => { f with fatal := true }
  let s := { s with ao := { s.ao with serving := true }, boot := { s.boot with crStep := 0, phase := 7, crWaiters := [] } }
  let s := (upTo 10).foldl (fun s m => s.wakeCmd (m + 1) fun s m e => if m < 8 then s.complete m e codeFault 0 [] else s.requeue m) s
  State.faultEdge was (if s.fault.ensActive then s.pinsInit fun p => (s.lout p).ensInit else s)

/-! ### Ensign mode (18 R462 to R469) -/

/-- Trigger b of R463 holds. -/
def State.trigHolds (s : State) (b : Nat) : Bool :=
  nbit s.fault.ensEnabled b && match b with
    | 0 => s.fault.fatal || nbit s.fault.events 3
    | 1 => s.ao.emergency
    | 2 => decide (s.fault.hbLast + 1000000 * s.fault.hbMs ≤ s.now)
    | _ => s.ao.persist

/-- Step 1 of R464: the pins switch to their ensign line functions, ENSIGN rises and vector 10 fires. -/
def State.ensignPins (s : State) (cause : Nat) (init : Nat → Bool) : State :=
  let s := (s.pinsInit init).modFault fun f => { f with ensActive := true, ensDriven := 0, ensCause := cause }
  (s.countDev Ctr.ensignEntry).raiseDev 8

/-- Core c of a shed network stops at once: what it held is dropped and counted, and its queues close. -/
def State.shedCore (s : State) (c : Nat) : State :=
  let r := s.dropHeld c
  let s := (r.2.countCore c Ctr.dropShed r.1).modCore c fun k => { k with
    seeds := [], learning := false, learnRows := [], hostRows := [], hostMb := 0, snapWait := 0
    snapTodo := [], snapGot := [], snapCols := none }
  (upTo 16).foldl (fun s q => s.closeQueue c q) s

/-- Network k is shed: commands that wait and name it are refused, its run ends, its cores stop. -/
def State.shedNet (s : State) (k : Nat) : State :=
  let s := s.modNet k fun n => { n with shed := true, waits := [], halting := 0, reduce := none, chunks := [] }
  let s := (upTo 32).foldl (fun s i => if (s.stc i).net = k then
    s.modStc i fun c => { c with bindWait := 0, unbindWait := 0 } else s) s
  let s := (upTo 10).foldl (fun s m => s.wakeCmd (m + 1) fun s m e =>
    if cmdNet e.cmd = k then s.refuse m e codeState Why.ensignActive else s) s
  let cores := (Tab.keys s.cores).filter fun c => (s.core c).net == k + 1
  cores.foldl State.shedCore (s.haltNow k)

/-- Word w of each of n records of `stride` words set to v. -/
def fillWord (t : Tab Word32) (stride w n v : Nat) : Tab Word32 :=
  let rest := Tab.restrict t fun a => a % stride != w
  if v % 2 ^ 32 = 0 then rest else (upTo n).foldl (fun t i => Tab.set t 0 (stride * i + w) (BitVec.ofNat 32 v)) rest

/-- LAST_STEP, PRE_LAST and POST_LAST of a core written by a first run, with the number of the step before it (04 R102, 06
R144, 17 R443). -/
def CoreSt.firstRun (k : CoreSt) (step : Nat) : CoreSt :=
  { k with neuW := fillWord k.neuW 8 4 16384 step, rowW := fillWord k.rowW 8 3 4096 step, colW := fillWord k.colW 16 14 16384 step }

/-- A network starts: its next step opens at the first tick of its source, at once under IMMEDIATE (05 R136). -/
def State.startNet (s : State) (k : Nat) : State :=
  let cores := (Tab.keys s.cores).filter fun c =>
    (s.core c).net == k + 1 && (s.sector (sectorOf c)).mstate (indexOf c) != 2
  let n := s.net k
  let s := if n.everRun then s else cores.foldl (fun s c => s.modCore c fun x => x.firstRun n.step) s
  let s := s.modNet k fun n => { n with
    running := true, everRun := true, cycleNew := true, phase := 0, cores := cores, halting := 0, tickHeld := false }
  if n.source.kind = 3 then s.tryOpen k else s

/-- Steps 2 and 3 of R464: every other network is shed, and the ensign network runs. -/
def State.ensignShed (s : State) : State :=
  let s := s.logFault classNotice 13 0 6
  let s := (upTo 16).foldl (fun s k =>
    if (s.net k).image != 0 && k != s.fault.ensNet && !(s.net k).shed then s.shedNet k else s) s
  if (s.net s.fault.ensNet).running || s.fault.fatal then s else s.startNet s.fault.ensNet

/-- A wake to state t begins (16 R420); one under way to a lower target goes on to the higher. -/
def State.startWake (s : State) (t : Nat) : State :=
  if s.ao.pstate < 2 then s
  else s.modAo fun a => { a with waking := if a.waking = 0 then t + 1 else min a.waking (t + 1) }

/-- Ensign mode is entered for cause 1 fault, 2 thermal, 3 heartbeat, 4 supply, 5 command (R464). In P2 and P3 the
always-on domain drives the pins and wakes the device (R465); while no Halyard serves, the entry waits for one. -/
def State.enterEnsign (s : State) (cause : Nat) : State :=
  if s.fault.ensActive || !s.fault.ensSet || s.ao.ensignPending != 0 then s
  else if 2 ≤ s.ao.pstate then
    ((s.ensignPins cause fun p => nbit s.ao.ensCopy.toNat p).modAo fun a => { a with ensignPending := cause }).startWake 0
  else if !s.ao.serving then s.modAo fun a => { a with ensignPending := cause }
  else (s.ensignPins cause fun p => (s.lout p).ensInit).ensignShed

/-- An entry that waited for the owner is completed once it serves. -/
def State.ensignResume (s : State) : State :=
  let c := s.ao.ensignPending
  if c = 0 then s
  else
    let s := s.modAo fun a => { a with ensignPending := 0 }
    if !s.fault.ensSet then s
    else (if s.fault.ensActive then s else s.ensignPins c fun p => (s.lout p).ensInit).ensignShed

/-- ENSIGN_TRIGGER -/
def execEnsignTrigger (trigger : Fin 4) (s : State) : Res :=
  .next <| if s.trigHolds trigger.val then s.platform (s.enterEnsign (trigger.val + 1)) else s

/-- HEARTBEAT_TIMEOUT: HEARTBEAT_MS has passed since the last host heartbeat (R463). -/
def execHeartbeatTimeout (s : State) : Res :=
  .next <| if s.trigHolds 2 then s.platform (s.enterEnsign 3) else s

/-! ### FAULT_HANDLING (18 R458) -/

/-- A fault of physical core p of a sector in migration abandons it (R456). -/
def State.migFault (s : State) (n p : Nat) : State :=
  match (s.sector n).mig with
  | none => s
  | some g => if g.dest = p || (s.sector n).phys (indexOf g.core) = p then s.abandonMig n else s

/-- An uncorrectable word in a memory of core c: the network halts, the physical core receives slices 0 to 11 at once, is
fenced where one mismatches, and the logical core is loaded again. -/
def State.coreFault (s : State) (c addr : Nat) (mismatch : Option (Fin 12)) : State :=
  let n := sectorOf c
  let p := (s.sector n).phys (indexOf c)
  let bad := mismatch.isSome
  let s := s.migFault n p
  let s := s.countSec n Ctr.selftestSlices noSub ((mismatch.map fun i => i.val + 1).getD 12)
  let s := if bad then s.countSec n Ctr.selftestFail else s.modSector n fun q => { q with lastTest := Tab.set q.lastTest 0 p (s.now + 1) }
  let s := s.haltNets (· == c)
  let h := (s.core c).image
  let s := s.clearCore c
  let s := if bad then s.fencePhys n p else s
  let s := if h = 0 then s else s.reloadCores h (· == c)
  -- the interrupt reaches the sequencer that starts again (03 R89; log 82)
  let s := s.raiseSeq c 3
  s.logFault classUncorr 1 c (if bad then 2 else 3) addr

/-- An uncorrectable word of sector memory: networks of the sector halt and the bank receives its 8 slices; one that fails
is marked, and networks with data in it may not run until unloaded. -/
def State.smemFault (s : State) (n ofs : Nat) (failed : BitVec 8) : State :=
  let b := ofs / 0x20000
  let fails := ((upTo 8).filter fun i => nbit failed.toNat i).length
  let bad := fails != 0
  let s := s.haltNets fun c => sectorOf c == n
  let s := s.countSec n Ctr.selftestSlices noSub 8
  let s := if bad then s.countSec n Ctr.selftestFail noSub fails else s
  let s := if bad then
      (s.bankNets n b).foldl (fun s k => s.modNet k fun x => { x with blocked := true }) (s.failBank n b)
    else s
  s.logFault classUncorr 2 (32 * n) (if bad then 2 else 1) ofs

/-- The flow whose retained message has a unit in the block at a, with that message. -/
def State.rtxAt (s : State) (a : Nat) : Option (Nat × Msg) :=
  if a < rtxBase || s.gddr.stgBase ≤ a then none
  else
    let u := (a - rtxBase) / 64
    s.flows.findSome? fun f => (f.2.rtx.find? fun m =>
      (upTo (recUnits m.body.length)).any fun i => f.2.rtxStep m.at_ i == u).map fun m => (f.1, m)

/-- An uncorrectable GDDR6 block: networks with a region holding it halt, and a flow whose retained message it holds is
STALLED. -/
def State.gddrFault (s : State) (a : Nat) : State :=
  let hit := s.regions.filter fun r => decide (r.base ≤ a) && decide (a < r.base + r.size)
  let s := (upTo 16).foldl (fun s k =>
    if hit.any fun r => r.net == k || (r.net == 0xFF && (Tab.get s.images {} r.image).slots.contains k) then s.haltNow k else s) s
  match s.rtxAt a with
  | none => s.logFault classUncorr 4 (s.gddr.controller a) 1 a
  | some (f, m) =>
    let s := if (s.flow f).stalled then s else (s.modFlow f fun x => { x with stalled := true }).flowEvent 1 f
    s.logFault classUncorr 4 (s.gddr.controller a) 0 a m.mseq

/-- A mesh link or ring port that stopped: the first time a compute-partition reset retests it, the next time the
partition is held. -/
def State.linkFault (s : State) (n l : Nat) : State :=
  let key := 8 * n + l
  if s.fault.linkRetry.contains key then (s.logFault classFatal 3 (32 * n) 5 0 l).holdFatal
  else ((s.logFault classFatal 3 (32 * n) 4 0 l).modFault fun f => { f with linkRetry := f.linkRetry ++ [key] }).crStart

/-- The rise of PWR_WARN that holds has its entry (R412 writes it at the rise). -/
def State.supplyLogged (s : State) : Bool :=
  s.ao.pwrWarn && s.fault.log.any fun e => leAt e 9 1 == 10 && decide (s.ao.warnRise ≤ leAt e 0 8)

/-- FAULT_HANDLING: the owner Halyard handles a reported fault while it serves. -/
def execFaultHandling (source : FaultSource) (s : State) : Res :=
  .next <|
    if !s.ao.serving then s
    else s.platform <| match source with
      | .supplyNotice => if s.supplyLogged then s else s.logFault classNotice 10 0 0
      | .thermalNotice => s.logFault classNotice 11 0 0
      | .laneDegrade p => s.logFault classDegraded 6 p.val 0
      | .portFailed p => s.logFault classDegraded 6 p.val 0
      | .selftestMismatch n p misr =>
        -- a core map changes only at a step boundary (01 R20)
        if (((s.sector n.val).carried p.val).any fun i => !s.atStepBoundary (16 * n.val + i)) then s else ((s.migFault n.val p.val).fencePhys n.val p.val).logFault classDegraded 7 (32 * n.val + p.val) 2 0 misr.toNat
      | .bankUnrepairable n b => (s.failBank n.val b.val).logFault classDegraded 7 (32 * n.val) 2 (0x20000 * b.val)
      | .halyardFenced south =>
        let s := s.modAo fun a => if south then { a with southFenced := true } else { a with northFenced := true }
        (s.modSec fun q => { q with flashHal := nsetBit q.flashHal (b2n south) }).logFault classDegraded 8 (b2n south) 2
      | .coreMemory c a m => s.coreFault c.val a m
      | .sectorMemory n o f => s.smemFault n.val o f
      | .gddrBlock a => s.gddrFault a
      | .meshLink n l => s.linkFault n.val l.val
      | .gddrChannel g => (s.logFault classFatal 5 g.val 5).holdFatal
      | .numeric c =>
        -- a guard overflow of the core that the log has not shown yet (02 R45)
        if !s.fault.guardDue.contains c.val then s
        else (s.modFault fun f => { f with guardDue := f.guardDue.erase c.val }).logFault classNotice 12 c.val 0

end Sys2Proof.Machine
end

