-- ==== Sys2Proof/Machine/Regs.lean ====
section
/-! DEFINITION. Regs.lean: the words of the BAR0 registers (21 R519 to R528), put together from the state: what a read
finds, and what GET_INFO copies. -/

namespace Sys2Proof.Machine

/-- Bits hi:lo of a word that is being put together. -/
def bitsAt (lo v : Nat) : Nat := v * 2 ^ lo
/-- A flag at bit i. -/
def flagAt (i : Nat) (b : Bool) : Nat := b2n b * 2 ^ i

/-! ### Power, reset and fault status (16, 17, 18) -/

/-- The power state 0 to 3; P1 while all eight sectors are gated (16 R416). -/
def State.powerState (s : State) : Nat := s.sensor 3

/-- PWR_STATUS -/
def State.pwrStatus (s : State) : Nat :=
  let a := s.ao
  bitsAt 30 s.powerState + flagAt 29 a.pwrWarn + flagAt 28 a.vcoreWarn + flagAt 27 a.vauxWarn + flagAt 26 a.throttle
    + flagAt 25 a.regLp + flagAt 24 a.persist + flagAt 23 a.emergency + bitsAt 20 a.lastReset + bitsAt 16 a.ready
    + flagAt 15 a.gddrLost + flagAt 7 a.retentionLost + a.pwrEvents

/-- SECTOR_CLK[n] -/
def State.sectorClk (s : State) (n : Nat) : Nat :=
  let q := s.sector n
  bitsAt 30 q.op + flagAt 29 q.stopped + flagAt 28 (s.stretched n) + flagAt 27 q.gated + flagAt 26 (s.noGate n)

/-- The hottest reading and its sensor, the lowest of equals (16, Thermal limits). -/
def AoSt.hottest (a : AoSt) : Int × Nat :=
  (upTo 20).foldl (fun m i => let v := Tab.get a.temps 0 i; if m.1 < v then (v, i) else m) (Tab.get a.temps 0 0, 0)

/-- THERM_STATUS -/
def State.thermStatus (s : State) : Nat := bitsAt 16 (toField 16 s.ao.hottest.1) + s.ao.hottest.2

/-- BOOT_STATUS -/
def State.bootStatus (s : State) : Nat :=
  let b := s.boot
  flagAt 31 b.devReady + flagAt 30 b.linksReady + flagAt 29 b.fwVerified + flagAt 28 b.repairLoaded + flagAt 27 b.gddrReady
    + flagAt 26 b.calDone + bitsAt 25 b.fwSlot + bitsAt 20 b.phase + bitsAt 16 b.bootErr
    + ((upTo 8).map fun n => flagAt (8 + n) (s.sector n).up).sum

/-- Failed banks of sector n. -/
def State.bankFails (s : State) (n : Nat) : Nat := ((upTo 64).filter fun b => nbit (Tab.get s.ao.badBanks 0 n).toNat b).length

/-- REPAIR_STATUS[n] -/
def State.repairStatus (s : State) (n : Nat) : Nat :=
  let q := s.sector n
  bitsAt 24 q.softUsed + bitsAt 16 (min 255 q.spareElem) + bitsAt 8 (s.bankFails n) + flagAt 0 q.softPending

/-- FAULT_STATUS -/
def State.faultStatus (s : State) : Nat :=
  flagAt 31 s.fault.fatal + bitsAt 27 s.fault.events + ((upTo 8).map fun n => flagAt (16 + n) (!(s.sector n).spareValid)).sum
    + s.fault.entries

/-- A copy of the ensign network runs: all its cores in the given half of the device do (18 R466, R469). -/
def State.copyUp (s : State) (south : Bool) : Bool :=
  let k := s.fault.ensNet
  let mine := (Tab.keys s.cores).filter fun c => (s.core c).net == k + 1 && (decide (64 ≤ c) == south)
  s.fault.ensSet && (s.net k).running && !mine.isEmpty && mine.all fun c => (s.net k).cores.contains c

/-- ENSIGN_STATUS -/
def State.ensignStatus (s : State) : Nat :=
  let f := s.fault
  flagAt 31 f.ensActive + flagAt 30 f.ensSet + bitsAt 26 f.ensNet + ((upTo 4).map fun b => flagAt (22 + b) (s.trigHolds b)).sum
    + bitsAt 18 f.ensEnabled + bitsAt 15 f.ensCause + flagAt 14 (s.copyUp false) + flagAt 13 (s.copyUp true)

/-- A Halyard is fenced: in the fault record, or by itself (18 R470, R474). -/
def AoSt.halFenced (a : AoSt) (south : Bool) : Bool := (if south then a.southFenced else a.northFenced) || nbit a.selfFenced (b2n south)

/-- HALYARD_STATUS -/
def State.halyardStatus (s : State) : Nat :=
  let a := s.ao
  flagAt 31 a.ownerSouth + flagAt 30 (!a.halFenced false) + flagAt 29 (!a.halFenced true) + flagAt 28 a.standbyUp
    + min 0xFFFF ((s.now - a.hbStamp) / 100000)

/-- SECURITY_STATUS -/
def State.securityStatus (s : State) : Nat :=
  let q := s.sec
  bitsAt 29 q.lc + flagAt 28 (q.lcPending != 0) + flagAt 27 q.auth + bitsAt 24 (if q.auth then q.perms else 0)
    + flagAt 23 q.updPending + flagAt 22 s.ao.mgtI3c + bitsAt 8 q.svnMin + q.svnRun

/-! ### Page 0 (21) -/

/-- The supported feature bitmap (13 R340): generation 1 has bits 0 to 9; 10 and 11 report the memory. -/
def State.features (s : State) : Nat := 0x3FF + flagAt 10 s.gddr.ecc + flagAt 11 s.gddr.clam

/-- DEV_STATUS -/
def State.devStatus (s : State) : Nat :=
  flagAt 31 s.boot.devReady + flagAt 30 s.boot.linksReady + flagAt 29 s.boot.devReady + flagAt 28 (!s.faultLow)
    + flagAt 27 s.fault.ensActive + flagAt 26 s.fault.fatal + bitsAt 22 s.boot.phase + bitsAt 20 s.powerState
    + flagAt 19 s.ao.ownerSouth + flagAt 18 s.ao.throttle + flagAt 17 s.ao.emergency

/-- BASE of BAR2_BASE as it reads: the window is aligned to its own size (13 R325). -/
def PcieSt.baseRead (p : PcieSt) : Nat := p.base / 2 ^ p.bar2Log * 2 ^ p.bar2Log

/-- The device serial number (19 R481). -/
def deviceSerial : Nat := leAt (sha512 Config.deviceIdKey) 0 8

/-- Page 0 and the page at 0x1000. -/
def State.regPage0 (s : State) (o : Nat) : Nat :=
  let fw := s.boot.fwVerified
  let serial := deviceSerial
  if o = 0x00 then 0x01281000 + bitsAt 8 (Config.stepping % 16)
  else if o = 0x04 then s.sec.fwVersion.toNat
  else if o = 0x08 then if fw then serial % 2 ^ 32 else 0
  else if o = 0x0C then if fw then serial / 2 ^ 32 else 0
  else if o = 0x10 then if s.boot.devReady then s.features else 0
  else if o = 0x20 then s.devStatus
  else if o = 0x30 then s.ao.epoch
  else if o = 0x40 then s.now % 2 ^ 32
  else if o = 0x44 then s.ao.timeHi.toNat
  else if o = 0x50 then fld s.pcie.mark 31 0
  else if o = 0x54 then s.pcie.markHi.toNat
  else if o = 0x100 then s.pcie.cause
  else if o = 0x1000 then bitsAt 28 (s.pcie.baseRead % 16)
  else if o = 0x1004 then s.pcie.baseRead / 16
  else 0

/-! ### Core, network, fabric and memory registers -/

/-- CORE_MAP[c] -/
def State.coreMapWord (s : State) (c : Nat) : Nat :=
  let q := s.sector (sectorOf c)
  let st := q.mstate (indexOf c)
  bitsAt 6 st + if st = 2 then 31 else q.phys (indexOf c)

/-- SPARE_STATUS[n]: while a test runs, the index names the core under test (18 R453). -/
def State.spareStatus (s : State) (n : Nat) : Nat :=
  let q := s.sector n
  bitsAt 24 ((q.test.map CoreTest.phys).getD q.spareIndex) + flagAt 23 q.spareValid + flagAt 22 q.test.isSome
    + (Tab.get s.ao.fenced 0 n).toNat

/-- NET_STEP_CFG[k] -/
def NetSt.cfgWord (n : NetSt) : Nat :=
  flagAt 31 (n.image != 0) + flagAt 30 n.lockstep + bitsAt 28 n.source.kind + bitsAt 24 n.source.ch + n.source.period

/-- PHASE of the step master (05, NET_STEP_STATUS). -/
def State.phaseOf (s : State) (k : Nat) : Nat :=
  let n := s.net k
  if n.phase = 0 then (if n.running then 3 else 0)
  else if n.lockstep then n.phase
  else if n.held || s.now < n.cN then 1 else if s.now < n.dN then 2 else 3

/-- NET_STEP_STATUS[k] -/
def State.netStatus (s : State) (k : Nat) : Nat :=
  bitsAt 30 (s.phaseOf k) + flagAt 29 (s.net k).tickHeld + bitsAt 24 (s.net k).events

/-- A mesh link of sector n runs through its dual-clock FIFO: the sectors' programmed frequencies differ (01 R24). -/
def State.linkAsync (s : State) (n port : Nat) : Bool :=
  let absent := (port = 0 && n % 4 = 0) || (port = 1 && n % 4 = 3)
  !absent && (s.sector n).op != (s.sector (neighbour n port)).op

/-- SECTOR_NET_STATUS[n] -/
def State.sectorStatus (s : State) (n : Nat) : Nat :=
  flagAt 31 (s.linkAsync n 0) + flagAt 30 (s.linkAsync n 1) + flagAt 29 (s.linkAsync n 2) + flagAt 28 (s.sector n).aligned
    + bitsAt 4 (s.sector n).netEvents

/-- The registers of network slot k. -/
def State.regNet (s : State) (k r : Nat) : Nat :=
  let n := s.net k
  match r with
  | 0x00 => n.step % 2 ^ 32
  | 0x04 => n.stepHi.toNat
  | 0x08 => n.cfgWord
  | 0x0C => n.margin
  | 0x10 => n.refreshQ
  | 0x14 => s.netStatus k
  | _ => 0

/-- NET_TRAIN_POS[k] -/
def NetSt.posWord (n : NetSt) : Nat := if n.backward then 2 ^ 31 + (n.pos - n.fwd + 1) else n.pos

/-- EXPERT_BIND_STATUS[b] -/
def BindSt.word (b : BindSt) : Nat :=
  if b.valid then 2 ^ 31 + bitsAt 29 b.state + bitsAt 16 b.cap + b.expert else 0

/-- The registers of fabric port p (11). -/
def PortSt.reg (o : PortSt) (r : Nat) : Nat :=
  match r with
  | 0x00 => bitsAt 29 o.state + bitsAt 27 o.lanes + bitsAt 26 o.variant + flagAt 25 o.ofsValid + flagAt 24 (o.injMode != 0)
      + bitsAt 20 o.laneBad.toNat + o.events
  | 0x04 => o.offset.toNat
  | 0x08 => bitsAt 16 o.delay + fld o.rate 15 0
  | 0x0C => o.at_.toNat
  | 0x10 => bitsAt 16 o.injMode + o.injN
  | _ => 0

/-- The registers at 0x0002_0000 to 0x0002_2FFF. -/
def State.regCompute (s : State) (o : Nat) : Nat :=
  if o < 0x20200 then s.coreMapWord ((o - 0x20000) / 4)
  else if o < 0x20220 then s.spareStatus ((o - 0x20200) / 4)
  else if o < 0x21000 then 0
  else if o < 0x21200 then s.regNet ((o - 0x21000) / 0x20) (o % 0x20)
  else if o < 0x21240 then
    let n := s.net ((o - 0x21200) / 4)
    flagAt 31 n.holdEn + flagAt 30 n.held
  else if o < 0x21400 then 0
  else if o < 0x21480 then
    let n := s.net ((o - 0x21400) / 8)
    if o % 8 = 0 then bitsAt 16 n.fwd + n.bwd else n.posWord
  else if o < 0x21600 then 0
  else if o < 0x21700 then (s.bind ((o - 0x21600) / 4)).word
  else if o < 0x21800 then 0
  else if o < 0x21820 then s.sectorStatus ((o - 0x21800) / 4)
  else if o < 0x22000 then 0
  else if o < 0x22300 then (s.port ((o - 0x22000) / 0x40)).reg (o % 0x40)
  else if o = 0x22400 then s.deviceId
  else if o = 0x22800 then
    let g := s.gddr
    flagAt 28 g.ecc + flagAt 27 g.clam + bitsAt 22 g.devices + bitsAt 16 g.rate + g.usable
  else if 0x22810 ≤ o && o < 0x22840 then
    let c := (o - 0x22810) / 4
    bitsAt 30 (Tab.get s.gddr.state 0 c) + Tab.get s.gddr.events 0 c
  else 0

/-! ### Timers, streams and lines (15) -/

/-- The registers of timer channel c. -/
def State.regTimer (s : State) (c r : Nat) : Nat :=
  let t := s.tmr c
  match r with
  | 0x00 => s.tmrCtrl c
  | 0x04 => t.div
  | 0x08 => t.count
  | 0x0C => t.limit
  | 0x10 => t.snap0
  | 0x14 => t.snap1
  | 0x18 => t.snapcfg.toNat
  | 0x1C => t.statusWord
  | 0x20 => t.pairHi
  | _ => 0

/-- The registers of stream context n. -/
def StcSt.reg (c : StcSt) (r : Nat) : Nat :=
  match r with
  | 0x0 => if c.bound then 2 ^ 31 + bitsAt 29 c.skind + bitsAt 25 c.net + bitsAt 19 c.ifn + bitsAt 14 c.resLog2 else 0
  | 0x4 => ((upTo 4).map fun q => flagAt (28 + q) (c.isPosted q)).sum + c.status
  | 0x8 => bitsAt 16 c.prod + c.cons
  | _ => 0

/-- LOUT_CFG[p] -/
def State.loutCfg (s : State) (p : Nat) : Nat :=
  let l := s.loutPin p
  flagAt 31 (s.loutLevel p) + flagAt 30 l.asserted + flagAt 27 l.pulse + flagAt 26 l.pol + flagAt 25 l.ensInit + l.width

/-- The registers at 0x0002_3000 to 0x0002_3FFF. -/
def State.regLines (s : State) (o : Nat) : Nat :=
  if o < 0x23400 then s.regTimer ((o - 0x23000) / 0x40) (o % 0x40)
  else if o = 0x23400 then s.ao.toutMap.toNat
  else if 0x23800 ≤ o && o < 0x23A00 then (s.stc ((o - 0x23800) / 0x10)).reg (o % 0x10)
  else if 0x23C00 ≤ o && o < 0x23C20 then s.loutCfg ((o - 0x23C00) / 4)
  else 0

/-- The registers at 0x0002_4000 to 0x0002_6FFF. -/
def State.regSystem (s : State) (o : Nat) : Nat :=
  if o = 0x24000 then s.pwrStatus
  else if 0x24010 ≤ o && o < 0x24030 then s.sectorClk ((o - 0x24010) / 4)
  else if o = 0x24040 then s.thermStatus
  else if o = 0x24800 then s.bootStatus
  else if 0x24810 ≤ o && o < 0x24830 then s.repairStatus ((o - 0x24810) / 4)
  else if o = 0x25000 then s.faultStatus
  else if o = 0x25010 then s.ensignStatus
  else if o = 0x25018 then s.halyardStatus
  else if o = 0x25400 then s.securityStatus
  else if 0x26000 ≤ o && o < 0x26080 then
    let q := s.sector ((o - 0x26000) / 0x10)
    if o % 0x10 = 0 then q.traceWr else if o % 0x10 = 4 then q.traceRd else 0
  else if o = 0x26080 then s.traceCtrl.toNat
  else 0

/-! ### Mailboxes (13) -/

/-- OUTSTANDING: accepted commands with SEQ above MB_CONSUMED. -/
def MboxSt.outstanding (b : MboxSt) : Nat := b.next - 1 - b.consumed

/-- MB_STATUS -/
def MboxSt.statusReg (b : MboxSt) : Nat := flagAt 31 b.busy + flagAt 30 b.session + bitsAt 24 b.outstanding

/-- MB_ACCEPT -/
def MboxSt.acceptReg (b : MboxSt) : Nat := bitsAt 24 b.accCode + bitsAt 8 b.accReason + flagAt 7 b.accDup

/-- The 64-bit mailbox registers: 0 MB_ACCEPT_SEQ, 1 MB_NEXT_SEQ, 2 MB_CONSUMED. -/
def MboxSt.wide (b : MboxSt) (r : Nat) : Nat := if r = 0 then b.accSeq else if r = 1 then b.next else b.consumed

/-- A register of mailbox m, or bytes of its slots. -/
def State.regMailbox (s : State) (m r : Nat) : Nat :=
  let b := s.mb m
  if r < 0x1000 then memNat b.slot r 4
  else if r < 0x2000 then memNat b.comp (r - 0x1000) 4
  else match r with
  | 0x2004 => b.statusReg
  | 0x2008 => b.acceptReg
  | 0x2010 => b.accSeq % 2 ^ 32
  | 0x2014 => (Tab.get b.latch 0 0).toNat
  | 0x2018 => b.next % 2 ^ 32
  | 0x201C => (Tab.get b.latch 0 1).toNat
  | 0x2020 => b.consumed % 2 ^ 32
  | 0x2024 => (Tab.get b.latch 0 2).toNat
  | 0x2028 => b.event
  | _ => 0

/-! ### Every register -/

/-- The word at a register offset of BAR0 outside the counter windows (R528). -/
def State.regWord (s : State) (o : Nat) : Nat :=
  if o < 0x2000 then s.regPage0 o
  else if o < 0x20000 then 0
  else if o < 0x23000 then s.regCompute o
  else if o < 0x24000 then s.regLines o
  else if o < 0x30000 then s.regSystem o
  else if 0x100000 ≤ o && o < 0x120000 then s.regMailbox ((o - 0x100000) / 0x4000) (o % 0x4000)
  else 0

/-- The register carries the tag COMPUTE or SECTOR (R528), or shows a counter block with one of those tags or CORE. -/
def computeTag (o : Nat) : Bool :=
  (0x21000 ≤ o && o < 0x21600) || (0x21800 ≤ o && o < 0x21820) || (0x210000 ≤ o && o < 0x2B0000)

/-- A boot that failed before its firmware was verified (R525). -/
def State.bootFailed (s : State) : Bool := s.boot.phase == 9 && !s.boot.fwVerified

/-- The compute partition is in reset, or held after a FATAL fault. -/
def State.computeHeld (s : State) : Bool := s.boot.crStep != 0 || s.fault.fatal

end Sys2Proof.Machine
end

