-- ==== Sys2Proof/Machine/Counters.lean ====
section
/-! DEFINITION. Counters.lean: the counter blocks (20 R505 to R509), their BAR0 windows, what a read of BAR0 finds (21
R525), READ_COUNTERS (14 R372), and the trace rings (20 R515 to R518). -/

namespace Sys2Proof.Machine

/-! ### Slots of a block (20 R506) -/

/-- A slot: counter ID, sub-index, kind, value. -/
structure Slot where
  /-- counter ID -/
  id : Nat
  /-- sub-index -/
  sub : Nat
  /-- kind -/
  kind : Nat
  /-- value -/
  value : Nat
  deriving DecidableEq, Repr

/-- The 16 bytes of a slot. -/
def Slot.bytes (x : Slot) : List Byte := toLe 2 x.id ++ toLe 2 x.sub ++ toLe 1 x.kind ++ zeros 3 ++ toLe 8 x.value

/-- The kinds of slot that a counter has: 0 running; 1 and 2 per step; 3 level. -/
def slotKinds (k : Nat) : List Nat := if k = 1 then [1, 2] else if k = 2 then [3] else [0]

/-- The slots of a block, in ascending counter ID; a core's programmable counters come last. -/
def State.slots (s : State) (scope idx : Nat) : List Slot :=
  ((ctrRows.filter fun r => r.2.1 == scope).flatMap fun r => r.2.2.2.flatMap fun sub => (slotKinds r.2.2.1).map fun k =>
      { id := r.1, sub := sub, kind := k, value := s.ctrAt scope idx r.1 sub k })
    ++ if scope = Scope.core then (upTo 16).map fun i =>
        { id := 0x300 + i, sub := noSub, kind := 0, value := (Tab.get (s.core idx).pmcs {} i).value.toNat }
      else []

/-- The header of a block. -/
def State.blockHeader (s : State) (scope idx n : Nat) : List Byte :=
  let h := Tab.get s.snap (0, 0) (scope * 65536 + idx)
  toLe 2 n ++ toLe 2 scope ++ toLe 4 idx ++ toLe 8 h.1 ++ toLe 8 h.2
    ++ toLe 4 (if scope = Scope.core then (s.core idx).mark else 0xFFFFFFFF) ++ zeros 4 ++ toLe 8 s.now ++ zeros 24

/-- A block as R506 lays it out. -/
def State.ctrBlock (s : State) (scope idx : Nat) : List Byte :=
  let l := s.slots scope idx
  s.blockHeader scope idx l.length ++ l.flatMap Slot.bytes

/-- The programmable counters with their values cleared. -/
def pmcsZero (t : Tab Pmc) : Tab Pmc :=
  t.filterMap fun e =>
    let p : Pmc := { e.2 with value := 0 }
    if p = {} then none else some (e.1, p)

/-- Every counter of a block that was copied is cleared; the running value of the open step goes on (14 R372). -/
def State.clearBlock (s : State) (scope idx : Nat) : State :=
  let s := (s.slots scope idx).foldl (fun s x => if x.id < 0x300 then s.ctrPut scope idx x.id x.sub x.kind 0 else s) s
  if scope ≠ Scope.core then s
  else s.modCore idx fun k => { k with pmcs := pmcsZero k.pmcs }

/-- READ_COUNTERS. -/
def execReadCounters (mb : MboxId) (s : State) : Res :=
  .next <| s.runCmd mb.val 0x61 fun s e =>
    let scope := leAt e.cmd 0x40 1
    let idx := leAt e.cmd 0x44 4
    let bytes := s.ctrBlock scope idx
    let s := if leAt e.cmd 0x41 1 = 1 then s.clearBlock scope idx else s
    s.finishResult mb.val e bytes

/-! ### The counter windows (20 R507) -/

/-- The block and the offset in it of a BAR0 offset: (scope, index, offset). -/
def ctrPlace (o : Nat) : Option (Nat × Nat × Nat) :=
  if o < 0x200000 then none
  else if o < 0x210000 then some (Scope.device, 0, o - 0x200000)
  else if o < 0x218000 then some (Scope.sector, (o - 0x210000) / 0x1000, o % 0x1000)
  else if o < 0x220000 then none
  else if o < 0x2A0000 then some (Scope.core, (o - 0x220000) / 0x1000, o % 0x1000)
  else if o < 0x2B0000 then some (Scope.net, (o - 0x2A0000) / 0x1000, o % 0x1000)
  else if o < 0x2BC000 then some (Scope.port, (o - 0x2B0000) / 0x1000, o % 0x1000)
  else if o < 0x2C0000 then none
  else if o < 0x2C2800 then some (Scope.mailbox, (o - 0x2C0000) / 0x400, o % 0x400)
  else if o < 0x2C4000 then none
  else if o < 0x2CC000 then some (Scope.stream, (o - 0x2C4000) / 0x400, o % 0x400)
  else none

/-- The low word of a 64-bit value whose high word its read latches: a slot's value, or the time of the header. -/
def isCtrLow (p : Nat) : Bool := p == 0x20 || (64 ≤ p && p % 16 == 8)

/-- The word at an offset of the counter windows; the high words of slots and of the header's time are those latched. -/
def State.windowWord (s : State) (o : Nat) : Nat :=
  match ctrPlace o with
  | none => 0
  | some (sc, i, p) =>
    if p = 0x24 || (64 ≤ p && p % 16 == 12) then (Tab.get s.pcie.ctrLatch 0 (o - 4)).toNat
    else leAt (s.ctrBlock sc i) (p / 4 * 4) 4

/-- A read of a low word latches its high word. -/
def State.windowLatch (s : State) (o : Nat) : State :=
  match ctrPlace o with
  | none => s
  | some (sc, i, p) =>
    if !isCtrLow p then s
    else
      let hi := BitVec.ofNat 32 (leAt (s.ctrBlock sc i) (p + 4) 4)
      s.modPcie fun x => { x with ctrLatch := Tab.set x.ctrLatch 0 o hi }

/-! ### What a read of BAR0 finds (21 R525, 16 R421) -/

/-- The word at an offset of the register pages. -/
def State.barWord (s : State) (o : Nat) : Nat := if o < 0x200000 then s.regWord o else s.windowWord o

/-- The registers of the host-wake island, which stay live in P3: page 0 and the mailboxes (16 R421). -/
def islandReg (o : Nat) : Bool := o < 0x1000 || (0x100000 ≤ o && o < 0x120000)

/-- The blocks of the windows with their offsets (20 R507), in ascending offset. -/
def ctrBlocks : List (Nat × Nat × Nat) :=
  let many (sc n base stride : Nat) : List (Nat × Nat × Nat) := (upTo n).map fun i => (sc, i, base + stride * i)
  [(Scope.device, 0, 0x200000)] ++ many Scope.sector 8 0x210000 0x1000 ++ many Scope.core 128 0x220000 0x1000
    ++ many Scope.net 16 0x2A0000 0x1000 ++ many Scope.port 12 0x2B0000 0x1000 ++ many Scope.mailbox 10 0x2C0000 0x400
    ++ many Scope.stream 32 0x2C4000 0x400

/-- Words from offset o on, as a table that lists those that are not 0. -/
def wordsFrom (o : Nat) (l : List Nat) : Tab Word32 :=
  (l.zipIdx.filter fun x => x.1 != 0).map fun x => (o + 4 * x.2, BitVec.ofNat 32 x.1)

/-- The shadow that the island takes on entry to P3: every word of BAR0 outside the island. -/
def State.takeShadow (s : State) : State :=
  let regs := wordsFrom 0x1000 [s.regWord 0x1000, s.regWord 0x1004]
    ++ wordsFrom 0x20000 ((upTo 0x1840).map fun i => s.regWord (0x20000 + 4 * i))
  let blocks := ctrBlocks.flatMap fun b => wordsFrom b.2.2 (numbers 4 (s.ctrBlock b.1 b.2.1))
  s.modPcie fun p => { p with shadow := regs ++ blocks }

/-- What a read of the word at offset o finds (R525). -/
def State.regRead (s : State) (o : Nat) : Nat :=
  let early := o < 0x1000 || o = 0x24800
  if !s.bar0Open then 0
  else if s.bootFailed then if o < 0x2000 || o = 0x24800 then s.barWord o else State.reset.barWord o
  else if !s.boot.devReady then if early then s.barWord o else State.reset.barWord o
  else if s.ao.pstate = 3 && !islandReg o then (Tab.get s.pcie.shadow 0 o).toNat
  else if s.computeHeld && computeTag o then 0
  else s.barWord o

/-- A read of the word at offset o takes effect on the register itself: what answers is the register, not its reset value,
its shadow or a held 0. -/
def State.readActs (s : State) (o : Nat) : Bool :=
  s.bar0Open && !(s.bootFailed && !(o < 0x2000)) && (s.boot.devReady || s.bootFailed || o < 0x1000)
    && !(s.ao.pstate = 3 && !islandReg o) && !(s.computeHeld && computeTag o)

/-! ### Trace rings (20 R515, R517, R518) -/

/-- The trace buffer of the image that HANDLE names: base and size. -/
def State.traceBuffer (s : State) (h : Nat) : Option (Nat × Nat) :=
  (s.regions.find? fun r => r.kind == 5 && r.image == h && h != 0).map fun r => (r.base, r.size)

/-- Records that one of the eight sector rings of a trace buffer holds. -/
def ringRecords (size : Nat) : Nat := size / 8 / 32

/-- The oldest staged record of sector n is lost: TRACE_DROP, and the next one written carries GAP. -/
def SectorSt.loseRecord (q : SectorSt) : SectorSt :=
  match q.traceStage with
  | _ :: r :: t => { q with traceStage := putBytes r 9 [1] :: t }
  | _ => { q with traceStage := [], traceGap := true }

/-- TRACE_RECORD_MOVE: the oldest staged record goes to the sector's ring in GDDR6; with WRAP 0 a record that finds the
ring full is lost. -/
def execTraceRecordMove (sector : SectorId) (s : State) : Res :=
  .next <|
    let n := sector.val
    let q := s.sector n
    match q.traceStage, s.traceBuffer (fld s.traceCtrl 15 0) with
    | r :: t, some (base, size) =>
      let d := ringRecords size
      if !s.sectorRuns n || d = 0 then s
      else if !nbit s.traceCtrl.toNat 30 && d ≤ (q.traceWr + 2 ^ 32 - q.traceRd) % 2 ^ 32 then
        (s.setSector n q.loseRecord).countSec n Ctr.traceDrop
      else
        let s := s.setSector n { q with traceStage := t, traceWr := (q.traceWr + 1) % 2 ^ 32 }
        let s := s.gWrite (base + n * (size / 8) + 32 * (q.traceWr % d)) r .host
        (s.countSec n Ctr.traceRecords).countSec n Ctr.smemBytes 0 32
    | _, _ => s

end Sys2Proof.Machine
end

