-- ==== Sys2Proof/Machine/RunCmds.lean ====
section
/-! DEFINITION. RunCmds.lean: HELLO and GET_INFO (13 R339, R340; 14 R349 to R351), the commands that run networks (05 R135,
R136; 14 R361, R362) and those of ensign mode (14 R373; 18 R462 to R468). -/

namespace Sys2Proof.Machine

/-! ### HELLO and GET_INFO -/

/-- The granted bitmap (R340): what is requested and supported, with bits 10 and 11 as they stand. -/
def State.grant (s : State) (wanted : Nat) : Nat := (wanted &&& 0x3FF) + flagAt 10 s.gddr.ecc + flagAt 11 s.gddr.clam

/-- HELLO. -/
def execHello (mb : MboxId) (s : State) : Res :=
  .next <| s.runCmd mb.val 0x01 fun s e =>
    let m := mb.val
    let c := e.cmd
    if !(leAt c 0x40 1 ≤ 1 && 1 ≤ leAt c 0x41 1) then s.refuse m e codeVersion Why.noCommonVersion
    else
      let g := s.grant (leAt c 0x48 16)
      (s.modMb m fun b => { b with session := true, granted := BitVec.ofNat 128 g }).finish m e
        (toLe 1 1 ++ toLe 1 0 ++ toLe 1 1 ++ toLe 1 0 ++ toLe 4 s.ao.epoch ++ toLe 16 g)

/-- Free bytes of the image area (12 R309, R310). -/
def State.freeArea (s : State) : Nat := s.gddr.top - s.gddr.imageBase - (s.placed.map Prod.snd).sum

/-- The free bytes that run from device address a. -/
def State.freeFrom (s : State) (a : Nat) : Nat :=
  if s.placed.any fun r => decide (r.1 ≤ a) && decide (a < r.1 + r.2) then 0
  else s.placed.foldl (fun m r => if a ≤ r.1 then min m (r.1 - a) else m) (s.gddr.top - a)

/-- The largest free block of the image area. -/
def State.largestFree (s : State) : Nat :=
  ((s.gddr.imageBase :: s.placed.map fun r => r.1 + r.2).map s.freeFrom).foldl max 0

/-- Page 0 (R351). -/
def State.infoPage0 (s : State) : List Byte :=
  toLe 1 1 ++ toLe 1 s.sec.lc ++ toLe 2 s.deviceId ++ toLe 4 s.sec.fwVersion.toNat ++ toLe 8 (deviceSerial)
    ++ toLe 4 s.ao.epoch ++ toLe 1 (b2n s.ao.ownerSouth)
    ++ toLe 1 (if s.fault.ensActive then 2 else b2n s.fault.ensSet)
    ++ toLe 1 (if s.gddr.rejected then codeFault else if s.boot.gddrReady then codeDone else 0)
    ++ toLe 1 s.powerState
    ++ toLe 2 ((upTo 128).filter fun c => (s.sector (sectorOf c)).mstate (indexOf c) != 2).length
    ++ toLe 2 (s.freeSlots.foldl nsetBit 0) ++ zeros 4
    ++ toLe 8 s.gddr.top ++ toLe 8 s.freeArea ++ toLe 8 s.largestFree ++ toLe 16 s.features

/-- Page 1: every logical core. -/
def State.infoPage1 (s : State) : List Byte :=
  (upTo 128).flatMap fun c => toLe 4 (s.coreMapWord c) ++ toLe 4 (if (s.core c).net = 0 then 0xFF else (s.core c).net - 1)

/-- Page 2: every placed region. -/
def State.infoPage2 (s : State) : List Byte :=
  s.regions.flatMap fun r =>
    toLe 1 r.kind ++ toLe 1 r.net ++ toLe 2 r.image ++ zeros 4 ++ toLe 8 r.base ++ toLe 8 r.size ++ zeros 8

/-- Page 3: every network slot. -/
def State.infoPage3 (s : State) : List Byte :=
  (upTo 16).flatMap fun k =>
    let n := s.net k
    toLe 2 n.image ++ toLe 4 n.cfgWord ++ zeros 2 ++ toLe 8 n.step ++ toLe 4 (s.netStatus k) ++ zeros 12

/-- Page 4: the fault record (18 R460). -/
def State.infoPage4 (s : State) : List Byte :=
  let l := s.fault.log.take 256
  toLe 4 l.length ++ toLe 4 s.fault.entriesCold
    ++ ((upTo 8).flatMap fun n => toLe 4 (Tab.get s.ao.fenced 0 n).toNat)
    ++ ((upTo 8).flatMap fun n => toLe 8 (Tab.get s.ao.badBanks 0 n).toNat)
    ++ toLe 1 (b2n s.ao.northFenced + 2 * b2n s.ao.southFenced) ++ zeros 23 ++ l.flatten

/-- A page of GET_INFO (R350). -/
def State.infoPage (s : State) (p : Nat) : List Byte :=
  match p with
  | 0 => s.infoPage0
  | 1 => s.infoPage1
  | 2 => s.infoPage2
  | 3 => s.infoPage3
  | _ => s.infoPage4

/-- GET_INFO. -/
def execGetInfo (mb : MboxId) (s : State) : Res :=
  .next <| s.runCmd mb.val 0x02 fun s e => s.finishResult mb.val e (s.infoPage (leAt e.cmd 0x40 2))

/-! ### SET_STEP_SOURCE (05 R128, R135; 14 R361; 15 R387, R399, R400) -/

/-- A channel supplies, or is to supply, a network other than k. -/
def State.channelTaken (s : State) (k ch : Nat) : Bool :=
  let uses (x : StepSource) : Bool := (x.kind == 1 || x.kind == 2) && x.ch == ch
  (upTo 16).any fun j => j != k && (s.net j).image != 0 && (uses (s.net j).source || ((s.net j).nextSource.any uses))

/-- A channel programmed to follow an encoder on pin `tin` (15 R393, R394). -/
def TimerSt.slavedTo (t : TimerSt) (c tin : Nat) : Bool :=
  t.on && (t.tickSel == 1 || t.tickSel == 2) && t.pin == tin && t.pinGate == 0 && t.follow == 0 && !t.paired c

/-- A source that a network may take: policy, margin and the guard times of its bound stream contexts. -/
def State.sourceFits (s : State) (k kind period : Nat) : Bool :=
  let n := s.net k
  let home := s.homeNet == some k
  (if n.lockstep then kind != 2 else kind != 3) && (!home || kind == 3)
    && (n.lockstep || (n.margin + 100 ≤ period && (upTo 32).all fun i =>
      !(s.stc i).bound || (s.stc i).net != k || (s.rfn (s.stc i).ifn).guardFits period n.margin))

/-- The channel of a TIMER source runs free at the period (15 R400). -/
def TimerSt.freeRunning (t : TimerSt) (period : Nat) : TimerSt :=
  let c := nput (nput (nput t.ctrl.toNat 28 27 0) 17 16 0) 26 24 0
  ({ t with ctrl := BitVec.ofNat 32 c, div := 0, pre := 0, limit := period - 1, on := true }).setCount 0

/-- SET_STEP_SOURCE. -/
def execSetStepSource (mb : MboxId) (s : State) : Res :=
  .next <| s.runCmd mb.val 0x22 fun s e =>
    let m := mb.val
    let k := cmdNet e.cmd
    let kind := leAt e.cmd 0x40 1
    let ch := if kind = 3 then 0 else leAt e.cmd 0x41 1
    let period := leAt e.cmd 0x44 4
    s.needNet m e fun s => s.needNotShed m e fun s =>
      if !s.sourceFits k kind period || (kind != 3 && s.channelTaken k ch) then s.refuse m e codeState Why.badField
      else if kind = 2 && !(s.tmr ch).slavedTo ch (leAt e.cmd 0x42 1) then s.refuse m e codeState Why.noSource
      else
        let s := if kind = 1 then s.modTmr ch fun t => t.freeRunning period else s
        let src : StepSource := { kind := kind, ch := ch, period := period }
        let s := s.finish m e
        if (s.net k).running then
          (s.modNet k fun n => { n with nextSource := some src, tickHeld := false }) |> fun s => if kind = 3 then s.tryOpen k else s
        else s.modNet k fun n => { n with source := src, nextSource := none }

/-! ### RUN and HALT_RUN (05 R136; 14 R362) -/

/-- RUN. -/
def execRun (mb : MboxId) (s : State) : Res :=
  .next <| s.runCmd mb.val 0x23 fun s e =>
    let m := mb.val
    let k := cmdNet e.cmd
    s.needNet m e fun s => s.needNotShed m e fun s =>
      let n := s.net k
      if n.blocked then s.refuse m e codeState Why.coreUnavailable
      else if n.source.kind = 0 then s.refuse m e codeState Why.noSource
      else if n.running then s.refuse m e codeState Why.netRunning
      else (s.finish m e).startNet k

/-- HALT_RUN: completes once the step has ended on every core. -/
def execHaltRun (mb : MboxId) (s : State) : Res :=
  .next <| s.runCmd mb.val 0x24 fun s e =>
    let m := mb.val
    let k := cmdNet e.cmd
    s.needNet m e fun s => s.needNotShed m e fun s =>
      if !(s.net k).running then s.finish m e [1]
      else ((s.park m e).modNet k fun n => { n with halting := m + 1 }).haltCheck k

/-! ### Ensign mode -/

/-- SET_ENSIGN. -/
def execSetEnsign (mb : MboxId) (s : State) : Res :=
  .next <| s.runCmd mb.val 0x70 fun s e =>
    let m := mb.val
    let k := cmdNet e.cmd
    s.needNet m e fun s => s.needNotShed m e fun s =>
      if !(s.net k).isEnsign then s.refuse m e codeState Why.badField
      else if s.fault.ensActive then s.refuse m e codeState Why.ensignActive
      else (s.modFault fun f => { f with
        ensSet := true, ensNet := k, ensEnabled := nfld (leAt e.cmd 0x40 1) 3 0, hbMs := leAt e.cmd 0x44 4
        hbLast := s.now }).finish m e

/-- ENTER_ENSIGN. -/
def execEnterEnsign (mb : MboxId) (s : State) : Res :=
  .next <| s.runCmd mb.val 0x71 fun s e =>
    let m := mb.val
    if !s.fault.ensSet then s.refuse m e codeState Why.noEnsign else s.platform ((s.enterEnsign 5).finish m e)

/-- The shed networks of image h are loaded again, halted, from its copy; a copy that fails its check is not (R467, 17
R443). -/
def State.reloadShed (s : State) (h : Nat) : State :=
  let r := Tab.get s.images {} h
  let shed := r.slots.filter fun k => (s.net k).shed
  if shed.isEmpty then s
  else match s.imageOf h with
    | none => s
    | some g =>
      if !s.copyGood h then
        ((r.slots.foldl State.haltNow s).freeImage h).logFault classUncorr 4 0 1
      else
        let back := (g.nets.zip r.slots).filter fun x => shed.contains x.2
        let cs := g.coreNums.filter fun c => (g.netOf c).any fun n => back.any fun x => x.1.idx == n.idx
        let s := back.foldl (fun s x => s.modNet x.2 fun n => { n.reloaded (g.netSt h r.digest x.1) with shed := false }) s
        let s := cs.foldl (fun s c => s.installCore g h r.slots c) s
        -- the synchronisation objects granted to these networks
        let mine (t : Rec) : Bool := t.kind == 0x0102 && (s.sector t.target).grants.any fun q =>
          shed.contains q.1 && q.2.2.2.1 ≤ t.num && t.num < q.2.2.2.1 + q.2.2.2.2
        (g.recs.filter mine).foldl (g.sectorRec r.slots) s

/-- LEAVE_ENSIGN. -/
def execLeaveEnsign (mb : MboxId) (s : State) : Res :=
  .next <| s.runCmd mb.val 0x72 fun s e =>
    let m := mb.val
    if !s.fault.ensActive then s.finish m e
    else if (upTo 4).any s.trigHolds then s.refuse m e codeState Why.triggerActive
    else
      let s0 := s
      let s := (s.modFault fun f => { f with ensActive := false }).raiseDev 9
      let s := (Tab.keys s.images).foldl State.reloadShed s
      s0.platform ((s.logFault classNotice 13 0 0).finish m e)

end Sys2Proof.Machine
end

