-- ==== Sys2Proof/Machine/Reset.lean ====
section
/-! DEFINITION. Reset.lean: bring-up, repair and the resets (17 R427 to R445), with the firmware check of the boot ROM (19
R484) and the journal replay (13 R342, R553). -/

namespace Sys2Proof.Machine

/-! ### Firmware images (19 R484) -/

/-- Length of a firmware slot (19 R483). -/
abbrev slotBytes : Nat := 0x1000000

/-- BODY_LEN of a firmware image. -/
def fwBodyLen (b : List Byte) : Nat := leAt b 0x0C 4

/-- n bytes of a slot from its start: what was written, then what the board came with. -/
def slotRead (board n : Nat) (b : List Byte) : List Byte :=
  b.take n ++ (upTo (n - b.length)).map fun i => Config.flashByte board (b.length + i)

/-- The checks of R484 on a slot's contents, in order: MAGIC, BODY_LEN, KEY, SVN, body digest, signature; `svn` is the
minimum SVN. -/
def SecSt.fwOk (q : SecSt) (svn board : Nat) (b : List Byte) : Bool :=
  let h := slotRead board 0x90 b
  let key := leAt h 0x07 1
  leAt h 0 4 == 0x57465A47 && 0x90 + fwBodyLen h ≤ slotBytes
    && (key == 0 || (key == 1 && (q.lc == 0 || q.lc == 1) && !q.devRevoked))
    && svn ≤ leAt h 0x06 1 && leAt h 0x06 1 ≤ 63
    && sha512 ((slotRead board (0x90 + fwBodyLen h) b).drop 0x90) == (h.drop 0x10).take 64
    && Config.sigOk key (h.take 0x50) ((h.drop 0x50).take 64)

/-- A slot verifies: one whose contents came with the board by what the boot ROM found and by its SVN, else by its bytes
(log 11). -/
def SecSt.slotOk (q : SecSt) (svn board : Nat) (b : List Byte) (found : Bool) : Bool :=
  if b.isEmpty then found && svn ≤ (Config.flashSvn board).toNat else q.fwOk svn board b

/-- The contents of a slot: 0 A, 1 B. -/
def SecSt.slot (q : SecSt) (slot : Nat) : List Byte := if slot = 0 then q.slotA else q.slotB

/-- The board image for which an empty slot stands. -/
def SecSt.slotBoard (q : SecSt) (slot : Nat) : Nat := if slot = 0 then q.boardA else q.boardB

/-- The digest of the firmware image in a slot, header and body. -/
def SecSt.fwDigest (q : SecSt) (slot : Nat) : List Byte :=
  let b := q.slot slot
  let h := slotRead (q.slotBoard slot) 0x90 b
  if b.isEmpty then Config.flashDigest (q.slotBoard slot) else sha512 (slotRead (q.slotBoard slot) (0x90 + fwBodyLen h) b)

/-- FW_VERSION of the image in a slot. -/
def SecSt.slotVersion (q : SecSt) (slot : Nat) : Word32 :=
  let b := q.slot slot
  if b.isEmpty then Config.flashVersion (q.slotBoard slot) else BitVec.ofNat 32 (leAt (slotRead (q.slotBoard slot) 0x90 b) 0x08 4)

/-- SVN of the image in a slot. -/
def SecSt.slotSvn (q : SecSt) (slot : Nat) : Nat :=
  let b := q.slot slot
  if b.isEmpty then (Config.flashSvn (q.slotBoard slot)).toNat else leAt (slotRead (q.slotBoard slot) 0x90 b) 0x06 1

/-! ### What the resets keep (17 R441; 00 R13) -/

/-- The security core at a device or cold reset: fuses and flash stay, a pending life-cycle change takes effect, and
authorisation, nonce, update and sideband state end (19 R477, R479, R480, R492). -/
def SecSt.rebooted (q : SecSt) : SecSt :=
  { lc := if q.lcPending = 0 then q.lc else q.lcPending - 1, svnMin := q.svnMin, certWritten := q.certWritten
    erased := q.erased || 4 ≤ q.lcPending, devRevoked := q.devRevoked || (q.lcPending == 3)
    slotA := q.slotA, slotB := q.slotB, boardA := q.boardA, boardB := q.boardB, flashSoft := q.flashSoft
    flashFence := q.flashFence, flashBanks := q.flashBanks, flashHal := q.flashHal }

/-- A mailbox after a device reset: MB_NEXT_SEQ, MB_CONSUMED and the completion records as the journal holds them (13 R330). -/
def MboxSt.replayed (b : MboxSt) : MboxSt :=
  { next := b.next, consumed := b.consumed, highDone := b.highDone, journal := b.journal, jhead := b.jhead
    endpoint := b.endpoint
    comp := (b.journal.filter fun e => e.st == 2).foldl (fun c e => memWrite c (64 * (e.seq % 64)) e.record) [] }

/-- The retransmit region through a device reset: what it holds of each flow (11 R286, 12 R312). -/
def State.keptRtx (s : State) : Tab (List Msg) :=
  s.flows.foldl (fun t x => if x.2.fstate = 0 then t else Tab.set t [] x.1 x.2.rtx) s.gddr.rtxKeep

/-- Accepted writes that wait for a channel complete (12 R312). -/
def State.drainGddr (s : State) : State :=
  (s.gddr.held.filter fun q => match q.op with
    | .write _ _ => true
    | .read => false).foldl State.gddrServe s

/-- GDDR6 contents, with the controllers' registers at reset. -/
def GddrSt.kept (g : GddrSt) (rtx : Tab (List Msg)) : GddrSt :=
  { mem := g.mem, poison := g.poison, ckpts := g.ckpts, rtxKeep := rtx }

/-- A timer channel at a device reset: stopped, its count and configuration held (15 R392). -/
def TimerSt.held (t : TimerSt) : TimerSt := { t with on := false, out := false }

/-- The always-on domain at a device reset. -/
def AoSt.resetDevice (a : AoSt) (cause : Nat) (srFailed : Bool) : AoSt :=
  { a with
    inReset := !(a.perstHigh && a.resetHigh) || cause == 6, pstate := 0, regLp := false, throttle := false, emergency := false
    coolSince := 0, resetCause := cause, ready := 0, srFailed := srFailed, waking := 0
    serving := false, selfFenced := 0, standbyUp := false, ensCopy := 0, ensignPending := 0 }

/-- A device reset begins (R439, R413): everything outside the always-on domain is at its reset value, with GDDR6 in
self-refresh, the journal kept in it, and what the flash holds. Its phases run from phase 2 once the pins are high. -/
def State.deviceReset (s : State) (cause : Nat) (srFailed : Bool) : State :=
  let s := s.drainGddr
  let lost := s.boot.bootErr == 4
  { pending := s.pending
    ao := s.ao.resetDevice cause srFailed
    timers := (s.timers.map fun t => (t.1, t.2.held)).filter fun t => t.2 != {}
    boot := { next := 2, cold := s.boot.cold && s.boot.next != 0 }
    board := s.board
    sectors := (s.sectors.map fun q => (q.1, ({ lastTest := q.2.lastTest } : SectorSt))).filter fun q => q.2 != {}
    mbox := if lost then [] else (s.mbox.map fun b => (b.1, b.2.replayed)).filter fun b => b.2 != {}
    accepted := s.accepted
    gddr := s.gddr.kept s.keptRtx
    fault := { log := s.fault.log, entriesCold := s.fault.entriesCold }
    sec := s.sec.rebooted
    out := s.out
    free := s.free }

/-- A cold reset: everything but the fuses, the flash and the board is at its reset value (R441). -/
def State.coldReset (s : State) (cause : Nat) : State :=
  { pending := s.pending, board := s.board, sec := s.sec.rebooted, out := s.out, free := s.free
    ao := { perstHigh := s.ao.perstHigh, resetHigh := s.ao.resetHigh, resetCause := cause } }

/-! ### Bring-up (R427 to R433) -/

/-- POWER_ON_RESET_RELEASE: MGT_SEL is sampled (19 R488) and the time base starts (21 R521). -/
def execPowerOnResetRelease (mgtSel : Bool) (s : State) : Res :=
  .next <|
    if s.ao.porReleased then s
    else s.modAo fun a => { a with porReleased := true, mgtI3c := mgtSel, time := 0 }

/-- Boot fails (R433). -/
def State.bootFail (s : State) (err : Nat) : State :=
  State.faultEdge s.faultLow { s with boot := { s.boot with phase := 9, bootErr := err, next := 0 } }

/-- Phase p of bring-up ends. -/
def State.phaseDone (s : State) (p : Nat) : State := { s with boot := { s.boot with phase := p - 1, next := p + 1 } }

/-- Phase 1: the always-on domain is ready. With a pin low the device holds there. -/
def State.phase1 (s : State) : State :=
  { s with
    timers := [], boot := { s.boot with next := 2 }
    ao := { s.ao with lastReset := s.ao.resetCause, inReset := !(s.ao.perstHigh && s.ao.resetHigh) } }

/-- Phase 2: the boot ROMs fetch and verify firmware, slot A first. `arg` says what the boot ROMs find: bits 0 and 1 that
the images that the board came with in slots A and B verify, bit 2 that the flash is unreadable, bits 3 and 4 that the north and the
south Halyard fail. The latch goes to the other Halyard when the one it names fails. -/
def State.phase2 (s : State) (arg : Nat) : State :=
  let q := s.sec
  let s := s.modAo fun a => { a with lastReset := a.resetCause }
  let fails (south : Bool) : Bool := nbit arg (3 + b2n south) || nbit q.flashHal (b2n south)
    || (if south then s.ao.southFenced else s.ao.northFenced)
  let own := s.ao.ownerSouth
  if q.lc = 4 then s.bootFail 6
  else if fails false && fails true then s.bootFail 5
  else if nbit arg 2 then s.bootFail 2
  else
    let ok (slot : Nat) : Bool := q.slotOk q.svnMin (q.slotBoard slot) (q.slot slot) (nbit arg (q.slotBoard slot))
    let a := ok 0
    if !a && !ok 1 then s.bootFail 1
    else
      let slot := if a then 0 else 1
      let s := if fails own then
          (s.modAo fun x => { x with ownerSouth := !own, epoch := (x.epoch + 1) % 2 ^ 32 }).raiseDev 2
        else s
      let s := s.modAo fun x => { x with selfFenced := b2n (fails false) + 2 * b2n (fails true) }
      let s := s.modSec fun x => { x with
        fwVersion := x.slotVersion slot, svnRun := x.slotSvn slot, fwMeasure := fitBytes 64 (x.fwDigest slot) ++ fitBytes 64 Config.boardDigest }
      { s with boot := { s.boot with fwVerified := true, fwSlot := slot } }.phaseDone 2

/-- Phase 3: fuse and repair load; on the cold path the fence list comes into the fault record (R435). -/
def State.phase3 (s : State) : State :=
  let q := s.sec
  let s := (upTo 8).foldl (fun s n => s.modSector n fun x => { x with
    softUsed := min 255 (Tab.get q.flashSoft 0 n), spareElem := Config.spareElems n - Tab.get q.flashSoft 0 n }) s
  let s := if s.boot.cold then
      s.modAo fun a => { a with
        fenced := q.flashFence, badBanks := q.flashBanks, northFenced := nbit q.flashHal 0, southFenced := nbit q.flashHal 1 }
    else s
  { s with boot := { s.boot with repairLoaded := true } }.phaseDone 3

/-- The memory configuration that the descriptor names is supported (12 R300 to R302, R309). -/
def BoardSt.memOk (b : BoardSt) : Bool :=
  b.density == 16 && !b.mixed && !b.partly && ([24, 28, 32, 36, 40] : List Nat).contains b.rate && 1 ≤ b.rtx64 && b.rtx64 ≤ 16 && 1 ≤ b.stg64 && b.stg64 ≤ 16

/-- Phase 4: firmware start; the descriptor is read and the PLLs start; no sector has a core of a loaded network (R409). -/
def State.phase4 (s : State) : State :=
  let b := s.board
  if !b.valid then s.bootFail 3
  else
    let s := (upTo 8).foldl (fun s n => s.modSector n fun q => { q with op := 3 }) s
    let s := (upTo 12).foldl (fun s p => if nbit b.ports.toNat p then
      s.modPort p fun o => { o with enabled := true, variant := b2n (nbit b.variantCr.toNat p), state := portTraining } else s) s
    let s := s.modAo fun a => { a with standbyUp := !a.halFenced (!a.ownerSouth) }
    { s with gddr := { s.gddr with rejected := !b.memOk }, boot := { s.boot with bootErr := if b.memOk then 0 else 4 } }.phaseDone 4

/-- GDDR6 configured and trained (12 R300, R319). -/
def GddrSt.trained (g : GddrSt) (b : BoardSt) : GddrSt :=
  { g with
    ecc := b.ecc, clam := b.clam, devices := if b.clam then 24 else 12, rate := b.rate
    usable := (if b.ecc then 93 else 96) * (if b.clam then 2 else 1)
    state := (upTo 12).map fun c => (c, 1), rtxSize := b.rtx64 * 0x4000000, stgSize := b.stg64 * 0x4000000 }

/-- GDDR6 treated as lost (R413, R423; 12 R308): zero-filled, with journal and commit records invalid. -/
def State.loseGddr (s : State) : State := { s with gddr := {}, mbox := [], fault := { entriesCold := s.fault.entriesCold } }

/-- Phase 5: GDDR6 is trained and every sector's wave has ended. -/
def State.phase5 (s : State) : State :=
  let s := if s.ao.srFailed then (s.loseGddr).modAo fun a => { a with gddrLost := true, srFailed := false } else s
  let s := if s.boot.bootErr = 4 then { s with gddr := { s.gddr with rejected := true } }
    else { s with gddr := s.gddr.trained s.board, boot := { s.boot with gddrReady := true } }
  (s.phaseDone 5).checkLinks

/-- Fences of a map, the spare's first (R430). -/
def State.applyFences (s : State) (n : Nat) (m : Nat) : State :=
  (16 :: upTo 16).foldl (fun s p => if nbit m p then s.fenceMap n p else s) s

/-- Phase 7 for sector n: the fences held, then cores that failed their wave test, then the spare's test. -/
def State.phase7Sector (s : State) (n : Nat) (spareFails : Bool) : State :=
  let held := (Tab.get s.ao.fenced 0 n).toNat
  let s := s.applyFences n held
  let bad := nclear (s.sector n).waveFailed.toNat held
  let s := (16 :: upTo 16).foldl (fun s p => if nbit bad p then s.fencePhys n p else s) s
  let s := if !nbit (Tab.get s.ao.badBanks 0 n).toNat 0 && !nbit (Tab.get s.ao.badBanks 0 n).toNat 1 then s
    else (upTo 16).foldl (fun s i => s.unavailable n i) s
  if !(s.sector n).spareValid then s
  else if spareFails then s.fencePhys n (s.sector n).spareIndex
  else s.modSector n fun q => { q with lastTest := Tab.set q.lastTest 0 q.spareIndex (s.now + 1) }

/-- Commands that execute when the journal is replayed after a device reset; RESET_COMPUTE is done, and the others fail
(13 R553). -/
def replays (op : Nat) : Bool := ([0x02, 0x61, 0x10, 0x50, 0x60, 0x71, 0x72, 0x82, 0x83, 0x90] : List Nat).contains op

/-- An entry of mailbox m on replay. -/
def State.replayEntry (s : State) (m : Nat) (e : JEntry) : State :=
  let op := cmdOp e.cmd
  if op = 0x51 then s.finish m e
  else if !replays op then s.complete m e codeFault 0x000C []
  else if e.underAuth then s.refuse m e codeAuthority 0x000B
  else s.modMb m fun b => { b with journal := putEntry b.journal { e with st := 0 } }

/-- The journal is replayed, mailbox by mailbox in SEQ order. -/
def State.replay (s : State) : State :=
  (upTo 10).foldl (fun s m => ((s.mb m).journal.filter fun e => e.st != 2).foldl (fun s e => s.replayEntry m e) s) s

/-- The owner Halyard serves from now on; its heartbeat starts. -/
def State.serve (s : State) : State := s.modAo fun a => { a with serving := true, hbStamp := s.now }

/-- Phase 7: fences and spares; `arg` bit n says that the spare of sector n fails its test. On the device-reset path the
journal is replayed. -/
def State.phase7 (s : State) (arg : Nat) : State :=
  let s := (upTo 8).foldl (fun s n => s.phase7Sector n (nbit arg n)) s
  (if s.boot.cold then s else (s.serve).replay).phaseDone 7

/-- Phase 8: DEV_READY, once the replay has completed every command. -/
def State.phase8 (s : State) : State :=
  let s := if s.boot.cold then s.serve else s
  let s := (s.modAo fun a => { a with ready := 15 }).alignPulse
  let lost := s.ao.brownout
  let s := { s with boot := { s.boot with devReady := true, phase := 7, next := 0, cold := false } }.raiseDev 0
  if !lost then s else (s.modAo fun a => { a with retentionLost := true, brownout := false }).raiseDev 3

/-- BRINGUP_PHASE_END -/
def execBringupPhaseEnd (arg : Nat) (s : State) : Res :=
  .next <|
    if !s.ao.porReleased || s.ao.tripped then s
    else s.platform <| match s.boot.next with
      | 1 => s.phase1
      | p => if s.ao.inReset then s else match p with
        | 2 => s.phase2 arg
        | 3 => s.phase3
        | 4 => s.phase4
        | 5 => if s.boot.waves = 255 then s.phase5 else s
        | 6 => { s with boot := { s.boot with calDone := true } }.phaseDone 6
        | 7 => s.phase7 arg
        | 8 => if (upTo 10).all fun m => (s.oldest m).isNone then s.phase8 else s
        | _ => s

/-! ### Waves (R428, R436, R437) -/

/-- Soft repairs made in sector n by a test. -/
def State.softRepair (s : State) (n count : Nat) : State :=
  if count = 0 then s
  else s.modSector n fun q => { q with
    softUsed := min 255 (q.softUsed + count), spareElem := q.spareElem - count, softPending := true }

/-- The outcome of a sector's array tests: repairs applied, cores and banks that cannot be repaired. -/
def State.waveResult (s : State) (n : Nat) (banks : Word64) (repaired : Nat) : State :=
  (upTo 64).foldl (fun s b => if nbit banks.toNat b then s.failBank n b else s) (s.softRepair n repaired)

/-- SECTOR_WAVE_END: sectors n and n + 4 share wave n; a wave follows the one before. In step 5 of a compute-partition
reset every sector is tested at once (R442), and a core that cannot be repaired is fenced. -/
def execSectorWaveEnd (sector : SectorId) (failedPhys : BitVec 17) (failedBanks : Word64) (repaired : Nat) (s : State) : Res :=
  .next <|
    let n := sector.val
    let done := s.boot.waves
    if s.boot.crStep = 5 then
      let s := s.waveResult n failedBanks repaired
      (16 :: upTo 16).foldl (fun s p =>
        if nbit failedPhys.toNat p && !nbit (Tab.get s.ao.fenced 0 n).toNat p then s.fencePhys n p else s) s
    else if s.boot.next != 5 || s.ao.inReset || s.ao.tripped || nbit done n
        || (upTo 8).any (fun i => i % 4 < n % 4 && !nbit done i) then s
    else
      let s := s.modSector n fun q => { q with
        powered := true, up := failedPhys == 0 && failedBanks == 0, waveFailed := failedPhys }
      { s.waveResult n failedBanks repaired with boot := { s.boot with waves := nsetBit done n } }

/-- SOFT_REPAIR_FLASH_WRITE: the queued entries of a sector are written to the flash (R436). -/
def execSoftRepairFlashWrite (sector : SectorId) (s : State) : Res :=
  .next <|
    let n := sector.val
    let q := s.sector n
    if !q.softPending then s
    else (s.modSector n fun q => { q with softPending := false }).modSec fun x => { x with
      flashSoft := Tab.set x.flashSoft 0 n (min 256 q.softUsed) }

/-! ### Device reset (R439) -/

/-- The level of a reset pin. -/
def AoSt.pinLevel (a : AoSt) (pin : ResetPin) (high : Bool) : AoSt := match pin with
  | .perst => { a with perstHigh := high }
  | .reset => { a with resetHigh := high }

/-- DEVICE_RESET_ASSERT: `lowNs` is how long the level lasts; from 20 ns to 1 µs it is `taken` or not. -/
def execDeviceResetAssert (pin : ResetPin) (lowNs : Nat) (taken : Bool) (s : State) : Res :=
  .next <|
    if lowNs < 20 || (lowNs < 1000 && !taken) then s
    else
      let s := s.modAo fun a => a.pinLevel pin false
      if !s.ao.porReleased || s.boot.next = 1 || s.ao.inReset then s
      else s.deviceReset (if pin = .perst then 1 else 2) false

/-- DEVICE_RESET_RELEASE: at the rising edge of the later pin the phases run from phase 2. -/
def execDeviceResetRelease (pin : ResetPin) (s : State) : Res :=
  .next <|
    let s := s.modAo fun a => a.pinLevel pin true
    if !s.ao.perstHigh || !s.ao.resetHigh || s.ao.tripped then s else s.modAo fun a => { a with inReset := false }

/-! ### Compute-partition reset (R442 to R445) -/

/-- RESET_COMPUTE: completes when a Halyard serves again; one that runs already is joined. -/
def execResetCompute (mb : MboxId) (s : State) : Res :=
  .next <| s.runCmd mb.val 0x51 fun s e =>
    if s.fault.fatal then s.complete mb.val e codeFault 0 []
    else
    let s := s.park mb.val e
    { s with boot := { s.boot with crWaiters := s.boot.crWaiters ++ [mb.val + 1] } }.crStart

/-- Step 7: every compute image is loaded again from its copy (R443); the COMPUTE registers that the reset does not keep
are at reset; in ensign mode shed networks stay shed, and the ensign network runs. -/
def State.reloadAll (s : State) : State :=
  let s := (Tab.keys s.images).foldl (fun s h =>
    if (Tab.get s.images {} h).kind ≠ 0 then s
    else if s.copyGood h then s.reload h
    else (s.freeImage h).logFault classUncorr 4 0 1) s
  let s := (upTo 16).foldl (fun s k => s.modNet k fun n => { n with events := 0, holdEn := false, stepHi := 0 }) s
  let s := (Tab.keys s.cores).foldl (fun s c => if (s.core c).net != 0 && (s.netOf c).shed then
    (upTo 16).foldl (fun s q => s.closeQueue c q) s else s) s
  if s.fault.ensActive && s.fault.ensSet then s.startNet s.fault.ensNet else s

/-- Step 8: a Halyard serves, and the commands that waited for the reset complete. -/
def State.crDone (s : State) : State :=
  let ws := s.boot.crWaiters
  let s := { s with boot := { s.boot with crStep := 0, phase := 7, crWaiters := [] } }.serve
  (ws.foldl (fun s w => s.wakeCmd w fun s m e => s.finish m e) s).ensignResume

/-- Messages that the compute partition had not consumed are to be delivered again from staging (11 R294); token messages
stay with the token units (08 R216). -/
def FlowSt.redeliver (x : FlowSt) : FlowSt :=
  { x with unpopped := [], delivered := x.delivered.filter fun d => x.stage.any fun m => m.mseq == d.1 && m.kind == 2 }

/-- Step k of a compute-partition reset ends. -/
def State.crStepEnd (s : State) (k : Nat) : State :=
  match k with
  | 1 => s.dropRing
  | 2 => s.clearCompute
  | 3 => s.modAo fun a => { a with selfFenced := 0, standbyUp := if a.ownerSouth then !a.northFenced else !a.southFenced }
  | 6 => s.alignPulse
  | 7 =>
    let s := s.tokenReset
    { s with flows := s.flows.map fun (f : Nat × FlowSt) => (f.1, f.2.redeliver) }.reloadAll
  | _ => s

/-- COMPUTE_RESET_STEP_END -/
def execComputeResetStepEnd (s : State) : Res :=
  .next <|
    let k := s.boot.crStep
    if k = 0 then s
    else if k = 8 then s.platform s.crDone
    else
      let s' := s.crStepEnd k
      s.platform { s' with boot := { s'.boot with crStep := k + 1 } }

/-! ### Sector and core resets (R444) -/

/-- SECTOR_RESET: by the firmware, which records it in the fault record. -/
def execSectorReset (sector : SectorId) (s : State) : Res :=
  .next <|
    if !s.ao.serving || s.fault.fatal then s
    else (s.resetOneSector sector.val).logFault classNotice 2 (32 * sector.val) 3

/-- CORE_RESET: the same for a core. -/
def execCoreReset (core : CoreId) (s : State) : Res :=
  .next <|
    if !s.ao.serving || s.fault.fatal then s
    else (s.resetOneCore core.val).logFault classNotice 1 core.val 3

end Sys2Proof.Machine
end

