-- ==== Sys2Proof/Machine/Power.lean ====
section
/-! DEFINITION. Power.lean: supply supervision (16 R411 to R415; 22 R534), power states (16 R416 to R423; 14 R369) and thermal
limits (16 R424, R425). -/

namespace Sys2Proof.Machine

/-! ### Supply supervision -/

/-- SUPPLY_WARNING_CROSSING: a rail falls below its warning threshold, which raises PWR_WARN, or rises above it again, from which
its 50 µs run (R412). -/
def execSupplyWarningCrossing (crossing : RailCrossing) (s : State) : Res :=
  .next <|
    let rail := crossing.rail
    if !s.ao.porReleased then s
    else if !crossing.below then
      s.modAo fun a => match rail with
        | .vcore => if a.vcoreWarn then { a with vcoreWarn := false, aboveAt := a.time } else a
        | .vaux => if a.vauxWarn then { a with vauxWarn := false, aboveAt := a.time } else a
    else
      let was := s.ao.pwrWarn
      let s := s.modAo fun a => match rail with
        | .vcore => { a with vcoreWarn := true, lastWarn := a.time, pwrWarn := true }
        | .vaux => { a with vauxWarn := true, lastWarn := a.time, pwrWarn := true }
      if was then s
      else
        let s := s.modAo fun a => { a with warnRise := a.time, warnRises := (a.time :: a.warnRises).take 16 }
        let s := (s.countDev Ctr.pwrWarnCount).raisePwr 6
        let s := (upTo 8).foldl (fun s n => if (s.sector n).powered && !(s.sector n).gated then
          s.modSector n fun q => { q with aligned := false } else s) s
        s.logFault classNotice 10 0 0

/-- PWR_WARN_END: both rails have stayed above their warning thresholds for 50 µs; the stretch of clocked sectors counts. -/
def execPwrWarnEnd (s : State) : Res :=
  .next <|
    let a := s.ao
    if !a.pwrWarn || a.vcoreWarn || a.vauxWarn || s.now < a.aboveAt + 50000 then s
    else
      let s := if a.pstate < 2 then s.countDev Ctr.pwrWarnNs noSub (s.now - a.warnRise) else s
      s.modAo fun a => { a with pwrWarn := false }

/-- PERSISTENT_SUPPLY_WARNING: PWR_WARN has held for 1 ms, or risen 16 times within 100 ms (R415). -/
def execPersistentSupplyWarning (s : State) : Res :=
  .next <|
    let a := s.ao
    let held := a.pwrWarn && a.warnRise + 1000000 ≤ s.now
    let often := a.warnRises.length == 16 && s.now ≤ a.warnRises.getLastD 0 + 100000000
    if held || often then s.modAo fun a => { a with persist := true } else s

/-- PERSISTENT_WARNING_END: no warning crossing for 1 s. -/
def execPersistentWarningEnd (s : State) : Res :=
  .next <|
    let a := s.ao
    if a.persist && !a.pwrWarn && a.lastWarn + 1000000000 ≤ s.now then s.modAo fun a => { a with persist := false } else s

/-- VCORE_RESET_CROSSING: a device reset that runs as if the pins had risen; self-refresh entry may not complete (R413). -/
def execVcoreResetCrossing (selfRefreshDone : Bool) (s : State) : Res :=
  .next <|
    if !s.ao.porReleased || s.ao.tripped || s.boot.next = 1 then s
    else if s.ao.inReset then s.modAo fun a => { a with srFailed := a.srFailed || !selfRefreshDone }
    else s.deviceReset 3 (!selfRefreshDone)

/-- VAUX_RESET_CROSSING: a cold reset (R414), which also ends a thermal trip (R425). -/
def execVauxResetCrossing (s : State) : Res := .next <| s.coldReset (if s.ao.tripped then 6 else 4)

/-- AO_CLOCK_LOSS: the always-on domain returns to power-on reset, with LAST_RESET 0 (22 R534). -/
def execAoClockLoss (s : State) : Res := .next <| s.coldReset 0

/-! ### Thermal limits (R424, R425, R429) -/

/-- A junction temperature in units of 0.125 °C. -/
abbrev celsius (t : Int) : Int := 8 * t

/-- The level at which the device trips: 110 °C until the sensors are trimmed (R429). -/
def State.tripAt (s : State) : Int := if s.boot.calDone then celsius 115 else celsius 110

/-- The thermal trip: THERMTRIP_N is low, and the rest of the device is held in device reset until a cold reset. -/
def State.trip (s : State) : State := (s.deviceReset 6 false).modAo fun a => { a with tripped := true }

/-- Throttle and emergency for the hottest reading h. -/
def State.thermalLevels (s : State) (h : Int) : State :=
  let now := s.now
  let s := if celsius 95 ≤ h && !s.ao.throttle then
      ((s.modAo fun a => { a with throttle := true, throttleRise := now }).countDev Ctr.throttleCount).raisePwr 5
    else s
  let s := if celsius 105 ≤ h && !s.ao.emergency then (s.modAo fun a => { a with emergency := true }).raisePwr 4
    else if h ≤ celsius 100 then s.modAo fun a => { a with emergency := false }
    else s
  s.modAo fun a => { a with
    coolSince := if h ≤ celsius 92 then (if a.coolSince = 0 then now + 1 else a.coolSince) else 0 }

/-- THERMAL_SAMPLE: the twenty readings, in units of 0.125 °C. -/
def execThermalSample (readings : List Int) (s : State) : Res :=
  .next <|
    if !s.ao.porReleased || s.ao.tripped then s
    else
      let s' := s.modAo fun a => { a with temps := (upTo 20).foldl (fun t i => Tab.set t 0 i (readings.getD i 0)) a.temps }
      let h := s'.ao.hottest.1
      s.platform <| if s'.tripAt ≤ h then s'.trip else if s'.boot.calDone then s'.thermalLevels h else s'

/-- THROTTLE_EXIT: every sensor at or below 92 °C for 10 ms. -/
def execThrottleExit (s : State) : Res :=
  .next <|
    let a := s.ao
    if a.throttle && a.coolSince != 0 && a.coolSince - 1 + 10000000 ≤ s.now then
      s.platform ((s.countDev Ctr.throttleNs noSub (s.now - a.throttleRise)).modAo fun a => { a with throttle := false })
    else s

/-! ### Power states (R416 to R419; 14 R369) -/

/-- Entry to P2 or P3 (R418): no Halyard serves, every sector is in retention, and in P3 GDDR6 refreshes itself, the ports
are DOWN with their replay buffers kept, and the regulator is in low-power mode. -/
def State.enterPower (s : State) (st : Nat) : State :=
  let init := BitVec.ofNat 8 ((upTo 8).foldl (fun v p => if (s.lout p).ensInit then nsetBit v p else v) 0)
  let s := (upTo 8).foldl (fun s n => s.modSector n fun q => { q with powered := false, gated := false }) s
  let s := s.modAo fun a => { a with
    pstate := st, serving := false, ensCopy := init, ready := if st = 2 then 8 else 0, regLp := st == 3, waking := 0 }
  if st ≠ 3 then s
  else
    let s := s.modGddr fun g => { g with state := g.state.map fun (x : Nat × Nat) => (x.1, if x.2 = 1 then 2 else x.2) }
    let s := (upTo 12).foldl (fun s p => if (s.port p).enabled && (s.port p).state != portFailed then
      s.modPort p fun o => { o with state := portDown } else s) s
    (s.reroute.modBoot fun b => { b with linksReady := false }).takeShadow

/-- SET_POWER_STATE: its completion is written before the device enters the state. -/
def execSetPowerState (mb : MboxId) (s : State) : Res :=
  .next <| s.runCmd mb.val 0x50 fun s e =>
    let m := mb.val
    let st := leAt e.cmd 0x40 1
    if st = s.ao.pstate then s.finish m e
    else if (upTo 16).any fun k => (s.net k).running then s.refuse m e codeState Why.netRunning
    else if st = 3 && s.flows.any fun f => f.2.fstate != 0 then s.refuse m e codeState Why.flowsOpen
    else if st = 3 && celsius 60 < s.ao.hottest.1 then s.refuse m e codeState Why.tooHot
    else s.platform ((s.finish m e).enterPower st)

/-- The ready bit of a wake stage in PWR_STATUS bits 19:16. -/
def stageBit : WakeStage → Nat
  | .regulator => 3
  | .oscillator => 2
  | .memory => 1
  | .logic => 0

/-- Ports that went DOWN for P3 train again. -/
def State.retrainPorts (s : State) : State :=
  (upTo 12).foldl (fun s p => if (s.port p).enabled && (s.port p).state == portDown then
    s.modPort p fun o => { o with state := portTraining, trainDue := false } else s) s

/-- GDDR6 leaves self-refresh. -/
def State.gddrUp (s : State) : State :=
  s.modGddr fun g => { g with state := g.state.map fun (x : Nat × Nat) => (x.1, if x.2 = 2 then 1 else x.2) }

/-- The memory stage: a wake to P2 ends with it, since sectors and Halyards stay in retention. -/
def State.memoryStage (s : State) : State :=
  let s := s.gddrUp
  if s.ao.waking = 3 then (s.modAo fun a => { a with pstate := 2, waking := 0, ready := 8 }).retrainPorts else s

/-- The logic stage: clocks run, the owner serves, links train, and an ensign entry that waited is completed. -/
def State.logicStage (s : State) : State :=
  let s := (upTo 8).foldl (fun s n => s.modSector n fun q => { q with powered := true }) s
  let s := (s.modAo fun a => { a with pstate := 0, waking := 0 }).serve
  (s.retrainPorts.checkLinks).ensignResume

/-- WAKE_STAGE_READY: the stages run in order, each once the one before is ready. -/
def execWakeStageReady (stage : WakeStage) (s : State) : Res :=
  .next <|
    let b := stageBit stage
    if s.ao.waking = 0 || nbit s.ao.ready b || (upTo 4).any (fun i => b < i && !nbit s.ao.ready i) then s
    else
      let s' := s.modAo fun a => { a with ready := nsetBit a.ready b }
      s.platform <| match stage with
        | .regulator => s'.modAo fun a => { a with regLp := false }
        | .oscillator => s'
        | .memory => s'.memoryStage
        | .logic => s'.logicStage

/-- P3_GUARD_WAKE: at 70 °C (in 0.125 °C) or a retention load of 2.7 A (R422). -/
def execP3GuardWake (junction : Int) (loadMilliamps : Nat) (s : State) : Res :=
  .next <|
    if s.ao.pstate = 3 && s.ao.waking = 0 && (celsius 70 ≤ junction || 2700 ≤ loadMilliamps) then (s.startWake 2).raisePwr 3
    else s

/-- RETENTION_BROWNOUT: in P3 the device wakes through the cold path from phase 1 (R423, R432). -/
def execRetentionBrownout (s : State) : Res :=
  .next <|
    if s.ao.pstate ≠ 3 then s
    else
      let i3c := s.ao.mgtI3c
      (s.coldReset 5).modAo fun a => { a with porReleased := true, mgtI3c := i3c, brownout := true }

end Sys2Proof.Machine
end

