-- ==== Sys2Proof/Machine/SelfTest.lean ====
section
/-! DEFINITION. SelfTest.lean: spare rotation and self-test (18 R449 to R456; 14 R371), and the ownership latch with the
global control writes (18 R470 to R474). -/

namespace Sys2Proof.Machine

/-! ### The choice of R449 -/

/-- Physical core p of sector n is fenced. -/
def State.fencedPhys (s : State) (n p : Nat) : Bool := nbit (Tab.get s.ao.fenced 0 n).toNat p

/-- The logical core that physical core p of sector n carries. -/
def State.carriedCore (s : State) (n p : Nat) : Option Nat := ((s.sector n).carried p).map fun i => 16 * n + i

/-- A physical core may be tested now: not fenced, and it carries no halted logical core. -/
def State.testable (s : State) (n p : Nat) : Bool :=
  !s.fencedPhys n p && match s.carriedCore n p with
    | some c => !(s.core c).halted
    | none => true

/-- The testable physical core whose last completed test is oldest; ties go to the lowest index. -/
def State.oldestTest (s : State) (n : Nat) : Option Nat :=
  ((upTo 17).filter (s.testable n)).foldl (fun m p => match m with
    | none => some p
    | some o => if Tab.get (s.sector n).lastTest 0 p < Tab.get (s.sector n).lastTest 0 o then some p else some o) none

/-- The RUN_SELFTEST of kind `kind` that waits for sector n: its mailbox and entry. -/
def State.selftestWaiting (s : State) (n kind : Nat) : Option (Nat × JEntry) :=
  (upTo 10).findSome? fun m => match s.parked m with
    | some e => if cmdOp e.cmd = 0x60 && leAt e.cmd 0x40 1 = kind && leAt e.cmd 0x41 1 = n then some (m, e) else none
    | none => none

/-- The guarantee of R449 has failed in sector n: a physical core has gone without a test for longer than the interval. -/
def State.rotateLate (s : State) (n : Nat) : State :=
  let q := s.sector n
  let late := (upTo 17).any fun p => !s.fencedPhys n p && decide (Tab.get q.lastTest 0 p + 1000000000 * q.rotInterval < s.now)
  if late then s.modFault fun f => { f with events := nsetBit f.events 0 } else s

/-! ### Migration (R450 to R452) -/

/-- Twice 92,160 cycles at half the frequency of sector n, in ns, rounded up (R452). -/
def State.migWindow (s : State) (n : Nat) : Nat :=
  let f := opMHz (s.sector n).op
  (4 * 92160 * 1000 + f - 1) / f

/-- Under DEADLINE the window of R452 is free: the earliest C_{n+1} is far enough. -/
def State.windowFree (s : State) (c : Nat) : Bool :=
  let n := s.netOf c
  (s.core c).net == 0 || !n.running || n.lockstep || s.now + s.migWindow (sectorOf c) ≤ n.cN + 10 * n.source.period

/-- The migration of logical core c to the spare begins. -/
def State.beginMig (s : State) (c mb : Nat) : State :=
  s.modSector (sectorOf c) fun q => { q with
    mapState := Tab.set q.mapState 0 (indexOf c) 1, spareValid := false
    mig := some { core := c, dest := q.spareIndex, start := s.now, mb := mb } }

/-- The test of physical core p begins. -/
def State.beginTest (s : State) (n p mb : Nat) : State :=
  s.modSector n fun q => { q with test := some { phys := p, mb := mb }, spareValid := false }

/-- MIGRATION_START: the owner Halyard rotates the spare of a sector, in P0 or P1; a RUN_SELFTEST that waits names the core,
else R449 chooses it. A core that carries nothing is tested where it stands. -/
def execMigrationStart (sector : SectorId) (s : State) : Res :=
  .next <|
    let n := sector.val
    let q := s.sector n
    if !s.ao.serving || s.ao.pstate ≠ 0 || s.fault.fatal then s
    else if !q.spareValid || q.mig.isSome || q.test.isSome then s.rotateLate n
    else
      let s := s.rotateLate n
      let asked := s.selftestWaiting n 0
      let target := match asked with
        | some x => if s.testable n (leAt x.2.cmd 0x42 2) then some (leAt x.2.cmd 0x42 2) else none
        | none => s.oldestTest n
      let mb := (asked.map fun x => x.1 + 1).getD 0
      match target with
      | none => s
      | some p => match s.carriedCore n p with
        | none => s.beginTest n p mb
        | some c =>
          if !s.atStepBoundary c then s
          else if s.windowFree c then s.beginMig c mb
          else s.countSec n Ctr.rotateDeferred

/-- MIGRATION_COMPLETE: the copy has ended. Where the signatures agree the map switches and the events held are replayed,
and the freed core is tested; where they do not, the migration is abandoned (log 60). -/
def execMigrationComplete (sector : SectorId) (misrAgree : Bool) (s : State) : Res :=
  .next <|
    let n := sector.val
    match (s.sector n).mig with
    | none => s
    | some g =>
      if !misrAgree then s.abandonMig n
      else
        let i := indexOf g.core
        let held := (s.sector n).migHeld
        let s := s.modSector n fun q => { q with
          mig := none, migBuf := [], mapState := Tab.set q.mapState 0 i 0, mapPhys := Tab.set q.mapPhys i i g.dest
          test := some { phys := q.phys i, mb := g.mb } }
        let s := s.replayTo g.core held
        let s := (s.countSec n Ctr.migrateCount).countSec n Ctr.migrateNs noSub (s.now - g.start)
        let s := s.haltCheckOf g.core
        if (s.core g.core).net = 0 then s else s.tryOpen ((s.core g.core).net - 1)

/-! ### Slices (R453 to R455) -/

/-- INLINE of RUN_SELFTEST: result, physical index, signature (R371). -/
def selftestInline (result phys signature : Nat) : List Byte := toLe 1 result ++ toLe 1 phys ++ zeros 6 ++ toLe 8 signature

/-- CORE_SELFTEST_SLICE: the next slice of the core under test gives `signature`; a march slice (4 to 11) with a
repairable defect is repaired and repeats itself. -/
def execCoreSelftestSlice (sector : SectorId) (signature : Word64) (golden : Word64) (repairable : Bool) (s : State) : Res :=
  .next <|
    let n := sector.val
    match (s.sector n).test with
    | none => s
    | some t =>
      if s.boot.crStep ≠ 0 || s.fault.fatal then s
      else
        let s := s.countSec n Ctr.selftestSlices
        if signature = golden then
          if t.slice < 11 then s.modSector n fun q => { q with test := some { t with slice := t.slice + 1 } }
          else
            let s := s.modSector n fun q => { q with
              test := none, spareIndex := t.phys, spareValid := true, lastTest := Tab.set q.lastTest 0 t.phys (s.now + 1) }
            s.wakeCmd t.mb fun s m e => s.finish m e (selftestInline 0 t.phys signature.toNat)
        else if 4 ≤ t.slice && repairable && (s.sector n).spareElem != 0 then s.softRepair n 1
        else
          let s := (s.countSec n Ctr.selftestFail).modSector n fun q => { q with test := none }
          (s.fencePhys n t.phys).wakeCmd t.mb fun s m e => s.finish m e (selftestInline 1 t.phys signature.toNat)

/-- BANK_SELFTEST_SLICE: a segment of a bank is saved, tested and restored; the bank is under test from segment 0 to
segment 7. A repairable defect is repaired (17 R436); a bank that fails is marked failed after its last segment. -/
def execBankSelftestSlice (sector : SectorId) (bank : Fin 64) (segment : Fin 8) (pass : Bool) (repairable : Bool) (s : State) :
    Res :=
  .next <|
    let n := sector.val
    let q := s.sector n
    let b := bank.val
    let first := segment.val = 0
    if !s.ao.serving || s.fault.fatal || q.mig.isSome || (if first then q.bankTest ≠ 0 else q.bankTest ≠ b + 1) then s
    else
      let s := s.countSec n Ctr.selftestSlices
      let s := if first then s.modSector n fun q => { q with bankTest := b + 1, bankFail := false } else s
      let s := if pass then s
        else if repairable && (s.sector n).spareElem != 0 then s.softRepair n 1
        else (s.countSec n Ctr.selftestFail).modSector n fun q => { q with bankFail := true }
      if segment.val < 7 then s
      else
        let bad := (s.sector n).bankFail
        let s := s.modSector n fun q => { q with bankTest := 0, bankFail := false }
        let s := if bad then s.failBank n b else s
        match s.selftestWaiting n 1 with
        | some (m, e) => if leAt e.cmd 0x42 2 = b then s.finish m e else s
        | none => s

/-- RUN_SELFTEST of kind 0 on physical core p of sector n: a fenced core is not tested; a core that carries nothing is
tested where it stands; another waits for its migration. -/
def State.selftestCore (s : State) (m : Nat) (e : JEntry) (n p : Nat) : State :=
  if s.fencedPhys n p then s.finish m e (selftestInline 2 p 0)
  else if !(s.sector n).spareValid then s.refuse m e codeState Why.noSpare
  else if (s.carriedCore n p).isNone then (s.park m e).beginTest n p (m + 1)
  else s.park m e

/-- RUN_SELFTEST. For kind 2, `mismatch` names the physical core that the full structural test finds faulty, and
`signature` is its MISR. A test that runs in the sector ends first (R456). -/
def execRunSelftest (mb : MboxId) (mismatch : Option (Fin 17)) (signature : Word64) (s : State) : Res :=
  .next <|
    let busy := match s.front mb.val 0x60 with
      | none => false
      | some e => leAt e.cmd 0x40 1 = 0 &&
        ((s.sector (leAt e.cmd 0x41 1)).mig.isSome || (s.sector (leAt e.cmd 0x41 1)).test.isSome)
    if busy then s
    else s.runCmd mb.val 0x60 fun s e =>
      let m := mb.val
      let n := leAt e.cmd 0x41 1
      let w := leAt e.cmd 0x44 4
      match leAt e.cmd 0x40 1 with
      | 0 => s.selftestCore m e n (leAt e.cmd 0x42 2)
      | 1 => s.park m e
      | 2 =>
        if s.images.any fun x => x.2.kind == 0 then s.refuse m e codeState Why.badField
        else match mismatch with
          | none => s.finish m e (selftestInline 0 0 signature.toNat)
          | some p => s.platform ((s.fencePhys n p.val).finish m e (selftestInline 1 p.val signature.toNat))
      | _ =>
        let i := if w = 0 then 600 else w
        ((upTo 8).foldl (fun s n => s.modSector n fun q => { q with rotInterval := i }) s).finish m e

/-! ### The ownership latch (R470, R471, R473, R474) -/

/-- OWNER_HEARTBEAT: the latch stamps the heartbeat of an owner that has not fenced itself, and acknowledges it. -/
def execOwnerHeartbeat (s : State) : Res := .next <| if s.ao.serving then s.modAo fun a => { a with hbStamp := a.time } else s

/-- LATCH_ACK_TIMEOUT: an owner without an acknowledgement for 1 ms fences itself: it writes no global control and serves
no mailbox. -/
def execLatchAckTimeout (s : State) : Res :=
  .next <|
    if !s.ao.serving then s
    else s.modAo fun a => { a with serving := false, selfFenced := nsetBit a.selfFenced (b2n a.ownerSouth) }

/-- The latch names the other Halyard, which abandons migrations and serves (R471, R473). -/
def State.takeLatch (s : State) : State :=
  let old := b2n s.ao.ownerSouth
  let s := (s.modAo fun a => { a with
    ownerSouth := !a.ownerSouth, epoch := (a.epoch + 1) % 2 ^ 32, standbyUp := false }).raiseDev 2
  let s := (upTo 8).foldl State.abandonMig s
  (s.serve.logFault classDegraded 8 old 7).ensignResume

/-- LATCH_REQUEST: the standby requests the latch, which grants it only if the stamp is more than 30 ms old. -/
def execLatchRequest (s : State) : Res :=
  .next <|
    let a := s.ao
    if !a.standbyUp || a.halFenced (!a.ownerSouth) || 2 ≤ a.pstate || !s.boot.devReady || s.boot.crStep ≠ 0 then s
    else if a.hbStamp + 30000000 < s.now then s.platform s.takeLatch
    else s.countDev Ctr.latchRefused

/-- OWNER_STALE_RESET: the stamp is more than 100 ms old and no standby serves. -/
def execOwnerStaleReset (s : State) : Res :=
  .next <|
    let a := s.ao
    if a.standbyUp || 2 ≤ a.pstate || !s.boot.devReady || s.now ≤ a.hbStamp + 100000000 then s else s.crStart

/-! ### Global control writes (R472) -/

/-- A sector's operating point written: the sector stops for the relock (16 R410). -/
def State.writeClock (s : State) (n op : Nat) : State :=
  if (s.sector n).opSet = op then s
  else (s.modSector n fun q => { q with opNext := op + 1, stopped := true, aligned := false }).countSec n Ctr.freqChange

/-- Sectors that change frequency with sector n: those on scheduled routes of running DEADLINE networks, where n is on one
(01 R25). -/
def State.clockGroup (s : State) (n : Nat) : List Nat :=
  let l := s.schedAll.filter fun x =>
    let k := s.netOf (nfld x.2.2 26 17)
    k.running && !k.lockstep
  if l.any (schedMeets n) then (upTo 8).filter fun m => l.any (schedMeets m) else [n]

/-- A core map entry may be written so (01 R20): at a step boundary, to rotate the spare (at most one core of the sector
migrates) or to fence a core. -/
def State.mapWriteOk (s : State) (c st p : Nat) : Bool :=
  let q := s.sector (sectorOf c)
  s.atStepBoundary c &&
    (st == 2 || (st == 0 && (p == q.phys (indexOf c) || p == q.spareIndex))
      || (st == 1 && p == q.phys (indexOf c) && (upTo 16).all fun i => i == indexOf c || q.mstate i != 1))

/-- What a write by the owner does. -/
def State.globalWrite (s : State) (w : GlobalWrite) : State :=
  match w with
  | .coreMap c v =>
    if !s.mapWriteOk c.val (fld v 7 6) (fld v 4 0) then s
    else s.modSector (sectorOf c.val) fun q => { q with
      mapState := Tab.set q.mapState 0 (indexOf c.val) (fld v 7 6), mapPhys := Tab.set q.mapPhys (indexOf c.val) (indexOf c.val) (fld v 4 0) }
  | .sectorClock n op =>
    let g := s.clockGroup n.val
    if (Tab.keys s.cores).any fun c => g.contains (sectorOf c) && !s.atStepBoundary c then s
    else g.foldl (fun s m => s.writeClock m op.val) s
  | .powerSwitch n on => s.modSector n.val fun q => { q with powered := on }
  | .stepControl k armed => if (s.net k.val).image = 0 || (s.net k.val).running = armed then s
      else if armed then s.startNet k.val else s.haltNow k.val
  | .tickLine k => s.tick k.val
  | .mailboxAccept m v => s.modMb m.val fun b => { b with accCode := fld v 31 24, accReason := fld v 23 8, accDup := nbit v.toNat 7 }
  | .completionSlot m place bytes => s.modMb m.val fun b => { b with comp := memWrite b.comp (64 * place.val) (bytes.take 64) }
  | .journalHead m v => s.modMb m.val fun b => { b with jhead := v.toNat }
  | .systemArea a bytes => if a + bytes.length ≤ rtxBase then s.gWrite a bytes .system else s

/-- GLOBAL_CONTROL_WRITE: from the owner it acts; from the other Halyard it is dropped, counted and logged. -/
def execGlobalControlWrite (south : Bool) (write : GlobalWrite) (s : State) : Res :=
  .next <|
    if south = s.ao.ownerSouth then (if s.ao.halFenced south then s else s.platform (s.globalWrite write))
    else
      let s' := (s.countDev Ctr.nonownerWrite).modFault fun f => { f with events := nsetBit f.events 1 }
      s.platform (s'.logFault classDegraded 9 (b2n south) 0)

end Sys2Proof.Machine
end

