-- ==== Sys2Proof/Machine/Session.lean ====
section
/-! DEFINITION. Session.lean: posting a command and the decision (13 R331 to R334, R337), from the host and from the
management sideband (19 R490). -/

namespace Sys2Proof.Machine

/-! ### Which BAR0 writes act (21 R525; 16 R421) -/

/-- A write to an offset of BAR0 acts: `slot` for a mailbox command slot or MB_POST, `island` for the other registers that
stay live in P3 (the mailbox registers, HOST_HEARTBEAT and TIME_MARK). -/
def State.writeActs (s : State) (o : Nat) (slot island : Bool) : Bool :=
  s.bar0Open && !s.bootFailed && (s.boot.devReady || slot)
    && (!(s.computeHeld || 2 ≤ s.ao.pstate) || !computeTag o)
    && (s.ao.pstate != 3 || slot || island)

/-- The BAR0 offset of mailbox m's register r. -/
def mbOffset (m r : Nat) : Nat := 0x100000 + 0x4000 * m + r

/-! ### Posting (R331) -/

/-- Bytes written to mailbox m's command slot: discarded and counted while SLOT_BUSY is 1. -/
def State.slotWrite (s : State) (m off : Nat) (b : List Byte) : State :=
  if !s.writeActs (mbOffset m off) true true then s
  else if (s.mb m).busy then s.countMb m Ctr.mbSlotDiscard
  else s.modMb m fun x => { x with slot := memWrite x.slot off b }

/-- COMMAND_SLOT_WRITE. -/
def execCommandSlotWrite (mb : Fin 8) (offset : Fin 4096) (bytes : List Byte) (s : State) : Res :=
  .next <|
    let b := bytes.take (4096 - offset.val)
    if !s.bar0Open then s else (s.countDev Ctr.pcieRxBytes noSub b.length).slotWrite mb.val offset.val b

/-- A post of LEN8 = n on mailbox m: it starts a wake from P2 or P3 (16 R420). -/
def State.post (s : State) (m n : Nat) : State :=
  if (s.mb m).busy then s.countMb m Ctr.mbPostIgnored
  else (s.modMb m fun b => { b with busy := true, postLen := n }).startWake 0

/-- MB_POST: ignored and counted while SLOT_BUSY is 1. -/
def execMbPost (mb : Fin 8) (value : Word32) (s : State) : Res :=
  .next <|
    let m := mb.val
    if !s.bar0Open then s
    else
      let s := s.countDev Ctr.pcieRxBytes noSub 4
      if s.writeActs (mbOffset m 0x2000) true true then s.post m (fld value 9 0) else s

/-! ### The decision (R332, R333) -/

/-- Entry of mailbox m's journal for a sequence number. -/
def State.entryOf (s : State) (m q : Nat) : Option JEntry := (s.mb m).journal.find? fun e => e.seq == q

/-- Checks 3 to 9 of R332 on a command that carries NEXT. -/
def State.decideChecks (s : State) (m : Nat) (c : List Byte) : Refuse :=
  let b := s.mb m
  let op := cmdOp c
  let need (ok : Bool) (code reason : Nat) : Refuse := if ok then none else some (code, reason)
  let feature := ((opRow op).map fun r => r.2.2.1).getD 0
  (need (b.next - 1 - b.consumed < 32) codeState 0x0004).and <|
  (need (b.session || op == 1 || op == 2) codeState 0x0006).and <|
  (need (op != 1 || b.journal.all fun e => e.st == 2) codeState 0x0007).and <|
  (need (opRow op).isSome codeVersion 0x0008).and <|
  (need (m < 8 || mmCarries op) codeAuthority 0x000A).and <|
  (need (s.sec.permits c) codeAuthority 0x000B).and <|
  (need (feature == 0 || nbit b.granted.toNat (feature - 1)) codeVersion 0x0009).and <|
  checkFields m c

/-- The decision shown: MB_ACCEPT_SEQ, MB_ACCEPT, SLOT_BUSY 0 and DECIDED with its vector; a management mailbox answers the
post with it (19 R490). -/
def State.decided (s : State) (m q code reason : Nat) (dup : Bool) : State :=
  let s := s.modMb m fun b => { b with accSeq := q, accCode := code, accReason := reason, accDup := dup, busy := false }
  let s := s.raiseMb m 0 true
  if 8 ≤ m then s.send (.mgmt 0x7E 0x01 (0 :: toLe 4 (s.mb m).acceptReg ++ toLe 8 q)) else s

/-- The post is refused: it has no effect and is counted by its code. -/
def State.refusePost (s : State) (m q : Nat) (r : Nat × Nat) : State :=
  (s.countMb m Ctr.mbRefused r.1).decided m q r.1 r.2 false

/-- The command is journaled and accepted (R334). -/
def State.acceptPost (s : State) (m q : Nat) (c : List Byte) : State :=
  let e : JEntry := { seq := q, cmd := c, tAccept := s.now, order := s.accepted
                      underAuth := isDebugOp (cmdOp c) && s.sec.lc == 2 }
  let s := { s with accepted := s.accepted + 1 }
  (s.modMb m fun b => { b with journal := b.journal ++ [e], next := b.next + 1, jhead := b.jhead + 1 }).decided m q codeAccepted 0 false

/-- The record of a completed command as it is written again: RFLAGS bit 0 set, with the owner epoch of that writing (R335;
18 R473). -/
def State.recordAgain (s : State) (e : JEntry) : List Byte :=
  putBytes (putBytes e.record 0x0B [BitVec.ofNat 8 (nsetBit (byteAt e.record 0x0B) 0)]) 0x10 (toLe 4 s.ao.epoch)

/-- An accepted command repeated: if it has completed, its record is written again. -/
def State.repeatPost (s : State) (m q : Nat) (e : JEntry) : State :=
  let s := s.countMb m Ctr.mbDup
  let s := if e.st = 2 then s.showRecord m e (s.recordAgain e) else s
  s.decided m q codeAccepted 0 true

/-- The decision on the command c, posted with LEN8 = n. -/
def State.mailDecision (s : State) (m n : Nat) (c : List Byte) : State :=
  let b := s.mb m
  let q := leAt c 0 8
  if leAt c 0x0A 2 ≠ n || n < 8 || 512 < n then s.refusePost m q (codeState, 0x0005)
  else if b.next < q then s.refusePost m q (codeState, 0x0001)
  else if q ≤ b.consumed then s.refusePost m q (codeState, 0x0003)
  else if q < b.next then match s.entryOf m q with
    | some e => if e.cmd = c then s.repeatPost m q e else s.refusePost m q (codeState, 0x0002)
    | none => s.refusePost m q (codeState, 0x0002)
  else match s.decideChecks m c with
    | some r => s.refusePost m q r
    | none => s.acceptPost m q c

/-- MAILBOX_DECISION: the owner Halyard copies the posted command, its header at least, and decides it. -/
def execMailboxDecision (mb : MboxId) (s : State) : Res :=
  .next <|
    let m := mb.val
    let b := s.mb m
    if !s.ao.serving || !s.boot.devReady || !b.busy then s
    else s.mailDecision m b.postLen (memRead b.slot 0 (8 * max 8 b.postLen))

/-! ### MB_CONSUMED (R330, R337) -/

/-- A write of one half of MB_CONSUMED: the low half is held for the high half; the value is clamped to the highest completed
SEQ, one below the current value is ignored, and journal entries up to it are released. -/
def State.consumedWrite (s : State) (m : Nat) (high : Bool) (value : Word32) : State :=
  if !high then s.modMb m fun b => { b with consLow := value }
  else
    let b := s.mb m
    let v := min (value.toNat * 2 ^ 32 + b.consLow.toNat) b.highDone
    if v ≤ b.consumed then s
    else s.modMb m fun b => { b with consumed := v, journal := b.journal.filter fun e => v < e.seq }

/-- MB_CONSUMED_WRITE. -/
def execMbConsumedWrite (mb : Fin 8) (high : Bool) (value : Word32) (s : State) : Res :=
  .next <|
    if !s.bar0Open then s
    else
      let s := s.countDev Ctr.pcieRxBytes noSub 4
      if s.writeActs (mbOffset mb.val 0x2020) false true then s.consumedWrite mb.val high value else s

/-! ### The management mailboxes (19 R489, R490) -/

/-- The mailbox number of MM0 (false) or MM1 (true). -/
def mmNumber (mm : Bool) : Nat := 8 + b2n mm

/-- Firmware runs, so vendor messages are answered (R489). -/
def State.vendorUp (s : State) : Bool := s.boot.fwVerified && !s.ao.inReset && s.boot.phase != 9 && s.sec.lc != 4

/-- An answer to a vendor request: its one-byte status, then data. -/
def State.vendor (s : State) (code status : Nat) (data : List Byte := []) : State :=
  s.send (.mgmt 0x7E code (BitVec.ofNat 8 status :: data))

/-- MANAGEMENT_MAILBOX_POST: answered with status 3 while SLOT_BUSY is 1; the decision answers a post that is taken. -/
def execManagementMailboxPost (mm : Bool) (endpoint : Byte) (command : List Byte) (s : State) : Res :=
  .next <|
    let m := mmNumber mm
    if !s.vendorUp then s
    else
      let s := s.startWake 0
      if (s.mb m).busy then (s.countMb m Ctr.mbPostIgnored).vendor 0x01 3
      else (s.modMb m fun b => { b with slot := memWrite [] 0 (command.take 4096), endpoint := endpoint }).post m (command.length / 8)

/-- MANAGEMENT_MAILBOX_READ: the registers of the mailbox in the order of their offsets. -/
def execManagementMailboxRead (mm : Bool) (s : State) : Res :=
  .next <|
    if !s.vendorUp then s
    else
      let b := s.mb (mmNumber mm)
      (s.startWake 0).vendor 0x02 0
        (toLe 4 b.statusReg ++ toLe 4 b.acceptReg ++ toLe 8 b.accSeq ++ toLe 8 b.next ++ toLe 8 b.consumed ++ toLe 4 b.event)

end Sys2Proof.Machine
end

