-- ==== Sys2Proof/Machine/SeqMap.lean ====
section
/-! DEFINITION. SeqMap.lean: the memory map of a core sequencer (03 R86, R87) with the registers of its engine-control
window, as the sequencer and DEBUG_READ and DEBUG_WRITE reach them. -/

namespace Sys2Proof.Machine

/-! ### Words and byte enables -/

/-- The bits of old outside mask, and those of v inside it. -/
def masked (old v mask : Nat) : Nat := nclear old mask + (v &&& mask)

/-- The byte enables of n bytes at place k of a word, as a bit mask. -/
def byteMask (k n : Nat) : Nat := (2 ^ (8 * n) - 1) * 2 ^ (8 * k)

/-- The words that bytes from address a reach, as (aligned address, bit mask, value). -/
def wordParts (a : Nat) (bytes : List Byte) : List (Nat × Nat × Nat) :=
  if bytes.isEmpty then []
  else (upTo ((a % 4 + bytes.length + 3) / 4)).map fun i =>
    let lo := if i = 0 then a % 4 else 0
    let from_ := if i = 0 then 0 else 4 * i - a % 4
    let b := (bytes.drop from_).take (4 - lo)
    (a / 4 * 4 + 4 * i, byteMask lo b.length, leNat b * 2 ^ (8 * lo))

/-! ### Reads of the engine-control window (R86; 20 R495, R498, R510; 10 R243, R245) -/

/-- DBG_STATUS (20 R498) -/
def CoreSt.dbgStatus (k : CoreSt) : Nat :=
  flagAt 31 k.seqHalted + flagAt 30 k.engHalted + flagAt 29 k.haltPending + bitsAt 27 k.haltCause + bitsAt 25 k.lastBkpt

/-- QUEUE_STATE (10 R243) -/
def QueueSt.word (q : QueueSt) : Nat := flagAt 31 q.closed + bitsAt 20 q.reqHeld + bitsAt 9 q.rplHeld

/-- Word i of QPOP_DATA. -/
def CoreSt.qpopWord (k : CoreSt) (i : Nat) : Nat :=
  let d := k.qpopData
  let w := if i / 2 = 0 then d.w0 else if i / 2 = 1 then d.w1 else if i / 2 = 2 then d.w2 else d.w3
  if i % 2 = 0 then fld w 31 0 else fld w 63 32

/-- x_r of the sequencer; x0 is 0. -/
def SeqSt.reg (q : SeqSt) (r : Nat) : Nat := if r = 0 then 0 else (Tab.get q.regs 0 r).toNat

/-- x_r written; a write to x0 is discarded. -/
def SeqSt.setReg (q : SeqSt) (r v : Nat) : SeqSt :=
  if r = 0 then q else { q with regs := Tab.set q.regs 0 r (BitVec.ofNat 32 v) }

/-- The word at offset o of core k's engine-control window; reserved and write-only offsets read 0. -/
def CoreSt.ctlWord (k : CoreSt) (o : Nat) : Nat :=
  if o = 0x000 then k.intEn
  else if o = 0x004 then k.intStatus
  else if o < 0x800 then 0
  else if o < 0x900 then
    let p := Tab.get k.pmcs {} ((o - 0x800) / 0x10)
    if o % 0x10 = 0 then p.cfg.toNat else if o % 0x10 = 4 then p.filter.toNat
    else if o % 0x10 = 8 then fld p.value 31 0 else p.latch.toNat
  else if o < 0x940 then (Tab.get k.pmcs {} ((o - 0x900) / 4)).thresh.toNat
  else if o < 0x960 then
    let b := Tab.get k.bkpts {} ((o - 0x940) / 8)
    if o % 8 = 0 then b.ctrl.toNat else b.addr.toNat
  else if o = 0x960 then k.dbgStatus
  else if o = 0x968 then k.mark
  else if o = 0x970 then k.traceCfg.toNat
  else if o = 0x980 then k.seq.pc.toNat
  else if 0x984 ≤ o && o < 0xA00 then k.seq.reg ((o - 0x984) / 4 + 1)
  else if 0xA00 ≤ o && o < 0xA20 then (Tab.get k.descSend 0 ((o - 0xA00) / 4)).toNat
  else if o = 0xA20 then bitsAt 30 k.postResult + k.postTag
  else if o = 0xA28 then match k.statusFifo with | [] => 0 | (e, _) :: _ => fld e 31 0
  else if o = 0xA2C then k.statusHi.toNat
  else if 0xA40 ≤ o && o < 0xA60 then k.qpopWord ((o - 0xA40) / 4)
  else if o = 0xA64 then k.qdoneResult.toNat
  else if o = 0xA68 then flagAt 31 k.qpopTook + flagAt 30 k.qpopPoison
  else if 0xB00 ≤ o && o < 0xB80 then
    let q := k.queue ((o - 0xB00) / 8)
    if o % 8 = 0 then q.cfg.toNat else q.word
  else if 0xC00 ≤ o && o < 0xD00 then (Tab.get k.rules 0 ((o - 0xC00) / 4)).toNat
  else if 0xD00 ≤ o && o < 0xE80 then (Tab.get k.ruleTab 0 ((o - 0xD00) / 4)).toNat
  else if 0xE80 ≤ o && o < 0xEA0 then (Tab.get k.traceSets 0 ((o - 0xE80) / 4)).toNat
  else if o = 0xF00 then k.trainCfg.toNat
  else if o = 0xF04 then k.gradBase.toNat
  else 0

/-- A read of the engine-control window of core c: a read of STATUS_POP_LO pops, and one of the low word of a PMC_VALUE
latches its high word. -/
def State.ctlRead (s : State) (c o : Nat) : Nat × State :=
  if o = 0xA28 then s.statusPop c
  else
    let k := s.core c
    let s := if 0x800 ≤ o && o < 0x900 && o % 0x10 = 8 then
        let i := (o - 0x800) / 0x10
        let p := Tab.get k.pmcs {} i
        s.setCore c { k with pmcs := Tab.set k.pmcs {} i { p with latch := BitVec.ofNat 32 (fld p.value 63 32) } }
      else s
    (k.ctlWord o, s)

/-! ### Writes of the engine-control window -/

/-- A programmable counter changed. -/
def CoreSt.modPmc (k : CoreSt) (i : Nat) (f : Pmc → Pmc) : CoreSt :=
  { k with pmcs := Tab.set k.pmcs {} i (f (Tab.get k.pmcs {} i)) }

/-- Register word r of programmable counter i written (20 R510). -/
def Pmc.write (p : Pmc) (r v : Nat) : Pmc :=
  if r = 0 then { p with cfg := BitVec.ofNat 32 (v &&& 0xF00003FF) }
  else if r = 4 then { p with filter := BitVec.ofNat 32 v }
  else if r = 8 then { p with value := put p.value 31 0 v }
  else { p with value := put p.value 63 32 v }

/-- BKPT_CTRL or BKPT_ADDR of a breakpoint written; HIT is W1C (20 R498). -/
def Bkpt.write (b : Bkpt) (hi : Bool) (v : Nat) : Bkpt :=
  if hi then { b with addr := BitVec.ofNat 32 v }
  else { b with ctrl := BitVec.ofNat 32 ((v &&& 0xFFC00000) + bitsAt 21 (b2n (nbit b.ctrl.toNat 21 && !nbit v 21))) }

/-- QPOP_CMD (10 R245): other codes do nothing. -/
def State.qpopCmd (s : State) (c v : Nat) : State :=
  let q := nfld v 27 24
  match nfld v 31 28 with
  | 1 => s.popReq c q
  | 2 => s.popRpl c q
  | 3 => s.queueDone c q
  | 4 => s.closeQueue c q
  | _ => s

/-- A store to the engine-control window that its engine does not take yet: a PENNANT without room at the router (03 R84), a
descriptor command while the descriptor engine is stalled (09 R226), or one to a queue in a bank under test (09 R240). -/
def State.ctlWaits (s : State) (c o v : Nat) : Bool :=
  (o == 0xA1C && !s.engFree (sectorOf c))
    || (o == 0xA60 && (!s.engFree (sectorOf c) || s.ringHeld c (nfld v 27 24)))

/-- A PENNANT for a core of the sender's network finds no room at the router: the write waits (03 R84). -/
def State.pennantWaits (s : State) (c v : Nat) : Bool :=
  let e : EvItem := { ev := mkEvent 6 (nfld v 29 20) 0 0 (nfld v 15 0) false 1 (sectorOf c) false (indexOf c) (nfld v 31 30) }
  (s.pennantSend c v).isSome && (s.toRouter c e false).isNone

/-- A write of the bits `mask` of v at offset o of core c's engine-control window. `free` is false for a sequencer of a
running core, which may not write the rule stores and TRAIN_CFG: none, an access fault. Writes to read-only and reserved
offsets are discarded (00 R11). -/
def State.ctlWrite (s : State) (c o v mask : Nat) (free : Bool) : Option State :=
  let k := s.core c
  let nv := masked (k.ctlWord o) v mask
  let cv := v &&& mask
  if (0xC00 ≤ o && o < 0xEA0) || o = 0xF00 then
    if !free then none
    else if o < 0xD00 then
      some (s.setCore c { k with rules := Tab.set k.rules 0 ((o - 0xC00) / 4) (BitVec.ofNat 32 nv) })
    else if o < 0xE80 then
      let w := (o - 0xD00) / 4
      some (s.setCore c { k with ruleTab := Tab.set k.ruleTab 0 w (BitVec.ofNat 32 (nv &&& ruleMask w)) })
    else if o < 0xEA0 then
      some (s.setCore c { k with traceSets := Tab.set k.traceSets 0 ((o - 0xE80) / 4) (BitVec.ofNat 32 (nv &&& setMask)) })
    else some (s.setCore c { k with trainCfg := BitVec.ofNat 32 (nv &&& trainMask) })
  else some <|
    if o = 0x000 then s.setCore c { k with intEn := nv % 16 }
    else if o = 0x004 then s.setCore c { k with intStatus := nclear k.intStatus (cv % 16) }
    else if 0x800 ≤ o && o < 0x900 then
      -- a write of one half of PMC_VALUE merges with that half
      let nv := if o % 0x10 = 0xC then masked (fld (Tab.get k.pmcs {} ((o - 0x800) / 0x10)).value 63 32) v mask else nv
      s.setCore c (k.modPmc ((o - 0x800) / 0x10) fun p => p.write (o % 0x10) nv)
    else if 0x900 ≤ o && o < 0x940 then
      s.setCore c (k.modPmc ((o - 0x900) / 4) fun p => { p with thresh := BitVec.ofNat 32 nv })
    else if 0x940 ≤ o && o < 0x960 then
      let i := (o - 0x940) / 8
      let b := Tab.get k.bkpts {} i
      -- HIT is cleared only by a 1 in the bytes written
      let nv := if o % 8 = 0 then nput nv 21 21 (b2n (nbit cv 21)) else nv
      s.setCore c { k with bkpts := Tab.set k.bkpts {} i (b.write (o % 8 != 0) nv) }
    else if o = 0x964 then match s.pennantSend c cv with
      | some t => t
      | none => s.countCore c Ctr.seqAccessFault
    else if o = 0x970 then s.setCore c { k with traceCfg := BitVec.ofNat 32 (nv &&& 0xFF00FFFF) }
    else if o = 0x980 then if k.seqHalted then s.setCore c { k with seq := { k.seq with pc := BitVec.ofNat 32 (nv / 2 * 2) } } else s
    else if 0x984 ≤ o && o < 0xA00 then
      if k.seqHalted then s.setCore c { k with seq := k.seq.setReg ((o - 0x984) / 4 + 1) nv } else s
    else if o = 0xA1C then s.descPost c (BitVec.ofNat 32 nv)
    else if 0xA00 ≤ o && o < 0xA1C then
      s.setCore c { k with descSend := Tab.set k.descSend 0 ((o - 0xA00) / 4) (BitVec.ofNat 32 (nv &&& sendMask ((o - 0xA00) / 4))) }
    else if o = 0xA60 then s.qpopCmd c cv
    else if o = 0xA64 then s.setCore c { k with qdoneResult := BitVec.ofNat 32 nv }
    else if o = 0xF04 then s.setCore c { k with gradBase := BitVec.ofNat 32 nv }
    else s

/-! ### The memory windows of the engine (04 R96 to R101) -/

/-- Word i of a table of 32-bit words with the bits `m` of v. -/
def tabPut (t : Tab Word32) (i v m : Nat) : Tab Word32 :=
  Tab.set t 0 i (BitVec.ofNat 32 (masked (Tab.get t 0 i).toNat v m))

/-- The event words in the delay ring, in slot order and then in insertion order: the order of their entries in the window
(log 16). -/
def CoreSt.delayWords (k : CoreSt) : List Word64 := k.delay.flatMap fun e => e.2.map (·.ev)

/-- The word at address a of a core's engine windows, none outside them. -/
def CoreSt.winWord (k : CoreSt) (a : Nat) : Option Nat :=
  if 0x1000000 ≤ a && a < 0x1300000 then
    let w := (a - 0x1000000) / 2
    some (k.synWord w + k.synWord (w + 1) * 65536)
  else if 0x1400000 ≤ a && a < 0x1480000 then some (Tab.get k.neuW 0 ((a - 0x1400000) / 4)).toNat
  else if 0x1500000 ≤ a && a < 0x1600000 then
    some (if a < 0x1520000 then (Tab.get k.rowW 0 ((a - 0x1500000) / 4)).toNat else 0)
  else if 0x1600000 ≤ a && a < 0x1700000 then some (Tab.get k.colW 0 ((a - 0x1600000) / 4)).toNat
  else if 0x1700000 ≤ a && a < 0x1710000 then some (k.route ((a - 0x1700000) / 4))
  else if 0x1800000 ≤ a && a < 0x1820000 then
    let v := toField 64 (a48 (k.acc56 ((a - 0x1800000) / 8))).1
    some (if a % 8 = 0 then v % 2 ^ 32 else v / 2 ^ 32)
  else if 0x1900000 ≤ a && a < 0x1940000 then
    let v := (k.delayWords.getD ((a - 0x1900000) / 8) 0).toNat
    some (if a % 8 = 0 then v % 2 ^ 32 else v / 2 ^ 32)
  else none

/-- A write of the bits `m` of v at address a of the writable engine windows, none outside them. -/
def CoreSt.winWrite (k : CoreSt) (a v m : Nat) : Option CoreSt :=
  if 0x1000000 ≤ a && a < 0x1300000 then
    let w := (a - 0x1000000) / 2
    let x := masked (k.synWord w + k.synWord (w + 1) * 65536) v m
    some ((k.putSyn w (x % 65536)).putSyn (w + 1) (x / 65536))
  else if 0x1400000 ≤ a && a < 0x1480000 then
    let i := (a - 0x1400000) / 4
    some { k with neuW := tabPut k.neuW i v (m &&& neuMask i) }
  else if 0x1500000 ≤ a && a < 0x1600000 then
    let i := (a - 0x1500000) / 4
    some (if i < 32768 then { k with rowW := tabPut k.rowW i v (m &&& rowMask i) } else k)
  else if 0x1600000 ≤ a && a < 0x1700000 then
    let i := (a - 0x1600000) / 4
    some { k with colW := tabPut k.colW i v (nclear (m &&& colMask i) (if i % 16 = 15 then 2 ^ 30 else 0)) }
  else if 0x1700000 ≤ a && a < 0x1710000 then
    some { k with routeW := tabPut k.routeW ((a - 0x1700000) / 4) v (m &&& routeMask) }
  else none

/-! ### The sequencer's own accesses (R86, R87; 09 R236, R240; 10 R261) -/

/-- Core c is running (R87). -/
def State.coreRunning (s : State) (c : Nat) : Bool := (s.netOf c).running

/-- Sector-memory offset of a sequencer address. -/
def smemOfs (a : Nat) : Nat := a - 0x10000000

/-- The address lies in sector memory. -/
def inSmem (a : Nat) : Bool := 0x10000000 ≤ a && a < 0x10800000

/-- The address lies in the migration buffer. -/
def inMigBuf (a : Nat) : Bool := 0x10020000 ≤ a && a < 0x10028000

/-- A refused access: no engine state changes, SEQ_ACCESS_FAULT counts. -/
def State.seqFault (s : State) (c : Nat) : State := s.countCore c Ctr.seqAccessFault

/-- A load by core c's sequencer of n bytes at a, aligned to n: the value, or none where the access faults. An
uncorrectable word of sector memory faults and raises ENGINE_FAULT (09 R240). -/
def State.seqLoad (s : State) (c a n : Nat) : Option Nat × State :=
  let part (w : Nat) : Nat := w / 2 ^ (8 * (a % 4)) % 2 ^ (8 * n)
  if 0x10000 ≤ a && a < 0x18000 then (some (memNat (s.core c).seq.dmem (a - 0x10000) n), s)
  else if 0x20000 ≤ a && a < 0x21000 then
    let r := s.ctlRead c (a / 4 * 4 - 0x20000)
    (some (part r.1), r.2)
  else if inSmem a then
    if inMigBuf a then (none, s.seqFault c)
    else if (s.sector (sectorOf c)).poisoned (smemOfs a) n then
      (none, ((s.memUncorr (sectorOf c)).raiseSeq c 3).seqFault c)
    else (some (memNat (s.sector (sectorOf c)).mem (smemOfs a) n), s.smemCountCore c 0 n)
  else match (s.core c).winWord (a / 4 * 4) with
    | some w => (some (part w), s)
    | none => (none, s.seqFault c)

/-- A store by core c's sequencer of n bytes of v at a, aligned to n; false where it faults. -/
def State.seqStore (s : State) (c a n v : Nat) : Bool × State :=
  let m := byteMask (a % 4) n
  let w := v % 2 ^ (8 * n) * 2 ^ (8 * (a % 4))
  if 0x10000 ≤ a && a < 0x18000 then
    (true, s.modCore c fun k => { k with seq := { k.seq with dmem := memPut k.seq.dmem (a - 0x10000) n v } })
  else if 0x20000 ≤ a && a < 0x21000 then
    match s.ctlWrite c (a / 4 * 4 - 0x20000) w m (!s.coreRunning c) with
    | some t => (true, t)
    | none => (false, s.seqFault c)
  else if inSmem a then
    if inMigBuf a || (smemOfs a < 0x20000 && s.coreRunning c) then (false, s.seqFault c)
    else (true, (s.smemStore (sectorOf c) (smemOfs a) (toLe n v)).smemCountCore c 1 n)
  else if s.coreRunning c then (false, s.seqFault c)
  else match (s.core c).winWrite (a / 4 * 4) w m with
    | some k => (true, s.setCore c k)
    | none => (false, s.seqFault c)

/-- What an ADD32 by a sequencer does to object o of TYPE ty: 1 ADD, 2 ARRIVE, 3 POST (10 R261). -/
def addOp (ty : Nat) : Nat := ty

/-- The cause of the access fault of an atomic: a load access fault where a word is uncorrectable (09 R240), else that of a store
or atomic. -/
def State.atomicCause (s : State) (c kind a : Nat) : Nat :=
  let w := atomicBytes kind
  if inSmem a && !inMigBuf a && a % w == 0 && (s.sector (sectorOf c)).poisoned (smemOfs a) w then 5 else 7

/-- A bank atomic by core c's sequencer (R86; 09 R239; 10 R261): the value found, or none where it faults. An ADD32 on a
synchronisation object with a TYPE is the operation of that type. -/
def State.seqAtomic (s : State) (c kind a operand : Nat) : Option Nat × State :=
  let n := sectorOf c
  let o := smemOfs a
  let w := atomicBytes kind
  if !inSmem a || inMigBuf a || a % w != 0 then (none, s.seqFault c)
  else if (s.sector n).poisoned o w then (none, ((s.memUncorr n).raiseSeq c 3).seqFault c)
  else
    let ty := (s.sector n).objType (o / 16)
    if o < 0x20000 && kind = 0 && o % 16 = 0 && ty != 0 then
      let r := s.syncApply n (o / 16) (addOp ty) (operand % 2 ^ 32)
      (some r.1, (r.2.smemCountCore c 1 w))
    else if o < 0x20000 && !(kind = 0 && o % 16 = 0) && s.coreRunning c then (none, s.seqFault c)
    else
      let r := s.smemAtomic n o kind operand
      (some r.1, r.2.smemCountCore c 1 w)

end Sys2Proof.Machine
end

