-- ==== Sys2Proof/Machine/Debug.lean ====
section
/-! DEFINITION. Debug.lean: halts, breakpoints and resumes of cores (20 R494 to R501), and the debug commands (14 R374,
R375). -/

namespace Sys2Proof.Machine

/-! ### Halting (20 R494, R499, R501) -/

/-- A halt of core c begins to hold up its network: under LOCKSTEP the open step waits (R499), under DEADLINE with HOLD_EN
the step master holds (R501). -/
def State.holdNet (s : State) (k : Nat) : State :=
  let n := s.net k
  if !n.running then s
  else if n.lockstep then
    if n.phase = 2 && n.stretchFrom = 0 then s.modNet k fun n => { n with stretchFrom := s.now + 1 } else s
  else if n.holdEn && !n.held && n.phase != 0 && s.now < n.cN then
    s.modNet k fun n => { n with held := true, holdStart := s.now, holdRest := n.cN - s.now }
  else s

/-- A halt of core c is requested, for `cause`: the sequencer stops at once, the engines as R494 says. -/
def State.haltCore (s : State) (c cause : Nat) : State :=
  let k := s.core c
  if k.halted then s
  else
    let s := s.setCore c { k with seqHalted := true, haltPending := true, haltCause := cause }
    if k.net = 0 then s else s.holdNet (k.net - 1)

/-- A halted core has come to rest (R494): in-flight events are done, FIRE and LEARN are over, and every destination of
the head item is sent. -/
def CoreSt.atRest (k : CoreSt) : Bool :=
  k.lookup.isNone && k.fetch.isNone && k.seeds.isEmpty && (k.phase != 2 || k.fireHeld) && !k.learning
    && (match k.eq with | [] => true | x :: _ => x.sent == 0)

/-- CORE_HALT_COMPLETE: ENG_HALTED sets, with its HALT record; a halt requested in a migration waits for its end (R497). -/
def execCoreHaltComplete (core : CoreId) (s : State) : Res :=
  .next <|
    let c := core.val
    let k := s.core c
    if !k.haltPending || !k.atRest || (s.sector (sectorOf c)).mstate (indexOf c) == 1 || !s.sectorRuns (sectorOf c) then s
    else (s.setCore c { k with haltPending := false, engHalted := true }).traceCore c 25 6 k.haltCause k.seq.pc.toNat

/-! ### Resuming (20 R496, R499, R501) -/

/-- No core of network k is halted any more: what waited for it goes on. -/
def State.unholdNet (s : State) (k : Nat) : State :=
  let n := s.net k
  if n.cores.any fun c => (s.core c).halted then s
  else
    let s := if n.stretchFrom = 0 then s
      else ((s.countNet k Ctr.debugStretch).countNet k Ctr.debugStretchNs (s.now - (n.stretchFrom - 1))).modNet k
        fun n => { n with stretchFrom := 0 }
    if n.held then
      (s.countNet k Ctr.debugHoldNs (s.now - n.holdStart)).modNet k fun n => { n with
        held := false, cN := s.now + n.holdRest, dN := s.now + n.holdRest + 10 * n.margin }
    else s

/-- Core c resumes: sequencer, popping, delay-ring release and emission restart, with the RESUME record. -/
def State.resumeCore (s : State) (c : Nat) : State :=
  let k := s.core c
  if !k.halted && !k.seqHalted then s
  else
    let s := s.setCore c { k with
      seqHalted := false, engHalted := false, haltPending := false, haltCause := 0, fireHeld := false }
    let s := s.traceCore c 25 7 0 0
    if k.net = 0 then s
    else ((s.unholdNet (k.net - 1)).haltCheck (k.net - 1)).tryOpen (k.net - 1)

/-! ### Breakpoints (20 R498) -/

/-- Breakpoint b matches an access of kind 0 execute, 1 load, 2 store at address a. -/
def Bkpt.matches (b : Bkpt) (kind a : Nat) : Bool :=
  let m := fld b.ctrl 26 22
  let bk := fld b.ctrl 30 29
  nbit b.ctrl.toNat 31 && (bk == kind || (bk == 3 && kind != 0)) && b.addr.toNat / 2 ^ m == a / 2 ^ m

/-- The breakpoints of core k that match an access. -/
def CoreSt.hits (k : CoreSt) (kind a : Nat) : List Nat := (upTo 4).filter fun i => (Tab.get k.bkpts {} i).matches kind a

/-- A hit of breakpoint i of core c: BKPT_HITS, HIT, LAST_BKPT and a BREAK record. -/
def State.bkptHit (s : State) (c i : Nat) : State :=
  let k := s.core c
  let b := Tab.get k.bkpts {} i
  let s := s.setCore c { k with
    bkpts := Tab.set k.bkpts {} i { b with ctrl := b.ctrl ||| (1#32 <<< 21) }, lastBkpt := i }
  (s.countCore c Ctr.bkptHits).traceCore c 25 8 i k.seq.pc.toNat

/-- The widest action of breakpoints: 0 sequencer, 1 core, 2 network; a reserved code acts as the sequencer's. -/
def CoreSt.action (k : CoreSt) (l : List Nat) : Nat :=
  (l.map fun i => fld (Tab.get k.bkpts {} i).ctrl 28 27 % 3).foldl max 0

/-- The breakpoints in l hit on core c. -/
def State.breaks (s : State) (c : Nat) (l : List Nat) : State :=
  if l.isEmpty then s
  else
    let k := s.core c
    let act := k.action l
    let s := l.foldl (fun s i => s.bkptHit c i) s
    let s := s.modCore c fun k => { k with seqHalted := true, haltCause := if k.halted then k.haltCause else 2 }
    if act = 0 then s
    else
      let s := s.haltCore c 2
      if act = 1 || k.net = 0 then s
      else ((s.net (k.net - 1)).cores.filter (· != c)).foldl (fun s o => s.haltCore o 3) s

/-! ### DEBUG_HALT and DEBUG_RESUME (14 R374) -/

/-- The cores that a command names: CORE of NET, or all of NET. -/
def State.coresNamed (s : State) (c : List Byte) : List Nat :=
  if leAt c 0x40 2 = 0xFFFF then (s.net (cmdNet c)).cores else [leAt c 0x40 2]

/-- CORE is a core of NET, or 0xFFFF. -/
def State.needNamed (s : State) (m : Nat) (e : JEntry) (f : State → State) : State :=
  if leAt e.cmd 0x40 2 = 0xFFFF then f s else s.needMember m e (leAt e.cmd 0x40 2) f

/-- A core that the command in front of mailbox m names is in migration: the command waits (18 R456). -/
def State.namedMigrates (s : State) (m op : Nat) : Bool :=
  (s.front m op).any fun e => (s.coresNamed e.cmd).any fun c => (s.sector (sectorOf c)).mstate (indexOf c) == 1

/-- DEBUG_HALT. -/
def execDebugHalt (mb : MboxId) (s : State) : Res :=
  .next <| if s.namedMigrates mb.val 0x80 then s
    else s.runCmd mb.val 0x80 fun s e =>
      s.needNet mb.val e fun s => s.needNotShed mb.val e fun s => s.needNamed mb.val e fun s =>
        ((s.coresNamed e.cmd).foldl (fun s c => s.haltCore c 1) s).finish mb.val e

/-- The resume of core c, with whether a breakpoint hits it in the same cycle: an execute breakpoint on the instruction at
which the sequencer restarts (R497). A hit whose action is the sequencer alone leaves only the sequencer halted. -/
def State.resumeOrHit (s : State) (c : Nat) : Bool × State :=
  let k := s.core c
  let l := if k.seqHalted then k.hits 0 k.seq.pc.toNat else []
  if l.isEmpty then (false, s.resumeCore c)
  else if k.action l = 0 then (true, (s.resumeCore c).breaks c l)
  else (true, s.breaks c l)

/-- DEBUG_RESUME. -/
def execDebugResume (mb : MboxId) (s : State) : Res :=
  .next <| s.runCmd mb.val 0x81 fun s e =>
    s.needNet mb.val e fun s => s.needNotShed mb.val e fun s => s.needNamed mb.val e fun s =>
      let r := (s.coresNamed e.cmd).foldl (fun (x : Bool × State) c =>
        let y := x.2.resumeOrHit c
        (x.1 || y.1, y.2)) (false, s)
      r.2.finish mb.val e [BitVec.ofNat 8 (b2n r.1)]

/-- Every halt ends: the debug authorisation has ended (R480, R496). -/
def State.resumeAll (s : State) : State :=
  ((Tab.keys s.cores).filter fun c => (s.core c).halted || (s.core c).seqHalted).foldl State.resumeCore s

/-! ### The spaces of DEBUG_READ and DEBUG_WRITE (14 R375) -/

/-- A flow context as the store holds it (11 R283). -/
def FlowSt.bytes (f : FlowSt) : List Byte :=
  toLe 4 (bitsAt 16 f.peerDev + f.peerFlow)
    ++ toLe 4 (bitsAt 16 f.epoch + bitsAt 13 f.fstate + flagAt 12 f.stalled + bitsAt 8 f.net)
    ++ toLe 4 f.nextSeq ++ toLe 4 f.ackedSeq ++ toLe 4 f.rxWm ++ toLe 4 f.rxArrived ++ toLe 4 f.rtxHead ++ toLe 4 f.rtxTail

/-- The bytes addr to addr+len-1 of an array of entries of n bytes. -/
def entryBytes (n : Nat) (f : Nat → List Byte) (addr len : Nat) : List Byte :=
  (((upTo ((addr % n + len + n - 1) / n)).flatMap fun i => f (addr / n + i)).drop (addr % n)).take len

/-- The word at an aligned address of a core's map as the Halyard reads it. -/
def State.dbgWord (s : State) (c a : Nat) : Nat × State :=
  let k := s.core c
  if a < 0x8000 then (memNat k.seq.imem a 4, s)
  else if 0x10000 ≤ a && a < 0x18000 then (memNat k.seq.dmem (a - 0x10000) 4, s)
  else if 0x20000 ≤ a && a < 0x21000 then s.ctlRead c (a - 0x20000)
  else if inSmem a then (memNat (s.sector (sectorOf c)).mem (smemOfs a) 4, s)
  else ((k.winWord a).getD 0, s)

/-- n words of a core's map from an aligned address. -/
def State.dbgWords (s : State) (c : Nat) : Nat → Nat → List Byte × State
  | _, 0 => ([], s)
  | a, n + 1 =>
    let r := s.dbgWord c a
    let t := State.dbgWords r.2 c (a + 4) n
    (toLe 4 r.1 ++ t.1, t.2)

/-- A range of space 6 leaves usable capacity. -/
def State.outOfMemory (s : State) (addr len : Nat) : Bool := s.gddr.top < addr + len

/-- The bytes of a range of a space. -/
def State.dbgRead (s : State) (space unit addr len : Nat) : List Byte × State :=
  match space with
  | 0 =>
    let r := s.dbgWords unit (addr / 4 * 4) ((addr % 4 + len + 3) / 4)
    ((r.1.drop (addr % 4)).take len, r.2)
  | 1 => (s.smemPeek unit addr len, s)
  | 2 => (entryBytes 32 (fun i => (s.flow i).bytes) addr len, s)
  | 3 => (entryBytes 2 (fun i => toLe 2 (Tab.get s.routes 0 i).toNat) addr len, s)
  | 4 => (entryBytes 4 (fun i => toLe 4 (Tab.get (s.sector unit).schedTab 0 i).toNat) addr len, s)
  | 5 => (entryBytes 4 (fun i => toLe 4 (if i < 1024 then Tab.get (s.core unit).prog 0 i
      else Tab.get (s.core unit).progEnt 0 (i - 1024)).toNat) addr len, s)
  | _ =>
    let r := s.gView addr len
    (r.1, r.2.gddrCount addr len .system 0)

/-- DEBUG_READ. -/
def execDebugRead (mb : MboxId) (s : State) : Res :=
  .next <| s.runCmd mb.val 0x82 fun s e =>
    let space := leAt e.cmd 0x40 1
    let len := leAt e.cmd 0x44 4
    let addr := leAt e.cmd 0x48 8
    if space = 6 && s.outOfMemory addr len then s.refuse mb.val e codeState Why.badField
    else
      let r := s.dbgRead space (leAt e.cmd 0x42 2) addr len
      r.2.finishResult mb.val e r.1

/-- Some network with a core in sector n is running. -/
def State.sectorNetRuns (s : State) (n : Nat) : Bool :=
  (upTo 16).any fun i => s.coreRunning (16 * n + i)

/-- A range touches an engine window of a core's map: the engine-control window outside its debug registers (20 R495), or
an engine memory. -/
def engineWin (a len : Nat) : Bool :=
  let meets (lo hi : Nat) : Bool := a < hi && lo < a + len
  meets 0x20000 0x20800 || meets 0x20A00 0x21000 || meets 0x1000000 0x1710000

/-- Why a DEBUG_WRITE is refused at its execution, 0 for none (R375). -/
def State.dbgRefusal (s : State) (space unit addr len : Nat) : Nat :=
  match space with
  | 0 =>
    if engineWin addr len && s.coreRunning unit && !(s.core unit).engHalted then Why.notHalted
    else if inSmem addr && smemOfs addr < 0x20000 && s.sectorNetRuns (sectorOf unit) then Why.netRunning
    else 0
  | 1 => if addr < 0x20000 && s.sectorNetRuns unit then Why.netRunning else 0
  | 4 => if s.sectorNetRuns unit then Why.netRunning else 0
  | 5 => if s.coreRunning unit && !(s.core unit).engHalted then Why.notHalted else 0
  | _ =>
    if s.outOfMemory addr len || addr < s.gddr.imageBase
      || s.regions.any (fun r => r.kind == 0 && decide (r.base < addr + len) && decide (addr < r.base + r.size)) then Why.badField
    else 0

/-- A word of a core's map written by the Halyard. -/
def State.dbgPut (s : State) (c : Nat) (p : Nat × Nat × Nat) : State :=
  let a := p.1
  let k := s.core c
  if a < 0x8000 then
    s.setCore c { k with seq := { k.seq with imem := memPut k.seq.imem a 4 (masked (memNat k.seq.imem a 4) p.2.2 p.2.1) } }
  else if 0x10000 ≤ a && a < 0x18000 then
    let b := a - 0x10000
    let s := s.setCore c { k with seq := { k.seq with dmem := memPut k.seq.dmem b 4 (masked (memNat k.seq.dmem b 4) p.2.2 p.2.1) } }
    -- the owner Halyard makes the write (03 R89; log 82)
    if Config.requestArea b then s.raiseSeq c 1 else s
  else if 0x20000 ≤ a && a < 0x21000 then (s.ctlWrite c (a - 0x20000) p.2.2 p.2.1 true).getD s
  else match k.winWrite a p.2.2 p.2.1 with
    | some k => s.setCore c k
    | none => s

/-- Words of a table of 32-bit words written, each under the mask its index has. -/
def tabPuts (t : Tab Word32) (mask : Nat → Nat) (l : List (Nat × Nat × Nat)) : Tab Word32 :=
  l.foldl (fun t p => tabPut t (p.1 / 4) p.2.2 (p.2.1 &&& mask (p.1 / 4))) t

/-- Bytes written to a range of a space. -/
def State.dbgWrite (s : State) (space unit addr : Nat) (bytes : List Byte) : State :=
  let parts := wordParts addr bytes
  match space with
  | 0 => if inSmem addr then s.smemStore (sectorOf unit) (smemOfs addr) bytes else parts.foldl (fun s p => s.dbgPut unit p) s
  | 1 => s.smemStore unit addr bytes
  | 4 => s.modSector unit fun q => { q with schedTab := tabPuts q.schedTab (fun _ => 0xFFFFFE00) parts }
  | 5 => s.modCore unit fun k =>
      let lo := parts.filter fun p => p.1 < 0x1000
      let hi := (parts.filter fun p => 0x1000 ≤ p.1).map fun p => (p.1 - 0x1000, p.2)
      { k with prog := tabPuts k.prog (fun _ => 0xFFFFFFFF) lo, progEnt := tabPuts k.progEnt (fun _ => entMask) hi }
  | _ => s.gWrite addr bytes .system

/-- DEBUG_WRITE: `hostData` is what SRC_ADDR in host memory holds. -/
def execDebugWrite (mb : MboxId) (hostData : List Byte) (s : State) : Res :=
  .next <| s.runCmd mb.val 0x83 fun s e =>
    let space := leAt e.cmd 0x40 1
    let unit := leAt e.cmd 0x42 2
    let len := leAt e.cmd 0x44 4
    let addr := leAt e.cmd 0x48 8
    let why := s.dbgRefusal space unit addr len
    if why ≠ 0 then s.refuse mb.val e codeState why
    else ((s.countDev Ctr.pcieRxBytes noSub len).dbgWrite space unit addr (fitBytes len hostData)).finish mb.val e

end Sys2Proof.Machine
end

