-- ==== Sys2Proof/Machine/Sequencer.lean ====
section
/-! DEFINITION. Sequencer.lean: the core sequencer (03 R86 to R89): an RV32IMC machine-mode core. The spec names the
instruction set; its encodings, CSRs and traps are those of the RISC-V manuals (PRESUMED, log 6). -/

namespace Sys2Proof.Machine

/-! ### Encodings -/

/-- An I-type word. -/
def encI (op f3 rd rs1 imm : Nat) : Nat := imm % 4096 * 2 ^ 20 + rs1 * 2 ^ 15 + f3 * 2 ^ 12 + rd * 2 ^ 7 + op
/-- An S-type word. -/
def encS (f3 rs1 rs2 imm : Nat) : Nat :=
  nfld imm 11 5 * 2 ^ 25 + rs2 * 2 ^ 20 + rs1 * 2 ^ 15 + f3 * 2 ^ 12 + nfld imm 4 0 * 2 ^ 7 + 0x23
/-- A B-type word. -/
def encB (f3 rs1 imm : Nat) : Nat :=
  nfld imm 12 12 * 2 ^ 31 + nfld imm 10 5 * 2 ^ 25 + rs1 * 2 ^ 15 + f3 * 2 ^ 12 + nfld imm 4 1 * 2 ^ 8
    + nfld imm 11 11 * 2 ^ 7 + 0x63
/-- A J-type word. -/
def encJ (rd imm : Nat) : Nat :=
  nfld imm 20 20 * 2 ^ 31 + nfld imm 10 1 * 2 ^ 21 + nfld imm 11 11 * 2 ^ 20 + nfld imm 19 12 * 2 ^ 12 + rd * 2 ^ 7 + 0x6F
/-- An R-type word. -/
def encR (f7 f3 rd rs1 rs2 : Nat) : Nat :=
  f7 * 2 ^ 25 + rs2 * 2 ^ 20 + rs1 * 2 ^ 15 + f3 * 2 ^ 12 + rd * 2 ^ 7 + 0x33

/-- Sign extension of a field of `bits` bits to `width` bits. -/
def sextTo (bits width v : Nat) : Nat := toField width (sext bits v)

/-- Quadrant 0 of the compressed instructions. -/
def rvcQ0 (c : Nat) : Option Nat :=
  let rd := nfld c 4 2 + 8
  let rs := nfld c 9 7 + 8
  let lw := nfld c 12 10 * 8 + nfld c 6 6 * 4 + nfld c 5 5 * 64
  match nfld c 15 13 with
  | 0 =>
    let imm := nfld c 12 11 * 16 + nfld c 10 7 * 64 + nfld c 6 6 * 4 + nfld c 5 5 * 8
    if imm = 0 then none else some (encI 0x13 0 rd 2 imm)
  | 2 => some (encI 0x03 2 rd rs lw)
  | 6 => some (encS 2 rs rd lw)
  | _ => none

/-- Offset of C.J and C.JAL. -/
def rvcJ (c : Nat) : Nat :=
  sextTo 12 21 (nfld c 12 12 * 2048 + nfld c 11 11 * 16 + nfld c 10 9 * 256 + nfld c 8 8 * 1024 + nfld c 7 7 * 64
    + nfld c 6 6 * 128 + nfld c 5 3 * 2 + nfld c 2 2 * 32)

/-- The arithmetic of quadrant 1. -/
def rvcAlu (c : Nat) : Option Nat :=
  let rd := nfld c 9 7 + 8
  let rs := nfld c 4 2 + 8
  let sh := nfld c 6 2
  match nfld c 11 10 with
  | 0 => if nbit c 12 then none else some (encI 0x13 5 rd rd sh)
  | 1 => if nbit c 12 then none else some (encI 0x13 5 rd rd (1024 + sh))
  | 2 => some (encI 0x13 7 rd rd (sextTo 6 12 (nfld c 12 12 * 32 + sh)))
  | _ =>
    if nbit c 12 then none
    else match nfld c 6 5 with
    | 0 => some (encR 0x20 0 rd rd rs)
    | 1 => some (encR 0 4 rd rd rs)
    | 2 => some (encR 0 6 rd rd rs)
    | _ => some (encR 0 7 rd rd rs)

/-- Quadrant 1. -/
def rvcQ1 (c : Nat) : Option Nat :=
  let rd := nfld c 11 7
  let imm6 := nfld c 12 12 * 32 + nfld c 6 2
  let br := sextTo 9 13 (nfld c 12 12 * 256 + nfld c 11 10 * 8 + nfld c 6 5 * 64 + nfld c 4 3 * 2 + nfld c 2 2 * 32)
  match nfld c 15 13 with
  | 0 => some (encI 0x13 0 rd rd (sextTo 6 12 imm6))
  | 1 => some (encJ 1 (rvcJ c))
  | 2 => some (encI 0x13 0 rd 0 (sextTo 6 12 imm6))
  | 3 =>
    if rd = 2 then
      let imm := nfld c 12 12 * 512 + nfld c 6 6 * 16 + nfld c 5 5 * 64 + nfld c 4 3 * 128 + nfld c 2 2 * 32
      if imm = 0 then none else some (encI 0x13 0 2 2 (sextTo 10 12 imm))
    else if imm6 = 0 then none else some (sextTo 6 20 imm6 * 4096 + rd * 128 + 0x37)
  | 4 => rvcAlu c
  | 5 => some (encJ 0 (rvcJ c))
  | 6 => some (encB 0 (nfld c 9 7 + 8) br)
  | _ => some (encB 1 (nfld c 9 7 + 8) br)

/-- Quadrant 2. -/
def rvcQ2 (c : Nat) : Option Nat :=
  let rd := nfld c 11 7
  let rs := nfld c 6 2
  match nfld c 15 13 with
  | 0 => if nbit c 12 then none else some (encI 0x13 1 rd rd rs)
  | 2 => if rd = 0 then none else some (encI 0x03 2 rd 2 (nfld c 12 12 * 32 + nfld c 6 4 * 4 + nfld c 3 2 * 64))
  | 4 =>
    if !nbit c 12 then
      if rs = 0 then (if rd = 0 then none else some (encI 0x67 0 0 rd 0)) else some (encR 0 0 rd 0 rs)
    else if rs = 0 then some (if rd = 0 then 0x00100073 else encI 0x67 0 1 rd 0)
    else some (encR 0 0 rd rd rs)
  | 6 => some (encS 2 2 rs (nfld c 12 9 * 4 + nfld c 8 7 * 64))
  | _ => none

/-- The 32-bit instruction that a 16-bit one stands for, none where it is illegal. -/
def rvcExpand (c : Nat) : Option Nat :=
  match c % 4 with
  | 0 => rvcQ0 c
  | 1 => rvcQ1 c
  | _ => rvcQ2 c

/-! ### Arithmetic -/

/-- A 32-bit value as a signed number. -/
def s32 (a : Nat) : Int := sext 32 a

/-- OP and OP-IMM with funct3 f3; `alt` is SUB or SRA. -/
def rvAlu (f3 : Nat) (alt : Bool) (a b : Nat) : Nat :=
  match f3 with
  | 0 => if alt then (a + 2 ^ 32 - b) % 2 ^ 32 else (a + b) % 2 ^ 32
  | 1 => a * 2 ^ (b % 32) % 2 ^ 32
  | 2 => b2n (decide (s32 a < s32 b))
  | 3 => b2n (decide (a < b))
  | 4 => a ^^^ b
  | 5 => if alt then toField 32 (s32 a / (2 ^ (b % 32) : Nat)) else a / 2 ^ (b % 32)
  | 6 => a ||| b
  | _ => a &&& b

/-- The M extension. -/
def rvMul (f3 a b : Nat) : Nat :=
  match f3 with
  | 0 => a * b % 2 ^ 32
  | 1 => toField 32 (s32 a * s32 b / (2 ^ 32 : Nat))
  | 2 => toField 32 (s32 a * (b : Int) / (2 ^ 32 : Nat))
  | 3 => a * b / 2 ^ 32
  | 4 => if b = 0 then 2 ^ 32 - 1 else toField 32 (Int.tdiv (s32 a) (s32 b))
  | 5 => if b = 0 then 2 ^ 32 - 1 else a / b
  | 6 => if b = 0 then a else toField 32 (Int.tmod (s32 a) (s32 b))
  | _ => if b = 0 then a else a % b

/-- A branch is taken; none for a reserved funct3. -/
def rvTaken (f3 a b : Nat) : Option Bool :=
  match f3 with
  | 0 => some (a == b)
  | 1 => some (a != b)
  | 4 => some (decide (s32 a < s32 b))
  | 5 => some (decide (s32 b ≤ s32 a))
  | 6 => some (decide (a < b))
  | 7 => some (decide (b ≤ a))
  | _ => none

/-! ### Traps and CSRs (21 R527) -/

/-- Some interrupt bit is set in both registers (21 R527). -/
def CoreSt.intPending (k : CoreSt) : Bool := (k.intEn &&& k.intStatus) != 0

/-- The sequencer's state changed. -/
def State.modSeq (s : State) (c : Nat) (f : SeqSt → SeqSt) : State := s.modCore c fun k => { k with seq := f k.seq }

/-- A trap is taken. -/
def SeqSt.trap (q : SeqSt) (cause tval : Nat) (isInt : Bool) : SeqSt :=
  let base := q.mtvec.toNat / 4 * 4
  { q with
    mepc := q.pc, mcause := BitVec.ofNat 32 (cause + flagAt 31 isInt), mtval := BitVec.ofNat 32 tval
    mpie := q.mie, mie := false
    pc := BitVec.ofNat 32 (if isInt && q.mtvec.toNat % 4 == 1 then base + 4 * cause else base) }

/-- An exception of core c's sequencer. -/
def State.seqTrap (s : State) (c cause tval : Nat) : State := s.modSeq c fun q => q.trap cause tval false

/-- A CSR as read, none where it does not exist. A cycle count is a free value (log 10). -/
def CoreSt.csr (k : CoreSt) (n free : Nat) : Option Nat :=
  let q := k.seq
  if n = 0x300 then some (flagAt 3 q.mie + flagAt 7 q.mpie + 0x1800)
  else if n = 0x301 then some 0x40001104
  else if n = 0x304 then some q.mieReg.toNat
  else if n = 0x305 then some q.mtvec.toNat
  else if n = 0x340 then some q.mscratch.toNat
  else if n = 0x341 then some q.mepc.toNat
  else if n = 0x342 then some q.mcause.toNat
  else if n = 0x343 then some q.mtval.toNat
  else if n = 0x344 then some (flagAt 11 k.intPending)
  else if n = 0xB00 || n = 0xB80 then some (Config.freeNat free % 2 ^ 32)
  else if n = 0xB02 then some (q.retired % 2 ^ 32)
  else if n = 0xB82 then some (q.retired / 2 ^ 32 % 2 ^ 32)
  else if n = 0x310 || n = 0x320 || (0xF11 ≤ n && n ≤ 0xF15) || (0xB03 ≤ n && n < 0xB20) || (0xB83 ≤ n && n < 0xBA0)
      || (0x323 ≤ n && n < 0x340) then some 0
  else none

/-- A CSR written: the others keep what they hold. -/
def SeqSt.csrPut (q : SeqSt) (n v : Nat) : SeqSt :=
  let w := BitVec.ofNat 32 v
  if n = 0x300 then { q with mie := nbit v 3, mpie := nbit v 7 }
  else if n = 0x304 then { q with mieReg := BitVec.ofNat 32 (v &&& 0x888) }
  else if n = 0x305 then { q with mtvec := BitVec.ofNat 32 (v / 4 * 4 + v % 2) }
  else if n = 0x340 then { q with mscratch := w }
  else if n = 0x341 then { q with mepc := BitVec.ofNat 32 (v / 2 * 2) }
  else if n = 0x342 then { q with mcause := w }
  else if n = 0x343 then { q with mtval := w }
  else if n = 0xB02 then { q with retired := nput q.retired 31 0 v }
  else if n = 0xB82 then { q with retired := nput q.retired 63 32 v }
  else q

/-! ### One instruction -/

/-- The instruction retires: the pc goes to `next`. -/
def State.retire (s : State) (c next : Nat) : State :=
  (s.modSeq c fun q => { q with pc := BitVec.ofNat 32 next, retired := q.retired + 1 }).pmcEvent c 0x304 1

/-- The instruction retires with v in x_rd. -/
def State.retireReg (s : State) (c next rd v : Nat) : State := (s.modSeq c fun q => q.setReg rd v).retire c next

/-- The bank of a sector-memory address is under test: a request to it stalls (09 R240). -/
def State.bankHeld (s : State) (c a : Nat) : Bool :=
  inSmem a && s.bankHolds (sectorOf c) (smemOfs a)

/-- A load of 2^(f3 mod 4) bytes at a; f3 4 and 5 extend with zeros. -/
def State.rvLoad (s : State) (c next f3 rd a : Nat) : State :=
  let n := 2 ^ (f3 % 4)
  if a % n != 0 then s.seqTrap c 4 a
  else if s.bankHeld c a then s.countSec (sectorOf c) Ctr.bankTestStall
  else match s.seqLoad c a n with
    | (none, t) => t.seqTrap c 5 a
    | (some v, t) =>
      let s := t.retireReg c next rd (if f3 < 4 then sextTo (8 * n) 32 v else v)
      s.breaks c ((s.core c).hits 1 a)

/-- A store of n bytes of v at a. -/
def State.rvStore (s : State) (c next n a v : Nat) : State :=
  if a % n != 0 then s.seqTrap c 6 a
  else if s.bankHeld c a then s.countSec (sectorOf c) Ctr.bankTestStall
  else if a / 4 * 4 = 0x20964 && s.pennantWaits c v then s
  else if 0x20000 ≤ a && a < 0x21000 && s.ctlWaits c (a / 4 * 4 - 0x20000) v then
    (if a / 4 * 4 = 0x20A60 && s.ringHeld c (nfld v 27 24) then s.testStall (sectorOf c) else s)
  else match s.seqStore c a n v with
    | (false, t) => t.seqTrap c 7 a
    | (true, t) =>
      let s := t.retire c next
      s.breaks c ((s.core c).hits 2 a)

/-- A CSR instruction: op 1 write, 2 set, 3 clear, with operand v; `writes` is false for a set or clear of nothing. -/
def State.rvCsr (s : State) (c next w n op rd v : Nat) (writes : Bool) : State :=
  match (s.core c).csr n s.free with
  | none => s.seqTrap c 2 w
  | some old =>
    if writes && nfld n 11 10 = 3 then s.seqTrap c 2 w
    else
      let s := if n = 0xB00 || n = 0xB80 then s.drawn else s
      let new := if op = 1 then v else if op = 2 then old ||| v else nclear old v
      let s := s.retireReg c next rd old
      if writes then s.modSeq c fun q => q.csrPut n new else s

/-- SYSTEM instructions. -/
def State.rvSystem (s : State) (c pc next w : Nat) : State :=
  let f3 := nfld w 14 12
  let rs := nfld w 19 15
  if f3 = 0 then
    if w = 0x00000073 then s.seqTrap c 11 0
    else if w = 0x00100073 then s.seqTrap c 3 pc
    else if w = 0x30200073 then
      (s.modSeq c fun q => { q with mie := q.mpie, mpie := true }).retire c (s.core c).seq.mepc.toNat
    else if w = 0x10500073 then (s.modSeq c fun q => { q with wfi := true }).retire c next
    else s.seqTrap c 2 w
  else if f3 = 4 then s.seqTrap c 2 w
  else
    let v := if f3 < 4 then (s.core c).seq.reg rs else rs
    s.rvCsr c next w (nfld w 31 20) (f3 % 4) (nfld w 11 7) v (f3 % 4 == 1 || rs != 0)

/-- OP and OP-IMM: the value, none where the encoding is illegal. -/
def rvOp (w a b : Nat) (imm : Bool) : Option Nat :=
  let f3 := nfld w 14 12
  let f7 := nfld w 31 25
  if imm then
    if f3 = 1 then (if f7 = 0 then some (rvAlu 1 false a (b % 32)) else none)
    else if f3 = 5 then (if f7 = 0 || f7 = 0x20 then some (rvAlu 5 (f7 == 0x20) a (b % 32)) else none)
    else some (rvAlu f3 false a b)
  else if f7 = 1 then some (rvMul f3 a b)
  else if f7 = 0 || (f7 = 0x20 && (f3 = 0 || f3 = 5)) then some (rvAlu f3 (f7 == 0x20) a b)
  else none

/-- The instruction w at pc executes; the next one is at `next`. -/
def State.rvExec (s : State) (c pc next w : Nat) : State :=
  let q := (s.core c).seq
  let rd := nfld w 11 7
  let a := q.reg (nfld w 19 15)
  let b := q.reg (nfld w 24 20)
  let f3 := nfld w 14 12
  let immI := sextTo 12 32 (nfld w 31 20)
  let immS := sextTo 12 32 (nfld w 31 25 * 32 + nfld w 11 7)
  let immB := sextTo 13 32 (nfld w 31 31 * 4096 + nfld w 7 7 * 2048 + nfld w 30 25 * 32 + nfld w 11 8 * 2)
  let immJ := sextTo 21 32 (nfld w 31 31 * 2 ^ 20 + nfld w 19 12 * 4096 + nfld w 20 20 * 2048 + nfld w 30 21 * 2)
  let at_ (x y : Nat) : Nat := (x + y) % 2 ^ 32
  match w % 128 with
  | 0x37 => s.retireReg c next rd (w / 4096 * 4096)
  | 0x17 => s.retireReg c next rd (at_ pc (w / 4096 * 4096))
  | 0x6F => s.retireReg c (at_ pc immJ) rd next
  | 0x67 => if f3 = 0 then s.retireReg c (at_ a immI / 2 * 2) rd next else s.seqTrap c 2 w
  | 0x63 => match rvTaken f3 a b with
    | none => s.seqTrap c 2 w
    | some t => s.retire c (if t then at_ pc immB else next)
  | 0x03 => if f3 = 3 || 6 ≤ f3 then s.seqTrap c 2 w else s.rvLoad c next f3 rd (at_ a immI)
  | 0x23 => if 3 ≤ f3 then s.seqTrap c 2 w else s.rvStore c next (2 ^ f3) (at_ a immS) b
  | 0x13 => match rvOp w a immI true with
    | none => s.seqTrap c 2 w
    | some v => s.retireReg c next rd v
  | 0x33 => match rvOp w a b false with
    | none => s.seqTrap c 2 w
    | some v => s.retireReg c next rd v
  | 0x0F => s.retire c next
  | 0x73 => s.rvSystem c pc next w
  | _ => s.seqTrap c 2 w

/-- The sequencer of core c fetches at its pc and executes; a fetch outside instruction memory is an access fault (R86). -/
def State.seqStep (s : State) (c : Nat) : State :=
  let q := (s.core c).seq
  let pc := q.pc.toNat
  let h := memNat q.imem pc 2
  if 0x8000 ≤ pc || (h % 4 = 3 && 0x8000 ≤ pc + 2) then (s.seqFault c).seqTrap c 1 pc
  else
    let l := (s.core c).hits 0 pc
    if !l.isEmpty then s.breaks c l
    else if h % 4 = 3 then s.rvExec c pc (pc + 4) (memNat q.imem pc 4)
    else match rvcExpand h with
      | some w => s.rvExec c pc (pc + 2) w
      | none => s.seqTrap c 2 h

/-- The sequencer of core c may act: its sector runs, it has a program, the core is not in migration, and it is not
halted. -/
def State.seqRuns (s : State) (c : Nat) : Bool :=
  let k := s.core c
  s.sectorRuns (sectorOf c) && (s.sector (sectorOf c)).mstate (indexOf c) == 0 && !k.seqHalted && !k.seq.imem.isEmpty

/-- SEQUENCER_INSTRUCTION. An enabled interrupt is taken in place of an instruction; a wait for an interrupt ends when one
is enabled and pending. An atomic is a bank atomic of R239, whose value the bank port returns. -/
def execSequencerInstruction (core : CoreId) (op : SeqOp) (s : State) : Res :=
  .next <|
    let c := core.val
    let k := s.core c
    let due := k.intPending && nbit k.seq.mieReg.toNat 11
    if !s.seqRuns c || (k.seq.wfi && !due) then s
    else
      let s := s.modSeq c fun q => { q with wfi := false }
      if due && k.seq.mie then s.modSeq c fun q => q.trap 11 0 true
      else match op with
        | .execute => s.seqStep c
        | .atomic kind addr operand =>
          let a := addr.toNat
          if s.bankHeld c a then s.countSec (sectorOf c) Ctr.bankTestStall
          else match s.seqAtomic c kind.val a operand.toNat with
            | (none, t) => t.seqTrap c (s.atomicCause c kind.val a) a
            | (some v, t) =>
              let s := t.modSector (sectorOf c) fun q => { q with bankData := BitVec.ofNat 128 v, bankPoison := false }
              s.breaks c ((((s.core c).hits 1 a) ++ ((s.core c).hits 2 a)).dedup)

end Sys2Proof.Machine
end

