-- ==== Sys2Proof/Machine/Bank.lean ====
section
/-! DEFINITION. Bank.lean: one cycle of a bank of sector memory (09 R236 to R240): which requests its ports grant, what they
read and store, and the requests that stall. -/

namespace Sys2Proof.Machine

/-- The logical core behind a requester, none for the others and the spare. -/
def bankCore (n : Nat) : BankReq → Option Nat
  | .plasticity i => if i.val < 16 then some (16 * n + i.val) else none
  | .sequencer i => if i.val < 16 then some (16 * n + i.val) else none
  | _ => none

/-- The requester is a sequencer. -/
def bankIsSeq : BankReq → Bool
  | .sequencer _ => true
  | _ => false

/-- The rank of a requester, the highest first (R237). -/
def bankRank : BankReq → Nat
  | .descEngine => 0
  | .plasticity i => 1 + i.val
  | .sequencer i => 18 + i.val
  | _ => 35

/-- The owner of port B of banks 0 and 1 (R236). -/
def portOwner (b : Nat) : Option BankReq := if b = 0 then some .syncUnit else if b = 1 then some .router else none

/-- The bytes of an operation's operand. -/
def bankBytes : BankOp → Nat
  | .read w => w
  | .write w _ => w
  | .atomic k _ => atomicBytes k.val

/-- The widths of a bank port, naturally aligned (R236). -/
def bankAligned (w o : Nat) : Bool := ([1, 2, 4, 8, 16] : List Nat).contains w && o % w == 0

/-- A read. -/
def bankIsRead : BankOp → Bool
  | .read _ => true
  | _ => false

/-! ### Which requests are granted (R237) -/

/-- A request put in its place by rank. -/
def rankIns (c : BankCall) : List BankCall → List BankCall
  | [] => [c]
  | x :: t => if bankRank c.who < bankRank x.who then c :: x :: t else x :: rankIns c t

/-- Requests in rank order. -/
def byRank : List BankCall → List BankCall
  | [] => []
  | c :: t => rankIns c (byRank t)

/-- The grants of a cycle at bank b: the request of port A or of the single port, that of port B, and those that stall. A
requester presents one request in a cycle. -/
def bankGrants (b : Nat) (l : List BankCall) : Option BankCall × Option BankCall × List BankCall :=
  let shared := byRank (l.filter fun c => bankRank c.who < 35)
  if b < 2 then (shared.head?, l.find? fun c => some c.who == portOwner b, shared.drop 1)
  else if b < 8 then (shared.head?, shared[1]?, shared.drop 2)
  else (shared.head?, none, shared.drop 1)

/-! ### What a granted request does -/

/-- Bytes granted to a requester counted in SMEM_BYTES (20 R512). -/
def State.bankCount (s : State) (n : Nat) (who : BankReq) (dir w : Nat) : State :=
  match who with
  | .descEngine => s.smemCountSec n dir w
  | _ => match bankCore n who with
    | some c => s.smemCountCore c dir w
    | none => s

/-- An access fault of a sequencer (03 R86): it counts and traps with the cause of a load, or of a store or atomic. -/
def State.bankFault (s : State) (n o : Nat) (who : BankReq) (cause : Nat) : State :=
  match bankIsSeq who, bankCore n who with
  | true, some c => (s.seqFault c).seqTrap c cause (0x10000000 + o)
  | _, _ => s

/-- R86, R239 and R261 refuse this request of a sequencer before the bank sees it: misaligned, in the migration buffer, or a
write to bank 0 other than an ADD32 on an object while its network runs. Of another requester a misaligned one is no request. -/
def State.bankRefused (s : State) (n o : Nat) (who : BankReq) (op : BankOp) : Bool :=
  !bankAligned (bankBytes op) o || (bankIsSeq who && ((decide (0x20000 ≤ o) && decide (o < 0x28000)) ||
    (decide (o < 0x20000) && (bankCore n who).any s.coreRunning && match op with
      | .read _ => false
      | .write _ _ => true
      | .atomic k _ => !(k.val == 0 && o % 16 == 0))))

/-- The port returns a value: port A or a single port, or port B. -/
def SectorSt.bankReturn (q : SectorSt) (portB : Bool) (v : Nat) (poison : Bool) : SectorSt :=
  if portB then { q with bankDataB := BitVec.ofNat 128 v, bankPoisonB := poison }
  else { q with bankData := BitVec.ofNat 128 v, bankPoison := poison }

/-- The words of an access marked as uncorrectable. -/
def SectorSt.spoil (q : SectorSt) (o w : Nat) : SectorSt :=
  { q with poison := (upTo ((o + w - 1) / 8 - o / 8 + 1)).foldl (fun t i => Tab.set t false (o / 8 + i) true) q.poison }

/-- An uncorrectable word is returned with poison (R240): a sequencer takes a load access fault and raises ENGINE_FAULT. -/
def State.bankUncorr (s : State) (n o : Nat) (portB : Bool) (who : BankReq) (op : BankOp) (v : Nat) : State :=
  let s := (s.memUncorr n).modSector n fun q => (q.spoil o (bankBytes op)).bankReturn portB v true
  match bankIsSeq who, bankCore n who with
  | true, some c => (s.raiseSeq c 3).bankFault n o who 5
  | _, _ => s

/-- A granted request at offset o on words that are in order; `m` is the sector as the cycle began, which a read sees (R238). -/
def State.bankDo (s : State) (m : SectorSt) (n o : Nat) (portB : Bool) (who : BankReq) (op : BankOp) : State :=
  match op with
  | .read w => (s.modSector n fun q => q.bankReturn portB (memNat m.mem o w) false).bankCount n who 0 w
  | .write w d => (s.smemStore n o (toLe w d.toNat)).bankCount n who 1 w
  | .atomic k x =>
    let ty := (s.sector n).objType (o / 16)
    let r := if bankIsSeq who && decide (o < 0x20000) && k.val == 0 && o % 16 == 0 && ty != 0
      then s.syncApply n (o / 16) (addOp ty) (x.toNat % 2 ^ 32) else s.smemAtomic n o k.val x.toNat
    (r.2.modSector n fun q => q.bankReturn portB r.1 false).bankCount n who 1 (bankBytes op)

/-- A granted request with what its ECC check finds. -/
def State.bankGrant (s : State) (m : SectorSt) (n b : Nat) (portB : Bool) (c : BankCall) : State :=
  let o := 131072 * b + c.ofs.val
  let whole := match c.op with | .write w _ => decide (8 ≤ w) | _ => false
  let q := if bankIsRead c.op then m else s.sector n
  let s := if c.ecc = .corrected then s.countSec n Ctr.memEccCorr else s
  if !whole && (q.poisoned o (bankBytes c.op) || c.ecc = .uncorrectable || c.ecc = .tagMismatch) then
    s.bankUncorr n o portB c.who c.op (memNat q.mem o (bankBytes c.op))
  else s.bankDo m n o portB c.who c.op

/-- A request that stalls for a cycle (R237). -/
def State.bankStall (s : State) (n : Nat) (c : BankCall) : State :=
  match c.who, bankCore n c.who with
  | .plasticity _, some k => s.countCoreSub k Ctr.bankStall 0 1
  | .sequencer _, some k => s.countCoreSub k Ctr.bankStall 1 1
  | .descEngine, _ => s.countSec n Ctr.bankStall
  | _, _ => s

/-- BANK_ACCESS: one cycle of a bank with the requests presented to it, that of `who` and any beside it. Those that R86 refuses fault; of the rest the ports
grant theirs, A before B, and the others stall. A bank under test stalls them all (R240). -/
def execBankAccess (sector : SectorId) (bank : Fin 64) (who : BankReq) (use : BankUse) (beside : List BankCall) (s : State) : Res :=
  .next <|
    let calls := { use with who := who } :: beside
    let n := sector.val
    let b := bank.val
    let o (c : BankCall) : Nat := 131072 * b + c.ofs.val
    let bad (c : BankCall) : Bool := s.bankRefused n (o c) c.who c.op
    if !s.sectorRuns n then s
    else
      let s' := (calls.filter bad).foldl (fun s c => s.bankFault n (o c) c.who (if bankIsRead c.op then 5 else 7)) s
      let l := calls.filter fun c => !bad c
      if s.bankHolds n (131072 * b) then s'.countSec n Ctr.bankTestStall noSub l.length
      else
        let g := bankGrants b l
        let m := s'.sector n
        let s' := (g.1.map fun c => s'.bankGrant m n b false c).getD s'
        let s' := (g.2.1.map fun c => s'.bankGrant m n b true c).getD s'
        g.2.2.foldl (fun s c => s.bankStall n c) s'

end Sys2Proof.Machine
end

