-- ==== Sys2Proof/Machine/HostRegs.lean ====
section
/-! DEFINITION. HostRegs.lean: what the host does through the PCIe endpoint (13 R320 to R327; 21): writes and reads of
registers that act, the host window (12 R317, 13 R325), configuration requests, MSI-X and the link. -/

namespace Sys2Proof.Machine

/-! ### MSI-X (13 R326, 21 R524) -/

/-- The pending message of vector v is sent where nothing holds it. -/
def State.flushVector (s : State) (v : Nat) : State :=
  if !nbit s.pcie.pba.toNat v || s.pcie.fmask || !s.pcie.msixEn || s.msixMasked v || !s.pcie.busMaster || !s.pcie.linkUp then s
  else ((s.modPcie fun p => { p with pba := put p.pba v v 0 }).send (.msix v)).countDev Ctr.pcieTxBytes noSub 4

/-- Word w of entry v of the MSI-X table written; clearing the mask bit sends what is pending. Unlisted mask words read 1,
other words 0 (PCI Express). -/
def State.tablePut (s : State) (i : Nat) (x : Word32) : State :=
  let d : Word32 := if i % 4 = 3 then 1 else 0
  (s.modPcie fun p => { p with msixTab := Tab.set p.msixTab d i x }).flushVector (i / 4)

/-- MSIX_VECTOR_UNMASK: a write to the vector control word of the entry. -/
def execMsixVectorUnmask (vector : Fin 64) (s : State) : Res :=
  .next <| if !s.bar0Open then s else (s.countDev Ctr.pcieRxBytes noSub 4).tablePut (4 * vector.val + 3) 0

/-! ### Writes of registers, by their access codes (00 R10; 21 R528) -/

/-- Bits of a network slot's registers: NET_STEP_STATUS is W1C, HOLD_EN of NET_DEBUG is discarded where debug commands are
not permitted (20 R501). -/
def State.putNet (s : State) (o v : Nat) : State :=
  if o < 0x21200 then
    if o % 0x20 = 0x14 then s.modNet ((o - 0x21000) / 0x20) fun n => { n with events := nclear n.events (nfld v 28 24) } else s
  else if s.sec.debugAllowed 0 then s.modNet ((o - 0x21200) / 4) fun n => { n with holdEn := nbit v 31 }
  else s

/-- Registers at 0x0002_0000 to 0x0002_2FFF: the W1C bits of sectors, ports and GDDR6 controllers. -/
def State.putCompute (s : State) (o v : Nat) : State :=
  if 0x21000 ≤ o && o < 0x21240 then s.putNet o v
  else if 0x21800 ≤ o && o < 0x21820 then
    s.modSector ((o - 0x21800) / 4) fun q => { q with netEvents := nclear q.netEvents (nfld v 7 4) }
  else if 0x22000 ≤ o && o < 0x22300 && o % 0x40 = 0 then
    s.modPort ((o - 0x22000) / 0x40) fun p => { p with events := nclear p.events (v % 8) }
  else if 0x22810 ≤ o && o < 0x22840 then
    let c := (o - 0x22810) / 4
    s.modGddr fun g => { g with events := Tab.set g.events 0 c (nclear (Tab.get g.events 0 c) (v % 16)) }
  else s

/-- Registers at 0x0002_3000 to 0x0002_3FFF. -/
def State.putLines (s : State) (o v : Nat) : State :=
  if o < 0x23400 then
    if o % 0x40 ≤ 0x20 then s.tmrHostWrite ((o - 0x23000) / 0x40) (o % 0x40 / 4) v else s
  else if o = 0x23400 then s.modAo fun a => { a with toutMap := BitVec.ofNat 32 v }
  else if 0x23800 ≤ o && o < 0x23A00 then
    let n := (o - 0x23800) / 0x10
    if o % 0x10 = 4 then s.modStc n fun c => { c with status := nclear c.status (v % 32) }
    else if o % 0x10 = 8 then s.modStc n fun c => { c with cons := v % 65536 }
    else s
  else if 0x23C00 ≤ o && o < 0x23C20 then
    s.modLout ((o - 0x23C00) / 4) fun l => { l with
      pulse := nbit v 27, pol := nbit v 26, ensInit := nbit v 25, width := nfld v 23 0, configured := true }
  else s

/-- Registers at 0x0002_4000 to 0x0002_6FFF. EN of TRACE_CTRL stays 0 where HANDLE names no image with a trace buffer (20
R515). -/
def State.putSystem (s : State) (o v : Nat) : State :=
  if o = 0x24000 then
    s.modAo fun a => { a with
      gddrLost := a.gddrLost && !nbit v 15, retentionLost := a.retentionLost && !nbit v 7
      pwrEvents := nclear a.pwrEvents (v &&& 0x78) }
  else if o = 0x25000 then s.modFault fun f => { f with events := nclear f.events (nfld v 30 27) }
  else if o = 0x25008 then s.modFault fun f => { f with hbLast := s.now }
  else if 0x26000 ≤ o && o < 0x26080 && o % 0x10 = 4 then s.modSector ((o - 0x26000) / 0x10) fun q => { q with traceRd := v }
  else if o = 0x26080 then
    let w := v &&& 0xF000FFFF
    { s with traceCtrl := BitVec.ofNat 32 (if (s.traceBuffer (v % 65536)).isSome then w else nput w 31 31 0) }
  else s

/-- The base of BAR2 with the bits that the window's alignment ignores left as they are (13 R325). -/
def PcieSt.putBase (p : PcieSt) (v : Nat) : PcieSt :=
  { p with base := v / 2 ^ p.bar2Log * 2 ^ p.bar2Log + p.base % 2 ^ p.bar2Log }

/-- A write of v to the word at offset o of the register pages. -/
def State.regPut (s : State) (o v : Nat) : State :=
  if o = 0x48 then s.modPcie fun p => { p with mark := BitVec.ofNat 64 s.now }
  else if o = 0x100 then s.modPcie fun p => { p with cause := nclear p.cause (v % 1024) }
  else if o = 0x1000 then s.modPcie fun p => p.putBase (p.base / 16 * 16 + nfld v 31 28)
  else if o = 0x1004 then s.modPcie fun p => p.putBase (p.base % 16 + v % 16 * 16)
  else if o < 0x20000 then s
  else if o < 0x23000 then s.putCompute o v
  else if o < 0x24000 then s.putLines o v
  else if o < 0x30000 then s.putSystem o v
  else if 0x100000 ≤ o && o < 0x120000 then
    let m := (o - 0x100000) / 0x4000
    match o % 0x4000 with
    | 0x2000 => s.post m (v % 1024)
    | 0x2020 => s.consumedWrite m false (BitVec.ofNat 32 v)
    | 0x2024 => s.consumedWrite m true (BitVec.ofNat 32 v)
    | 0x2028 => s.modMb m fun b => { b with event := nclear b.event (v % 4) }
    | _ => s
  else s

/-- A write of one word that reaches its register, where R525 lets it act. -/
def State.wordWrite (s : State) (o v : Nat) : State :=
  let mbox := 0x100000 ≤ o && o < 0x120000
  let post := mbox && o % 0x4000 == 0x2000
  if s.writeActs o post (mbox || o == 0x48 || o == 0x25008) then s.regPut o v else s

/-- The register pages of BAR0 (13 R322). -/
def regPage (o : Nat) : Bool :=
  o < 0x2000 || (0x20000 ≤ o && o < 0x30000) || (0x100000 ≤ o && o < 0x120000 && 0x2000 ≤ o % 0x4000)
    || (0x200000 ≤ o && o < 0x400000)

/-- Bytes of the MSI-X table written, in the words of 32 bits that PCI Express allows. -/
def State.tableWrite (s : State) (o size v : Nat) : State :=
  if o % 4 = 0 && size = 4 then s.tablePut ((o - 0x10000) / 4) (BitVec.ofNat 32 v)
  else if o % 8 = 0 && size = 8 then
    (s.tablePut ((o - 0x10000) / 4) (BitVec.ofNat 32 v)).tablePut ((o - 0x10000) / 4 + 1) (BitVec.ofNat 32 (v / 2 ^ 32))
  else s

/-- REGISTER_WRITE: `size` bytes of `value` at an offset of BAR0. A 64-bit access of a register page acts as two 32-bit
accesses, low half first; one of another size or alignment is an Unsupported Request. -/
def execRegisterWrite (offset : Nat) (size : Nat) (value : Word64) (s : State) : Res :=
  .next <|
    let v := value.toNat
    let n := min size 8
    if !s.bar0Open then s
    else if 0x800000 ≤ offset && offset < 0x1000000 then
      s.stcWrite ((offset - 0x800000) / 0x40000) (offset % 0x40000) (toLe n v)
    else
      let s := s.countDev Ctr.pcieRxBytes noSub n
      if regPage offset then
        if size = 4 && offset % 4 = 0 then s.wordWrite offset (v % 2 ^ 32)
        else if size = 8 && offset % 8 = 0 then (s.wordWrite offset (v % 2 ^ 32)).wordWrite (offset + 4) (v / 2 ^ 32)
        else s.send .unsupported
      else if 0x100000 ≤ offset && offset < 0x120000 && offset % 0x4000 < 0x1000 then
        s.slotWrite ((offset - 0x100000) / 0x4000) (offset % 0x4000) (toLe (min n (0x1000 - offset % 0x4000)) v)
      else if 0x10000 ≤ offset && offset < 0x10400 then s.tableWrite offset size v
      else s

/-- A write of a 32-bit register with a row of its own. -/
def State.hostPut (s : State) (o v : Nat) : State :=
  if !s.bar0Open then s else (s.countDev Ctr.pcieRxBytes noSub 4).wordWrite o v

/-- TIME_MARK. -/
def execTimeMark (value : Word32) (s : State) : Res := .next <| s.hostPut 0x48 value.toNat

/-- HOST_HEARTBEAT. -/
def execHostHeartbeat (value : Word32) (s : State) : Res := .next <| s.hostPut 0x25008 value.toNat

/-- TIMER_REGISTER_WRITE. -/
def execTimerRegisterWrite (ch : TimerId) (reg : Fin 9) (value : Word32) (s : State) : Res :=
  .next <| s.hostPut (0x23000 + 0x40 * ch.val + 4 * reg.val) value.toNat

/-! ### Reads that act -/

/-- A read of the word at offset o: it is answered, and where the register itself answers it has the effect f. -/
def State.hostGet (s : State) (o : Nat) (f : State → State) : State :=
  if !s.bar0Open then s else (if s.readActs o then f s else s).hostReturn 4 (s.regRead o)

/-- TIME_LO_READ. -/
def execTimeLoRead (s : State) : Res :=
  .next <| s.hostGet 0x40 fun s => s.modAo fun a => { a with timeHi := BitVec.ofNat 32 (s.now / 2 ^ 32) }

/-- TIME_MARK_LO_READ. -/
def execTimeMarkLoRead (s : State) : Res :=
  .next <| s.hostGet 0x50 fun s => s.modPcie fun p => { p with markHi := BitVec.ofNat 32 (fld p.mark 63 32) }

/-- NET_STEP_LO_READ. -/
def execNetStepLoRead (net : NetId) (s : State) : Res :=
  .next <| s.hostGet (0x21000 + 0x20 * net.val) fun s =>
    s.modNet net.val fun n => { n with stepHi := BitVec.ofNat 32 (n.step / 2 ^ 32) }

/-- MAILBOX_REGISTER_LOW_READ: register 0 MB_ACCEPT_SEQ, 1 MB_NEXT_SEQ, 2 MB_CONSUMED. -/
def execMailboxRegisterLowRead (mb : Fin 8) (reg : Fin 3) (s : State) : Res :=
  .next <| s.hostGet (mbOffset mb.val (0x2010 + 8 * reg.val)) fun s =>
    s.modMb mb.val fun b => { b with
      latch := Tab.set b.latch 0 reg.val (BitVec.ofNat 32 (b.wide reg.val / 2 ^ 32)) }

/-- COUNTER_SLOT_LOW_READ: a read of the word at an offset of the counter windows. -/
def execCounterSlotLowRead (offset : Nat) (s : State) : Res :=
  .next <|
    let o := offset / 4 * 4
    if o < 0x200000 || 0x400000 ≤ o then s else s.hostGet o fun s => s.windowLatch o

/-- FLOW_EVENT_POP (13 R327): OVERFLOW marks the next entry popped after a loss. -/
def execFlowEventPop (s : State) : Res :=
  .next <|
    if !s.bar0Open then s
    else if !s.readActs 0x1010 then s.hostReturn 4 (s.regRead 0x1010)
    else match s.pcie.flowEv with
    | [] => s.hostReturn 4 0
    | (kind, flow) :: t =>
      let v := 2 ^ 31 + flagAt 30 s.pcie.flowOvf + bitsAt 28 kind + flow
      (s.modPcie fun p => { p with flowEv := t, flowOvf := false }).hostReturn 4 v

/-- TMR_COUNT_READ: a read of an even channel copies the odd channel's count (15 R398). -/
def execTmrCountRead (ch : TimerId) (s : State) : Res :=
  .next <|
    let c := ch.val
    s.hostGet (0x23008 + 0x40 * c) fun s =>
      if c % 2 = 0 then s.modTmr c fun t => { t with pairHi := (s.tmr (c + 1)).count } else s

/-- TMR_SNAP_READ: a read of a unit in a capture mode clears FRESH (15 R395). -/
def execTmrSnapRead (ch : TimerId) (unit : Bool) (s : State) : Res :=
  .next <|
    let c := ch.val
    s.hostGet (0x23010 + 0x40 * c + 4 * b2n unit) fun s =>
      if isCapture ((s.tmr c).mode unit) then
        s.modTmr c fun t => { t with status := nput t.status (1 + b2n unit) (1 + b2n unit) 0 }
      else s

/-! ### The host window (12 R317, 13 R325) -/

/-- The device address of an offset of BAR2, none past the window's size. -/
def PcieSt.window (p : PcieSt) (o : Nat) : Option Nat :=
  if o < 2 ^ (28 + p.bar2Log) then some (p.baseRead * 2 ^ 28 + o) else none

/-- The host may write the block at device address a: the image area without the matrix-image copies. -/
def State.hostMayWrite (s : State) (a : Nat) : Bool :=
  s.gddr.imageBase ≤ a && a < s.gddr.top
    && !s.regions.any fun r => r.kind == 0 && decide (r.base < a + 64) && decide (a < r.base + r.size)

/-- The part of a write that falls in one block. -/
def State.windowPiece (s : State) (a : Nat) (bytes : List Byte) (b : Nat × Nat) : State :=
  let lo := max a (b.1 * 64)
  if s.hostMayWrite (b.1 * 64) then s.gWrite lo ((bytes.drop (lo - a)).take b.2) .host
  else s.countDev Ctr.gddrHostDenied

/-- HOST_WINDOW_WRITE. In P3 it is an Unsupported Request (16 R421). -/
def execHostWindowWrite (offset : Nat) (bytes : List Byte) (s : State) : Res :=
  .next <|
    if !s.bar0Open then s
    else match s.pcie.window offset with
    | none => s
    | some a =>
      if s.ao.pstate = 3 then s.send .unsupported
      else
        let s := s.countDev Ctr.pcieRxBytes noSub bytes.length
        (blockSpan a bytes.length).foldl (fun s b => s.windowPiece a bytes b) s

/-- The block may be read: below the top of capacity and outside the Halyard save area. -/
def State.hostMayRead (s : State) (a : Nat) : Bool := journalBase ≤ a && a < s.gddr.top

/-- The bytes that a host window read finds, with the state after the accesses. -/
def State.windowBytes (s : State) (a len : Nat) : List Byte × State :=
  (blockSpan a len).foldl (fun r b =>
    let lo := max a (b.1 * 64)
    if r.2.hostMayRead (b.1 * 64) then
      let v := r.2.gView lo b.2
      (r.1 ++ v.1, (v.2.gCheck lo b.2).gddrCount lo b.2 .host 0)
    else (r.1 ++ zeros b.2, r.2)) ([], s)

/-- Some readable block of a host window read is poisoned. -/
def State.windowPoison (s : State) (a len : Nat) : Bool :=
  (blockSpan a len).any fun b => s.hostMayRead (b.1 * 64) && Tab.get s.gddr.poison false b.1

/-- AER reports: a TLP that fails ECRC, a poisoned TLP received, a poisoned TLP sent (13 R323). -/
abbrev aerEcrc : Nat := 0
/-- a poisoned TLP received -/
abbrev aerPoisonIn : Nat := 1
/-- a poisoned TLP sent -/
abbrev aerPoisonOut : Nat := 2

/-- HOST_WINDOW_READ: poisoned data goes out with the EP bit set and is logged through AER. -/
def execHostWindowRead (offset : Nat) (len : Nat) (s : State) : Res :=
  .next <|
    if !s.bar0Open then s
    else match s.pcie.window offset with
    | none => s
    | some a =>
      if s.ao.pstate = 3 then s.send .unsupported
      -- the read waits while a channel that it needs retrains (12 R303)
      else if s.gHeld a len then s
      else
        let r := s.windowBytes a len
        let s' := r.2.countDev Ctr.pcieTxBytes noSub len
        if s.windowPoison a len then (s'.send (.readPoisoned len)).send (.aer aerPoisonOut) else s'.send (.readData r.1)

/-! ### TLPs, configuration and the link (13 R320 to R323, 17 R440) -/

/-- PCIE_TLP_DISCARD. -/
def execPcieTlpDiscard (why : TlpDiscard) (s : State) : Res :=
  .next <|
    if !s.pcie.linkUp then s
    else match why with
    | .ecrc => if s.pcie.ecrc then s.send (.aer aerEcrc) else s
    | .poisonedWrite => s.send (.aer aerPoisonIn)

/-- The configuration space after its reset: BARs, bus master, MSI-X enable and table at their reset values. -/
def PcieSt.configReset (p : PcieSt) : PcieSt :=
  { p with bar0 := 0, bar2 := 0, bar2Log := 0, busMaster := false, msixEn := false, fmask := false, msixTab := [], pba := 0
           d3 := false, ecrc := false }

/-- PCIE_LINK_RESET: only the configuration space is reset; the link trains again. -/
def execPcieLinkReset (why : LinkResetKind) (s : State) : Res :=
  .next <| match why with
    | .hotReset | .linkDisable | .linkDown =>
      if s.pcie.linkUp then s.modPcie fun p => { p.configReset with linkUp := false } else s

/-- PCIE_LINK_UP: training ends, after PERST_N has risen or, on the cold path, after phase 1 (R440). -/
def execPcieLinkUp (s : State) : Res :=
  .next <|
    if !s.ao.porReleased || s.ao.inReset || !s.ao.perstHigh || !s.ao.resetHigh || (s.boot.cold && s.boot.next = 1) then s
    else s.modPcie fun p => { p with linkUp := true }

/-- A configuration word: the fields that the spec gives; the rest are free values. -/
def State.configWord (s : State) (o : Nat) : Nat :=
  let x := Config.freeNat s.free
  let p := s.pcie
  if o = 0x00 then bitsAt 16 0x0128 + x % 65536
  else if o = 0x04 then nput (x % 2 ^ 32) 2 2 (b2n p.busMaster)
  else if o = 0x08 then bitsAt 8 0x120000 + x % 256
  else if o = 0x10 then fld p.bar0 31 0 + 4
  else if o = 0x14 then fld p.bar0 63 32
  else if o = 0x18 then fld p.bar2 31 0 + 12
  else if o = 0x1C then fld p.bar2 63 32
  else x % 2 ^ 32

/-- PCIE_CONFIGURATION_REQUEST: retry status until FW_VERIFIED, or until boot has failed (R440). -/
def execPcieConfigurationRequest (op : ConfigOp) (s : State) : Res :=
  .next <|
    if !s.pcie.linkUp || s.ao.inReset then s
    else if !(s.boot.fwVerified || s.boot.phase = 9) then s.send .configRetry
    else match op with
    | .read offset => (s.send (.configDone (BitVec.ofNat 32 (s.configWord offset)))).drawn
    | .setBar0 base => (s.modPcie fun p => { p with bar0 := put base 23 0 0 }).send (.configDone 0)
    | .setBar2 base k => (s.modPcie fun p => { p with
        bar2 := put base (27 + k.val) 0 0, bar2Log := k.val }).send (.configDone 0)
    | .setBusMaster on => (upTo 64).foldl State.flushVector ((s.modPcie fun p => { p with busMaster := on }).send (.configDone 0))
    | .setMsixEnable on mask => (upTo 64).foldl State.flushVector
        ((s.modPcie fun p => { p with msixEn := on, fmask := mask }).send (.configDone 0))
    | .setPowerD3hot d3 => (s.modPcie fun p => { p with d3 := d3 }).send (.configDone 0)
    | .setEcrc on => (s.modPcie fun p => { p with ecrc := on }).send (.configDone 0)

end Sys2Proof.Machine
end

