-- ==== Sys2Proof/Machine/Mgmt.lean ====
section
/-! DEFINITION. Mgmt.lean: the security core and the management sideband (19 R476 to R493) and JTAG (18 R448). The spec
names the standards of the messages and not their codes and layouts: those are PRESUMED from DSP0236, DSP0240, DSP0248,
DSP0267 and DSP0274 (log 61). -/

namespace Sys2Proof.Machine

/-- n bytes of the device's own choosing: nonces and what the spec does not give (19 R479; log 10). -/
def State.freeBytes (s : State) (n : Nat) : List Byte := (upTo n).map fun i => Config.freeByte (s.free + i)

/-- n free values are used up. -/
def State.used (s : State) (n : Nat) : State := { s with free := s.free + n }

/-! ### Which messages are answered (R489; 17 R433) -/

/-- The sideband answers messages of types 0x00 and 0x01. -/
def State.sidebandUp (s : State) : Bool := s.ao.porReleased && !s.ao.inReset && !s.ao.tripped

/-- PLDM firmware update is answered: not in SCRAP, where only PLDM base commands are. -/
def State.updateUp (s : State) : Bool := s.sidebandUp && s.sec.lc != 4

/-- PLDM monitoring and control is answered: not in SCRAP, and not after boot failure. -/
def State.monitorUp (s : State) : Bool := s.updateUp && s.boot.phase != 9

/-- An answer of message type `typ` to a request; MCTP traffic starts a wake (16 R420). -/
def State.answer (s : State) (typ code : Nat) (data : List Byte) : State := (s.startWake 0).send (.mgmt typ code data)

/-! ### MCTP control and PLDM base (R488, R489) -/

/-- The answer to an MCTP control message. -/
def State.mctpAnswer (s : State) (msg : MctpControl) : State :=
  match msg with
  | .setEndpointId e =>
    if e = 0 || e = 255 then s.answer 0 0x01 [2]
    else (s.modSec fun q => { q with eid := e }).answer 0 0x01 [0, 0, e, 0]
  | .getEndpointId => s.answer 0 0x02 [0, s.sec.eid, 0, 0]
  | .other c =>
    if c = 0x05 then s.answer 0 0x05 [0, 4, 0x00, 0x01, 0x05, 0x7E]
    else if c = 0x03 || c = 0x04 then (s.used 16).answer 0 c.toNat (0 :: s.freeBytes 16)
    else s.answer 0 c.toNat [5]

/-- MCTP_CONTROL_MESSAGE: one longer than 4,224 bytes or out of sequence is discarded and counted (R488). -/
def execMctpControlMessage (msg : MctpControl) (length : Nat) (inSequence : Bool) (s : State) : Res :=
  .next <|
    if !s.sidebandUp then s
    else if 4224 < length || !inSequence then (s.startWake 0).countDev Ctr.mctpDiscard
    else s.mctpAnswer msg

/-- PLDM_BASE_COMMAND: answered in every state. GetPLDMTypes names the types 0, 2 and 5 of R489. -/
def execPldmBaseCommand (code : Byte) (s : State) : Res :=
  .next <|
    if !s.sidebandUp then s
    else if code = 4 then s.answer 1 4 [0, 0x25, 0, 0, 0, 0, 0, 0, 0]
    else if 1 ≤ code.toNat && code.toNat ≤ 5 then (s.used 32).answer 1 code.toNat (0 :: s.freeBytes 32)
    else s.answer 1 code.toNat [5]

/-! ### PLDM monitoring (R491) -/

/-- PLDM_MONITORING_REQUEST: sensors 1 and 2 are numeric, 3 to 7 are state sensors. -/
def execPldmMonitoringRequest (req : PldmMonitor) (s : State) : Res :=
  .next <|
    if !s.monitorUp then s
    else match req with
      | .setEventReceiver e => (s.modSec fun q => { q with receiver := some e }).answer 1 0x04 [0]
      | .getSensorReading n =>
        if n = 1 then s.answer 1 0x11 (0 :: toLe 2 (toField 16 s.ao.hottest.1))
        else if n = 2 then (s.drawn).answer 1 0x11 (0 :: toLe 4 (Config.inputPower s.free))
        else if 3 ≤ n && n ≤ 7 then s.answer 1 0x21 [0, BitVec.ofNat 8 (s.sensor n)]
        else s.answer 1 0x11 [0x80]

/-! ### Firmware update (R492) -/

/-- Slot A copied to slot B. -/
def SecSt.copyAToB (q : SecSt) : SecSt := { q with slotB := q.slotA, boardB := q.boardA }

/-- Slot A restored from slot B. -/
def SecSt.restoreA (q : SecSt) : SecSt := { q with slotA := q.slotB, boardA := q.boardB }

/-- The image that the board came with in slot A verified at the last boot. -/
def State.foundA (s : State) : Bool := s.boot.fwVerified && s.boot.fwSlot == 0

/-- REQUEST_UPDATE: slot A is copied to slot B, which changes nothing where the two are identical; refused while an
update is under way. -/
def execRequestUpdate (s : State) : Res :=
  .next <|
    if !s.updateUp then s
    else if s.sec.updating then s.answer 1 0x10 [0x81]
    else (s.modSec fun q => { q.copyAToB with updating := true, verified := false }).answer 1 0x10 [0]

/-- Bytes written to a slot at an offset; bytes never written are those the board came with. -/
def slotPut (board : Nat) (l : List Byte) (off : Nat) (b : List Byte) : List Byte :=
  slotRead board off l ++ b ++ l.drop (off + b.length)

/-- REQUEST_FIRMWARE_DATA: data pulled for offset of the component image is written into slot A as it arrives. -/
def execRequestFirmwareData (offset : Nat) (data : List Byte) (s : State) : Res :=
  .next <|
    if !s.updateUp || !s.sec.updating || data.isEmpty || slotBytes < offset + data.length then s
    else (s.startWake 0).modSec fun q => { q with slotA := slotPut q.boardA q.slotA offset data, verified := false }

/-- VERIFY_COMPLETE: every check of R484; on a failure slot A is restored from slot B, VerifyFailed is reported and the
update ends. -/
def execVerifyComplete (s : State) : Res :=
  .next <|
    if !s.updateUp || !s.sec.updating then s
    else if s.sec.slotOk s.sec.svnMin s.sec.boardA s.sec.slotA s.foundA then
      (s.modSec fun q => { q with verified := true }).answer 1 0x17 [0]
    else (s.modSec fun q => { q.restoreA with updating := false, verified := false }).answer 1 0x17 [1]

/-- ACTIVATE_FIRMWARE: accepted for a verified image; the update stands pending until the next device or cold reset. -/
def execActivateFirmware (s : State) : Res :=
  .next <|
    if !s.updateUp then s
    else if !s.sec.updating || !s.sec.verified then s.answer 1 0x1A [0x84]
    else (s.modSec fun q => { q with updPending := true, updating := false, verified := false }).answer 1 0x1A [0]

/-! ### Attestation (R481, R482, R486, R487) -/

/-- The digest of the running firmware. -/
def State.fwRunning (s : State) : List Byte := s.sec.fwMeasure.take 64

/-- The certificate chain of slot 0. -/
def State.chain (s : State) : List Byte := Config.certChain s.fwRunning s.sec.lc

/-- The alias key's signature over a message, 64 bytes. -/
def State.sign (s : State) (m : List Byte) : List Byte := fitBytes 64 (Config.aliasSig s.fwRunning m)

/-- SPDM messages are answered: firmware runs and the state is not SCRAP. -/
def State.spdmUp (s : State) : Bool := s.vendorUp

/-- An SPDM ERROR response: 0x05 Unspecified, 0x01 InvalidRequest. -/
def State.spdmError (s : State) (err : Nat) : State := s.answer 5 0x7F [BitVec.ofNat 8 err, 0]

/-- Requests that BLANK and RMA answer with ERROR, code Unspecified. -/
def State.attested (s : State) (f : State → State) : State :=
  if !s.spdmUp then s else if s.sec.lc = 0 || s.sec.lc = 3 then s.spdmError 5 else f s

/-- SPDM_GET_VERSION: version 1.2. -/
def execSpdmGetVersion (s : State) : Res :=
  .next <| if !s.spdmUp then s else s.answer 5 0x04 [1, 0x00, 0x12]

/-- SPDM_GET_CAPABILITIES: CERT_CAP, CHAL_CAP, MEAS_CAP with signature. -/
def execSpdmGetCapabilities (s : State) : Res :=
  .next <| if !s.spdmUp then s else s.answer 5 0x61 (toLe 4 0x16)

/-- SPDM_NEGOTIATE_ALGORITHMS: measurement hash SHA-512, signing Ed25519, hashing SHA-512. -/
def execSpdmNegotiateAlgorithms (s : State) : Res :=
  .next <| if !s.spdmUp then s else s.answer 5 0x63 (toLe 4 8 ++ toLe 4 0x200 ++ toLe 4 4)

/-- SPDM_GET_DIGESTS: slot 0 is populated, no other is. -/
def execSpdmGetDigests (s : State) : Res :=
  .next <| s.attested fun s => s.answer 5 0x01 (1 :: sha512 s.chain)

/-- SPDM_GET_CERTIFICATE: a portion of the chain of slot 0, with its length and what remains. -/
def execSpdmGetCertificate (slot offset length : Nat) (s : State) : Res :=
  .next <| s.attested fun s =>
    let b := (s.chain.drop offset).take length
    if slot != 0 || s.chain.length ≤ offset then s.spdmError 1
    else s.answer 5 0x02 (toLe 2 b.length ++ toLe 2 (s.chain.length - offset - b.length) ++ b)

/-- SPDM_CHALLENGE: the digest of the chain and a nonce, signed with the alias key with the requester's nonce. -/
def execSpdmChallenge (slot : Nat) (nonce : List Byte) (s : State) : Res :=
  .next <| s.attested fun s =>
    if slot != 0 then s.spdmError 1
    else
      let r := sha512 s.chain ++ s.freeBytes 32
      (s.used 32).answer 5 0x03 (r ++ s.sign (nonce ++ r))

/-- The digest of measurement index i (R486). -/
def State.measurement (s : State) (i : Nat) : Option (List Byte) :=
  match i with
  | 1 => some (fitBytes 64 Config.romDigest)
  | 2 => some (fitBytes 64 s.fwRunning)
  | 3 => some (fitBytes 64 (s.sec.fwMeasure.drop 64))
  | 4 => some (sha512 (fitBytes 4 (Config.stateBytes s.sec.lc (s.sec.lcPending != 0) (if s.sec.auth then s.sec.perms else 0))))
  | 5 => some (fitBytes 64 s.sec.fabricMeasure)
  | _ => if 16 ≤ i && i < 32 then some (fitBytes 64 (s.net (i - 16)).measure) else none

/-- The measurement block of index i: index, DMTF specification, size, value type with the raw bit-stream bit, length. -/
def State.measureBlock (s : State) (i : Nat) : List Byte :=
  match s.measurement i with
  | none => []
  | some d => toLe 1 i ++ toLe 1 1 ++ toLe 2 67 ++ [(0x80 : Byte) ||| (Config.measureType i).setWidth 8] ++ toLe 2 64 ++ d

/-- The indices of the measurements. -/
def measureIndices : List Nat := [1, 2, 3, 4, 5] ++ (upTo 16).map fun k => 16 + k

/-- SPDM_GET_MEASUREMENTS: index 0 asks for their number, 0xFF for all; one snapshot answers (R486). -/
def execSpdmGetMeasurements (index : Nat) (signed : Bool) (nonce : List Byte) (s : State) : Res :=
  .next <| s.attested fun s =>
    let l := if index = 0xFF then measureIndices else if index = 0 then [] else [index]
    if index != 0 && index != 0xFF && !measureIndices.contains index then s.spdmError 1
    else
      let r := toLe 1 (if index = 0 then measureIndices.length else l.length) ++ l.flatMap s.measureBlock
      if signed then
        let r := r ++ s.freeBytes 32
        (s.used 32).answer 5 0x60 (r ++ s.sign (nonce ++ r))
      else s.answer 5 0x60 r

/-! ### Authorisations (R477 to R480) -/

/-- DEBUG_CHALLENGE: a new 32-byte nonce. -/
def execDebugChallenge (s : State) : Res :=
  .next <|
    if !s.vendorUp then s
    else
      let n := s.freeBytes 32
      (((s.startWake 0).used 32).modSec fun q => { q with nonce := some n }).vendor 0x10 0 n

/-- The permission `bit` of a debug authorisation ends (R480): 0 debug commands, 1 fault injection, 2 JTAG debug access. -/
def State.permEnds (s : State) (bit : Nat) : State :=
  let cut (b : MboxSt) : MboxSt := { b with journal := b.journal.map fun e =>
    if e.st == 0 && e.underAuth && (cmdOp e.cmd == 0x90) == (bit == 1) then { e with revoked := true } else e }
  match bit with
  | 0 => { s with mbox := s.mbox.map fun (x : Nat × MboxSt) => (x.1, cut x.2) }.resumeAll
  | 1 => (upTo 12).foldl (fun s p => s.modPort p fun o => if o.injMode = 0 then o else { o with injMode := 0, injN := 0, injCount := 0 })
      { s with mbox := s.mbox.map fun (x : Nat × MboxSt) => (x.1, cut x.2) }
  | _ => s.modSec fun q => { q with jtagOpen := false }

/-- The standing debug authorisation ends but for the permissions `keep`, which go on. -/
def State.authEnds (s : State) (keep : Nat) : State :=
  if !s.sec.auth then s
  else
    let old := s.sec.perms
    let s := s.modSec fun q => { q with auth := false, perms := 0 }
    (upTo 3).foldl (fun s b => if nbit old b && !nbit keep b then s.permEnds b else s) s

/-- REVOKE_DEBUG_AUTHORISATION -/
def execRevokeDebugAuthorisation (s : State) : Res :=
  .next <| if !s.vendorUp then s else ((s.startWake 0).authEnds 0).vendor 0x12 0

/-- The signature of an authorisation holds: over bytes 0x00 to 0x67, by the key that AKIND names (R478). -/
def SecSt.authSigned (q : SecSt) (b : List Byte) : Bool :=
  let m := b.take 0x68
  let g := (b.drop 0x68).take 64
  if leAt b 1 1 = 2 then Config.sigOk 3 m g
  else Config.sigOk 2 m g || ((q.lc == 0 || q.lc == 1) && !q.devRevoked && Config.sigOk 4 m g)

/-- The grounds of R479 hold for none: the authorisation b is good. -/
def SecSt.authGood (q : SecSt) (b : List Byte) : Bool :=
  b.length == 168 && leAt b 0 1 == 1 && (leAt b 1 1 == 1 || leAt b 1 1 == 2) && q.authSigned b
    && (b.drop 8).take 64 == sha512 Config.deviceIdKey && q.nonce == some ((b.drop 0x48).take 32)

/-- The changes of R477 that are possible from state `lc`; the DeviceID certificate is written before BLANK is left for
DEV. -/
def lcChange (lc target : Nat) (certWritten : Bool) : Bool :=
  (lc == 0 && target == 1 && certWritten) || (lc == 1 && target == 2) || ((lc == 1 || lc == 2) && target == 3)
    || (lc != 4 && target == 4)

/-- The state in the fuses: that of a change that waits for reset, else the current one. -/
def SecSt.fused (q : SecSt) : Nat := if q.lcPending = 0 then q.lc else q.lcPending - 1

/-- SUBMIT_AUTHORISATION: the nonce expires; each refusal counts one AUTH_REFUSED. -/
def execSubmitAuthorisation (bytes : List Byte) (s : State) : Res :=
  .next <|
    if !s.vendorUp then s
    else
      let q := s.sec
      let perms := leAt bytes 2 2
      let s := (s.startWake 0).modSec fun q => { q with nonce := none }
      let refused (s : State) : State := (s.countDev Ctr.authRefused).vendor 0x11 1
      if !q.authGood bytes then refused s
      else if leAt bytes 1 1 = 2 then
        if !lcChange q.fused perms q.certWritten then refused s
        else ((s.authEnds 0).modSec fun q => { q with lcPending := perms + 1 }).vendor 0x11 0
      else ((s.authEnds perms).modSec fun q => { q with auth := true, perms := perms % 8 }).vendor 0x11 0

/-! ### Minimum SVN (R485) -/

/-- COMMIT_MINIMUM_SVN: DEV and FIELD only; refused unless slot A runs. Slot A is copied to slot B and verified against
the minimum that is to be fused; then the fuses are blown. Busy while an update writes slot A. -/
def execCommitMinimumSvn (s : State) : Res :=
  .next <|
    if !s.vendorUp then s
    else
      let q := s.sec
      let s := s.startWake 0
      let v := max q.svnMin q.svnRun
      if q.lc != 1 && q.lc != 2 then s.vendor 0x20 2
      else if s.boot.fwSlot != 0 then s.vendor 0x20 1
      else if q.updating then s.vendor 0x20 3
      else
        let s := s.modSec SecSt.copyAToB
        if !q.slotOk v q.boardA q.slotA s.foundA then s.vendor 0x20 1
        else (s.modSec fun q => { q with svnMin := v }).vendor 0x20 0

/-! ### JTAG (R476; 18 R448) -/

/-- Which JTAG operations are allowed. -/
def SecSt.jtagAllows (q : SecSt) (op : JtagOp) : Bool :=
  match op with
  | .boundaryScan => true
  | .idcode => true
  | .extest6 => true
  | .scanOrdinary => q.lc == 0 || q.lc == 1 || q.lc == 3
  | .scanSecure => q.lc == 3 && q.erased
  | .debugAccess _ => q.debugAllowed 2

/-- JTAG_ACCESS: what the state and any authorisation do not allow is refused. Debug access stays open until its
authorisation ends (R480). -/
def execJtagAccess (op : JtagOp) (s : State) : Res :=
  .next <|
    let ok := s.sec.jtagAllows op
    let s := s.send (.jtag ok)
    match op with
    | .debugAccess _ => if ok then s.modSec fun q => { q with jtagOpen := true } else s
    | .boundaryScan => s
    | .idcode => s
    | .extest6 => s
    | .scanOrdinary => s
    | .scanSecure => s

end Sys2Proof.Machine
end

