-- ==== Sys2Proof/Machine/Dispatch.lean ====
section
/-! DEFINITION. Dispatch.lean: the effect of one command on everything but the queue, one arm per constructor. -/

namespace Sys2Proof.Machine

def exec (i : Instr) (s : State) : Host.Outcome State Fault Refusal :=
  match i with
  | .commandSlotWrite mb offset bytes => Sys2Proof.Machine.execCommandSlotWrite mb offset bytes s
  | .mbPost mb value => Sys2Proof.Machine.execMbPost mb value s
  | .mailboxDecision mb => Sys2Proof.Machine.execMailboxDecision mb s
  | .mbConsumedWrite mb high value => Sys2Proof.Machine.execMbConsumedWrite mb high value s
  | .hello mb => Sys2Proof.Machine.execHello mb s
  | .getInfo mb => Sys2Proof.Machine.execGetInfo mb s
  | .loadImage mb hostData => Sys2Proof.Machine.execLoadImage mb hostData s
  | .unloadImage mb => Sys2Proof.Machine.execUnloadImage mb s
  | .bindStream mb => Sys2Proof.Machine.execBindStream mb s
  | .unbindStream mb => Sys2Proof.Machine.execUnbindStream mb s
  | .setStepSource mb => Sys2Proof.Machine.execSetStepSource mb s
  | .run mb => Sys2Proof.Machine.execRun mb s
  | .haltRun mb => Sys2Proof.Machine.execHaltRun mb s
  | .writeWeights mb hostData => Sys2Proof.Machine.execWriteWeights mb hostData s
  | .readWeights mb => Sys2Proof.Machine.execReadWeights mb s
  | .applyUpdates mb => Sys2Proof.Machine.execApplyUpdates mb s
  | .checkpoint mb => Sys2Proof.Machine.execCheckpoint mb s
  | .restore mb => Sys2Proof.Machine.execRestore mb s
  | .openFlow mb => Sys2Proof.Machine.execOpenFlow mb s
  | .closeFlow mb => Sys2Proof.Machine.execCloseFlow mb s
  | .setPowerState mb => Sys2Proof.Machine.execSetPowerState mb s
  | .resetCompute mb => Sys2Proof.Machine.execResetCompute mb s
  | .runSelftest mb mismatch signature => Sys2Proof.Machine.execRunSelftest mb mismatch signature s
  | .readCounters mb => Sys2Proof.Machine.execReadCounters mb s
  | .setEnsign mb => Sys2Proof.Machine.execSetEnsign mb s
  | .enterEnsign mb => Sys2Proof.Machine.execEnterEnsign mb s
  | .leaveEnsign mb => Sys2Proof.Machine.execLeaveEnsign mb s
  | .debugHalt mb => Sys2Proof.Machine.execDebugHalt mb s
  | .debugResume mb => Sys2Proof.Machine.execDebugResume mb s
  | .debugRead mb => Sys2Proof.Machine.execDebugRead mb s
  | .debugWrite mb hostData => Sys2Proof.Machine.execDebugWrite mb hostData s
  | .setFaultInject mb => Sys2Proof.Machine.execSetFaultInject mb s
  | .registerWrite offset size value => Sys2Proof.Machine.execRegisterWrite offset size value s
  | .timeMark value => Sys2Proof.Machine.execTimeMark value s
  | .hostHeartbeat value => Sys2Proof.Machine.execHostHeartbeat value s
  | .timeLoRead => Sys2Proof.Machine.execTimeLoRead s
  | .timeMarkLoRead => Sys2Proof.Machine.execTimeMarkLoRead s
  | .netStepLoRead net => Sys2Proof.Machine.execNetStepLoRead net s
  | .mailboxRegisterLowRead mb reg => Sys2Proof.Machine.execMailboxRegisterLowRead mb reg s
  | .counterSlotLowRead offset => Sys2Proof.Machine.execCounterSlotLowRead offset s
  | .flowEventPop => Sys2Proof.Machine.execFlowEventPop s
  | .tmrCountRead ch => Sys2Proof.Machine.execTmrCountRead ch s
  | .tmrSnapRead ch unit => Sys2Proof.Machine.execTmrSnapRead ch unit s
  | .timerRegisterWrite ch reg value => Sys2Proof.Machine.execTimerRegisterWrite ch reg value s
  | .streamWindowWrite stc offset bytes => Sys2Proof.Machine.execStreamWindowWrite stc offset bytes s
  | .streamSlotPost stc slot len => Sys2Proof.Machine.execStreamSlotPost stc slot len s
  | .hostWindowWrite offset bytes => Sys2Proof.Machine.execHostWindowWrite offset bytes s
  | .hostWindowRead offset len => Sys2Proof.Machine.execHostWindowRead offset len s
  | .pcieTlpDiscard why => Sys2Proof.Machine.execPcieTlpDiscard why s
  | .pcieLinkReset why => Sys2Proof.Machine.execPcieLinkReset why s
  | .sequencerInstruction core op => Sys2Proof.Machine.execSequencerInstruction core op s
  | .coreHaltComplete core => Sys2Proof.Machine.execCoreHaltComplete core s
  | .pennantSend core value => Sys2Proof.Machine.execPennantSend core value s
  | .descPost core value => Sys2Proof.Machine.execDescPost core value s
  | .statusPop core => Sys2Proof.Machine.execStatusPop core s
  | .popReq core queue => Sys2Proof.Machine.execPopReq core queue s
  | .popRpl core queue => Sys2Proof.Machine.execPopRpl core queue s
  | .queueDone core queue => Sys2Proof.Machine.execQueueDone core queue s
  | .queueClose core queue => Sys2Proof.Machine.execQueueClose core queue s
  | .descriptorRequest sector => Sys2Proof.Machine.execDescriptorRequest sector s
  | .descriptorReply sector => Sys2Proof.Machine.execDescriptorReply sector s
  | .descriptorMove core => Sys2Proof.Machine.execDescriptorMove core s
  | .moveComplete core => Sys2Proof.Machine.execMoveComplete core s
  | .statusEntry sector => Sys2Proof.Machine.execStatusEntry sector s
  | .markRelease sector => Sys2Proof.Machine.execMarkRelease sector s
  | .retryGateClear core => Sys2Proof.Machine.execRetryGateClear core s
  | .syncAdd sector => Sys2Proof.Machine.execSyncAdd sector s
  | .syncArrive sector => Sys2Proof.Machine.execSyncArrive sector s
  | .syncPost sector => Sys2Proof.Machine.execSyncPost sector s
  | .syncTrywait sector => Sys2Proof.Machine.execSyncTrywait sector s
  | .syncArm sector => Sys2Proof.Machine.execSyncArm sector s
  | .syncRead sector => Sys2Proof.Machine.execSyncRead sector s
  | .pendingNotifyWrite sector obj => Sys2Proof.Machine.execPendingNotifyWrite sector obj s
  | .bankAccess sector bank who use beside => Sys2Proof.Machine.execBankAccess sector bank who use beside s
  | .bankSelftestSlice sector bank segment pass repairable => Sys2Proof.Machine.execBankSelftestSlice sector bank segment pass repairable s
  | .routerForward sector out => Sys2Proof.Machine.execRouterForward sector out s
  | .scheduledFlitSend sector port => Sys2Proof.Machine.execScheduledFlitSend sector port s
  | .alignmentPulse => Sys2Proof.Machine.execAlignmentPulse s
  | .linkFlitReceive sector link ecc => Sys2Proof.Machine.execLinkFlitReceive sector link ecc s
  | .linkReplay sector link => Sys2Proof.Machine.execLinkReplay sector link s
  | .receiveQueueWrite sector => Sys2Proof.Machine.execReceiveQueueWrite sector s
  | .eventPop core => Sys2Proof.Machine.execEventPop core s
  | .delaySlotRelease core => Sys2Proof.Machine.execDelaySlotRelease core s
  | .fetchBeat core => Sys2Proof.Machine.execFetchBeat core s
  | .timerWrap ch => Sys2Proof.Machine.execTimerWrap ch s
  | .tinEdgeAccepted pin edge => Sys2Proof.Machine.execTinEdgeAccepted pin edge s
  | .snapCompareMatch ch unit => Sys2Proof.Machine.execSnapCompareMatch ch unit s
  | .heldTickRelease net => Sys2Proof.Machine.execHeldTickRelease net s
  | .stepCutoff core => Sys2Proof.Machine.execStepCutoff core s
  | .firePhase core => Sys2Proof.Machine.execFirePhase core s
  | .fireEndReport core => Sys2Proof.Machine.execFireEndReport core s
  | .quiescenceReport net ring unit => Sys2Proof.Machine.execQuiescenceReport net ring unit s
  | .stepQuiescent net => Sys2Proof.Machine.execStepQuiescent net s
  | .emitSend core => Sys2Proof.Machine.execEmitSend core s
  | .learnRowRetire core => Sys2Proof.Machine.execLearnRowRetire core s
  | .packerEventAccept sector => Sys2Proof.Machine.execPackerEventAccept sector s
  | .tokenDispatchBuild packer => Sys2Proof.Machine.execTokenDispatchBuild packer s
  | .tokenDispatchReceive flow => Sys2Proof.Machine.execTokenDispatchReceive flow s
  | .tokenCloseReceive flow => Sys2Proof.Machine.execTokenCloseReceive flow s
  | .tokenWindowTimeout binding => Sys2Proof.Machine.execTokenWindowTimeout binding s
  | .tokenExpansion sector => Sys2Proof.Machine.execTokenExpansion sector s
  | .returnTokenSend packer => Sys2Proof.Machine.execReturnTokenSend packer s
  | .tokenReturnReceive flow => Sys2Proof.Machine.execTokenReturnReceive flow s
  | .combinerResolve comb => Sys2Proof.Machine.execCombinerResolve comb s
  | .tokenErrorReceive flow => Sys2Proof.Machine.execTokenErrorReceive flow s
  | .pageInStart core set => Sys2Proof.Machine.execPageInStart core set s
  | .pageInComplete core set => Sys2Proof.Machine.execPageInComplete core set s
  | .gddrAccess addr op cls ecc crcFailures => Sys2Proof.Machine.execGddrAccess addr op cls ecc crcFailures s
  | .gddrChannelRetrain gc channel succeeds => Sys2Proof.Machine.execGddrChannelRetrain gc channel succeeds s
  | .dataFrameSend port => Sys2Proof.Machine.execDataFrameSend port s
  | .dataFrameReceive port lseq lack lretry cvc credit payload check => Sys2Proof.Machine.execDataFrameReceive port lseq lack lretry cvc credit payload check s
  | .ctrlFrameReceive port lack lretry cvc credit check => Sys2Proof.Machine.execCtrlFrameReceive port lack lretry cvc credit check s
  | .ctrlFrameSend port => Sys2Proof.Machine.execCtrlFrameSend port s
  | .linkAckTimeout port => Sys2Proof.Machine.execLinkAckTimeout port s
  | .portTrainingComplete port badLanes => Sys2Proof.Machine.execPortTrainingComplete port badLanes s
  | .retrainTrigger port cause => Sys2Proof.Machine.execRetrainTrigger port cause s
  | .timeExchange port => Sys2Proof.Machine.execTimeExchange port s
  | .timeFrameReceive port t1 t2 t3 frame => Sys2Proof.Machine.execTimeFrameReceive port t1 t2 t3 frame s
  | .flowMessageSend flow => Sys2Proof.Machine.execFlowMessageSend flow s
  | .segmentReceive port => Sys2Proof.Machine.execSegmentReceive port s
  | .eventsMessage flow => Sys2Proof.Machine.execEventsMessage flow s
  | .tokenMessage flow => Sys2Proof.Machine.execTokenMessage flow s
  | .syncInc flow => Sys2Proof.Machine.execSyncInc flow s
  | .bulk flow => Sys2Proof.Machine.execBulk flow s
  | .ack port => Sys2Proof.Machine.execAck port s
  | .ackSend flow gap => Sys2Proof.Machine.execAckSend flow gap s
  | .openMsg port => Sys2Proof.Machine.execOpenMsg port s
  | .openAck port => Sys2Proof.Machine.execOpenAck port s
  | .openResend flow => Sys2Proof.Machine.execOpenResend flow s
  | .openHandshakeTimeout flow => Sys2Proof.Machine.execOpenHandshakeTimeout flow s
  | .e2eRetransmitTimeout flow => Sys2Proof.Machine.execE2eRetransmitTimeout flow s
  | .flowStalled flow => Sys2Proof.Machine.execFlowStalled flow s
  | .commitRecordUpdate flow => Sys2Proof.Machine.execCommitRecordUpdate flow s
  | .frameEncode stc => Sys2Proof.Machine.execFrameEncode stc s
  | .aeFrameScan stc => Sys2Proof.Machine.execAeFrameScan stc s
  | .tokenFrameScan stc => Sys2Proof.Machine.execTokenFrameScan stc s
  | .resultRecordWrite sector => Sys2Proof.Machine.execResultRecordWrite sector s
  | .lineOutputEvent sector => Sys2Proof.Machine.execLineOutputEvent sector s
  | .loutPulseEnd pin => Sys2Proof.Machine.execLoutPulseEnd pin s
  | .eventFlowSend sender => Sys2Proof.Machine.execEventFlowSend sender s
  | .supplyWarningCrossing crossing => Sys2Proof.Machine.execSupplyWarningCrossing crossing s
  | .pwrWarnEnd => Sys2Proof.Machine.execPwrWarnEnd s
  | .persistentSupplyWarning => Sys2Proof.Machine.execPersistentSupplyWarning s
  | .persistentWarningEnd => Sys2Proof.Machine.execPersistentWarningEnd s
  | .vcoreResetCrossing selfRefreshDone => Sys2Proof.Machine.execVcoreResetCrossing selfRefreshDone s
  | .vauxResetCrossing => Sys2Proof.Machine.execVauxResetCrossing s
  | .aoClockLoss => Sys2Proof.Machine.execAoClockLoss s
  | .thermalSample readings => Sys2Proof.Machine.execThermalSample readings s
  | .throttleExit => Sys2Proof.Machine.execThrottleExit s
  | .sectorGate sector => Sys2Proof.Machine.execSectorGate sector s
  | .sectorUngate sector => Sys2Proof.Machine.execSectorUngate sector s
  | .pllRelockComplete sector => Sys2Proof.Machine.execPllRelockComplete sector s
  | .wakeStageReady stage => Sys2Proof.Machine.execWakeStageReady stage s
  | .p3GuardWake junction loadMilliamps => Sys2Proof.Machine.execP3GuardWake junction loadMilliamps s
  | .retentionBrownout => Sys2Proof.Machine.execRetentionBrownout s
  | .powerOnResetRelease mgtSel => Sys2Proof.Machine.execPowerOnResetRelease mgtSel s
  | .bringupPhaseEnd arg => Sys2Proof.Machine.execBringupPhaseEnd arg s
  | .sectorWaveEnd sector failedPhys failedBanks repaired => Sys2Proof.Machine.execSectorWaveEnd sector failedPhys failedBanks repaired s
  | .deviceResetAssert pin lowNs taken => Sys2Proof.Machine.execDeviceResetAssert pin lowNs taken s
  | .deviceResetRelease pin => Sys2Proof.Machine.execDeviceResetRelease pin s
  | .computeResetStepEnd => Sys2Proof.Machine.execComputeResetStepEnd s
  | .sectorReset sector => Sys2Proof.Machine.execSectorReset sector s
  | .coreReset core => Sys2Proof.Machine.execCoreReset core s
  | .softRepairFlashWrite sector => Sys2Proof.Machine.execSoftRepairFlashWrite sector s
  | .migrationStart sector => Sys2Proof.Machine.execMigrationStart sector s
  | .migrationComplete sector misrAgree => Sys2Proof.Machine.execMigrationComplete sector misrAgree s
  | .coreSelftestSlice sector signature golden repairable => Sys2Proof.Machine.execCoreSelftestSlice sector signature golden repairable s
  | .faultHandling source => Sys2Proof.Machine.execFaultHandling source s
  | .ensignTrigger trigger => Sys2Proof.Machine.execEnsignTrigger trigger s
  | .heartbeatTimeout => Sys2Proof.Machine.execHeartbeatTimeout s
  | .ownerHeartbeat => Sys2Proof.Machine.execOwnerHeartbeat s
  | .latchAckTimeout => Sys2Proof.Machine.execLatchAckTimeout s
  | .latchRequest => Sys2Proof.Machine.execLatchRequest s
  | .ownerStaleReset => Sys2Proof.Machine.execOwnerStaleReset s
  | .globalControlWrite south write => Sys2Proof.Machine.execGlobalControlWrite south write s
  | .mctpControlMessage msg length inSequence => Sys2Proof.Machine.execMctpControlMessage msg length inSequence s
  | .pldmMonitoringRequest req => Sys2Proof.Machine.execPldmMonitoringRequest req s
  | .requestUpdate => Sys2Proof.Machine.execRequestUpdate s
  | .requestFirmwareData offset data => Sys2Proof.Machine.execRequestFirmwareData offset data s
  | .verifyComplete => Sys2Proof.Machine.execVerifyComplete s
  | .activateFirmware => Sys2Proof.Machine.execActivateFirmware s
  | .spdmGetVersion => Sys2Proof.Machine.execSpdmGetVersion s
  | .spdmGetCapabilities => Sys2Proof.Machine.execSpdmGetCapabilities s
  | .spdmNegotiateAlgorithms => Sys2Proof.Machine.execSpdmNegotiateAlgorithms s
  | .spdmGetDigests => Sys2Proof.Machine.execSpdmGetDigests s
  | .spdmGetCertificate slot offset length => Sys2Proof.Machine.execSpdmGetCertificate slot offset length s
  | .spdmChallenge slot nonce => Sys2Proof.Machine.execSpdmChallenge slot nonce s
  | .spdmGetMeasurements index signed nonce => Sys2Proof.Machine.execSpdmGetMeasurements index signed nonce s
  | .managementMailboxPost mm endpoint command => Sys2Proof.Machine.execManagementMailboxPost mm endpoint command s
  | .managementMailboxRead mm => Sys2Proof.Machine.execManagementMailboxRead mm s
  | .debugChallenge => Sys2Proof.Machine.execDebugChallenge s
  | .submitAuthorisation bytes => Sys2Proof.Machine.execSubmitAuthorisation bytes s
  | .revokeDebugAuthorisation => Sys2Proof.Machine.execRevokeDebugAuthorisation s
  | .commitMinimumSvn => Sys2Proof.Machine.execCommitMinimumSvn s
  | .fabricPortReset port => Sys2Proof.Machine.execFabricPortReset port s
  | .jtagAccess op => Sys2Proof.Machine.execJtagAccess op s
  | .traceRecordMove sector => Sys2Proof.Machine.execTraceRecordMove sector s
  | .timerCountAdvance ch => Sys2Proof.Machine.execTimerCountAdvance ch s
  | .pcieConfigurationRequest op => Sys2Proof.Machine.execPcieConfigurationRequest op s
  | .msixVectorUnmask vector => Sys2Proof.Machine.execMsixVectorUnmask vector s
  | .pcieLinkUp => Sys2Proof.Machine.execPcieLinkUp s
  | .pldmBaseCommand code => Sys2Proof.Machine.execPldmBaseCommand code s

end Sys2Proof.Machine
end

