-- ==== Sys2Proof/Machine/Step.lean ====
section
/-! DEFINITION. Step.lean: one step of the block: the command in front of the queue, or one idle nanosecond. -/

namespace Sys2Proof.Machine

/-- The idle block: 1 ns of the time base passes (01 R27; DESIGN CHOICE, log 1). -/
def State.idle (s : State) : State := s.modAo fun a => { a with time := (a.time + 1) % 2 ^ 64 }

/-- One step: the command at the front of the queue acts on the state with the queue's rest; on an empty queue the block
idles. -/
def step (s : State) : Host.Outcome State Fault Refusal :=
  match s.pending with
  | [] => .next s.idle
  | c :: rest => exec c (s.withQueue rest)

/-- s with the command that a word spells in front of its queue: s itself, since no word spells one. -/
def State.withFetchWord (s : State) (nbits w : Nat) : State :=
  match Sys2Proof.decodeTableWord nbits w with
  | some c => s.withQueue (c :: s.pending)
  | none => s

end Sys2Proof.Machine
end

