-- ==== Sys2Proof/Safety.lean ====
section
/-! DEFINITION. Safety.lean: what claims call a safe step and a well-kept state. -/

namespace Sys2Proof.Machine

/-- The step of the state answers a next state: it neither faults nor is refused. -/
def State.safe (s : State) : Prop := ∃ t, step s = .next t

/-- The byte memories of the block are in canonical form. -/
def State.memWf (s : State) : Prop :=
  Memory.wf s.gddr.mem = true ∧ (∀ n, Memory.wf (s.sector n).mem = true) ∧ (∀ n, Memory.wf (s.stc n).win = true)

/-- The fused state of the security core (19 R477, R485), seen from values v and l it once had: the minimum SVN is at least
v; the life-cycle state, in the order BLANK, DEV, FIELD, RMA, SCRAP, is at least l; a pending change leads to a later state;
secrets once erased and development keys once revoked stay so. -/
def State.FuseInv (v l : Nat) (e d : Bool) (s : State) : Prop :=
  v ≤ s.sec.svnMin ∧ l ≤ s.sec.lc ∧ s.sec.lc ≤ 4 ∧ (s.sec.lcPending = 0 ∨ s.sec.lc + 1 < s.sec.lcPending) ∧
    s.sec.lcPending ≤ 5 ∧ (e = true → s.sec.erased = true) ∧ (d = true → s.sec.devRevoked = true)

/-! ### Frames -/

/-- The parts of State, one for each field. -/
inductive Part where
  | pending | ao | timers | boot | board | pcie | mbox | accepted | nets | cores | sectors | ports | flows
  | routes | deviceId | gddr | images | nextHandle | regions | pageSets | groups | binds | tok | dpack
  | rpack | combs | rfns | expand | errTok | stcs | louts | fault | sec | traceCtrl | ctr | snap | out | free
  deriving DecidableEq, Repr

/-- Part p is the same in t as in s. -/
def State.Same (s t : State) : Part → Prop
  | .pending => t.pending = s.pending
  | .ao => t.ao = s.ao
  | .timers => t.timers = s.timers
  | .boot => t.boot = s.boot
  | .board => t.board = s.board
  | .pcie => t.pcie = s.pcie
  | .mbox => t.mbox = s.mbox
  | .accepted => t.accepted = s.accepted
  | .nets => t.nets = s.nets
  | .cores => t.cores = s.cores
  | .sectors => t.sectors = s.sectors
  | .ports => t.ports = s.ports
  | .flows => t.flows = s.flows
  | .routes => t.routes = s.routes
  | .deviceId => t.deviceId = s.deviceId
  | .gddr => t.gddr = s.gddr
  | .images => t.images = s.images
  | .nextHandle => t.nextHandle = s.nextHandle
  | .regions => t.regions = s.regions
  | .pageSets => t.pageSets = s.pageSets
  | .groups => t.groups = s.groups
  | .binds => t.binds = s.binds
  | .tok => t.tok = s.tok
  | .dpack => t.dpack = s.dpack
  | .rpack => t.rpack = s.rpack
  | .combs => t.combs = s.combs
  | .rfns => t.rfns = s.rfns
  | .expand => t.expand = s.expand
  | .errTok => t.errTok = s.errTok
  | .stcs => t.stcs = s.stcs
  | .louts => t.louts = s.louts
  | .fault => t.fault = s.fault
  | .sec => t.sec = s.sec
  | .traceCtrl => t.traceCtrl = s.traceCtrl
  | .ctr => t.ctr = s.ctr
  | .snap => t.snap = s.snap
  | .out => t.out = s.out
  | .free => t.free = s.free

/-- t differs from s in no part but those listed: the frame of a command. -/
def State.KeepsBut (l : List Part) (s t : State) : Prop := ∀ p, p ∉ l → State.Same s t p

/-- No byte of GDDR6 and of sector memory differs. -/
def State.SameBytes (s t : State) : Prop := t.gddr.mem = s.gddr.mem ∧ ∀ n, (t.sector n).mem = (s.sector n).mem

/-- No sector but those listed differs. -/
def State.SectorsBut (l : List Nat) (s t : State) : Prop := ∀ n, n ∉ l → t.sector n = s.sector n

/-- No core but those listed differs. -/
def State.CoresBut (l : List Nat) (s t : State) : Prop := ∀ c, c ∉ l → t.core c = s.core c

/-- No network but those listed differs. -/
def State.NetsBut (l : List Nat) (s t : State) : Prop := ∀ k, k ∉ l → t.net k = s.net k

/-- No flow context but those listed differs. -/
def State.FlowsBut (l : List Nat) (s t : State) : Prop := ∀ f, f ∉ l → t.flow f = s.flow f

/-- No fabric port but those listed differs. -/
def State.PortsBut (l : List Nat) (s t : State) : Prop := ∀ p, p ∉ l → t.port p = s.port p

/-- No mailbox but those listed differs. -/
def State.MbBut (l : List Nat) (s t : State) : Prop := ∀ m, m ∉ l → t.mb m = s.mb m

/-- The frames that carry a message of flow f on message channel v of its route (11 R279): ACK, OPEN and OPEN_ACK use VC2. -/
def State.framesOf (s : State) (f kind mseq v : Nat) (body : List Byte) : List Frame :=
  let x := s.flow f
  let vc := if 5 ≤ kind then 2 else v
  (segsOf x.peerDev s.deviceId x.peerFlow x.epoch mseq kind vc body).map fun g =>
    { vc := vc, fwd := false, src := 0, payload := g.bytes }

/-- The ring port through which an event enters: that of its core's sector, else of sector 0 (09 R223, R225). -/
def evPort (e : EvItem) : Nat := if evCore e.ev < 128 then sectorOf (evCore e.ev) else 0

/-- The events of a list enter at the ring ports, in order and each tagged for the step, with RING set and the sector's number
(02 R40, 03 R62). -/
def State.Injects (s t : State) (step : Nat) (l : List EvItem) : Prop :=
  ∀ m, m < 8 → ((t.sector m).link 3).inFlight = ((s.sector m).link 3).inFlight ++
    (l.filter fun e => evPort e == m).map fun e => .event { e with tag := step % 4, ev := put (put e.ev 6 2 16) 10 7 m }

/-! ### Mailbox commands -/

/-- Journal entry e of mailbox m is the command `op` whose turn it is (13 R334), the owner Halyard serves it, nothing
refuses it beforehand, and tracing is off. -/
def State.Ready (s : State) (m op : Nat) (e : JEntry) : Prop :=
  s.ao.serving = true ∧ s.front m op = some e ∧ s.authEnded e = false ∧ s.heldOff m op = false ∧
    s.memRejected op = false ∧ s.traceOn = false

/-- Between s and t entry e of mailbox m completes: its journal entry holds, and its completion slot shows, the record of 13 R335
with this CODE, REASON and INLINE, RFLAGS `rf` and RESULT_BYTES `n`, the owner epoch and the time of s; every other mailbox is as
it was. -/
def State.Completes (s t : State) (m : Nat) (e : JEntry) (code reason : Nat) (inline : List Byte := []) (rf : Nat := 0)
    (n : Nat := 0) : Prop :=
  (∃ x ∈ (t.mb m).journal, x.seq = e.seq ∧ x.st = 2 ∧ x.record = recordBytes e code rf reason s.ao.epoch n s.now inline) ∧
  memRead (t.mb m).comp (64 * (e.seq % 64)) 64 = recordBytes e code rf reason s.ao.epoch n s.now inline ∧
  State.MbBut [m] s t

/-- The result bytes that mailbox m sends for entry e: to RESULT_ADDR of a host mailbox, RESULT_LEN at most (13 R336). -/
def State.resultSent (s : State) (m : Nat) (e : JEntry) (bytes : List Byte) : List Byte :=
  if m < 8 ∧ s.pcie.linkUp = true ∧ s.pcie.busMaster = true then bytes.take (cmdResLen e.cmd) else []

/-- Between s and t entry e of mailbox m completes DONE with a result: a host mailbox sends it first of all and shows its length, and
that it was cut (RFLAGS bit 1); a management mailbox shows in INLINE a result of at most 24 bytes (19 R490). -/
def State.AnswersWith (s t : State) (m : Nat) (e : JEntry) (bytes : List Byte) : Prop :=
  (m < 8 → s.Completes t m e codeDone 0 [] (2 * b2n ((s.resultSent m e bytes).length < bytes.length)) (s.resultSent m e bytes).length ∧
    (s.resultSent m e bytes ≠ [] → ∃ l, t.out = s.out ++ .hostWrite (cmdResAddr e.cmd) (s.resultSent m e bytes) :: l)) ∧
  (8 ≤ m → s.Completes t m e codeDone 0 (if bytes.length ≤ 24 then bytes else []) (2 * b2n (24 < bytes.length)))

/-- Entry e of mailbox m is executing: it waits for an event of the device. -/
def State.Executing (t : State) (m : Nat) (e : JEntry) : Prop := ∃ x ∈ (t.mb m).journal, x.seq = e.seq ∧ x.st = 1

/-- The parts that the completion of a command may touch. -/
abbrev mailParts : List Part := [.mbox, .pcie, .out, .ctr]

end Sys2Proof.Machine
end

