-- ==== Sys2Proof/Certificates/Slice0/Obligations.lean ====
section
/-! DEFINITION. Obligations.lean: the statements for the provers, from the numbered rules of the spec. Each docstring names the
section file and the rules that its clauses come from; OBLIGATIONS.json lists them. -/

open Sys2Proof Sys2Proof.Machine

/-! ### The step and reset -/

/-- A step takes the command in front of the queue and runs it on the state with the queue's rest. -/
def Obligations.StepRunsTheFrontCommand : Prop :=
  ∀ (s : State) (c : Instr) (rest : List Instr), s.pending = c :: rest → step s = exec c (s.withQueue rest)

/-- On an empty queue the block idles for 1 ns of the time base (the model's choice, log 1), and nothing else changes; every step
answers a next state. -/
def Obligations.StepIdlesAndNeverStops : Prop :=
  (∀ s : State, s.pending = [] → ∃ t, step s = .next t ∧ t.now = (s.now + 1) % 2 ^ 64 ∧
    t.ao = { s.ao with time := (s.now + 1) % 2 ^ 64 } ∧ State.KeepsBut [.ao] s t) ∧
  (∀ s : State, s.safe)

/-- 13 R330, 14 R361, 17 R439, 18 R471, 21 R519: what reset leaves: the queue empty, BAR0 closed and the journals empty, each
MB_NEXT_SEQ at 1, no image loaded, no core, network, flow or stream context in use, ports DOWN, owner epoch 1, and no fault
logged.

The invariant of FusesNeverGoBack holds after reset, and so does the canonical form of the memories. -/
def Obligations.ResetLeavesTheBlockEmpty : Prop :=
  (State.reset.pending = [] ∧ State.reset.bar0Open = false ∧ State.reset.images = [] ∧ State.reset.gddr.mem = [] ∧
    State.reset.cores = [] ∧ State.reset.ao.epoch = 1 ∧ State.reset.fault.log = [] ∧ State.reset.boot.devReady = false ∧
    State.reset.out = [] ∧
    (∀ m, (State.reset.mb m).next = 1 ∧ (State.reset.mb m).consumed = 0 ∧ (State.reset.mb m).journal = [] ∧
      (State.reset.mb m).busy = false) ∧
    (∀ k, (State.reset.net k).image = 0 ∧ (State.reset.net k).running = false) ∧
    (∀ f, (State.reset.flow f).fstate = flowClosed) ∧ (∀ n, (State.reset.stc n).bound = false) ∧
    (∀ p, (State.reset.port p).state = portDown) ∧ (∀ n, (State.reset.sector n).mem = [])) ∧
  (State.FuseInv 0 0 false false State.reset ∧ State.reset.memWf)

/-- 16 R414: "A crossing of the VAUX reset threshold is a cold reset. The internal regulator loses its input, so the always-on
domain, the time base and the timer block are cleared." LAST_RESET records the cause, 4, or the trip that the crossing ends
(R425), once the always-on domain is ready again. -/
def Obligations.VauxCrossingIsAColdReset : Prop :=
  ∀ s : State, ∃ t, exec .vauxResetCrossing s = .next t ∧
    t.ao = { perstHigh := s.ao.perstHigh, resetHigh := s.ao.resetHigh, resetCause := if s.ao.tripped then 6 else 4 } ∧
    t.now = 0 ∧ t.timers = [] ∧ t.boot = {} ∧ t.gddr = {} ∧ t.pcie = {} ∧ t.mbox = [] ∧ t.nets = [] ∧ t.cores = [] ∧
    t.sectors = [] ∧ t.ports = [] ∧ t.flows = [] ∧ t.sec = s.sec.rebooted ∧ t.board = s.board ∧ t.pending = s.pending ∧
    ∀ m arg, ∃ u v, exec (.powerOnResetRelease m) t = .next u ∧ exec (.bringupPhaseEnd arg) u = .next v ∧
      v.ao.lastReset = if s.ao.tripped then 6 else 4

/-- 19 R477, R485: the fused state only goes forward. The invariant FuseInv holds of the state that a step answers whenever it holds
of the one before: the minimum SVN is at least v, the life-cycle state is at least l in the order BLANK, DEV, FIELD, RMA, SCRAP, a
pending change leads to a later state, and what has been erased or revoked stays so. -/
def Obligations.FusesNeverGoBack : Prop :=
  ∀ (v l : Nat) (e d : Bool) (s t : State), State.FuseInv v l e d s → step s = .next t → State.FuseInv v l e d t

/-! ### Number formats and records -/

/-- 02 R58: one draw of the xorshift generator advances its 64-bit state by one step, three logical shifts and exclusive ors,
and returns bits [15:0] of the new state. -/
def Obligations.XorshiftDraw : Prop :=
  ∀ x a b : Word64, (∀ i, i < 64 → a.getLsbD i = (x.getLsbD i ^^ (decide (13 ≤ i) && x.getLsbD (i - 13)))) →
    (∀ i, i < 64 → b.getLsbD i = (a.getLsbD i ^^ (decide (i + 7 < 64) && a.getLsbD (i + 7)))) →
    (∀ i, i < 64 → (rngNext x).getLsbD i = (b.getLsbD i ^^ (decide (17 ≤ i) && b.getLsbD (i - 17)))) ∧
      rngDraw (rngNext x) = (rngNext x).toNat % 2 ^ 16

/-- 20 R516: the fields of a trace record at their offsets.

13 R335: a completion record carries SEQ, OPCODE, CODE, RFLAGS, REASON, OWNER_EPOCH, RESULT_BYTES, T_ACCEPT and T_DONE at
their offsets; it stands at completion slot offset 64 × (SEQ mod 64), and in the journal. 20 R517: with tracing on, a CMD_END
record with the code and SEQ is staged in sector 0. -/
def Obligations.RecordLayouts : Prop :=
  (∀ t kind gap unit mark step a b : Nat,
    (traceBytes t kind gap unit mark step a b).length = 32 ∧
    leAt (traceBytes t kind gap unit mark step a b) 0x00 8 = t % 2 ^ 64 ∧
    leAt (traceBytes t kind gap unit mark step a b) 0x08 1 = kind % 2 ^ 8 ∧
    leAt (traceBytes t kind gap unit mark step a b) 0x09 1 = gap % 2 ^ 8 ∧
    leAt (traceBytes t kind gap unit mark step a b) 0x0A 2 = unit % 2 ^ 16 ∧
    leAt (traceBytes t kind gap unit mark step a b) 0x0C 4 = mark % 2 ^ 32 ∧
    leAt (traceBytes t kind gap unit mark step a b) 0x10 4 = step % 2 ^ 32 ∧
    leAt (traceBytes t kind gap unit mark step a b) 0x14 4 = a % 2 ^ 32 ∧
    leAt (traceBytes t kind gap unit mark step a b) 0x18 8 = b % 2 ^ 64) ∧
  ((∀ (e : JEntry) (code rf reason epoch n now : Nat) (inline : List Byte) (r : List Byte),
    r = recordBytes e code rf reason epoch n now inline →
    r.length = 64 ∧ leAt r 0x00 8 = e.seq % 2 ^ 64 ∧ leAt r 0x08 2 = cmdOp e.cmd % 2 ^ 16 ∧ leAt r 0x0A 1 = code % 2 ^ 8 ∧
      leAt r 0x0B 1 = rf % 2 ^ 8 ∧ leAt r 0x0C 2 = reason % 2 ^ 16 ∧ leAt r 0x0E 2 = 0 ∧ leAt r 0x10 4 = epoch % 2 ^ 32 ∧
      leAt r 0x14 4 = n % 2 ^ 32 ∧ leAt r 0x18 8 = e.tAccept % 2 ^ 64 ∧ leAt r 0x20 8 = now % 2 ^ 64 ∧
      r.drop 0x28 = fitBytes 24 inline) ∧
  (∀ (s : State) (m : MboxId) (e x : JEntry) (code reason : Nat) (inline : List Byte),
    x ∈ (s.mb m.val).journal → x.seq = e.seq → ∃ r, r = recordBytes e code 0 reason s.ao.epoch 0 s.now inline ∧
      memRead ((s.complete m.val e code reason inline).mb m.val).comp (64 * (e.seq % 64)) 64 = r ∧
      (∃ y ∈ ((s.complete m.val e code reason inline).mb m.val).journal, y.seq = e.seq ∧ y.st = 2 ∧ y.record = r) ∧
      (s.traceOn = true → nbit s.traceCtrl.toNat 29 = true → (s.sector 0).traceStage.length < 8192 →
        ((s.complete m.val e code reason inline).sector 0).traceStage = (s.sector 0).traceStage ++
          [traceBytes s.now 11 (b2n (s.sector 0).traceGap) 0xFFFF (cmdMark e.cmd) 0 code e.seq])))

/-! ### Delivery and sending at a core -/

/-- 03 R64: "An event with a reserved type code is popped, consumed with no effect and counted in `TYPE_IGNORED`." It is not a
drop: no other counter of the core moves. So is an event that addresses a row whose enable bit is clear or a row beyond those
loaded, which is counted in ROW_DISABLED. -/
def Obligations.IgnoredEventsAreConsumed : Prop :=
  ∀ (c : CoreId) (s : State) (e : EvItem) (rest : List EvItem) (id : Nat), s.canPop c.val = true →
    (s.core c.val).rq = e :: rest → e.tag = (s.core c.val).step % 4 →
    Tab.get (s.core c.val).delay [] ((s.core c.val).step % 64) = [] → evFmt e.ev = 0 → evPfmt e.ev < 2 →
    ((evType e.ev = 0 ∨ 6 < evType e.ev) ∧ id = Ctr.typeIgnored ∨
      (evType e.ev = 1 ∨ evType e.ev = 2 ∨ evType e.ev = 3) ∧ (s.netOf c.val).backward = false ∧
        ((s.core c.val).nRows ≤ evRow e.ev ∨ (s.core c.val).rEnable (evRow e.ev) = false) ∧ id = Ctr.rowDisabled) →
    ∃ t, exec (.eventPop c) s = .next t ∧ (t.core c.val).rq = rest ∧ (t.core c.val).lookup = none ∧
      (t.core c.val).acc = (s.core c.val).acc ∧ (t.core c.val).delay = (s.core c.val).delay ∧
      (t.core c.val).syn = (s.core c.val).syn ∧ (t.core c.val).eq = (s.core c.val).eq ∧
      t.ctrAt Scope.core c.val id noSub (if perStep id then 4 else 0) =
        satCtr (s.ctrAt Scope.core c.val id noSub (if perStep id then 4 else 0) + 1) ∧
      (∀ i sub k, i < 1024 → i ≠ id → sub < 65536 → k < 8 →
        t.ctrAt Scope.core c.val i sub k = s.ctrAt Scope.core c.val i sub k) ∧ s.SameBytes t ∧
      State.KeepsBut [.cores, .sectors, .ctr, .flows] s t

/-- 03 R65; 05 R124: an event for an ACTIVE core of a network that is not shed enters its receive queue where its tag names the current
step or the next and there is room, behind the entries there. One that finds no room is dropped and counted in DROP_QUEUE; one of
another tag is dropped, counted in STEP_LATE_DROP and as popped under its tag. No other core changes.

03 R64, R68 to R71; 05 R124: the head of the receive queue, tagged for the current step, is popped while the open delay slot is
empty; the oldest event of that slot goes first. A SPIKE or GRADED event for a row in use waits in row lookup for the fetch port, or,
with a delay, goes to the slot of the delay ring that the step it is due in opens. -/
def Obligations.EventsReachTheCore : Prop :=
  (∀ (n : SectorId) (s : State) (e : EvItem) (rest : List Item) (c : Nat), c = evCore e.ev →
    (s.sector n.val).toCore = .event e :: rest → s.sectorRuns n.val = true → (s.sector n.val).mstate (indexOf c) = 0 →
    (s.netOf c).shed = false →
    ((s.core c).net = 0 ∨ (e.tag + 4 - s.cutStep c % 4) % 4 < 2 →
      ((e.token = true ∨ plainEvents (s.core c).rq + (s.core c).credit < 4096) →
        ∃ t, exec (.receiveQueueWrite n) s = .next t ∧ t.sector n.val = { s.sector n.val with toCore := rest } ∧
          t.core c = { s.core c with rq := (s.core c).rq ++ [e] } ∧ State.CoresBut [c] s t ∧ State.SectorsBut [n.val] s t ∧
          State.KeepsBut [.sectors, .cores, .ctr] s t) ∧
      (e.token = false → 4096 ≤ plainEvents (s.core c).rq + (s.core c).credit →
        ∃ t, exec (.receiveQueueWrite n) s = .next t ∧ (t.sector n.val).toCore = rest ∧ (t.core c).rq = (s.core c).rq ∧
          t.ctrAt Scope.core c Ctr.dropQueue noSub 4 = satCtr (s.ctrAt Scope.core c Ctr.dropQueue noSub 4 + 1) ∧
          (e.flow = 0 → t.flows = s.flows) ∧ State.FlowsBut [e.flow - 1] s t ∧ State.CoresBut [c] s t ∧ s.SameBytes t ∧
          State.KeepsBut [.sectors, .cores, .ctr, .flows] s t)) ∧
    ((s.core c).net ≠ 0 → 2 ≤ (e.tag + 4 - s.cutStep c % 4) % 4 → e.token = false →
      ∃ t, exec (.receiveQueueWrite n) s = .next t ∧ (t.sector n.val).toCore = rest ∧ (t.core c).rq = (s.core c).rq ∧
        Tab.get (t.core c).popped 0 e.tag = Tab.get (s.core c).popped 0 e.tag + 1 ∧
        nbit (t.net ((s.core c).net - 1)).events 4 = true ∧
        t.ctrAt Scope.core c Ctr.stepLateDrop noSub 4 = satCtr (s.ctrAt Scope.core c Ctr.stepLateDrop noSub 4 + 1) ∧
        (e.flow = 0 → t.flows = s.flows) ∧ State.FlowsBut [e.flow - 1] s t ∧ State.CoresBut [c] s t ∧
        State.NetsBut [(s.core c).net - 1] s t ∧ s.SameBytes t ∧
        State.KeepsBut [.sectors, .cores, .ctr, .flows, .nets, .pcie, .out] s t)) ∧
  (∀ (c : CoreId) (s : State) (e : EvItem) (k : CoreSt) (i : Nat), k = s.core c.val → i = evRow e.ev → s.canPop c.val = true →
    (s.netOf c.val).backward = false → evFmt e.ev = 0 → evPfmt e.ev < 2 → (evType e.ev = 1 ∨ evType e.ev = 2) → i < k.nRows →
    k.rEnable i = true → evOutlier e.ev = k.rOutlier i → (k.rDlEn i && k.rPending i) = false →
    (∀ rest, k.rq = e :: rest → e.tag = k.step % 4 → Tab.get k.delay [] (k.step % 64) = [] →
      ∃ t, exec (.eventPop c) s = .next t ∧ (t.core c.val).rq = rest ∧
        Tab.get (t.core c.val).popped 0 e.tag = Tab.get k.popped 0 e.tag + 1 ∧
        (evDelay e.ev + k.rDelay i = 0 →
          (t.core c.val).lookup = some { item := e, looked := true } ∧ (t.core c.val).delay = k.delay) ∧
        (∀ d, d = min (evDelay e.ev + k.rDelay i) 63 → d ≠ 0 → k.delayed < 32768 →
          (t.core c.val).lookup = none ∧ Tab.get (t.core c.val).delay [] ((k.step + d) % 64) =
            Tab.get k.delay [] ((k.step + d) % 64) ++ [e] ∧
          (∀ x, x ≠ (k.step + d) % 64 → Tab.get (t.core c.val).delay [] x = Tab.get k.delay [] x)) ∧
        (e.flow = 0 → t.flows = s.flows) ∧ State.FlowsBut [e.flow - 1] s t ∧ (e.token = false → State.CoresBut [c.val] s t) ∧
        s.SameBytes t ∧ State.KeepsBut [.sectors, .cores, .ctr, .flows] s t) ∧
    (∀ rest, Tab.get k.delay [] (k.step % 64) = e :: rest →
      ∃ t, exec (.delaySlotRelease c) s = .next t ∧ Tab.get (t.core c.val).delay [] (k.step % 64) = rest ∧
        (t.core c.val).lookup = some { item := e, released := true, looked := true } ∧ (t.core c.val).rq = k.rq ∧
        State.CoresBut [c.val] s t ∧ State.KeepsBut [.cores] s t))

/-- 03 R71, R73, R74; 06 R145: a fetch beat waits while a row that it reads is update-pending. Else the beat's columns accumulate, those of
a MODULATOR event in the modulator bank of the step; the next beat follows, or the port is free. -/
def Obligations.FetchBeatsAccumulate : Prop :=
  ∀ (c : CoreId) (s : State) (p : InPipe) (k : CoreSt) (i ty : Nat) (cols : List Nat), k = s.core c.val → i = evRow p.item.ev →
    ty = evType p.item.ev → cols = beatCols (k.rStart i) (k.rLen i) p.beat → s.sectorRuns (sectorOf c.val) = true →
    k.lookup = none → k.fetch = some p → (ty = 1 ∨ ty = 2 ∨ ty = 3) →
    (k.rPending i = true →
      ∃ t, exec (.fetchBeat c) s = .next t ∧ (t.core c.val).fetch = some p ∧ (t.core c.val).acc = k.acc ∧
        (t.core c.val).modBank = k.modBank ∧ t.ctrAt Scope.core c.val Ctr.fetchUpdStall noSub 0 =
          satCtr (s.ctrAt Scope.core c.val Ctr.fetchUpdStall noSub 0 + 1) ∧ State.CoresBut [c.val] s t ∧ s.SameBytes t ∧
        State.KeepsBut [.cores, .sectors, .ctr] s t) ∧
    (k.rPending i = false →
      ∃ t, exec (.fetchBeat c) s = .next t ∧
        (t.core c.val).fetch = (if (p.beat + 1) * 512 < k.rLen i then some { p with beat := p.beat + 1 } else none) ∧
        (ty ≠ 3 → ∀ r : CoreSt × Nat, r = cols.foldl (accColumn i k.pipeStep (evQ p.item.ev)
            (!((s.netOf c.val).refreshStep k.pipeStep) || p.item.refresh || evRing p.item.ev)) (k, 0) →
          (t.core c.val).acc = r.1.acc ∧ (t.core c.val).touched = r.1.touched ∧ (t.core c.val).wake = r.1.wake ∧
          (t.core c.val).modBank = k.modBank) ∧
        (ty = 3 → (t.core c.val).modBank =
            (cols.foldl (modColumn i k.pipeStep (evTs p.item.ev) (evQ p.item.ev)) (k, 0)).1.modBank ∧
          (t.core c.val).acc = k.acc) ∧
        (t.core c.val).rq = k.rq ∧ State.CoresBut [c.val] s t ∧ s.SameBytes t ∧
        State.KeepsBut [.cores, .sectors, .ctr, .fault] s t)

/-- 20 R503, R515, R517: a PENNANT that a sequencer sends to a core of its network enters the core's router port where there is room, and
waits where there is none; one to any other core is an access fault. The oldest trace record staged in a sector goes to its ring in
GDDR6, except that with WRAP 0 one that finds the ring full is lost and counted. Said while the channel of its block serves. -/
def Obligations.PennantsAndTraceRecords : Prop :=
  (∀ (c : CoreId) (v : Word32) (s : State) (e : EvItem) (n p : Nat) (own : Bool), n = sectorOf c.val → p = s.corePort c.val →
    e = { ev := mkEvent 6 (nfld v.toNat 29 20) 0 0 (nfld v.toNat 15 0) false 1 n false (indexOf c.val) (nfld v.toNat 31 30)
          tag := s.cutStep c.val % 4 } →
    own = ((s.core c.val).net != 0 && (s.netOf c.val).cores.contains (nfld v.toNat 29 20)) → s.sectorRuns n = true →
    (own = true → s.roomAt n p (.event e) = true →
      ∃ t, exec (.pennantSend c v) s = .next t ∧ ((t.sector n).inPort p).be = ((s.sector n).inPort p).be ++ [Item.event e] ∧
        Tab.get (t.core c.val).sent 0 e.tag = Tab.get (s.core c.val).sent 0 e.tag + 1 ∧ State.CoresBut [c.val] s t ∧
        State.SectorsBut [n] s t ∧ s.SameBytes t ∧ State.KeepsBut [.sectors, .cores] s t) ∧
    (own = true → s.roomAt n p (.event e) = false → exec (.pennantSend c v) s = .next s) ∧
    (own = false →
      ∃ t, exec (.pennantSend c v) s = .next t ∧ (t.sector n).inp = (s.sector n).inp ∧
        t.ctrAt Scope.core c.val Ctr.seqAccessFault noSub 0 =
          satCtr (s.ctrAt Scope.core c.val Ctr.seqAccessFault noSub 0 + 1) ∧ State.CoresBut [c.val] s t ∧
        State.SectorsBut [n] s t ∧ s.SameBytes t ∧ State.KeepsBut [.sectors, .cores, .ctr] s t)) ∧
  (∀ (n : SectorId) (s : State) (r : List Byte) (l : List (List Byte)) (base size d a : Nat) (full : Bool),
    (s.sector n.val).traceStage = r :: l → s.traceBuffer (fld s.traceCtrl 15 0) = some (base, size) →
    s.sectorRuns n.val = true → d = ringRecords size → d ≠ 0 →
    full = (!nbit s.traceCtrl.toNat 30 && decide (d ≤ ((s.sector n.val).traceWr + 2 ^ 32 - (s.sector n.val).traceRd) % 2 ^ 32)) →
    a = base + n.val * (size / 8) + 32 * ((s.sector n.val).traceWr % d) →
    (full = false → s.gHeld a r.length = false → rtxBase ≤ a →
      ∃ t, exec (.traceRecordMove n) s = .next t ∧
        t.sector n.val = { s.sector n.val with traceStage := l, traceWr := ((s.sector n.val).traceWr + 1) % 2 ^ 32 } ∧
        memRead t.gddr.mem a r.length = r ∧
        (∀ b, b < a ∨ a + r.length ≤ b → memByte t.gddr.mem b = memByte s.gddr.mem b) ∧
        t.ctrAt Scope.sector n.val Ctr.traceRecords noSub 0 =
          satCtr (s.ctrAt Scope.sector n.val Ctr.traceRecords noSub 0 + 1) ∧
        State.SectorsBut [n.val] s t ∧ State.KeepsBut [.sectors, .gddr, .ctr] s t) ∧
    (full = true →
      ∃ t, exec (.traceRecordMove n) s = .next t ∧ (t.sector n.val).traceStage.length = l.length ∧
        (t.sector n.val).traceWr = (s.sector n.val).traceWr ∧ t.ctrAt Scope.sector n.val Ctr.traceDrop noSub 0 =
          satCtr (s.ctrAt Scope.sector n.val Ctr.traceDrop noSub 0 + 1) ∧
        State.SectorsBut [n.val] s t ∧ s.SameBytes t ∧ State.KeepsBut [.sectors, .ctr] s t))

/-- 05 R125, R129; 20 R500: the cutoff of a DEADLINE step, due at C_n or once a later step has opened, drops what is tagged for the step
from the receive queue, its delay slot, items of earlier FIREs and the LEARN rows not begun but those of the renormalisation mask; then
FIRE n begins. On a halted core it is skipped and counted, and the core waits, or delivers the step that has opened. A cutoff not due
does nothing. Said while HALT_RUN does not wait for the network of a core outside its list.

05 R121, R129 to R131, R135; 12 R314: at D_n a held early tick opens step n + 1 of its DEADLINE network: D and C follow from T = D_n, the
period and the margin; a source that was set is in force. A core that waits begins DELIVER; one still in DELIVER takes its cutoff and
one in FIRE goes on, and the opening waits behind it. Before D_n nothing happens. Said of networks whose cores are listed once.

05 R132, R133; 10 R264; 20 R499: in DELIVER of a LOCKSTEP network a core that holds no item of the step before reports its sent total,
one that is idle for the step its popped total, and a ring function that has closed the step its own; the step master's objects show the
totals. Once all have reported and the totals are equal the cutoff comes: every core begins FIRE, with its queue as it was; a halted
one holds it until its resume.

05 R132, R134, R136: a core of a LOCKSTEP network reports the end of its FIRE. With the last report the phase of the network ends. It
then opens the next step at once where its tick has come or its source is IMMEDIATE, and every core begins DELIVER of it; else it waits for
the tick. Said while no HALT_RUN, migration or gradient reduction holds the opening and no command waits for that boundary. -/
def Obligations.StepsAdvance : Prop :=
  (∀ (c : CoreId) (s : State) (k : CoreSt), k = s.core c.val →
    (s.cutoffDue c.val = true → (s.netOf c.val).halting = 0 ∨ c.val ∈ (s.netOf c.val).cores →
      ∃ t, exec (.stepCutoff c) s = .next t ∧ (t.core c.val).fireOf = k.step ∧
        (t.core c.val).rq = k.rq.filter (fun e => e.tag != k.step % 4) ∧
        (t.core c.val).eq = k.eq.filter (fun x => !(x.step < k.step)) ∧ Tab.get (t.core c.val).delay [] (k.step % 64) = [] ∧
        (k.learning = true →
          (t.core c.val).learnRows = k.learnRows.filter fun i => Tab.get k.renormMask false i) ∧
        (k.halted = false → (t.core c.val).phase = 2 ∧ (t.core c.val).step = k.step ∧ (t.core c.val).opens = k.opens) ∧
        (k.halted = true →
          (k.opens = [] → (t.core c.val).phase = 3 ∧ (t.core c.val).step = k.step) ∧
          (∀ u l, k.opens = u :: l → (t.core c.val).phase = 1 ∧ (t.core c.val).step = k.step + 1 ∧
            (t.core c.val).opens = l)) ∧
        (k.halted = false → k.hostMb = 0 → k.snapWait = 0 → s.SameBytes t ∧
          State.KeepsBut [.cores, .sectors, .ctr, .nets, .pcie, .out, .flows] s t) ∧
        State.KeepsBut (mailParts ++ [Part.cores, .sectors, .nets, .flows, .fault, .free, .gddr, .snap]) s t) ∧
    (s.cutoffDue c.val = false → exec (.stepCutoff c) s = .next s)) ∧
  (∀ (k : NetId) (s : State) (n : NetSt), n = s.net k.val → n.running = true → n.lockstep = false → n.tickHeld = true →
    n.held = false → n.halting = 0 → n.cores.Nodup →
    (n.dN ≤ s.now →
      ∃ t, exec (.heldTickRelease k) s = .next t ∧ (t.net k.val).step = n.step + 1 ∧ (t.net k.val).tickHeld = false ∧
        (t.net k.val).tN = n.dN ∧ (t.net k.val).phase = 1 ∧ (t.net k.val).source = n.tickSource ∧
        (t.net k.val).dN = n.dN + 10 * n.tickSource.period ∧
        (t.net k.val).cN = n.dN + 10 * n.tickSource.period - 10 * n.margin ∧ (t.net k.val).pos = n.nextPos ∧
        (∀ c ∈ n.cores, (s.core c).net = k.val + 1 →
          ((s.core c).phase = 3 ∨ (s.core c).phase = 0 → (t.core c).phase = 1 ∧ (t.core c).step = n.step + 1) ∧
          ((s.core c).phase = 2 → (t.core c).phase = 2 ∧ (t.core c).fireOf = (s.core c).fireOf ∧
            (t.core c).opens = (s.core c).opens ++ [n.dN]) ∧
          ((s.core c).phase = 1 → s.sectorRuns (sectorOf c) = true → (s.core c).halted = false →
            (t.core c).phase = 2 ∧ (t.core c).fireOf = (s.core c).step ∧ (t.core c).step = (s.core c).step + 1 ∧
            (t.core c).opens = (s.core c).opens ++ [n.dN])) ∧
        t.ao = s.ao ∧ t.boot = s.boot ∧ t.sec = s.sec ∧ t.images = s.images ∧ t.ports = s.ports ∧ t.timers = s.timers) ∧
    (s.now < n.dN → exec (.heldTickRelease k) s = .next s)) ∧
  ((∀ (k : NetId) (s : State) (n : NetSt) (tag a : Nat), n = s.net k.val → tag = n.step % 4 → a = 16 * (8160 + 2 * k.val) →
    n.lockstep = true → n.running = true → n.phase = 1 →
    (∀ c ∈ n.cores, ∃ t, exec (.quiescenceReport k false c) s = .next t ∧
      ((s.core c).emitterClosed n.step = true →
        Tab.get (t.net k.val).sentRep 0 (tag * 4096 + c) = Tab.get (s.core c).sent 0 tag + 1) ∧
      ((s.core c).emitterClosed n.step = false → t.nets = s.nets) ∧
      ((s.core c).idleFor n.step = true → Tab.get (t.core c).reported 0 tag = Tab.get (s.core c).popped 0 tag + 1) ∧
      ((s.core c).idleFor n.step = false → t.cores = s.cores) ∧
      memNat (t.sector (s.stepMaster k.val)).mem a 4 = (t.totals k.val).1 % 2 ^ 32 ∧
      memNat (t.sector (s.stepMaster k.val)).mem (a + 16) 4 = (t.totals k.val).2 % 2 ^ 32 ∧
      State.NetsBut [k.val] s t ∧ State.CoresBut [c] s t ∧ State.SectorsBut [s.stepMaster k.val] s t ∧
      State.KeepsBut [.nets, .cores, .sectors] s t) ∧
    (∀ f, (s.ringEmitters k.val).contains f = true → s.ringClosed f = true →
      ∃ t, exec (.quiescenceReport k true f) s = .next t ∧
        Tab.get (t.net k.val).sentRep 0 (tag * 4096 + 128 + f) = Tab.get (s.rfn f).sent 0 tag + 1 ∧
        memNat (t.sector (s.stepMaster k.val)).mem a 4 = (t.totals k.val).1 % 2 ^ 32 ∧
        State.NetsBut [k.val] s t ∧ State.SectorsBut [s.stepMaster k.val] s t ∧ State.KeepsBut [.nets, .sectors] s t) ∧
    (s.quiescentNow k.val = true →
      ∃ t, exec (.stepQuiescent k) s = .next t ∧ (t.net k.val).phase = 2 ∧ (t.net k.val).cN = s.now ∧
        (t.net k.val).quiescent = true ∧
        (∀ c ∈ n.cores, (t.core c).phase = 2 ∧ (t.core c).fireOf = (s.core c).step ∧
          (t.core c).fireHeld = (s.core c).halted ∧ (t.core c).rq = (s.core c).rq) ∧
        State.NetsBut [k.val] s t ∧ State.CoresBut n.cores s t ∧
        ((∀ c ∈ n.cores, (s.core c).snapWait = 0) → State.KeepsBut [.nets, .cores] s t) ∧
        State.KeepsBut (mailParts ++ [Part.nets, .cores, .sectors, .free, .gddr]) s t) ∧
    (s.quiescentNow k.val = false → exec (.stepQuiescent k) s = .next s))) ∧
  (∀ (c : CoreId) (s : State) (k : Nat) (n : NetSt), (s.core c.val).net = k + 1 → n = s.net k → n.running = true →
    n.lockstep = true → n.phase = 2 → (s.core c.val).phase = 3 → (s.core c.val).halted = false → c.val ∈ n.cores →
    ((∃ d ∈ n.cores, d ≠ c.val ∧ ((s.core d).fireReported = false ∨ (s.core d).phase ≠ 3)) →
      ∃ t, exec (.fireEndReport c) s = .next t ∧ t.core c.val = { s.core c.val with fireReported := true } ∧
        State.CoresBut [c.val] s t ∧ State.KeepsBut [.cores] s t) ∧
    ((∀ d ∈ n.cores, d ≠ c.val → (s.core d).fireReported = true ∧ (s.core d).phase = 3) → n.halting = 0 →
      (n.tickHeld = false → n.tickSource.kind ≠ 3 →
        ∃ t, exec (.fireEndReport c) s = .next t ∧ t.net k = { n with phase := 3 } ∧
          t.core c.val = { s.core c.val with fireReported := true } ∧ State.NetsBut [k] s t ∧ State.CoresBut [c.val] s t ∧
          State.KeepsBut [.cores, .nets] s t) ∧
      (n.tickHeld = true ∨ n.tickSource.kind = 3 → n.waits = [] → n.reduce = none → s.migrating k = false →
        s.boot.crStep = 0 →
        ∃ t, exec (.fireEndReport c) s = .next t ∧ (t.net k).step = n.step + 1 ∧ (t.net k).phase = 1 ∧
          (t.net k).tN = s.now ∧ (t.net k).tickHeld = false ∧ (t.net k).source = n.tickSource ∧
          (∀ d ∈ n.cores, (s.core d).net = k + 1 → (t.core d).phase = 1 ∧ (t.core d).step = n.step + 1) ∧
          t.ao = s.ao ∧ t.boot = s.boot ∧ t.sec = s.sec ∧ t.images = s.images ∧ t.ports = s.ports ∧ t.timers = s.timers)))

/-- 03 R76 to R82; 05 R122: FIRE of a forward step evaluates the fire set in ascending order, writes back the neuron records, and its items
enter the emit queue in that order, issue by issue, as far as they find room. Where they all do FIRE ends: the STEP interrupt is
raised, the touched set is empty, and the core waits for the next opening. -/
def Obligations.FireEvaluatesItsSet : Prop :=
  ∀ (c : CoreId) (s : State) (k : CoreSt) (n : Nat) (net : NetSt) (all : List ColEval) (r : CoreSt × FireSum),
    k = s.core c.val → n = k.fireOf → net = s.netOf c.val → s.canFire c.val = true → net.backward = false →
    all = (k.fireSet n (net.refreshStep (n + 1))).map (k.evalCol n) →
    r = all.foldl (fireCol k n all (net.refreshStep (n + 1)) (net.fwd != 0 && net.pos + 1 == net.fwd))
      ({ k with emitted := [], evaluated := [], postInc := [], deriv := [], seedCode := [] }, {}) →
    (r.2.items ≠ [] → 2048 < k.eq.length + issueLen r.2.items →
      ∃ t, exec (.firePhase c) s = .next t ∧ (t.core c.val).eq = k.eq ∧ (t.core c.val).fireWait = r.2.items ∧
        (t.core c.val).phase = 2 ∧ (t.core c.val).rq = k.rq ∧ (t.core c.val).neuW = r.1.neuW ∧ s.SameBytes t ∧
        State.CoresBut [c.val] s t ∧ State.KeepsBut [.cores, .sectors, .ctr] s t) ∧
    (k.eq.length + r.2.items.length ≤ 2048 → k.opens = [] → net.halting = 0 →
      ∃ t, exec (.firePhase c) s = .next t ∧ (t.core c.val).eq = k.eq ++ r.2.items ∧ (t.core c.val).fireWait = [] ∧
        (t.core c.val).phase = 3 ∧ (t.core c.val).touched = [] ∧ nbit (t.core c.val).intStatus 0 = true ∧
        (t.core c.val).rq = k.rq ∧ (t.core c.val).neuW = r.1.neuW ∧
        (net.fwd = 0 → k.hostMb = 0 → k.snapWait = 0 → s.SameBytes t ∧ State.CoresBut [c.val] s t ∧
          State.KeepsBut [.cores, .sectors, .ctr] s t) ∧
        State.KeepsBut (mailParts ++ [Part.cores, .sectors, .nets, .fault, .gddr, .snap]) s t)

/-- 03 R82 to R85; 04 R99, R100; 05 R124; 09 R226, R228: the item at the head of the emit queue sends its next destination, where the port
of its core has room: a ring destination with the column's EMIT_SCALE, a core as an event word tagged for the step after its FIRE, scheduled
or best-effort. It leaves with its last destination; one with no room waits, and one with no destination is discarded. Said while no
item waits to enter the queue, and no HALT_RUN or opening of a step waits for the core.

06 R152 to R159, R163: the weight phase commits its next row, a row that a fetch waits for first, then one that row lookup waits for, else
the lowest: its words are halved where its columns are renormalised, and a row of the walk set runs its rule on each synapse in
ascending column order and learns its delay (said of the LEARN of a forward step while no READ_WEIGHTS waits); it is then no longer
update-pending. Said while no WRITE_WEIGHTS or HALT_RUN and no opening of a step waits for the core. -/
def Obligations.EmissionAndLearnRows : Prop :=
  (∀ (c : CoreId) (s : State) (k : CoreSt) (x : EmitItem) (rest : List EmitItem) (n p : Nat) (e : EvItem), k = s.core c.val →
    n = sectorOf c.val → p = s.corePort c.val → s.sectorRuns n = true → (s.sector n).mstate (indexOf c.val) = 0 →
    k.eq = x :: rest → k.fireWait = [] → e = k.emitEvent c.val x x.sent → (s.netOf c.val).halting = 0 →
    ((s.netOf c.val).lockstep = false ∨ (s.netOf c.val).phase = 1 ∨ (s.netOf c.val).phase = 2) →
    (k.destCount x = 0 →
      ∃ t, exec (.emitSend c) s = .next t ∧ (t.core c.val).eq = rest ∧ t.sectors = s.sectors ∧ State.CoresBut [c.val] s t ∧
        State.KeepsBut [.cores, .ctr] s t) ∧
    (x.sent < k.destCount x → k.emitStops x = false →
      (∀ it, ((k.destOf x x.sent).ring = true ∧
            it = .ring (k.destOf x x.sent).dest c.val e (if x.typ = 4 then f32One else k.colF x.col 1) ∨
          (k.destOf x x.sent).ring = false ∧ s.isSched c.val e.ev = false ∧ it = .event e) →
        (s.roomAt n p it = true →
          ∃ t, exec (.emitSend c) s = .next t ∧
            (t.core c.val).eq = (if x.sent + 1 < k.destCount x then { x with sent := x.sent + 1 } :: rest else rest) ∧
            ((t.sector n).inPort p).be = ((s.sector n).inPort p).be ++ [it] ∧
            ((k.destOf x x.sent).ring = false → Tab.get (t.core c.val).sent 0 e.tag = Tab.get k.sent 0 e.tag + 1) ∧
            s.SameBytes t ∧ State.CoresBut [c.val] s t ∧ State.SectorsBut [n] s t ∧
            State.KeepsBut [.cores, .sectors, .ctr] s t) ∧
        (s.roomAt n p it = false →
          ∃ t, exec (.emitSend c) s = .next t ∧ t.core c.val = k ∧ State.CoresBut [c.val] s t ∧
            State.KeepsBut [.cores, .ctr] s t)) ∧
      ((k.destOf x x.sent).ring = false → s.isSched c.val e.ev = true → ((s.sector n).inPort p).sched.length < 8 →
        ∃ t, exec (.emitSend c) s = .next t ∧
          (t.core c.val).eq = (if x.sent + 1 < k.destCount x then { x with sent := x.sent + 1 } :: rest else rest) ∧
          ((t.sector n).inPort p).sched = ((s.sector n).inPort p).sched ++
            [{ e with sched := true, due := (s.dueOf c.val p e).1, lane := (s.dueOf c.val p e).2 }] ∧
          ((t.sector n).inPort p).be = ((s.sector n).inPort p).be ∧ s.SameBytes t ∧ State.CoresBut [c.val] s t ∧
          State.SectorsBut [n] s t ∧ State.KeepsBut [.cores, .sectors, .ctr] s t))) ∧
  (∀ (c : CoreId) (s : State) (k : CoreSt) (i n : Nat) (cols : List Nat) (h : CoreSt × WbCount) (r1 : Int)
    (r : CoreSt × WbCount × Int),
    k = { s.core c.val with layer := (s.core c.val).learnMark / 65536, oper := (s.core c.val).learnMark % 65536 } →
    (s.core c.val).nextLearnRow = some i → k.learning = true → s.sectorRuns (sectorOf c.val) = true →
    (s.sector (sectorOf c.val)).mstate (indexOf c.val) = 0 → k.hostMb = 0 → (s.netOf c.val).halting = 0 →
    ((s.netOf c.val).lockstep = false ∨ (s.netOf c.val).phase = 1 ∨ (s.netOf c.val).phase = 2) → n = k.learnStep →
    cols = (upTo (k.rLen i)).map (k.rStart i + ·) → h = cols.foldl (CoreSt.halve i) (k, {}) →
    r1 = (if Tab.get k.tracesWritten false i then (k.rTrace i * 65536 : Nat)
      else (k.rTrace i * traceDecay (k.tsLambda (k.rPreSet i)) (traceDelta n (k.rLast i)) : Nat)) →
    r = cols.foldl (CoreSt.ruleSyn i n (k.rRule i) (nfld (Tab.get k.ruleTab 0 (12 * (k.rRule i - 1))).toNat 5 0)
      (nfld (Tab.get k.ruleTab 0 (12 * (k.rRule i - 1))).toNat 13 8 + 1) r1 (k.rowTouched n i)) (h.1, h.2, 0) →
    ∃ t, exec (.learnRowRetire c) s = .next t ∧ (t.core c.val).learnRows = k.learnRows.filter (fun x => x != i) ∧
      (t.core c.val).rPending i = false ∧ (t.core c.val).rq = k.rq ∧
      (k.snapWait = 0 → k.learnGrad = false → k.inWalk n i = false → (t.core c.val).syn = h.1.syn) ∧
      (k.snapWait = 0 → k.learnGrad = false → k.inWalk n i = true → (t.core c.val).syn = r.1.syn ∧
        (t.core c.val).rDelay i = (r.1.delayLearn i r.2.2).1.rDelay i ∧
        (t.core c.val).rDgrad i = (r.1.delayLearn i r.2.2).1.rDgrad i) ∧
      (k.snapWait = 0 → State.CoresBut [c.val] s t ∧ State.KeepsBut [.cores, .sectors, .ctr, .gddr, .fault] s t) ∧
      State.KeepsBut (mailParts ++ [Part.cores, .sectors, .gddr, .fault, .free]) s t)

/-- 03 R86, R89; 21 R527: a sequencer that runs takes an enabled interrupt in place of an instruction, and one that waits for an interrupt
does nothing while none is pending. Else it executes the instruction at its pc, none of whose breakpoints hits: arithmetic of
registers or an immediate writes its register, a branch goes to its target or on, JAL links and jumps, an illegal word traps, and a fetch outside
instruction memory is a counted access fault. The encodings, the CSRs and the trap are those of RISC-V (the model's reading, log 6). -/
def Obligations.SequencersExecute : Prop :=
  ∀ (c : CoreId) (s : State) (k : CoreSt) (q : SeqSt) (due : Bool), k = s.core c.val → q = k.seq → s.seqRuns c.val = true →
    due = (k.intPending && nbit q.mieReg.toNat 11) →
    (due = true → q.mie = true → ∀ op,
      ∃ t, exec (.sequencerInstruction c op) s = .next t ∧
        (t.core c.val).seq = { q with
          wfi := false, mepc := q.pc, mcause := 0x8000000B, mtval := 0, mpie := true, mie := false
          pc := BitVec.ofNat 32 (q.mtvec.toNat / 4 * 4 + if q.mtvec.toNat % 4 = 1 then 44 else 0) } ∧
        State.CoresBut [c.val] s t ∧ State.KeepsBut [.cores] s t) ∧
    (due = false → q.wfi = true → ∀ op, exec (.sequencerInstruction c op) s = .next s) ∧
    ((due = false ∨ q.mie = false) → (due = true ∨ q.wfi = false) →
      (∀ (w rd rs1 rs2 : Nat) (u : SeqSt), q.pc.toNat + 2 < 0x8000 → k.hits 0 q.pc.toNat = [] →
        w = memNat q.imem q.pc.toNat 4 → rd < 32 → rs1 < 32 → rs2 < 32 →
        ((∃ f3 imm v, f3 < 8 ∧ imm < 4096 ∧ w = encI 0x13 f3 rd rs1 imm ∧
              rvOp w (q.reg rs1) (sextTo 12 32 imm) true = some v ∧
              u = { q.setReg rd v with pc := BitVec.ofNat 32 (q.pc.toNat + 4) }) ∨
          (∃ f7 f3 v, f7 < 128 ∧ f3 < 8 ∧ w = encR f7 f3 rd rs1 rs2 ∧ rvOp w (q.reg rs1) (q.reg rs2) false = some v ∧
              u = { q.setReg rd v with pc := BitVec.ofNat 32 (q.pc.toNat + 4) }) ∨
          (∃ f3 imm b, f3 < 8 ∧ imm < 8192 ∧ imm % 2 = 0 ∧ w = encB f3 rs1 imm + rs2 * 2 ^ 20 ∧
              rvTaken f3 (q.reg rs1) (q.reg rs2) = some b ∧
              u = { q with pc := BitVec.ofNat 32 (if b then q.pc.toNat + sextTo 13 32 imm else q.pc.toNat + 4) }) ∨
          (∃ imm, imm < 2 ^ 21 ∧ imm % 2 = 0 ∧ w = encJ rd imm ∧
              u = { q.setReg rd (q.pc.toNat + 4) with pc := BitVec.ofNat 32 (q.pc.toNat + sextTo 21 32 imm) })) →
        ∃ t, exec (.sequencerInstruction c .execute) s = .next t ∧
          (t.core c.val).seq = { u with wfi := false, retired := q.retired + 1 } ∧ s.SameBytes t ∧
          State.CoresBut [c.val] s t ∧ State.KeepsBut [.cores, .sectors, .ctr] s t) ∧
      (q.pc.toNat + 2 < 0x8000 → k.hits 0 q.pc.toNat = [] → memNat q.imem q.pc.toNat 4 % 128 = 0x7F →
        ∃ t, exec (.sequencerInstruction c .execute) s = .next t ∧ (t.core c.val).seq.mepc = q.pc ∧
          (t.core c.val).seq.mcause = 2 ∧ (t.core c.val).seq.mtval = BitVec.ofNat 32 (memNat q.imem q.pc.toNat 4) ∧
          (t.core c.val).seq.regs = q.regs ∧ State.CoresBut [c.val] s t ∧ State.KeepsBut [.cores] s t) ∧
      (0x8000 ≤ q.pc.toNat →
        ∃ t, exec (.sequencerInstruction c .execute) s = .next t ∧ (t.core c.val).seq.mepc = q.pc ∧
          (t.core c.val).seq.mcause = 1 ∧ (t.core c.val).seq.mtval = q.pc ∧ (t.core c.val).seq.regs = q.regs ∧
          t.ctrAt Scope.core c.val Ctr.seqAccessFault noSub 0 =
            satCtr (s.ctrAt Scope.core c.val Ctr.seqAccessFault noSub 0 + 1) ∧ s.SameBytes t ∧
          State.CoresBut [c.val] s t ∧ State.KeepsBut [.cores, .sectors, .ctr] s t))

/-! ### Event network, sector memory, descriptors, synchronisation -/

/-- 09 R223, R226, R233: an output whose sector runs, with requests and no unroutable event in front, grants one input port: the
first overdue one, else the one its generator names. The oldest item of that port leaves by the output, to the link of the next
sector, the ring port, a core port, the descriptor engine or the synchronisation unit; the generator steps. No other input
port, no other sector but the next one and nothing outside the sectors changes.

09 R225: a router at which an event with an unassigned core number comes to the head of an input buffer drops it, counted in
DROP_UNROUTABLE; its other input buffers and the other sectors stay. -/
def Obligations.RoutersForwardAndDrop : Prop :=
  (∀ (n : SectorId) (out : Fin 23) (s : State) (it : Item) (rest : List Item) (won : Nat),
    won = arbiter (lfsrOf n.val out.val (Tab.get (s.sector n.val).outp {} out.val))
        (Tab.get (s.sector n.val).outp {} out.val).waits (s.requests n.val out.val) →
    s.sectorRuns n.val = true → s.unroutableAt n.val = [] → s.requests n.val out.val ≠ [] →
    ((s.sector n.val).inPort won).be = it :: rest → s.outReady n.val out.val it = true →
    ∃ t, exec (.routerForward n out) s = .next t ∧ ((t.sector n.val).inPort won).be = rest ∧
      (∀ p, p ≠ won → (t.sector n.val).inPort p = (s.sector n.val).inPort p) ∧
      (Tab.get (t.sector n.val).outp {} out.val).lfsr =
        some (BitVec.ofNat 16 (lfsrStep (lfsrOf n.val out.val (Tab.get (s.sector n.val).outp {} out.val)))) ∧
      (out.val < 3 → ((t.sector (neighbour n.val out.val)).link (farLink out.val)).inFlight =
        ((s.sector (neighbour n.val out.val)).link (farLink out.val)).inFlight ++ [it]) ∧
      (out.val = 3 → ((t.sector n.val).link 4).inFlight = ((s.sector n.val).link 4).inFlight ++ [it]) ∧
      (4 ≤ out.val → out.val < 21 → (t.sector n.val).toCore = toCoreAdd (s.sector n.val).toCore it) ∧
      (out.val = 21 → (t.sector n.val).toDesc = (s.sector n.val).toDesc ++ [it]) ∧
      (out.val = 22 → (t.sector n.val).toSync = (s.sector n.val).toSync ++ [it]) ∧
      State.SectorsBut [n.val, neighbour n.val out.val] s t ∧ State.KeepsBut [.sectors] s t) ∧
  (∀ (n : SectorId) (out : Fin 23) (s : State) (p : Nat) (ps : List Nat),
    s.sectorRuns n.val = true → s.unroutableAt n.val = p :: ps →
    ∃ t, exec (.routerForward n out) s = .next t ∧
      ((t.sector n.val).inPort p).be = ((s.sector n.val).inPort p).be.tail ∧
      (∀ i, i ≠ p → (t.sector n.val).inPort i = (s.sector n.val).inPort i) ∧
      t.ctrAt Scope.sector n.val Ctr.dropUnroutable noSub 0 =
        satCtr (s.ctrAt Scope.sector n.val Ctr.dropUnroutable noSub 0 + 1) ∧
      State.SectorsBut [n.val] s t ∧ State.KeepsBut [.sectors, .ctr, .flows] s t)

/-- 09 R228, R229, R231; 16 R410: once its cycle has come the first scheduled flit of an input port crosses its next link, or
enters its core port ahead of every best-effort event; in a lane that is not its own it slips, counted and reported. The
alignment pulse sets every frame counter to 0 and ALIGNED. A relocked sector resumes at its new operating point with its mesh
links empty, and the pulse follows the last relock.

16 R417: a sector that may gate enters P1 and SECTOR_GATE counts it; a gated sector that is called for runs again. No other
sector changes. -/
def Obligations.ScheduledFlitsAndSectorClocks : Prop :=
  ((∀ (n : SectorId) (port : Fin 23) (s : State) (e : EvItem) (out : Nat),
    ((s.sector n.val).inPort port.val).sched.find? (fun x => Item.unroutable (.event x)) = none →
    firstDue ((s.sector n.val).inPort port.val).sched = some e → out = s.outPort n.val (.event e) →
    s.sectorRuns n.val = true → e.due ≤ (s.sector n.val).cycles s.now → s.schedReady n.val out = true →
    ∃ t, exec (.scheduledFlitSend n port) s = .next t ∧
      ((t.sector n.val).inPort port.val).sched = ((s.sector n.val).inPort port.val).sched.erase e ∧
      (out < 3 → ((t.sector (neighbour n.val out)).link (farLink out)).inFlight =
        ((s.sector (neighbour n.val out)).link (farLink out)).inFlight ++ [Item.event e]) ∧
      (4 ≤ out → (t.sector n.val).toCore = toCoreAdd (s.sector n.val).toCore (.event e)) ∧
      (out < 3 → s.laneOf n.val out e ≠ e.lane → nbit (t.sector n.val).netEvents 3 = true ∧
        t.ctrAt Scope.sector n.val Ctr.schedSlip noSub 0 = satCtr (s.ctrAt Scope.sector n.val Ctr.schedSlip noSub 0 + 1)) ∧
      State.SectorsBut [n.val, neighbour n.val out] s t ∧ State.KeepsBut [.sectors, .ctr] s t) ∧
  (∀ s : State, ∃ t, exec .alignmentPulse s = .next t ∧
    (∀ n, n < 8 → (t.sector n).frame t.now = 0 ∧ (t.sector n).aligned = true) ∧ State.KeepsBut [.sectors] s t) ∧
  (∀ (n : SectorId) (s : State), (s.sector n.val).opNext ≠ 0 →
    ∃ t, exec (.pllRelockComplete n) s = .next t ∧ (t.sector n.val).op = (s.sector n.val).opNext - 1 ∧
      (t.sector n.val).opNext = 0 ∧ (t.sector n.val).stopped = false ∧
      (∀ l, l < 3 → ((t.sector n.val).link l).inFlight = []) ∧
      ((∀ i, i < 8 → i ≠ n.val → (s.sector i).stopped = false) →
        ∀ i, i < 8 → (t.sector i).frame t.now = 0 ∧ (t.sector i).aligned = true) ∧
      State.KeepsBut [.sectors] s t)) ∧
  ((∀ (n : SectorId) (s : State), s.mayGate n.val = true →
    ∃ t, exec (.sectorGate n) s = .next t ∧ t.sector n.val = { s.sector n.val with gated := true } ∧
      t.ctrAt Scope.sector n.val Ctr.sectorGate noSub 0 = satCtr (s.ctrAt Scope.sector n.val Ctr.sectorGate noSub 0 + 1) ∧
      State.SectorsBut [n.val] s t ∧ State.KeepsBut [.sectors, .ctr, .out] s t) ∧
  (∀ (n : SectorId) (s : State), (s.sector n.val).gated = true →
    ∃ t, exec (.sectorUngate n) s = .next t ∧ t.sector n.val = { s.sector n.val with gated := false } ∧
      State.SectorsBut [n.val] s t ∧ State.KeepsBut [.sectors, .out] s t))

/-- 09 R229, R235: a clean or corrected item in front of a link enters the buffer behind it (of an input port, of the ring, or the
scheduled one with its next cycle 4 on), a corrected one counted in LINK_ECC_CORR; an uncorrectable one stays with its sender and
a replay is requested; the sender resends, counted in LINK_REPLAY, and at the third failure of one link cycle the link stops with
LINK_FAULT set. No other sector changes. -/
def Obligations.LinkProtection : Prop :=
  ∀ (n : SectorId) (l : Fin 5) (s : State),
    (∀ (fixed : Bool) (it : Item) (rest : List Item), ((s.sector n.val).link l.val).inFlight = it :: rest →
      ((s.sector n.val).link l.val).stopped = false → ((s.sector n.val).link l.val).replay = false →
      s.sectorRuns n.val = true → s.flitRoom n.val l.val it = true →
      ∃ t, exec (.linkFlitReceive n l (if fixed then .corrected else .clean)) s = .next t ∧
        ((t.sector n.val).link l.val).inFlight = rest ∧ ((t.sector n.val).link l.val).fails = 0 ∧
        (l.val < 4 → it.isSched = false →
          ((t.sector n.val).inPort l.val).be = ((s.sector n.val).inPort l.val).be ++ [it]) ∧
        (∀ e, l.val < 4 → it = .event e → e.sched = true →
          ((t.sector n.val).inPort l.val).sched = ((s.sector n.val).inPort l.val).sched ++ [{ e with due := e.due + 4 }]) ∧
        (l.val = 4 → (t.sector n.val).toRing = (s.sector n.val).toRing ++ [it]) ∧
        (fixed = true → t.ctrAt Scope.sector n.val Ctr.linkEccCorr (min l.val 3) 0 =
          satCtr (s.ctrAt Scope.sector n.val Ctr.linkEccCorr (min l.val 3) 0 + 1)) ∧
        (fixed = false → t.ctr = s.ctr) ∧ State.SectorsBut [n.val] s t ∧ State.KeepsBut [.sectors, .ctr] s t) ∧
    (∀ ecc : EccResult, ecc = .uncorrectable ∨ ecc = .tagMismatch → ((s.sector n.val).link l.val).inFlight ≠ [] →
      ((s.sector n.val).link l.val).stopped = false → ((s.sector n.val).link l.val).replay = false →
      s.sectorRuns n.val = true →
      ∃ t, exec (.linkFlitReceive n l ecc) s = .next t ∧
        (t.sector n.val).link l.val = { (s.sector n.val).link l.val with
          replay := true, fails := ((s.sector n.val).link l.val).fails + 1 } ∧
        State.SectorsBut [n.val] s t ∧ State.KeepsBut [.sectors] s t) ∧
    (((s.sector n.val).link l.val).replay = true →
      ∃ t, exec (.linkReplay n l) s = .next t ∧ ((t.sector n.val).link l.val).replay = false ∧
        (3 ≤ ((s.sector n.val).link l.val).fails → ((t.sector n.val).link l.val).stopped = true ∧
          ((t.sector n.val).link l.val).inFlight = ((s.sector n.val).link l.val).inFlight ∧
          nbit (t.sector n.val).netEvents 1 = true ∧ t.ctr = s.ctr) ∧
        (((s.sector n.val).link l.val).fails < 3 →
          ((t.sector n.val).link l.val).stopped = ((s.sector n.val).link l.val).stopped ∧
          ((t.sector n.val).link l.val).inFlight = ((s.sector n.val).link l.val).inFlight.map Item.replayed ∧
          t.ctrAt Scope.sector n.val Ctr.linkReplay (min l.val 3) 0 =
            satCtr (s.ctrAt Scope.sector n.val Ctr.linkReplay (min l.val 3) 0 + 1) ∧
          nbit (t.sector n.val).netEvents 2 = true) ∧
        State.SectorsBut [n.val] s t ∧ State.KeepsBut [.sectors, .ctr] s t)

/-- 09 R236 to R239; 10 R259: a request to a bank of a running sector that is in order and alone is served: a read answers the
bytes there, a write stores its bytes (of synchronisation objects, without their read-only and reserved bits) and no others,
an atomic outside bank 0 stores its result and answers the old value; port B answers its owner, port A the others. Of two
requests to a bank with one port the one of higher rank is served, and the other stalls and is counted. -/
def Obligations.BankAtomicsAndAccesses : Prop :=
  ∀ (n : SectorId) (b : Fin 64) (s : State) (c : BankCall) (a : Nat) (ret : State → BitVec 128 × Bool),
    a = 131072 * b.val + c.ofs.val → s.sectorRuns n.val = true → s.bankHolds n.val (131072 * b.val) = false →
    s.bankRefused n.val a c.who c.op = false → c.ecc = .clean → (s.sector n.val).poisoned a (bankBytes c.op) = false →
    (bankRank c.who < 35 ∧ ret = fun t => ((t.sector n.val).bankData, (t.sector n.val).bankPoison)) ∨
      (portOwner b.val = some c.who ∧ ret = fun t => ((t.sector n.val).bankDataB, (t.sector n.val).bankPoisonB)) →
    (∀ w, c.op = .read w →
      (∃ t, exec (.bankAccess n b c.who c.toBankUse []) s = .next t ∧
        ret t = (BitVec.ofNat 128 (memNat (s.sector n.val).mem a w), false) ∧ (t.sector n.val).mem = (s.sector n.val).mem ∧
        State.SectorsBut [n.val] s t ∧ State.KeepsBut [.sectors, .cores, .ctr] s t) ∧
      (∀ (i : Fin 16) (d : BankCall), 8 ≤ b.val → bankRank c.who < bankRank (.sequencer (i.castLE (by decide))) →
        d.who = .sequencer (i.castLE (by decide)) → s.bankRefused n.val (131072 * b.val + d.ofs.val) d.who d.op = false →
        ∃ t, exec (.bankAccess n b c.who c.toBankUse [d]) s = .next t ∧
          ret t = (BitVec.ofNat 128 (memNat (s.sector n.val).mem a w), false) ∧
          (t.sector n.val).mem = (s.sector n.val).mem ∧
          t.ctrAt Scope.core (16 * n.val + i.val) Ctr.bankStall 1 0 =
            satCtr (s.ctrAt Scope.core (16 * n.val + i.val) Ctr.bankStall 1 0 + 1) ∧
          State.SectorsBut [n.val] s t ∧ State.KeepsBut [.sectors, .cores, .ctr] s t)) ∧
    (∀ w (v : BitVec 128), c.op = .write w v →
      ∃ t, exec (.bankAccess n b c.who c.toBankUse []) s = .next t ∧
        memRead (t.sector n.val).mem a w = (s.sector n.val).maskObjs a (toLe w v.toNat) ∧
        (∀ x, x < a ∨ a + w ≤ x → memByte (t.sector n.val).mem x = memByte (s.sector n.val).mem x) ∧
        State.SectorsBut [n.val] s t ∧ State.KeepsBut [.sectors, .cores, .ctr] s t) ∧
    (∀ (k : Fin 5) (x : Word64), c.op = .atomic k x → 0x20000 ≤ a →
      ∃ t, exec (.bankAccess n b c.who c.toBankUse []) s = .next t ∧
        ret t = (BitVec.ofNat 128 (memNat (s.sector n.val).mem a (atomicBytes k.val)), false) ∧
        memRead (t.sector n.val).mem a (atomicBytes k.val) =
          toLe (atomicBytes k.val) (atomicResult k.val (memNat (s.sector n.val).mem a (atomicBytes k.val)) x.toNat) ∧
        (∀ y, y < a ∨ a + atomicBytes k.val ≤ y → memByte (t.sector n.val).mem y = memByte (s.sector n.val).mem y) ∧
        State.SectorsBut [n.val] s t ∧ State.KeepsBut [.sectors, .cores, .ctr] s t)

/-- 10 R259, R260, R261: an ADD, ARRIVE or POST at the head of a synchronisation unit, on an object of its TYPE whose bank is not under
test, adds its operand; an ADD or POST that crosses the target clears ARMED, an ARRIVE takes the target off as often as it fits and
counts that in GEN. Here the object notifies no queue, or the sum stays below its target. The operation leaves the unit's input; no
other byte and no other sector changes.

10 R247, R260: TRYWAIT takes its operand from a semaphore whose VALUE covers it, and answers 1; else it answers 0 and changes
nothing. ARM sets TARGET and ARMED of a counter or semaphore and answers VALUE (here it does not notify), and READ answers VALUE of any
object. Each answer is a DONE status entry for the posting core; no other byte and no other sector changes.

10 R263: a pending notification of an open queue with a free entry takes that entry, with the object's VALUE and GEN of the moment,
and PENDING is 0 again. No other queue, core or sector changes. -/
def Obligations.SynchronisationOperations : Prop :=
  (∀ (n : SectorId) (s : State) (m : Nat) (r : SyncReq) (rest : List Item) (q : SectorSt) (v target : Nat) (l : List Part),
    q = s.sector n.val → q.toSync = .sync m r :: rest → s.sectorRuns n.val = true → r.path = 0 ∨ r.path = 2 →
    s.bankHolds n.val (16 * r.obj) = false → q.poisoned (16 * r.obj) 16 = false →
    v = (q.objWord r.obj 0 + r.operand) % 2 ^ 32 → target = q.objWord r.obj 1 →
    q.objNotify r.obj = false ∨ v < target → l = (if r.path = 2 then [.sectors, .flows] else [.sectors]) →
    (r.op = 1 → q.objType r.obj = 1 →
      ∃ t, exec (.syncAdd n) s = .next t ∧ (t.sector n.val).toSync = rest ∧ (t.sector n.val).objWord r.obj 0 = v ∧
        (t.sector n.val).objArmed r.obj = (q.objArmed r.obj && !decide (q.objWord r.obj 0 < target ∧ target ≤ v)) ∧
        (∀ a, a < 16 * r.obj ∨ 16 * r.obj + 16 ≤ a → memByte (t.sector n.val).mem a = memByte q.mem a) ∧
        State.SectorsBut [n.val] s t ∧ State.KeepsBut l s t) ∧
    (r.op = 2 → q.objType r.obj = 2 →
      ∃ t, exec (.syncArrive n) s = .next t ∧ (t.sector n.val).toSync = rest ∧
        (t.sector n.val).objWord r.obj 0 = (if target = 0 then v else v % target) ∧
        (t.sector n.val).objGen r.obj = (q.objGen r.obj + (if target = 0 then 0 else v / target)) % 2 ^ 16 ∧
        (∀ a, a < 16 * r.obj ∨ 16 * r.obj + 16 ≤ a → memByte (t.sector n.val).mem a = memByte q.mem a) ∧
        State.SectorsBut [n.val] s t ∧ State.KeepsBut l s t) ∧
    (r.op = 3 → q.objType r.obj = 3 →
      ∃ t, exec (.syncPost n) s = .next t ∧ (t.sector n.val).toSync = rest ∧ (t.sector n.val).objWord r.obj 0 = v ∧
        (t.sector n.val).objArmed r.obj = (q.objArmed r.obj && decide (v < target)) ∧
        (∀ a, a < 16 * r.obj ∨ 16 * r.obj + 16 ≤ a → memByte (t.sector n.val).mem a = memByte q.mem a) ∧
        State.SectorsBut [n.val] s t ∧ State.KeepsBut l s t)) ∧
  (∀ (n : SectorId) (s : State) (m : Nat) (r : SyncReq) (rest : List Item) (q : SectorSt),
    q = s.sector n.val → q.toSync = .sync m r :: rest → s.sectorRuns n.val = true → s.engFree n.val = true → r.path = 1 →
    s.bankHolds n.val (16 * r.obj) = false → q.poisoned (16 * r.obj) 16 = false →
    (r.op = 4 → q.objType r.obj = 3 → ∃ t, exec (.syncTrywait n) s = .next t ∧ (t.sector n.val).toSync = rest ∧
      (t.sector n.val).objWord r.obj 0 =
        (if r.operand ≤ q.objWord r.obj 0 then q.objWord r.obj 0 - r.operand else q.objWord r.obj 0) ∧
      (∀ a, a < 16 * r.obj ∨ 16 * r.obj + 4 ≤ a → memByte (t.sector n.val).mem a = memByte q.mem a) ∧
      ((t.sector n.val).inPort 21).be = (q.inPort 21).be ++
        [Item.status r.core (statusWord stDone 0 r.tag (b2n (decide (r.operand ≤ q.objWord r.obj 0)))) 0 r.ser] ∧
      State.SectorsBut [n.val] s t ∧ State.KeepsBut [.sectors] s t) ∧
    (r.op = 5 → q.objType r.obj = 1 ∨ q.objType r.obj = 3 → r.operand < 2 ^ 32 →
      q.objWord r.obj 0 < r.operand ∨ q.objNotify r.obj = false →
      ∃ t, exec (.syncArm n) s = .next t ∧ (t.sector n.val).toSync = rest ∧
        (t.sector n.val).objWord r.obj 1 = r.operand ∧ (t.sector n.val).objArmed r.obj = true ∧
        (t.sector n.val).objWord r.obj 0 = q.objWord r.obj 0 ∧
        (∀ a, a < 16 * r.obj + 4 ∨ 16 * r.obj + 12 ≤ a → memByte (t.sector n.val).mem a = memByte q.mem a) ∧
        ((t.sector n.val).inPort 21).be = (q.inPort 21).be ++
          [Item.status r.core (statusWord stDone 0 r.tag (q.objWord r.obj 0)) 0 r.ser] ∧
        State.SectorsBut [n.val] s t ∧ State.KeepsBut [.sectors] s t) ∧
    (r.op = 6 → ∃ t, exec (.syncRead n) s = .next t ∧ (t.sector n.val).toSync = rest ∧ (t.sector n.val).mem = q.mem ∧
      ((t.sector n.val).inPort 21).be = (q.inPort 21).be ++
        [Item.status r.core (statusWord stDone 0 r.tag (q.objWord r.obj 0)) 0 r.ser] ∧
      State.SectorsBut [n.val] s t ∧ State.KeepsBut [.sectors] s t)) ∧
  (∀ (n : SectorId) (o : Fin 8192) (s : State) (q : SectorSt) (c k : Nat) (x : QueueSt),
    q = s.sector n.val → c = q.objCore o.val → k = q.objQueue o.val → x = (s.core c).queue k → s.sectorRuns n.val = true →
    s.bankHolds n.val (16 * o.val) = false → q.objPending o.val = true → sectorOf c = n.val → x.isOpen = true →
    x.reqRoom = true →
    ∃ t, exec (.pendingNotifyWrite n o) s = .next t ∧ (t.sector n.val).objPending o.val = false ∧
      (t.core c).queue k = { x with reqs := x.reqs ++ [{ slot := x.nextReq, seq := x.reqNext }], reqNext := x.reqNext + 1 } ∧
      (0x20000 ≤ x.reqAt x.nextReq → memRead (t.sector n.val).mem (x.reqAt x.nextReq) 32 =
        (notifyDesc n.val o.val c k (q.objWord o.val 0) (q.objGen o.val)).bytes) ∧
      (∀ i, i ≠ k → (t.core c).queue i = (s.core c).queue i) ∧
      State.CoresBut [c] s t ∧ State.SectorsBut [n.val] s t ∧ State.KeepsBut [.sectors, .cores, .ctr] s t)

/-- 10 R245, R246, R248, R250, R251: a post that the gate or the credit stops shows so in DESC_POST_RESULT, and nothing is sent. Any other is
POSTED and outstanding, its descriptor carrying SRC_CORE and EPOCH, and a REQUEST that wants a reply reserves an entry of its reply
queue. Where the engine refuses it, a NAK with the reason goes to its core; else a MOVE goes to the own engine, a SYNC to its
object's sector, a REQUEST or a REPLY towards its queue. No other core or sector changes, nor any byte of memory.

10 R246, R247, R250, R252 to R254: a status entry that reaches its core and finds room ends the descriptor of its post and enters the
status FIFO; one that finds no room waits, one that ends nothing is counted in STATUS_DISCARD. A pop takes the oldest entry, its high
half readable next; a QUEUE_FULL NAK advances the epoch, records the tails and sets the retry gate. The gate clears once every
entry before those tails is done, and the mark releases go out; a mark release clears the mark. -/
def Obligations.DescriptorsAndStatus : Prop :=
  (∀ (c : CoreId) (v : Word32) (s : State) (k : CoreSt) (n r why : Nat) (d0 d : Desc), k = s.core c.val → n = sectorOf c.val →
    d0 = CoreSt.sendDesc { k with descSend := Tab.set k.descSend 0 7 v } c.val →
    d = { d0 with ser := (s.sector n).posts + 1, reSer := if d0.dop = 2 then s.answered c.val d0 else 0 } →
    r = k.postOutcome d → why = s.senderCheck c.val d → s.engServes c.val = true →
    ∃ t, exec (.descPost c v) s = .next t ∧ (t.core c.val).postResult = r ∧ (t.core c.val).postTag = d.tag ∧
      (r ≠ 0 → (t.core c.val).outst = k.outst ∧ (t.core c.val).queues = k.queues ∧
        (t.sector n).toDesc = (s.sector n).toDesc ∧ (t.sector n).inp = (s.sector n).inp) ∧
      (r = 0 → (t.core c.val).outst = k.outst ++ [{ cls := d.cls, desc := d }] ∧
        (d.dop = 1 ∧ d.wantReply = true →
          ((t.core c.val).queue d.rplQ).reserved = (k.queue d.rplQ).reserved ++ [d.ser]) ∧
        (¬ (d.dop = 1 ∧ d.wantReply = true) → (t.core c.val).queues = k.queues) ∧
        (why ≠ 0 → (t.sector n).toDesc = (s.sector n).toDesc ++ [Item.status c.val (statusWord stNak why d.tag 0) d.cls d.ser]) ∧
        (why = 0 → d.dop = 5 → (t.sector n).toDesc = (s.sector n).toDesc ++ [Item.desc c.val d]) ∧
        (why ≠ 0 ∨ d.dop = 5 → (t.sector n).inp = (s.sector n).inp) ∧
        (why = 0 → d.dop = 4 → ((t.sector n).inPort 21).be = ((s.sector n).inPort 21).be ++ [Item.sync d.sect
          { path := 1, op := d.syncOp, obj := d.ofs, operand := fld d.w3 31 0, core := c.val, tag := d.tag, ser := d.ser }]) ∧
        (why = 0 → d.dop = 1 ∨ d.dop = 2 → ((t.sector n).inPort 21).be = ((s.sector n).inPort 21).be ++ [Item.desc d.dst d]) ∧
        (why = 0 → d.dop ≠ 5 → (t.sector n).toDesc = (s.sector n).toDesc)) ∧
      State.CoresBut [c.val] s t ∧ State.SectorsBut [n] s t ∧ s.SameBytes t ∧ State.KeepsBut [.cores, .sectors, .ctr] s t) ∧
  ((∀ (n : SectorId) (s : State) (c : Nat) (e : Word64) (cls ser : Nat) (rest : List Item),
    (s.sector n.val).toDesc = .status c e cls ser :: rest → s.sectorRuns n.val = true →
    (∀ o l, takeOut ser (s.core c).outst = (some o, l) →
      ((s.core c).statusRoom cls = true →
        ∃ t, exec (.statusEntry n) s = .next t ∧ (t.sector n.val).toDesc = rest ∧ (t.core c).outst = l ∧
          (t.core c).statusFifo = (s.core c).statusFifo ++ [(e, cls)] ∧
          (fld e 63 60 ≠ stNak → (t.core c).queues = (s.core c).queues ∧ (t.core c).nakDest = (s.core c).nakDest) ∧
          (fld e 63 60 = stNak → o.desc.dop = 1 → o.desc.wantReply = true →
            ((t.core c).queue o.desc.rplQ).reserved = ((s.core c).queue o.desc.rplQ).reserved.erase ser) ∧
          State.CoresBut [c] s t ∧ s.SameBytes t ∧ State.KeepsBut [.cores, .sectors, .ctr] s t) ∧
      ((s.core c).statusRoom cls = false → exec (.statusEntry n) s = .next s)) ∧
    ((takeOut ser (s.core c).outst).1 = none →
      ∃ t, exec (.statusEntry n) s = .next t ∧ (t.sector n.val).toDesc = rest ∧ (t.core c).outst = (s.core c).outst ∧
        (t.core c).statusFifo = (s.core c).statusFifo ∧ t.ctrAt Scope.core c Ctr.statusDiscard noSub 0 =
          satCtr (s.ctrAt Scope.core c Ctr.statusDiscard noSub 0 + 1) ∧
        State.CoresBut [c] s t ∧ s.SameBytes t ∧ State.KeepsBut [.cores, .sectors, .ctr] s t)) ∧
  (∀ (c : CoreId) (s : State), s.sectorRuns (sectorOf c.val) = true →
    ((s.core c.val).statusFifo = [] →
      ∃ t, exec (.statusPop c) s = .next t ∧ t.core c.val = { s.core c.val with statusHi := 0 } ∧
        State.CoresBut [c.val] s t ∧ State.KeepsBut [.cores] s t) ∧
    (∀ e cls rest, (s.core c.val).statusFifo = (e, cls) :: rest →
      ∃ t, exec (.statusPop c) s = .next t ∧ (t.core c.val).statusFifo = rest ∧
        (t.core c.val).statusHi = BitVec.ofNat 32 (fld e 63 32) ∧
        (fld e 63 60 = stNak ∧ fld e 59 56 = nakFull →
          (t.core c.val).epoch = ((s.core c.val).epoch + 1) % 256 ∧ (t.core c.val).gate = some (s.core c.val).tails) ∧
        (¬ (fld e 63 60 = stNak ∧ fld e 59 56 = nakFull) →
          (t.core c.val).epoch = (s.core c.val).epoch ∧ (t.core c.val).gate = (s.core c.val).gate) ∧
        State.CoresBut [c.val] s t ∧ State.KeepsBut [.cores] s t)) ∧
  (∀ (c : CoreId) (s : State) (g : Tab Nat), s.engServes c.val = true → (s.core c.val).gate = some g →
    (s.core c.val).drained g = true →
    ∃ t, exec (.retryGateClear c) s = .next t ∧ t.core c.val = { s.core c.val with gate := none, gateMarks := [] } ∧
      ((t.sector (sectorOf c.val)).inPort 21).be = ((s.sector (sectorOf c.val)).inPort 21).be ++
        (s.core c.val).gateMarks.map (fun m => .mark (m / 16) (m % 16) c.val) ∧
      State.CoresBut [c.val] s t ∧ State.SectorsBut [sectorOf c.val] s t ∧ s.SameBytes t ∧
      State.KeepsBut [.cores, .sectors] s t) ∧
  (∀ (n : SectorId) (s : State) (c q src : Nat) (rest : List Item),
    (s.sector n.val).toDesc = .mark c q src :: rest → s.sectorRuns n.val = true →
    ∃ t, exec (.markRelease n) s = .next t ∧ t.sector n.val = { s.sector n.val with toDesc := rest } ∧
      Tab.get ((t.core c).queue q).marks 0 src = 0 ∧ (∀ p, p ≠ q → (t.core c).queue p = (s.core c).queue p) ∧
      State.CoresBut [c] s t ∧ State.SectorsBut [n.val] s t ∧ State.KeepsBut [.cores, .sectors] s t))

/-- 10 R243, R248, R249, R258: on an open queue whose rings lie in no bank under test POP_REQ takes the next request and POP_RPL the next
reply, QPOP_STATUS saying whether there was one and whether it is poisoned; a reply, and a poisoned request, is freed and its sender
gets DONE or POISON. DONE frees the oldest taken request and sends DONE with QDONE_RESULT, unless it is a NOTIFY. CLOSE closes it:
requests end QUEUE_CLOSED, replies are discarded. No other queue changes, nor any byte of memory. Said of pops and DONE while no
notification waits for the queue. -/
def Obligations.QueueReaderCommands : Prop :=
  ∀ (c : CoreId) (q : Fin 16) (s : State) (k : CoreSt) (x : QueueSt) (n : Nat), k = s.core c.val → x = k.queue q.val →
    n = sectorOf c.val → s.engServes c.val = true → s.ringHeld c.val q.val = false → x.isOpen = true →
    (x.reqs[x.taken]? = none →
      ∃ t, exec (.popReq c q) s = .next t ∧ t.core c.val = { k with qpopTook := false, qpopPoison := false } ∧
        State.CoresBut [c.val] s t ∧ State.KeepsBut [.cores] s t) ∧
    (∀ e d, x.reqs[x.taken]? = some e → d = s.entryAt c.val (x.reqAt e.slot) e → (s.sector n).pendingFor c.val q.val = [] →
      ∃ t, exec (.popReq c q) s = .next t ∧ (t.core c.val).qpopTook = true ∧ (t.core c.val).qpopData = d ∧
        (t.core c.val).qpopPoison = (s.sector n).poisoned (x.reqAt e.slot) 32 ∧
        ((s.sector n).poisoned (x.reqAt e.slot) 32 = false →
          (t.core c.val).queue q.val = { x with taken := x.taken + 1 } ∧ t.sectors = s.sectors) ∧
        ((s.sector n).poisoned (x.reqAt e.slot) 32 = true →
          (t.core c.val).queue q.val = { x with reqs := x.reqs.eraseIdx x.taken } ∧
          (d.dop ≠ 6 → ((t.sector n).inPort 21).be = ((s.sector n).inPort 21).be ++
            [Item.status d.src (statusWord stPoison 0 d.tag 0) d.cls d.ser])) ∧
        (∀ p, p ≠ q.val → (t.core c.val).queue p = k.queue p) ∧ State.CoresBut [c.val] s t ∧ State.SectorsBut [n] s t ∧
        s.SameBytes t ∧ State.KeepsBut [.cores, .sectors, .ctr] s t) ∧
    (x.rpls = [] →
      ∃ t, exec (.popRpl c q) s = .next t ∧ t.core c.val = { k with qpopTook := false, qpopPoison := false } ∧
        State.CoresBut [c.val] s t ∧ State.KeepsBut [.cores] s t) ∧
    (∀ e rest d b, x.rpls = e :: rest → d = s.entryAt c.val (x.rplAt e.slot) e →
      b = (s.sector n).poisoned (x.rplAt e.slot) 32 →
      ∃ t, exec (.popRpl c q) s = .next t ∧ (t.core c.val).qpopTook = true ∧ (t.core c.val).qpopData = d ∧
        (t.core c.val).qpopPoison = b ∧ (t.core c.val).queue q.val = { x with rpls := rest } ∧
        ((t.sector n).inPort 21).be = ((s.sector n).inPort 21).be ++
          [Item.status d.src (statusWord (if b then stPoison else stDone) 0 d.tag 0) d.cls d.ser] ∧
        (∀ p, p ≠ q.val → (t.core c.val).queue p = k.queue p) ∧ State.CoresBut [c.val] s t ∧ State.SectorsBut [n] s t ∧
        s.SameBytes t ∧ State.KeepsBut [.cores, .sectors, .ctr] s t) ∧
    (∀ e rest d, x.taken ≠ 0 → x.reqs = e :: rest → d = s.entryAt c.val (x.reqAt e.slot) e →
      (s.sector n).pendingFor c.val q.val = [] →
      ∃ t, exec (.queueDone c q) s = .next t ∧ (t.core c.val).queue q.val = { x with reqs := rest, taken := x.taken - 1 } ∧
        (d.dop ≠ 6 → ((t.sector n).inPort 21).be = ((s.sector n).inPort 21).be ++
          [Item.status d.src (statusWord stDone 0 d.tag k.qdoneResult.toNat) d.cls d.ser]) ∧
        (d.dop = 6 → t.sectors = s.sectors) ∧ (∀ p, p ≠ q.val → (t.core c.val).queue p = k.queue p) ∧
        State.CoresBut [c.val] s t ∧ State.SectorsBut [n] s t ∧ s.SameBytes t ∧ State.KeepsBut [.cores, .sectors] s t) ∧
    (∃ t, exec (.queueClose c q) s = .next t ∧
      (t.core c.val).queue q.val = { x with closed := true, reqs := [], taken := 0, rpls := [], reserved := [] } ∧
      ((t.sector n).inPort 21).be = ((s.sector n).inPort 21).be ++
        ((x.reqs.map fun e => s.entryAt c.val (x.reqAt e.slot) e).filter fun d => d.dop != 6).map (fun d =>
          .status d.src (statusWord stNak nakClosed d.tag 0) d.cls d.ser) ++
        (x.rpls.map fun e => s.entryAt c.val (x.rplAt e.slot) e).map (fun d =>
          .status d.src (statusWord stDiscarded 0 d.tag 0) d.cls d.ser) ∧
      (∀ p, p ≠ q.val → (t.core c.val).queue p = k.queue p) ∧ State.CoresBut [c.val] s t ∧ State.SectorsBut [n] s t ∧
      s.SameBytes t ∧ State.KeepsBut [.cores, .sectors, .ctr] s t)

/-- 10 R248, R250, R252, R256, R258: the engine refuses a REQUEST for no queue, a closed one or with an epoch marked there; else it writes it
into a free request entry, or, none being free, answers QUEUE_FULL and marks the sender. A REPLY fills the entry reserved for it; one
without is DISCARDED. A MOVE starts; at its end the bytes before the first poisoned word stand at its destination, DONE or POISON
with their number. Nothing else in memory changes. Said while no bank concerned is under test, no notification waits, and for a
MOVE between places of its own sector. -/
def Obligations.DescriptorEngineDelivers : Prop :=
  (∀ (n : SectorId) (s : State) (from_ : Nat) (d : Desc) (x : QueueSt) (rest : List Item) (st : Nat → Nat → Item),
    (s.sector n.val).toDesc = .desc from_ d :: rest → s.sectorRuns n.val = true → s.engFree n.val = true →
    sectorOf d.dst = n.val → x = (s.core d.dst).queue d.dstQ → s.ringHeld d.dst d.dstQ = false →
    (∀ a b, st a b = .status d.src (statusWord a b d.tag 0) d.cls d.ser) →
    (d.dop = 1 → s.endedPost d = false →
      (∀ why, (why = nakNoQueue ∧ ((s.sector n.val).mstate (indexOf d.dst) = 2 ∨ x.valid = false) ∨
          (s.sector n.val).mstate (indexOf d.dst) ≠ 2 ∧ x.valid = true ∧ (why = nakClosed ∧ x.closed = true ∨
            why = nakFull ∧ x.closed = false ∧ Tab.get x.marks 0 d.src = d.epoch + 1)) →
        ∃ t, exec (.descriptorRequest n) s = .next t ∧ (t.sector n.val).toDesc = rest ∧
          ((t.sector n.val).inPort 21).be = ((s.sector n.val).inPort 21).be ++ [st stNak why] ∧
          (t.core d.dst).queues = (s.core d.dst).queues ∧ State.CoresBut [d.dst] s t ∧ State.SectorsBut [n.val] s t ∧
          s.SameBytes t ∧ State.KeepsBut [.cores, .sectors, .ctr] s t) ∧
      ((s.sector n.val).mstate (indexOf d.dst) ≠ 2 → x.isOpen = true → Tab.get x.marks 0 d.src ≠ d.epoch + 1 →
        (s.sector n.val).pendingFor d.dst d.dstQ = [] →
        (x.reqRoom = true →
          ∃ t, exec (.descriptorRequest n) s = .next t ∧ (t.sector n.val).toDesc = rest ∧
            memRead (t.sector n.val).mem (x.reqAt x.nextReq) 32 = d.bytes ∧
            (∀ a, a < x.reqAt x.nextReq ∨ x.reqAt x.nextReq + 32 ≤ a →
              memByte (t.sector n.val).mem a = memByte (s.sector n.val).mem a) ∧
            ((t.core d.dst).queue d.dstQ).reqs = x.reqs ++ [{ slot := x.nextReq, seq := x.reqNext, ser := d.ser }] ∧
            ((t.core d.dst).queue d.dstQ).taken = x.taken ∧ (t.sector n.val).inp = (s.sector n.val).inp ∧
            State.CoresBut [d.dst] s t ∧ State.SectorsBut [n.val] s t ∧ State.KeepsBut [.cores, .sectors, .ctr] s t) ∧
        (x.reqRoom = false →
          ∃ t, exec (.descriptorRequest n) s = .next t ∧ (t.sector n.val).toDesc = rest ∧
            Tab.get ((t.core d.dst).queue d.dstQ).marks 0 d.src = d.epoch + 1 ∧
            ((t.core d.dst).queue d.dstQ).reqs = x.reqs ∧
            ((t.sector n.val).inPort 21).be = ((s.sector n.val).inPort 21).be ++ [st stNak nakFull] ∧
            State.CoresBut [d.dst] s t ∧ State.SectorsBut [n.val] s t ∧ s.SameBytes t ∧
            State.KeepsBut [.cores, .sectors, .ctr] s t))) ∧
    (∀ of, of = (if d.reSer = 0 then x.reserved.headD 0 else d.reSer) → d.dop = 2 →
      (s.sector n.val).mstate (indexOf d.dst) ≠ 2 → x.valid = true →
      (x.closed = false → x.reserved.contains of = true →
        ∃ t, exec (.descriptorReply n) s = .next t ∧ (t.sector n.val).toDesc = rest ∧
          memRead (t.sector n.val).mem (x.rplAt x.nextRpl) 32 = d.bytes ∧
          (∀ a, a < x.rplAt x.nextRpl ∨ x.rplAt x.nextRpl + 32 ≤ a →
            memByte (t.sector n.val).mem a = memByte (s.sector n.val).mem a) ∧
          (t.core d.dst).queue d.dstQ = { x with
            rpls := x.rpls ++ [{ slot := x.nextRpl, seq := x.rplNext, ser := d.ser }], rplNext := x.rplNext + 1
            reserved := x.reserved.erase of } ∧
          (∀ q, q ≠ d.dstQ → (t.core d.dst).queue q = (s.core d.dst).queue q) ∧
          State.CoresBut [d.dst] s t ∧ State.SectorsBut [n.val] s t ∧ State.KeepsBut [.cores, .sectors, .ctr] s t) ∧
      (x.closed = true ∨ x.reserved.contains of = false →
        ∃ t, exec (.descriptorReply n) s = .next t ∧ (t.sector n.val).toDesc = rest ∧
          ((t.sector n.val).inPort 21).be = ((s.sector n.val).inPort 21).be ++ [st stDiscarded 0] ∧
          (t.core d.dst).queues = (s.core d.dst).queues ∧ State.CoresBut [d.dst] s t ∧ State.SectorsBut [n.val] s t ∧
          s.SameBytes t ∧ State.KeepsBut [.cores, .sectors, .ctr] s t))) ∧
  (∀ (c : CoreId) (s : State) (n from_ : Nat) (d : Desc) (rest : List Item), n = sectorOf c.val → s.sectorRuns n = true →
    s.engFree n = true → (s.sector n).toDesc = .desc from_ d :: rest → d.src = c.val → d.dop = 5 →
    ∃ t, exec (.descriptorMove c) s = .next t ∧
      t.sector n = { s.sector n with toDesc := rest, moves := (s.sector n).moves ++ [{ core := c.val, desc := d }] } ∧
      State.SectorsBut [n] s t ∧ State.KeepsBut [.sectors] s t) ∧
  (∀ (c : CoreId) (s : State) (n good : Nat) (m : MoveSt) (l : List MoveSt), n = sectorOf c.val → s.sectorRuns n = true →
    takeMove c.val (s.sector n).moves = (some m, l) → m.desc.space = 0 → m.desc.dest.1 = 0 → s.moveHeld n m.desc = false →
    good = s.cleanBytes 0 n m.desc.ofs m.desc.len →
    ∃ t, exec (.moveComplete c) s = .next t ∧ (t.sector n).moves = l ∧
      memRead (t.sector n).mem m.desc.dest.2.2 good = memRead (s.sector n).mem m.desc.ofs good ∧
      (∀ a, a < m.desc.dest.2.2 ∨ m.desc.dest.2.2 + good ≤ a →
        memByte (t.sector n).mem a = memByte (s.sector n).mem a) ∧
      (t.sector n).toDesc = (s.sector n).toDesc ++
        [Item.status c.val (statusWord (if good = m.desc.len then stDone else stPoison) 0 m.desc.tag good) 0 m.desc.ser] ∧
      State.SectorsBut [n] s t ∧ State.KeepsBut [.sectors, .ctr] s t)

/-! ### Fabric -/

/-- 11 R284, R286, R289: an offered message that has room in the quota of an OPEN flow is retained with the next sequence number: its
record of number, length and kind and its body are written to the flow's space, NEXT_SEQ and RTX_TAIL advance and are committed. Where
nothing else waits to be sent and credit and a route serve, its frames queue at the port. A RETURN token so retained consumes its
dispatch token on that token's flow. Said while the channels of those blocks serve.

11 R289, R290; 13 R327: a flow with messages unacknowledged sends them again after its timeout, which doubles to 10 ms at most; those
at or below the peer's RX_ARRIVED are not sent again. 1 s without progress sets STALLED and is reported in the flow event FIFO, or in
its overflow bit. A commit-record update writes ACKED_SEQ and RTX_HEAD, and no other byte. Said of a flow neither CLOSED nor OPENING. -/
def Obligations.FlowRecordsAndTimers : Prop :=
  (∀ (f : FlowId) (s : State) (x : FlowSt) (m : Msg) (rest : List Msg) (u a : Nat), x = s.flow f.val → x.srcQ = m :: rest →
    x.fstate = flowOpen → u = recUnits m.body.length → x.rtxUsed + u ≤ x.rtxUnits → x.rtx.length < 2 ^ 30 →
    a = rtxBase + 64 * x.rtxTail → (∀ b n, s.gHeld b n = false) →
    ∃ t, exec (.flowMessageSend f) s = .next t ∧ (t.flow f.val).srcQ = rest ∧
      (t.flow f.val).nextSeq = seqNext x.nextSeq ∧ (t.flow f.val).rtxTail = x.rtxStep x.rtxTail u ∧
      (t.flow f.val).rtx.map (fun o => (o.mseq, o.kind, o.body)) =
        x.rtx.map (fun o => (o.mseq, o.kind, o.body)) ++ [(x.nextSeq, m.kind, m.body)] ∧
      memRead t.gddr.mem (commitBase + 32 * f.val) 32 =
        { s.commitOf f.val with next := seqNext x.nextSeq, tail := x.rtxStep x.rtxTail u : Commit }.bytes ∧
      (x.rtxTail + u ≤ x.rtxAt + x.rtxUnits →
        memRead t.gddr.mem a (16 + m.body.length) =
          toLe 4 x.nextSeq ++ toLe 4 m.body.length ++ toLe 4 m.kind ++ zeros 4 ++ m.body ∧
        (∀ b, (b < commitBase + 32 * f.val ∨ commitBase + 32 * f.val + 32 ≤ b) → (b < a ∨ a + 16 + m.body.length ≤ b) →
          memByte t.gddr.mem b = memByte s.gddr.mem b)) ∧
      (∀ p v, (∀ o ∈ x.rtx, o.sent = true) → m.again = false → 64 * stgUnits m.body.length ≤ x.creditLeft →
        s.routeTo x.peerDev = some (p, v) →
        (t.port p).txQ = (s.port p).txQ ++ s.framesOf f.val m.kind x.nextSeq v m.body ∧ State.PortsBut [p] s t) ∧
      (m.ackFlow = 0 → State.FlowsBut [f.val] s t) ∧ State.FlowsBut [f.val, m.ackFlow - 1] s t ∧
      State.KeepsBut [.flows, .gddr, .ctr, .ports, .pcie, .out] s t) ∧
  (∀ (f : FlowId) (s : State) (x : FlowSt), x = s.flow f.val → x.fstate ≠ flowClosed → x.fstate ≠ flowOpening →
    (x.unacked = true → x.rtoAt + x.rto * 1000 ≤ s.now →
      ∃ t, exec (.e2eRetransmitTimeout f) s = .next t ∧
        t.flow f.val = { x with
          rto := min 10000 (2 * x.rto), rtoAt := s.now
          rtx := x.rtx.map fun m =>
            if seqLe m.mseq x.peerArrived then { m with sent := true, again := false }
            else if m.sent then { m with sent := false, again := true } else m } ∧
        State.FlowsBut [f.val] s t ∧ State.KeepsBut [.flows] s t) ∧
    (x.unacked = true → x.stalled = false → x.lastProgress + 1000000000 ≤ s.now →
      ∃ t, exec (.flowStalled f) s = .next t ∧ t.flow f.val = { x with stalled := true } ∧
        (s.pcie.flowEv.length < 256 → t.pcie.flowEv = s.pcie.flowEv ++ [(1, f.val)]) ∧
        (256 ≤ s.pcie.flowEv.length → t.pcie.flowEv = s.pcie.flowEv ∧ t.pcie.flowOvf = true) ∧
        State.FlowsBut [f.val] s t ∧ State.KeepsBut [.flows, .pcie, .out, .ctr] s t) ∧
    (s.gHeld (commitBase + 32 * f.val) 32 = false →
      ∃ t, exec (.commitRecordUpdate f) s = .next t ∧
        memRead t.gddr.mem (commitBase + 32 * f.val) 32 =
          { s.commitOf f.val with acked := x.ackedSeq, head := x.rtxHead : Commit }.bytes ∧
        (∀ a, a < commitBase + 32 * f.val ∨ commitBase + 32 * f.val + 32 ≤ a →
          memByte t.gddr.mem a = memByte s.gddr.mem a) ∧ State.KeepsBut [.gddr, .ctr] s t))

/-- 11 R279, R285, R287, R288, R290: a segment for no flow, of a CLOSED one or from another device, with a bad end-to-end CRC or of
another epoch is discarded and counted. One that carries the next part of the next message extends it; with the last the message is
staged and an ACK is due. A duplicate is counted, and an ACK is due; any other is counted, and a gap ACK is due. An ACK that is due
leaves once RX_WM stands in the commit record, with RX_WM, RX_ARRIVED, the credit and the messages refused at or below RX_WM. Said
while the channels of those blocks serve. -/
def Obligations.SegmentsAreAssembled : Prop :=
  (∀ (p : PortId) (s u : State) (g : Seg) (f : Nat) (x : FlowSt),
    s.takeRx p.val (fun g => g.kind < 5 || 7 < g.kind) = some (g, u) → f = g.dstFlow → x = s.flow f →
    (∀ sc i id,
      (49152 ≤ f ∧ sc = Scope.device ∧ i = 0 ∧ id = Ctr.e2eNoFlow ∨
        f < 49152 ∧ g.e2e ≠ g.crc ∧ sc = Scope.flow ∧ i = f ∧ id = Ctr.e2eCrcErr ∨
        f < 49152 ∧ g.e2e = g.crc ∧ (x.fstate = flowClosed ∨ g.srcDev ≠ x.peerDev) ∧ sc = Scope.device ∧ i = 0 ∧
          id = Ctr.e2eNoFlow ∨
        f < 49152 ∧ g.e2e = g.crc ∧ x.fstate ≠ flowClosed ∧ g.srcDev = x.peerDev ∧ g.epoch ≠ x.epoch ∧ sc = Scope.flow ∧
          i = f ∧ id = Ctr.e2eStaleEpoch) →
      ∃ t, exec (.segmentReceive p) s = .next t ∧ t.ports = u.ports ∧
        t.ctrAt sc i id noSub 0 = satCtr (s.ctrAt sc i id noSub 0 + 1) ∧ State.KeepsBut [.ports, .ctr] s t) ∧
    (u.badSeg g = none →
      (g.mseq = seqNext x.rxArrived → seqLe g.mseq x.rxArrived = false → g.seg = x.nextSeg →
        (g.last = true → (∀ a n, s.gHeld a n = false) →
          ∃ t, exec (.segmentReceive p) s = .next t ∧ t.ports = u.ports ∧
            (t.flow f).stage = x.stage ++ [{ mseq := g.mseq, kind := g.kind, body := x.gather ++ g.data, at_ := x.stgTail }] ∧
            (t.flow f).rxArrived = g.mseq ∧ (t.flow f).ackDue = true ∧ (t.flow f).rxWm = x.rxWm ∧
            (x.stgTail + stgUnits (x.gather ++ g.data).length ≤ x.stgAt + x.stgQuota / 64 →
              memRead t.gddr.mem (s.gddr.stgBase + 64 * x.stgTail) (x.gather ++ g.data).length = x.gather ++ g.data ∧
              (∀ b, b < s.gddr.stgBase + 64 * x.stgTail ∨ s.gddr.stgBase + 64 * x.stgTail + (x.gather ++ g.data).length ≤ b →
                memByte t.gddr.mem b = memByte s.gddr.mem b)) ∧
            State.FlowsBut [f] s t ∧ State.KeepsBut [.ports, .flows, .gddr, .ctr] s t) ∧
        (g.last = false →
          ∃ t, exec (.segmentReceive p) s = .next t ∧ t.ports = u.ports ∧
            t.flow f = { x with gather := x.gather ++ g.data, nextSeg := x.nextSeg + 1 } ∧ State.FlowsBut [f] s t ∧
            State.KeepsBut [.ports, .flows] s t)) ∧
      (seqLe g.mseq x.rxArrived = true →
        ∃ t, exec (.segmentReceive p) s = .next t ∧ t.ports = u.ports ∧ t.flow f = { x with ackDue := true } ∧
          t.ctrAt Scope.flow f Ctr.e2eDup noSub 0 = satCtr (s.ctrAt Scope.flow f Ctr.e2eDup noSub 0 + 1) ∧
          State.FlowsBut [f] s t ∧ State.KeepsBut [.ports, .flows, .ctr] s t) ∧
      (seqLe g.mseq x.rxArrived = false → (g.mseq ≠ seqNext x.rxArrived ∨ g.seg ≠ x.nextSeg) →
        ∃ t, exec (.segmentReceive p) s = .next t ∧ t.ports = u.ports ∧
          t.flow f = { x with gather := [], nextSeg := 0, gapDue := true } ∧
          t.ctrAt Scope.flow f Ctr.e2eGap noSub 0 = satCtr (s.ctrAt Scope.flow f Ctr.e2eGap noSub 0 + 1) ∧
          State.FlowsBut [f] s t ∧ State.KeepsBut [.ports, .flows, .ctr] s t))) ∧
  (∀ (f : FlowId) (s : State) (x : FlowSt) (gap : Bool) (p v : Nat) (due : List (Nat × Nat)) (body : List Byte),
    x = s.flow f.val → x.fstate ≠ flowClosed → x.fstate ≠ flowOpening → (if gap then x.gapDue else x.ackDue) = true →
    due = (x.refused.filter fun r => seqLe r.1 x.rxWm).take 16 →
    body = toLe 4 x.rxWm ++ toLe 4 x.rxArrived ++ toLe 8 (x.stgFree % 2 ^ 32 + due.length * 2 ^ 32 + b2n gap * 2 ^ 37) ++
      (due.flatMap fun r => toLe 8 (r.1 * 2 ^ 32 + r.2 % 16)) →
    s.routeTo x.peerDev = some (p, v) → s.gHeld (commitBase + 32 * f.val) 32 = false →
    ∃ t, exec (.ackSend f gap) s = .next t ∧ (t.port p).txQ = (s.port p).txQ ++ s.framesOf f.val 5 0 v body ∧
      t.flow f.val = { x with
        refused := x.refused.filter fun r => !due.contains r
        ackDue := x.refused.length != due.length && !due.isEmpty
        gapDue := if gap then false else x.gapDue } ∧
      memRead t.gddr.mem (commitBase + 32 * f.val) 32 = { s.commitOf f.val with wm := x.rxWm : Commit }.bytes ∧
      (∀ a, a < commitBase + 32 * f.val ∨ commitBase + 32 * f.val + 32 ≤ a →
        memByte t.gddr.mem a = memByte s.gddr.mem a) ∧
      State.FlowsBut [f.val] s t ∧ State.PortsBut [p] s t ∧ State.KeepsBut [.ports, .flows, .gddr, .ctr] s t)

/-- 11 R286, R288, R291, R292: an ACK of a flow that is not CLOSING frees the messages at or below its watermark and takes the credit, and
the peer's RX_ARRIVED where it has advanced; one with an older watermark changes nothing. OPEN completes the handshake of a NEW context
that opens and of an OPEN one that the peer resumes, answered by OPEN_ACK, and OPEN_ACK that of a context that opens; a command that
waits is then DONE. An OPENING flow sends OPEN again every 100 µs, and at its deadline the command fails HANDSHAKE_TIMEOUT and the context
is CLOSED (the model's reading, log 31). -/
def Obligations.AcknowledgementsAndHandshake : Prop :=
  (∀ (p : PortId) (s u : State) (g : Seg) (f wm : Nat) (x : FlowSt), s.takeRx p.val (fun g => g.kind == 5) = some (g, u) →
    u.badSeg g = none → f = g.dstFlow → x = s.flow f → wm = leAt g.data 0 4 →
    (seqLe x.ackedSeq wm = false → exec (.ack p) s = .next u) ∧
    (seqLe x.ackedSeq wm = true → x.fstate ≠ flowClosing →
      ∃ t, exec (.ack p) s = .next t ∧ t.ports = u.ports ∧ (t.flow f).ackedSeq = wm ∧
        (t.flow f).rtx.map (fun o => (o.mseq, o.kind, o.body)) =
          (x.rtx.filter fun o => !seqLe o.mseq wm).map (fun o => (o.mseq, o.kind, o.body)) ∧
        (t.flow f).peerArrived = (if seqLe x.peerArrived (leAt g.data 4 4) then leAt g.data 4 4 else x.peerArrived) ∧
        (t.flow f).credit = 64 * nfld (leAt g.data 8 8) 31 0 ∧ (t.flow f).stage = x.stage ∧ (t.flow f).fstate = x.fstate ∧
        State.FlowsBut [f] s t ∧ State.KeepsBut [.ports, .flows, .pcie, .out, .ctr] s t)) ∧
  (∀ (p : PortId) (s u : State) (g : Seg) (k f ep : Nat) (x : FlowSt) (b : Nat → Nat),
    s.takeRx p.val (fun g => g.kind == k) = some (g, u) → f = g.dstFlow → f < 49152 → g.e2e = g.crc → x = s.flow f →
    g.srcDev = x.peerDev → (∀ i, b i = leAt g.data (4 * i) 4) → (∀ a n, s.gHeld a n = false) →
    s.traceOn = false ∨ x.waiter = 0 →
    (k = 6 ∧ (x.fstate = flowOpening ∧ x.resume = false ∧ b 0 = 0 ∧ b 1 = 1 ∧ ep = x.epoch ∨
        x.fstate = flowOpen ∧ b 0 = 1 ∧ b 1 = x.epoch + 1 ∧ ep = x.epoch + 1) ∨
      k = 7 ∧ x.fstate = flowOpening ∧ g.epoch = x.epoch ∧ b 1 = x.epoch ∧ ep = x.epoch) →
    ∃ t, (k = 6 → exec (.openMsg p) s = .next t) ∧ (k = 7 → exec (.openAck p) s = .next t) ∧
      (t.flow f).fstate = flowOpen ∧ (t.flow f).epoch = ep ∧ (t.flow f).ackedSeq = b 3 ∧ (t.flow f).peerArrived = b 4 ∧
      (t.flow f).credit = 64 * b 5 ∧ (t.flow f).waiter = 0 ∧
      (∀ q v, k = 6 → s.routeTo x.peerDev = some (q, v) →
        (t.port q).txQ = (s.port q).txQ ++ t.framesOf f 7 0 v { x with epoch := ep : FlowSt }.openBody) ∧
      memRead t.gddr.mem (commitBase + 32 * f) 32 = Commit.bytes
        { peerDev := x.peerDev, peerFlow := x.peerFlow, epoch := ep, valid := true
          next := x.nextSeq, acked := b 3, wm := x.rxWm, head := (t.flow f).rtxHead, tail := x.rtxTail } ∧
      (∀ m e, x.waiter = m + 1 → s.parked m = some e → s.Completes t m e codeDone 0) ∧
      (x.waiter = 0 → t.mbox = s.mbox) ∧ State.FlowsBut [f] s t ∧ State.KeepsBut (mailParts ++ [Part.ports, .flows, .gddr]) s t) ∧
  (∀ (f : FlowId) (s : State) (p v : Nat), (s.flow f.val).fstate = flowOpening →
    (s.flow f.val).openAt + 100000 ≤ s.now → s.routeTo (s.flow f.val).peerDev = some (p, v) →
    ∃ t, exec (.openResend f) s = .next t ∧ t.flow f.val = { s.flow f.val with openAt := s.now } ∧
      (t.port p).txQ = (s.port p).txQ ++ s.framesOf f.val 6 0 v (s.flow f.val).openBody ∧
      State.FlowsBut [f.val] s t ∧ State.PortsBut [p] s t ∧ State.KeepsBut [.ports, .flows] s t) ∧
  (∀ (f : FlowId) (s : State) (m : Nat) (e : JEntry), (s.flow f.val).fstate = flowOpening →
    (s.flow f.val).waiter = m + 1 → s.parked m = some e → (s.flow f.val).hsDeadline ≤ s.now → s.traceOn = false →
    ∃ t, exec (.openHandshakeTimeout f) s = .next t ∧ t.flow f.val = { cacheSize := (s.flow f.val).cacheSize } ∧
      s.Completes t m e codeFault Why.handshakeTimeout ∧ t.gddr.mem = s.gddr.mem ∧
      State.FlowsBut [f.val] s t ∧ State.KeepsBut (mailParts ++ [Part.flows, .gddr]) s t)

/-- 11 R280 to R282; 16 R418; 18 R459: the next message of a flow goes to its consumer: the events of an EVENTS message enter the running network with RING
set, through the ring port of their destination sector, and are counted there; a token packet goes to the token units; a SYNC_INC on a
granted object goes to its sector's synchronisation unit, one on any other is refused with code 8; the data of a BULK message go to
their GDDR6 address. A message whose network is not loaded is refused with code 9. In P2 and P3 (16
R418), and while a FATAL fault holds the compute partition (18 R459), none is taken. Said of SYNC_INC while the ring port has room, and
of BULK while its channels serve and no network reduces gradients. -/
def Obligations.MessagesReachTheirConsumers : Prop :=
  ∀ (f : FlowId) (s : State) (x : FlowSt) (m : Msg) (w k : Nat), x = s.flow f.val → x.nextMsg = some m → k = x.net →
    w = leAt m.body 0 8 →
    (s.flowsHeld = true → exec (.eventsMessage f) s = .next s ∧ exec (.tokenMessage f) s = .next s ∧ exec (.syncInc f) s = .next s ∧
      exec (.bulk f) s = .next s) ∧
    (∀ n step evs, m.kind = 1 → s.flowBound x = true → (s.net k).running = true → s.takesIn = true → n = nfld w 44 32 →
      step = s.ringStep k → evs = ((upTo n).map fun i => BitVec.ofNat 64 (leAt m.body (8 + 8 * i) 8) : List Word64) →
      ∃ t, exec (.eventsMessage f) s = .next t ∧
        (∀ q, q < 8 → ((t.sector q).link 3).inFlight = ((s.sector q).link 3).inFlight ++
          (evs.filter fun e => (if evCore e < 128 then sectorOf (evCore e) else 0) == q).map fun e =>
            .event { ev := put (put e 6 2 16) 10 7 q, tag := step % 4, flow := f.val + 1, mseq := m.mseq }) ∧
        (n ≠ 0 → Tab.get (t.flow f.val).delivered false m.mseq = true ∧ Tab.get (t.flow f.val).unpopped 0 m.mseq = n) ∧
        Tab.get (t.net k).ringSent 0 (step % 4) = Tab.get (s.net k).ringSent 0 (step % 4) + n ∧
        State.FlowsBut [f.val] s t ∧ State.NetsBut [k] s t ∧ s.SameBytes t ∧
        State.KeepsBut [.flows, .sectors, .nets, .cores] s t) ∧
    (m.kind = 2 → s.flowBound x = true → s.flowsHeld = false →
      ∃ t, exec (.tokenMessage f) s = .next t ∧
        t.flow f.val = { x with delivered := Tab.set x.delivered false m.mseq true, tokQ := x.tokQ ++ [m] } ∧
        State.FlowsBut [f.val] s t ∧ State.KeepsBut [.flows] s t) ∧
    (∀ n o, n = nfld w 2 0 → o = nfld w 15 3 → m.kind = 3 → s.flowBound x = true → s.takesIn = true →
      s.linkRoom n 3 (.sync n {}) = true →
      (s.objGranted n k o = true → o < 8160 →
        ∃ t, exec (.syncInc f) s = .next t ∧
          ((t.sector n).link 3).inFlight = ((s.sector n).link 3).inFlight ++ [Item.sync n
            { path := 2, op := nfld w 17 16 + 1, obj := o, operand := nfld w 63 32, flow := f.val + 1, mseq := m.mseq }] ∧
          t.flow f.val = { x with delivered := Tab.set x.delivered false m.mseq true } ∧
          State.FlowsBut [f.val] s t ∧ State.SectorsBut [n] s t ∧ s.SameBytes t ∧ State.KeepsBut [.flows, .sectors] s t) ∧
      (s.objGranted n k o = false ∨ 8160 ≤ o →
        ∃ t, exec (.syncInc f) s = .next t ∧ (t.flow f.val).refused = x.refused ++ [(m.mseq, 8)] ∧
          State.FlowsBut [f.val] s t ∧ State.KeepsBut [.flows] s t)) ∧
    (∀ data, data = m.body.drop 16 → m.kind = 4 → s.flowsHeld = false → w + data.length ≤ s.gddr.top → s.gHeld w data.length = false →
      (w + data.length ≤ 0x05200000 ∨ rtxBase ≤ w) → (∀ k, k < 16 → (s.net k).reduce = none) →
      ∃ t, exec (.bulk f) s = .next t ∧ memRead t.gddr.mem w data.length = data ∧
        (∀ a, a < w ∨ w + data.length ≤ a → memByte t.gddr.mem a = memByte s.gddr.mem a) ∧
        ((∀ k, k < 16 → s.groupOf k = none) → t.nets = s.nets) ∧ State.FlowsBut [f.val] s t ∧
        State.KeepsBut [.flows, .gddr, .ctr, .nets] s t) ∧
    (s.flowBound x = false → s.flowsHeld = false →
      (m.kind = 1 → ∃ t, exec (.eventsMessage f) s = .next t ∧ (t.flow f.val).refused = x.refused ++ [(m.mseq, 9)] ∧
        State.FlowsBut [f.val] s t ∧ State.KeepsBut [.flows] s t) ∧
      (m.kind = 2 → ∃ t, exec (.tokenMessage f) s = .next t ∧ (t.flow f.val).refused = x.refused ++ [(m.mseq, 9)] ∧
        (t.flow f.val).tokQ = x.tokQ ∧ State.FlowsBut [f.val] s t ∧ State.KeepsBut [.flows] s t) ∧
      (m.kind = 3 → ∃ t, exec (.syncInc f) s = .next t ∧ (t.flow f.val).refused = x.refused ++ [(m.mseq, 9)] ∧
        State.FlowsBut [f.val] s t ∧ State.KeepsBut [.flows] s t))

/-- 11 R271, R272, R274, R275, R297: an UP port with nothing to resend sends the next waiting frame whose channel holds credit, within a
window of 64, and keeps it for replay; an injection that is due drops it, corrupts it, flips a bit of it or holds it back, and is
counted. While frames are to be resent it resends the oldest of them. A CTRL frame goes out after 16 frames, for an LRETRY or 200 ns
after the last DATA or CTRL frame; 2 µs without LACK advancing has every outstanding frame resent.

11 R273 to R277: a DATA frame that passes its checks frees the frames that its LACK acknowledges and returns credit. With the next LSEQ
it is accepted: a segment for this device waits in the receive buffer, one for another goes on with HOPS_LEFT one lower, or is dropped
and counted where it has no hop or no route left. One accepted before is discarded; any other LSEQ, and a frame that fails a check,
which is counted and discarded, asks once for a resend. A CTRL frame acknowledges and returns its credit. -/
def Obligations.PortsExchangeFrames : Prop :=
  (∀ (p : PortId) (s : State) (o : PortSt), o = s.port p.val → o.state = portUp →
    (∀ f due bytes, o.resend = 0 → o.replay.length < 64 → o.nextTx = some f → o.swapped = [] →
      due = (o.injMode != 0 && decide (o.injN ≤ o.injCount + 1)) →
      bytes = frameOf (o.linkWord 1 o.txSeq (f.payload.length / 8)) f.payload →
      ∃ t, exec (.dataFrameSend p) s = .next t ∧ (t.port p.val).txQ = o.txQ.erase f ∧
        (t.port p.val).replay = o.replay ++ [{ f with lseq := o.txSeq, resent := 0 }] ∧
        (t.port p.val).txSeq = (o.txSeq + 1) % 256 ∧
        Tab.get (t.port p.val).credit 32768 f.vc = Tab.get o.credit 32768 f.vc - frameBytes f.payload.length ∧
        (due = false → t.out = s.out ++ [Out.frame p.val 1 bytes false] ∧ t.free = s.free ∧
          (t.port p.val).injCount = if o.injMode = 0 then 0 else o.injCount + 1) ∧
        (due = true → (t.port p.val).injCount = 0 ∧ t.ctrAt Scope.port p.val Ctr.faultInjected noSub 0 =
            satCtr (s.ctrAt Scope.port p.val Ctr.faultInjected noSub 0 + 1) ∧
          (o.injMode = 1 → t.out = s.out ∧ (t.port p.val).swapped = []) ∧
          (o.injMode = 2 → t.out = s.out ++ [Out.frame p.val 1 bytes true]) ∧
          (o.injMode = 3 → ∃ i, t.out = s.out ++ [Out.frame p.val 1
            (frameOf (o.linkWord 1 o.txSeq (f.payload.length / 8)) (flipBit i f.payload)) false]) ∧
          (4 ≤ o.injMode → t.out = s.out ∧ (t.port p.val).swapped = [bytes])) ∧
        State.PortsBut [p.val, f.src - 1] s t ∧ (f.src = 0 → State.PortsBut [p.val] s t) ∧
        State.KeepsBut [.ports, .out, .ctr, .free] s t) ∧
    (∀ f, 0 < o.resend → o.resend ≤ o.replay.length → o.replay[o.replay.length - o.resend]? = some f → o.swapped = [] →
      ∃ t, exec (.dataFrameSend p) s = .next t ∧ (t.port p.val).resend = o.resend - 1 ∧
        (t.port p.val).replay = o.replay.set (o.replay.length - o.resend) { f with resent := f.resent + 1 } ∧
        (t.port p.val).txQ = o.txQ ∧
        t.out = s.out ++ [Out.frame p.val 1 (frameOf (o.linkWord 1 f.lseq (f.payload.length / 8)) f.payload) false] ∧
        t.ctrAt Scope.port p.val Ctr.linkRetry noSub 0 = satCtr (s.ctrAt Scope.port p.val Ctr.linkRetry noSub 0 + 1) ∧
        State.PortsBut [p.val] s t ∧ State.KeepsBut [.ports, .out, .ctr] s t) ∧
    (16 ≤ o.unacked ∨ o.retryDue = true ∨ o.txAt + 200 ≤ s.now →
      ∃ t, exec (.ctrlFrameSend p) s = .next t ∧ (t.port p.val).unacked = 0 ∧ (t.port p.val).txAt = s.now ∧
        (t.port p.val).retryDue = false ∧ (t.port p.val).replay = o.replay ∧ (t.port p.val).txQ = o.txQ ∧
        t.out = s.out ++ [Out.frame p.val 2 (frameOf (o.linkWord 2 0 0) []) false] ∧
        State.PortsBut [p.val] s t ∧ State.KeepsBut [.ports, .out, .ctr] s t) ∧
    (o.replay ≠ [] → o.lackAt + 2000 ≤ s.now →
      ∃ t, exec (.linkAckTimeout p) s = .next t ∧ t.port p.val = { o with resend := o.replay.length, lackAt := s.now } ∧
        State.PortsBut [p.val] s t ∧ State.KeepsBut [.ports] s t)) ∧
  (∀ (p : PortId) (s : State) (o : PortSt) (lseq lack : Byte) (lretry : Bool) (v : Fin 3) (n : Nat) (b : List Byte) (g : Seg)
      (acked : State → Prop), o = s.port p.val → o.state = portUp → g = parseSeg b →
    (∀ t, acked t ↔
      ((t.port p.val).replay.map (fun f => (f.lseq, f.payload)) =
          (o.replay.dropWhile fun f => decide ((lack.toNat + 256 - f.lseq) % 256 < 64)).map (fun f => (f.lseq, f.payload)) ∧
        (lretry = true → (t.port p.val).resend = (t.port p.val).replay.length) ∧
        Tab.get (t.port p.val).credit 32768 v.val = min 32768 (Tab.get o.credit 32768 v.val + 64 * n))) →
    (∀ check, check = .good ∨ check = .fecCorrected →
      (lseq.toNat = (o.rxSeq + 1) % 256 → g.dstDev = s.deviceId →
        ∃ t, exec (.dataFrameReceive p lseq lack lretry v n b check) s = .next t ∧ (t.port p.val).rxSeq = lseq.toNat ∧
          (t.port p.val).rxQ = o.rxQ ++ [b] ∧ (t.port p.val).rxGap = false ∧ (t.port p.val).unacked = o.unacked + 1 ∧
          acked t ∧ State.PortsBut [p.val] s t ∧ State.KeepsBut [.ports, .ctr] s t) ∧
      (∀ q w, lseq.toNat = (o.rxSeq + 1) % 256 → g.dstDev ≠ s.deviceId → g.hops ≠ 0 → s.routeTo g.dstDev = some (q, w) →
        ∃ t, exec (.dataFrameReceive p lseq lack lretry v n b check) s = .next t ∧ (t.port p.val).rxQ = o.rxQ ∧
          (t.port p.val).rxSeq = lseq.toNat ∧ acked t ∧ (t.port q).txQ = (s.port q).txQ ++
            [{ vc := g.vc, fwd := true, src := p.val + 1, payload := ({ g with hops := g.hops - 1 } : Seg).bytes }] ∧
          State.PortsBut [p.val, q] s t ∧ State.KeepsBut [.ports, .ctr] s t) ∧
      (lseq.toNat = (o.rxSeq + 1) % 256 → g.dstDev ≠ s.deviceId → g.hops = 0 ∨ s.routeTo g.dstDev = none →
        ∃ t, exec (.dataFrameReceive p lseq lack lretry v n b check) s = .next t ∧ (t.port p.val).rxQ = o.rxQ ∧
          (t.port p.val).txQ = o.txQ ∧ (t.port p.val).rxSeq = lseq.toNat ∧ acked t ∧
          t.ctrAt Scope.port p.val Ctr.fwdDrop noSub 0 = satCtr (s.ctrAt Scope.port p.val Ctr.fwdDrop noSub 0 + 1) ∧
          State.PortsBut [p.val] s t ∧ State.KeepsBut [.ports, .ctr] s t) ∧
      (lseq.toNat ≠ (o.rxSeq + 1) % 256 →
        ∃ t, exec (.dataFrameReceive p lseq lack lretry v n b check) s = .next t ∧ (t.port p.val).rxQ = o.rxQ ∧
          (t.port p.val).rxSeq = o.rxSeq ∧ acked t ∧
          ((o.rxSeq + 256 - lseq.toNat) % 256 < 64 →
            (t.port p.val).rxGap = o.rxGap ∧ (t.port p.val).retryDue = o.retryDue) ∧
          (64 ≤ (o.rxSeq + 256 - lseq.toNat) % 256 →
            (t.port p.val).rxGap = true ∧ (t.port p.val).retryDue = (o.retryDue || !o.rxGap)) ∧
          State.PortsBut [p.val] s t ∧ State.KeepsBut [.ports, .ctr] s t) ∧
      (∃ t, exec (.ctrlFrameReceive p lack lretry v n check) s = .next t ∧ (t.port p.val).rxQ = o.rxQ ∧
        (t.port p.val).rxSeq = o.rxSeq ∧ acked t ∧ State.PortsBut [p.val] s t ∧ State.KeepsBut [.ports, .ctr] s t)) ∧
    (∀ check id, check = .crcError ∧ id = Ctr.linkCrcErr ∨ check = .fecUncorrectable ∧ id = Ctr.linkFecUncorr →
      (∃ t, exec (.dataFrameReceive p lseq lack lretry v n b check) s = .next t ∧
        t.port p.val = { o with rxGap := true, retryDue := o.retryDue || !o.rxGap } ∧
        t.ctrAt Scope.port p.val id noSub 0 = satCtr (s.ctrAt Scope.port p.val id noSub 0 + 1) ∧
        State.PortsBut [p.val] s t ∧ State.KeepsBut [.ports, .ctr] s t) ∧
      (∃ t, exec (.ctrlFrameReceive p lack lretry v n check) s = .next t ∧
        t.port p.val = { o with rxGap := true, retryDue := o.retryDue || !o.rxGap } ∧
        t.ctrAt Scope.port p.val id noSub 0 = satCtr (s.ctrAt Scope.port p.val id noSub 0 + 1) ∧
        State.PortsBut [p.val] s t ∧ State.KeepsBut [.ports, .ctr] s t)))

/-- 11 R268 to R270, R278, R298; 17 R444: a port that trains enters MEASURE, with both lane pairs at the lanes it has and with one pair
on that pair alone; an attempt that no pair passes is repeated, the third failure within 10 s leaves it FAILED. An UP port may be
retrained, keeping its replay buffer. In MEASURE, and on an UP port 100 ms after the last exchange, 8 rounds begin; a T1 is answered;
the last answer brings the port UP, its offset that of the round of smallest delay, and a MEASURE resends its replay buffer. A port
reset leaves it DOWN, with nothing to replay and no injection. Other ports change by the frames that find a new port only. -/
def Obligations.PortsTrainAndMeasure : Prop :=
  ∀ (p : PortId) (s : State) (o : PortSt) (queues : State → Prop), o = s.port p.val →
    (∀ t, queues t ↔ (∀ q, q ≠ p.val → t.port q = { s.port q with txQ := (t.port q).txQ }) ∧
      ((∀ q, q < 12 → (s.port q).txQ = []) → ∀ q, (t.port q).txQ = (s.port q).txQ)) →
    (∀ (bad : BitVec 4) (lo hi : Bool) (times : List Nat), s.trains p.val = true → lo = (fld bad 1 0 == 0) →
      hi = (fld bad 3 2 == 0) → times = (s.now :: o.failTimes).filter (fun x => decide (s.now < x + 10000000000)) →
      (lo = true ∨ hi = true →
        ∃ t, exec (.portTrainingComplete p bad) s = .next t ∧ (t.port p.val).state = portMeasure ∧
          (t.port p.val).lanes = (if lo && hi then o.lanes else if lo then 1 else 2) ∧ (t.port p.val).laneBad = bad ∧
          (t.port p.val).replay = o.replay ∧ (t.port p.val).txQ = o.txQ ∧ State.PortsBut [p.val] s t ∧
          State.KeepsBut [.ports] s t) ∧
      (lo = false → hi = false → times.length < 3 →
        ∃ t, exec (.portTrainingComplete p bad) s = .next t ∧ (t.port p.val).state = portTraining ∧
          (t.port p.val).failTimes = times ∧ State.PortsBut [p.val] s t ∧ State.KeepsBut [.ports] s t) ∧
      (lo = false → hi = false → 3 ≤ times.length →
        ∃ t, exec (.portTrainingComplete p bad) s = .next t ∧ (t.port p.val).state = portFailed ∧
          nbit (t.port p.val).events 1 = true ∧ State.PortsBut [p.val] s t ∧ State.KeepsBut [.ports, .boot, .out] s t)) ∧
    (∀ c, (c = RetrainCause.resends → (o.replay.any fun f => 16 ≤ f.resent) = true) → o.state = portUp →
      ∃ t, exec (.retrainTrigger p c) s = .next t ∧ (t.port p.val).state = portRetrain ∧ (t.port p.val).replay = o.replay ∧
        nbit (t.port p.val).events 2 = true ∧ t.ctrAt Scope.port p.val Ctr.linkRetrain noSub 0 =
          satCtr (s.ctrAt Scope.port p.val Ctr.linkRetrain noSub 0 + 1) ∧ queues t ∧ State.KeepsBut [.ports, .ctr] s t) ∧
    (o.state = portMeasure ∨ o.state = portUp ∧ o.exchAt + 100000000 ≤ s.now →
      ∃ t, exec (.timeExchange p) s = .next t ∧ (t.port p.val).rounds = 8 ∧ (t.port p.val).exchAt = s.now ∧
        t.out = s.out ++ [Out.frame p.val 3 (frameOf (o.linkWord 3 0 3) (toLe 8 s.now ++ toLe 8 0 ++ toLe 8 0)) false] ∧
        State.PortsBut [p.val] s t ∧ State.KeepsBut [.ports, .out, .ctr] s t) ∧
    (∀ lack lretry v n (t1 t2 t3 : Word64) check (b : Int × Int), o.state = portMeasure ∨ o.state = portUp →
      check = .good ∨ check = .fecCorrected →
      b = betterRound o.best ((((t2.toNat : Int) - t1.toNat) - ((s.now : Int) - t3.toNat)) / 2,
        (((s.now : Int) - t1.toNat) - ((t3.toNat : Int) - t2.toNat)) / 2) →
      (∃ t, exec (.timeFrameReceive p t1 t2 t3 ⟨false, lack, lretry, v, n, check⟩) s = .next t ∧
        t.out = s.out ++
          [Out.frame p.val 3 (frameOf (o.linkWord 3 0 3) (toLe 8 t1.toNat ++ toLe 8 s.now ++ toLe 8 s.now)) false] ∧
        (t.port p.val).state = o.state ∧ State.PortsBut [p.val] s t ∧ State.KeepsBut [.ports, .out, .ctr] s t) ∧
      (1 < o.rounds →
        ∃ t, exec (.timeFrameReceive p t1 t2 t3 ⟨true, lack, lretry, v, n, check⟩) s = .next t ∧
          (t.port p.val).rounds = o.rounds - 1 ∧ (t.port p.val).best = some b ∧
          t.out = s.out ++ [Out.frame p.val 3 (frameOf (o.linkWord 3 0 3) (toLe 8 s.now ++ toLe 8 0 ++ toLe 8 0)) false] ∧
          State.PortsBut [p.val] s t ∧ State.KeepsBut [.ports, .out, .ctr] s t) ∧
      (o.rounds = 1 →
        ∃ t, exec (.timeFrameReceive p t1 t2 t3 ⟨true, lack, lretry, v, n, check⟩) s = .next t ∧ (t.port p.val).state = portUp ∧
          (t.port p.val).ofsValid = true ∧ (t.port p.val).offset = BitVec.ofInt 32 b.1 ∧
          (t.port p.val).at_ = BitVec.ofNat 32 s.now ∧ (t.port p.val).rounds = 0 ∧
          (o.state = portMeasure → (t.port p.val).resend = (t.port p.val).replay.length) ∧ queues t ∧
          State.KeepsBut [.ports, .boot, .out, .ctr] s t)) ∧
    (∃ t, exec (.fabricPortReset p) s = .next t ∧
      t.port p.val = { enabled := o.enabled, variant := o.variant, trainDue := o.enabled, txQ := (t.port p.val).txQ } ∧
      queues t ∧ State.KeepsBut [.ports, .ctr, .snap] s t)

/-! ### GDDR6 and paging -/

/-- 12 R303, R305 to R307, R309: a request reaches the block of its address on a channel that serves. Each burst that fails its CRC is
counted and reissued; the fourth failure has the channel retrain, the request waiting. A read answers the 64 bytes of the block and
whether it is poisoned; a masked write replaces the bytes of its mask and no other; a write of the whole block leaves it clean, any
other leaves it as poisoned as its check finds it. The Reserved range keeps nothing. Where the check of a read or a partial write finds
an error it is counted, its event bit is set, and an uncorrectable one poisons the block. A channel that retrains holds requests; one
that has stopped serves none. Said of reads outside areas that the firmware has used, of blocks no waiting request concerns.

12 R303, R307: a channel that retrains without success stops, with CHAN_FAULT, and keeps what waits; one that succeeds serves again: the
burst is reissued, and the requests that wait for the channel are served in their order. A channel that does not retrain is as it was.

12 R305, R313, R314; 08 R217: a page-in that the schedule calls for begins once neither its binding nor one that it evicts works on a
window block and no row of the buffer is in use: the rows of the buffer are update-pending, the buffer holds no page and a paged
binding is on its way; the one dirty row of a write-back buffer is written to its home. When the words are in, the buffer holds them, no row
of it is pending, and it holds the page; a binding whose one page set this is is in. A page-in that met poison holds no page. -/
def Obligations.GddrAndPaging : Prop :=
  (∀ (a b k g ch : Nat) (op : GddrOp) (cls : GddrClass) (ecc r : EccResult) (was : Bool) (s : State),
    b = a / 64 * 64 → b < s.gddr.top → g = s.gddr.controller b → ch = g * 2 + s.gddr.channel b →
    Tab.get s.gddr.state 0 g = 1 → was = Tab.get s.gddr.poison false (a / 64) →
    r = (if s.gddr.ecc = false then .clean else if was then .uncorrectable else ecc) →
    (∀ o ∈ s.gddr.held, o.addr + 64 ≤ b ∨ b + 64 ≤ o.addr) →
    (Tab.get s.gddr.chan 0 ch = 0 → k < 4 →
      ∃ t, exec (.gddrAccess a op cls ecc k) s = .next t ∧
        (0 < k → t.ctrAt Scope.device 0 Ctr.gddrEdcRetry g 0 = satCtr (s.ctrAt Scope.device 0 Ctr.gddrEdcRetry g 0 + k)) ∧
        ((op = .read ∨ ∃ m d, op = .write m d ∧ m.toNat ≠ 2 ^ 64 - 1) →
          Tab.get t.gddr.poison false (a / 64) = (was || r == .uncorrectable || r == .tagMismatch) ∧
          (∀ id bit, (r = .corrected ∧ id = Ctr.gddrEccCorr ∧ bit = 4 ∨ r = .uncorrectable ∧ id = Ctr.gddrEccUncorr ∧ bit = 2 ∨
              r = .tagMismatch ∧ id = Ctr.gddrAddrTagErr ∧ bit = 1) →
            t.ctrAt Scope.device 0 id g 0 = satCtr (s.ctrAt Scope.device 0 id g 0 + 1) ∧
            (bit < 4 → nbit (Tab.get t.gddr.events 0 g) bit = true))) ∧
        (op = .read → s.firmwareUsed b = false → s.firmwareUsed (b + 63) = false →
          t.gddr.readData = memRead s.gddr.mem b 64 ∧ t.gddr.readPoison = Tab.get t.gddr.poison false (a / 64) ∧
          t.gddr.mem = s.gddr.mem) ∧
        (∀ m d, op = .write m d →
          (b + 64 ≤ 0x05200000 ∨ rtxBase ≤ b → memRead t.gddr.mem b 64 = maskBytes m (memRead s.gddr.mem b 64) d) ∧
          (0x05200000 ≤ b → b < rtxBase → t.gddr.mem = s.gddr.mem) ∧
          (m.toNat = 2 ^ 64 - 1 → Tab.get t.gddr.poison false (a / 64) = false) ∧
          (∀ x, x < b ∨ b + 64 ≤ x → memByte t.gddr.mem x = memByte s.gddr.mem x)) ∧
        State.KeepsBut [.gddr, .ctr, .free] s t) ∧
    (Tab.get s.gddr.chan 0 ch = 0 → 4 ≤ k →
      ∃ t, exec (.gddrAccess a op cls ecc k) s = .next t ∧ Tab.get t.gddr.chan 0 ch = 1 ∧
        t.gddr.held = s.gddr.held ++ [{ addr := b, op := op, cls := cls, ecc := ecc }] ∧
        nbit (Tab.get t.gddr.events 0 g) 3 = true ∧ t.gddr.mem = s.gddr.mem ∧
        t.ctrAt Scope.device 0 Ctr.gddrEdcRetry g 0 = satCtr (s.ctrAt Scope.device 0 Ctr.gddrEdcRetry g 0 + 3) ∧
        State.KeepsBut [.gddr, .ctr] s t) ∧
    (Tab.get s.gddr.chan 0 ch = 1 →
      ∃ t, exec (.gddrAccess a op cls ecc k) s = .next t ∧
        t.gddr = { s.gddr with held := s.gddr.held ++ [{ addr := b, op := op, cls := cls, ecc := ecc }] } ∧
        State.KeepsBut [.gddr] s t) ∧
    (2 ≤ Tab.get s.gddr.chan 0 ch → exec (.gddrAccess a op cls ecc k) s = .next s)) ∧
  (∀ (g : GcId) (ch : Bool) (s : State) (n : Nat) (mine : GddrReq → Bool), n = g.val * 2 + b2n ch →
    (∀ q, mine q = (s.gddr.controller q.addr * 2 + s.gddr.channel q.addr == n)) →
    (Tab.get s.gddr.chan 0 n = 1 →
      (∃ t, exec (.gddrChannelRetrain g ch false) s = .next t ∧
        t.gddr = { s.gddr with
          chan := Tab.set s.gddr.chan 0 n 2, events := Tab.set s.gddr.events 0 g.val (nsetBit (Tab.get s.gddr.events 0 g.val) 0) } ∧
        State.KeepsBut [.gddr] s t) ∧
      (∃ t, exec (.gddrChannelRetrain g ch true) s = .next t ∧ Tab.get t.gddr.chan 0 n = 0 ∧
        t.gddr.held = s.gddr.held.filter (fun q => !mine q) ∧
        t.gddr.mem = ((s.gddr.held.filter mine).foldl (fun m q => match q.op with
          | .write w d => m.store (q.addr / 64 * 64) (maskBytes w (memRead m.mem (q.addr / 64 * 64) 64) d)
          | .read => m) s.gddr).mem ∧
        t.ctrAt Scope.device 0 Ctr.gddrEdcRetry g.val 0 = satCtr (s.ctrAt Scope.device 0 Ctr.gddrEdcRetry g.val 0 + 1) ∧
        State.KeepsBut [.gddr, .ctr, .free] s t)) ∧
    (Tab.get s.gddr.chan 0 n ≠ 1 → ∀ ok, exec (.gddrChannelRetrain g ch ok) s = .next s)) ∧
  (∀ (c : CoreId) (set page b : Nat) (p : PageSet) (s : State) (k : CoreSt), k = s.core c.val → s.pageSet c.val set = some p →
    s.sectorRuns (sectorOf c.val) = true → b = k.fillBuf p →
    (Tab.get k.paging 0 set = 0 → k.pageDue p (s.netOf c.val).step = some page → (64 ≤ p.binding ∨ s.bindBusy p.binding = false) →
      k.bufferUsed p b = false → s.evictWaits c.val p b = false →
      ∃ t, exec (.pageInStart c set) s = .next t ∧ Tab.get (t.core c.val).paging 0 set = page + 1 ∧
        Tab.get (t.core c.val).pages 0 (p.key b) = 0 ∧ (∀ i ∈ k.rowsIn (p.base b) p.words, (t.core c.val).rPending i = true) ∧
        (t.core c.val).syn = k.syn ∧ (p.binding < 64 → (t.bind p.binding).state = 3) ∧
        (∀ i h a, p.writeBack = true → Tab.get k.pages 0 (p.key b) = h + 1 → i ∈ k.rowsIn (p.base b) p.words →
          Tab.get k.dirtyRows false i = true → (∀ j ∈ k.rowsIn (p.base b) p.words, j ≠ i → Tab.get k.dirtyRows false j = false) →
          (∀ o ∈ s.pageSets, o.core ≠ c.val ∨ o.num = p.num) → a = p.pageAddr h + 2 * (k.rBase i - p.base b) →
          rtxBase ≤ a → s.gHeld a (2 * k.rLen i) = false →
          Tab.get (t.core c.val).dirtyRows false i = false ∧
          memRead t.gddr.mem a (2 * k.rLen i) = k.synBytes (k.rBase i) (k.rLen i) ∧
          ∀ x, x < a ∨ a + 2 * k.rLen i ≤ x → memByte t.gddr.mem x = memByte s.gddr.mem x) ∧
        (p.writeBack = false → (∀ o ∈ s.pageSets, o.core ≠ c.val ∨ o.num = p.num) → s.SameBytes t) ∧
        State.CoresBut [c.val] s t ∧ State.KeepsBut [.cores, .gddr, .ctr, .binds, .sectors] s t) ∧
    (Tab.get k.paging 0 set = page + 1 → s.gHeld (p.pageAddr page) (2 * p.words) = false →
      ∃ t, exec (.pageInComplete c set) s = .next t ∧ Tab.get (t.core c.val).paging 0 set = 0 ∧
        (s.gPoisoned (p.pageAddr page) (2 * p.words) = false →
          Tab.get (t.core c.val).pages 0 (p.key b) = page + 1 ∧
          (∀ x, x < p.words →
            (t.core c.val).synWord (p.base b + x) = leAt (s.gPeek (p.pageAddr page) (2 * p.words)) (2 * x) 2) ∧
          (∀ x, x < p.base b ∨ p.base b + p.words ≤ x → (t.core c.val).synWord x = k.synWord x) ∧
          (∀ i ∈ k.rowsIn (p.base b) p.words, (t.core c.val).rPending i = false) ∧
          (p.binding < 64 → b < p.bufs → (∀ o ∈ s.pageSets, o.num = set → o.image = p.image → o = p) →
            (t.bind p.binding).state = 1)) ∧
        (s.gPoisoned (p.pageAddr page) (2 * p.words) = true → (t.core c.val).pages = k.pages) ∧
        s.SameBytes t ∧ State.CoresBut [c.val] s t ∧ State.KeepsBut [.cores, .gddr, .ctr, .binds, .sectors] s t))

/-! ### Host interface -/

/-- 13 R331; 16 R420: bytes written to a command slot that is not busy are stored there (those past its end are not) and change nothing
else of the mailbox; a post sets SLOT_BUSY, holds LEN8 and starts a wake. While SLOT_BUSY is 1 bytes are discarded and counted in
MB_SLOT_DISCARD, and a post is ignored and counted in MB_POST_IGNORED. No other mailbox changes.

13 R330, R337: the low half written to MB_CONSUMED is held; the high half takes effect with it, clamped to the highest completed
SEQ: where that is above the present value it replaces it and releases the journal entries up to it, else it is ignored. Nothing
else of the mailbox and no other mailbox changes.

19 R489, R490; 16 R420: a post to MM0 or MM1 is taken when its slot is free, with the endpoint that posts it and 4,096 bytes at most,
and answered with status 3 and counted when it is busy; a read answers the mailbox's registers in the order of their offsets. Each
starts a wake; no other mailbox changes. -/
def Obligations.SlotsAndManagementMailboxes : Prop :=
  (∀ (m : Fin 8) (s : State), s.bar0Open = true →
    (∀ (o : Fin 4096) b x, s.writeActs (mbOffset m.val o.val) true true = true → x = b.take (4096 - o.val) →
      ((s.mb m.val).busy = false →
        ∃ t, exec (.commandSlotWrite m o b) s = .next t ∧ memRead (t.mb m.val).slot o.val x.length = x ∧
          (∀ a, a < o.val ∨ o.val + x.length ≤ a → memByte (t.mb m.val).slot a = memByte (s.mb m.val).slot a) ∧
          t.mb m.val = { s.mb m.val with slot := (t.mb m.val).slot } ∧ State.MbBut [m.val] s t ∧
          State.KeepsBut [.mbox, .ctr] s t) ∧
      ((s.mb m.val).busy = true →
        ∃ t, exec (.commandSlotWrite m o b) s = .next t ∧
          t.ctrAt Scope.mailbox m.val Ctr.mbSlotDiscard noSub 0 =
            satCtr (s.ctrAt Scope.mailbox m.val Ctr.mbSlotDiscard noSub 0 + 1) ∧ State.KeepsBut [.ctr] s t)) ∧
    (∀ v, s.writeActs (mbOffset m.val 0x2000) true true = true →
      ((s.mb m.val).busy = false →
        ∃ t, exec (.mbPost m v) s = .next t ∧ t.mb m.val = { s.mb m.val with busy := true, postLen := fld v 9 0 } ∧
          t.ao = (s.startWake 0).ao ∧ State.MbBut [m.val] s t ∧ State.KeepsBut [.mbox, .ctr, .ao] s t) ∧
      ((s.mb m.val).busy = true →
        ∃ t, exec (.mbPost m v) s = .next t ∧
          t.ctrAt Scope.mailbox m.val Ctr.mbPostIgnored noSub 0 =
            satCtr (s.ctrAt Scope.mailbox m.val Ctr.mbPostIgnored noSub 0 + 1) ∧ State.KeepsBut [.ctr] s t))) ∧
  (∀ (m : Fin 8) (s : State) (v : Word32) (c : Nat), s.bar0Open = true →
    s.writeActs (mbOffset m.val 0x2020) false true = true →
    c = min (v.toNat * 2 ^ 32 + (s.mb m.val).consLow.toNat) (s.mb m.val).highDone →
    (∃ t, exec (.mbConsumedWrite m false v) s = .next t ∧ t.mb m.val = { s.mb m.val with consLow := v } ∧
      State.MbBut [m.val] s t ∧ State.KeepsBut [.mbox, .ctr] s t) ∧
    ((s.mb m.val).consumed < c →
      ∃ t, exec (.mbConsumedWrite m true v) s = .next t ∧
        t.mb m.val = { s.mb m.val with consumed := c, journal := (s.mb m.val).journal.filter fun e => c < e.seq } ∧
        State.MbBut [m.val] s t ∧ State.KeepsBut [.mbox, .ctr] s t) ∧
    (c ≤ (s.mb m.val).consumed → ∃ t, exec (.mbConsumedWrite m true v) s = .next t ∧ State.KeepsBut [.ctr] s t)) ∧
  (∀ (mm : Bool) (s : State) (b : MboxSt), s.vendorUp = true → b = s.mb (mmNumber mm) →
    (∀ ep c, b.busy = false →
      ∃ t, exec (.managementMailboxPost mm ep c) s = .next t ∧
        t.mb (mmNumber mm) =
          { b with busy := true, postLen := c.length / 8, endpoint := ep, slot := memWrite [] 0 (c.take 4096) } ∧
        t.ao = (s.startWake 0).ao ∧ State.MbBut [mmNumber mm] s t ∧ State.KeepsBut [.mbox, .ao] s t) ∧
    (∀ ep c, b.busy = true →
      ∃ t, exec (.managementMailboxPost mm ep c) s = .next t ∧ t.out = s.out ++ [Out.mgmt 0x7E 0x01 [3]] ∧
        t.ctrAt Scope.mailbox (mmNumber mm) Ctr.mbPostIgnored noSub 0 =
          satCtr (s.ctrAt Scope.mailbox (mmNumber mm) Ctr.mbPostIgnored noSub 0 + 1) ∧
        t.ao = (s.startWake 0).ao ∧ State.KeepsBut [.ao, .ctr, .out] s t) ∧
    (∃ t, exec (.managementMailboxRead mm) s = .next t ∧
      t.out = s.out ++ [Out.mgmt 0x7E 0x02 (0 :: (toLe 4 b.statusReg ++ toLe 4 b.acceptReg ++ toLe 8 b.accSeq ++ toLe 8 b.next ++
        toLe 8 b.consumed ++ toLe 4 b.event))] ∧
      t.ao = (s.startWake 0).ao ∧ State.KeepsBut [.ao, .out] s t))

/-- 13 R332, R334: a posted command that carries the next SEQ and passes every check is journaled and accepted: its entry has the
command, the time and its place in the order of acceptance; SLOT_BUSY is 0 again, MB_ACCEPT shows ACCEPTED and the SEQ,
MB_NEXT_SEQ advances, and DECIDED is set. No other mailbox changes.

13 R332, R333: a command with a later SEQ than the next one is refused REFUSED_STATE with reason 1; the refusal has no effect but
the answer and its count, and the journal and every other mailbox stay. -/
def Obligations.MailboxDecisions : Prop :=
  (∀ (m : MboxId) (s : State) (c : List Byte), s.ao.serving = true → s.boot.devReady = true → (s.mb m.val).busy = true →
    c = memRead (s.mb m.val).slot 0 (8 * (s.mb m.val).postLen) → leAt c 0x0A 2 = (s.mb m.val).postLen →
    8 ≤ (s.mb m.val).postLen → (s.mb m.val).postLen ≤ 512 → leAt c 0 8 = (s.mb m.val).next →
    (s.mb m.val).consumed < (s.mb m.val).next → s.decideChecks m.val c = none →
    ∃ t, exec (.mailboxDecision m) s = .next t ∧
      (t.mb m.val).journal = (s.mb m.val).journal ++
        [{ seq := leAt c 0 8, cmd := c, tAccept := s.now, order := s.accepted
           underAuth := isDebugOp (cmdOp c) && s.sec.lc == 2 }] ∧
      t.accepted = s.accepted + 1 ∧ (t.mb m.val).next = (s.mb m.val).next + 1 ∧ (t.mb m.val).busy = false ∧
      (t.mb m.val).accCode = codeAccepted ∧ (t.mb m.val).accSeq = leAt c 0 8 ∧ (t.mb m.val).accDup = false ∧
      nbit (t.mb m.val).event 0 = true ∧ State.MbBut [m.val] s t ∧
      State.KeepsBut [.mbox, .pcie, .out, .ctr, .accepted] s t) ∧
  (∀ (m : MboxId) (s : State) (c : List Byte), s.ao.serving = true → s.boot.devReady = true → (s.mb m.val).busy = true →
    c = memRead (s.mb m.val).slot 0 (8 * (s.mb m.val).postLen) → leAt c 0x0A 2 = (s.mb m.val).postLen →
    8 ≤ (s.mb m.val).postLen → (s.mb m.val).postLen ≤ 512 → (s.mb m.val).next < leAt c 0 8 →
    ∃ t, exec (.mailboxDecision m) s = .next t ∧
      t.mb m.val = { s.mb m.val with
        busy := false, accSeq := leAt c 0 8, accCode := codeState, accReason := 0x0001, accDup := false
        event := nsetBit (s.mb m.val).event 0 } ∧
      t.ctrAt Scope.mailbox m.val Ctr.mbRefused codeState 0 =
        satCtr (s.ctrAt Scope.mailbox m.val Ctr.mbRefused codeState 0 + 1) ∧
      State.MbBut [m.val] s t ∧ State.KeepsBut [.mbox, .pcie, .out, .ctr] s t)

/-- 00 R10; 13 R325; 20 R518; 21 R523, R525: a write of 1 bits to the W1C registers INT_DEV_CAUSE and NET_STEP_STATUS clears them, and
bits written 0 stay; a write of the RW register TRACE_RD sets it; a write of the read-only register CORE_MAP, and one that the device
state keeps from acting, change nothing. Each counts its bytes in PCIE_RX_BYTES.

13 R322: a register page takes naturally aligned accesses of 4 and of 8 bytes only; any other is an Unsupported Request.

21 R521; 18 R463; 15 R395, R396, R399: a write of TIME_MARK holds the time base, a write of HOST_HEARTBEAT restarts the heartbeat. A
write of a register of a timer channel with no match due sets it: its control fields, DIV, COUNT, LIMIT, the compare values, the
units' modes, or the status bits to clear; one of the first four of a channel that a network holds changes nothing and is counted. No
other channel changes. -/
def Obligations.RegisterWrites : Prop :=
  (∀ (s : State) (v : Word64), s.bar0Open = true →
    (s.writeActs 0x100 false false = true →
      ∃ t, exec (.registerWrite 0x100 4 v) s = .next t ∧
        t.pcie = { s.pcie with cause := nclear s.pcie.cause (v.toNat % 2 ^ 32 % 1024) } ∧ State.KeepsBut [.pcie, .ctr] s t) ∧
    (∀ k : NetId, s.writeActs (0x21014 + 0x20 * k.val) false false = true →
      ∃ t, exec (.registerWrite (0x21014 + 0x20 * k.val) 4 v) s = .next t ∧
        t.net k.val = { s.net k.val with events := nclear (s.net k.val).events (nfld (v.toNat % 2 ^ 32) 28 24) } ∧
        State.NetsBut [k.val] s t ∧ State.KeepsBut [.nets, .ctr] s t) ∧
    (∀ n : SectorId, s.writeActs (0x26004 + 0x10 * n.val) false false = true →
      ∃ t, exec (.registerWrite (0x26004 + 0x10 * n.val) 4 v) s = .next t ∧
        t.sector n.val = { s.sector n.val with traceRd := v.toNat % 2 ^ 32 } ∧ State.SectorsBut [n.val] s t ∧
        State.KeepsBut [.sectors, .ctr] s t) ∧
    (∀ o, (∃ c : CoreId, o = 0x20000 + 4 * c.val) ∨ (o = 0x100 ∧ s.writeActs 0x100 false false = false) →
      ∃ t, exec (.registerWrite o 4 v) s = .next t ∧ State.KeepsBut [.ctr] s t ∧
        t.ctrAt Scope.device 0 Ctr.pcieRxBytes noSub 0 = satCtr (s.ctrAt Scope.device 0 Ctr.pcieRxBytes noSub 0 + 4))) ∧
  (∀ (s : State) (o size : Nat) (v : Word64), s.bar0Open = true → regPage o = true → o < 0x400000 →
    ¬ (size = 4 ∧ o % 4 = 0) → ¬ (size = 8 ∧ o % 8 = 0) →
    ∃ t, exec (.registerWrite o size v) s = .next t ∧ t.out = s.out ++ [Out.unsupported] ∧ State.KeepsBut [.out, .ctr] s t) ∧
  (∀ (s : State) (v : Word32), s.bar0Open = true →
    (s.writeActs 0x48 false true = true →
      ∃ t, exec (.timeMark v) s = .next t ∧ t.pcie = { s.pcie with mark := BitVec.ofNat 64 s.now } ∧
        State.KeepsBut [.pcie, .ctr] s t) ∧
    (s.writeActs 0x25008 false true = true →
      ∃ t, exec (.hostHeartbeat v) s = .next t ∧ t.fault = { s.fault with hbLast := s.now } ∧
        State.KeepsBut [.fault, .ctr] s t) ∧
    (∀ (ch : TimerId) (r : Fin 9), s.writeActs (0x23000 + 0x40 * ch.val + 4 * r.val) false false = true →
      (s.tmr ch.val).due false = false → (s.tmr ch.val).due true = false →
      (r.val < 4 → s.tmrLocked ch.val = false) →
      ∃ t, exec (.timerRegisterWrite ch r v) s = .next t ∧
        (r = 0 → (t.tmr ch.val).on = nbit v.toNat 31 ∧ ∀ i, 8 ≤ i → i ≤ 30 → (i = 29 → ch.val % 2 = 1) →
          nbit (t.tmr ch.val).ctrl.toNat i = nbit v.toNat i) ∧
        (r = 1 → (t.tmr ch.val).div = v.toNat % 65536 ∧ (t.tmr ch.val).pre = 0) ∧
        (r = 2 → (t.tmr ch.val).count = v.toNat) ∧ (r = 3 → (t.tmr ch.val).limit = v.toNat) ∧
        (r = 4 → (t.tmr ch.val).snap0 = v.toNat) ∧ (r = 5 → (t.tmr ch.val).snap1 = v.toNat) ∧
        (r = 6 → (t.tmr ch.val).snapcfg = v &&& 0xF8FFF8FF) ∧
        (r = 7 → (t.tmr ch.val).status = nclear (s.tmr ch.val).status (v.toNat % 32)) ∧
        (r ≠ 2 → (t.tmr ch.val).count = (s.tmr ch.val).count) ∧ (r ≠ 3 → (t.tmr ch.val).limit = (s.tmr ch.val).limit) ∧
        (∀ c, c ≠ ch.val → t.tmr c = s.tmr c) ∧ State.KeepsBut [.timers, .ctr] s t) ∧
    (∀ (ch : TimerId) (r : Fin 9), s.writeActs (0x23000 + 0x40 * ch.val + 4 * r.val) false false = true →
      (s.tmr ch.val).due false = false → (s.tmr ch.val).due true = false → r.val < 4 → s.tmrLocked ch.val = true →
      ∃ t, exec (.timerRegisterWrite ch r v) s = .next t ∧
        t.ctrAt Scope.device 0 Ctr.tmrWriteLocked ch.val 0 =
          satCtr (s.ctrAt Scope.device 0 Ctr.tmrWriteLocked ch.val 0 + 1) ∧ State.KeepsBut [.ctr] s t))

/-- 21 R521, R522, R525; 13 R330; 20 R507: a read of the low half of a 64-bit register answers it and holds the high half for the next
read. Where the device state keeps the register from answering, what is held does not change, and the read finds what R525 gives
it.

13 R327; 15 R395, R398; 21 R525: a read of FLOW_EVENT that reaches the FIFO takes its oldest entry, and answers 0 where there is none.
A read of a channel's count answers it, of an even channel holding the count of the odd one; a read of a capture unit answers its
value and clears its FRESH bit. Where the register does not answer, nothing is held, taken or cleared. -/
def Obligations.RegisterReads : Prop :=
  (∀ s : State, s.bar0Open = true →
    (∃ t, exec .timeLoRead s = .next t ∧ State.KeepsBut [.ao, .ctr, .out] s t ∧
      t.out = s.out ++ [Out.readData (toLe 4 (if s.readActs 0x40 then s.now % 2 ^ 32 else s.regRead 0x40))] ∧
      (s.readActs 0x40 = true → t.ao = { s.ao with timeHi := BitVec.ofNat 32 (s.now / 2 ^ 32) }) ∧
      (s.readActs 0x40 = false → t.ao = s.ao)) ∧
    (∃ t, exec .timeMarkLoRead s = .next t ∧ State.KeepsBut [.pcie, .ctr, .out] s t ∧
      t.out = s.out ++ [Out.readData (toLe 4 (if s.readActs 0x50 then fld s.pcie.mark 31 0 else s.regRead 0x50))] ∧
      (s.readActs 0x50 = true → t.pcie = { s.pcie with markHi := BitVec.ofNat 32 (fld s.pcie.mark 63 32) }) ∧
      (s.readActs 0x50 = false → t.pcie = s.pcie)) ∧
    (∀ (k : NetId) (o : Nat), o = 0x21000 + 0x20 * k.val →
      ∃ t, exec (.netStepLoRead k) s = .next t ∧ State.KeepsBut [.nets, .ctr, .out] s t ∧ State.NetsBut [k.val] s t ∧
        t.out = s.out ++ [Out.readData (toLe 4 (if s.readActs o then (s.net k.val).step % 2 ^ 32 else s.regRead o))] ∧
        (s.readActs o = true → t.net k.val = { s.net k.val with
          stepHi := BitVec.ofNat 32 ((s.net k.val).step / 2 ^ 32) }) ∧
        (s.readActs o = false → t.nets = s.nets)) ∧
    (∀ (m : Fin 8) (r : Fin 3) (o : Nat), o = mbOffset m.val (0x2010 + 8 * r.val) →
      ∃ t, exec (.mailboxRegisterLowRead m r) s = .next t ∧ State.KeepsBut [.mbox, .ctr, .out] s t ∧
        State.MbBut [m.val] s t ∧
        t.out = s.out ++ [Out.readData (toLe 4 (if s.readActs o then (s.mb m.val).wide r.val % 2 ^ 32 else s.regRead o))] ∧
        (s.readActs o = true → Tab.get (t.mb m.val).latch 0 r.val = BitVec.ofNat 32 ((s.mb m.val).wide r.val / 2 ^ 32) ∧
          t.mb m.val = { s.mb m.val with latch := (t.mb m.val).latch }) ∧
        (s.readActs o = false → t.mbox = s.mbox)) ∧
    (∀ o, 0x200000 ≤ o / 4 * 4 → o / 4 * 4 < 0x400000 →
      ∃ t, exec (.counterSlotLowRead o) s = .next t ∧ State.KeepsBut [.pcie, .ctr, .out] s t ∧
        t.out = s.out ++ [Out.readData (toLe 4 (s.regRead (o / 4 * 4)))] ∧
        (∀ sc i p, s.readActs (o / 4 * 4) = true → ctrPlace (o / 4 * 4) = some (sc, i, p) → isCtrLow p = true →
          s.regRead (o / 4 * 4) = leAt (s.ctrBlock sc i) p 4 ∧
          Tab.get t.pcie.ctrLatch 0 (o / 4 * 4) = BitVec.ofNat 32 (leAt (s.ctrBlock sc i) (p + 4) 4)) ∧
        (s.readActs (o / 4 * 4) = false → t.pcie = s.pcie))) ∧
  (∀ s : State, s.bar0Open = true →
    (∃ t, exec .flowEventPop s = .next t ∧ State.KeepsBut [.pcie, .ctr, .out] s t ∧
      (s.readActs 0x1010 = false → t.pcie = s.pcie ∧ t.out = s.out ++ [Out.readData (toLe 4 (s.regRead 0x1010))]) ∧
      (s.readActs 0x1010 = true → s.pcie.flowEv = [] → t.pcie = s.pcie ∧ t.out = s.out ++ [Out.readData [0, 0, 0, 0]]) ∧
      (∀ x l, s.readActs 0x1010 = true → s.pcie.flowEv = x :: l → t.pcie = { s.pcie with flowEv := l, flowOvf := false } ∧
        t.out = s.out ++ [Out.readData (toLe 4 (2 ^ 31 + flagAt 30 s.pcie.flowOvf + bitsAt 28 x.1 + x.2))])) ∧
    (∀ (ch : TimerId) (o : Nat), o = 0x23008 + 0x40 * ch.val →
      ∃ t, exec (.tmrCountRead ch) s = .next t ∧ State.KeepsBut [.timers, .ctr, .out] s t ∧
        t.out = s.out ++ [Out.readData (toLe 4 (if s.readActs o then (s.tmr ch.val).count else s.regRead o))] ∧
        (s.readActs o = true → ch.val % 2 = 0 → t.tmr ch.val = { s.tmr ch.val with pairHi := (s.tmr (ch.val + 1)).count }) ∧
        (s.readActs o = false ∨ ch.val % 2 = 1 → t.timers = s.timers) ∧ (∀ c, c ≠ ch.val → t.tmr c = s.tmr c)) ∧
    (∀ (ch : TimerId) (u : Bool) (o : Nat), o = 0x23010 + 0x40 * ch.val + 4 * b2n u →
      ∃ t, exec (.tmrSnapRead ch u) s = .next t ∧ State.KeepsBut [.timers, .ctr, .out] s t ∧
        t.out = s.out ++ [Out.readData (toLe 4 (if s.readActs o then (s.tmr ch.val).snap u else s.regRead o))] ∧
        (s.readActs o = true → isCapture ((s.tmr ch.val).mode u) = true →
          t.tmr ch.val = { s.tmr ch.val with status := nput (s.tmr ch.val).status (1 + b2n u) (1 + b2n u) 0 }) ∧
        (s.readActs o = false ∨ isCapture ((s.tmr ch.val).mode u) = false → t.timers = s.timers) ∧
        (∀ c, c ≠ ch.val → t.tmr c = s.tmr c)))

/-- 12 R303, R317; 13 R323, R325; 16 R421: outside P3 a write through BAR2 of bytes of blocks that the host may write, none of whose
channels retrains, stores them in GDDR6 and changes no other byte; one of blocks that it may not write is discarded, each block
counted in GDDR_HOST_DENIED; a read answers the bytes of the blocks that the host may read, or goes out poisoned and is reported,
and changes no byte. In P3 each is an Unsupported Request. -/
def Obligations.HostWindowReachesGddr : Prop :=
  ∀ (s : State) (o a : Nat), s.bar0Open = true → s.pcie.window o = some a →
    (s.ao.pstate ≠ 3 →
      (∀ b, s.gHeld a b.length = false → (∀ x ∈ blockSpan a b.length, s.hostMayWrite (x.1 * 64) = true) →
        ∃ t, exec (.hostWindowWrite o b) s = .next t ∧ memRead t.gddr.mem a b.length = b ∧
          (∀ x, x < a ∨ a + b.length ≤ x → memByte t.gddr.mem x = memByte s.gddr.mem x) ∧
          State.KeepsBut [.gddr, .ctr] s t) ∧
      (∀ b, (∀ x ∈ blockSpan a b.length, s.hostMayWrite (x.1 * 64) = false) →
        ∃ t, exec (.hostWindowWrite o b) s = .next t ∧
          (b ≠ [] → t.ctrAt Scope.device 0 Ctr.gddrHostDenied noSub 0 =
            satCtr (s.ctrAt Scope.device 0 Ctr.gddrHostDenied noSub 0 + (blockSpan a b.length).length)) ∧
          State.KeepsBut [.ctr] s t) ∧
      (∀ len, s.gHeld a len = false →
        ∃ t, exec (.hostWindowRead o len) s = .next t ∧ t.gddr.mem = s.gddr.mem ∧
          (s.windowPoison a len = false → t.out = s.out ++ [Out.readData (s.windowBytes a len).1]) ∧
          (s.windowPoison a len = true → t.out = s.out ++ [Out.readPoisoned len, .aer aerPoisonOut]) ∧
          State.KeepsBut [.gddr, .ctr, .out, .free] s t)) ∧
    (s.ao.pstate = 3 →
      (∀ b, ∃ t, exec (.hostWindowWrite o b) s = .next t ∧ t.out = s.out ++ [Out.unsupported] ∧ State.KeepsBut [.out] s t) ∧
      (∀ len, ∃ t, exec (.hostWindowRead o len) s = .next t ∧ t.out = s.out ++ [Out.unsupported] ∧ State.KeepsBut [.out] s t))

/-- 13 R320, R321, R323, R324; 17 R440; 21 R524: a TLP that fails ECRC where that is on, or a poisoned one, is reported; the link comes up
after reset, and goes down with its configuration space at reset; configuration requests set what they name and are answered, and
until the firmware is verified they are retried; a vector that is unmasked sends what was pending. -/
def Obligations.LinkAndConfiguration : Prop :=
  (∀ (s : State), s.pcie.linkUp = true →
    (∃ t, exec (.pcieTlpDiscard .poisonedWrite) s = .next t ∧ t.out = s.out ++ [Out.aer aerPoisonIn] ∧
      State.KeepsBut [.out] s t) ∧
    (∃ t, exec (.pcieTlpDiscard .ecrc) s = .next t ∧ t.out = (if s.pcie.ecrc then s.out ++ [Out.aer aerEcrc] else s.out) ∧
      State.KeepsBut [.out] s t)) ∧
  (∀ (s : State) (k : LinkResetKind), s.pcie.linkUp = true →
    ∃ t, exec (.pcieLinkReset k) s = .next t ∧
      t.pcie = { s.pcie with
        linkUp := false, bar0 := 0, bar2 := 0, bar2Log := 0, busMaster := false, msixEn := false, fmask := false
        msixTab := [], pba := 0, d3 := false, ecrc := false } ∧ State.KeepsBut [.pcie] s t) ∧
  (∀ (s : State), s.ao.porReleased = true → s.ao.inReset = false → s.ao.perstHigh = true → s.ao.resetHigh = true →
    (s.boot.cold = true → s.boot.next ≠ 1) →
    ∃ t, exec .pcieLinkUp s = .next t ∧ t.pcie = { s.pcie with linkUp := true } ∧ State.KeepsBut [.pcie] s t) ∧
  (∀ (s : State), s.pcie.linkUp = true → s.ao.inReset = false → s.boot.fwVerified = true ∨ s.boot.phase = 9 →
    (∀ d3, ∃ t, exec (.pcieConfigurationRequest (.setPowerD3hot d3)) s = .next t ∧ t.pcie = { s.pcie with d3 := d3 } ∧
      t.out = s.out ++ [Out.configDone 0] ∧ State.KeepsBut [.pcie, .out] s t) ∧
    (∀ on, ∃ t, exec (.pcieConfigurationRequest (.setEcrc on)) s = .next t ∧ t.pcie = { s.pcie with ecrc := on } ∧
      t.out = s.out ++ [Out.configDone 0] ∧ State.KeepsBut [.pcie, .out] s t) ∧
    (∀ base, ∃ t, exec (.pcieConfigurationRequest (.setBar0 base)) s = .next t ∧
      t.pcie = { s.pcie with bar0 := put base 23 0 0 } ∧ t.out = s.out ++ [Out.configDone 0] ∧
      State.KeepsBut [.pcie, .out] s t) ∧
    (∀ k : Fin 9, ∀ base, ∃ t, exec (.pcieConfigurationRequest (.setBar2 base k)) s = .next t ∧
      t.pcie = { s.pcie with bar2 := put base (27 + k.val) 0 0, bar2Log := k.val } ∧ t.out = s.out ++ [Out.configDone 0] ∧
      State.KeepsBut [.pcie, .out] s t) ∧
    (∀ on, ∃ t, exec (.pcieConfigurationRequest (.setBusMaster on)) s = .next t ∧ t.pcie.busMaster = on ∧
      State.KeepsBut [.pcie, .out, .ctr] s t) ∧
    (∀ on mask, ∃ t, exec (.pcieConfigurationRequest (.setMsixEnable on mask)) s = .next t ∧ t.pcie.msixEn = on ∧
      t.pcie.fmask = mask ∧ State.KeepsBut [.pcie, .out, .ctr] s t) ∧
    (∀ o, ∃ t w, exec (.pcieConfigurationRequest (.read o)) s = .next t ∧ t.out = s.out ++ [Out.configDone w] ∧
      (o = 0 → fld w 31 16 = 0x0128) ∧ State.KeepsBut [.out, .free] s t)) ∧
  (∀ (s : State), s.pcie.linkUp = true → s.ao.inReset = false → s.boot.fwVerified = false → s.boot.phase ≠ 9 →
    ∀ op, ∃ t, exec (.pcieConfigurationRequest op) s = .next t ∧ t.out = s.out ++ [Out.configRetry] ∧
      State.KeepsBut [.out] s t) ∧
  (∀ (s : State) (v : Fin 64), s.bar0Open = true →
    ∃ t, exec (.msixVectorUnmask v) s = .next t ∧ t.msixMasked v.val = false ∧
      (nbit s.pcie.pba.toNat v.val = true → s.pcie.fmask = false → s.pcie.msixEn = true → s.pcie.busMaster = true →
        t.out = s.out ++ [Out.msix v.val] ∧ nbit t.pcie.pba.toNat v.val = false) ∧
      (nbit s.pcie.pba.toNat v.val = false → t.out = s.out) ∧ State.KeepsBut [.pcie, .ctr, .out] s t)

/-! ### Mailbox commands -/

/-- 13 R336, R339, R340; 14 R350, R351, R372: HELLO opens the session, grants what is asked and supported and shows versions, epoch and
grant in INLINE; GET_INFO answers the page it names and READ_COUNTERS the block it names, whose slots CLEAR sets to 0; each completes
DONE. No other mailbox and nothing beyond the mailbox, what is sent and its counters changes (CLEAR of a core's block also clears its
performance counters).

13 R339: a HELLO without a common interface version is refused REFUSED_VERSION; it opens no session and grants nothing. -/
def Obligations.SessionCommands : Prop :=
  (∀ (m : MboxId) (s : State) (e : JEntry),
    (s.Ready m.val 0x01 e → leAt e.cmd 0x40 1 ≤ 1 → 1 ≤ leAt e.cmd 0x41 1 →
      ∃ t, exec (.hello m) s = .next t ∧
        s.Completes t m.val e codeDone 0
          (toLe 1 1 ++ toLe 1 0 ++ toLe 1 1 ++ toLe 1 0 ++ toLe 4 s.ao.epoch ++ toLe 16 (s.grant (leAt e.cmd 0x48 16))) ∧
        (t.mb m.val).session = true ∧ (t.mb m.val).granted = BitVec.ofNat 128 (s.grant (leAt e.cmd 0x48 16)) ∧
        State.KeepsBut mailParts s t) ∧
    (s.Ready m.val 0x02 e →
      ∃ t, exec (.getInfo m) s = .next t ∧ s.AnswersWith t m.val e (s.infoPage (leAt e.cmd 0x40 2)) ∧
        State.KeepsBut mailParts s t) ∧
    (∀ sc i, sc = leAt e.cmd 0x40 1 → i = leAt e.cmd 0x44 4 → s.Ready m.val 0x61 e →
      (leAt e.cmd 0x41 1 ≠ 1 →
        ∃ t, exec (.readCounters m) s = .next t ∧ s.AnswersWith t m.val e (s.ctrBlock sc i) ∧ State.KeepsBut mailParts s t) ∧
      (leAt e.cmd 0x41 1 = 1 →
        ∃ t, exec (.readCounters m) s = .next t ∧ s.AnswersWith t m.val e (s.ctrBlock sc i) ∧
          (sc ≠ Scope.device → ∀ x ∈ s.slots sc i, x.id < 0x300 → t.ctrAt sc i x.id x.sub x.kind = 0) ∧
          (sc ≠ Scope.core → t.cores = s.cores) ∧ State.KeepsBut (mailParts ++ [Part.cores]) s t))) ∧
  (∀ (m : MboxId) (s : State) (e : JEntry), s.Ready m.val 0x01 e →
    (1 < leAt e.cmd 0x40 1 ∨ leAt e.cmd 0x41 1 < 1) →
    ∃ t, exec (.hello m) s = .next t ∧ s.Completes t m.val e codeVersion Why.noCommonVersion ∧
      (t.mb m.val).session = (s.mb m.val).session ∧ (t.mb m.val).granted = (s.mb m.val).granted ∧
      State.KeepsBut mailParts s t)

/-- 14 R361, R362; 05 R135, R136: on a loaded network that is not shed SET_STEP_SOURCE sets a source that fits it, a TIMER channel
running free at the period from 0; on a running network it takes effect at the next opening (an IMMEDIATE one may open at once: not
said). RUN starts a halted network with a source of ticks; HALT_RUN completes with INLINE 1 on a halted one, waits for the end of its
step on a running one, and halts it at once with INLINE 0 where every core has ended its step. No other network changes.

14 R362: RUN of a network that is blocked is refused CORE_UNAVAILABLE, of one without a step source NO_SOURCE, and of one that
runs NET_RUNNING; the network is as it was. -/
def Obligations.NetworkCommands : Prop :=
  (∀ (m : MboxId) (s : State) (e : JEntry) (k : Nat), k = cmdNet e.cmd → (s.net k).image ≠ 0 → (s.net k).shed = false →
    (∀ kind ch p, kind = leAt e.cmd 0x40 1 → ch = (if kind = 3 then 0 else leAt e.cmd 0x41 1) → p = leAt e.cmd 0x44 4 →
      s.Ready m.val 0x22 e → s.sourceFits k kind p = true → (kind ≠ 3 → s.channelTaken k ch = false) →
      (kind = 2 → (s.tmr ch).slavedTo ch (leAt e.cmd 0x42 1) = true) →
      ((s.net k).running = false →
        ∃ t, exec (.setStepSource m) s = .next t ∧ s.Completes t m.val e codeDone 0 ∧
          t.net k = { s.net k with source := { kind := kind, ch := ch, period := p }, nextSource := none } ∧
          State.NetsBut [k] s t ∧
          (kind = 1 → (t.tmr ch).limit = p - 1 ∧ (t.tmr ch).on = true ∧ (t.tmr ch).count = 0 ∧ (t.tmr ch).div = 0 ∧
            (t.tmr ch).pre = 0) ∧
          (∀ c, c ≠ ch ∨ kind ≠ 1 → t.tmr c = s.tmr c) ∧ State.KeepsBut (mailParts ++ [Part.nets, .timers]) s t) ∧
      ((s.net k).running = true → kind ≠ 3 →
        ∃ t, exec (.setStepSource m) s = .next t ∧ s.Completes t m.val e codeDone 0 ∧
          t.net k = { s.net k with nextSource := some { kind := kind, ch := ch, period := p }, tickHeld := false } ∧
          State.NetsBut [k] s t ∧ State.KeepsBut (mailParts ++ [Part.nets, .timers]) s t)) ∧
    (s.Ready m.val 0x23 e → (s.net k).blocked = false → (s.net k).source.kind ≠ 0 → (s.net k).source.kind ≠ 3 →
      (s.net k).running = false →
      ∃ t, exec (.run m) s = .next t ∧ s.Completes t m.val e codeDone 0 ∧ (t.net k).running = true ∧
        (t.net k).everRun = true ∧ (t.net k).step = (s.net k).step ∧ (t.net k).source = (s.net k).source ∧
        State.NetsBut [k] s t ∧ ((s.net k).everRun = true → t.cores = s.cores) ∧
        (∀ c, (s.core c).net ≠ k + 1 → t.core c = s.core c) ∧ State.KeepsBut (mailParts ++ [Part.nets, .cores]) s t) ∧
    (s.Ready m.val 0x24 e → (s.net k).running = false →
      ∃ t, exec (.haltRun m) s = .next t ∧ s.Completes t m.val e codeDone 0 [1] ∧ State.KeepsBut mailParts s t) ∧
    (s.Ready m.val 0x24 e → (s.net k).running = true →
      ((s.net k).cores.all fun c => (s.core c).stepOver) = false ∨ s.migrating k = true →
      ∃ t, exec (.haltRun m) s = .next t ∧ t.Executing m.val e ∧ t.net k = { s.net k with halting := m.val + 1 } ∧
        State.NetsBut [k] s t ∧ State.KeepsBut [.mbox, .nets] s t) ∧
    (s.Ready m.val 0x24 e → (s.net k).running = true → ((s.net k).cores.all fun c => (s.core c).stepOver) = true →
      s.migrating k = false → (∀ c, c ∈ (s.net k).cores → (s.core c).snapWait = 0) →
      ∃ t, exec (.haltRun m) s = .next t ∧ s.Completes t m.val e codeDone 0 [0] ∧
        (t.net k).running = false ∧ (t.net k).halting = 0 ∧ (t.net k).step = (s.net k).step ∧
        State.NetsBut [k] s t ∧ State.KeepsBut (mailParts ++ [Part.nets, .cores, .snap]) s t)) ∧
  (∀ (m : MboxId) (s : State) (e : JEntry) (k why : Nat), k = cmdNet e.cmd → s.Ready m.val 0x23 e → (s.net k).image ≠ 0 →
    (s.net k).shed = false →
    ((s.net k).blocked = true ∧ why = Why.coreUnavailable ∨
      (s.net k).blocked = false ∧ (s.net k).source.kind = 0 ∧ why = Why.noSource ∨
      (s.net k).blocked = false ∧ (s.net k).source.kind ≠ 0 ∧ (s.net k).running = true ∧ why = Why.netRunning) →
    ∃ t, exec (.run m) s = .next t ∧ s.Completes t m.val e codeState why ∧ State.KeepsBut mailParts s t)

/-- 14 R373; 18 R462 to R464, R468: SET_ENSIGN designates an ensign network with its triggers and heartbeat time. ENTER_ENSIGN with
the mode inactive, in P0 or P1, enters it: ENSIGN with cause 5, every line output at its ENS_INIT state, every other loaded network
shed, and the ensign network runs (unless a FATAL fault stands); where the others are shed already and it runs already, nothing but
the mode, the pins, counters and what is sent changes. ENTER_ENSIGN of an active mode and LEAVE_ENSIGN of an inactive one complete
DONE without effect. LEAVE_ENSIGN of an active mode without a trigger that holds ends it; with one it is refused TRIGGER_ACTIVE.

15 R379, R380: on a halted network BIND_STREAM binds a free context, with the command's fields and an empty window, to an ingest
function that agrees with it, and UNBIND_STREAM frees a bound one with its window and its posts; on a running network both wait for
the next opening. No other context changes. -/
def Obligations.EnsignAndStreamCommands : Prop :=
  (∀ (m : MboxId) (s : State) (e : JEntry),
    (s.Ready m.val 0x70 e → (s.net (cmdNet e.cmd)).image ≠ 0 → (s.net (cmdNet e.cmd)).shed = false →
      (s.net (cmdNet e.cmd)).isEnsign = true → s.fault.ensActive = false →
      ∃ t, exec (.setEnsign m) s = .next t ∧ s.Completes t m.val e codeDone 0 ∧
        t.fault = { s.fault with ensSet := true, ensNet := cmdNet e.cmd, ensEnabled := leAt e.cmd 0x40 1 % 16
                                 hbMs := leAt e.cmd 0x44 4, hbLast := s.now } ∧
        State.KeepsBut (mailParts ++ [Part.fault]) s t) ∧
    (s.Ready m.val 0x71 e → s.fault.ensSet = true → s.fault.ensActive = false → s.ao.ensignPending = 0 → s.ao.pstate < 2 →
      (∃ t, exec (.enterEnsign m) s = .next t ∧ (∃ x ∈ (t.mb m.val).journal, x.seq = e.seq ∧ x.st = 2) ∧
        t.fault.ensActive = true ∧ t.fault.ensCause = 5 ∧ (∀ p, p < 8 → (t.lout p).asserted = (s.lout p).ensInit) ∧
        (∀ k, k < 16 → (s.net k).image ≠ 0 → k ≠ s.fault.ensNet → (t.net k).shed = true) ∧
        (s.fault.fatal = false → (t.net s.fault.ensNet).running = true)) ∧
      ((∀ k, k ≠ s.fault.ensNet → (s.net k).image = 0 ∨ (s.net k).shed = true) → (s.net s.fault.ensNet).running = true →
        ∃ t, exec (.enterEnsign m) s = .next t ∧ s.Completes t m.val e codeDone 0 ∧
          t.ctrAt Scope.device 0 Ctr.ensignEntry noSub 0 =
            satCtr (s.ctrAt Scope.device 0 Ctr.ensignEntry noSub 0 + 1) ∧
          State.KeepsBut (mailParts ++ [Part.fault, .louts]) s t)) ∧
    (s.Ready m.val 0x71 e → s.fault.ensSet = true → s.fault.ensActive = true →
      ∃ t, exec (.enterEnsign m) s = .next t ∧ s.Completes t m.val e codeDone 0 ∧ State.KeepsBut mailParts s t) ∧
    (s.Ready m.val 0x72 e → s.fault.ensActive = false →
      ∃ t, exec (.leaveEnsign m) s = .next t ∧ s.Completes t m.val e codeDone 0 ∧ State.KeepsBut mailParts s t) ∧
    (s.Ready m.val 0x72 e → s.fault.ensActive = true → ((upTo 4).any s.trigHolds) = false →
      ∃ t, exec (.leaveEnsign m) s = .next t ∧ (∃ x ∈ (t.mb m.val).journal, x.seq = e.seq ∧ x.st = 2) ∧
        t.fault.ensActive = false ∧
        ((∀ k, (s.net k).shed = false) → s.Completes t m.val e codeDone 0 ∧ State.KeepsBut (mailParts ++ [Part.fault]) s t)) ∧
    (s.Ready m.val 0x72 e → s.fault.ensActive = true → ((upTo 4).any s.trigHolds) = true →
      ∃ t, exec (.leaveEnsign m) s = .next t ∧ s.Completes t m.val e codeState Why.triggerActive ∧
        State.KeepsBut mailParts s t)) ∧
  (∀ (m : MboxId) (s : State) (e : JEntry) (k n : Nat), k = cmdNet e.cmd → n = leAt e.cmd 0x40 1 →
    (s.net k).image ≠ 0 → (s.net k).shed = false →
    (s.Ready m.val 0x20 e → (s.stc n).bound = false → (s.stc n).bindWait = 0 → s.bindFits k n e.cmd = true →
      ((s.net k).running = false →
        ∃ t, exec (.bindStream m) s = .next t ∧ s.Completes t m.val e codeDone 0 ∧
          t.stc n = { s.stc n with
            bound := true, skind := leAt e.cmd 0x41 1, net := k, ifn := leAt e.cmd 0x42 2, resLog2 := leAt e.cmd 0x50 1
            resAddr := leAt e.cmd 0x48 8, thresh := leAt e.cmd 0x54 2, bindWait := 0, win := [], posted := [], refs := []
            prod := 0, cons := 0 } ∧
          (∀ j, j ≠ n → t.stc j = s.stc j) ∧ State.KeepsBut (mailParts ++ [Part.stcs]) s t) ∧
      ((s.net k).running = true →
        ∃ t, exec (.bindStream m) s = .next t ∧ t.Executing m.val e ∧
          t.stc n = { s.stc n with bindWait := m.val + 1, net := k, ifn := leAt e.cmd 0x42 2 } ∧
          (∀ j, j ≠ n → t.stc j = s.stc j) ∧ State.KeepsBut [.mbox, .stcs] s t)) ∧
    (s.Ready m.val 0x21 e → (s.stc n).bound = true → (s.stc n).net = k →
      ((s.net k).running = false →
        ∃ t, exec (.unbindStream m) s = .next t ∧ s.Completes t m.val e codeDone 0 ∧ (t.stc n).bound = false ∧
          (t.stc n).posted = [] ∧ (t.stc n).win = [] ∧ (∀ j, j ≠ n → t.stc j = s.stc j) ∧
          State.KeepsBut (mailParts ++ [Part.stcs]) s t) ∧
      ((s.net k).running = true →
        ∃ t, exec (.unbindStream m) s = .next t ∧ t.Executing m.val e ∧
          t.stc n = { s.stc n with unbindWait := m.val + 1 } ∧ (∀ j, j ≠ n → t.stc j = s.stc j) ∧
          State.KeepsBut [.mbox, .stcs] s t)))

/-- 14 R356, R358, R359; 12 R311: LOAD_IMAGE of a fabric image that can be read and passes its checks sets DEVICE_ID (unless that
changes with flows open: not said) and the route table; of a compute image that passes them it fills the lowest free slots, one for
each network, halted, without a source and at step 0; either image gets a handle, which INLINE shows with the slots and the digest.
UNLOAD_IMAGE of an image no network of which runs and whose slots have no open flow frees its slots, its cores, its regions and its
handle, and leaves the contents of GDDR6 and of sector memory. -/
def Obligations.ImagesLoadAndUnload : Prop :=
  ∀ (m : MboxId) (s : State) (e : JEntry),
    (∀ b l g, s.Ready m.val 0x10 e →
      (leAt e.cmd 0x40 1 = 1 → s.gddr.imageBase ≤ leAt e.cmd 0x48 8 ∧ leAt e.cmd 0x48 8 + leAt e.cmd 0x50 8 ≤ s.gddr.top) →
      (s.imageSource e.cmd b).2 = some l →
      nbit (leAt e.cmd 0x41 1) 0 = false ∨ sha512 l = (e.cmd.drop 0x70).take 64 →
      parseImage l (leAt e.cmd 0x50 8) = .ok g → s.featureChk m.val g.cand = none →
      (g.kind = 1 → g.fabricChk = none →
        leAt (g.body 0x20 0xFFFF) 0 2 = s.deviceId ∨ (s.flows.any fun f => f.2.fstate != 0) = false →
        ∃ t, exec (.loadImage m b) s = .next t ∧
          s.Completes t m.val e codeDone 0 (toLe 2 s.freeHandle ++ toLe 2 0 ++ (sha512 l).take 20) ∧
          t.deviceId = leAt (g.body 0x20 0xFFFF) 0 2 ∧
          t.routes = halfTab 0 ((numbers 2 ((g.body 0x20 0xFFFF).drop 8)).map fun x => x / 4 * 4) ∧
          Tab.get t.images {} s.freeHandle = { kind := 1, bytes := g.bytes, digest := sha512 l } ∧
          t.gddr.mem = s.gddr.mem ∧
          State.KeepsBut (mailParts ++ [Part.deviceId, .routes, .sec, .images, .nextHandle, .ports, .gddr]) s t) ∧
      (∀ slots, slots = s.freeSlots.take g.cand.nets.length → g.kind ≠ 1 →
        ((g.cand.validity).or (s.expertChk g.cand)).or (s.fitChk g.cand (loadAvoid e.cmd)) = none →
        ∃ t, exec (.loadImage m b) s = .next t ∧
          s.Completes t m.val e codeDone 0 (toLe 2 s.freeHandle ++ toLe 2 (slots.foldl (fun b k => nsetBit b k) 0) ++
            (sha512 l).take 20) ∧
          Tab.get t.images {} s.freeHandle = { bytes := g.bytes, digest := sha512 l, slots := slots } ∧
          (∀ x ∈ g.cand.nets.zip slots, t.net x.2 = g.netSt s.freeHandle (sha512 l) x.1) ∧
          State.NetsBut slots s t ∧
          State.KeepsBut (mailParts ++ [Part.images, .nextHandle, .nets, .cores, .sectors, .regions, .gddr, .pageSets, .groups,
            .binds, .dpack, .rpack, .combs, .rfns, .flows]) s t)) ∧
    (∀ h slots, h = leAt e.cmd 0x40 2 → slots = (Tab.get s.images {} h).slots → s.Ready m.val 0x11 e →
      (Tab.keys s.images).contains h = true → (∀ k, k ∈ slots → (s.net k).running = false) →
      (∀ f, f ∈ s.flows → f.2.fstate = flowClosed ∨ f.2.net ∉ slots) →
      ∃ t, exec (.unloadImage m) s = .next t ∧ s.Completes t m.val e codeDone 0 ∧
        (Tab.keys t.images).contains h = false ∧ (∀ k, k ∈ slots → t.net k = {}) ∧ State.NetsBut slots s t ∧
        (∀ c, (s.core c).image = h → (t.core c).image = 0 ∧ (t.core c).net = 0) ∧
        t.regions = s.regions.filter (fun r => r.image != h) ∧ s.SameBytes t ∧
        (∀ i, t.flow i = { s.flow i with cacheSize := (t.flow i).cacheSize }) ∧
        (∀ g r, s.imageOf h = some g → r ∈ g.recs → r.kind = 0x0306 → (t.flow r.num).cacheSize = 0) ∧
        State.KeepsBut (mailParts ++ [Part.images, .nets, .cores, .sectors, .regions, .stcs, .fault, .pageSets, .groups, .binds,
          .tok, .dpack, .rpack, .combs, .rfns, .expand, .flows]) s t)

/-- 14 R363 to R367; 07 R183, R185: on a halted network READ_WEIGHTS answers the block of rows that a core has, of stored weights or of
the gradient of a core that accumulates, and changes none; WRITE_WEIGHTS of a block that fits, no row of which LEARN holds or a
READ_WEIGHTS waits for, completes and changes no other core; APPLY_UPDATES of a network that accumulates, outside a replica group,
completes and changes no core of another network; CHECKPOINT to a region of the image is kept with the step and position, and INLINE
shows its place; RESTORE from the bytes of a checkpoint of this image sets the step and position of this network and of no other. -/
def Obligations.WeightCommandsComplete : Prop :=
  ∀ (m : MboxId) (s : State) (e : JEntry) (k : Nat), k = cmdNet e.cmd → (s.net k).image ≠ 0 → (s.net k).shed = false →
    (s.net k).running = false →
    (∀ c a n, c = leAt e.cmd 0x40 2 → a = leAt e.cmd 0x42 2 → n = leAt e.cmd 0x44 2 → s.Ready m.val 0x31 e →
      (s.net k).cores.contains c = true → a + n ≤ (s.core c).nRows →
      (leAt e.cmd 0x46 1 = 1 → 2 ≤ fld (s.core c).trainCfg 31 30) →
      ∃ t, exec (.readWeights m) s = .next t ∧
        s.AnswersWith t m.val e (s.weightBlock c a n (leAt e.cmd 0x46 1) (s.net k).step
          (((s.core c).coveredCols a n).flatMap (s.core c).colEntry)
          ((upTo n).flatMap fun x => s.rowRecord c (a + x) (leAt e.cmd 0x46 1))) ∧
        (∀ d, (t.core d).syn = (s.core d).syn) ∧ t.gddr.mem = s.gddr.mem ∧
        State.KeepsBut (mailParts ++ [Part.cores, .gddr]) s t) ∧
    (∀ c b rows, c = leAt e.cmd 0x40 2 → s.Ready m.val 0x30 e → (s.net k).cores.contains c = true →
      (s.core c).writeRows c b = some rows → b.length = leAt e.cmd 0x50 4 → (s.core c).learnRows = [] →
      (s.core c).learnSkipped = [] → (s.core c).snapWait = 0 →
      ∃ t, exec (.writeWeights m b) s = .next t ∧ s.Completes t m.val e codeDone 0 ∧ (t.core c).hostMb = 0 ∧
        (t.core c).hostRows = [] ∧ State.CoresBut [c] s t ∧ State.KeepsBut (mailParts ++ [Part.cores, .fault]) s t) ∧
    (s.Ready m.val 0x32 e → ((s.net k).cores.any fun c => (s.core c).accumulates) = true → s.reduces k = false →
      ∃ t, exec (.applyUpdates m) s = .next t ∧ s.Completes t m.val e codeDone 0 ∧
        State.CoresBut (s.net k).cores s t ∧ State.KeepsBut (mailParts ++ [Part.cores, .gddr, .fault]) s t) ∧
    (∀ r, s.Ready m.val 0x33 e → s.ckptRegion e = some r →
      ∃ t, exec (.checkpoint m) s = .next t ∧
        (∃ ck ∈ t.gddr.ckpts, ck.base = r.base ∧ ck.step = (s.net k).step ∧ ck.pos = (s.net k).pos ∧
          ck.cores = (sortNat (s.net k).cores).map (fun c => (c, s.core c)) ∧
          s.Completes t m.val e codeDone 0 (toLe 8 r.base ++ toLe 8 ck.len)) ∧
        State.KeepsBut (mailParts ++ [Part.gddr, .free]) s t) ∧
    (∀ a n ck, a = leAt e.cmd 0x40 8 → n = leAt e.cmd 0x48 8 → s.Ready m.val 0x34 e → a + n ≤ s.gddr.top →
      (s.gddr.ckpts.find? fun x => x.len == n && x.digest == s.imageDigest (s.net k) && s.gPeek a n == ckptBytes x.seed x.len) =
        some ck →
      ∃ t, exec (.restore m) s = .next t ∧ s.Completes t m.val e codeDone 0 ∧ (t.net k).step = ck.step ∧
        (t.net k).pos = ck.pos ∧ State.NetsBut [k] s t ∧
        State.KeepsBut (mailParts ++ [Part.nets, .cores, .gddr]) s t)

/-- 14 R368, R376; 11 R288, R289, R291, R297: OPEN_FLOW of a closed flow with room for its quotas leaves it OPENING with the command
waiting: NEW with epoch 1 and sequence 1, RESUME with the next epoch and the sequence of its commit record. CLOSE_FLOW of a closed
flow completes at once; a forced one discards what the flow holds and closes it; one that is not forced waits, CLOSING, while messages
are unacknowledged, and else closes it. SET_FAULT_INJECT sets mode and count of its port. No other flow or port setting changes. -/
def Obligations.FlowCommandsComplete : Prop :=
  ∀ (m : MboxId) (s : State) (e : JEntry),
    (∀ f a, f = leAt e.cmd 0x40 4 → s.Ready m.val 0x40 e → (s.net (cmdNet e.cmd)).image ≠ 0 →
      (s.net (cmdNet e.cmd)).shed = false → leAt e.cmd 0x44 2 ≠ s.deviceId → (s.flow f).fstate = flowClosed →
      s.quotaAt (leAt e.cmd 0x50 4 * 65536) (leAt e.cmd 0x54 4 * 65536) = some a →
      (leAt e.cmd 0x48 1 = 1 → s.commitGood f = true ∧ (s.commitOf f).epoch ≠ 0xFFFF ∧
        (s.commitOf f).peerDev = leAt e.cmd 0x44 2 ∧ (s.commitOf f).peerFlow = leAt e.cmd 0x46 2) →
      ∃ t, exec (.openFlow m) s = .next t ∧ t.Executing m.val e ∧ (t.flow f).fstate = flowOpening ∧
        (t.flow f).peerDev = leAt e.cmd 0x44 2 ∧ (t.flow f).peerFlow = leAt e.cmd 0x46 2 ∧ (t.flow f).net = cmdNet e.cmd ∧
        (t.flow f).waiter = m.val + 1 ∧ (t.flow f).hsDeadline = s.now + leAt e.cmd 0x58 4 * 1000000 ∧
        (leAt e.cmd 0x48 1 ≠ 1 → (t.flow f).epoch = 1 ∧ (t.flow f).nextSeq = 1 ∧ (t.flow f).rtx = []) ∧
        (leAt e.cmd 0x48 1 = 1 → (t.flow f).epoch = (s.commitOf f).epoch + 1 ∧ (t.flow f).nextSeq = (s.commitOf f).next ∧
          (t.flow f).ackedSeq = (s.commitOf f).acked ∧ (t.flow f).rxWm = (s.commitOf f).wm) ∧
        State.FlowsBut [f] s t ∧ t.gddr.mem = s.gddr.mem ∧
        State.KeepsBut [.mbox, .flows, .gddr, .ports] s t) ∧
    (∀ f, f = leAt e.cmd 0x40 4 → s.Ready m.val 0x41 e →
      ((s.flow f).fstate = flowClosed →
        ∃ t, exec (.closeFlow m) s = .next t ∧ s.Completes t m.val e codeDone 0 ∧ State.KeepsBut mailParts s t) ∧
      ((s.flow f).fstate ≠ flowClosed → leAt e.cmd 0x44 1 = 1 → (s.flow f).closer = 0 →
        ∃ t, exec (.closeFlow m) s = .next t ∧ s.Completes t m.val e codeDone 0 ∧ (t.flow f).fstate = flowClosed ∧
          (t.flow f).rtx = [] ∧ (t.flow f).stage = [] ∧ State.FlowsBut [f] s t ∧
          t.ctrAt Scope.flow f Ctr.e2eForceDiscard noSub 0 =
            satCtr (s.ctrAt Scope.flow f Ctr.e2eForceDiscard noSub 0 + (s.flow f).rtx.length) ∧
          State.KeepsBut (mailParts ++ [Part.flows, .gddr]) s t) ∧
      ((s.flow f).fstate ≠ flowClosed → leAt e.cmd 0x44 1 ≠ 1 → seqNext (s.flow f).ackedSeq ≠ (s.flow f).nextSeq →
        ∃ t, exec (.closeFlow m) s = .next t ∧ t.Executing m.val e ∧
          t.flow f = { s.flow f with fstate := flowClosing, closer := m.val + 1 } ∧ State.FlowsBut [f] s t ∧
          State.KeepsBut [.mbox, .flows] s t) ∧
      ((s.flow f).fstate ≠ flowClosed → leAt e.cmd 0x44 1 ≠ 1 → seqNext (s.flow f).ackedSeq = (s.flow f).nextSeq →
        ∃ t, exec (.closeFlow m) s = .next t ∧ s.Completes t m.val e codeDone 0 ∧ (t.flow f).fstate = flowClosed ∧
          State.FlowsBut [f] s t ∧ State.KeepsBut (mailParts ++ [Part.flows, .gddr]) s t)) ∧
    (∀ p, p = leAt e.cmd 0x40 1 → s.Ready m.val 0x90 e →
      ∃ t, exec (.setFaultInject m) s = .next t ∧ s.Completes t m.val e codeDone 0 ∧
        t.port p = { s.port p with injMode := leAt e.cmd 0x41 1, injN := leAt e.cmd 0x42 2, injCount := 0 } ∧
        State.PortsBut [p] s t ∧ State.KeepsBut (mailParts ++ [Part.ports]) s t)

/-- 14 R369 to R371; 16 R418; 17 R442: SET_POWER_STATE of the present state completes at once; with no network running P2 is entered
(and P3, with no open flow and the die at 60 °C or below), no Halyard serves and every sector is in retention. RUN_SELFTEST of kind 3
sets the rotation interval, 600 s for 0, of every sector; of kind 2 without a loaded compute image it shows the result
and fences a core that mismatches; of kind 0 it shows a fenced core's, and tests a core that carries nothing where it stands; of kind
1 it waits for its bank's slices. RESET_COMPUTE starts a compute-partition reset, in which no Halyard serves, or joins the one in
progress. No byte of memory changes. -/
def Obligations.PowerTestAndResetCommands : Prop :=
  ∀ (m : MboxId) (s : State) (e : JEntry),
    (∀ p, p = leAt e.cmd 0x40 1 → s.Ready m.val 0x50 e →
      (p = s.ao.pstate →
        ∃ t, exec (.setPowerState m) s = .next t ∧ s.Completes t m.val e codeDone 0 ∧ State.KeepsBut mailParts s t) ∧
      (p ≠ s.ao.pstate → p = 2 ∨ p = 3 → (∀ k, k < 16 → (s.net k).running = false) →
        (p = 3 → (∀ f, f ∈ s.flows → f.2.fstate = flowClosed) ∧ s.ao.hottest.1 ≤ celsius 60) →
        ∃ t, exec (.setPowerState m) s = .next t ∧ s.Completes t m.val e codeDone 0 ∧ t.ao.pstate = p ∧
          t.ao.serving = false ∧ (∀ n, n < 8 → (t.sector n).powered = false) ∧ s.SameBytes t ∧
          (p ≠ 3 → State.KeepsBut (mailParts ++ [Part.ao, .sectors]) s t) ∧
          (p = 3 → (∀ q, q < 12 → (s.port q).enabled = true → (s.port q).state ≠ portFailed → (t.port q).state = portDown) ∧
            State.KeepsBut (mailParts ++ [Part.ao, .sectors, .gddr, .ports, .boot]) s t))) ∧
    (∀ n p x g, n = leAt e.cmd 0x41 1 → p = leAt e.cmd 0x42 2 → s.Ready m.val 0x60 e →
      (leAt e.cmd 0x40 1 = 3 →
        ∃ t, exec (.runSelftest m x g) s = .next t ∧ s.Completes t m.val e codeDone 0 ∧
          (∀ n, n < 8 → (t.sector n).rotInterval = if leAt e.cmd 0x44 4 = 0 then 600 else leAt e.cmd 0x44 4) ∧
          s.SameBytes t ∧ State.KeepsBut (mailParts ++ [Part.sectors]) s t) ∧
      (leAt e.cmd 0x40 1 = 2 → (s.images.any fun x => x.2.kind == 0) = false →
        (∃ t, exec (.runSelftest m none g) s = .next t ∧ s.Completes t m.val e codeDone 0 (selftestInline 0 0 g.toNat) ∧
          State.KeepsBut mailParts s t) ∧
        (∀ q, x = some q → ∃ t, exec (.runSelftest m x g) s = .next t ∧
          s.Completes t m.val e codeDone 0 (selftestInline 1 q.val g.toNat) ∧
          nbit (Tab.get t.ao.fenced 0 n).toNat q.val = true ∧
          State.KeepsBut (mailParts ++ [Part.ao, .sec, .sectors, .nets]) s t)) ∧
      (leAt e.cmd 0x40 1 = 1 →
        ∃ t, exec (.runSelftest m x g) s = .next t ∧ t.Executing m.val e ∧ State.KeepsBut [.mbox] s t) ∧
      (leAt e.cmd 0x40 1 = 0 → (s.sector n).mig = none → (s.sector n).test = none →
        (s.fencedPhys n p = true →
          ∃ t, exec (.runSelftest m x g) s = .next t ∧ s.Completes t m.val e codeDone 0 (selftestInline 2 p 0) ∧
            State.KeepsBut mailParts s t) ∧
        (s.fencedPhys n p = false → (s.sector n).spareValid = true → s.carriedCore n p = none →
          ∃ t, exec (.runSelftest m x g) s = .next t ∧ t.Executing m.val e ∧
            (t.sector n).test = some { phys := p, mb := m.val + 1 } ∧ s.SameBytes t ∧ State.KeepsBut [.mbox, .sectors] s t))) ∧
    (s.Ready m.val 0x51 e → s.fault.fatal = false →
      (s.boot.crStep = 0 →
        ∃ t, exec (.resetCompute m) s = .next t ∧ t.boot.crStep = 1 ∧ t.boot.phase = 8 ∧ t.ao.serving = false ∧
          (m.val + 1) ∈ t.boot.crWaiters ∧ t.gddr.mem = s.gddr.mem ∧ t.sec = s.sec) ∧
      (s.boot.crStep ≠ 0 →
        ∃ t, exec (.resetCompute m) s = .next t ∧ t.Executing m.val e ∧
          t.boot = { s.boot with crWaiters := s.boot.crWaiters ++ [m.val + 1] } ∧ State.KeepsBut [.mbox, .boot] s t))

/-- 14 R374, R375; 20 R494 to R496: DEBUG_HALT stops the sequencer of the core it names, or of every core of its network, and has its
engines come to rest, which CORE_HALT_COMPLETE records. DEBUG_RESUME of a core that no execute breakpoint hits restarts it, INLINE 0;
said where its network is halted, or runs under DEADLINE without a waiting HALT_RUN. DEBUG_READ answers the bytes of its space
(sector memory, the tables and GDDR6 change by no read); DEBUG_WRITE that nothing forbids completes, and of sector memory (in bank 0
without the read-only and reserved bits) and of GDDR6 it stores exactly its bytes. CORE_HALT_COMPLETE of a core at rest outside a
migration sets ENG_HALTED and ends HALT_PENDING. -/
def Obligations.DebugCommandsComplete : Prop :=
  ∀ (m : MboxId) (s : State) (e : JEntry) (c : Nat), c = leAt e.cmd 0x40 2 →
    ((s.net (cmdNet e.cmd)).image ≠ 0 → (s.net (cmdNet e.cmd)).shed = false →
      (s.Ready m.val 0x80 e → c ≠ 0xFFFF → (s.net (cmdNet e.cmd)).cores.contains c = true → (s.core c).halted = false →
        (s.sector (sectorOf c)).mstate (indexOf c) ≠ 1 →
        ∃ t, exec (.debugHalt m) s = .next t ∧ s.Completes t m.val e codeDone 0 ∧
          t.core c = { s.core c with seqHalted := true, haltPending := true, haltCause := 1 } ∧
          State.CoresBut [c] s t ∧ State.KeepsBut (mailParts ++ [Part.cores, .nets]) s t) ∧
      (s.Ready m.val 0x80 e → c = 0xFFFF →
        (∀ d, d ∈ (s.net (cmdNet e.cmd)).cores → (s.core d).halted = false ∧ (s.sector (sectorOf d)).mstate (indexOf d) ≠ 1) →
        ∃ t, exec (.debugHalt m) s = .next t ∧ s.Completes t m.val e codeDone 0 ∧
          (∀ d, d ∈ (s.net (cmdNet e.cmd)).cores → (t.core d).seqHalted = true ∧ (t.core d).haltPending = true) ∧
          State.KeepsBut (mailParts ++ [Part.cores, .nets]) s t) ∧
      (s.Ready m.val 0x81 e → c ≠ 0xFFFF → (s.net (cmdNet e.cmd)).cores.contains c = true →
        (s.core c).halted = true ∨ (s.core c).seqHalted = true → (s.core c).hits 0 (s.core c).seq.pc.toNat = [] →
        ((s.netOf c).running = false ∨ (s.netOf c).lockstep = false ∧ (s.netOf c).halting = 0) →
        ∃ t, exec (.debugResume m) s = .next t ∧ s.Completes t m.val e codeDone 0 [0] ∧
          t.core c = { s.core c with
            seqHalted := false, engHalted := false, haltPending := false, haltCause := 0, fireHeld := false } ∧
          State.CoresBut [c] s t ∧ State.KeepsBut (mailParts ++ [Part.cores, .nets]) s t)) ∧
    (∀ a n u, a = leAt e.cmd 0x48 8 → n = leAt e.cmd 0x44 4 → u = leAt e.cmd 0x42 2 → s.Ready m.val 0x82 e →
      (leAt e.cmd 0x40 1 = 1 →
        ∃ t, exec (.debugRead m) s = .next t ∧ s.AnswersWith t m.val e (memRead (s.sector u).mem a n) ∧
          State.KeepsBut mailParts s t) ∧
      (leAt e.cmd 0x40 1 = 6 → a + n ≤ s.gddr.top →
        ∃ t, exec (.debugRead m) s = .next t ∧ s.AnswersWith t m.val e (s.gView a n).1 ∧
          State.KeepsBut (mailParts ++ [Part.free]) s t) ∧
      (∀ p, p = leAt e.cmd 0x40 1 → p ≤ 5 →
        ∃ t, exec (.debugRead m) s = .next t ∧ s.AnswersWith t m.val e (s.dbgRead p u a n).1 ∧
          (1 ≤ p → State.KeepsBut mailParts s t) ∧ State.KeepsBut (mailParts ++ [Part.cores]) s t)) ∧
    (∀ b a u n p, a = leAt e.cmd 0x48 8 → n = leAt e.cmd 0x44 4 → u = leAt e.cmd 0x42 2 → p = leAt e.cmd 0x40 1 →
      s.Ready m.val 0x83 e → s.dbgRefusal p u a n = 0 →
      ∃ t, exec (.debugWrite m b) s = .next t ∧ s.Completes t m.val e codeDone 0 ∧
        (p = 1 → memRead (t.sector u).mem a n = (s.sector u).maskObjs a (fitBytes n b) ∧
          (∀ x, x < a ∨ a + n ≤ x → memByte (t.sector u).mem x = memByte (s.sector u).mem x) ∧ State.SectorsBut [u] s t ∧
          State.KeepsBut (mailParts ++ [Part.sectors]) s t) ∧
        (p = 6 → s.gHeld a n = false → memRead t.gddr.mem a n = fitBytes n b ∧
          (∀ x, x < a ∨ a + n ≤ x → memByte t.gddr.mem x = memByte s.gddr.mem x) ∧
          State.KeepsBut (mailParts ++ [Part.gddr]) s t) ∧
        State.KeepsBut (mailParts ++ [Part.cores, .sectors, .gddr]) s t) ∧
    (∀ d : CoreId, (s.core d.val).haltPending = true → (s.core d.val).atRest = true →
      (s.sector (sectorOf d.val)).mstate (indexOf d.val) ≠ 1 → s.sectorRuns (sectorOf d.val) = true →
      ∃ t, exec (.coreHaltComplete d) s = .next t ∧
        t.core d.val = { s.core d.val with haltPending := false, engHalted := true } ∧ State.CoresBut [d.val] s t ∧
        (s.traceOn = false → State.KeepsBut [.cores] s t) ∧ s.SameBytes t ∧ State.KeepsBut [.cores, .sectors, .ctr] s t)

/-! ### Streams, timers, tokens -/

/-- 15 R378, R379; 13 R343: bytes written to a slot of a bound context that is not POSTED are stored; a write of its post word
posts it with its length; a write to a POSTED slot is discarded and counted, and so is any write to an unbound context or while the
device sleeps in P3. With BAR0 closed nothing happens. No other context changes.

15 R380, R383 to R385, R388, R389: a posted frame that its context may scan is encoded into events, one for each destination of an
element, which enter at the ring ports; its slot is freed, and STC_FRAMES counts it. A sample frame gives a GRADED event for each
sample, or under DELTA one for each difference from the reference above the threshold, which the reference follows; an AE frame a
SPIKE event for each address it has; a token packet those of its codes, with its sequence ID for the dispatch packers. A frame of a
wrong length or form is refused unscanned. -/
def Obligations.StreamFrames : Prop :=
  (∀ (n : StcId) (s : State) (c : StcSt), c = s.stc n.val →
    (s.bar0Open = true → c.bound = true → s.ao.pstate ≠ 3 → ∀ q : Fin 4,
      (∀ (o : Fin 262144) (b : List Byte), o.val / 65536 = q.val → o.val % 65536 + b.length ≤ 0xFFF0 →
        (c.isPosted q.val = false →
          ∃ t, exec (.streamWindowWrite n o b) s = .next t ∧ memRead (t.stc n.val).win o.val b.length = b ∧
            (∀ a, a < o.val ∨ o.val + b.length ≤ a → memByte (t.stc n.val).win a = memByte c.win a) ∧
            t.stc n.val = { c with win := (t.stc n.val).win } ∧ (∀ j, j ≠ n.val → t.stc j = s.stc j) ∧
            State.KeepsBut [.stcs, .ctr] s t) ∧
        (c.isPosted q.val = true → b ≠ [] →
          ∃ t, exec (.streamWindowWrite n o b) s = .next t ∧ t.stc n.val = { c with status := nsetBit c.status 2 } ∧
            t.ctrAt Scope.stream n.val Ctr.stcSlotDiscard noSub 0 =
              satCtr (s.ctrAt Scope.stream n.val Ctr.stcSlotDiscard noSub 0 + 1) ∧
            (∀ j, j ≠ n.val → t.stc j = s.stc j) ∧ State.KeepsBut [.stcs, .ctr, .pcie, .out] s t)) ∧
      (∀ len : Word32,
        (c.isPosted q.val = false →
          ∃ t, exec (.streamSlotPost n q len) s = .next t ∧
            t.stc n.val = { c with win := (t.stc n.val).win, posted := c.posted ++ [(q.val, len.toNat, s.now)] } ∧
            (∀ a, a < q.val * 65536 + 0xFFF8 ∨ q.val * 65536 + 0xFFFC ≤ a →
              memByte (t.stc n.val).win a = memByte c.win a) ∧
            (∀ j, j ≠ n.val → t.stc j = s.stc j) ∧ State.KeepsBut [.stcs, .ctr] s t) ∧
        (c.isPosted q.val = true →
          ∃ t, exec (.streamSlotPost n q len) s = .next t ∧ t.stc n.val = { c with status := nsetBit c.status 2 } ∧
            t.ctrAt Scope.stream n.val Ctr.stcSlotDiscard noSub 0 =
              satCtr (s.ctrAt Scope.stream n.val Ctr.stcSlotDiscard noSub 0 + 1) ∧
            (∀ j, j ≠ n.val → t.stc j = s.stc j) ∧ State.KeepsBut [.stcs, .ctr, .pcie, .out] s t))) ∧
    (s.bar0Open = true → c.bound = false ∨ s.ao.pstate = 3 →
      (∀ (o : Fin 262144) (b : List Byte), ∃ t, exec (.streamWindowWrite n o b) s = .next t ∧
        t.ctrAt Scope.stream n.val Ctr.p2pDiscard noSub 0 =
          satCtr (s.ctrAt Scope.stream n.val Ctr.p2pDiscard noSub 0 + 1) ∧ State.KeepsBut [.ctr] s t) ∧
      (∀ (q : Fin 4) (len : Word32), ∃ t, exec (.streamSlotPost n q len) s = .next t ∧
        t.ctrAt Scope.stream n.val Ctr.p2pDiscard noSub 0 =
          satCtr (s.ctrAt Scope.stream n.val Ctr.p2pDiscard noSub 0 + 1) ∧ State.KeepsBut [.ctr] s t)) ∧
    (s.bar0Open = false → ∀ (o : Fin 262144) (b : List Byte) (q : Fin 4) (len : Word32),
      exec (.streamWindowWrite n o b) s = .next s ∧ exec (.streamSlotPost n q len) s = .next s)) ∧
  (∀ (n : StcId) (s : State) (c : StcSt) (r : RingFn) (len step : Nat) (frame : List Byte) (p : Packet), c = s.stc n.val →
    r = s.rfn c.ifn → c.frame = (len, frame) → step = s.ringStep c.net → p = parsePacket frame →
    (∀ (code d q : Nat → Int) (big : Nat → Bool) (evs : List EvItem), s.canScan n.val 0 = true →
      len = r.nelem * sampleBytes r.fmt →
      (∀ i, code i = if r.fmt = 0 then (byteAt frame i : Int) - 128 else if r.fmt = 1 then (leAt frame (2 * i) 2 : Int) - 32768
        else max (-32767) (sext 16 (leAt frame (2 * i) 2))) →
      (∀ i, d i = code i - sampleZp r.fmt - Tab.get c.refs 0 i) → (∀ i, q i = clampI (-32767) 32767 (d i)) →
      (∀ i, big i = decide (c.thresh < (d i).natAbs)) →
      evs = (if r.delta then (((upTo r.nelem).filter big).flatMap fun i =>
          (r.map.elems.getD i []).map fun x => streamEvent 2 x true (q i))
        else (upTo r.nelem).flatMap fun i => (r.map.elems.getD i []).map fun x => streamEvent 2 x (r.fmt != 0) (code i)) →
      ∃ t, exec (.frameEncode n) s = .next t ∧ s.Injects t step evs ∧ (t.stc n.val).posted = c.posted.tail ∧
        nbit (t.stc n.val).status 0 = true ∧ (r.delta = false → (t.stc n.val).refs = c.refs) ∧
        (r.delta = true → ∀ i, i < r.nelem → Tab.get (t.stc n.val).refs 0 i = Tab.get c.refs 0 i + if big i then q i else 0) ∧
        Tab.get (t.rfn c.ifn).sent 0 (step % 4) = Tab.get r.sent 0 (step % 4) + evs.length ∧
        t.ctrAt Scope.stream n.val Ctr.stcFrames noSub 0 = satCtr (s.ctrAt Scope.stream n.val Ctr.stcFrames noSub 0 + 1) ∧
        (∀ j, j ≠ n.val → t.stc j = s.stc j) ∧ s.SameBytes t ∧
        State.KeepsBut [.stcs, .ctr, .sectors, .rfns, .pcie, .out] s t) ∧
    (∀ (els : List Nat) (evs : List EvItem), s.canScan n.val 1 = true → len ≠ 0 → len % 8 = 0 → len ≤ 0xFFF0 →
      els = ((upTo (len / 8)).map fun i => 2 * leAt frame (8 * i + 2) 2 + b2n (nbit (leAt frame (8 * i) 2) 15)) →
      evs = ((els.filter fun e => e < r.nelem).flatMap fun e => (r.map.elems.getD e []).map fun x => streamEvent 1 x false 1) →
      ∃ t, exec (.aeFrameScan n) s = .next t ∧ s.Injects t step evs ∧ (t.stc n.val).posted = c.posted.tail ∧
        Tab.get (t.rfn c.ifn).sent 0 (step % 4) = Tab.get r.sent 0 (step % 4) + evs.length ∧
        t.ctrAt Scope.stream n.val Ctr.stcFrames noSub 0 = satCtr (s.ctrAt Scope.stream n.val Ctr.stcFrames noSub 0 + 1) ∧
        (∀ j, j ≠ n.val → t.stc j = s.stc j) ∧ s.SameBytes t ∧
        State.KeepsBut [.stcs, .ctr, .sectors, .rfns, .pcie, .out] s t) ∧
    (∀ (evs : List EvItem), s.canScan n.val 2 = true → 16 ≤ len → len ≤ 0xFFF0 → p.tok.kind = kindDispatch →
      p.tok.delta = false → p.tok.n = r.nelem → p.good = true →
      evs = (tokenEvents r.map p.tok 2 false 0 0).map (fun e => { e with token := false }) →
      ∃ t, exec (.tokenFrameScan n) s = .next t ∧ s.Injects t step evs ∧ (t.stc n.val).posted = c.posted.tail ∧
        (∀ d, d < 16 → (s.dp d).valid = true → (s.dp d).net = c.net → (t.dp d).seq = p.tok.seq) ∧
        (∀ e ∈ evs, Tab.get (if (s.core (evCore e.ev)).step = step ∧ ((s.core (evCore e.ev)).phase = 1 ∨
            (s.core (evCore e.ev)).phase = 2) then (t.core (evCore e.ev)).tokT else (t.core (evCore e.ev)).tokTAhead)
          (f32One, f32One) (evRow e.ev) = (p.tok.tscale, p.tok.sout)) ∧
        t.ctrAt Scope.stream n.val Ctr.stcFrames noSub 0 = satCtr (s.ctrAt Scope.stream n.val Ctr.stcFrames noSub 0 + 1) ∧
        (∀ j, j ≠ n.val → t.stc j = s.stc j) ∧ s.SameBytes t ∧
        State.KeepsBut [.stcs, .ctr, .sectors, .rfns, .cores, .dpack, .pcie, .out] s t) ∧
    (∀ k, k < 3 → s.canScan n.val k = true →
      (k = 0 ∧ len ≠ r.nelem * sampleBytes r.fmt ∨ k = 1 ∧ (len = 0 ∨ len % 8 ≠ 0 ∨ 0xFFF0 < len) ∨
        k = 2 ∧ (0xFFF0 < len ∨ len < 16 ∨ p.tok.kind ≠ kindDispatch ∨ p.tok.delta = true ∨ p.tok.n ≠ r.nelem ∨
          p.good = false)) →
      ∃ t, (k = 0 → exec (.frameEncode n) s = .next t) ∧ (k = 1 → exec (.aeFrameScan n) s = .next t) ∧
        (k = 2 → exec (.tokenFrameScan n) s = .next t) ∧ (t.stc n.val).posted = c.posted.tail ∧
        nbit (t.stc n.val).status 3 = true ∧
        t.ctrAt Scope.stream n.val Ctr.stcBadFrame noSub 0 =
          satCtr (s.ctrAt Scope.stream n.val Ctr.stcBadFrame noSub 0 + 1) ∧
        (∀ j, j ≠ n.val → t.stc j = s.stc j) ∧ State.KeepsBut [.stcs, .ctr, .pcie, .out] s t))

/-- 15 R377, R390, R404; 11 R286: a SPIKE or GRADED event for a bound result function writes its 16-byte record to the host and advances
the producer index; with the ring full it is counted in RESULT_OVERFLOW; any other event is counted as ignored. A sender gathers the
events of a FIRE phase, and once the phase is emitted offers them as messages of its flow; while earlier ones wait there it stalls. -/
def Obligations.ResultsAndEventFlows : Prop :=
  (∀ (n : SectorId) (s u : State) (fn src : Nat) (e : EvItem) (sc : Word32) (c : StcSt),
    s.takeRing n.val isResultFn = some (fn, src, e, sc, u) → c = s.stc (fn - 0x150) →
    (0x150 ≤ fn → fn < 0x170 → s.ringBound fn src = true → c.bound = true → c.resLog2 ≠ 0 → (s.rfn fn).net = c.net + 1 →
      (evType e.ev = 1 ∨ evType e.ev = 2) →
      ((c.prod + 65536 - c.cons) % 65536 ≠ 2 ^ c.resLog2 →
        ∃ t, exec (.resultRecordWrite n) s = .next t ∧
          (s.pcie.linkUp = true → s.pcie.busMaster = true →
            ∃ l, t.out = s.out ++ .hostWrite (c.resAddr + 16 * (c.prod % 2 ^ c.resLog2))
              (toLe 4 (s.emitStep src e.tag) ++ toLe 4 s.now ++
                toLe 2 (if evType e.ev = 1 then 1 else toField 16 (evInt e.ev)) ++ toLe 2 (evRow e.ev) ++
                toLe 2 (src + (if evType e.ev = 1 then 2 ^ 10 else 0) +
                  if c.prod / 2 ^ c.resLog2 % 2 = 0 then 2 ^ 15 else 0) ++ zeros 2) :: l) ∧
          (t.stc (fn - 0x150)).prod = (c.prod + 1) % 65536 ∧ nbit (t.stc (fn - 0x150)).status 1 = true ∧
          t.sectors = u.sectors ∧ s.SameBytes t ∧ State.KeepsBut [.sectors, .stcs, .pcie, .out, .ctr] s t) ∧
      ((c.prod + 65536 - c.cons) % 65536 = 2 ^ c.resLog2 →
        ∃ t, exec (.resultRecordWrite n) s = .next t ∧ (t.stc (fn - 0x150)).prod = c.prod ∧
          nbit (t.stc (fn - 0x150)).status 4 = true ∧ t.sectors = u.sectors ∧
          t.ctrAt Scope.stream (fn - 0x150) Ctr.resultOverflow noSub 0 =
            satCtr (s.ctrAt Scope.stream (fn - 0x150) Ctr.resultOverflow noSub 0 + 1) ∧
          State.KeepsBut [.sectors, .stcs, .pcie, .out, .ctr] s t)) ∧
    (fn < 0x150 ∨ 0x170 ≤ fn ∨ s.ringBound fn src = false ∨ c.bound = false ∨ c.resLog2 = 0 ∨ (s.rfn fn).net ≠ c.net + 1 ∨
        evType e.ev ≠ 1 ∧ evType e.ev ≠ 2 →
      ∃ t, exec (.resultRecordWrite n) s = .next t ∧ t.sectors = u.sectors ∧
        t.ctrAt Scope.sector n.val Ctr.ringEventIgnored noSub 0 =
          satCtr (s.ctrAt Scope.sector n.val Ctr.ringEventIgnored noSub 0 + 1) ∧ State.KeepsBut [.sectors, .ctr] s t)) ∧
  (∀ (x : Fin 32) (s g : State) (fn : Nat) (r : RingFn), fn = 0x170 + x.val → g = s.gatherFlow fn → r = g.rfn fn →
    (s.srcFree (s.rfn fn).flow = false → exec (.eventFlowSend x) s = .next s) ∧
    (s.srcFree (s.rfn fn).flow = true →
      (r.net ≠ 0 → r.vec ≠ [] → g.emitDone (r.net - 1) = true → g.ringQuiet fn = true →
        ∃ t, exec (.eventFlowSend x) s = .next t ∧ t.rfn fn = { r with vec := [] } ∧
          (t.flow r.flow).srcQ = (eventsBodies r.flowEvents.2.1 r.flowEvents.1.length r.flowEvents.1).map (fun b =>
            { kind := 1, body := b }) ∧
          t.sectors = g.sectors ∧ State.FlowsBut [r.flow] s t ∧ State.KeepsBut [.rfns, .flows, .sectors, .ctr] s t) ∧
      (r.net = 0 ∨ r.vec = [] ∨ g.emitDone (r.net - 1) = false ∨ g.ringQuiet fn = false →
        exec (.eventFlowSend x) s = .next g)))

/-- 08 R190, R191, R194, R213, R219: the oldest event for a token function at a ring port is taken: a GRADED event adds to its element's sum of
a dispatch or return packer, or names a winner of a router, and gives the scale; an ERROR event adds to the error sums of a return packer
or a combiner. One of another type, or for a function not bound to its sender's network, is counted as ignored.

08 R191 to R196, R199, R215: at the end of a step a dispatch packer builds its window. Each slot, in the order of its logits, is sent on the
replica flow that its expert and the sequence ID choose, as a FULL or, against the mirror of that flow, a DELTA body; a step with
only NaN winners sends none and refuses every slot; a combiner of the packer waits for the window's slots; a flow whose window every
packer of the network has built gets a CLOSE; a backward step has only those. Said of slots on flows of their own.

08 R205 to R207, R214: the oldest expansion event for a core of the sector is written through the ring port while the core has credit,
which it takes, with its t and t_out for the row; one for a core that no element map names uses the unreserved part of its queue (the model's
reading, log 80). Without credit or room at the port it waits. Said of the only event for the sector.

08 R200 to R204, R206, R215: a DISPATCH token that the buffer takes and no rule refuses is held by its expert's binding, with its codes;
one that a rule refuses draws its code. A CLOSE is held while its window waits for another flow. With the last the window is decided: each
binding that is in and runs admits its first CAP tokens in order of device, sequence and slot, the CLOSE messages are consumed and its
block of token steps is queued; a CLOSE of a window decided before is consumed at once. A binding gives up flows that are not open,
stalled, or late by T_c. None is taken while the compute partition is reset, held or in P2 or P3. The decision is said while no token step of it may begin. -/
def Obligations.TokensAreBuiltAndReceived : Prop :=
  (∀ (n : SectorId) (s u : State) (fn src i : Nat) (e : EvItem) (sc : Word32) (ok : Bool),
    s.takeRing n.val (fun f => 0x100 ≤ f && f < 0x140) = some (fn, src, e, sc, u) → i = e.tag * 4096 + evRow e.ev →
    ok = s.ringBound fn src →
    ∃ t, exec (.packerEventAccept n) s = .next t ∧ t.sectors = u.sectors ∧
      (ok = true → evType e.ev = 2 → fn < 0x120 → fn % 2 = 0 → ∀ d, d = (fn - 0x100) / 2 →
        t.dp d = { s.dp d with sums := Tab.set (s.dp d).sums 0 i (Tab.get (s.dp d).sums 0 i + evInt e.ev), scale := sc } ∧
        State.KeepsBut [.sectors, .dpack] s t) ∧
      (ok = true → evType e.ev = 2 → fn < 0x120 → fn % 2 = 1 → ∀ d, d = (fn - 0x100) / 2 →
        t.dp d = { s.dp d with winners := (s.dp d).winners ++ [(e.tag, evRow e.ev, evInt e.ev)], rScale := sc } ∧
        State.KeepsBut [.sectors, .dpack] s t) ∧
      (ok = true → evType e.ev = 2 → 0x120 ≤ fn → fn < 0x130 → ∀ d, d = fn - 0x120 →
        t.rp d = { s.rp d with sums := Tab.set (s.rp d).sums 0 i (Tab.get (s.rp d).sums 0 i + evInt e.ev), scale := sc } ∧
        State.KeepsBut [.sectors, .rpack] s t) ∧
      (ok = true → evType e.ev = 4 → 0x120 ≤ fn → fn < 0x130 → ∀ d, d = fn - 0x120 →
        t.rp d = { s.rp d with errs := Tab.set (s.rp d).errs 0 i (Tab.get (s.rp d).errs 0 i + evInt e.ev) } ∧
        State.KeepsBut [.sectors, .rpack] s t) ∧
      (ok = true → evType e.ev = 4 → 0x130 ≤ fn → ∀ d, d = fn - 0x130 →
        t.comb d = { s.comb d with errs := Tab.set (s.comb d).errs 0 i (Tab.get (s.comb d).errs 0 i + evInt e.ev) } ∧
        State.KeepsBut [.sectors, .combs] s t) ∧
      (ok = false ∨ evType e.ev ≠ 2 ∧ evType e.ev ≠ 4 ∨ fn < 0x120 ∧ evType e.ev ≠ 2 ∨ 0x130 ≤ fn ∧ evType e.ev ≠ 4 →
        ((s.rfn fn).net ≠ 0 → t.ctrAt Scope.device 0 Ctr.tokenEventIgnored fn 0 =
          satCtr (s.ctrAt Scope.device 0 Ctr.tokenEventIgnored fn 0 + 1)) ∧
        ((s.rfn fn).net = 0 → t.ctrAt Scope.sector n.val Ctr.ringEventIgnored noSub 0 =
          satCtr (s.ctrAt Scope.sector n.val Ctr.ringEventIgnored noSub 0 + 1)) ∧ State.KeepsBut [.sectors, .ctr] s t)) ∧
  (∀ (p : Fin 16) (s : State) (k : PackSt) (n : NetSt) (tag w : Nat) (sl : List (Nat × Word32) × Bool) (body : Token)
    (dst : Nat → Option Nat) (closing : Nat → Bool) (close : Nat → List Byte),
    k = s.dp p.val → n = s.net k.net → k.valid = true → n.running = true → n.step ≠ 0 → k.built ≤ n.step →
    s.emitDone k.net = true → s.ringQuiet (fnDispatch p.val) = true → s.ringQuiet (fnRouter p.val) = true →
    (∀ f ∈ k.flowsUsed, s.srcFree f.1 = true) → tag = n.step % 4 → w = n.step % 2 ^ 32 → sl = k.slotsOf tag →
    body = (narrowToken k.zpm k.outl (k.values tag)).1 →
    (∀ i, dst i = (Tab.get k.dir (0, []) (sl.1.getD i (0, 0)).1).2[k.seq %
      max 1 (Tab.get k.dir (0, []) (sl.1.getD i (0, 0)).1).2.length]?) →
    (∀ f, closing f = !((upTo 16).any fun d => d != p.val && (s.dp d).valid && (s.dp d).net == k.net &&
      decide ((s.dp d).built ≤ n.step) && (s.dp d).flowsUsed.any fun g => g.1 == f)) →
    (∀ x e, k.flowsUsed.find? (fun g => g.1 == x) = some (x, e) →
      close x = ({ kind := kindClose, window := w, expert := e } : Token).bytes []) →
    ∃ t, exec (.tokenDispatchBuild p) s = .next t ∧
      t.dp p.val = { k with
        built := n.step + 1, sums := Tab.restrict k.sums fun a => a / 4096 != tag
        winners := k.winners.filter fun x => x.1 != tag } ∧
      (∀ f ∈ k.flowsUsed, n.backward = true ∨ sl.2 = true ∨ (∀ i, i < sl.1.length → dst i ≠ some f.1) →
        (t.flow f.1).srcQ.map (fun m => (m.kind, m.body)) = if closing f.1 then [(2, close f.1)] else []) ∧
      (n.backward = false → sl.2 = false →
        ∀ i f e base dl, i < sl.1.length → dst i = some f → (∀ j, j < sl.1.length → j ≠ i → dst j ≠ some f) →
          e = (Tab.get k.dir (0, []) (sl.1.getD i (0, 0)).1).1 → base = CodeCache.find (s.flow f).mirror k.seq →
          dl = (match base with
            | some b => b.length == body.n && decide ((diffElems body.codes b).length + (body.n + 7) / 8 < body.n)
            | none => false) →
          (t.flow f).srcQ.map (fun m => (m.kind, m.body)) =
            (2, ({ body with
                kind := kindDispatch, slot := i, expert := e, seq := k.seq, window := w, delta := dl } : Token).bytes
              (base.getD [])) :: if closing f then [(2, close f)] else []) ∧
      (n.backward = false → ∀ m ∈ s.combsOf p.val, (t.comb m).wins = (s.comb m).wins ++
        [{ window := w, seq := k.seq, pos := n.pos
           slots := (upTo sl.1.length).map fun i =>
            { st := if sl.2 = true ∨ dst i = none then 2 else 0, gate := (sl.1.getD i (0, 0)).2, pos := (sl.1.getD i (0, 0)).1
              flow := if sl.2 then 0 else (dst i).getD 0 } }]) ∧
      (n.backward = true → t.combs = s.combs) ∧ State.FlowsBut (k.flowsUsed.map Prod.fst) s t ∧
      State.KeepsBut [.dpack, .flows, .combs, .ctr] s t) ∧
  (∀ (n : SectorId) (s v : State) (x : Expansion) (rest : List Expansion) (c step : Nat),
    v = (match s.homeNet with | some k => s.tokenStep k | none => s) → v.expand = x :: rest →
    (∀ y ∈ rest, sectorOf (evCore y.item.ev) ≠ n.val) → c = evCore x.item.ev → sectorOf c = n.val → c < 128 →
    step = v.ringStep x.net →
    (((v.core c).credit = 0 ∨ (v.core c).freeCredit ≠ 0) → v.linkRoom n.val 3 (.event x.item) = true →
      ∃ t, exec (.tokenExpansion n) s = .next t ∧ t.expand = rest ∧
        v.Injects t step [{ x.item with token := x.item.token && (v.core c).credit != 0 }] ∧
        (t.core c).creditUsed = (v.core c).creditUsed + (if (v.core c).credit = 0 then 0 else 1) ∧
        (evType x.item.ev ≠ 4 → Tab.get (if (v.core c).step = step ∧ ((v.core c).phase = 1 ∨ (v.core c).phase = 2) then (t.core c).tokT
          else (t.core c).tokTAhead) (f32One, f32One) (evRow x.item.ev) = (x.t, x.tOut)) ∧
        Tab.get (t.rfn x.fn).sent 0 (step % 4) = Tab.get (v.rfn x.fn).sent 0 (step % 4) + 1 ∧
        s.SameBytes t ∧ State.CoresBut [c] s t ∧ State.SectorsBut [n.val] s t ∧
        State.KeepsBut [.cores, .sectors, .rfns, .expand] v t) ∧
    ((v.core c).credit ≠ 0 ∧ (v.core c).freeCredit = 0 ∨ v.linkRoom n.val 3 (.event x.item) = false →
      exec (.tokenExpansion n) s = .next v)) ∧
  ((∀ (f : FlowId) (s : State), s.takesIn = false →
    exec (.tokenDispatchReceive f) s = .next s ∧ exec (.tokenCloseReceive f) s = .next s ∧
    exec (.tokenErrorReceive f) s = .next s ∧ ((s.flow f.val).naks = [] → exec (.tokenReturnReceive f) s = .next s)) ∧
  (∀ (f : FlowId) (s u : State) (m : Msg) (p : Packet) (x : FlowSt) (ob : Option Nat), s.nextTok f.val kindDispatch = some (m, p, u) →
    x = s.flow f.val → ob = s.bindingOf p.tok.expert → s.takesIn = true →
    (s.tokenRoom p.tok = false → exec (.tokenDispatchReceive f) s = .next s) ∧
    (s.tokenRoom p.tok = true →
      (∀ code, (p.good = false ∧ code = 5 ∨ p.good = true ∧ ob = none ∧ code = 2 ∨
          ∃ b, p.good = true ∧ ob = some b ∧ ((p.tok.n ≠ (s.bind b).n ∨ p.tok.zpm ≠ (s.bind b).zpm) ∧ code = 5 ∨
            p.tok.n = (s.bind b).n ∧ p.tok.zpm = (s.bind b).zpm ∧
              (((s.net (s.bind b).net).running = false ∨ (s.bind b).flows.contains f.val = false ∨
                  ∃ w, s.tok.window = some w ∧ seqLe w p.tok.window = false) ∧ code = 3 ∨
                (s.net (s.bind b).net).running = true ∧ (s.bind b).flows.contains f.val = true ∧
                  (∀ w, s.tok.window = some w → seqLe w p.tok.window = true) ∧ p.tok.delta = true ∧
                  (∀ l, CodeCache.find x.cache p.tok.seq = some l → l.length ≠ p.tok.n) ∧ code = 4))) →
        ∃ t, exec (.tokenDispatchReceive f) s = .next t ∧ (t.flow f.val).refused = x.refused ++ [(m.mseq, code)] ∧
          (t.flow f.val).tokQ = x.tokQ.tail ∧ (t.flow f.val).ackDue = true ∧ State.FlowsBut [f.val] s t ∧
          State.KeepsBut [.flows] s t) ∧
      (∀ b codes, p.good = true → ob = some b → p.tok.n = (s.bind b).n → p.tok.zpm = (s.bind b).zpm →
        (s.net (s.bind b).net).running = true → (s.bind b).flows.contains f.val = true →
        (∀ w, s.tok.window = some w → seqLe w p.tok.window = true) →
        (p.tok.delta = true → ∃ l, CodeCache.find x.cache p.tok.seq = some l ∧ l.length = p.tok.n) →
        codes = p.codes ((CodeCache.find x.cache p.tok.seq).getD []) →
        ∃ t, exec (.tokenDispatchReceive f) s = .next t ∧
          (t.bind b).held = (s.bind b).held ++ [{ p.tok with codes := codes, src := x.peerDev, flow := f.val, mseq := m.mseq }] ∧
          (∀ d, d ≠ b → (t.bind d).held = (s.bind d).held) ∧
          t.flow f.val = { x with tokQ := x.tokQ.tail, cache := CodeCache.put x.cache x.cacheSize p.tok.seq codes } ∧
          t.tok = { s.tok with window := some (s.tok.window.getD p.tok.window) } ∧ State.FlowsBut [f.val] s t ∧
          State.KeepsBut [.flows, .binds, .tok] s t))) ∧
  (∀ (f : FlowId) (s u : State) (m : Msg) (p : Packet) (w : Nat) (all : List Token), s.nextTok f.val kindClose = some (m, p, u) →
    w = p.tok.window → s.takesIn = true → p.good = true → (s.bindingOf p.tok.expert).isSome = true →
    (∃ b ∈ s.bindings, (s.bind b).flows.contains f.val = true) →
    all = ((s.bindings.flatMap fun b => (s.bind b).held).filter fun t => t.window == w) →
    (∀ d, s.tok.window = some d → seqLe d w = false →
      ∃ t, exec (.tokenCloseReceive f) s = .next t ∧ (t.flow f.val).ackDue = true ∧ State.FlowsBut [f.val] s t ∧
        State.KeepsBut [.flows] s t) ∧
    ((∀ d, s.tok.window = some d → seqLe d w = true) →
      ((∃ b ∈ s.bindings, ∃ g ∈ (s.bind b).flows, g ≠ f.val ∧ (s.bind b).closedBy (s.tok.window.getD w) g = false) →
        ∃ t, exec (.tokenCloseReceive f) s = .next t ∧
          t.tok = { s.tok with closes := s.tok.closes ++ [(f.val, m.mseq, w)], window := some (s.tok.window.getD w) } ∧
          (∀ b ∈ s.bindings, (s.bind b).flows.contains f.val = true → Tab.get (t.bind b).closed 0 f.val = w + 1) ∧
          (∀ b, (t.bind b).held = (s.bind b).held ∧ (t.bind b).admitted = (s.bind b).admitted) ∧
          (t.flow f.val).tokQ = (s.flow f.val).tokQ.tail ∧ State.FlowsBut [f.val] s t ∧
          State.KeepsBut [.flows, .tok, .binds] s t) ∧
      ((∀ b ∈ s.bindings, ∀ g ∈ (s.bind b).flows, g = f.val ∨ (s.bind b).closedBy w g = true) → s.tok.window.getD w = w →
        (∀ k, s.homeNet = some k → (s.net k).running = false ∨ (s.net k).phase ≠ 1) →
        ∃ t, exec (.tokenCloseReceive f) s = .next t ∧ t.tok.window = some (seqNext w) ∧
          t.tok.blocks = s.tok.blocks ++ [(w, s.blockLen)] ∧ t.tok.closes = s.tok.closes.filter (fun c => c.2.2 != w) ∧
          (t.flow f.val).ackDue = true ∧
          (∀ b ∈ s.bindings, (t.bind b).held = (s.bind b).held.filter (fun x => x.window != w) ∧
            ((s.net (s.bind b).net).running = true → (s.bind b).state < 2 →
              (t.bind b).admitted = (s.bind b).admitted ++
                (((sortToks ((s.bind b).held.filter fun x => x.window == w)).filter fun x => !repeats all x).take
                  (s.bind b).cap)) ∧
            ((s.net (s.bind b).net).running = false ∨ 2 ≤ (s.bind b).state → (t.bind b).admitted = (s.bind b).admitted)) ∧
          State.KeepsBut [.flows, .tok, .binds, .ctr] s t))) ∧
  (∀ (b : Fin 64) (s : State) (w : Nat) (x : BindSt) (gone : List Nat), x = s.bind b.val → s.tok.window = some w → x.valid = true →
    gone = (x.flows.filter fun f => !x.closedBy w f && ((s.flow f).fstate != flowOpen || (s.flow f).stalled ||
      decide (x.closeRef w + x.tc * 1000 ≤ s.now))) →
    (gone = [] → exec (.tokenWindowTimeout b) s = .next s) ∧
    (gone ≠ [] →
      ((∃ o ∈ s.bindings, ∃ g ∈ (s.bind o).flows, (s.bind o).closedBy w g = false ∧ (o = b.val → g ∉ gone)) →
        ∃ t, exec (.tokenWindowTimeout b) s = .next t ∧ t.bind b.val = { x with gaveUp := x.gaveUp ++ gone } ∧ t.tok = s.tok ∧
          (x.gaveUp = [] → t.ctrAt Scope.device 0 Ctr.tokenWindowTimeout b.val 0 =
            satCtr (s.ctrAt Scope.device 0 Ctr.tokenWindowTimeout b.val 0 + 1)) ∧ State.KeepsBut [.binds, .ctr] s t) ∧
      ((∀ o ∈ s.bindings, ∀ g ∈ (s.bind o).flows, (s.bind o).closedBy w g = true ∨ o = b.val ∧ g ∈ gone) →
        ∃ t, exec (.tokenWindowTimeout b) s = .next t ∧ t.tok.window = some (seqNext w) ∧
          State.KeepsBut [.binds, .ctr, .errTok, .expand, .flows, .tok] s t))))

/-- 08 R203, R209 to R213, R215: the oldest token whose outputs are those of the current step is returned with a RETURN token, FULL or DELTA,
that acknowledges it; in a backward step the input errors leave as an ERROR token. A RETURN token resolves the slots that wait for it, a
refusal of a DISPATCH token refuses them, counted for its packer, and takes it back out of the mirror. A window whose slots are all
resolved, or whose cutoff has passed, is mixed by its gates and expanded. An ERROR token from a source is held for the paired
backward step; one from a home device is expanded to the dispatch layer. -/
def Obligations.TokensReturn : Prop :=
  (∀ (r : Fin 16) (s : State) (k : PackSt) (x : BindSt) (n : NetSt), k = s.rp r.val → x = s.bind k.binding → n = s.net x.net →
    k.valid = true → x.valid = true → n.running = true → s.emitDone x.net = true → s.ringQuiet (fnReturn r.val) = true →
    (∀ y ∈ x.inLayer ++ x.errIn, s.srcFree y.2.flow = true) →
    (∀ st tk rest tag body base dl, n.backward = false → x.inLayer = (st, tk) :: rest → st + x.ld ≤ n.step →
      tag = (st + x.ld) % 4 → body = (narrowToken k.zpm k.outl (k.values tag)).1 →
      base = CodeCache.find (s.flow tk.flow).mirror tk.seq →
      dl = (match base with
        | some b => b.length == body.n && decide ((diffElems body.codes b).length + (body.n + 7) / 8 < body.n)
        | none => false) →
      ∃ t, exec (.returnTokenSend r) s = .next t ∧ t.bind k.binding = { x with inLayer := rest } ∧
        (t.flow tk.flow).srcQ = [{ kind := 2, ackFlow := tk.flow + 1, ackSeq := tk.mseq, sub := 17 + r.val, prev := base
                                   body := ({ body with
                                    kind := kindReturn, slot := tk.slot, expert := tk.expert, seq := tk.seq
                                    window := tk.window, delta := dl } : Token).bytes (base.getD []) }] ∧
        (t.flow tk.flow).mirror = CodeCache.put (s.flow tk.flow).mirror (s.flow tk.flow).cacheSize tk.seq body.codes ∧
        State.FlowsBut [tk.flow] s t ∧ State.KeepsBut [.binds, .rpack, .flows, .ctr] s t) ∧
    (∀ st tk rest codes, n.backward = true → x.errIn = (st, tk) :: rest → st + x.ld ≤ n.step →
      codes = ((upTo k.n).map fun i => clampI (-32767) 32767 (Tab.get k.errs 0 ((st + x.ld) % 4 * 4096 + i))) →
      ∃ t, exec (.returnTokenSend r) s = .next t ∧ t.bind k.binding = { x with errIn := rest } ∧
        (t.flow tk.flow).srcQ.map (fun m => (m.kind, m.body, m.ackFlow)) =
          [(2, ({ kind := kindError, n := k.n, slot := tk.slot, expert := tk.expert, seq := tk.seq, window := tk.window
                  codes := codes, tscale := f32One } : Token).bytes [], 0)] ∧
        State.FlowsBut [tk.flow] s t ∧ State.KeepsBut [.binds, .rpack, .flows, .ctr] s t)) ∧
  (∀ (f : FlowId) (s : State) (x : FlowSt), x = s.flow f.val →
    (∀ r rest q, x.naks = r :: rest → q = parsePacket r.msg.body → q.tok.kind = kindDispatch → r.msg.sub ≠ 0 →
      ∃ t, exec (.tokenReturnReceive f) s = .next t ∧
        t.flow f.val = { x with
          naks := rest
          mirror := if r.code = 1 then x.mirror
            else x.mirror.undo q.tok.seq (q.codes (r.msg.prev.getD [])) r.msg.prev } ∧
        t.ctrAt Scope.device 0 Ctr.tokenNakRx ((r.msg.sub - 1) * 16 + r.code) 0 =
          satCtr (s.ctrAt Scope.device 0 Ctr.tokenNakRx ((r.msg.sub - 1) * 16 + r.code) 0 + 1) ∧
        (∀ c i, c < 16 → (s.comb c).valid = true → (s.comb c).waiting q.tok.window q.tok.seq q.tok.slot f.val = some i →
          s.cutPassed (s.comb c) ((s.comb c).wins.getD i {}) = false →
          (((t.comb c).wins.getD i {}).slots.getD q.tok.slot {}).st = 2) ∧
        State.FlowsBut [f.val] s t ∧ State.KeepsBut [.flows, .combs, .ctr] s t) ∧
    (∀ u m p tk, x.naks = [] → s.takesIn = true → s.nextTok f.val kindReturn = some (m, p, u) → p.good = true →
      (p.tok.delta = true → ∃ l, CodeCache.find x.cache p.tok.seq = some l ∧ l.length = p.tok.n) →
      tk = { p.tok with
        codes := p.codes ((CodeCache.find x.cache p.tok.seq).getD []), src := x.peerDev, flow := f.val, mseq := m.mseq } →
      ∃ t, exec (.tokenReturnReceive f) s = .next t ∧
        (∀ c i, c < 16 → (s.comb c).valid = true → (s.comb c).waiting tk.window tk.seq tk.slot f.val = some i →
          s.cutPassed (s.comb c) ((s.comb c).wins.getD i {}) = false →
          (((t.comb c).wins.getD i {}).slots.getD tk.slot {}).st = 1 ∧
            (((t.comb c).wins.getD i {}).slots.getD tk.slot {}).tok = tk) ∧
        (t.flow f.val).cache = CodeCache.put x.cache x.cacheSize p.tok.seq tk.codes ∧ (t.flow f.val).ackDue = true ∧
        State.FlowsBut [f.val] s t ∧ State.KeepsBut [.flows, .combs] s t)) ∧
  (∀ (c : Fin 16) (s : State) (x : CombSt) (w : PendWin) (i : Nat) (slots : List SlotSt) (y : Word32 × List Narrow), x = s.comb c.val →
    x.valid = true → (s.net x.net).running = true → s.dueWindow c.val = some i → w = x.wins.getD i {} →
    slots = x.gates (w.slots.map fun o => if o.st = 0 then { o with st := 2 } else o) →
    y = narrowMix (mixOf slots (s.dp x.packer).n) →
    ((w.slots.all fun o => o.st != 0) = true ∨ s.cutPassed x w = true →
      ∃ t, exec (.combinerResolve c) s = .next t ∧
        t.comb c.val = { x with
          wins := if (s.net x.net).fwd = 0 then x.wins.eraseIdx i
            else x.wins.set i { w with slots := slots, mixed := true, mixPos := (s.net x.net).pos } } ∧
        t.expand = s.expand ++ (tokenEvents x.elemMap
          { n := (s.dp x.packer).n, zpm := (s.dp x.packer).zpm, codes := y.2.map (·.q) } 2 true 0 0).map (fun e =>
            { fn := fnCombiner c.val, net := x.net, item := e, t := y.1, tOut := f32One }) ∧
        State.KeepsBut [.combs, .expand, .ctr] s t) ∧
    ((w.slots.all fun o => o.st != 0) = false → s.cutPassed x w = false → exec (.combinerResolve c) s = .next s)) ∧
  (∀ (f : FlowId) (s u : State) (m : Msg) (p : Packet) (tk : Token) (ob : Option Nat), s.nextTok f.val kindError = some (m, p, u) →
    s.takesIn = true → tk = { p.tok with flow := f.val, mseq := m.mseq } →
    ob = (s.bindings.find? fun b => (s.bind b).flows.contains f.val && (s.bind b).expert == tk.expert) →
    (∀ code, (p.good = false ∨ tk.zpm ≠ 0) ∧ code = 5 ∨
        p.good = true ∧ tk.zpm = 0 ∧ (ob = none ∧ s.errorPacker f.val tk = none ∧ code = 2 ∨
          (∃ b, ob = some b ∧ (tk.n ≠ (s.bind b).n ∧ code = 5 ∨
            tk.n = (s.bind b).n ∧ (s.net (s.bind b).net).running = false ∧ code = 3)) ∨
          ∃ d, ob = none ∧ s.errorPacker f.val tk = some d ∧ (tk.n ≠ (s.dp d).n ∧ code = 5 ∨
            tk.n = (s.dp d).n ∧ (s.net (s.dp d).net).running = false ∧ code = 3)) →
      ∃ t, exec (.tokenErrorReceive f) s = .next t ∧ (t.flow f.val).refused = (s.flow f.val).refused ++ [(m.mseq, code)] ∧
        (t.flow f.val).ackDue = true ∧ State.FlowsBut [f.val] s t ∧ State.KeepsBut [.flows] s t) ∧
    (p.good = true → tk.zpm = 0 →
      (∀ b, ob = some b → tk.n = (s.bind b).n → (s.net (s.bind b).net).running = true →
        (∀ k, s.homeNet = some k → (s.net k).backward = false) →
        ∃ t, exec (.tokenErrorReceive f) s = .next t ∧ t.errTok = s.errTok ++ [tk] ∧
          (t.flow f.val).tokQ = (s.flow f.val).tokQ.tail ∧ State.FlowsBut [f.val] s t ∧
          State.KeepsBut [.flows, .errTok] s t) ∧
      (∀ d evs, ob = none → s.errorPacker f.val tk = some d → tk.n = (s.dp d).n → (s.net (s.dp d).net).running = true →
        evs = tokenEvents (s.dp d).errMap { tk with zpm := 0, outl := [] } 4 true (f.val + 1) m.mseq →
        ∃ t, exec (.tokenErrorReceive f) s = .next t ∧
          t.expand = s.expand ++ evs.map (fun e =>
            { fn := fnDispatch d, net := (s.dp d).net, item := e, t := f32One, tOut := f32One }) ∧
          (evs ≠ [] → Tab.get (t.flow f.val).unpopped 0 m.mseq = evs.length) ∧ (evs = [] → (t.flow f.val).ackDue = true) ∧
          State.FlowsBut [f.val] s t ∧ State.KeepsBut [.flows, .expand] s t)))

/-- 15 R393, R395 to R397: at a channel that counts kernel cycles the prescaler counts up to DIV; on the next cycle it starts again, and
where every count condition holds the count advances, a unit in compare mode whose value it comes to equal having a match due; at
LIMIT it wraps to 0 with WRAPPED set, COUNT_ON cleared under SINGLE. Said for a channel with no match due, and of the wrap for one
that no other channel follows, that paces no network and no odd channel.

15 R394 to R396: an edge that the debounce stage of one channel accepts, where one unit of it captures such edges and the other does
not, and the edge is no tick: thinned by SNAPx_EVERY it is counted, and then the unit takes the count, with FRESHx, and OVERCAPTUREx
over an unread capture. A match that is due sets FRESHx and applies its action to OUT_STATE. Said for a channel that no other
follows; no other channel changes.

15 R401 to R403; 15 R377: of a line output's events those of the functions in force (the ensign ones in ensign mode, while a copy can run) act on its pin.
A SPIKE or a GRADED event that is not 0 asserts it at once, in PULSE mode for PULSE_W, where it is asserted already, last changed 10 ns
ago or more, or changed in this instant; else once those 10 ns have passed; a new assertion counts in LOUT_ASSERT. A GRADED 0
deasserts a LEVEL pin so, except in the instant of an assertion, and has no effect in PULSE mode. A pulse whose width has passed
ends. -/
def Obligations.TimersAndLines : Prop :=
  (∀ (ch : TimerId) (s : State) (q : TimerSt), q = s.tmr ch.val → q.tickSel = 0 → q.paired ch.val = false →
    (q.on = true → q.pre < q.div →
      ∃ t, exec (.timerCountAdvance ch) s = .next t ∧ t.tmr ch.val = { q with pre := q.pre + 1 } ∧
        (∀ c, c ≠ ch.val → t.tmr c = s.tmr c) ∧ State.KeepsBut [.timers] s t) ∧
    (q.on = true → q.div ≤ q.pre → s.tmrCounts ch.val = false →
      ∃ t, exec (.timerCountAdvance ch) s = .next t ∧ t.tmr ch.val = { q with pre := 0 } ∧
        (∀ c, c ≠ ch.val → t.tmr c = s.tmr c) ∧ State.KeepsBut [.timers] s t) ∧
    (s.tmrCounts ch.val = true → q.div ≤ q.pre → q.due false = false → q.due true = false →
      (∀ v, v = (q.count + 1) % 2 ^ 32 → q.count ≠ q.limit →
        ∃ t, exec (.timerCountAdvance ch) s = .next t ∧
          t.tmr ch.val = { q with
            pre := 0, count := v, due0 := q.mode false == 1 && v == q.snap0, due1 := q.mode true == 1 && v == q.snap1 } ∧
          (∀ c, c ≠ ch.val → t.tmr c = s.tmr c) ∧ State.KeepsBut [.timers] s t) ∧
      (q.count = q.limit → (∀ c, c < 16 → (s.tmr c).leaderOf c ≠ some ch.val) →
        (ch.val % 2 = 0 → (s.tmr (ch.val + 1)).paired (ch.val + 1) = false) →
        (∀ k, k < 16 → (s.net k).image = 0 ∨ (s.net k).tickSource.ch ≠ ch.val ∨
          (s.net k).tickSource.kind ≠ 1 ∧ (s.net k).tickSource.kind ≠ 2) →
        ∃ t, exec (.timerWrap ch) s = .next t ∧
          t.tmr ch.val = { q with
            pre := 0, count := 0, on := !q.single, status := nsetBit q.status 0
            due0 := q.mode false == 1 && 0 == q.snap0, due1 := q.mode true == 1 && 0 == q.snap1 } ∧
          (∀ c, c ≠ ch.val → t.tmr c = s.tmr c) ∧ State.KeepsBut [.timers] s t))) ∧
  (∀ (ch : TimerId) (s : State) (q : TimerSt) (u : Bool), q = s.tmr ch.val →
    (∀ c, c < 16 → (s.tmr c).leaderOf c ≠ some ch.val) →
    (∀ (pin : Fin 8) (rising : Bool) (samples : Fin 16), s.accepts pin.val rising samples.val = [ch.val] →
      (q.mode u = 4 ∨ q.mode u = 2 ∧ rising = true ∨ q.mode u = 3 ∧ rising = false) →
      ¬ (q.mode (!u) = 4 ∨ q.mode (!u) = 2 ∧ rising = true ∨ q.mode (!u) = 3 ∧ rising = false) →
      q.tickSel ≠ (if rising then 1 else 2) →
      ∃ t, exec (.tinEdgeAccepted pin ⟨rising, samples⟩) s = .next t ∧ (t.tmr ch.val).level = rising ∧
        ((if u then q.edge1 else q.edge0) < q.every u →
          (if u then (t.tmr ch.val).edge1 else (t.tmr ch.val).edge0) = (if u then q.edge1 else q.edge0) + 1 ∧
          (t.tmr ch.val).snap u = q.snap u ∧ (t.tmr ch.val).status = q.status) ∧
        (q.every u ≤ (if u then q.edge1 else q.edge0) →
          (if u then (t.tmr ch.val).edge1 else (t.tmr ch.val).edge0) = 0 ∧ (t.tmr ch.val).snap u = q.count ∧
          (t.tmr ch.val).status = nsetBit (if q.fresh u then nsetBit q.status (3 + b2n u) else q.status) (1 + b2n u)) ∧
        (t.tmr ch.val).snap (!u) = q.snap (!u) ∧ (t.tmr ch.val).count = q.count ∧ (t.tmr ch.val).on = q.on ∧
        (t.tmr ch.val).out = q.out ∧ (∀ c, c ≠ ch.val → t.tmr c = s.tmr c) ∧ State.KeepsBut [.timers] s t) ∧
    (q.due u = true →
      ∃ t, exec (.snapCompareMatch ch u) s = .next t ∧ (t.tmr ch.val).status = nsetBit q.status (1 + b2n u) ∧
        (q.act u = 1 → (t.tmr ch.val).out = true) ∧ (q.act u = 2 → (t.tmr ch.val).out = false) ∧
        (q.act u = 3 → (t.tmr ch.val).out = !q.out) ∧ (q.act u = 0 → (t.tmr ch.val).out = q.out) ∧
        (t.tmr ch.val).due u = false ∧ (t.tmr ch.val).due (!u) = q.due (!u) ∧ (t.tmr ch.val).count = q.count ∧
        (t.tmr ch.val).on = q.on ∧ (∀ c, c ≠ ch.val → t.tmr c = s.tmr c) ∧ State.KeepsBut [.timers] s t)) ∧
  ((∀ (n : SectorId) (s u : State) (fn src p : Nat) (e : EvItem) (sc : Word32) (l : LoutSt),
    s.takeRing n.val (fun f => 0x140 ≤ f && f < 0x150) = some (fn, src, e, sc, u) → s.ringBound fn src = true →
    decide (0x148 ≤ fn) = s.fault.ensActive → (s.fault.ensActive = true → s.noCopy = false) → p = fn % 8 → l = s.loutPin p →
    ((evType e.ev = 1 ∨ evType e.ev = 2 ∧ evInt e.ev ≠ 0) →
      ∃ t, exec (.lineOutputEvent n) s = .next t ∧
        (l.upAt = 0 → l.asserted = true ∨ l.changedAt = 0 ∨ l.changedAt + 10 ≤ s.now + 1 ∨ l.changedAt = s.now + 1 →
          (t.lout p).asserted = true ∧ (t.lout p).downAt = 0 ∧
          (l.pulse = true → (t.lout p).pulseEnd = s.now + 10 * max l.width 1)) ∧
        (l.upAt = 0 → l.asserted = false → s.now + 1 < l.changedAt + 10 → l.changedAt ≠ 0 → l.changedAt ≠ s.now + 1 →
          (t.lout p).asserted = false ∧ (t.lout p).upAt = max (s.now + 1) (l.changedAt + 10)) ∧
        (l.rises s.now = true → t.ctrAt Scope.device 0 Ctr.loutAssert p 0 =
          satCtr (s.ctrAt Scope.device 0 Ctr.loutAssert p 0 + 1)) ∧ (l.rises s.now = false → t.ctr = s.ctr) ∧
        t.sectors = u.sectors ∧ (∀ q, q ≠ p → t.lout q = s.lout q) ∧ (s.fault.ensActive = false → t.fault = s.fault) ∧
        State.KeepsBut [.sectors, .louts, .ctr, .fault] s t) ∧
    (evType e.ev = 2 → evInt e.ev = 0 →
      ∃ t, exec (.lineOutputEvent n) s = .next t ∧
        (l.pulse = true ∨ l.assertedAt = s.now + 1 → t.lout p = l) ∧
        (l.pulse = false → l.assertedAt ≠ s.now + 1 → l.upAt = 0 → l.asserted = true →
          (l.changedAt = 0 ∨ l.changedAt + 10 ≤ s.now + 1 → (t.lout p).asserted = false) ∧
          (l.changedAt ≠ 0 → s.now + 1 < l.changedAt + 10 →
            (t.lout p).asserted = true ∧ (t.lout p).downAt = l.changedAt + 10)) ∧
        t.sectors = u.sectors ∧ (∀ q, q ≠ p → t.lout q = s.lout q) ∧ (s.fault.ensActive = false → t.fault = s.fault) ∧
        State.KeepsBut [.sectors, .louts, .fault] s t)) ∧
  (∀ (p : Fin 8) (s : State), (s.lout p.val).pulseEnd ≠ 0 → (s.lout p.val).pulseEnd ≤ s.now →
    ∃ t, exec (.loutPulseEnd p) s = .next t ∧ (t.lout p.val).asserted = false ∧ (t.lout p.val).pulseEnd = 0 ∧
      (∀ q, q ≠ p.val → t.lout q = s.lout q) ∧ State.KeepsBut [.louts] s t))

/-! ### Faults, power, reset, security -/

/-- 18 R462 to R465; 15 R403: while a designated ensign network stands ready and the mode is inactive, a trigger that holds enters it, the
heartbeat's time-out being trigger 2. In P0 and P1 with the owner serving: ENSIGN and its cause are set, the pins drive ENS_INIT,
ENSIGN_ENTRY counts, every other loaded network is shed and the ensign network runs (unless a FATAL fault stands); where the others
are shed already and it runs, nothing else but the fault log and what is sent changes. While no owner serves, the entry waits. In P2
and P3 the always-on domain drives the pins from its copy and a wake to P0 begins.

18 R454, R457, R458, R460; 01 R20, R22; 02 R45: the owner Halyard records a fault in the log, newest first, and sets the event bit of its
class: a supply notice not logged yet, a thermal notice, a degraded or failed port, a guard overflow not shown yet. A fenced Halyard, a
fenced core and a failed bank are marked in the fault record and the flash besides; at a step boundary a fenced core's index moves to a
valid spare, else becomes UNAVAILABLE. -/
def Obligations.EnsignAndFaults : Prop :=
  (∀ (s : State) (b : Fin 4), s.trigHolds b.val = true → s.fault.ensSet = true → s.fault.ensActive = false →
    s.ao.ensignPending = 0 →
    (s.ao.pstate < 2 → s.ao.serving = true →
      ∃ t, exec (.ensignTrigger b) s = .next t ∧ (b = 2 → exec .heartbeatTimeout s = .next t) ∧
        t.fault.ensActive = true ∧ t.fault.ensCause = b.val + 1 ∧ (∀ p, p < 8 → (t.lout p).asserted = (s.lout p).ensInit) ∧
        (∀ k, k < 16 → (s.net k).image ≠ 0 → k ≠ s.fault.ensNet → (t.net k).shed = true) ∧
        (s.fault.fatal = false → (t.net s.fault.ensNet).running = true) ∧
        ((∀ k, k ≠ s.fault.ensNet → (s.net k).image = 0 ∨ (s.net k).shed = true) → (s.net s.fault.ensNet).running = true →
          t.ctrAt Scope.device 0 Ctr.ensignEntry noSub 0 = satCtr (s.ctrAt Scope.device 0 Ctr.ensignEntry noSub 0 + 1) ∧
          State.KeepsBut [.fault, .louts, .ctr, .pcie, .out] s t)) ∧
    (s.ao.pstate < 2 → s.ao.serving = false →
      ∃ t, exec (.ensignTrigger b) s = .next t ∧ (b = 2 → exec .heartbeatTimeout s = .next t) ∧
        t.ao = { s.ao with ensignPending := b.val + 1 } ∧ State.KeepsBut [.ao] s t) ∧
    (2 ≤ s.ao.pstate →
      ∃ t, exec (.ensignTrigger b) s = .next t ∧ (b = 2 → exec .heartbeatTimeout s = .next t) ∧
        t.fault.ensActive = true ∧ t.fault.ensCause = b.val + 1 ∧
        (∀ p, p < 8 → (t.lout p).asserted = nbit s.ao.ensCopy.toNat p) ∧
        t.ao = { s.ao with ensignPending := b.val + 1, waking := if s.ao.waking = 0 then 1 else min s.ao.waking 1 } ∧
        t.ctrAt Scope.device 0 Ctr.ensignEntry noSub 0 = satCtr (s.ctrAt Scope.device 0 Ctr.ensignEntry noSub 0 + 1) ∧
        State.KeepsBut [.fault, .louts, .ctr, .pcie, .out, .ao] s t)) ∧
  (∀ s : State, s.ao.serving = true →
    (∀ (f : FaultSource) (cls src unit : Nat),
      (f = .supplyNotice ∧ s.supplyLogged = false ∧ cls = classNotice ∧ src = 10 ∧ unit = 0 ∨
        f = .thermalNotice ∧ cls = classNotice ∧ src = 11 ∧ unit = 0 ∨
        (∃ p : PortId, (f = .laneDegrade p ∨ f = .portFailed p) ∧ cls = classDegraded ∧ src = 6 ∧ unit = p.val) ∨
        (∃ c : CoreId, f = .numeric c ∧ s.fault.guardDue.contains c.val = true ∧ cls = classNotice ∧ src = 12 ∧
          unit = c.val)) →
      ∃ t, exec (.faultHandling f) s = .next t ∧
        t.fault.log = (faultEntry s.now cls src unit 0 0 s.ao.epoch 0 :: s.fault.log).take 16384 ∧
        t.fault.events = (if cls = classDegraded then nsetBit s.fault.events 2 else s.fault.events) ∧
        (∀ c : CoreId, f = .numeric c → t.fault.guardDue = s.fault.guardDue.erase c.val) ∧
        State.KeepsBut [.fault, .pcie, .out, .ctr] s t) ∧
    (∀ south : Bool, ∃ t, exec (.faultHandling (.halyardFenced south)) s = .next t ∧
      t.fault.log = (faultEntry s.now classDegraded 8 (b2n south) 2 0 s.ao.epoch 0 :: s.fault.log).take 16384 ∧
      t.ao = (if south then { s.ao with southFenced := true } else { s.ao with northFenced := true }) ∧
      t.sec = { s.sec with flashHal := nsetBit s.sec.flashHal (b2n south) } ∧ nbit t.fault.events 2 = true ∧
      State.KeepsBut [.fault, .pcie, .out, .ctr, .ao, .sec] s t) ∧
    (∀ (n : SectorId) (b : Fin 64), 2 ≤ b.val → ∃ t, exec (.faultHandling (.bankUnrepairable n b)) s = .next t ∧
      t.fault.log =
        (faultEntry s.now classDegraded 7 (32 * n.val) 2 (0x20000 * b.val) s.ao.epoch 0 :: s.fault.log).take 16384 ∧
      Tab.get t.ao.badBanks 0 n.val = put (Tab.get s.ao.badBanks 0 n.val) b.val b.val 1 ∧
      Tab.get t.sec.flashBanks 0 n.val = put (Tab.get s.sec.flashBanks 0 n.val) b.val b.val 1 ∧
      nbit t.fault.events 2 = true ∧ State.KeepsBut [.fault, .pcie, .out, .ctr, .ao, .sec] s t) ∧
    (∀ (n : SectorId) (p : Fin 17) misr (i : Nat), (s.sector n.val).mig = none → (s.sector n.val).carried p.val = some i →
      s.atStepBoundary (16 * n.val + i) = true →
      ∃ t, exec (.faultHandling (.selftestMismatch n p misr)) s = .next t ∧
        t.fault.log =
          (faultEntry s.now classDegraded 7 (32 * n.val + p.val) 2 0 s.ao.epoch misr.toNat :: s.fault.log).take 16384 ∧
        Tab.get t.ao.fenced 0 n.val = put (Tab.get s.ao.fenced 0 n.val) p.val p.val 1 ∧
        ((s.sector n.val).spareValid = true → (t.sector n.val).phys i = (s.sector n.val).spareIndex ∧
          (t.sector n.val).mstate i = (s.sector n.val).mstate i ∧ (t.sector n.val).spareValid = false ∧ t.nets = s.nets) ∧
        ((s.sector n.val).spareValid = false → (t.sector n.val).mstate i = 2 ∧
          ∀ k, k < 16 → (t.net k).cores = (s.net k).cores.filter (· != 16 * n.val + i)) ∧
        (s.fault.ensActive = false → t.louts = s.louts) ∧
        State.SectorsBut [n.val] s t ∧ State.KeepsBut [.fault, .pcie, .out, .ctr, .ao, .sec, .sectors, .nets, .louts] s t))

/-- 16 R412, R415; 09 R231: with the time base running, a rail that falls below its warning threshold raises PWR_WARN: its rise counts, takes
the sectors whose clocks run out of alignment and is logged; while it is raised already only the crossing is kept. A rail above again
starts its 50 µs; PWR_WARN ends once both have stayed above for them. A warning that holds for 1 ms, or has risen 16 times in 100 ms, is
persistent, until none has crossed for 1 s.

16 R424, R425, R429: with the sensors trimmed a hottest reading of 95 °C or more throttles, one of 105 °C is an emergency until one of
100 °C or less, and one of 115 °C trips the device: it is held in device reset. Untrimmed sensors trip it at 110 °C and do nothing else.
The throttle ends once the readings have been at or below 92 °C for 10 ms, and its time is counted. -/
def Obligations.SuppliesAndTemperature : Prop :=
  (∀ (s : State) (a : AoSt), a = s.ao →
    (∀ r : Rail, a.porReleased = true →
      (a.pwrWarn = false →
        ∃ t, exec (.supplyWarningCrossing ⟨r, true⟩) s = .next t ∧ t.ao.pwrWarn = true ∧ t.ao.lastWarn = s.now ∧
          t.ao.warnRise = s.now ∧ t.ao.warnRises = (s.now :: a.warnRises).take 16 ∧ nbit t.ao.pwrEvents 6 = true ∧
          t.ao.vcoreWarn = (a.vcoreWarn || r == .vcore) ∧ t.ao.vauxWarn = (a.vauxWarn || r == .vaux) ∧
          t.ctrAt Scope.device 0 Ctr.pwrWarnCount noSub 0 =
            satCtr (s.ctrAt Scope.device 0 Ctr.pwrWarnCount noSub 0 + 1) ∧
          (∀ n, n < 8 → t.sector n = { s.sector n with
            aligned := (s.sector n).aligned && !((s.sector n).powered && !(s.sector n).gated) }) ∧
          t.fault.log = (faultEntry s.now classNotice 10 0 0 0 a.epoch 0 :: s.fault.log).take 16384 ∧
          State.KeepsBut [.ao, .ctr, .pcie, .out, .sectors, .fault] s t) ∧
      (a.pwrWarn = true →
        ∃ t, exec (.supplyWarningCrossing ⟨r, true⟩) s = .next t ∧
          t.ao = { a with
            lastWarn := s.now, vcoreWarn := a.vcoreWarn || r == .vcore, vauxWarn := a.vauxWarn || r == .vaux } ∧
          State.KeepsBut [.ao] s t) ∧
      (∃ t, exec (.supplyWarningCrossing ⟨r, false⟩) s = .next t ∧
        t.ao = { a with
          vcoreWarn := a.vcoreWarn && r != .vcore, vauxWarn := a.vauxWarn && r != .vaux
          aboveAt := if (r == .vcore && a.vcoreWarn) || (r == .vaux && a.vauxWarn) then s.now else a.aboveAt } ∧
        State.KeepsBut [.ao] s t)) ∧
    (a.pwrWarn = true → a.vcoreWarn = false → a.vauxWarn = false → a.aboveAt + 50000 ≤ s.now →
      ∃ t, exec .pwrWarnEnd s = .next t ∧ t.ao = { a with pwrWarn := false } ∧
        (a.pstate < 2 → t.ctrAt Scope.device 0 Ctr.pwrWarnNs noSub 0 =
          satCtr (s.ctrAt Scope.device 0 Ctr.pwrWarnNs noSub 0 + (s.now - a.warnRise))) ∧ State.KeepsBut [.ao, .ctr] s t) ∧
    (a.pwrWarn = true ∧ a.warnRise + 1000000 ≤ s.now ∨
        a.warnRises.length = 16 ∧ s.now ≤ a.warnRises.getLastD 0 + 100000000 →
      ∃ t, exec .persistentSupplyWarning s = .next t ∧ t.ao = { a with persist := true } ∧ State.KeepsBut [.ao] s t) ∧
    (a.persist = true → a.pwrWarn = false → a.lastWarn + 1000000000 ≤ s.now →
      ∃ t, exec .persistentWarningEnd s = .next t ∧ t.ao = { a with persist := false } ∧ State.KeepsBut [.ao] s t)) ∧
  ((∀ (s : State) (l : List Int) (temps : Tab Int) (h : Int), s.ao.porReleased = true → s.ao.tripped = false →
    temps = (upTo 20).foldl (fun t i => Tab.set t 0 i (l.getD i 0)) s.ao.temps →
    h = (AoSt.hottest { s.ao with temps := temps }).1 →
    (s.boot.calDone = true → h < celsius 115 →
      ∃ t, exec (.thermalSample l) s = .next t ∧ t.ao.temps = temps ∧
        t.ao.throttle = (s.ao.throttle || decide (celsius 95 ≤ h)) ∧
        t.ao.emergency = (decide (celsius 105 ≤ h) || (s.ao.emergency && decide (celsius 100 < h))) ∧
        t.ao.coolSince = (if celsius 92 < h then 0 else if s.ao.coolSince = 0 then s.now + 1 else s.ao.coolSince) ∧
        (celsius 95 ≤ h → s.ao.throttle = false → t.ao.throttleRise = s.now ∧ nbit t.ao.pwrEvents 5 = true ∧
          t.ctrAt Scope.device 0 Ctr.throttleCount noSub 0 =
            satCtr (s.ctrAt Scope.device 0 Ctr.throttleCount noSub 0 + 1)) ∧
        (celsius 105 ≤ h → s.ao.emergency = false → nbit t.ao.pwrEvents 4 = true) ∧
        State.KeepsBut [.ao, .ctr, .pcie, .out] s t) ∧
    (s.boot.calDone = false → h < celsius 110 →
      ∃ t, exec (.thermalSample l) s = .next t ∧ t.ao = { s.ao with temps := temps } ∧ State.KeepsBut [.ao] s t) ∧
    ((if s.boot.calDone then celsius 115 else celsius 110) ≤ h →
      ∃ t, exec (.thermalSample l) s = .next t ∧ t.ao.tripped = true ∧ t.ao.inReset = true ∧ t.ao.serving = false ∧
        t.ao.resetCause = 6 ∧ t.nets = [] ∧ t.cores = [] ∧ t.flows = [] ∧ t.boot.devReady = false ∧
        t.sec = s.sec.rebooted ∧ t.board = s.board ∧ t.pending = s.pending)) ∧
  (∀ s : State, s.ao.throttle = true → s.ao.coolSince ≠ 0 → s.ao.coolSince - 1 + 10000000 ≤ s.now →
    ∃ t, exec .throttleExit s = .next t ∧ t.ao = { s.ao with throttle := false } ∧
      t.ctrAt Scope.device 0 Ctr.throttleNs noSub 0 =
        satCtr (s.ctrAt Scope.device 0 Ctr.throttleNs noSub 0 + (s.now - s.ao.throttleRise)) ∧
      State.KeepsBut [.ao, .ctr, .out] s t))

/-- 16 R418, R420, R422, R423; 17 R432: a wake stage whose predecessors are ready becomes ready: the regulator leaves low power, GDDR6 leaves
self-refresh with the memory stage, where a wake to P2 ends, and the last stage returns the device to P0 with its sectors powered and
an owner serving; ports that went DOWN train again. In P3 a hot die or a heavy retention load starts a wake to P2; a brown-out of the
retention supply is a cold reset of all but the always-on pins. -/
def Obligations.WakeFromPowerStates : Prop :=
  (∀ (s : State) (trained : State → Prop), s.ao.waking ≠ 0 →
    (∀ t, trained t ↔ ∀ p, p < 12 → t.port p = if (s.port p).enabled && (s.port p).state == portDown then
      { s.port p with state := portTraining, trainDue := false } else s.port p) →
    (nbit s.ao.ready 3 = false →
      ∃ t, exec (.wakeStageReady .regulator) s = .next t ∧
        t.ao = { s.ao with ready := nsetBit s.ao.ready 3, regLp := false } ∧ State.KeepsBut [.ao] s t) ∧
    (nbit s.ao.ready 3 = true → nbit s.ao.ready 2 = false →
      ∃ t, exec (.wakeStageReady .oscillator) s = .next t ∧ t.ao = { s.ao with ready := nsetBit s.ao.ready 2 } ∧
        State.KeepsBut [.ao] s t) ∧
    (nbit s.ao.ready 3 = true → nbit s.ao.ready 2 = true → nbit s.ao.ready 1 = false →
      ∃ t, exec (.wakeStageReady .memory) s = .next t ∧ t.gddr = { s.gddr with
          state := s.gddr.state.map fun (x : Nat × Nat) => (x.1, if x.2 = 2 then 1 else x.2) } ∧
        (s.ao.waking ≠ 3 → t.ao = { s.ao with ready := nsetBit s.ao.ready 1 } ∧ t.ports = s.ports) ∧
        (s.ao.waking = 3 → t.ao = { s.ao with pstate := 2, waking := 0, ready := 8 } ∧ trained t) ∧
        State.KeepsBut [.ao, .gddr, .ports, .out] s t) ∧
    (nbit s.ao.ready 3 = true → nbit s.ao.ready 2 = true → nbit s.ao.ready 1 = true → nbit s.ao.ready 0 = false →
      s.ao.ensignPending = 0 →
      ∃ t, exec (.wakeStageReady .logic) s = .next t ∧
        t.ao = { s.ao with pstate := 0, waking := 0, ready := nsetBit s.ao.ready 0, serving := true, hbStamp := s.now } ∧
        (∀ n, n < 8 → t.sector n = { s.sector n with powered := true }) ∧ trained t ∧
        State.KeepsBut [.ao, .sectors, .ports, .boot, .out] s t)) ∧
  (∀ (s : State) (j : Int) (i : Nat), s.ao.pstate = 3 → s.ao.waking = 0 → (celsius 70 ≤ j ∨ 2700 ≤ i) →
    ∃ t, exec (.p3GuardWake j i) s = .next t ∧
      t.ao = { s.ao with waking := 3, pwrEvents := nsetBit s.ao.pwrEvents 3 } ∧ State.KeepsBut [.ao, .pcie, .out, .ctr] s t) ∧
  (∀ s : State, s.ao.pstate = 3 →
    ∃ t, exec .retentionBrownout s = .next t ∧ t.ao = { perstHigh := s.ao.perstHigh, resetHigh := s.ao.resetHigh
                                                        resetCause := 5, porReleased := true, mgtI3c := s.ao.mgtI3c
                                                        brownout := true } ∧
      t.sec = s.sec.rebooted ∧ t.boot = {} ∧ t.gddr = {} ∧ t.pcie = {} ∧ t.mbox = [] ∧ t.nets = [] ∧ t.cores = [] ∧
      t.sectors = [] ∧ t.flows = [] ∧ t.ports = [] ∧ t.timers = [] ∧ t.fault = {} ∧
      State.KeepsBut [.ao, .sec, .boot, .gddr, .pcie, .mbox, .accepted, .nets, .cores, .sectors, .flows, .ports, .timers,
        .routes, .deviceId, .images, .nextHandle, .regions, .pageSets, .groups, .binds, .tok, .dpack, .rpack, .combs, .rfns,
        .expand, .errTok, .stcs, .louts, .fault, .traceCtrl, .ctr, .snap] s t)

/-- 17 R427 to R433, R436; 09 R231: power-on reset release samples MGT_SEL and starts the time base. While no trip and, after phase 1, no
reset pin holds, the phases end in their turn: 2 with a slot that verifies and both Halyards good, or in a boot error; 3 with the repairs
loaded; 4 with a valid descriptor of a supported memory; 5 with GDDR6 trained once every wave has ended; 6 calibrated; 8, the replay
done, with an alignment pulse, an owner serving and DEV_READY. A sector's wave, after the one before, powers it; repairs that wait are
written to the flash.

17 R442, R444: a compute-partition reset goes step by step: step 2 leaves no byte in sector memory, step 6 aligns the sectors, and with
step 8 a Halyard serves again and the command that waits for it is DONE. A sector reset clears its memory and routers, and a core reset
clears the core, each with a NOTICE in the fault log. Said of the last two for a sector and a core without an image, while no network
runs.

17 R439, R441; 16 R413, R414, R425; 19 R477; 22 R534: a reset pin held low for 1 µs, or for 20 ns where that is taken, resets the
device: fuses, flash and the contents of GDDR6 stay, everything else outside the always-on domain is at its reset value; so does a
fall of VCORE below its reset threshold. A shorter pulse does nothing. With the later pin high the phases go on. A cold reset, from
VAUX or a lost clock, also clears GDDR6 and the always-on domain, and ends a thermal trip. -/
def Obligations.BringupAndResets : Prop :=
  (∀ s : State,
    (∀ m, s.ao.porReleased = false → ∃ t, exec (.powerOnResetRelease m) s = .next t ∧
      t.ao = { s.ao with porReleased := true, mgtI3c := m, time := 0 } ∧ State.KeepsBut [.ao] s t) ∧
    (∀ arg, s.ao.porReleased = true → s.ao.tripped = false → s.boot.next = 1 →
      ∃ t, exec (.bringupPhaseEnd arg) s = .next t ∧ t.boot = { s.boot with next := 2 } ∧ t.timers = [] ∧
        t.ao = { s.ao with lastReset := s.ao.resetCause, inReset := !(s.ao.perstHigh && s.ao.resetHigh) } ∧
        State.KeepsBut [.ao, .timers, .boot] s t) ∧
    (∀ arg, s.ao.porReleased = true → s.ao.tripped = false → s.ao.inReset = false →
      (s.boot.next = 2 → s.sec.lc ≠ 4 → nbit arg 2 = false → nbit arg 3 = false → nbit arg 4 = false →
        s.sec.flashHal % 4 = 0 → s.ao.northFenced = false → s.ao.southFenced = false →
        (∀ (slot : Nat) (ok : Nat → Bool), slot < 2 →
          (∀ k, ok k = s.sec.slotOk s.sec.svnMin (s.sec.slotBoard k) (s.sec.slot k) (nbit arg (s.sec.slotBoard k))) →
          slot = (if ok 0 then 0 else 1) → ok slot = true →
          ∃ t, exec (.bringupPhaseEnd arg) s = .next t ∧
            t.boot = { s.boot with fwVerified := true, fwSlot := slot, phase := 1, next := 3 } ∧
            t.sec.fwVersion = s.sec.slotVersion slot ∧ t.sec.svnRun = s.sec.slotSvn slot ∧
            State.KeepsBut [.ao, .sec, .boot] s t)) ∧
      (∀ err, s.boot.next = 2 → (s.sec.lc = 4 ∧ err = 6 ∨ s.sec.lc ≠ 4 ∧ nbit arg 3 = true ∧ nbit arg 4 = true ∧ err = 5 ∨
          s.sec.lc ≠ 4 ∧ nbit arg 3 = false ∧ nbit s.sec.flashHal 0 = false ∧ s.ao.northFenced = false ∧ nbit arg 2 = true ∧
          err = 2) →
        ∃ t, exec (.bringupPhaseEnd arg) s = .next t ∧ t.boot = { s.boot with phase := 9, bootErr := err, next := 0 } ∧
          State.KeepsBut [.ao, .boot, .pcie, .out, .ctr] s t) ∧
      (s.boot.next = 3 → ∃ t, exec (.bringupPhaseEnd arg) s = .next t ∧
        t.boot = { s.boot with repairLoaded := true, phase := 2, next := 4 } ∧
        (∀ n, n < 8 → (t.sector n).softUsed = min 255 (Tab.get s.sec.flashSoft 0 n)) ∧
        (s.boot.cold = true → t.ao.fenced = s.sec.flashFence ∧ t.ao.badBanks = s.sec.flashBanks) ∧
        State.KeepsBut [.ao, .sectors, .boot] s t) ∧
      (s.boot.next = 4 → s.board.valid = true → s.board.memOk = true → ∃ t, exec (.bringupPhaseEnd arg) s = .next t ∧
        t.boot = { s.boot with bootErr := 0, phase := 3, next := 5 } ∧ (∀ n, n < 8 → (t.sector n).op = 3) ∧
        (∀ p, p < 12 → nbit s.board.ports.toNat p = true → (t.port p).enabled = true ∧ (t.port p).state = portTraining) ∧
        State.KeepsBut [.ao, .sectors, .ports, .gddr, .boot] s t) ∧
      (s.boot.next = 4 → s.board.valid = false → ∃ t, exec (.bringupPhaseEnd arg) s = .next t ∧
        t.boot = { s.boot with phase := 9, bootErr := 3, next := 0 } ∧ State.KeepsBut [.boot, .pcie, .out, .ctr] s t) ∧
      (s.boot.next = 5 → s.boot.waves = 255 → s.ao.srFailed = false → s.boot.bootErr ≠ 4 →
        ∃ t, exec (.bringupPhaseEnd arg) s = .next t ∧ t.gddr = s.gddr.trained s.board ∧ t.boot.gddrReady = true ∧
          t.boot.phase = 4 ∧ t.boot.next = 6 ∧ State.KeepsBut [.gddr, .boot, .out] s t) ∧
      (s.boot.next = 6 → ∃ t, exec (.bringupPhaseEnd arg) s = .next t ∧
        t.boot = { s.boot with calDone := true, phase := 5, next := 7 } ∧ State.KeepsBut [.boot] s t) ∧
      (s.boot.next = 8 → (∀ m, m < 10 → s.oldest m = none) →
        ∃ t, exec (.bringupPhaseEnd arg) s = .next t ∧
          t.boot = { s.boot with devReady := true, phase := 7, next := 0, cold := false } ∧ nbit t.pcie.cause 0 = true ∧
          t.ao.ready = 15 ∧ (s.boot.cold = true → t.ao.serving = true) ∧
          (∀ n, n < 8 → (t.sector n).aligned = true ∧ (t.sector n).pulseAt = s.now) ∧ s.SameBytes t ∧
          State.KeepsBut [.ao, .boot, .sectors, .pcie, .out, .ctr] s t)) ∧
    (∀ (n : SectorId) (f : BitVec 17) (r : Nat), s.boot.crStep ≠ 5 → s.boot.next = 5 → s.ao.inReset = false →
      s.ao.tripped = false → nbit s.boot.waves n.val = false →
      (∀ i, i < 8 → i % 4 < n.val % 4 → nbit s.boot.waves i = true) →
      ∃ t, exec (.sectorWaveEnd n f 0 r) s = .next t ∧
        t.sector n.val = { s.sector n.val with
          powered := true, up := f == 0, waveFailed := f
          softUsed := if r = 0 then (s.sector n.val).softUsed else min 255 ((s.sector n.val).softUsed + r)
          spareElem := (s.sector n.val).spareElem - r, softPending := r != 0 || (s.sector n.val).softPending } ∧
        t.boot = { s.boot with waves := nsetBit s.boot.waves n.val } ∧ State.SectorsBut [n.val] s t ∧
        State.KeepsBut [.sectors, .boot] s t) ∧
    (∀ n : SectorId, (s.sector n.val).softPending = true →
      ∃ t, exec (.softRepairFlashWrite n) s = .next t ∧ t.sector n.val = { s.sector n.val with softPending := false } ∧
        t.sec = { s.sec with flashSoft := Tab.set s.sec.flashSoft 0 n.val (min 256 (s.sector n.val).softUsed) } ∧
        State.SectorsBut [n.val] s t ∧ State.KeepsBut [.sectors, .sec] s t)) ∧
  (∀ s : State,
    (1 ≤ s.boot.crStep → s.boot.crStep < 8 →
      ∃ t, exec .computeResetStepEnd s = .next t ∧ t.boot.crStep = s.boot.crStep + 1 ∧
        (s.boot.crStep = 2 → ∀ n, n < 8 → (t.sector n).mem = [])) ∧
    (s.boot.crStep = 6 → ∃ t, exec .computeResetStepEnd s = .next t ∧ t.boot = { s.boot with crStep := 7 } ∧
      (∀ n, n < 8 → (t.sector n).frame t.now = 0 ∧ (t.sector n).pulseAt = s.now ∧ (t.sector n).aligned = true) ∧
      s.SameBytes t ∧ State.KeepsBut [.sectors, .boot] s t) ∧
    (s.boot.crStep = 8 → s.ao.ensignPending = 0 →
      (s.boot.crWaiters = [] →
        ∃ t, exec .computeResetStepEnd s = .next t ∧ t.boot = { s.boot with crStep := 0, phase := 7 } ∧
          t.ao = { s.ao with serving := true, hbStamp := s.now } ∧ State.KeepsBut [.ao, .boot] s t) ∧
      (∀ m e, s.boot.crWaiters = [m + 1] → s.parked m = some e → s.traceOn = false →
        ∃ t, exec .computeResetStepEnd s = .next t ∧ t.boot = { s.boot with crStep := 0, phase := 7, crWaiters := [] } ∧
          t.ao = { s.ao with serving := true, hbStamp := s.now } ∧ s.Completes t m e codeDone 0 ∧
          State.KeepsBut (mailParts ++ [Part.ao, .boot]) s t)) ∧
    (s.ao.serving = true → s.fault.fatal = false → (∀ k, (s.net k).running = false) →
      (∀ n : SectorId, s.images = [] → s.cores = [] → (s.sector n.val).mig = none →
        ∃ t, exec (.sectorReset n) s = .next t ∧ t.sector n.val = (s.sector n.val).cleared ∧ (t.sector n.val).mem = [] ∧
          (t.sector n.val).inp = [] ∧ (t.sector n.val).toCore = [] ∧ State.SectorsBut [n.val] s t ∧
          t.fault.log = (faultEntry s.now classNotice 2 (32 * n.val) 3 0 s.ao.epoch 0 :: s.fault.log).take 16384 ∧
          State.KeepsBut [.sectors, .cores, .flows, .ctr, .snap, .fault, .pcie, .out] s t) ∧
      (∀ c : CoreId, (s.core c.val).image = 0 → (s.core c.val).hostMb = 0 → (s.core c.val).snapWait = 0 →
        ∃ t, exec (.coreReset c) s = .next t ∧ t.core c.val = {} ∧ State.SectorsBut [sectorOf c.val] s t ∧
          t.fault.log = (faultEntry s.now classNotice 1 c.val 3 0 s.ao.epoch 0 :: s.fault.log).take 16384 ∧
          s.SameBytes t ∧ State.KeepsBut [.sectors, .cores, .flows, .ctr, .snap, .fault, .pcie, .out] s t))) ∧
  (∀ s : State,
    (∀ pin low taken, low < 20 ∨ low < 1000 ∧ taken = false → exec (.deviceResetAssert pin low taken) s = .next s) ∧
    (s.ao.porReleased = true → s.boot.next ≠ 1 → s.ao.inReset = false →
      (∀ pin low taken, 1000 ≤ low ∨ 20 ≤ low ∧ taken = true → ∃ t, exec (.deviceResetAssert pin low taken) s = .next t ∧
        t.ao.inReset = true ∧ t.ao.resetCause = (if pin = .perst then 1 else 2) ∧ t.ao.serving = false ∧
        t.ao.time = s.ao.time ∧ t.boot.devReady = false ∧ t.nets = [] ∧ t.cores = [] ∧ t.flows = [] ∧ t.pcie = {} ∧
        t.fault.log = s.fault.log ∧ t.sec = s.sec.rebooted ∧ (s.gddr.held = [] → t.gddr.mem = s.gddr.mem) ∧
        t.board = s.board ∧ t.pending = s.pending) ∧
      (∀ d, s.ao.tripped = false → ∃ t, exec (.vcoreResetCrossing d) s = .next t ∧ t.ao.resetCause = 3 ∧
        t.ao.srFailed = !d ∧ t.ao.serving = false ∧ t.ao.time = s.ao.time ∧ t.boot.devReady = false ∧ t.nets = [] ∧
        t.cores = [] ∧ t.flows = [] ∧ t.pcie = {} ∧ t.fault.log = s.fault.log ∧ t.sec = s.sec.rebooted ∧
        (s.gddr.held = [] → t.gddr.mem = s.gddr.mem) ∧ t.board = s.board ∧ t.pending = s.pending)) ∧
    (∀ pin, s.ao.tripped = false → (pin = .perst ∨ s.ao.perstHigh = true) → (pin = .reset ∨ s.ao.resetHigh = true) →
      ∃ t, exec (.deviceResetRelease pin) s = .next t ∧
        t.ao = { s.ao with perstHigh := true, resetHigh := true, inReset := false } ∧ State.KeepsBut [.ao] s t) ∧
    (∀ cause, cause = (if s.ao.tripped then 6 else 4) →
      ∃ t, exec .vauxResetCrossing s = .next t ∧
        t = { pending := s.pending, board := s.board, sec := s.sec.rebooted, out := s.out, free := s.free
              ao := { perstHigh := s.ao.perstHigh, resetHigh := s.ao.resetHigh, resetCause := cause } }) ∧
    (∃ t, exec .aoClockLoss s = .next t ∧
      t = { pending := s.pending, board := s.board, sec := s.sec.rebooted, out := s.out, free := s.free
            ao := { perstHigh := s.ao.perstHigh, resetHigh := s.ao.resetHigh, resetCause := 0 } }))

/-- 18 R449 to R452, R456: with a valid spare the rotation takes the core that a waiting RUN_SELFTEST names, else the physical core whose
test is oldest: one that carries nothing is tested where it stands; another migrates to the spare at a step boundary when its window
is free, and is deferred and counted when it is not. Where the signatures agree the switch ends the migration: the map names the
spare, the freed core is tested, and the held events are replayed in order; where they do not, the map stays, with the same replay.
Said of replay into a core that does not run, whose queue has room, and of an abandoned one that no command asked for.

18 R453 to R455: a slice with the golden signature passes; after the twelfth the core under test is the spare, its test time noted. A
repairable defect of a march slice is repaired while a spare element is left, and the slice repeats. Any other disagreement fences
the core, in the fault record and the flash, and it is no valid spare. A RUN_SELFTEST that asked for the test completes with result,
core and signature. A bank is tested from segment 0 to 7, with the same repairs; one with a failed segment is marked failed (said of
banks 2 to 63), and a command that asked for it is DONE. Every slice is counted.

18 R470, R471, R473, R474: the latch stamps the owner's heartbeat; an owner without acknowledgement fences itself. A standby gets the
latch only once the stamp is more than 30 ms old: the epoch advances, migrations are abandoned, it serves and the takeover is logged;
before that the request is counted as refused. (The log entry is said while no entry to the ensign waits.) A stamp older
than 100 ms without a standby starts a compute-partition reset: no network runs, no migration is left, the owner does not serve. -/
def Obligations.RotationAndOwnership : Prop :=
  (∀ (n : SectorId) (s : State) (q : SectorSt), q = s.sector n.val →
    (∀ p mb, s.ao.serving = true → s.ao.pstate = 0 → s.fault.fatal = false → q.spareValid = true → q.mig = none → q.test = none →
      (s.selftestWaiting n.val 0 = none ∧ s.oldestTest n.val = some p ∧ mb = 0 ∨
        ∃ m e, s.selftestWaiting n.val 0 = some (m, e) ∧ leAt e.cmd 0x42 2 = p ∧ s.testable n.val p = true ∧ mb = m + 1) →
      ∃ t, exec (.migrationStart n) s = .next t ∧ t.fault = (s.rotateLate n.val).fault ∧
        (s.carriedCore n.val p = none →
          t.sector n.val = { q with test := some { phys := p, mb := mb }, spareValid := false } ∧ t.ctr = s.ctr) ∧
        (∀ c, s.carriedCore n.val p = some c →
          (s.atStepBoundary c = true → s.windowFree c = true →
            t.sector n.val = { q with
              mapState := Tab.set q.mapState 0 (indexOf c) 1, spareValid := false
              mig := some { core := c, dest := q.spareIndex, start := s.now, mb := mb } } ∧ t.ctr = s.ctr) ∧
          (s.atStepBoundary c = true → s.windowFree c = false → t.sector n.val = q ∧
            t.ctrAt Scope.sector n.val Ctr.rotateDeferred noSub 0 =
              satCtr (s.ctrAt Scope.sector n.val Ctr.rotateDeferred noSub 0 + 1)) ∧
          (s.atStepBoundary c = false → t.sector n.val = q ∧ t.ctr = s.ctr)) ∧
        State.SectorsBut [n.val] s t ∧ State.KeepsBut [.sectors, .fault, .ctr] s t) ∧
    (∀ g agree i k, q.mig = some g → i = indexOf g.core → k = s.core g.core → (agree = false → g.mb = 0) →
      (s.netOf g.core).shed = false → (s.netOf g.core).running = false → plainEvents k.rq + q.migBuf.length + k.credit ≤ 4096 →
      (k.net = 0 ∨ ∀ e ∈ q.migBuf, (e.tag + 4 - s.cutStep g.core % 4) % 4 < 2) →
      ∃ t, exec (.migrationComplete n agree) s = .next t ∧ t.core g.core = { k with rq := k.rq ++ q.migHeld } ∧
        (agree = true →
          t.sector n.val = { q with
            mig := none, migBuf := [], mapState := Tab.set q.mapState 0 i 0, mapPhys := Tab.set q.mapPhys i i g.dest
            test := some { phys := q.phys i, mb := g.mb } } ∧
          t.ctrAt Scope.sector n.val Ctr.migrateCount noSub 0 =
            satCtr (s.ctrAt Scope.sector n.val Ctr.migrateCount noSub 0 + 1)) ∧
        (agree = false →
          t.sector n.val = { q with
            mig := none, migBuf := [], mapState := Tab.set q.mapState 0 i 0, spareValid := true }) ∧
        State.SectorsBut [n.val] s t ∧ State.CoresBut [g.core] s t ∧ State.KeepsBut [.sectors, .cores, .ctr] s t)) ∧
  ((∀ (n : SectorId) (s : State) (q : SectorSt) (x : CoreTest) (v g : Word64) (r : Bool), q = s.sector n.val → q.test = some x →
    s.boot.crStep = 0 → s.fault.fatal = false →
    ∃ t, exec (.coreSelftestSlice n v g r) s = .next t ∧
      t.ctrAt Scope.sector n.val Ctr.selftestSlices noSub 0 =
        satCtr (s.ctrAt Scope.sector n.val Ctr.selftestSlices noSub 0 + 1) ∧
      (v = g → x.slice < 11 → t.sector n.val = { q with test := some { x with slice := x.slice + 1 } } ∧
        State.KeepsBut [.sectors, .ctr] s t) ∧
      (v ≠ g → 4 ≤ x.slice → r = true → q.spareElem ≠ 0 →
        t.sector n.val = { q with softUsed := min 255 (q.softUsed + 1), spareElem := q.spareElem - 1, softPending := true } ∧
        State.KeepsBut [.sectors, .ctr] s t) ∧
      (s.traceOn = false ∨ x.mb = 0 →
        (v = g → 11 ≤ x.slice →
          t.sector n.val = { q with
            test := none, spareIndex := x.phys, spareValid := true, lastTest := Tab.set q.lastTest 0 x.phys (s.now + 1) } ∧
          (∀ m e, x.mb = m + 1 → s.parked m = some e →
            s.Completes t m e codeDone 0 (selftestInline 0 x.phys v.toNat)) ∧
          (x.mb = 0 → t.mbox = s.mbox) ∧ State.KeepsBut (mailParts ++ [Part.sectors]) s t) ∧
        (v ≠ g → ¬ (4 ≤ x.slice ∧ r = true ∧ q.spareElem ≠ 0) → q.carried x.phys = none →
          t.ao = { s.ao with
            fenced := Tab.set s.ao.fenced 0 n.val (put (Tab.get s.ao.fenced 0 n.val) x.phys x.phys 1) } ∧
          t.sec = { s.sec with
            flashFence := Tab.set s.sec.flashFence 0 n.val (put (Tab.get s.sec.flashFence 0 n.val) x.phys x.phys 1) } ∧
          t.sector n.val = { q with test := none, spareValid := q.spareValid && x.phys != q.spareIndex } ∧
          t.ctrAt Scope.sector n.val Ctr.selftestFail noSub 0 =
            satCtr (s.ctrAt Scope.sector n.val Ctr.selftestFail noSub 0 + 1) ∧
          (∀ m e, x.mb = m + 1 → s.parked m = some e →
            s.Completes t m e codeDone 0 (selftestInline 1 x.phys v.toNat)) ∧
          (x.mb = 0 → t.mbox = s.mbox) ∧ State.KeepsBut (mailParts ++ [Part.ao, .sec, .sectors]) s t)) ∧
      (s.traceOn = false ∨ x.mb = 0 ∨ v = g ∧ x.slice < 11 → State.SectorsBut [n.val] s t ∧ s.SameBytes t)) ∧
  (∀ (n : SectorId) (s : State) (q : SectorSt) (b : Fin 64) (g : Fin 8) (pass r fails : Bool) (el : Nat), q = s.sector n.val →
    s.ao.serving = true → s.fault.fatal = false → q.mig = none → q.bankTest = (if g.val = 0 then 0 else b.val + 1) →
    el = (if pass = false ∧ r = true then min 1 q.spareElem else 0) →
    fails = (!pass && el == 0 || g.val != 0 && q.bankFail) → g.val < 7 ∨ fails = false ∨ 2 ≤ b.val →
    g.val < 7 ∨ s.traceOn = false ∨ s.selftestWaiting n.val 1 = none →
    ∃ t, exec (.bankSelftestSlice n b g pass r) s = .next t ∧
      t.ctrAt Scope.sector n.val Ctr.selftestSlices noSub 0 =
        satCtr (s.ctrAt Scope.sector n.val Ctr.selftestSlices noSub 0 + 1) ∧
      (pass = false → el = 0 → t.ctrAt Scope.sector n.val Ctr.selftestFail noSub 0 =
        satCtr (s.ctrAt Scope.sector n.val Ctr.selftestFail noSub 0 + 1)) ∧
      t.sector n.val = { q with
        bankTest := if g.val < 7 then b.val + 1 else 0, bankFail := fails && g.val < 7
        softUsed := if el = 0 then q.softUsed else min 255 (q.softUsed + 1), spareElem := q.spareElem - el
        softPending := el != 0 || q.softPending } ∧
      (g.val < 7 ∨ fails = false → t.ao = s.ao ∧ t.sec = s.sec) ∧
      (g.val = 7 → fails = true →
        t.ao = { s.ao with
          badBanks := Tab.set s.ao.badBanks 0 n.val (put (Tab.get s.ao.badBanks 0 n.val) b.val b.val 1) } ∧
        t.sec = { s.sec with
          flashBanks := Tab.set s.sec.flashBanks 0 n.val (put (Tab.get s.sec.flashBanks 0 n.val) b.val b.val 1) }) ∧
      (∀ m e, g.val = 7 → s.selftestWaiting n.val 1 = some (m, e) → leAt e.cmd 0x42 2 = b.val → s.Completes t m e codeDone 0) ∧
      (g.val < 7 ∨ s.selftestWaiting n.val 1 = none → t.mbox = s.mbox) ∧
      State.SectorsBut [n.val] s t ∧ s.SameBytes t ∧ State.KeepsBut (mailParts ++ [Part.ao, .sec, .sectors]) s t)) ∧
  (∀ (s : State) (a : AoSt), a = s.ao →
    (a.serving = true →
      (∃ t, exec .ownerHeartbeat s = .next t ∧ t.ao = { a with hbStamp := s.now } ∧ State.KeepsBut [.ao] s t) ∧
      (∃ t, exec .latchAckTimeout s = .next t ∧
        t.ao = { a with serving := false, selfFenced := nsetBit a.selfFenced (b2n a.ownerSouth) } ∧
        State.KeepsBut [.ao] s t)) ∧
    (a.standbyUp = true → a.halFenced (!a.ownerSouth) = false → a.pstate < 2 → s.boot.devReady = true → s.boot.crStep = 0 →
      (a.hbStamp + 30000000 < s.now →
        ∃ t, exec .latchRequest s = .next t ∧
          t.ao = { a with
            ownerSouth := !a.ownerSouth, epoch := (a.epoch + 1) % 2 ^ 32, standbyUp := false, serving := true, hbStamp := s.now
            ensignPending := 0 } ∧
          nbit t.pcie.cause 2 = true ∧ (∀ n, n < 8 → (t.sector n).mig = none) ∧
          (a.ensignPending = 0 →
            t.fault.log = (faultEntry s.now classDegraded 8 (b2n a.ownerSouth) 7 0 ((a.epoch + 1) % 2 ^ 32) 0 ::
              s.fault.log).take 16384 ∧
            ((∀ n, n < 8 → (s.sector n).mig = none) → State.KeepsBut [.ao, .fault, .pcie, .out, .ctr] s t))) ∧
      (s.now ≤ a.hbStamp + 30000000 →
        ∃ t, exec .latchRequest s = .next t ∧
          t.ctrAt Scope.device 0 Ctr.latchRefused noSub 0 = satCtr (s.ctrAt Scope.device 0 Ctr.latchRefused noSub 0 + 1) ∧
          State.KeepsBut [.ctr] s t)) ∧
    (a.standbyUp = false → a.pstate < 2 → s.boot.devReady = true → a.hbStamp + 100000000 < s.now → s.boot.crStep = 0 →
      s.fault.fatal = false →
      ∃ t, exec .ownerStaleReset s = .next t ∧ t.boot = { s.boot with crStep := 1, phase := 8 } ∧
        t.ao = { a with serving := false } ∧ (∀ k, k < 16 → (t.net k).running = false) ∧
        (∀ n, n < 8 → (t.sector n).mig = none ∧ (t.sector n).test = (s.sector n).test.map fun x => { x with slice := 0 }) ∧
        t.fault = s.fault ∧ t.sec = s.sec ∧ t.images = s.images))

/-- 18 R472; 01 R20, R25; 16 R410: a write by the owner acts: an entry of the core map, where R20 allows it; a power switch; the clocks of a
sector, and of all that share its scheduled routes, which stop for their relock and are counted, once their cores are at step
boundaries and not before; the acceptance of a mailbox and its journal head; the system area below its reserved range, while
its channels serve. A write by the other Halyard is dropped, counted and logged. -/
def Obligations.GlobalControlWrites : Prop :=
  ∀ (s : State) (own : Bool), own = s.ao.ownerSouth →
    (s.ao.halFenced own = false →
      (∀ (c : CoreId) v q i, q = s.sector (sectorOf c.val) → i = indexOf c.val →
        (s.mapWriteOk c.val (fld v 7 6) (fld v 4 0) = true →
          ∃ t, exec (.globalControlWrite own (.coreMap c v)) s = .next t ∧
            t.sector (sectorOf c.val) = { q with
              mapState := Tab.set q.mapState 0 i (fld v 7 6), mapPhys := Tab.set q.mapPhys i i (fld v 4 0) } ∧
            State.SectorsBut [sectorOf c.val] s t ∧ State.KeepsBut [.sectors, .out] s t) ∧
        (s.mapWriteOk c.val (fld v 7 6) (fld v 4 0) = false →
          exec (.globalControlWrite own (.coreMap c v)) s = .next s)) ∧
      (∀ (n : SectorId) on, ∃ t, exec (.globalControlWrite own (.powerSwitch n on)) s = .next t ∧
        t.sector n.val = { s.sector n.val with powered := on } ∧ State.SectorsBut [n.val] s t ∧
        State.KeepsBut [.sectors, .out] s t) ∧
      (∀ (n : SectorId) (op : Fin 4),
        ((∀ c ∈ Tab.keys s.cores, sectorOf c ∈ s.clockGroup n.val → s.atStepBoundary c = true) →
          ∃ t, exec (.globalControlWrite own (.sectorClock n op)) s = .next t ∧
            (∀ m, m ∈ s.clockGroup n.val → (s.sector m).opSet ≠ op.val →
              t.sector m = { s.sector m with opNext := op.val + 1, stopped := true, aligned := false } ∧
              t.ctrAt Scope.sector m Ctr.freqChange noSub 0 = satCtr (s.ctrAt Scope.sector m Ctr.freqChange noSub 0 + 1)) ∧
            (∀ m, m ∉ s.clockGroup n.val ∨ (s.sector m).opSet = op.val → t.sector m = s.sector m) ∧
            State.KeepsBut [.sectors, .ctr, .out] s t) ∧
        ((∃ c ∈ Tab.keys s.cores, sectorOf c ∈ s.clockGroup n.val ∧ s.atStepBoundary c = false) →
          exec (.globalControlWrite own (.sectorClock n op)) s = .next s)) ∧
      (∀ (m : MboxId) (v : Word32), ∃ t, exec (.globalControlWrite own (.mailboxAccept m v)) s = .next t ∧
        t.mb m.val = { s.mb m.val with accCode := fld v 31 24, accReason := fld v 23 8, accDup := nbit v.toNat 7 } ∧
        State.MbBut [m.val] s t ∧ State.KeepsBut [.mbox, .out] s t) ∧
      (∀ (m : MboxId) (v : Word64), ∃ t, exec (.globalControlWrite own (.journalHead m v)) s = .next t ∧
        t.mb m.val = { s.mb m.val with jhead := v.toNat } ∧ State.MbBut [m.val] s t ∧ State.KeepsBut [.mbox, .out] s t) ∧
      (∀ at_ bytes, at_ + bytes.length ≤ 0x05200000 → s.gHeld at_ bytes.length = false →
        ∃ t, exec (.globalControlWrite own (.systemArea at_ bytes)) s = .next t ∧
          memRead t.gddr.mem at_ bytes.length = bytes ∧
          (∀ b, b < at_ ∨ at_ + bytes.length ≤ b → memByte t.gddr.mem b = memByte s.gddr.mem b) ∧
          State.KeepsBut [.gddr, .ctr, .out] s t)) ∧
    (∀ w, ∃ t, exec (.globalControlWrite (!own) w) s = .next t ∧
      t.ctrAt Scope.device 0 Ctr.nonownerWrite noSub 0 = satCtr (s.ctrAt Scope.device 0 Ctr.nonownerWrite noSub 0 + 1) ∧
      nbit t.fault.events 1 = true ∧
      t.fault.log = (faultEntry s.now classDegraded 9 (b2n (!own)) 0 0 s.ao.epoch 0 :: s.fault.log).take 16384 ∧
      State.KeepsBut [.fault, .pcie, .out, .ctr] s t)

/-- 19 R486, R487: while firmware runs, GET_VERSION, GET_CAPABILITIES and NEGOTIATE_ALGORITHMS are answered; in DEV and FIELD so are
the requests that attest: the digest and portions of the chain of slot 0, a challenge signed with the requester's nonce, and the
measurements, signed where asked. Each starts a wake of the always-on domain and changes nothing else but the free values and what is
sent. The codes and layouts of the answers are the model's (log 61). -/
def Obligations.SpdmRequestsAreAnswered : Prop :=
  ∀ s : State, s.vendorUp = true →
    (∃ t, exec .spdmGetVersion s = .next t ∧ t.ao = (s.startWake 0).ao ∧ t.out = s.out ++ [Out.mgmt 5 0x04 [1, 0x00, 0x12]] ∧
      State.KeepsBut [.ao, .out] s t) ∧
    (∃ t, exec .spdmGetCapabilities s = .next t ∧ t.ao = (s.startWake 0).ao ∧
      t.out = s.out ++ [Out.mgmt 5 0x61 [0x16, 0, 0, 0]] ∧ State.KeepsBut [.ao, .out] s t) ∧
    (∃ t, exec .spdmNegotiateAlgorithms s = .next t ∧ t.ao = (s.startWake 0).ao ∧
      t.out = s.out ++ [Out.mgmt 5 0x63 [8, 0, 0, 0, 0, 2, 0, 0, 4, 0, 0, 0]] ∧ State.KeepsBut [.ao, .out] s t) ∧
    (s.sec.lc = 1 ∨ s.sec.lc = 2 →
      (∃ t, exec .spdmGetDigests s = .next t ∧ t.ao = (s.startWake 0).ao ∧
        t.out = s.out ++ [Out.mgmt 5 0x01 (1 :: sha512 s.chain)] ∧ State.KeepsBut [.ao, .out] s t) ∧
      (∀ slot off len, ∃ t, exec (.spdmGetCertificate slot off len) s = .next t ∧ t.ao = (s.startWake 0).ao ∧
        (slot = 0 → off < s.chain.length →
          t.out = s.out ++ [Out.mgmt 5 0x02 (toLe 2 ((s.chain.drop off).take len).length ++
            toLe 2 (s.chain.length - off - ((s.chain.drop off).take len).length) ++ (s.chain.drop off).take len)]) ∧
        (slot ≠ 0 ∨ s.chain.length ≤ off → t.out = s.out ++ [Out.mgmt 5 0x7F [1, 0]]) ∧ State.KeepsBut [.ao, .out] s t) ∧
      (∀ slot nonce, ∃ t, exec (.spdmChallenge slot nonce) s = .next t ∧ t.ao = (s.startWake 0).ao ∧
        (slot = 0 → ∃ u : List Byte, u.length = 32 ∧
          t.out = s.out ++ [Out.mgmt 5 0x03 (sha512 s.chain ++ u ++ s.sign (nonce ++ (sha512 s.chain ++ u)))]) ∧
        (slot ≠ 0 → t.out = s.out ++ [Out.mgmt 5 0x7F [1, 0]]) ∧ State.KeepsBut [.ao, .out, .free] s t) ∧
      (∀ i signed nonce l r, (i = 0 ∧ l = []) ∨ (i = 255 ∧ l = measureIndices) ∨ (i ∈ measureIndices ∧ l = [i]) →
        r = toLe 1 (if i = 0 then measureIndices.length else l.length) ++ l.flatMap s.measureBlock →
        ∃ t, exec (.spdmGetMeasurements i signed nonce) s = .next t ∧ t.ao = (s.startWake 0).ao ∧
          (signed = false → t.out = s.out ++ [Out.mgmt 5 0x60 r]) ∧
          (signed = true → ∃ u : List Byte, u.length = 32 ∧
            t.out = s.out ++ [Out.mgmt 5 0x60 (r ++ u ++ s.sign (nonce ++ (r ++ u)))]) ∧
          State.KeepsBut [.ao, .out, .free] s t))

/-- 19 R487: in BLANK and RMA, GET_DIGESTS, GET_CERTIFICATE, CHALLENGE and GET_MEASUREMENTS are answered with an SPDM ERROR
response, error code Unspecified (its layout is the model's, log 61); each starts a wake, and nothing else changes. -/
def Obligations.SpdmErrorInBlankAndRma : Prop :=
  ∀ (s : State), s.vendorUp = true → s.sec.lc = 0 ∨ s.sec.lc = 3 →
    ∃ t, t.out = s.out ++ [Out.mgmt 5 0x7F [5, 0]] ∧ t.ao = (s.startWake 0).ao ∧ State.KeepsBut [.ao, .out] s t ∧
      exec .spdmGetDigests s = .next t ∧ (∀ a b d, exec (.spdmGetCertificate a b d) s = .next t) ∧
      (∀ a n, exec (.spdmChallenge a n) s = .next t) ∧ (∀ i g n, exec (.spdmGetMeasurements i g n) s = .next t)

/-- 19 R488, R489, R491: an MCTP control message is answered, and Set Endpoint ID sets the endpoint ID unless that is 0 or 255; one that
is too long or out of sequence is discarded and counted in MCTP_DISCARD. PLDM base commands are answered in every life-cycle state;
PLDM monitoring answers the numeric and state sensors and registers the event receiver. Each starts a wake of the always-on domain
and changes nothing else but what is sent and free values. The codes and layouts of the answers are the model's (log 61). -/
def Obligations.SidebandMessages : Prop :=
  ∀ s : State, s.sidebandUp = true →
    (∀ m len ok, 4224 < len ∨ ok = false →
      ∃ t, exec (.mctpControlMessage m len ok) s = .next t ∧ t.ao = (s.startWake 0).ao ∧
        t.ctrAt Scope.device 0 Ctr.mctpDiscard noSub 0 = satCtr (s.ctrAt Scope.device 0 Ctr.mctpDiscard noSub 0 + 1) ∧
        State.KeepsBut [.ao, .ctr] s t) ∧
    (∀ len, len ≤ 4224 →
      (∀ e : Byte, ∃ t, exec (.mctpControlMessage (.setEndpointId e) len true) s = .next t ∧ t.ao = (s.startWake 0).ao ∧
        (e ≠ 0 → e ≠ 255 → t.sec = { s.sec with eid := e } ∧ t.out = s.out ++ [Out.mgmt 0 0x01 [0, 0, e, 0]]) ∧
        (e = 0 ∨ e = 255 → t.sec = s.sec ∧ t.out = s.out ++ [Out.mgmt 0 0x01 [2]]) ∧ State.KeepsBut [.ao, .sec, .out] s t) ∧
      (∃ t, exec (.mctpControlMessage .getEndpointId len true) s = .next t ∧ t.ao = (s.startWake 0).ao ∧
        t.out = s.out ++ [Out.mgmt 0 0x02 [0, s.sec.eid, 0, 0]] ∧ State.KeepsBut [.ao, .out] s t) ∧
      (∀ c : Byte, ∃ t b, exec (.mctpControlMessage (.other c) len true) s = .next t ∧ t.ao = (s.startWake 0).ao ∧
        t.out = s.out ++ [Out.mgmt 0 c.toNat b] ∧ (c = 5 → b = [0, 4, 0x00, 0x01, 0x05, 0x7E]) ∧
        (c = 3 ∨ c = 4 → b.length = 17 ∧ b.head? = some 0) ∧ (c.toNat < 3 ∨ 5 < c.toNat → b = [5]) ∧
        State.KeepsBut [.ao, .out, .free] s t)) ∧
    (∀ code : Byte, ∃ t b, exec (.pldmBaseCommand code) s = .next t ∧ t.ao = (s.startWake 0).ao ∧
      t.out = s.out ++ [Out.mgmt 1 code.toNat b] ∧ (code = 4 → b = [0, 0x25, 0, 0, 0, 0, 0, 0, 0]) ∧
      (code ≠ 4 → 1 ≤ code.toNat → code.toNat ≤ 5 → b.length = 33 ∧ b.head? = some 0) ∧
      (code.toNat = 0 ∨ 5 < code.toNat → b = [5]) ∧ State.KeepsBut [.ao, .out, .free] s t) ∧
    (s.monitorUp = true →
      (∀ n : Nat, ∃ t, exec (.pldmMonitoringRequest (.getSensorReading n)) s = .next t ∧ t.ao = (s.startWake 0).ao ∧
        (n = 1 → t.out = s.out ++ [Out.mgmt 1 0x11 (0 :: toLe 2 (toField 16 s.ao.hottest.1))]) ∧
        (n = 2 → ∃ b : List Byte, b.length = 4 ∧ t.out = s.out ++ [Out.mgmt 1 0x11 (0 :: b)]) ∧
        (3 ≤ n → n ≤ 7 → t.out = s.out ++ [Out.mgmt 1 0x21 [0, BitVec.ofNat 8 (s.sensor n)]]) ∧
        (n = 0 ∨ 7 < n → t.out = s.out ++ [Out.mgmt 1 0x11 [0x80]]) ∧ State.KeepsBut [.ao, .out, .free] s t) ∧
      (∀ e : Byte, ∃ t, exec (.pldmMonitoringRequest (.setEventReceiver e)) s = .next t ∧ t.ao = (s.startWake 0).ao ∧
        t.sec = { s.sec with receiver := some e } ∧ t.out = s.out ++ [Out.mgmt 1 0x04 [0]] ∧
        State.KeepsBut [.ao, .sec, .out] s t))

/-- 19 R489, R492: RequestUpdate copies slot A to slot B, and is refused while an update is under way; the data are written into slot A
as they arrive; at VerifyComplete an image that fails a check is replaced from slot B, and one that passes may be activated; the
update then stands pending. Nothing else changes but the wake that each message starts and its answer, whose codes are the model's
(log 61).

18 R448; 19 R476, R485, R489: the minimum SVN advances to the running SVN once slot B holds a verified copy of slot A; JTAG
grants what the life-cycle state and any authorisation allow, and debug access that is granted stays open. Nothing else changes but
the wake that the request starts and the answer. -/
def Obligations.FirmwareAndSvn : Prop :=
  (∀ s : State, s.updateUp = true →
    (∃ t, exec .requestUpdate s = .next t ∧ t.ao = (s.startWake 0).ao ∧
      (s.sec.updating = false → t.out = s.out ++ [Out.mgmt 1 0x10 [0]] ∧ t.sec = { s.sec with
        slotB := s.sec.slotA, boardB := s.sec.boardA, updating := true, verified := false }) ∧
      (s.sec.updating = true → t.out = s.out ++ [Out.mgmt 1 0x10 [0x81]] ∧ t.sec = s.sec) ∧
      State.KeepsBut [.ao, .sec, .out] s t) ∧
    (s.sec.updating = true →
      (∀ off data, data ≠ [] → off + data.length ≤ slotBytes →
        ∃ t, exec (.requestFirmwareData off data) s = .next t ∧ t.ao = (s.startWake 0).ao ∧
          t.sec = { s.sec with
            verified := false
            slotA := slotRead s.sec.boardA off s.sec.slotA ++ data ++ s.sec.slotA.drop (off + data.length) } ∧
          State.KeepsBut [.ao, .sec] s t) ∧
      (∃ t, exec .verifyComplete s = .next t ∧ t.ao = (s.startWake 0).ao ∧
        (s.sec.slotOk s.sec.svnMin s.sec.boardA s.sec.slotA s.foundA = true →
          t.out = s.out ++ [Out.mgmt 1 0x17 [0]] ∧ t.sec = { s.sec with verified := true }) ∧
        (s.sec.slotOk s.sec.svnMin s.sec.boardA s.sec.slotA s.foundA = false →
          t.out = s.out ++ [Out.mgmt 1 0x17 [1]] ∧ t.sec = { s.sec with
            slotA := s.sec.slotB, boardA := s.sec.boardB, updating := false, verified := false }) ∧
        State.KeepsBut [.ao, .sec, .out] s t) ∧
      (s.sec.verified = true → ∃ t, exec .activateFirmware s = .next t ∧ t.ao = (s.startWake 0).ao ∧
        t.out = s.out ++ [Out.mgmt 1 0x1A [0]] ∧
        t.sec = { s.sec with updPending := true, updating := false, verified := false } ∧
        State.KeepsBut [.ao, .sec, .out] s t))) ∧
  ((∀ s : State, s.vendorUp = true → s.sec.lc = 1 ∨ s.sec.lc = 2 → s.boot.fwSlot = 0 → s.sec.updating = false →
    s.sec.slotOk (max s.sec.svnMin s.sec.svnRun) s.sec.boardA s.sec.slotA s.foundA = true →
    ∃ t, exec .commitMinimumSvn s = .next t ∧ t.ao = (s.startWake 0).ao ∧ t.out = s.out ++ [Out.mgmt 0x7E 0x20 [0]] ∧
      t.sec = { s.sec with
        svnMin := max s.sec.svnMin s.sec.svnRun, slotB := s.sec.slotA, boardB := s.sec.boardA } ∧
      State.KeepsBut [.ao, .sec, .out] s t) ∧
  (∀ (s : State) (op : JtagOp), ∃ t, exec (.jtagAccess op) s = .next t ∧ t.out = s.out ++ [Out.jtag (s.sec.jtagAllows op)] ∧
    (∀ a, op = .debugAccess a → s.sec.jtagAllows op = true → t.sec = { s.sec with jtagOpen := true }) ∧
    ((∀ a, op ≠ .debugAccess a) ∨ s.sec.jtagAllows op = false → t.sec = s.sec) ∧ State.KeepsBut [.sec, .out] s t))

/-- 19 R479: a challenge issues a new 32-byte nonce, which replaces the one before and is what the answer carries; a wake starts, and
nothing else changes.

19 R477 to R480: a good debug authorisation grants its PERMS; a good life-cycle authorisation for a change of R477 leaves the change
pending and ends a standing debug authorisation; any other authorisation is refused and counted. In each case the nonce expires
and the life-cycle state stays. Where no debug authorisation stood, nothing else changes but the wake and the answer.

19 R480: when a debug authorisation is revoked its permissions are gone: the fault injection it permitted stops on every port and
the JTAG debug access it permitted closes. The life-cycle state and the minimum SVN stay. Where it did not permit debug commands, no
part of the state but the journal marks of its commands, the ports, the wake and the answer changes besides. -/
def Obligations.DebugAuthorisations : Prop :=
  (∀ s : State, s.vendorUp = true → ∃ t n, exec .debugChallenge s = .next t ∧ n.length = 32 ∧
    t.sec = { s.sec with nonce := some n } ∧ t.out = s.out ++ [Out.mgmt 0x7E 0x10 (0 :: n)] ∧ t.ao = (s.startWake 0).ao ∧
    State.KeepsBut [.ao, .sec, .out, .free] s t) ∧
  (∀ (s : State) (b : List Byte), s.vendorUp = true →
    (s.sec.authGood b = true → leAt b 1 1 = 1 →
      ∃ t, exec (.submitAuthorisation b) s = .next t ∧ t.sec.auth = true ∧ t.sec.perms = leAt b 2 2 % 8 ∧
        t.sec.nonce = none ∧ t.sec.lc = s.sec.lc ∧
        (s.sec.auth = false → t.out = s.out ++ [Out.mgmt 0x7E 0x11 [0]] ∧ t.ao = (s.startWake 0).ao ∧
          t.sec = { s.sec with nonce := none, auth := true, perms := leAt b 2 2 % 8 } ∧
          State.KeepsBut [.ao, .sec, .out] s t)) ∧
    (s.sec.authGood b = true → leAt b 1 1 = 2 → lcChange s.sec.fused (leAt b 2 2) s.sec.certWritten = true →
      ∃ t, exec (.submitAuthorisation b) s = .next t ∧ t.sec.lcPending = leAt b 2 2 + 1 ∧ t.sec.lc = s.sec.lc ∧
        t.sec.nonce = none ∧ t.sec.auth = false ∧
        (s.sec.auth = false → t.out = s.out ++ [Out.mgmt 0x7E 0x11 [0]] ∧ t.ao = (s.startWake 0).ao ∧
          t.sec = { s.sec with nonce := none, lcPending := leAt b 2 2 + 1 } ∧ State.KeepsBut [.ao, .sec, .out] s t)) ∧
    (s.sec.authGood b = false ∨
        (leAt b 1 1 = 2 ∧ lcChange s.sec.fused (leAt b 2 2) s.sec.certWritten = false) →
      ∃ t, exec (.submitAuthorisation b) s = .next t ∧ t.sec = { s.sec with nonce := none } ∧
        t.ctrAt Scope.device 0 Ctr.authRefused noSub 0 = satCtr (s.ctrAt Scope.device 0 Ctr.authRefused noSub 0 + 1) ∧
        t.out = s.out ++ [Out.mgmt 0x7E 0x11 [1]] ∧ t.ao = (s.startWake 0).ao ∧ State.KeepsBut [.ao, .sec, .out, .ctr] s t)) ∧
  (∀ s : State, s.vendorUp = true → s.sec.auth = true →
    ∃ t, exec .revokeDebugAuthorisation s = .next t ∧ t.sec.auth = false ∧ t.sec.perms = 0 ∧
      (nbit s.sec.perms 1 = true → ∀ p, p < 12 → (t.port p).injMode = 0) ∧
      (nbit s.sec.perms 2 = true → t.sec.jtagOpen = false) ∧ t.sec.lc = s.sec.lc ∧ t.sec.svnMin = s.sec.svnMin ∧
      (nbit s.sec.perms 0 = false → t.out = s.out ++ [Out.mgmt 0x7E 0x12 [0]] ∧ t.ao = (s.startWake 0).ao ∧
        State.KeepsBut [.ao, .sec, .out, .mbox, .ports] s t))
end

