-- ==== Sys2Proof/Laws/Tab.lean ====
section
/-! SUPPORT. Tab.lean: the laws of the keyed tables: a read after a write, the canonical form that every table operation
keeps, and the same for byte memories. -/

namespace Sys2Proof.Machine

variable {α : Type}

@[simp] theorem Tab.get_nil (d : α) (k : Nat) : Tab.get [] d k = d := rfl

theorem Tab.get_erase (t : Tab α) (d : α) (k k' : Nat) :
    Tab.get (Tab.erase t k) d k' = if k' = k then d else Tab.get t d k' := by
  induction t with
  | nil => simp [Tab.erase]
  | cons e t ih =>
    obtain ⟨i, v⟩ := e
    by_cases h : i = k
    · subst h
      simp only [Tab.erase, if_true, ih, Tab.get]
      split
      · rfl
      · next hk => rw [if_neg (Ne.symm hk)]
    · simp only [Tab.erase, if_neg h, Tab.get, ih]
      by_cases h' : k' = k
      · subst h'; simp [h]
      · simp [h']

theorem Tab.get_ins_self (t : Tab α) (d : α) (k : Nat) (v : α) (h : k ∉ Tab.keys t) :
    Tab.get (Tab.ins t k v) d k = v := by
  induction t with
  | nil => simp [Tab.ins, Tab.get]
  | cons e t ih =>
    obtain ⟨i, w⟩ := e
    simp only [Tab.keys, List.map_cons, List.mem_cons, not_or] at h
    by_cases hk : k < i
    · simp [Tab.ins, Tab.get, hk]
    · simp [Tab.ins, Tab.get, hk, Ne.symm h.1, ih h.2]

theorem Tab.get_ins_ne (t : Tab α) (d : α) (k k' : Nat) (v : α) (h : k' ≠ k) :
    Tab.get (Tab.ins t k v) d k' = Tab.get t d k' := by
  induction t with
  | nil => simp [Tab.ins, Tab.get, Ne.symm h]
  | cons e t ih =>
    obtain ⟨i, w⟩ := e
    by_cases hk : k < i
    · simp [Tab.ins, Tab.get, hk, Ne.symm h]
    · simp [Tab.ins, Tab.get, hk, ih]

theorem Tab.not_mem_keys_erase (t : Tab α) (k : Nat) : k ∉ Tab.keys (Tab.erase t k) := by
  induction t with
  | nil => simp [Tab.erase, Tab.keys]
  | cons e t ih =>
    obtain ⟨i, v⟩ := e
    by_cases h : i = k
    · simpa [Tab.erase, h] using ih
    · simp only [Tab.erase, h, if_false, Tab.keys, List.map_cons, List.mem_cons, not_or]
      exact ⟨Ne.symm h, ih⟩

/-- A read after a write. -/
@[simp] theorem Tab.get_set [DecidableEq α] (t : Tab α) (d v : α) (k k' : Nat) :
    Tab.get (Tab.set t d k v) d k' = if k' = k then v else Tab.get t d k' := by
  unfold Tab.set
  split
  · next h => subst h; exact Tab.get_erase t v k k'
  · by_cases h : k' = k
    · subst h; simp [Tab.get_ins_self _ _ _ _ (Tab.not_mem_keys_erase t k')]
    · simp [Tab.get_ins_ne _ _ _ _ _ h, Tab.get_erase, h]

/-! ### The canonical form -/

theorem Tab.above_erase (t : Tab α) (j k : Nat) (h : Tab.above t j = true) : Tab.above (Tab.erase t k) j = true := by
  induction t with
  | nil => rfl
  | cons e t ih =>
    obtain ⟨i, v⟩ := e
    simp only [Tab.above, List.all_cons, Bool.and_eq_true] at h
    by_cases hk : i = k
    · simpa [Tab.erase, hk] using ih h.2
    · simpa [Tab.erase, hk, Tab.above, h.1] using ih h.2

theorem Tab.above_ins (t : Tab α) (j k : Nat) (v : α) (h : Tab.above t j = true) (hk : j < k) :
    Tab.above (Tab.ins t k v) j = true := by
  induction t with
  | nil => simp [Tab.ins, Tab.above, hk]
  | cons e t ih =>
    obtain ⟨i, w⟩ := e
    simp only [Tab.above, List.all_cons, Bool.and_eq_true] at h ⊢
    by_cases hi : k < i
    · simp [Tab.ins, hi, hk, h.1]; simpa [Tab.above] using h.2
    · simp [Tab.ins, hi, h.1]; simpa [Tab.above] using ih (by simpa [Tab.above] using h.2)

theorem Tab.wf_erase [DecidableEq α] (t : Tab α) (d : α) (k : Nat) (h : Tab.wf d t = true) :
    Tab.wf d (Tab.erase t k) = true := by
  induction t with
  | nil => rfl
  | cons e t ih =>
    obtain ⟨i, v⟩ := e
    simp only [Tab.wf, Bool.and_eq_true] at h
    by_cases hk : i = k
    · simpa [Tab.erase, hk] using ih h.2
    · simp [Tab.erase, hk, Tab.wf, ih h.2, Tab.above_erase t i k h.1.2]; simpa using h.1.1

theorem Tab.above_trans (t : Tab α) (j k : Nat) (h : Tab.above t k = true) (hj : j < k) : Tab.above t j = true := by
  simp only [Tab.above, List.all_eq_true, decide_eq_true_eq] at h ⊢
  exact fun e he => hj.trans (h e he)

theorem Tab.wf_ins [DecidableEq α] (t : Tab α) (d v : α) (k : Nat) (h : Tab.wf d t = true) (hv : v ≠ d)
    (hk : k ∉ Tab.keys t) : Tab.wf d (Tab.ins t k v) = true := by
  induction t with
  | nil => simp [Tab.ins, Tab.wf, Tab.above, hv]
  | cons e t ih =>
    obtain ⟨i, w⟩ := e
    simp only [Tab.keys, List.map_cons, List.mem_cons, not_or] at hk
    have h' := h
    simp only [Tab.wf, Bool.and_eq_true] at h
    by_cases hi : k < i
    · have : Tab.above ((i, w) :: t) k = true := by
        simp only [Tab.above, List.all_cons, Bool.and_eq_true, decide_eq_true_eq]
        exact ⟨hi, by simpa [Tab.above] using Tab.above_trans t k i h.1.2 hi⟩
      simp [Tab.ins, hi, Tab.wf, hv, this]
      simpa [Tab.wf] using h'
    · have hlt : i < k := by omega
      simp [Tab.ins, hi, Tab.wf, ih h.2 hk.2, Tab.above_ins t i k v h.1.2 hlt]
      simpa using h.1.1

/-- A write keeps the canonical form. -/
theorem Tab.wf_set [DecidableEq α] (t : Tab α) (d v : α) (k : Nat) (h : Tab.wf d t = true) :
    Tab.wf d (Tab.set t d k v) = true := by
  unfold Tab.set
  split
  · exact Tab.wf_erase t d k h
  · next hv => exact Tab.wf_ins _ d v k (Tab.wf_erase t d k h) hv (Tab.not_mem_keys_erase t k)

/-- A restriction keeps the canonical form. -/
theorem Tab.wf_filter [DecidableEq α] (t : Tab α) (d : α) (p : Nat × α → Bool) (h : Tab.wf d t = true) :
    Tab.wf d (t.filter p) = true := by
  induction t with
  | nil => rfl
  | cons e t ih =>
    obtain ⟨i, v⟩ := e
    simp only [Tab.wf, Bool.and_eq_true] at h
    by_cases hp : p (i, v)
    · have : Tab.above (t.filter p) i = true := by
        simp only [Tab.above, List.all_eq_true, decide_eq_true_eq] at *
        exact fun e he => h.1.2 e (List.mem_of_mem_filter he)
      simp [hp, Tab.wf, ih h.2, this]; simpa using h.1.1
    · simpa [hp] using ih h.2

/-! ### Byte memories -/

/-- A byte read after a byte is stored. -/
@[simp] theorem memByte_memSetByte (m : Memory) (a b : Nat) (v : Byte) :
    memByte (memSetByte m a v) b = if b = a then v else memByte m b := Tab.get_set m 0 v a b

/-- A byte read after bytes are stored: the stored byte inside them, the old one outside. -/
theorem memByte_memWrite (m : Memory) (l : List Byte) (a b : Nat) :
    memByte (memWrite m a l) b = if a ≤ b ∧ b < a + l.length then l.getD (b - a) 0 else memByte m b := by
  induction l generalizing m a with
  | nil => simp [memWrite]
  | cons x l ih =>
    rw [memWrite, ih, memByte_memSetByte]
    by_cases h : b = a
    · subst h; simp
    · by_cases h2 : a ≤ b
      · have : a + 1 ≤ b := by omega
        by_cases h3 : b < a + 1 + l.length
        · obtain ⟨j, rfl⟩ : ∃ j, b = a + 1 + j := ⟨b - (a + 1), by omega⟩
          rw [if_pos ⟨this, h3⟩, if_pos ⟨h2, by simp; omega⟩, show a + 1 + j - a = j + 1 by omega]
          simp
        · rw [if_neg (by omega), if_neg h, if_neg (by simp; omega)]
      · rw [if_neg (by omega), if_neg h, if_neg (by omega)]

/-- Outside the stored bytes nothing changes. -/
theorem memByte_memWrite_outside (m : Memory) (l : List Byte) (a b : Nat) (h : b < a ∨ a + l.length ≤ b) :
    memByte (memWrite m a l) b = memByte m b := by
  rw [memByte_memWrite, if_neg (by omega)]

/-- A store keeps the canonical form. -/
theorem memWrite_wf (m : Memory) (a : Nat) (l : List Byte) (h : m.wf = true) : (memWrite m a l).wf = true := by
  induction l generalizing m a with
  | nil => exact h
  | cons b l ih => exact ih _ _ (Tab.wf_set m 0 b a h)

@[simp] theorem memRead_length (m : Memory) (a n : Nat) : (memRead m a n).length = n := by
  induction n generalizing a with
  | zero => rfl
  | succ n ih => simp [memRead, ih]

@[simp] theorem toLe_length (n v : Nat) : (toLe n v).length = n := by
  induction n generalizing v with
  | zero => rfl
  | succ n ih => simp [toLe, ih]

/-- What was stored is read back. -/
theorem memRead_memWrite (m : Memory) (a : Nat) (l : List Byte) : memRead (memWrite m a l) a l.length = l := by
  apply List.ext_getElem (by simp)
  intro i h1 h2
  have key : ∀ (m : Memory) (n a i : Nat) (h : i < (memRead m a n).length), (memRead m a n)[i] = memByte m (a + i) := by
    intro m n
    induction n with
    | zero => intro a i h; simp [memRead] at h
    | succ n ih =>
      intro a i h
      cases i with
      | zero => simp [memRead]
      | succ i => simp [memRead, ih, Nat.add_assoc, Nat.add_comm 1 i]
  rw [key, memByte_memWrite, if_pos (by omega)]
  simp [List.getD_eq_getElem?_getD, h2]

end Sys2Proof.Machine
end

