-- ==== Sys2Proof/Laws/State.lean ====
section
/-! SUPPORT. State.lean: what each named update of State changes and what it leaves: for every update one lemma over all
fields (each part a rewrite of one field), and for every unit a read after an update. -/

namespace Sys2Proof.Machine

variable (s : State)

@[simp] theorem State.setCore_fields (c : Nat) (k : CoreSt) :
    (s.setCore c k).pending = s.pending ∧ (s.setCore c k).ao = s.ao ∧ (s.setCore c k).timers = s.timers ∧
    (s.setCore c k).boot = s.boot ∧ (s.setCore c k).board = s.board ∧ (s.setCore c k).pcie = s.pcie ∧
    (s.setCore c k).mbox = s.mbox ∧ (s.setCore c k).accepted = s.accepted ∧ (s.setCore c k).nets = s.nets ∧
    (s.setCore c k).cores = Tab.set s.cores {} c k ∧ (s.setCore c k).sectors = s.sectors ∧
    (s.setCore c k).ports = s.ports ∧ (s.setCore c k).flows = s.flows ∧ (s.setCore c k).routes = s.routes ∧
    (s.setCore c k).deviceId = s.deviceId ∧ (s.setCore c k).gddr = s.gddr ∧ (s.setCore c k).images = s.images ∧
    (s.setCore c k).nextHandle = s.nextHandle ∧ (s.setCore c k).regions = s.regions ∧
    (s.setCore c k).pageSets = s.pageSets ∧ (s.setCore c k).groups = s.groups ∧ (s.setCore c k).binds = s.binds ∧
    (s.setCore c k).tok = s.tok ∧ (s.setCore c k).dpack = s.dpack ∧ (s.setCore c k).rpack = s.rpack ∧
    (s.setCore c k).combs = s.combs ∧ (s.setCore c k).rfns = s.rfns ∧ (s.setCore c k).expand = s.expand ∧
    (s.setCore c k).errTok = s.errTok ∧ (s.setCore c k).stcs = s.stcs ∧ (s.setCore c k).louts = s.louts ∧
    (s.setCore c k).fault = s.fault ∧ (s.setCore c k).sec = s.sec ∧ (s.setCore c k).traceCtrl = s.traceCtrl ∧
    (s.setCore c k).ctr = s.ctr ∧ (s.setCore c k).snap = s.snap ∧ (s.setCore c k).out = s.out ∧
    (s.setCore c k).free = s.free := by
  repeat' constructor

@[simp] theorem State.setSector_fields (n : Nat) (k : SectorSt) :
    (s.setSector n k).pending = s.pending ∧ (s.setSector n k).ao = s.ao ∧ (s.setSector n k).timers = s.timers ∧
    (s.setSector n k).boot = s.boot ∧ (s.setSector n k).board = s.board ∧ (s.setSector n k).pcie = s.pcie ∧
    (s.setSector n k).mbox = s.mbox ∧ (s.setSector n k).accepted = s.accepted ∧ (s.setSector n k).nets = s.nets ∧
    (s.setSector n k).cores = s.cores ∧ (s.setSector n k).sectors = Tab.set s.sectors {} n k ∧
    (s.setSector n k).ports = s.ports ∧ (s.setSector n k).flows = s.flows ∧ (s.setSector n k).routes = s.routes ∧
    (s.setSector n k).deviceId = s.deviceId ∧ (s.setSector n k).gddr = s.gddr ∧ (s.setSector n k).images = s.images ∧
    (s.setSector n k).nextHandle = s.nextHandle ∧ (s.setSector n k).regions = s.regions ∧
    (s.setSector n k).pageSets = s.pageSets ∧ (s.setSector n k).groups = s.groups ∧
    (s.setSector n k).binds = s.binds ∧ (s.setSector n k).tok = s.tok ∧ (s.setSector n k).dpack = s.dpack ∧
    (s.setSector n k).rpack = s.rpack ∧ (s.setSector n k).combs = s.combs ∧ (s.setSector n k).rfns = s.rfns ∧
    (s.setSector n k).expand = s.expand ∧ (s.setSector n k).errTok = s.errTok ∧ (s.setSector n k).stcs = s.stcs ∧
    (s.setSector n k).louts = s.louts ∧ (s.setSector n k).fault = s.fault ∧ (s.setSector n k).sec = s.sec ∧
    (s.setSector n k).traceCtrl = s.traceCtrl ∧ (s.setSector n k).ctr = s.ctr ∧ (s.setSector n k).snap = s.snap ∧
    (s.setSector n k).out = s.out ∧ (s.setSector n k).free = s.free := by
  repeat' constructor

@[simp] theorem State.setNet_fields (k : Nat) (v : NetSt) :
    (s.setNet k v).pending = s.pending ∧ (s.setNet k v).ao = s.ao ∧ (s.setNet k v).timers = s.timers ∧
    (s.setNet k v).boot = s.boot ∧ (s.setNet k v).board = s.board ∧ (s.setNet k v).pcie = s.pcie ∧
    (s.setNet k v).mbox = s.mbox ∧ (s.setNet k v).accepted = s.accepted ∧
    (s.setNet k v).nets = Tab.set s.nets {} k v ∧ (s.setNet k v).cores = s.cores ∧
    (s.setNet k v).sectors = s.sectors ∧ (s.setNet k v).ports = s.ports ∧ (s.setNet k v).flows = s.flows ∧
    (s.setNet k v).routes = s.routes ∧ (s.setNet k v).deviceId = s.deviceId ∧ (s.setNet k v).gddr = s.gddr ∧
    (s.setNet k v).images = s.images ∧ (s.setNet k v).nextHandle = s.nextHandle ∧
    (s.setNet k v).regions = s.regions ∧ (s.setNet k v).pageSets = s.pageSets ∧ (s.setNet k v).groups = s.groups ∧
    (s.setNet k v).binds = s.binds ∧ (s.setNet k v).tok = s.tok ∧ (s.setNet k v).dpack = s.dpack ∧
    (s.setNet k v).rpack = s.rpack ∧ (s.setNet k v).combs = s.combs ∧ (s.setNet k v).rfns = s.rfns ∧
    (s.setNet k v).expand = s.expand ∧ (s.setNet k v).errTok = s.errTok ∧ (s.setNet k v).stcs = s.stcs ∧
    (s.setNet k v).louts = s.louts ∧ (s.setNet k v).fault = s.fault ∧ (s.setNet k v).sec = s.sec ∧
    (s.setNet k v).traceCtrl = s.traceCtrl ∧ (s.setNet k v).ctr = s.ctr ∧ (s.setNet k v).snap = s.snap ∧
    (s.setNet k v).out = s.out ∧ (s.setNet k v).free = s.free := by
  repeat' constructor

@[simp] theorem State.setMb_fields (m : Nat) (v : MboxSt) :
    (s.setMb m v).pending = s.pending ∧ (s.setMb m v).ao = s.ao ∧ (s.setMb m v).timers = s.timers ∧
    (s.setMb m v).boot = s.boot ∧ (s.setMb m v).board = s.board ∧ (s.setMb m v).pcie = s.pcie ∧
    (s.setMb m v).mbox = Tab.set s.mbox {} m v ∧ (s.setMb m v).accepted = s.accepted ∧ (s.setMb m v).nets = s.nets ∧
    (s.setMb m v).cores = s.cores ∧ (s.setMb m v).sectors = s.sectors ∧ (s.setMb m v).ports = s.ports ∧
    (s.setMb m v).flows = s.flows ∧ (s.setMb m v).routes = s.routes ∧ (s.setMb m v).deviceId = s.deviceId ∧
    (s.setMb m v).gddr = s.gddr ∧ (s.setMb m v).images = s.images ∧ (s.setMb m v).nextHandle = s.nextHandle ∧
    (s.setMb m v).regions = s.regions ∧ (s.setMb m v).pageSets = s.pageSets ∧ (s.setMb m v).groups = s.groups ∧
    (s.setMb m v).binds = s.binds ∧ (s.setMb m v).tok = s.tok ∧ (s.setMb m v).dpack = s.dpack ∧
    (s.setMb m v).rpack = s.rpack ∧ (s.setMb m v).combs = s.combs ∧ (s.setMb m v).rfns = s.rfns ∧
    (s.setMb m v).expand = s.expand ∧ (s.setMb m v).errTok = s.errTok ∧ (s.setMb m v).stcs = s.stcs ∧
    (s.setMb m v).louts = s.louts ∧ (s.setMb m v).fault = s.fault ∧ (s.setMb m v).sec = s.sec ∧
    (s.setMb m v).traceCtrl = s.traceCtrl ∧ (s.setMb m v).ctr = s.ctr ∧ (s.setMb m v).snap = s.snap ∧
    (s.setMb m v).out = s.out ∧ (s.setMb m v).free = s.free := by
  repeat' constructor

@[simp] theorem State.setPort_fields (p : Nat) (v : PortSt) :
    (s.setPort p v).pending = s.pending ∧ (s.setPort p v).ao = s.ao ∧ (s.setPort p v).timers = s.timers ∧
    (s.setPort p v).boot = s.boot ∧ (s.setPort p v).board = s.board ∧ (s.setPort p v).pcie = s.pcie ∧
    (s.setPort p v).mbox = s.mbox ∧ (s.setPort p v).accepted = s.accepted ∧ (s.setPort p v).nets = s.nets ∧
    (s.setPort p v).cores = s.cores ∧ (s.setPort p v).sectors = s.sectors ∧
    (s.setPort p v).ports = Tab.set s.ports {} p v ∧ (s.setPort p v).flows = s.flows ∧
    (s.setPort p v).routes = s.routes ∧ (s.setPort p v).deviceId = s.deviceId ∧ (s.setPort p v).gddr = s.gddr ∧
    (s.setPort p v).images = s.images ∧ (s.setPort p v).nextHandle = s.nextHandle ∧
    (s.setPort p v).regions = s.regions ∧ (s.setPort p v).pageSets = s.pageSets ∧ (s.setPort p v).groups = s.groups ∧
    (s.setPort p v).binds = s.binds ∧ (s.setPort p v).tok = s.tok ∧ (s.setPort p v).dpack = s.dpack ∧
    (s.setPort p v).rpack = s.rpack ∧ (s.setPort p v).combs = s.combs ∧ (s.setPort p v).rfns = s.rfns ∧
    (s.setPort p v).expand = s.expand ∧ (s.setPort p v).errTok = s.errTok ∧ (s.setPort p v).stcs = s.stcs ∧
    (s.setPort p v).louts = s.louts ∧ (s.setPort p v).fault = s.fault ∧ (s.setPort p v).sec = s.sec ∧
    (s.setPort p v).traceCtrl = s.traceCtrl ∧ (s.setPort p v).ctr = s.ctr ∧ (s.setPort p v).snap = s.snap ∧
    (s.setPort p v).out = s.out ∧ (s.setPort p v).free = s.free := by
  repeat' constructor

@[simp] theorem State.setFlow_fields (f : Nat) (v : FlowSt) :
    (s.setFlow f v).pending = s.pending ∧ (s.setFlow f v).ao = s.ao ∧ (s.setFlow f v).timers = s.timers ∧
    (s.setFlow f v).boot = s.boot ∧ (s.setFlow f v).board = s.board ∧ (s.setFlow f v).pcie = s.pcie ∧
    (s.setFlow f v).mbox = s.mbox ∧ (s.setFlow f v).accepted = s.accepted ∧ (s.setFlow f v).nets = s.nets ∧
    (s.setFlow f v).cores = s.cores ∧ (s.setFlow f v).sectors = s.sectors ∧ (s.setFlow f v).ports = s.ports ∧
    (s.setFlow f v).flows = Tab.set s.flows {} f v ∧ (s.setFlow f v).routes = s.routes ∧
    (s.setFlow f v).deviceId = s.deviceId ∧ (s.setFlow f v).gddr = s.gddr ∧ (s.setFlow f v).images = s.images ∧
    (s.setFlow f v).nextHandle = s.nextHandle ∧ (s.setFlow f v).regions = s.regions ∧
    (s.setFlow f v).pageSets = s.pageSets ∧ (s.setFlow f v).groups = s.groups ∧ (s.setFlow f v).binds = s.binds ∧
    (s.setFlow f v).tok = s.tok ∧ (s.setFlow f v).dpack = s.dpack ∧ (s.setFlow f v).rpack = s.rpack ∧
    (s.setFlow f v).combs = s.combs ∧ (s.setFlow f v).rfns = s.rfns ∧ (s.setFlow f v).expand = s.expand ∧
    (s.setFlow f v).errTok = s.errTok ∧ (s.setFlow f v).stcs = s.stcs ∧ (s.setFlow f v).louts = s.louts ∧
    (s.setFlow f v).fault = s.fault ∧ (s.setFlow f v).sec = s.sec ∧ (s.setFlow f v).traceCtrl = s.traceCtrl ∧
    (s.setFlow f v).ctr = s.ctr ∧ (s.setFlow f v).snap = s.snap ∧ (s.setFlow f v).out = s.out ∧
    (s.setFlow f v).free = s.free := by
  repeat' constructor

@[simp] theorem State.setStc_fields (n : Nat) (v : StcSt) :
    (s.setStc n v).pending = s.pending ∧ (s.setStc n v).ao = s.ao ∧ (s.setStc n v).timers = s.timers ∧
    (s.setStc n v).boot = s.boot ∧ (s.setStc n v).board = s.board ∧ (s.setStc n v).pcie = s.pcie ∧
    (s.setStc n v).mbox = s.mbox ∧ (s.setStc n v).accepted = s.accepted ∧ (s.setStc n v).nets = s.nets ∧
    (s.setStc n v).cores = s.cores ∧ (s.setStc n v).sectors = s.sectors ∧ (s.setStc n v).ports = s.ports ∧
    (s.setStc n v).flows = s.flows ∧ (s.setStc n v).routes = s.routes ∧ (s.setStc n v).deviceId = s.deviceId ∧
    (s.setStc n v).gddr = s.gddr ∧ (s.setStc n v).images = s.images ∧ (s.setStc n v).nextHandle = s.nextHandle ∧
    (s.setStc n v).regions = s.regions ∧ (s.setStc n v).pageSets = s.pageSets ∧ (s.setStc n v).groups = s.groups ∧
    (s.setStc n v).binds = s.binds ∧ (s.setStc n v).tok = s.tok ∧ (s.setStc n v).dpack = s.dpack ∧
    (s.setStc n v).rpack = s.rpack ∧ (s.setStc n v).combs = s.combs ∧ (s.setStc n v).rfns = s.rfns ∧
    (s.setStc n v).expand = s.expand ∧ (s.setStc n v).errTok = s.errTok ∧
    (s.setStc n v).stcs = Tab.set s.stcs {} n v ∧ (s.setStc n v).louts = s.louts ∧ (s.setStc n v).fault = s.fault ∧
    (s.setStc n v).sec = s.sec ∧ (s.setStc n v).traceCtrl = s.traceCtrl ∧ (s.setStc n v).ctr = s.ctr ∧
    (s.setStc n v).snap = s.snap ∧ (s.setStc n v).out = s.out ∧ (s.setStc n v).free = s.free := by
  repeat' constructor

@[simp] theorem State.setTmr_fields (c : Nat) (v : TimerSt) :
    (s.setTmr c v).pending = s.pending ∧ (s.setTmr c v).ao = s.ao ∧ (s.setTmr c v).timers = Tab.set s.timers {} c v ∧
    (s.setTmr c v).boot = s.boot ∧ (s.setTmr c v).board = s.board ∧ (s.setTmr c v).pcie = s.pcie ∧
    (s.setTmr c v).mbox = s.mbox ∧ (s.setTmr c v).accepted = s.accepted ∧ (s.setTmr c v).nets = s.nets ∧
    (s.setTmr c v).cores = s.cores ∧ (s.setTmr c v).sectors = s.sectors ∧ (s.setTmr c v).ports = s.ports ∧
    (s.setTmr c v).flows = s.flows ∧ (s.setTmr c v).routes = s.routes ∧ (s.setTmr c v).deviceId = s.deviceId ∧
    (s.setTmr c v).gddr = s.gddr ∧ (s.setTmr c v).images = s.images ∧ (s.setTmr c v).nextHandle = s.nextHandle ∧
    (s.setTmr c v).regions = s.regions ∧ (s.setTmr c v).pageSets = s.pageSets ∧ (s.setTmr c v).groups = s.groups ∧
    (s.setTmr c v).binds = s.binds ∧ (s.setTmr c v).tok = s.tok ∧ (s.setTmr c v).dpack = s.dpack ∧
    (s.setTmr c v).rpack = s.rpack ∧ (s.setTmr c v).combs = s.combs ∧ (s.setTmr c v).rfns = s.rfns ∧
    (s.setTmr c v).expand = s.expand ∧ (s.setTmr c v).errTok = s.errTok ∧ (s.setTmr c v).stcs = s.stcs ∧
    (s.setTmr c v).louts = s.louts ∧ (s.setTmr c v).fault = s.fault ∧ (s.setTmr c v).sec = s.sec ∧
    (s.setTmr c v).traceCtrl = s.traceCtrl ∧ (s.setTmr c v).ctr = s.ctr ∧ (s.setTmr c v).snap = s.snap ∧
    (s.setTmr c v).out = s.out ∧ (s.setTmr c v).free = s.free := by
  repeat' constructor

@[simp] theorem State.modLout_fields (p : Nat) (f : LoutSt → LoutSt) :
    (s.modLout p f).pending = s.pending ∧ (s.modLout p f).ao = s.ao ∧ (s.modLout p f).timers = s.timers ∧
    (s.modLout p f).boot = s.boot ∧ (s.modLout p f).board = s.board ∧ (s.modLout p f).pcie = s.pcie ∧
    (s.modLout p f).mbox = s.mbox ∧ (s.modLout p f).accepted = s.accepted ∧ (s.modLout p f).nets = s.nets ∧
    (s.modLout p f).cores = s.cores ∧ (s.modLout p f).sectors = s.sectors ∧ (s.modLout p f).ports = s.ports ∧
    (s.modLout p f).flows = s.flows ∧ (s.modLout p f).routes = s.routes ∧ (s.modLout p f).deviceId = s.deviceId ∧
    (s.modLout p f).gddr = s.gddr ∧ (s.modLout p f).images = s.images ∧ (s.modLout p f).nextHandle = s.nextHandle ∧
    (s.modLout p f).regions = s.regions ∧ (s.modLout p f).pageSets = s.pageSets ∧ (s.modLout p f).groups = s.groups ∧
    (s.modLout p f).binds = s.binds ∧ (s.modLout p f).tok = s.tok ∧ (s.modLout p f).dpack = s.dpack ∧
    (s.modLout p f).rpack = s.rpack ∧ (s.modLout p f).combs = s.combs ∧ (s.modLout p f).rfns = s.rfns ∧
    (s.modLout p f).expand = s.expand ∧ (s.modLout p f).errTok = s.errTok ∧ (s.modLout p f).stcs = s.stcs ∧
    (s.modLout p f).louts = Tab.set s.louts {} p (f (s.lout p)) ∧ (s.modLout p f).fault = s.fault ∧
    (s.modLout p f).sec = s.sec ∧ (s.modLout p f).traceCtrl = s.traceCtrl ∧ (s.modLout p f).ctr = s.ctr ∧
    (s.modLout p f).snap = s.snap ∧ (s.modLout p f).out = s.out ∧ (s.modLout p f).free = s.free := by
  repeat' constructor

@[simp] theorem State.modBind_fields (b : Nat) (f : BindSt → BindSt) :
    (s.modBind b f).pending = s.pending ∧ (s.modBind b f).ao = s.ao ∧ (s.modBind b f).timers = s.timers ∧
    (s.modBind b f).boot = s.boot ∧ (s.modBind b f).board = s.board ∧ (s.modBind b f).pcie = s.pcie ∧
    (s.modBind b f).mbox = s.mbox ∧ (s.modBind b f).accepted = s.accepted ∧ (s.modBind b f).nets = s.nets ∧
    (s.modBind b f).cores = s.cores ∧ (s.modBind b f).sectors = s.sectors ∧ (s.modBind b f).ports = s.ports ∧
    (s.modBind b f).flows = s.flows ∧ (s.modBind b f).routes = s.routes ∧ (s.modBind b f).deviceId = s.deviceId ∧
    (s.modBind b f).gddr = s.gddr ∧ (s.modBind b f).images = s.images ∧ (s.modBind b f).nextHandle = s.nextHandle ∧
    (s.modBind b f).regions = s.regions ∧ (s.modBind b f).pageSets = s.pageSets ∧ (s.modBind b f).groups = s.groups ∧
    (s.modBind b f).binds = Tab.set s.binds {} b (f (s.bind b)) ∧ (s.modBind b f).tok = s.tok ∧
    (s.modBind b f).dpack = s.dpack ∧ (s.modBind b f).rpack = s.rpack ∧ (s.modBind b f).combs = s.combs ∧
    (s.modBind b f).rfns = s.rfns ∧ (s.modBind b f).expand = s.expand ∧ (s.modBind b f).errTok = s.errTok ∧
    (s.modBind b f).stcs = s.stcs ∧ (s.modBind b f).louts = s.louts ∧ (s.modBind b f).fault = s.fault ∧
    (s.modBind b f).sec = s.sec ∧ (s.modBind b f).traceCtrl = s.traceCtrl ∧ (s.modBind b f).ctr = s.ctr ∧
    (s.modBind b f).snap = s.snap ∧ (s.modBind b f).out = s.out ∧ (s.modBind b f).free = s.free := by
  repeat' constructor

@[simp] theorem State.modDp_fields (d : Nat) (f : PackSt → PackSt) :
    (s.modDp d f).pending = s.pending ∧ (s.modDp d f).ao = s.ao ∧ (s.modDp d f).timers = s.timers ∧
    (s.modDp d f).boot = s.boot ∧ (s.modDp d f).board = s.board ∧ (s.modDp d f).pcie = s.pcie ∧
    (s.modDp d f).mbox = s.mbox ∧ (s.modDp d f).accepted = s.accepted ∧ (s.modDp d f).nets = s.nets ∧
    (s.modDp d f).cores = s.cores ∧ (s.modDp d f).sectors = s.sectors ∧ (s.modDp d f).ports = s.ports ∧
    (s.modDp d f).flows = s.flows ∧ (s.modDp d f).routes = s.routes ∧ (s.modDp d f).deviceId = s.deviceId ∧
    (s.modDp d f).gddr = s.gddr ∧ (s.modDp d f).images = s.images ∧ (s.modDp d f).nextHandle = s.nextHandle ∧
    (s.modDp d f).regions = s.regions ∧ (s.modDp d f).pageSets = s.pageSets ∧ (s.modDp d f).groups = s.groups ∧
    (s.modDp d f).binds = s.binds ∧ (s.modDp d f).tok = s.tok ∧
    (s.modDp d f).dpack = Tab.set s.dpack {} d (f (s.dp d)) ∧ (s.modDp d f).rpack = s.rpack ∧
    (s.modDp d f).combs = s.combs ∧ (s.modDp d f).rfns = s.rfns ∧ (s.modDp d f).expand = s.expand ∧
    (s.modDp d f).errTok = s.errTok ∧ (s.modDp d f).stcs = s.stcs ∧ (s.modDp d f).louts = s.louts ∧
    (s.modDp d f).fault = s.fault ∧ (s.modDp d f).sec = s.sec ∧ (s.modDp d f).traceCtrl = s.traceCtrl ∧
    (s.modDp d f).ctr = s.ctr ∧ (s.modDp d f).snap = s.snap ∧ (s.modDp d f).out = s.out ∧ (s.modDp d f).free = s.free := by
  repeat' constructor

@[simp] theorem State.modRp_fields (r : Nat) (f : PackSt → PackSt) :
    (s.modRp r f).pending = s.pending ∧ (s.modRp r f).ao = s.ao ∧ (s.modRp r f).timers = s.timers ∧
    (s.modRp r f).boot = s.boot ∧ (s.modRp r f).board = s.board ∧ (s.modRp r f).pcie = s.pcie ∧
    (s.modRp r f).mbox = s.mbox ∧ (s.modRp r f).accepted = s.accepted ∧ (s.modRp r f).nets = s.nets ∧
    (s.modRp r f).cores = s.cores ∧ (s.modRp r f).sectors = s.sectors ∧ (s.modRp r f).ports = s.ports ∧
    (s.modRp r f).flows = s.flows ∧ (s.modRp r f).routes = s.routes ∧ (s.modRp r f).deviceId = s.deviceId ∧
    (s.modRp r f).gddr = s.gddr ∧ (s.modRp r f).images = s.images ∧ (s.modRp r f).nextHandle = s.nextHandle ∧
    (s.modRp r f).regions = s.regions ∧ (s.modRp r f).pageSets = s.pageSets ∧ (s.modRp r f).groups = s.groups ∧
    (s.modRp r f).binds = s.binds ∧ (s.modRp r f).tok = s.tok ∧ (s.modRp r f).dpack = s.dpack ∧
    (s.modRp r f).rpack = Tab.set s.rpack {} r (f (s.rp r)) ∧ (s.modRp r f).combs = s.combs ∧
    (s.modRp r f).rfns = s.rfns ∧ (s.modRp r f).expand = s.expand ∧ (s.modRp r f).errTok = s.errTok ∧
    (s.modRp r f).stcs = s.stcs ∧ (s.modRp r f).louts = s.louts ∧ (s.modRp r f).fault = s.fault ∧
    (s.modRp r f).sec = s.sec ∧ (s.modRp r f).traceCtrl = s.traceCtrl ∧ (s.modRp r f).ctr = s.ctr ∧
    (s.modRp r f).snap = s.snap ∧ (s.modRp r f).out = s.out ∧ (s.modRp r f).free = s.free := by
  repeat' constructor

@[simp] theorem State.modComb_fields (m : Nat) (f : CombSt → CombSt) :
    (s.modComb m f).pending = s.pending ∧ (s.modComb m f).ao = s.ao ∧ (s.modComb m f).timers = s.timers ∧
    (s.modComb m f).boot = s.boot ∧ (s.modComb m f).board = s.board ∧ (s.modComb m f).pcie = s.pcie ∧
    (s.modComb m f).mbox = s.mbox ∧ (s.modComb m f).accepted = s.accepted ∧ (s.modComb m f).nets = s.nets ∧
    (s.modComb m f).cores = s.cores ∧ (s.modComb m f).sectors = s.sectors ∧ (s.modComb m f).ports = s.ports ∧
    (s.modComb m f).flows = s.flows ∧ (s.modComb m f).routes = s.routes ∧ (s.modComb m f).deviceId = s.deviceId ∧
    (s.modComb m f).gddr = s.gddr ∧ (s.modComb m f).images = s.images ∧ (s.modComb m f).nextHandle = s.nextHandle ∧
    (s.modComb m f).regions = s.regions ∧ (s.modComb m f).pageSets = s.pageSets ∧ (s.modComb m f).groups = s.groups ∧
    (s.modComb m f).binds = s.binds ∧ (s.modComb m f).tok = s.tok ∧ (s.modComb m f).dpack = s.dpack ∧
    (s.modComb m f).rpack = s.rpack ∧ (s.modComb m f).combs = Tab.set s.combs {} m (f (s.comb m)) ∧
    (s.modComb m f).rfns = s.rfns ∧ (s.modComb m f).expand = s.expand ∧ (s.modComb m f).errTok = s.errTok ∧
    (s.modComb m f).stcs = s.stcs ∧ (s.modComb m f).louts = s.louts ∧ (s.modComb m f).fault = s.fault ∧
    (s.modComb m f).sec = s.sec ∧ (s.modComb m f).traceCtrl = s.traceCtrl ∧ (s.modComb m f).ctr = s.ctr ∧
    (s.modComb m f).snap = s.snap ∧ (s.modComb m f).out = s.out ∧ (s.modComb m f).free = s.free := by
  repeat' constructor

@[simp] theorem State.modRfn_fields (r : Nat) (f : RingFn → RingFn) :
    (s.modRfn r f).pending = s.pending ∧ (s.modRfn r f).ao = s.ao ∧ (s.modRfn r f).timers = s.timers ∧
    (s.modRfn r f).boot = s.boot ∧ (s.modRfn r f).board = s.board ∧ (s.modRfn r f).pcie = s.pcie ∧
    (s.modRfn r f).mbox = s.mbox ∧ (s.modRfn r f).accepted = s.accepted ∧ (s.modRfn r f).nets = s.nets ∧
    (s.modRfn r f).cores = s.cores ∧ (s.modRfn r f).sectors = s.sectors ∧ (s.modRfn r f).ports = s.ports ∧
    (s.modRfn r f).flows = s.flows ∧ (s.modRfn r f).routes = s.routes ∧ (s.modRfn r f).deviceId = s.deviceId ∧
    (s.modRfn r f).gddr = s.gddr ∧ (s.modRfn r f).images = s.images ∧ (s.modRfn r f).nextHandle = s.nextHandle ∧
    (s.modRfn r f).regions = s.regions ∧ (s.modRfn r f).pageSets = s.pageSets ∧ (s.modRfn r f).groups = s.groups ∧
    (s.modRfn r f).binds = s.binds ∧ (s.modRfn r f).tok = s.tok ∧ (s.modRfn r f).dpack = s.dpack ∧
    (s.modRfn r f).rpack = s.rpack ∧ (s.modRfn r f).combs = s.combs ∧
    (s.modRfn r f).rfns = Tab.set s.rfns {} r (f (s.rfn r)) ∧ (s.modRfn r f).expand = s.expand ∧
    (s.modRfn r f).errTok = s.errTok ∧ (s.modRfn r f).stcs = s.stcs ∧ (s.modRfn r f).louts = s.louts ∧
    (s.modRfn r f).fault = s.fault ∧ (s.modRfn r f).sec = s.sec ∧ (s.modRfn r f).traceCtrl = s.traceCtrl ∧
    (s.modRfn r f).ctr = s.ctr ∧ (s.modRfn r f).snap = s.snap ∧ (s.modRfn r f).out = s.out ∧
    (s.modRfn r f).free = s.free := by
  repeat' constructor

@[simp] theorem State.modAo_fields (f : AoSt → AoSt) :
    (s.modAo f).pending = s.pending ∧ (s.modAo f).ao = f s.ao ∧ (s.modAo f).timers = s.timers ∧
    (s.modAo f).boot = s.boot ∧ (s.modAo f).board = s.board ∧ (s.modAo f).pcie = s.pcie ∧ (s.modAo f).mbox = s.mbox ∧
    (s.modAo f).accepted = s.accepted ∧ (s.modAo f).nets = s.nets ∧ (s.modAo f).cores = s.cores ∧
    (s.modAo f).sectors = s.sectors ∧ (s.modAo f).ports = s.ports ∧ (s.modAo f).flows = s.flows ∧
    (s.modAo f).routes = s.routes ∧ (s.modAo f).deviceId = s.deviceId ∧ (s.modAo f).gddr = s.gddr ∧
    (s.modAo f).images = s.images ∧ (s.modAo f).nextHandle = s.nextHandle ∧ (s.modAo f).regions = s.regions ∧
    (s.modAo f).pageSets = s.pageSets ∧ (s.modAo f).groups = s.groups ∧ (s.modAo f).binds = s.binds ∧
    (s.modAo f).tok = s.tok ∧ (s.modAo f).dpack = s.dpack ∧ (s.modAo f).rpack = s.rpack ∧
    (s.modAo f).combs = s.combs ∧ (s.modAo f).rfns = s.rfns ∧ (s.modAo f).expand = s.expand ∧
    (s.modAo f).errTok = s.errTok ∧ (s.modAo f).stcs = s.stcs ∧ (s.modAo f).louts = s.louts ∧
    (s.modAo f).fault = s.fault ∧ (s.modAo f).sec = s.sec ∧ (s.modAo f).traceCtrl = s.traceCtrl ∧
    (s.modAo f).ctr = s.ctr ∧ (s.modAo f).snap = s.snap ∧ (s.modAo f).out = s.out ∧ (s.modAo f).free = s.free := by
  repeat' constructor

@[simp] theorem State.modPcie_fields (f : PcieSt → PcieSt) :
    (s.modPcie f).pending = s.pending ∧ (s.modPcie f).ao = s.ao ∧ (s.modPcie f).timers = s.timers ∧
    (s.modPcie f).boot = s.boot ∧ (s.modPcie f).board = s.board ∧ (s.modPcie f).pcie = f s.pcie ∧
    (s.modPcie f).mbox = s.mbox ∧ (s.modPcie f).accepted = s.accepted ∧ (s.modPcie f).nets = s.nets ∧
    (s.modPcie f).cores = s.cores ∧ (s.modPcie f).sectors = s.sectors ∧ (s.modPcie f).ports = s.ports ∧
    (s.modPcie f).flows = s.flows ∧ (s.modPcie f).routes = s.routes ∧ (s.modPcie f).deviceId = s.deviceId ∧
    (s.modPcie f).gddr = s.gddr ∧ (s.modPcie f).images = s.images ∧ (s.modPcie f).nextHandle = s.nextHandle ∧
    (s.modPcie f).regions = s.regions ∧ (s.modPcie f).pageSets = s.pageSets ∧ (s.modPcie f).groups = s.groups ∧
    (s.modPcie f).binds = s.binds ∧ (s.modPcie f).tok = s.tok ∧ (s.modPcie f).dpack = s.dpack ∧
    (s.modPcie f).rpack = s.rpack ∧ (s.modPcie f).combs = s.combs ∧ (s.modPcie f).rfns = s.rfns ∧
    (s.modPcie f).expand = s.expand ∧ (s.modPcie f).errTok = s.errTok ∧ (s.modPcie f).stcs = s.stcs ∧
    (s.modPcie f).louts = s.louts ∧ (s.modPcie f).fault = s.fault ∧ (s.modPcie f).sec = s.sec ∧
    (s.modPcie f).traceCtrl = s.traceCtrl ∧ (s.modPcie f).ctr = s.ctr ∧ (s.modPcie f).snap = s.snap ∧
    (s.modPcie f).out = s.out ∧ (s.modPcie f).free = s.free := by
  repeat' constructor

@[simp] theorem State.modFault_fields (f : FaultSt → FaultSt) :
    (s.modFault f).pending = s.pending ∧ (s.modFault f).ao = s.ao ∧ (s.modFault f).timers = s.timers ∧
    (s.modFault f).boot = s.boot ∧ (s.modFault f).board = s.board ∧ (s.modFault f).pcie = s.pcie ∧
    (s.modFault f).mbox = s.mbox ∧ (s.modFault f).accepted = s.accepted ∧ (s.modFault f).nets = s.nets ∧
    (s.modFault f).cores = s.cores ∧ (s.modFault f).sectors = s.sectors ∧ (s.modFault f).ports = s.ports ∧
    (s.modFault f).flows = s.flows ∧ (s.modFault f).routes = s.routes ∧ (s.modFault f).deviceId = s.deviceId ∧
    (s.modFault f).gddr = s.gddr ∧ (s.modFault f).images = s.images ∧ (s.modFault f).nextHandle = s.nextHandle ∧
    (s.modFault f).regions = s.regions ∧ (s.modFault f).pageSets = s.pageSets ∧ (s.modFault f).groups = s.groups ∧
    (s.modFault f).binds = s.binds ∧ (s.modFault f).tok = s.tok ∧ (s.modFault f).dpack = s.dpack ∧
    (s.modFault f).rpack = s.rpack ∧ (s.modFault f).combs = s.combs ∧ (s.modFault f).rfns = s.rfns ∧
    (s.modFault f).expand = s.expand ∧ (s.modFault f).errTok = s.errTok ∧ (s.modFault f).stcs = s.stcs ∧
    (s.modFault f).louts = s.louts ∧ (s.modFault f).fault = f s.fault ∧ (s.modFault f).sec = s.sec ∧
    (s.modFault f).traceCtrl = s.traceCtrl ∧ (s.modFault f).ctr = s.ctr ∧ (s.modFault f).snap = s.snap ∧
    (s.modFault f).out = s.out ∧ (s.modFault f).free = s.free := by
  repeat' constructor

@[simp] theorem State.modSec_fields (f : SecSt → SecSt) :
    (s.modSec f).pending = s.pending ∧ (s.modSec f).ao = s.ao ∧ (s.modSec f).timers = s.timers ∧
    (s.modSec f).boot = s.boot ∧ (s.modSec f).board = s.board ∧ (s.modSec f).pcie = s.pcie ∧
    (s.modSec f).mbox = s.mbox ∧ (s.modSec f).accepted = s.accepted ∧ (s.modSec f).nets = s.nets ∧
    (s.modSec f).cores = s.cores ∧ (s.modSec f).sectors = s.sectors ∧ (s.modSec f).ports = s.ports ∧
    (s.modSec f).flows = s.flows ∧ (s.modSec f).routes = s.routes ∧ (s.modSec f).deviceId = s.deviceId ∧
    (s.modSec f).gddr = s.gddr ∧ (s.modSec f).images = s.images ∧ (s.modSec f).nextHandle = s.nextHandle ∧
    (s.modSec f).regions = s.regions ∧ (s.modSec f).pageSets = s.pageSets ∧ (s.modSec f).groups = s.groups ∧
    (s.modSec f).binds = s.binds ∧ (s.modSec f).tok = s.tok ∧ (s.modSec f).dpack = s.dpack ∧
    (s.modSec f).rpack = s.rpack ∧ (s.modSec f).combs = s.combs ∧ (s.modSec f).rfns = s.rfns ∧
    (s.modSec f).expand = s.expand ∧ (s.modSec f).errTok = s.errTok ∧ (s.modSec f).stcs = s.stcs ∧
    (s.modSec f).louts = s.louts ∧ (s.modSec f).fault = s.fault ∧ (s.modSec f).sec = f s.sec ∧
    (s.modSec f).traceCtrl = s.traceCtrl ∧ (s.modSec f).ctr = s.ctr ∧ (s.modSec f).snap = s.snap ∧
    (s.modSec f).out = s.out ∧ (s.modSec f).free = s.free := by
  repeat' constructor

@[simp] theorem State.modGddr_fields (f : GddrSt → GddrSt) :
    (s.modGddr f).pending = s.pending ∧ (s.modGddr f).ao = s.ao ∧ (s.modGddr f).timers = s.timers ∧
    (s.modGddr f).boot = s.boot ∧ (s.modGddr f).board = s.board ∧ (s.modGddr f).pcie = s.pcie ∧
    (s.modGddr f).mbox = s.mbox ∧ (s.modGddr f).accepted = s.accepted ∧ (s.modGddr f).nets = s.nets ∧
    (s.modGddr f).cores = s.cores ∧ (s.modGddr f).sectors = s.sectors ∧ (s.modGddr f).ports = s.ports ∧
    (s.modGddr f).flows = s.flows ∧ (s.modGddr f).routes = s.routes ∧ (s.modGddr f).deviceId = s.deviceId ∧
    (s.modGddr f).gddr = f s.gddr ∧ (s.modGddr f).images = s.images ∧ (s.modGddr f).nextHandle = s.nextHandle ∧
    (s.modGddr f).regions = s.regions ∧ (s.modGddr f).pageSets = s.pageSets ∧ (s.modGddr f).groups = s.groups ∧
    (s.modGddr f).binds = s.binds ∧ (s.modGddr f).tok = s.tok ∧ (s.modGddr f).dpack = s.dpack ∧
    (s.modGddr f).rpack = s.rpack ∧ (s.modGddr f).combs = s.combs ∧ (s.modGddr f).rfns = s.rfns ∧
    (s.modGddr f).expand = s.expand ∧ (s.modGddr f).errTok = s.errTok ∧ (s.modGddr f).stcs = s.stcs ∧
    (s.modGddr f).louts = s.louts ∧ (s.modGddr f).fault = s.fault ∧ (s.modGddr f).sec = s.sec ∧
    (s.modGddr f).traceCtrl = s.traceCtrl ∧ (s.modGddr f).ctr = s.ctr ∧ (s.modGddr f).snap = s.snap ∧
    (s.modGddr f).out = s.out ∧ (s.modGddr f).free = s.free := by
  repeat' constructor

@[simp] theorem State.modBoot_fields (f : BootSt → BootSt) :
    (s.modBoot f).pending = s.pending ∧ (s.modBoot f).ao = s.ao ∧ (s.modBoot f).timers = s.timers ∧
    (s.modBoot f).boot = f s.boot ∧ (s.modBoot f).board = s.board ∧ (s.modBoot f).pcie = s.pcie ∧
    (s.modBoot f).mbox = s.mbox ∧ (s.modBoot f).accepted = s.accepted ∧ (s.modBoot f).nets = s.nets ∧
    (s.modBoot f).cores = s.cores ∧ (s.modBoot f).sectors = s.sectors ∧ (s.modBoot f).ports = s.ports ∧
    (s.modBoot f).flows = s.flows ∧ (s.modBoot f).routes = s.routes ∧ (s.modBoot f).deviceId = s.deviceId ∧
    (s.modBoot f).gddr = s.gddr ∧ (s.modBoot f).images = s.images ∧ (s.modBoot f).nextHandle = s.nextHandle ∧
    (s.modBoot f).regions = s.regions ∧ (s.modBoot f).pageSets = s.pageSets ∧ (s.modBoot f).groups = s.groups ∧
    (s.modBoot f).binds = s.binds ∧ (s.modBoot f).tok = s.tok ∧ (s.modBoot f).dpack = s.dpack ∧
    (s.modBoot f).rpack = s.rpack ∧ (s.modBoot f).combs = s.combs ∧ (s.modBoot f).rfns = s.rfns ∧
    (s.modBoot f).expand = s.expand ∧ (s.modBoot f).errTok = s.errTok ∧ (s.modBoot f).stcs = s.stcs ∧
    (s.modBoot f).louts = s.louts ∧ (s.modBoot f).fault = s.fault ∧ (s.modBoot f).sec = s.sec ∧
    (s.modBoot f).traceCtrl = s.traceCtrl ∧ (s.modBoot f).ctr = s.ctr ∧ (s.modBoot f).snap = s.snap ∧
    (s.modBoot f).out = s.out ∧ (s.modBoot f).free = s.free := by
  repeat' constructor

@[simp] theorem State.withQueue_fields (q : List Instr) :
    (s.withQueue q).pending = q ∧ (s.withQueue q).ao = s.ao ∧ (s.withQueue q).timers = s.timers ∧
    (s.withQueue q).boot = s.boot ∧ (s.withQueue q).board = s.board ∧ (s.withQueue q).pcie = s.pcie ∧
    (s.withQueue q).mbox = s.mbox ∧ (s.withQueue q).accepted = s.accepted ∧ (s.withQueue q).nets = s.nets ∧
    (s.withQueue q).cores = s.cores ∧ (s.withQueue q).sectors = s.sectors ∧ (s.withQueue q).ports = s.ports ∧
    (s.withQueue q).flows = s.flows ∧ (s.withQueue q).routes = s.routes ∧ (s.withQueue q).deviceId = s.deviceId ∧
    (s.withQueue q).gddr = s.gddr ∧ (s.withQueue q).images = s.images ∧ (s.withQueue q).nextHandle = s.nextHandle ∧
    (s.withQueue q).regions = s.regions ∧ (s.withQueue q).pageSets = s.pageSets ∧ (s.withQueue q).groups = s.groups ∧
    (s.withQueue q).binds = s.binds ∧ (s.withQueue q).tok = s.tok ∧ (s.withQueue q).dpack = s.dpack ∧
    (s.withQueue q).rpack = s.rpack ∧ (s.withQueue q).combs = s.combs ∧ (s.withQueue q).rfns = s.rfns ∧
    (s.withQueue q).expand = s.expand ∧ (s.withQueue q).errTok = s.errTok ∧ (s.withQueue q).stcs = s.stcs ∧
    (s.withQueue q).louts = s.louts ∧ (s.withQueue q).fault = s.fault ∧ (s.withQueue q).sec = s.sec ∧
    (s.withQueue q).traceCtrl = s.traceCtrl ∧ (s.withQueue q).ctr = s.ctr ∧ (s.withQueue q).snap = s.snap ∧
    (s.withQueue q).out = s.out ∧ (s.withQueue q).free = s.free := by
  repeat' constructor

@[simp] theorem State.drawn_fields :
    (s.drawn).pending = s.pending ∧ (s.drawn).ao = s.ao ∧ (s.drawn).timers = s.timers ∧ (s.drawn).boot = s.boot ∧
    (s.drawn).board = s.board ∧ (s.drawn).pcie = s.pcie ∧ (s.drawn).mbox = s.mbox ∧ (s.drawn).accepted = s.accepted ∧
    (s.drawn).nets = s.nets ∧ (s.drawn).cores = s.cores ∧ (s.drawn).sectors = s.sectors ∧ (s.drawn).ports = s.ports ∧
    (s.drawn).flows = s.flows ∧ (s.drawn).routes = s.routes ∧ (s.drawn).deviceId = s.deviceId ∧
    (s.drawn).gddr = s.gddr ∧ (s.drawn).images = s.images ∧ (s.drawn).nextHandle = s.nextHandle ∧
    (s.drawn).regions = s.regions ∧ (s.drawn).pageSets = s.pageSets ∧ (s.drawn).groups = s.groups ∧
    (s.drawn).binds = s.binds ∧ (s.drawn).tok = s.tok ∧ (s.drawn).dpack = s.dpack ∧ (s.drawn).rpack = s.rpack ∧
    (s.drawn).combs = s.combs ∧ (s.drawn).rfns = s.rfns ∧ (s.drawn).expand = s.expand ∧ (s.drawn).errTok = s.errTok ∧
    (s.drawn).stcs = s.stcs ∧ (s.drawn).louts = s.louts ∧ (s.drawn).fault = s.fault ∧ (s.drawn).sec = s.sec ∧
    (s.drawn).traceCtrl = s.traceCtrl ∧ (s.drawn).ctr = s.ctr ∧ (s.drawn).snap = s.snap ∧ (s.drawn).out = s.out ∧
    (s.drawn).free = s.free + 1 := by
  repeat' constructor

@[simp] theorem State.send_fields (o : Out) :
    (s.send o).pending = s.pending ∧ (s.send o).ao = s.ao ∧ (s.send o).timers = s.timers ∧ (s.send o).boot = s.boot ∧
    (s.send o).board = s.board ∧ (s.send o).pcie = s.pcie ∧ (s.send o).mbox = s.mbox ∧
    (s.send o).accepted = s.accepted ∧ (s.send o).nets = s.nets ∧ (s.send o).cores = s.cores ∧
    (s.send o).sectors = s.sectors ∧ (s.send o).ports = s.ports ∧ (s.send o).flows = s.flows ∧
    (s.send o).routes = s.routes ∧ (s.send o).deviceId = s.deviceId ∧ (s.send o).gddr = s.gddr ∧
    (s.send o).images = s.images ∧ (s.send o).nextHandle = s.nextHandle ∧ (s.send o).regions = s.regions ∧
    (s.send o).pageSets = s.pageSets ∧ (s.send o).groups = s.groups ∧ (s.send o).binds = s.binds ∧
    (s.send o).tok = s.tok ∧ (s.send o).dpack = s.dpack ∧ (s.send o).rpack = s.rpack ∧ (s.send o).combs = s.combs ∧
    (s.send o).rfns = s.rfns ∧ (s.send o).expand = s.expand ∧ (s.send o).errTok = s.errTok ∧
    (s.send o).stcs = s.stcs ∧ (s.send o).louts = s.louts ∧ (s.send o).fault = s.fault ∧ (s.send o).sec = s.sec ∧
    (s.send o).traceCtrl = s.traceCtrl ∧ (s.send o).ctr = s.ctr ∧ (s.send o).snap = s.snap ∧
    (s.send o).out = s.out ++ [o] ∧ (s.send o).free = s.free := by
  repeat' constructor

@[simp] theorem State.ctrPut_fields (scope idx id sub kind v : Nat) :
    (s.ctrPut scope idx id sub kind v).pending = s.pending ∧ (s.ctrPut scope idx id sub kind v).ao = s.ao ∧
    (s.ctrPut scope idx id sub kind v).timers = s.timers ∧ (s.ctrPut scope idx id sub kind v).boot = s.boot ∧
    (s.ctrPut scope idx id sub kind v).board = s.board ∧ (s.ctrPut scope idx id sub kind v).pcie = s.pcie ∧
    (s.ctrPut scope idx id sub kind v).mbox = s.mbox ∧ (s.ctrPut scope idx id sub kind v).accepted = s.accepted ∧
    (s.ctrPut scope idx id sub kind v).nets = s.nets ∧ (s.ctrPut scope idx id sub kind v).cores = s.cores ∧
    (s.ctrPut scope idx id sub kind v).sectors = s.sectors ∧ (s.ctrPut scope idx id sub kind v).ports = s.ports ∧
    (s.ctrPut scope idx id sub kind v).flows = s.flows ∧ (s.ctrPut scope idx id sub kind v).routes = s.routes ∧
    (s.ctrPut scope idx id sub kind v).deviceId = s.deviceId ∧ (s.ctrPut scope idx id sub kind v).gddr = s.gddr ∧
    (s.ctrPut scope idx id sub kind v).images = s.images ∧
    (s.ctrPut scope idx id sub kind v).nextHandle = s.nextHandle ∧
    (s.ctrPut scope idx id sub kind v).regions = s.regions ∧
    (s.ctrPut scope idx id sub kind v).pageSets = s.pageSets ∧ (s.ctrPut scope idx id sub kind v).groups = s.groups ∧
    (s.ctrPut scope idx id sub kind v).binds = s.binds ∧ (s.ctrPut scope idx id sub kind v).tok = s.tok ∧
    (s.ctrPut scope idx id sub kind v).dpack = s.dpack ∧ (s.ctrPut scope idx id sub kind v).rpack = s.rpack ∧
    (s.ctrPut scope idx id sub kind v).combs = s.combs ∧ (s.ctrPut scope idx id sub kind v).rfns = s.rfns ∧
    (s.ctrPut scope idx id sub kind v).expand = s.expand ∧ (s.ctrPut scope idx id sub kind v).errTok = s.errTok ∧
    (s.ctrPut scope idx id sub kind v).stcs = s.stcs ∧ (s.ctrPut scope idx id sub kind v).louts = s.louts ∧
    (s.ctrPut scope idx id sub kind v).fault = s.fault ∧ (s.ctrPut scope idx id sub kind v).sec = s.sec ∧
    (s.ctrPut scope idx id sub kind v).traceCtrl = s.traceCtrl ∧
    (s.ctrPut scope idx id sub kind v).ctr = Tab.set s.ctr 0 (ckey scope idx id sub kind) (satCtr v) ∧
    (s.ctrPut scope idx id sub kind v).snap = s.snap ∧ (s.ctrPut scope idx id sub kind v).out = s.out ∧
    (s.ctrPut scope idx id sub kind v).free = s.free := by
  repeat' constructor

/-! ### A unit read after an update of a unit -/

@[simp] theorem State.modCore_def (i : Nat) (f : CoreSt → CoreSt) : s.modCore i f = s.setCore i (f (s.core i)) := rfl

theorem State.core_setCore (i j : Nat) (v : CoreSt) : (s.setCore i v).core j = if j = i then v else s.core j :=
  Tab.get_set s.cores {} v i j

@[simp] theorem State.core_setCore_self (i : Nat) (v : CoreSt) : (s.setCore i v).core i = v := by simp [State.core_setCore]

@[simp] theorem State.core_setCore_ne (i j : Nat) (v : CoreSt) (h : j ≠ i) : (s.setCore i v).core j = s.core j := by
  simp [State.core_setCore, h]

@[simp] theorem State.modSector_def (i : Nat) (f : SectorSt → SectorSt) : s.modSector i f = s.setSector i (f (s.sector i)) := rfl

theorem State.sector_setSector (i j : Nat) (v : SectorSt) : (s.setSector i v).sector j = if j = i then v else s.sector j :=
  Tab.get_set s.sectors {} v i j

@[simp] theorem State.sector_setSector_self (i : Nat) (v : SectorSt) : (s.setSector i v).sector i = v := by simp [State.sector_setSector]

@[simp] theorem State.sector_setSector_ne (i j : Nat) (v : SectorSt) (h : j ≠ i) : (s.setSector i v).sector j = s.sector j := by
  simp [State.sector_setSector, h]

@[simp] theorem State.modNet_def (i : Nat) (f : NetSt → NetSt) : s.modNet i f = s.setNet i (f (s.net i)) := rfl

theorem State.net_setNet (i j : Nat) (v : NetSt) : (s.setNet i v).net j = if j = i then v else s.net j :=
  Tab.get_set s.nets {} v i j

@[simp] theorem State.net_setNet_self (i : Nat) (v : NetSt) : (s.setNet i v).net i = v := by simp [State.net_setNet]

@[simp] theorem State.net_setNet_ne (i j : Nat) (v : NetSt) (h : j ≠ i) : (s.setNet i v).net j = s.net j := by
  simp [State.net_setNet, h]

@[simp] theorem State.modMb_def (i : Nat) (f : MboxSt → MboxSt) : s.modMb i f = s.setMb i (f (s.mb i)) := rfl

theorem State.mb_setMb (i j : Nat) (v : MboxSt) : (s.setMb i v).mb j = if j = i then v else s.mb j :=
  Tab.get_set s.mbox {} v i j

@[simp] theorem State.mb_setMb_self (i : Nat) (v : MboxSt) : (s.setMb i v).mb i = v := by simp [State.mb_setMb]

@[simp] theorem State.mb_setMb_ne (i j : Nat) (v : MboxSt) (h : j ≠ i) : (s.setMb i v).mb j = s.mb j := by
  simp [State.mb_setMb, h]

@[simp] theorem State.modPort_def (i : Nat) (f : PortSt → PortSt) : s.modPort i f = s.setPort i (f (s.port i)) := rfl

theorem State.port_setPort (i j : Nat) (v : PortSt) : (s.setPort i v).port j = if j = i then v else s.port j :=
  Tab.get_set s.ports {} v i j

@[simp] theorem State.port_setPort_self (i : Nat) (v : PortSt) : (s.setPort i v).port i = v := by simp [State.port_setPort]

@[simp] theorem State.port_setPort_ne (i j : Nat) (v : PortSt) (h : j ≠ i) : (s.setPort i v).port j = s.port j := by
  simp [State.port_setPort, h]

@[simp] theorem State.modFlow_def (i : Nat) (f : FlowSt → FlowSt) : s.modFlow i f = s.setFlow i (f (s.flow i)) := rfl

theorem State.flow_setFlow (i j : Nat) (v : FlowSt) : (s.setFlow i v).flow j = if j = i then v else s.flow j :=
  Tab.get_set s.flows {} v i j

@[simp] theorem State.flow_setFlow_self (i : Nat) (v : FlowSt) : (s.setFlow i v).flow i = v := by simp [State.flow_setFlow]

@[simp] theorem State.flow_setFlow_ne (i j : Nat) (v : FlowSt) (h : j ≠ i) : (s.setFlow i v).flow j = s.flow j := by
  simp [State.flow_setFlow, h]

@[simp] theorem State.modStc_def (i : Nat) (f : StcSt → StcSt) : s.modStc i f = s.setStc i (f (s.stc i)) := rfl

theorem State.stc_setStc (i j : Nat) (v : StcSt) : (s.setStc i v).stc j = if j = i then v else s.stc j :=
  Tab.get_set s.stcs {} v i j

@[simp] theorem State.stc_setStc_self (i : Nat) (v : StcSt) : (s.setStc i v).stc i = v := by simp [State.stc_setStc]

@[simp] theorem State.stc_setStc_ne (i j : Nat) (v : StcSt) (h : j ≠ i) : (s.setStc i v).stc j = s.stc j := by
  simp [State.stc_setStc, h]

@[simp] theorem State.modTmr_def (i : Nat) (f : TimerSt → TimerSt) : s.modTmr i f = s.setTmr i (f (s.tmr i)) := rfl

theorem State.tmr_setTmr (i j : Nat) (v : TimerSt) : (s.setTmr i v).tmr j = if j = i then v else s.tmr j :=
  Tab.get_set s.timers {} v i j

@[simp] theorem State.tmr_setTmr_self (i : Nat) (v : TimerSt) : (s.setTmr i v).tmr i = v := by simp [State.tmr_setTmr]

@[simp] theorem State.tmr_setTmr_ne (i j : Nat) (v : TimerSt) (h : j ≠ i) : (s.setTmr i v).tmr j = s.tmr j := by
  simp [State.tmr_setTmr, h]

theorem State.lout_modLout (i j : Nat) (f : LoutSt → LoutSt) :
    (s.modLout i f).lout j = if j = i then f (s.lout i) else s.lout j := Tab.get_set _ _ _ i j

@[simp] theorem State.lout_modLout_self (i : Nat) (f : LoutSt → LoutSt) : (s.modLout i f).lout i = f (s.lout i) := by
  simp [State.lout_modLout]

@[simp] theorem State.lout_modLout_ne (i j : Nat) (f : LoutSt → LoutSt) (h : j ≠ i) : (s.modLout i f).lout j = s.lout j := by
  simp [State.lout_modLout, h]

theorem State.bind_modBind (i j : Nat) (f : BindSt → BindSt) :
    (s.modBind i f).bind j = if j = i then f (s.bind i) else s.bind j := Tab.get_set _ _ _ i j

@[simp] theorem State.bind_modBind_self (i : Nat) (f : BindSt → BindSt) : (s.modBind i f).bind i = f (s.bind i) := by
  simp [State.bind_modBind]

@[simp] theorem State.bind_modBind_ne (i j : Nat) (f : BindSt → BindSt) (h : j ≠ i) : (s.modBind i f).bind j = s.bind j := by
  simp [State.bind_modBind, h]

theorem State.dp_modDp (i j : Nat) (f : PackSt → PackSt) :
    (s.modDp i f).dp j = if j = i then f (s.dp i) else s.dp j := Tab.get_set _ _ _ i j

@[simp] theorem State.dp_modDp_self (i : Nat) (f : PackSt → PackSt) : (s.modDp i f).dp i = f (s.dp i) := by
  simp [State.dp_modDp]

@[simp] theorem State.dp_modDp_ne (i j : Nat) (f : PackSt → PackSt) (h : j ≠ i) : (s.modDp i f).dp j = s.dp j := by
  simp [State.dp_modDp, h]

theorem State.rp_modRp (i j : Nat) (f : PackSt → PackSt) :
    (s.modRp i f).rp j = if j = i then f (s.rp i) else s.rp j := Tab.get_set _ _ _ i j

@[simp] theorem State.rp_modRp_self (i : Nat) (f : PackSt → PackSt) : (s.modRp i f).rp i = f (s.rp i) := by
  simp [State.rp_modRp]

@[simp] theorem State.rp_modRp_ne (i j : Nat) (f : PackSt → PackSt) (h : j ≠ i) : (s.modRp i f).rp j = s.rp j := by
  simp [State.rp_modRp, h]

theorem State.comb_modComb (i j : Nat) (f : CombSt → CombSt) :
    (s.modComb i f).comb j = if j = i then f (s.comb i) else s.comb j := Tab.get_set _ _ _ i j

@[simp] theorem State.comb_modComb_self (i : Nat) (f : CombSt → CombSt) : (s.modComb i f).comb i = f (s.comb i) := by
  simp [State.comb_modComb]

@[simp] theorem State.comb_modComb_ne (i j : Nat) (f : CombSt → CombSt) (h : j ≠ i) : (s.modComb i f).comb j = s.comb j := by
  simp [State.comb_modComb, h]

theorem State.rfn_modRfn (i j : Nat) (f : RingFn → RingFn) :
    (s.modRfn i f).rfn j = if j = i then f (s.rfn i) else s.rfn j := Tab.get_set _ _ _ i j

@[simp] theorem State.rfn_modRfn_self (i : Nat) (f : RingFn → RingFn) : (s.modRfn i f).rfn i = f (s.rfn i) := by
  simp [State.rfn_modRfn]

@[simp] theorem State.rfn_modRfn_ne (i j : Nat) (f : RingFn → RingFn) (h : j ≠ i) : (s.modRfn i f).rfn j = s.rfn j := by
  simp [State.rfn_modRfn, h]

@[simp] theorem State.setCore_units (c : Nat) (k : CoreSt) :
    (s.setCore c k).sector = s.sector ∧ (s.setCore c k).net = s.net ∧ (s.setCore c k).mb = s.mb ∧
    (s.setCore c k).port = s.port ∧ (s.setCore c k).flow = s.flow ∧ (s.setCore c k).stc = s.stc ∧
    (s.setCore c k).tmr = s.tmr ∧ (s.setCore c k).lout = s.lout ∧ (s.setCore c k).bind = s.bind ∧
    (s.setCore c k).dp = s.dp ∧ (s.setCore c k).rp = s.rp ∧ (s.setCore c k).comb = s.comb ∧
    (s.setCore c k).rfn = s.rfn ∧ (s.setCore c k).now = s.now := by
  repeat' constructor

@[simp] theorem State.setSector_units (n : Nat) (k : SectorSt) :
    (s.setSector n k).core = s.core ∧ (s.setSector n k).net = s.net ∧ (s.setSector n k).mb = s.mb ∧
    (s.setSector n k).port = s.port ∧ (s.setSector n k).flow = s.flow ∧ (s.setSector n k).stc = s.stc ∧
    (s.setSector n k).tmr = s.tmr ∧ (s.setSector n k).lout = s.lout ∧ (s.setSector n k).bind = s.bind ∧
    (s.setSector n k).dp = s.dp ∧ (s.setSector n k).rp = s.rp ∧ (s.setSector n k).comb = s.comb ∧
    (s.setSector n k).rfn = s.rfn ∧ (s.setSector n k).now = s.now := by
  repeat' constructor

@[simp] theorem State.setNet_units (k : Nat) (v : NetSt) :
    (s.setNet k v).core = s.core ∧ (s.setNet k v).sector = s.sector ∧ (s.setNet k v).mb = s.mb ∧
    (s.setNet k v).port = s.port ∧ (s.setNet k v).flow = s.flow ∧ (s.setNet k v).stc = s.stc ∧
    (s.setNet k v).tmr = s.tmr ∧ (s.setNet k v).lout = s.lout ∧ (s.setNet k v).bind = s.bind ∧
    (s.setNet k v).dp = s.dp ∧ (s.setNet k v).rp = s.rp ∧ (s.setNet k v).comb = s.comb ∧ (s.setNet k v).rfn = s.rfn ∧
    (s.setNet k v).now = s.now := by
  repeat' constructor

@[simp] theorem State.setMb_units (m : Nat) (v : MboxSt) :
    (s.setMb m v).core = s.core ∧ (s.setMb m v).sector = s.sector ∧ (s.setMb m v).net = s.net ∧
    (s.setMb m v).port = s.port ∧ (s.setMb m v).flow = s.flow ∧ (s.setMb m v).stc = s.stc ∧
    (s.setMb m v).tmr = s.tmr ∧ (s.setMb m v).lout = s.lout ∧ (s.setMb m v).bind = s.bind ∧ (s.setMb m v).dp = s.dp ∧
    (s.setMb m v).rp = s.rp ∧ (s.setMb m v).comb = s.comb ∧ (s.setMb m v).rfn = s.rfn ∧ (s.setMb m v).now = s.now := by
  repeat' constructor

@[simp] theorem State.setPort_units (p : Nat) (v : PortSt) :
    (s.setPort p v).core = s.core ∧ (s.setPort p v).sector = s.sector ∧ (s.setPort p v).net = s.net ∧
    (s.setPort p v).mb = s.mb ∧ (s.setPort p v).flow = s.flow ∧ (s.setPort p v).stc = s.stc ∧
    (s.setPort p v).tmr = s.tmr ∧ (s.setPort p v).lout = s.lout ∧ (s.setPort p v).bind = s.bind ∧
    (s.setPort p v).dp = s.dp ∧ (s.setPort p v).rp = s.rp ∧ (s.setPort p v).comb = s.comb ∧
    (s.setPort p v).rfn = s.rfn ∧ (s.setPort p v).now = s.now := by
  repeat' constructor

@[simp] theorem State.setFlow_units (f : Nat) (v : FlowSt) :
    (s.setFlow f v).core = s.core ∧ (s.setFlow f v).sector = s.sector ∧ (s.setFlow f v).net = s.net ∧
    (s.setFlow f v).mb = s.mb ∧ (s.setFlow f v).port = s.port ∧ (s.setFlow f v).stc = s.stc ∧
    (s.setFlow f v).tmr = s.tmr ∧ (s.setFlow f v).lout = s.lout ∧ (s.setFlow f v).bind = s.bind ∧
    (s.setFlow f v).dp = s.dp ∧ (s.setFlow f v).rp = s.rp ∧ (s.setFlow f v).comb = s.comb ∧
    (s.setFlow f v).rfn = s.rfn ∧ (s.setFlow f v).now = s.now := by
  repeat' constructor

@[simp] theorem State.setStc_units (n : Nat) (v : StcSt) :
    (s.setStc n v).core = s.core ∧ (s.setStc n v).sector = s.sector ∧ (s.setStc n v).net = s.net ∧
    (s.setStc n v).mb = s.mb ∧ (s.setStc n v).port = s.port ∧ (s.setStc n v).flow = s.flow ∧
    (s.setStc n v).tmr = s.tmr ∧ (s.setStc n v).lout = s.lout ∧ (s.setStc n v).bind = s.bind ∧
    (s.setStc n v).dp = s.dp ∧ (s.setStc n v).rp = s.rp ∧ (s.setStc n v).comb = s.comb ∧ (s.setStc n v).rfn = s.rfn ∧
    (s.setStc n v).now = s.now := by
  repeat' constructor

@[simp] theorem State.setTmr_units (c : Nat) (v : TimerSt) :
    (s.setTmr c v).core = s.core ∧ (s.setTmr c v).sector = s.sector ∧ (s.setTmr c v).net = s.net ∧
    (s.setTmr c v).mb = s.mb ∧ (s.setTmr c v).port = s.port ∧ (s.setTmr c v).flow = s.flow ∧
    (s.setTmr c v).stc = s.stc ∧ (s.setTmr c v).lout = s.lout ∧ (s.setTmr c v).bind = s.bind ∧
    (s.setTmr c v).dp = s.dp ∧ (s.setTmr c v).rp = s.rp ∧ (s.setTmr c v).comb = s.comb ∧ (s.setTmr c v).rfn = s.rfn ∧
    (s.setTmr c v).now = s.now := by
  repeat' constructor

@[simp] theorem State.modLout_units (p : Nat) (f : LoutSt → LoutSt) :
    (s.modLout p f).core = s.core ∧ (s.modLout p f).sector = s.sector ∧ (s.modLout p f).net = s.net ∧
    (s.modLout p f).mb = s.mb ∧ (s.modLout p f).port = s.port ∧ (s.modLout p f).flow = s.flow ∧
    (s.modLout p f).stc = s.stc ∧ (s.modLout p f).tmr = s.tmr ∧ (s.modLout p f).bind = s.bind ∧
    (s.modLout p f).dp = s.dp ∧ (s.modLout p f).rp = s.rp ∧ (s.modLout p f).comb = s.comb ∧
    (s.modLout p f).rfn = s.rfn ∧ (s.modLout p f).now = s.now := by
  repeat' constructor

@[simp] theorem State.modBind_units (b : Nat) (f : BindSt → BindSt) :
    (s.modBind b f).core = s.core ∧ (s.modBind b f).sector = s.sector ∧ (s.modBind b f).net = s.net ∧
    (s.modBind b f).mb = s.mb ∧ (s.modBind b f).port = s.port ∧ (s.modBind b f).flow = s.flow ∧
    (s.modBind b f).stc = s.stc ∧ (s.modBind b f).tmr = s.tmr ∧ (s.modBind b f).lout = s.lout ∧
    (s.modBind b f).dp = s.dp ∧ (s.modBind b f).rp = s.rp ∧ (s.modBind b f).comb = s.comb ∧
    (s.modBind b f).rfn = s.rfn ∧ (s.modBind b f).now = s.now := by
  repeat' constructor

@[simp] theorem State.modDp_units (d : Nat) (f : PackSt → PackSt) :
    (s.modDp d f).core = s.core ∧ (s.modDp d f).sector = s.sector ∧ (s.modDp d f).net = s.net ∧
    (s.modDp d f).mb = s.mb ∧ (s.modDp d f).port = s.port ∧ (s.modDp d f).flow = s.flow ∧ (s.modDp d f).stc = s.stc ∧
    (s.modDp d f).tmr = s.tmr ∧ (s.modDp d f).lout = s.lout ∧ (s.modDp d f).bind = s.bind ∧ (s.modDp d f).rp = s.rp ∧
    (s.modDp d f).comb = s.comb ∧ (s.modDp d f).rfn = s.rfn ∧ (s.modDp d f).now = s.now := by
  repeat' constructor

@[simp] theorem State.modRp_units (r : Nat) (f : PackSt → PackSt) :
    (s.modRp r f).core = s.core ∧ (s.modRp r f).sector = s.sector ∧ (s.modRp r f).net = s.net ∧
    (s.modRp r f).mb = s.mb ∧ (s.modRp r f).port = s.port ∧ (s.modRp r f).flow = s.flow ∧ (s.modRp r f).stc = s.stc ∧
    (s.modRp r f).tmr = s.tmr ∧ (s.modRp r f).lout = s.lout ∧ (s.modRp r f).bind = s.bind ∧ (s.modRp r f).dp = s.dp ∧
    (s.modRp r f).comb = s.comb ∧ (s.modRp r f).rfn = s.rfn ∧ (s.modRp r f).now = s.now := by
  repeat' constructor

@[simp] theorem State.modComb_units (m : Nat) (f : CombSt → CombSt) :
    (s.modComb m f).core = s.core ∧ (s.modComb m f).sector = s.sector ∧ (s.modComb m f).net = s.net ∧
    (s.modComb m f).mb = s.mb ∧ (s.modComb m f).port = s.port ∧ (s.modComb m f).flow = s.flow ∧
    (s.modComb m f).stc = s.stc ∧ (s.modComb m f).tmr = s.tmr ∧ (s.modComb m f).lout = s.lout ∧
    (s.modComb m f).bind = s.bind ∧ (s.modComb m f).dp = s.dp ∧ (s.modComb m f).rp = s.rp ∧
    (s.modComb m f).rfn = s.rfn ∧ (s.modComb m f).now = s.now := by
  repeat' constructor

@[simp] theorem State.modRfn_units (r : Nat) (f : RingFn → RingFn) :
    (s.modRfn r f).core = s.core ∧ (s.modRfn r f).sector = s.sector ∧ (s.modRfn r f).net = s.net ∧
    (s.modRfn r f).mb = s.mb ∧ (s.modRfn r f).port = s.port ∧ (s.modRfn r f).flow = s.flow ∧
    (s.modRfn r f).stc = s.stc ∧ (s.modRfn r f).tmr = s.tmr ∧ (s.modRfn r f).lout = s.lout ∧
    (s.modRfn r f).bind = s.bind ∧ (s.modRfn r f).dp = s.dp ∧ (s.modRfn r f).rp = s.rp ∧
    (s.modRfn r f).comb = s.comb ∧ (s.modRfn r f).now = s.now := by
  repeat' constructor

@[simp] theorem State.modAo_units (f : AoSt → AoSt) :
    (s.modAo f).core = s.core ∧ (s.modAo f).sector = s.sector ∧ (s.modAo f).net = s.net ∧ (s.modAo f).mb = s.mb ∧
    (s.modAo f).port = s.port ∧ (s.modAo f).flow = s.flow ∧ (s.modAo f).stc = s.stc ∧ (s.modAo f).tmr = s.tmr ∧
    (s.modAo f).lout = s.lout ∧ (s.modAo f).bind = s.bind ∧ (s.modAo f).dp = s.dp ∧ (s.modAo f).rp = s.rp ∧
    (s.modAo f).comb = s.comb ∧ (s.modAo f).rfn = s.rfn := by
  repeat' constructor

@[simp] theorem State.modPcie_units (f : PcieSt → PcieSt) :
    (s.modPcie f).core = s.core ∧ (s.modPcie f).sector = s.sector ∧ (s.modPcie f).net = s.net ∧
    (s.modPcie f).mb = s.mb ∧ (s.modPcie f).port = s.port ∧ (s.modPcie f).flow = s.flow ∧ (s.modPcie f).stc = s.stc ∧
    (s.modPcie f).tmr = s.tmr ∧ (s.modPcie f).lout = s.lout ∧ (s.modPcie f).bind = s.bind ∧ (s.modPcie f).dp = s.dp ∧
    (s.modPcie f).rp = s.rp ∧ (s.modPcie f).comb = s.comb ∧ (s.modPcie f).rfn = s.rfn ∧ (s.modPcie f).now = s.now := by
  repeat' constructor

@[simp] theorem State.modFault_units (f : FaultSt → FaultSt) :
    (s.modFault f).core = s.core ∧ (s.modFault f).sector = s.sector ∧ (s.modFault f).net = s.net ∧
    (s.modFault f).mb = s.mb ∧ (s.modFault f).port = s.port ∧ (s.modFault f).flow = s.flow ∧
    (s.modFault f).stc = s.stc ∧ (s.modFault f).tmr = s.tmr ∧ (s.modFault f).lout = s.lout ∧
    (s.modFault f).bind = s.bind ∧ (s.modFault f).dp = s.dp ∧ (s.modFault f).rp = s.rp ∧
    (s.modFault f).comb = s.comb ∧ (s.modFault f).rfn = s.rfn ∧ (s.modFault f).now = s.now := by
  repeat' constructor

@[simp] theorem State.modSec_units (f : SecSt → SecSt) :
    (s.modSec f).core = s.core ∧ (s.modSec f).sector = s.sector ∧ (s.modSec f).net = s.net ∧ (s.modSec f).mb = s.mb ∧
    (s.modSec f).port = s.port ∧ (s.modSec f).flow = s.flow ∧ (s.modSec f).stc = s.stc ∧ (s.modSec f).tmr = s.tmr ∧
    (s.modSec f).lout = s.lout ∧ (s.modSec f).bind = s.bind ∧ (s.modSec f).dp = s.dp ∧ (s.modSec f).rp = s.rp ∧
    (s.modSec f).comb = s.comb ∧ (s.modSec f).rfn = s.rfn ∧ (s.modSec f).now = s.now := by
  repeat' constructor

@[simp] theorem State.modGddr_units (f : GddrSt → GddrSt) :
    (s.modGddr f).core = s.core ∧ (s.modGddr f).sector = s.sector ∧ (s.modGddr f).net = s.net ∧
    (s.modGddr f).mb = s.mb ∧ (s.modGddr f).port = s.port ∧ (s.modGddr f).flow = s.flow ∧ (s.modGddr f).stc = s.stc ∧
    (s.modGddr f).tmr = s.tmr ∧ (s.modGddr f).lout = s.lout ∧ (s.modGddr f).bind = s.bind ∧ (s.modGddr f).dp = s.dp ∧
    (s.modGddr f).rp = s.rp ∧ (s.modGddr f).comb = s.comb ∧ (s.modGddr f).rfn = s.rfn ∧ (s.modGddr f).now = s.now := by
  repeat' constructor

@[simp] theorem State.modBoot_units (f : BootSt → BootSt) :
    (s.modBoot f).core = s.core ∧ (s.modBoot f).sector = s.sector ∧ (s.modBoot f).net = s.net ∧
    (s.modBoot f).mb = s.mb ∧ (s.modBoot f).port = s.port ∧ (s.modBoot f).flow = s.flow ∧ (s.modBoot f).stc = s.stc ∧
    (s.modBoot f).tmr = s.tmr ∧ (s.modBoot f).lout = s.lout ∧ (s.modBoot f).bind = s.bind ∧ (s.modBoot f).dp = s.dp ∧
    (s.modBoot f).rp = s.rp ∧ (s.modBoot f).comb = s.comb ∧ (s.modBoot f).rfn = s.rfn ∧ (s.modBoot f).now = s.now := by
  repeat' constructor

@[simp] theorem State.withQueue_units (q : List Instr) :
    (s.withQueue q).core = s.core ∧ (s.withQueue q).sector = s.sector ∧ (s.withQueue q).net = s.net ∧
    (s.withQueue q).mb = s.mb ∧ (s.withQueue q).port = s.port ∧ (s.withQueue q).flow = s.flow ∧
    (s.withQueue q).stc = s.stc ∧ (s.withQueue q).tmr = s.tmr ∧ (s.withQueue q).lout = s.lout ∧
    (s.withQueue q).bind = s.bind ∧ (s.withQueue q).dp = s.dp ∧ (s.withQueue q).rp = s.rp ∧
    (s.withQueue q).comb = s.comb ∧ (s.withQueue q).rfn = s.rfn ∧ (s.withQueue q).now = s.now := by
  repeat' constructor

@[simp] theorem State.drawn_units :
    (s.drawn).core = s.core ∧ (s.drawn).sector = s.sector ∧ (s.drawn).net = s.net ∧ (s.drawn).mb = s.mb ∧
    (s.drawn).port = s.port ∧ (s.drawn).flow = s.flow ∧ (s.drawn).stc = s.stc ∧ (s.drawn).tmr = s.tmr ∧
    (s.drawn).lout = s.lout ∧ (s.drawn).bind = s.bind ∧ (s.drawn).dp = s.dp ∧ (s.drawn).rp = s.rp ∧
    (s.drawn).comb = s.comb ∧ (s.drawn).rfn = s.rfn ∧ (s.drawn).now = s.now := by
  repeat' constructor

@[simp] theorem State.send_units (o : Out) :
    (s.send o).core = s.core ∧ (s.send o).sector = s.sector ∧ (s.send o).net = s.net ∧ (s.send o).mb = s.mb ∧
    (s.send o).port = s.port ∧ (s.send o).flow = s.flow ∧ (s.send o).stc = s.stc ∧ (s.send o).tmr = s.tmr ∧
    (s.send o).lout = s.lout ∧ (s.send o).bind = s.bind ∧ (s.send o).dp = s.dp ∧ (s.send o).rp = s.rp ∧
    (s.send o).comb = s.comb ∧ (s.send o).rfn = s.rfn ∧ (s.send o).now = s.now := by
  repeat' constructor

@[simp] theorem State.ctrPut_units (scope idx id sub kind v : Nat) :
    (s.ctrPut scope idx id sub kind v).core = s.core ∧ (s.ctrPut scope idx id sub kind v).sector = s.sector ∧
    (s.ctrPut scope idx id sub kind v).net = s.net ∧ (s.ctrPut scope idx id sub kind v).mb = s.mb ∧
    (s.ctrPut scope idx id sub kind v).port = s.port ∧ (s.ctrPut scope idx id sub kind v).flow = s.flow ∧
    (s.ctrPut scope idx id sub kind v).stc = s.stc ∧ (s.ctrPut scope idx id sub kind v).tmr = s.tmr ∧
    (s.ctrPut scope idx id sub kind v).lout = s.lout ∧ (s.ctrPut scope idx id sub kind v).bind = s.bind ∧
    (s.ctrPut scope idx id sub kind v).dp = s.dp ∧ (s.ctrPut scope idx id sub kind v).rp = s.rp ∧
    (s.ctrPut scope idx id sub kind v).comb = s.comb ∧ (s.ctrPut scope idx id sub kind v).rfn = s.rfn ∧
    (s.ctrPut scope idx id sub kind v).now = s.now := by
  repeat' constructor

/-! ### Counters -/

/-- A slot read after a slot is set. -/
theorem State.ctrAt_ctrPut (scope idx id sub kind v a b c d e : Nat) :
    (s.ctrPut scope idx id sub kind v).ctrAt a b c d e =
      if ckey a b c d e = ckey scope idx id sub kind then satCtr v else s.ctrAt a b c d e := Tab.get_set s.ctr 0 _ _ _

/-- Counters saturate: no slot that is written exceeds 2^64 - 1 (02 R60). -/
theorem satCtr_le (v : Nat) : satCtr v ≤ 2 ^ 64 - 1 := Nat.min_le_right _ _

end Sys2Proof.Machine
end

