-- ==== Sys2Proof/Laws/Frame.lean ====
section
/-! SUPPORT. Frame.lean: which parts of State each update keeps, and how frames compose. -/

namespace Sys2Proof.Machine

variable {s t u : State} {l l' : List Part}

theorem State.KeepsBut.refl : State.KeepsBut l s s := fun p _ => by cases p <;> rfl

theorem State.KeepsBut.mono (h : State.KeepsBut l s t) (hl : l ⊆ l') : State.KeepsBut l' s t :=
  fun p hp => h p fun hm => hp (hl hm)

theorem State.KeepsBut.trans (h : State.KeepsBut l s t) (h' : State.KeepsBut l t u) : State.KeepsBut l s u := by
  intro p hp
  have a := h p hp
  have b := h' p hp
  cases p <;> exact b.trans a

/-- A fold of steps that each keep a frame keeps it. -/
theorem State.KeepsBut.foldl {β : Type} {f : State → β → State} (hf : ∀ s x, State.KeepsBut l s (f s x)) (xs : List β)
    (s : State) : State.KeepsBut l s (xs.foldl f s) := by
  induction xs generalizing s with
  | nil => exact .refl
  | cons x xs ih => exact (hf s x).trans (ih (f s x))

theorem State.KeepsBut.ite {c : Prop} [Decidable c] (ht : State.KeepsBut l s t) (hu : State.KeepsBut l s u) :
    State.KeepsBut l s (if c then t else u) := by
  split
  · exact ht
  · exact hu

theorem State.KeepsBut.pending_eq (h : State.KeepsBut l s t) (hp : Part.pending ∉ l := by decide) : t.pending = s.pending := h .pending hp

theorem State.KeepsBut.ao_eq (h : State.KeepsBut l s t) (hp : Part.ao ∉ l := by decide) : t.ao = s.ao := h .ao hp

theorem State.KeepsBut.timers_eq (h : State.KeepsBut l s t) (hp : Part.timers ∉ l := by decide) : t.timers = s.timers := h .timers hp

theorem State.KeepsBut.boot_eq (h : State.KeepsBut l s t) (hp : Part.boot ∉ l := by decide) : t.boot = s.boot := h .boot hp

theorem State.KeepsBut.board_eq (h : State.KeepsBut l s t) (hp : Part.board ∉ l := by decide) : t.board = s.board := h .board hp

theorem State.KeepsBut.pcie_eq (h : State.KeepsBut l s t) (hp : Part.pcie ∉ l := by decide) : t.pcie = s.pcie := h .pcie hp

theorem State.KeepsBut.mbox_eq (h : State.KeepsBut l s t) (hp : Part.mbox ∉ l := by decide) : t.mbox = s.mbox := h .mbox hp

theorem State.KeepsBut.accepted_eq (h : State.KeepsBut l s t) (hp : Part.accepted ∉ l := by decide) : t.accepted = s.accepted := h .accepted hp

theorem State.KeepsBut.nets_eq (h : State.KeepsBut l s t) (hp : Part.nets ∉ l := by decide) : t.nets = s.nets := h .nets hp

theorem State.KeepsBut.cores_eq (h : State.KeepsBut l s t) (hp : Part.cores ∉ l := by decide) : t.cores = s.cores := h .cores hp

theorem State.KeepsBut.sectors_eq (h : State.KeepsBut l s t) (hp : Part.sectors ∉ l := by decide) : t.sectors = s.sectors := h .sectors hp

theorem State.KeepsBut.ports_eq (h : State.KeepsBut l s t) (hp : Part.ports ∉ l := by decide) : t.ports = s.ports := h .ports hp

theorem State.KeepsBut.flows_eq (h : State.KeepsBut l s t) (hp : Part.flows ∉ l := by decide) : t.flows = s.flows := h .flows hp

theorem State.KeepsBut.routes_eq (h : State.KeepsBut l s t) (hp : Part.routes ∉ l := by decide) : t.routes = s.routes := h .routes hp

theorem State.KeepsBut.deviceId_eq (h : State.KeepsBut l s t) (hp : Part.deviceId ∉ l := by decide) : t.deviceId = s.deviceId := h .deviceId hp

theorem State.KeepsBut.gddr_eq (h : State.KeepsBut l s t) (hp : Part.gddr ∉ l := by decide) : t.gddr = s.gddr := h .gddr hp

theorem State.KeepsBut.images_eq (h : State.KeepsBut l s t) (hp : Part.images ∉ l := by decide) : t.images = s.images := h .images hp

theorem State.KeepsBut.nextHandle_eq (h : State.KeepsBut l s t) (hp : Part.nextHandle ∉ l := by decide) : t.nextHandle = s.nextHandle := h .nextHandle hp

theorem State.KeepsBut.regions_eq (h : State.KeepsBut l s t) (hp : Part.regions ∉ l := by decide) : t.regions = s.regions := h .regions hp

theorem State.KeepsBut.pageSets_eq (h : State.KeepsBut l s t) (hp : Part.pageSets ∉ l := by decide) : t.pageSets = s.pageSets := h .pageSets hp

theorem State.KeepsBut.groups_eq (h : State.KeepsBut l s t) (hp : Part.groups ∉ l := by decide) : t.groups = s.groups := h .groups hp

theorem State.KeepsBut.binds_eq (h : State.KeepsBut l s t) (hp : Part.binds ∉ l := by decide) : t.binds = s.binds := h .binds hp

theorem State.KeepsBut.tok_eq (h : State.KeepsBut l s t) (hp : Part.tok ∉ l := by decide) : t.tok = s.tok := h .tok hp

theorem State.KeepsBut.dpack_eq (h : State.KeepsBut l s t) (hp : Part.dpack ∉ l := by decide) : t.dpack = s.dpack := h .dpack hp

theorem State.KeepsBut.rpack_eq (h : State.KeepsBut l s t) (hp : Part.rpack ∉ l := by decide) : t.rpack = s.rpack := h .rpack hp

theorem State.KeepsBut.combs_eq (h : State.KeepsBut l s t) (hp : Part.combs ∉ l := by decide) : t.combs = s.combs := h .combs hp

theorem State.KeepsBut.rfns_eq (h : State.KeepsBut l s t) (hp : Part.rfns ∉ l := by decide) : t.rfns = s.rfns := h .rfns hp

theorem State.KeepsBut.expand_eq (h : State.KeepsBut l s t) (hp : Part.expand ∉ l := by decide) : t.expand = s.expand := h .expand hp

theorem State.KeepsBut.errTok_eq (h : State.KeepsBut l s t) (hp : Part.errTok ∉ l := by decide) : t.errTok = s.errTok := h .errTok hp

theorem State.KeepsBut.stcs_eq (h : State.KeepsBut l s t) (hp : Part.stcs ∉ l := by decide) : t.stcs = s.stcs := h .stcs hp

theorem State.KeepsBut.louts_eq (h : State.KeepsBut l s t) (hp : Part.louts ∉ l := by decide) : t.louts = s.louts := h .louts hp

theorem State.KeepsBut.fault_eq (h : State.KeepsBut l s t) (hp : Part.fault ∉ l := by decide) : t.fault = s.fault := h .fault hp

theorem State.KeepsBut.sec_eq (h : State.KeepsBut l s t) (hp : Part.sec ∉ l := by decide) : t.sec = s.sec := h .sec hp

theorem State.KeepsBut.traceCtrl_eq (h : State.KeepsBut l s t) (hp : Part.traceCtrl ∉ l := by decide) : t.traceCtrl = s.traceCtrl := h .traceCtrl hp

theorem State.KeepsBut.ctr_eq (h : State.KeepsBut l s t) (hp : Part.ctr ∉ l := by decide) : t.ctr = s.ctr := h .ctr hp

theorem State.KeepsBut.snap_eq (h : State.KeepsBut l s t) (hp : Part.snap ∉ l := by decide) : t.snap = s.snap := h .snap hp

theorem State.KeepsBut.out_eq (h : State.KeepsBut l s t) (hp : Part.out ∉ l := by decide) : t.out = s.out := h .out hp

theorem State.KeepsBut.free_eq (h : State.KeepsBut l s t) (hp : Part.free ∉ l := by decide) : t.free = s.free := h .free hp

variable (s)

/-- A part that the frame leaves free may change. -/
theorem State.keepsBut_congr (h : ∀ p, p ∉ l → (State.Same t u p)) : State.KeepsBut l s u ↔ State.KeepsBut l s t := by
  constructor
  · intro k p hp
    have a := k p hp
    have b := h p hp
    cases p <;> exact b.symm.trans a
  · intro k p hp
    have a := k p hp
    have b := h p hp
    cases p <;> exact b.trans a

@[simp] theorem State.keepsBut_refl : State.KeepsBut l s s := .refl

@[simp] theorem State.keepsBut_ite {c : Prop} [Decidable c] :
    State.KeepsBut l s (if c then t else u) ↔ if c then State.KeepsBut l s t else State.KeepsBut l s u := by
  split <;> rfl

@[simp] theorem State.keepsBut_setCore (hp : Part.cores ∈ l) (c : Nat) (k : CoreSt) :
    State.KeepsBut l s (t.setCore c k) ↔ State.KeepsBut l s t :=
  State.keepsBut_congr s fun p h => by cases p <;> first | rfl | exact absurd hp h

@[simp] theorem State.keepsBut_setSector (hp : Part.sectors ∈ l) (n : Nat) (k : SectorSt) :
    State.KeepsBut l s (t.setSector n k) ↔ State.KeepsBut l s t :=
  State.keepsBut_congr s fun p h => by cases p <;> first | rfl | exact absurd hp h

@[simp] theorem State.keepsBut_setNet (hp : Part.nets ∈ l) (k : Nat) (v : NetSt) :
    State.KeepsBut l s (t.setNet k v) ↔ State.KeepsBut l s t :=
  State.keepsBut_congr s fun p h => by cases p <;> first | rfl | exact absurd hp h

@[simp] theorem State.keepsBut_setMb (hp : Part.mbox ∈ l) (m : Nat) (v : MboxSt) :
    State.KeepsBut l s (t.setMb m v) ↔ State.KeepsBut l s t :=
  State.keepsBut_congr s fun p h => by cases p <;> first | rfl | exact absurd hp h

@[simp] theorem State.keepsBut_setPort (hp : Part.ports ∈ l) (p : Nat) (v : PortSt) :
    State.KeepsBut l s (t.setPort p v) ↔ State.KeepsBut l s t :=
  State.keepsBut_congr s fun p h => by cases p <;> first | rfl | exact absurd hp h

@[simp] theorem State.keepsBut_setFlow (hp : Part.flows ∈ l) (f : Nat) (v : FlowSt) :
    State.KeepsBut l s (t.setFlow f v) ↔ State.KeepsBut l s t :=
  State.keepsBut_congr s fun p h => by cases p <;> first | rfl | exact absurd hp h

@[simp] theorem State.keepsBut_setStc (hp : Part.stcs ∈ l) (n : Nat) (v : StcSt) :
    State.KeepsBut l s (t.setStc n v) ↔ State.KeepsBut l s t :=
  State.keepsBut_congr s fun p h => by cases p <;> first | rfl | exact absurd hp h

@[simp] theorem State.keepsBut_setTmr (hp : Part.timers ∈ l) (c : Nat) (v : TimerSt) :
    State.KeepsBut l s (t.setTmr c v) ↔ State.KeepsBut l s t :=
  State.keepsBut_congr s fun p h => by cases p <;> first | rfl | exact absurd hp h

@[simp] theorem State.keepsBut_modCore (hp : Part.cores ∈ l) (c : Nat) (f : CoreSt → CoreSt) :
    State.KeepsBut l s (t.modCore c f) ↔ State.KeepsBut l s t :=
  State.keepsBut_congr s fun p h => by cases p <;> first | rfl | exact absurd hp h

@[simp] theorem State.keepsBut_modSector (hp : Part.sectors ∈ l) (n : Nat) (f : SectorSt → SectorSt) :
    State.KeepsBut l s (t.modSector n f) ↔ State.KeepsBut l s t :=
  State.keepsBut_congr s fun p h => by cases p <;> first | rfl | exact absurd hp h

@[simp] theorem State.keepsBut_modNet (hp : Part.nets ∈ l) (k : Nat) (f : NetSt → NetSt) :
    State.KeepsBut l s (t.modNet k f) ↔ State.KeepsBut l s t :=
  State.keepsBut_congr s fun p h => by cases p <;> first | rfl | exact absurd hp h

@[simp] theorem State.keepsBut_modMb (hp : Part.mbox ∈ l) (m : Nat) (f : MboxSt → MboxSt) :
    State.KeepsBut l s (t.modMb m f) ↔ State.KeepsBut l s t :=
  State.keepsBut_congr s fun p h => by cases p <;> first | rfl | exact absurd hp h

@[simp] theorem State.keepsBut_modPort (hp : Part.ports ∈ l) (p : Nat) (f : PortSt → PortSt) :
    State.KeepsBut l s (t.modPort p f) ↔ State.KeepsBut l s t :=
  State.keepsBut_congr s fun p h => by cases p <;> first | rfl | exact absurd hp h

@[simp] theorem State.keepsBut_modFlow (hp : Part.flows ∈ l) (i : Nat) (f : FlowSt → FlowSt) :
    State.KeepsBut l s (t.modFlow i f) ↔ State.KeepsBut l s t :=
  State.keepsBut_congr s fun p h => by cases p <;> first | rfl | exact absurd hp h

@[simp] theorem State.keepsBut_modStc (hp : Part.stcs ∈ l) (n : Nat) (f : StcSt → StcSt) :
    State.KeepsBut l s (t.modStc n f) ↔ State.KeepsBut l s t :=
  State.keepsBut_congr s fun p h => by cases p <;> first | rfl | exact absurd hp h

@[simp] theorem State.keepsBut_modTmr (hp : Part.timers ∈ l) (c : Nat) (f : TimerSt → TimerSt) :
    State.KeepsBut l s (t.modTmr c f) ↔ State.KeepsBut l s t :=
  State.keepsBut_congr s fun p h => by cases p <;> first | rfl | exact absurd hp h

@[simp] theorem State.keepsBut_modLout (hp : Part.louts ∈ l) (p : Nat) (f : LoutSt → LoutSt) :
    State.KeepsBut l s (t.modLout p f) ↔ State.KeepsBut l s t :=
  State.keepsBut_congr s fun p h => by cases p <;> first | rfl | exact absurd hp h

@[simp] theorem State.keepsBut_modBind (hp : Part.binds ∈ l) (b : Nat) (f : BindSt → BindSt) :
    State.KeepsBut l s (t.modBind b f) ↔ State.KeepsBut l s t :=
  State.keepsBut_congr s fun p h => by cases p <;> first | rfl | exact absurd hp h

@[simp] theorem State.keepsBut_modDp (hp : Part.dpack ∈ l) (d : Nat) (f : PackSt → PackSt) :
    State.KeepsBut l s (t.modDp d f) ↔ State.KeepsBut l s t :=
  State.keepsBut_congr s fun p h => by cases p <;> first | rfl | exact absurd hp h

@[simp] theorem State.keepsBut_modRp (hp : Part.rpack ∈ l) (r : Nat) (f : PackSt → PackSt) :
    State.KeepsBut l s (t.modRp r f) ↔ State.KeepsBut l s t :=
  State.keepsBut_congr s fun p h => by cases p <;> first | rfl | exact absurd hp h

@[simp] theorem State.keepsBut_modComb (hp : Part.combs ∈ l) (m : Nat) (f : CombSt → CombSt) :
    State.KeepsBut l s (t.modComb m f) ↔ State.KeepsBut l s t :=
  State.keepsBut_congr s fun p h => by cases p <;> first | rfl | exact absurd hp h

@[simp] theorem State.keepsBut_modRfn (hp : Part.rfns ∈ l) (r : Nat) (f : RingFn → RingFn) :
    State.KeepsBut l s (t.modRfn r f) ↔ State.KeepsBut l s t :=
  State.keepsBut_congr s fun p h => by cases p <;> first | rfl | exact absurd hp h

@[simp] theorem State.keepsBut_modAo (hp : Part.ao ∈ l) (f : AoSt → AoSt) :
    State.KeepsBut l s (t.modAo f) ↔ State.KeepsBut l s t :=
  State.keepsBut_congr s fun p h => by cases p <;> first | rfl | exact absurd hp h

@[simp] theorem State.keepsBut_modPcie (hp : Part.pcie ∈ l) (f : PcieSt → PcieSt) :
    State.KeepsBut l s (t.modPcie f) ↔ State.KeepsBut l s t :=
  State.keepsBut_congr s fun p h => by cases p <;> first | rfl | exact absurd hp h

@[simp] theorem State.keepsBut_modFault (hp : Part.fault ∈ l) (f : FaultSt → FaultSt) :
    State.KeepsBut l s (t.modFault f) ↔ State.KeepsBut l s t :=
  State.keepsBut_congr s fun p h => by cases p <;> first | rfl | exact absurd hp h

@[simp] theorem State.keepsBut_modSec (hp : Part.sec ∈ l) (f : SecSt → SecSt) :
    State.KeepsBut l s (t.modSec f) ↔ State.KeepsBut l s t :=
  State.keepsBut_congr s fun p h => by cases p <;> first | rfl | exact absurd hp h

@[simp] theorem State.keepsBut_modGddr (hp : Part.gddr ∈ l) (f : GddrSt → GddrSt) :
    State.KeepsBut l s (t.modGddr f) ↔ State.KeepsBut l s t :=
  State.keepsBut_congr s fun p h => by cases p <;> first | rfl | exact absurd hp h

@[simp] theorem State.keepsBut_modBoot (hp : Part.boot ∈ l) (f : BootSt → BootSt) :
    State.KeepsBut l s (t.modBoot f) ↔ State.KeepsBut l s t :=
  State.keepsBut_congr s fun p h => by cases p <;> first | rfl | exact absurd hp h

@[simp] theorem State.keepsBut_withQueue (hp : Part.pending ∈ l) (q : List Instr) :
    State.KeepsBut l s (t.withQueue q) ↔ State.KeepsBut l s t :=
  State.keepsBut_congr s fun p h => by cases p <;> first | rfl | exact absurd hp h

@[simp] theorem State.keepsBut_drawn (hp : Part.free ∈ l) :
    State.KeepsBut l s (t.drawn) ↔ State.KeepsBut l s t :=
  State.keepsBut_congr s fun p h => by cases p <;> first | rfl | exact absurd hp h

@[simp] theorem State.keepsBut_send (hp : Part.out ∈ l) (o : Out) :
    State.KeepsBut l s (t.send o) ↔ State.KeepsBut l s t :=
  State.keepsBut_congr s fun p h => by cases p <;> first | rfl | exact absurd hp h

@[simp] theorem State.keepsBut_ctrPut (hp : Part.ctr ∈ l) (scope idx id sub kind v : Nat) :
    State.KeepsBut l s (t.ctrPut scope idx id sub kind v) ↔ State.KeepsBut l s t :=
  State.keepsBut_congr s fun p h => by cases p <;> first | rfl | exact absurd hp h

@[simp] theorem State.keepsBut_ctrAdd (hp : Part.ctr ∈ l) (scope idx id sub kind v : Nat) :
    State.KeepsBut l s (t.ctrAdd scope idx id sub kind v) ↔ State.KeepsBut l s t := by
  unfold State.ctrAdd; simp [hp]

end Sys2Proof.Machine
end

