-- ==== Sys2Proof/WellFormed.lean ====
section
/-! DEFINITION. WellFormed.lean: which commands the outside of the block can send: the lengths and ranges of operands
that their types leave open. A command that is not well formed has no row of the opcode table to stand for. -/

namespace Sys2Proof

/-- A bank access of 09 R236: 1, 2, 4, 8 or 16 bytes, aligned to its width; an atomic acts on 4 or 8 aligned bytes (09 R239). -/
def BankOp.wf (offset : Nat) : BankOp → Bool
  | .read w => [1, 2, 4, 8, 16].contains w && offset % w == 0
  | .write w _ => [1, 2, 4, 8, 16].contains w && offset % w == 0
  | .atomic k _ => if k.val = 1 ∨ k.val = 4 then offset % 8 == 0 else offset % 4 == 0

/-- A GDDR6 request carries a whole block of 64 bytes (12 R306). -/
def GddrOp.wf : GddrOp → Bool
  | .read => true
  | .write _ data => data.length == 64

/-- Bytes written to or read from a window of `size` bytes stay inside it, and are some bytes. -/
def spanOk (size offset len : Nat) : Bool := decide (0 < len ∧ offset + len ≤ size)

/-- The well-formed commands. Of the accesses that reach a bank in one cycle at most one is of a
requester. -/
def Instr.wf : Instr → Bool
  | .commandSlotWrite _ offset bytes => spanOk 4096 offset.val bytes.length
  | .registerWrite offset size _ => (size == 4 || size == 8) && spanOk 16777216 offset size && offset % size == 0
  | .counterSlotLowRead offset => spanOk 1048576 offset 4 && offset % 8 == 0
  | .streamWindowWrite _ offset bytes => spanOk 262144 offset.val bytes.length
  | .hostWindowWrite _ bytes => decide (0 < bytes.length)
  | .hostWindowRead _ len => decide (0 < len)
  | .bankAccess _ _ who use beside =>
    decide (who :: beside.map BankCall.who).Nodup && use.op.wf use.ofs.val && beside.all fun c => c.op.wf c.ofs.val
  | .gddrAccess _ op _ _ crcFailures => op.wf && decide (crcFailures ≤ 4)
  | .dataFrameReceive _ _ _ _ _ credit payload _ => decide (credit < 512 ∧ 0 < payload.length)
  | .ctrlFrameReceive _ _ _ _ credit _ => decide (credit < 512)
  | .timeFrameReceive _ _ _ _ frame => decide (frame.credit < 512)
  | .thermalSample readings => readings.length == 20
  | .spdmChallenge _ nonce => nonce.length == 32
  | .spdmGetMeasurements _ signed nonce => nonce.length == (if signed then 32 else 0)
  | .managementMailboxPost _ _ command => decide (command.length ≤ 4096)
  | .globalControlWrite _ (.completionSlot _ _ bytes) => bytes.length == 64
  | _ => true

end Sys2Proof
end

