-- ==== Sys2Proof/Tests/Slice0.lean ====
section
/-! SUPPORT. Slice0.lean: small tests on fixed values, whose expected values come from the spec or from the standards it
names, and for every obligation with hypotheses a witness that they can hold together. -/

open Sys2Proof Sys2Proof.Machine
namespace Sys2Proof.Tests
set_option Elab.async false
set_option linter.unusedTactic false
set_option linter.unreachableTactic false
set_option linter.unusedVariables false

/-! ### Small states -/

/-- A block in operation: all sectors powered, the host linked, firmware running, nothing loaded. -/
def up : State := {
  ao := { time := 5000000000, porReleased := true, serving := true }
  boot := { devReady := true, fwVerified := true, calDone := true, phase := 7, next := 0 }
  pcie := { linkUp := true, busMaster := true }
  sectors := (upTo 8).map fun n => (n, { powered := true, up := true }) }
/-- `up` with sector 0 given. -/
def upSec (q : SectorSt) : State := { up with sectors := (0, q) :: up.sectors.tail }
/-- An event for a core. -/
def evTo (typ core row payload : Nat) : EvItem := { ev := mkEvent typ core row 0 payload false 1 0 false 0 0 }
/-- A running sector with an input port filled. -/
def sIn (p : Nat) (l : List Item) : State := upSec { powered := true, up := true, inp := [(p, { be := l })] }
/-- A running sector with a flit on link 1. -/
def sLink (x : LinkSt) : State := upSec { powered := true, up := true, links := [(1, x)] }
/-- A running sector whose synchronisation unit holds a request for object 2, whose TARGET is 100. -/
def sSync (t : Byte) (r : SyncReq) : State :=
  upSec { powered := true, up := true, toSync := [.sync 0 r], mem := [(0x24, 100), (0x2B, t)] }
/-- `up` with the security core given. -/
def upSc (q : SecSt) : State := { up with sec := q }
/-- The signed part of an authorisation of kind k for value v, with a nonce of zeros. -/
def authM (k v : Nat) : List Byte := toLe 1 1 ++ toLe 1 k ++ toLe 2 v ++ zeros 4 ++ sha512 Config.deviceIdKey ++ zeros 32
/-- A security core that has issued that nonce. -/
def authS (lc : Nat) : SecSt := { lc := lc, nonce := some (zeros 32) }

theorem shaBlocks_length (n : Nat) (h : List Word64) (m : List Byte) (hl : h.length = 8) : (shaBlocks n h m).length = 8 := by
  induction n generalizing h m with
  | zero => exact hl
  | succ n ih => exact ih _ _ (by simp only [shaBlock, List.length_map]; decide +kernel)

theorem flatMap_length (l : List Word64) : (l.flatMap fun w => toBe 8 w.toNat).length = 8 * l.length := by
  induction l with
  | nil => rfl
  | cons a l ih =>
    rw [List.flatMap_cons, List.length_append, ih, List.length_cons]
    simp [toBe, toLe]; omega

theorem sha512_length (m : List Byte) : (sha512 m).length = 64 := by
  simp only [sha512, flatMap_length]
  rw [shaBlocks_length _ _ _ (by decide +kernel)]

theorem authGood_of (lc k v : Nat) (hk : k = 1 ∨ k = 2)
    (h : (authS lc).authSigned (authM k v ++ zeros 64) = true) :
    (authS lc).authGood (authM k v ++ zeros 64) = true ∧ leAt (authM k v ++ zeros 64) 1 1 = k := by
  have e : leAt (authM k v ++ zeros 64) 1 1 = k := by
    rcases hk with rfl | rfl <;> simp [authM, leAt, leNat, toLe, zeros]
  refine ⟨?_, e⟩
  simp only [SecSt.authGood, h, e]
  have l := sha512_length Config.deviceIdKey
  simp [authM, leAt, leNat, toLe, zeros, authS, l, List.drop_append, hk]
/-- A journal entry of a command with fields (offset, size, value). -/
def entry (op net : Nat) (l : List (Nat × Nat × Nat)) : JEntry :=
  { seq := 1, cmd := l.foldl (fun b f => putBytes b f.1 (toLe f.2.1 f.2.2)) (putBytes (putBytes (zeros 192) 8 (toLe 2 op)) 16 (toLe 1 net)) }
/-- `up` with a command in front of mailbox 0. -/
def mbUp (e : JEntry) : State := { up with mbox := [(0, { next := 2, session := true, journal := [e] })] }
/-- A network that is loaded in slot 2, on cores 3 and 4. -/
def net2 : NetSt := { image := 1, cores := [3, 4], source := { kind := 1, ch := 0, period := 100000 } }
/-- A command for network 2. -/
def netUp (n : NetSt) (e : JEntry) : State := { mbUp e with nets := [(2, n)], images := [(1, { slots := [2] })] }
/-- The header and section table of a fabric image. -/
def fabH : List Byte :=
  toLe 4 0x49545A47 ++ toLe 2 1 ++ toLe 2 1 ++ toLe 8 131208 ++ toLe 4 1 ++ zeros 44 ++ toLe 2 0x20 ++ toLe 2 0xFFFF
    ++ toLe 4 131080 ++ toLe 8 128
/-- A fabric image whose route table is all zero. -/
def fabB : List Byte := fabH ++ zeros (48 + 131080)
/-- The image that it holds. -/
def fabG : Image :=
  { kind := 1, bytes := fabB, secs := [{ idx := 0, kind := 0x20, target := 0xFFFF, len := 131080, ofs := 128, body := zeros 131080 }] }

theorem fabB_length : fabB.length = 131208 := by
  have h : fabH.length = 80 := by decide +kernel
  simp only [fabB, List.length_append, h, zeros, List.length_replicate]

theorem fabB_leAt (o n : Nat) (h : o + n ≤ 80) : leAt fabB o n = leAt fabH o n := by
  have hl : fabH.length = 80 := by decide +kernel
  simp only [leAt, fabB]
  rw [List.drop_append_of_le_length (by omega), List.take_append_of_le_length (by rw [List.length_drop]; omega)]

theorem fabB_parses : parseImage fabB 131208 = .ok fabG := by
  have hl : fabH.length = 80 := by decide +kernel
  have e : (fabB.drop 64).take 16 = (fabH.drop 64).take 16 := by
    rw [fabB, List.drop_append_of_le_length (by omega), List.take_append_of_le_length (by rw [List.length_drop]; omega)]
  have d : (fabB.drop 128).take 131080 = zeros 131080 := by
    rw [fabB, List.drop_append, List.drop_of_length_le (by omega), hl]
    simp only [zeros, List.nil_append, List.drop_replicate, List.take_replicate]
    rfl
  have k : leAt ((fabH.drop 64).take 16) 0 2 = 32 := by decide +kernel
  have w : leAt ((fabH.drop 64).take 16) 2 2 = 65535 := by decide +kernel
  have n : leAt ((fabH.drop 64).take 16) 4 4 = 131080 := by decide +kernel
  have o : leAt ((fabH.drop 64).take 16) 8 8 = 128 := by decide +kernel
  have s : sectionsOf fabB 1 = fabG.secs := by
    have u : upTo 1 = [0] := by decide +kernel
    simp only [sectionsOf, fabG, u, List.map_cons, List.map_nil, Nat.mul_zero, Nat.add_zero, e, k, w, n, o, d]
  have h1 : leAt fabB 0x10 4 = 1 := by rw [fabB_leAt _ _ (by omega)]; decide +kernel
  have h2 : leAt fabB 0x06 2 = 1 := by rw [fabB_leAt _ _ (by omega)]; decide +kernel
  have h3 : leAt fabB 0 4 = 0x49545A47 := by rw [fabB_leAt _ _ (by omega)]; decide +kernel
  have h4 : leAt fabB 0x04 2 = 1 := by rw [fabB_leAt _ _ (by omega)]; decide +kernel
  have h5 : leAt fabB 0x08 8 = 131208 := by rw [fabB_leAt _ _ (by omega)]; decide +kernel
  have h6 : leAt fabB 0x18 16 = 0 := by rw [fabB_leAt _ _ (by omega)]; decide +kernel
  have c : sectionsChk 131208 1 1 [] fabG.secs = none := by decide +kernel
  have r : recordsOf fabG.secs = .ok [] := by rfl
  simp only [parseImage, h1, h2, h3, h4, h5, h6, s, fabB_length, c, r]
  simp [fabG]

theorem fabB_fits : fitBytes 131208 fabB = fabB := by
  rw [fitBytes, List.take_of_length_le (Nat.le_of_eq fabB_length), fabB_length]
  exact List.append_nil _

theorem leNat_zeros (j : Nat) : leNat (zeros j) = 0 := by
  induction j with
  | zero => rfl
  | succ j ih => exact congrArg (fun x => 0 + 256 * x) ih

theorem chunks_zero (k n : Nat) : ∀ e ∈ chunks k 2 (zeros n), e = 0 := by
  induction k generalizing n with
  | zero => simp [chunks]
  | succ k ih =>
    have e : chunks (k + 1) 2 (zeros n) =
        if (zeros n).isEmpty then [] else leNat (zeros (min 2 n)) :: chunks k 2 (zeros (n - 2)) := by
      simp only [chunks, zeros, List.take_replicate, List.drop_replicate]; rfl
    rw [e]
    split
    · simp
    · intro x hx
      rcases List.mem_cons.mp hx with h | h
      · rw [h]; exact leNat_zeros _
      · exact ih _ _ h

theorem fabG_chk : fabG.fabricChk = none := by
  have b : fabG.body 0x20 0xFFFF = zeros 131080 := rfl
  have z : ∀ e ∈ numbers 2 ((zeros 131080).drop 8), e = 0 := by
    rw [zeros, List.drop_replicate]; exact chunks_zero _ _
  have d : leAt (zeros 131080) 0 2 = 0 := by
    rw [leAt, zeros, List.drop_replicate, List.take_replicate]; rfl
  have f : (numbers 2 ((zeros 131080).drop 8)).findIdx? (fun e => !routeOk e) = none := by
    rw [List.findIdx?_eq_none_iff]
    intro e he; rw [z e he]; decide
  simp only [Image.fabricChk, b, d, f]; rfl

/-- The LOAD_IMAGE that names it. -/
def loadE : JEntry := entry 0x10 255 [(0x50, 8, 131208)]

theorem loadE_len : leAt loadE.cmd 0x50 8 = 131208 := by decide +kernel

theorem loadE_parses : parseImage fabB (leAt loadE.cmd 80 8) = .ok fabG := by rw [loadE_len]; exact fabB_parses

theorem loadE_source : (({ mbUp loadE with out := [] } : State).imageSource loadE.cmd fabB).2 = some fabB := by
  have h : leAt loadE.cmd 0x40 1 = 0 := by decide +kernel
  simp only [State.imageSource, h, loadE_len, fabB_fits, if_true]
/-- A GET_INFO command of sequence number n. -/
def getInfoB (n : Nat) : List Byte :=
  putBytes (putBytes (putBytes (putBytes (putBytes (zeros 72) 0 (toLe 8 n)) 8 (toLe 2 2)) 10 (toLe 2 9)) 16 [255]) 0x18 (toLe 2 0x1000)
/-- `up` with a command posted on mailbox 0. -/
def posted (c : List Byte) : State := { up with mbox := [(0, { slot := memWrite [] 0 c, postLen := 9, busy := true })] }
/-- `up` with core 3 given. -/
def upCore (k : CoreSt) : State := { up with cores := [(3, k)] }
/-- `up` with core 3 and sector 0 given. -/
def coreSec (k : CoreSt) (q : SectorSt) : State := { upSec q with cores := [(3, k)] }
/-- A core with two rows, row 1 enabled, that delivers events in step 6. -/
def coreK : CoreSt := { nRows := 2, rowW := [(8, 0x80000000)], phase := 1, step := 6 }
/-- An event of step 6 for a row of core 3. -/
def ev6 (typ row : Nat) : EvItem := { evTo typ 3 row 1 with tag := 2 }
/-- Core 3 in a loaded, running network of slot 2. -/
def coreNet (n : NetSt) (k : CoreSt) : State :=
  { up with nets := [(2, n)], cores := [(3, { k with net := 3, image := 1 })], images := [(1, { slots := [2] })] }
/-- An open queue whose rings stand at 0x30000. -/
def queueO : QueueSt := { cfg := 0x83001100, closed := false }
/-- A descriptor with its first word given. -/
def descW (op dst src : Nat) : Desc := { w0 := BitVec.ofNat 64 (op * 2 ^ 60 + dst * 2 ^ 48 + src * 2 ^ 34) }
/-- The state in which core 3 posts, and the descriptor it posts. -/
def sPost (h : Word32) (g : Option (Tab Nat)) : State := upCore { descSend := [(1, h)], gate := g }
/-- The descriptor that it posts. -/
def dPost (h : Word32) (g : Option (Tab Nat)) : Desc :=
  CoreSt.sendDesc { (sPost h g).core 3 with descSend := Tab.set ((sPost h g).core 3).descSend 0 7 0 } 3
/-- Core 3 about to fire step 6 with column 5 touched. -/
def kFire : CoreSt := { net := 3, image := 1, phase := 2, step := 6, fireOf := 6, touched := [(5, true)] }
/-- Core 3 about to post a MOVE within a range granted to its network. -/
def sMove : State := { coreSec { net := 3, descSend := [(1, 0x50000000), (2, 0x30000), (5, 8), (6, 0x30008)] }
    { powered := true, grants := [(2, 0x30000, 64, 0, 0)] } with nets := [(2, { image := 1, cores := [3] })] }
/-- A segment of 8 bytes from device 7 to flow 9. -/
def segM (mseq kind seg : Nat) (last : Bool) (mlen : Nat) (data : List Byte) : Seg :=
  let g : Seg := { dstDev := 5, srcDev := 7, dstFlow := 9, epoch := 1, mseq := mseq, kind := kind, vc := 1, hops := 63, seg := seg
                   last := last, mlen := mlen, crc := 0, data := data }
  { g with crc := g.e2e }
/-- An OPEN flow 9 with device 7. -/
def flowO : FlowSt := { fstate := flowOpen, peerDev := 7, peerFlow := 3, epoch := 1, nextSeq := 1, rtxQuota := 65536, stgQuota := 65536 }
/-- `up` with flow 9, and an UP port 4 towards device 7. -/
def upFlow (x : FlowSt) : State :=
  { up with flows := [(9, x)], ports := [(4, { state := portUp })], routes := [(7, 0xA000)], deviceId := 5 }
/-- The same with a segment received at port 0. -/
def rxFlow (x : FlowSt) (g : Seg) : State := { upFlow x with ports := [(0, { rxQ := [g.bytes] }), (4, { state := portUp })] }
/-- What `takeRx` finds. -/
def rxGet (s : State) (w : Seg → Bool) : Seg × State := (s.takeRx 0 w).getD (parseSeg [], s)
/-- Segments of messages. -/
def isSeg (g : Seg) : Bool := g.kind < 5 || 7 < g.kind
/-- An OPENING flow. -/
def flowOpg : FlowSt := { flowO with fstate := flowOpening, waiter := 1, hsDeadline := 1000 }
/-- `up` with a port given. -/
def upPort (o : PortSt) : State := { up with ports := [(0, o)], deviceId := 5, routes := [(7, 0xA000)] }
/-- The same with port 4 UP towards device 7. -/
def upPort4 (o : PortSt) : State := { upPort o with ports := [(0, o), (4, { state := portUp })] }
/-- A page set of core 3. -/
def pset : PageSet := { num := 1, core := 3, image := 1, home := 0x10000000, words := 32, pages := 2, sched := [(0, 1)] }
/-- GDDR6 with every controller trained. -/
def gUp : GddrSt := { usable := 8, state := (upTo 32).map fun i => (i, 1) }
/-- `up` with channel 5 given. -/
def upTmr (t : TimerSt) : State := { up with timers := [(5, t)] }
/-- `up` with the always-on domain changed. -/
def upAo (f : AoSt → AoSt) : State := { up with ao := f up.ao }
/-- A fault state in which trigger b is enabled. -/
def ensF (b : Nat) : FaultSt := { ensSet := true, ensNet := 2, ensEnabled := 2 ^ b, hbMs := 100 }
/-- `up` at bring-up phase p. -/
def upBoot (p : Nat) : State := { up with boot := { up.boot with next := p } }
/-- Readings of the 20 sensors, sensor 0 at t. -/
def therm (t : Int) : List Int := t :: List.replicate 19 200
/-- What `takeRing` leaves. -/
def ringGet (s : State) (w : Nat → Bool) : State := ((s.takeRing 0 w).map fun r => r.2.2.2.2).getD s
/-- `up` with an event of core 3, of network slot 2, at the ring port of sector 0 for ring function fn. -/
def ringUp (fn : Nat) (e : EvItem) : State :=
  { upSec { powered := true, toRing := [.ring fn 3 e 0x3F800000] } with cores := [(3, { net := 3 })], rfns := [(fn, { net := 3 })] }
/-- `up` with a stream context. -/
def upStc (c : StcSt) : State := { up with stcs := [(1, c)] }
/-- Context 1 bound to network 2, which runs, with a frame posted in slot 0. -/
def scan (kind len nelem : Nat) (win : Tab Byte) : State :=
  { up with stcs := [(1, { bound := true, skind := kind, net := 2, ifn := 4, posted := [(0, len, 0)], win := win })]
            nets := [(2, { image := 1, running := true })], rfns := [(4, { net := 3, nelem := nelem })] }
/-- A DISPATCH token of four elements for expert 9, window 1. -/
def tokD : Token := { kind := kindDispatch, n := 4, expert := 9, window := 1, seq := 1, tscale := 0x3F800000, codes := [1, 2, 3, 4] }
/-- Its bytes. -/
def tokDB : List Byte := tokD.bytes []
/-- A binding of expert 9, fed by flow 9, on network 2. -/
def bindO : BindSt := { valid := true, expert := 9, image := 1, n := 4, net := 2, cap := 4, flows := [9] }
/-- `up` with a token message in flow 9 and that binding. -/
def tokUp (b : List Byte) (x : BindSt) (n : NetSt) : State :=
  { up with flows := [(9, { fstate := flowOpen, peerDev := 7, tokQ := [{ mseq := 1, kind := 2, body := b }] })], binds := [(0, x)], nets := [(2, n)] }
/-- What `nextTok` leaves. -/
def tokGet (s : State) (k : Nat) : State := ((s.nextTok 9 k).map fun r => r.2.2).getD s
/-- A running network. -/
def runN : NetSt := { image := 1, running := true, step := 6 }
/-- A CLOSE token of window 1 for expert 9. -/
def tokCB : List Byte := ({ kind := kindClose, expert := 9, window := 1 } : Token).bytes []
/-- A RETURN token of slot 0 of window 1. -/
def tokRB : List Byte := ({ tokD with kind := kindReturn } : Token).bytes []
/-- An ERROR token. -/
def tokEB : List Byte := ({ tokD with kind := kindError } : Token).bytes []
/-- A SPIKE event for row 1 of core 3 with a delay. -/
def evDel (d : Nat) : Word64 := mkEvent 1 3 1 d 1 false 1 0 false 0 0
/-- A sector with a staged trace record, and a trace buffer for it. -/
def sTrace (ctl : Word32) (q : SectorSt) : State :=
  { upSec { q with powered := true, traceStage := [zeros 32] } with
    traceCtrl := ctl, gddr := gUp, regions := [{ kind := 5, image := 1, base := 0x10000000, size := 65536 }] }
/-- The columns that a firing core evaluates, and what the evaluation leaves. -/
def allOf (k : CoreSt) : List ColEval := (k.fireSet 6 false).map (k.evalCol 6)
/-- What the evaluation leaves. -/
def fireOf (k : CoreSt) : CoreSt × FireSum :=
  (allOf k).foldl (fireCol k 6 (allOf k) false false)
    ({ k with emitted := [], evaluated := [], postInc := [], deriv := [], seedCode := [] }, {})
/-- Core 3 about to fire, with a column that emits. -/
def kFireW : CoreSt := { kFire with colW := [(90, 0x4000), (92, 0x1000)], eq := List.replicate 2048 {} }
/-- The network of that core. -/
def netF : NetSt := { image := 1, cores := [3], running := true }
/-- Core k firing in it. -/
def sFire (k : CoreSt) : State := { up with nets := [(2, netF)], cores := [(3, k)] }
/-- A DEADLINE network with a tick held. -/
def nHeld : NetSt := { image := 1, cores := [3], running := true, tickHeld := true, dN := 4000000000, step := 5, source := { period := 100 } }
/-- A LOCKSTEP network in DELIVER. -/
def nLock : NetSt := { image := 1, cores := [3], running := true, lockstep := true, phase := 1 }
/-- A sequencer with one instruction word. -/
def qWord (w : Nat) : SeqSt := { imem := memWrite [] 0 (toLe 4 w), regs := [(5, 5), (6, 7)] }
/-- `addi t0, t1, 5`. -/
def qAddi : SeqSt := { imem := memWrite [] 0 (toLe 4 0x530293), regs := [(6, 9)] }
/-- A sequencer that takes interrupts. -/
def qIrq : SeqSt := { imem := [(0, 1)], mie := true, mieReg := 0x800, pc := 8 }
/-- A core with an item whose column goes to core 16. -/
def kEmit : CoreSt := { eq := [{ typ := 1, col := 5 }], colW := [(90, 0x4000)], routeW := [(0, 0x2000000)] }
/-- A core whose ring destination is function 9. -/
def kRing : CoreSt := { kEmit with routeW := [(0, 0x81200000)] }
/-- A sector whose core port is full. -/
def secFull : SectorSt := { powered := true, up := true, inp := [(7, { be := List.replicate 32 (.event (evTo 1 3 0 1)) })] }
/-- A core about to commit row 1 in LEARN of step 6. -/
def kLearn : CoreSt := { coreK with rowW := [(8, 0xA0000000)], learning := true, learnRows := [1], phase := 2, learnStep := 6 }
/-- The same with RULE 1 for the row, in its calendar. -/
def kWalk : CoreSt := { kLearn with rowW := [(8, 0xA0000000), (12, 0x1000)], rowCal := [(24577, true)] }
/-- Its marking while LEARN runs. -/
def marked (k : CoreSt) : CoreSt := { k with layer := k.learnMark / 65536, oper := k.learnMark % 65536 }
/-- What renormalisation leaves of row 1. -/
def halved (k : CoreSt) : CoreSt × WbCount := [0].foldl (CoreSt.halve 1) (marked k, {})
/-- What its rule leaves of it. -/
def ruled (k : CoreSt) : CoreSt × WbCount × Int :=
  [0].foldl (CoreSt.ruleSyn 1 6 ((marked k).rRule 1) (nfld (Tab.get k.ruleTab 0 (12 * ((marked k).rRule 1 - 1))).toNat 5 0)
    (nfld (Tab.get k.ruleTab 0 (12 * ((marked k).rRule 1 - 1))).toNat 13 8 + 1) 0 ((marked k).rowTouched 6 1)) ((halved k).1, (halved k).2, 0)
/-- A sector with a scheduled stream from core 3 to core 16. -/
def secSched : SectorSt := { powered := true, up := true, schedTab := [(0, 0x98200000)] }
/-- What port A of sector 0 answers. -/
def retA (t : State) : BitVec 128 × Bool := ((t.sector 0).bankData, (t.sector 0).bankPoison)
/-- What port B of sector 0 answers. -/
def retB (t : State) : BitVec 128 × Bool := ((t.sector 0).bankDataB, (t.sector 0).bankPoisonB)
/-- A sector with bytes 7 at 0x20010. -/
def sBank : State := upSec { powered := true, mem := [(0x20010, 7)] }
/-- A request of the descriptor engine to byte 16 of a bank. -/
def callE (op : BankOp) : BankCall := { who := .descEngine, ofs := 16, op := op, ecc := .clean }
/-- A pending notification of object 2 for queue 0 of core 0. -/
def sPend : State :=
  { upSec { powered := true, mem := [(0x2B, 0x50)] } with cores := [(0, { queues := [(0, { cfg := 0x80000000, closed := false })] })] }
/-- Core 3 that posts the descriptor of d0, with the credit e. -/
def kPost (h : Word32) (g : Option (Tab Nat)) : CoreSt := (sPost h g).core 3
/-- The descriptor it posts. -/
def dPosted (h : Word32) (g : Option (Tab Nat)) : Desc := { dPost h g with ser := 1 }
/-- The descriptor that sMove posts. -/
def dMove : Desc := CoreSt.sendDesc { sMove.core 3 with descSend := Tab.set (sMove.core 3).descSend 0 7 0 } 3
/-- Core 3 that posts a REQUEST, with a reply, to core 7 of its network. -/
def kReq : CoreSt := { net := 3, descSend := [(0, 0x20000000), (1, 0x10070000)], queues := [(0, queueO)] }
/-- The state of both. -/
def sReq : State :=
  { coreSec kReq { powered := true } with nets := [(2, { image := 1, cores := [3, 7] })], cores := [(3, kReq), (7, { net := 3 })] }
/-- Its descriptor. -/
def dReq : Desc := CoreSt.sendDesc { sReq.core 3 with descSend := Tab.set (sReq.core 3).descSend 0 7 0 } 3
/-- Core 3 with queue 2 given. -/
def sQ (x : QueueSt) : State := upCore { queues := [(2, x)] }
/-- The same with a poisoned block at 0x30000. -/
def sQp (x : QueueSt) : State := coreSec { queues := [(2, x)] } { powered := true, poison := [(0x6000, true)] }
/-- A queue with one request and one reply. -/
def queueE : QueueSt := { queueO with reqs := [{ slot := 0, seq := 0 }], rpls := [{ slot := 0, seq := 0 }], reqNext := 1, rplNext := 1 }
/-- The engine of sector 0 with a descriptor for queue 0 of core 3. -/
def sEng (x : QueueSt) (d : Desc) : State := coreSec { queues := [(0, x)] } { powered := true, toDesc := [.desc 3 d] }
/-- The status entry for a descriptor. -/
def stOf (d : Desc) (a b : Nat) : Item := .status d.src (statusWord a b d.tag 0) d.cls d.ser
/-- Core 3 that posts a SYNC, READ of object 2, which its network may name. -/
def sSyn : State := { coreSec { net := 3, descSend := [(1, 0x40000000), (2, 2), (3, 0x80000000), (4, 0x60000000)] }
    { powered := true, grants := [(2, 0, 0, 0, 4)] } with nets := [(2, { image := 1, cores := [3] })] }
/-- Its descriptor. -/
def dSyn : Desc := CoreSt.sendDesc { sSyn.core 3 with descSend := Tab.set (sSyn.core 3).descSend 0 7 0 } 3
/-- A flow with a message offered. -/
def flowQ (c : Nat) : FlowSt := { flowO with credit := c, srcQ := [{ kind := 1, body := zeros 16 }] }
/-- A flow with a message sent and not acknowledged. -/
def flowR : FlowSt := { flowO with rtx := [{ mseq := 1, sent := true }] }
/-- The state after the segment g of flow x has been taken from port 0, and the segment as it is read. -/
def rxAfter (x : FlowSt) (g : Seg) : State := (rxGet (rxFlow x g) isSeg).2
/-- The same for a segment of kind k. -/
def rxAfterK (k : Nat) (x : FlowSt) (g : Seg) : State := (rxGet (rxFlow x g) fun g => g.kind == k).2
/-- A segment as it is read. -/
def rxSeg (g : Seg) : Seg := parseSeg g.bytes
/-- An ACK of message 1 with gap-free arrival. -/
def ackB : List Byte := toLe 4 1 ++ toLe 4 1 ++ toLe 8 9
/-- OPEN and OPEN_ACK bodies: RESUME r, epoch e. -/
def openB (r e : Nat) : List Byte := toLe 4 r ++ toLe 4 e ++ zeros 8 ++ toLe 4 0 ++ toLe 4 9
/-- The words of a body. -/
def words (b : List Byte) (i : Nat) : Nat := leAt b (4 * i) 4
/-- A flow with message m staged. -/
def flowM (net : Nat) (m : Msg) : FlowSt := { flowO with net := net, stage := [m] }
/-- A message of events. -/
def msgE : Msg := { mseq := 1, kind := 1, body := toLe 8 (2 ^ 32) ++ toLe 8 (evTo 1 3 0 1).ev.toNat }
/-- A token message. -/
def msgT : Msg := { mseq := 1, kind := 2 }
/-- A SYNC_INC on object 5 of sector 0. -/
def msgS : Msg := { mseq := 1, kind := 3, body := toLe 8 0x500000028 }
/-- A BULK message. -/
def msgB : Msg := { mseq := 1, kind := 4, body := toLe 8 0x10000000 ++ zeros 8 ++ [1, 2, 3] }
/-- A loaded network in slot 2 with a flow. -/
def sMsg (run : Bool) (m : Msg) : State :=
  { upSec { powered := true, grants := [(2, 0, 0, 4, 4)] } with flows := [(9, flowM 2 m)], nets := [(2, { image := 1, cores := [3], running := run })], gddr := gUp }
/-- The same without the network. -/
def sNone (m : Msg) : State := { up with flows := [(9, flowM 2 m)] }
/-- Mailbox 0 with a command that waits for an event. -/
def parkMb : Tab MboxSt := [(0, { journal := [{ seq := 1, st := 1, cmd := zeros 96 }] })]
/-- A frame. -/
def frameZ : Frame := { vc := 1, payload := zeros 32 }
/-- An UP port with a frame to send, injection mode m due at the n-th frame. -/
def portTx (m n : Nat) : PortSt := { state := portUp, txQ := [frameZ], injMode := m, injN := n }
/-- What a frame from the peer acknowledges at port 0. -/
def ackedBy (o : PortSt) (lack : Byte) (lretry : Bool) (v : Fin 3) (n : Nat) (t : State) : Prop :=
  (t.port (0 : PortId).val).replay.map (fun f => (f.lseq, f.payload)) =
      (o.replay.dropWhile fun f => decide ((lack.toNat + 256 - f.lseq) % 256 < 64)).map (fun f => (f.lseq, f.payload)) ∧
    (lretry = true → (t.port (0 : PortId).val).resend = (t.port (0 : PortId).val).replay.length) ∧
    Tab.get (t.port (0 : PortId).val).credit 32768 v.val = min 32768 (Tab.get o.credit 32768 v.val + 64 * n)
/-- An UP port with a frame to be acknowledged. -/
def portRx : PortSt := { state := portUp, replay := [{ frameZ with lseq := 0 }, { frameZ with lseq := 1 }], rxSeq := 255 }
/-- A segment for this device, for device 7 and for device 9. -/
def segB (d h : Nat) : List Byte := Seg.bytes { segM 1 2 0 true 8 (zeros 8) with dstDev := d, hops := h }
/-- Ports other than port 0 of s keep all but their queues. -/
def queuesOf (s t : State) : Prop :=
  (∀ q, q ≠ (0 : PortId).val → t.port q = { s.port q with txQ := (t.port q).txQ }) ∧
    ((∀ q, q < 12 → (s.port q).txQ = []) → ∀ q, (t.port q).txQ = (s.port q).txQ)
/-- A block of GDDR6. -/
def sGd (g : GddrSt) : State := { up with gddr := { g with ecc := true, mem := [(0x10000000, 7)] } }
/-- A page set of two buffers that writes back. -/
def psetW : PageSet := { pset with writeBack := true }
/-- A port that fails to train a third time, and one that is reset. -/
def pFail : PortSt := { state := portRetrain, failTimes := [4999999999, 4999999998] }
/-- A port that is reset. -/
def pRst : PortSt := { state := portUp, enabled := true, replay := [{}], injMode := 3 }
/-- The offset and delay of a time exchange with times 1, 2, 3. -/
def rd8 : Int × Int := betterRound none (((2 : Int) - 1 - (5000000000 - 3)) / 2, ((5000000000 - 1) - (3 - 2)) / 2)
/-- The requests of channel 0 of controller 0. -/
def mine0 (s : State) (q : GddrReq) : Bool := s.gddr.controller q.addr * 2 + s.gddr.channel q.addr == 1
/-- A channel that retrains with a write that waits. -/
def gHold : GddrSt :=
  { gUp with chan := [(1, 1)], held := [{ addr := 0x10000000, op := .write 0xF0 (List.replicate 64 9), cls := .host, ecc := .clean }] }
/-- Core 3 with a page set. -/
def sPage (p : PageSet) (k : CoreSt) : State := { up with gddr := gUp, pageSets := [p], cores := [(3, k)] }
/-- A core whose buffer 0 holds page 0 of the set, with a dirty row. -/
def kDirty : CoreSt := { nRows := 2, rowW := [(8, 0x80000000)], pages := [(2, 1)], dirtyRows := [(1, true)] }
/-- `up` with GDDR6 trained and the BAR2 window at 7 × 256 MiB. -/
def sWin : State := { up with gddr := gUp, pcie := { linkUp := true, base := 7 } }
/-- Mailbox 0 with two commands done. -/
def mbDone : State :=
  { up with mbox := [(0, { next := 3, highDone := 2, consLow := 1, journal := [{ seq := 1, st := 2 }, { seq := 2, st := 2 }] })] }
/-- A timer channel that network 2 holds. -/
def sLocked : State := { up with nets := [(2, { image := 1, source := { kind := 1, ch := 15 } })] }
/-- A compute image of one LOCKSTEP network with one core that has no row. -/
def cImg : List Byte :=
  toLe 4 0x49545A47 ++ toLe 2 1 ++ toLe 2 0 ++ toLe 8 256 ++ toLe 4 2 ++ zeros 44 ++
    (toLe 2 1 ++ toLe 2 0 ++ toLe 4 64 ++ toLe 8 128) ++ (toLe 2 2 ++ toLe 2 3 ++ toLe 4 64 ++ toLe 8 192) ++ zeros 32 ++
    (toLe 1 1 ++ zeros 15 ++ toLe 16 8 ++ toLe 4 0xFFFFFFFF ++ zeros 28) ++
    (toLe 2 1 ++ zeros 2 ++ toLe 4 64 ++ zeros 36 ++ toLe 4 0xFFFFFFFF ++ zeros 16)
/-- The image that cImg holds. -/
def cImgG : Image := match parseImage cImg 256 with | .ok g => g | .error _ => {}
/-- The LOAD_IMAGE that names it. -/
def cLoadE : JEntry := entry 0x10 255 [(0x50, 8, 256)]
/-- A state into which it is loaded. -/
def sLoad : State := { mbUp cLoadE with gddr := gUp }
/-- An image in slot 2 that is unloaded. -/
def sUnload : State :=
  { netUp net2 (entry 0x11 255 [(0x40, 2, 1)]) with
    cores := [(3, { net := 3, image := 1 })], regions := [{ kind := 4, image := 1 }, { kind := 4, image := 2 }] }
/-- SET_STEP_SOURCE of network 2: a TIMER, an ENCODER, IMMEDIATE. -/
def srcE (kind : Nat) : JEntry := entry 0x22 2 [(0x40, 1, kind), (0x41, 1, 5), (0x44, 4, 50000)]
/-- Network 2 under LOCKSTEP. -/
def netL (run : Bool) : NetSt := { net2 with lockstep := true, running := run }
/-- ENTER_ENSIGN and LEAVE_ENSIGN. -/
def ensE (op : Nat) : JEntry := entry op 255 []
/-- An ensign network in slot 2, that runs or not, beside another network in slot 4. -/
def sEns (run other : Bool) (f : FaultSt) (op : Nat) : State :=
  { mbUp (ensE op) with fault := { f with ensSet := true, ensNet := 2 }, nets := [(2, { net2 with running := run, isEnsign := true })] ++ (if other then [(4, { image := 2 })] else []) }
/-- BIND_STREAM of context 7 to ingest function 0, and UNBIND_STREAM of it. -/
def bindE : JEntry := entry 0x20 2 [(0x40, 1, 7), (0x58, 4, 1)]
/-- The latter. -/
def unbindE : JEntry := entry 0x21 2 [(0x40, 1, 7)]
/-- Network 2, running or not, with an ingest function and a bound context or none. -/
def sBind (run : Bool) (x : StcSt) (e : JEntry) : State :=
  { netUp { net2 with running := run } e with rfns := [(0, { net := 3, image := 1, nelem := 1 })], stcs := [(7, x)] }
/-- Network 2 with core 3 given. -/
def sW (k : CoreSt) (e : JEntry) : State := { netUp net2 e with cores := [(3, { k with net := 3, image := 1 })] }
/-- READ_WEIGHTS of row 1 of core 3, of kind g. -/
def rdE (g : Nat) : JEntry := entry 0x31 2 [(0x40, 2, 3), (0x42, 2, 1), (0x44, 2, 1), (0x46, 1, g)]
/-- WRITE_WEIGHTS of a block without rows. -/
def wrE : JEntry := entry 0x30 2 [(0x40, 2, 3), (0x50, 4, 64)]
/-- That block. -/
def wrB : List Byte := putBytes (putBytes (zeros 64) 0 [1]) 4 [3]
/-- CHECKPOINT to region 1, and RESTORE of a checkpoint of length 0. -/
def ckE : JEntry := entry 0x33 2 [(0x40, 2, 1)]
/-- The latter. -/
def rsE : JEntry := entry 0x34 2 [(0x40, 8, 0x10000000)]
/-- The region. -/
def ckR : Region := { kind := 4, image := 1, num := 1, base := 0x10000000, size := 64 }
/-- OPEN_FLOW of flow 9 to flow 3 of device 7, with RESUME r. -/
def openE (r : Nat) : JEntry :=
  entry 0x40 2 [(0x40, 4, 9), (0x44, 2, 7), (0x46, 2, 3), (0x48, 1, r), (0x50, 4, 1), (0x54, 4, 1), (0x58, 4, 100)]
/-- A commit record of flow 9. -/
def commit9 : Commit := { peerDev := 7, peerFlow := 3, epoch := 4, valid := true, next := 8, acked := 6, wm := 2, head := 0, tail := 0 }
/-- Network 2 with room for quotas, and that record. -/
def sOpen (r : Nat) : State :=
  { netUp net2 (openE r) with gddr := { rtxSize := 1048576, stgSize := 1048576, mem := memWrite [] (commitBase + 32 * 9) commit9.bytes } }
/-- CLOSE_FLOW of flow 9, forced or not, with the flow given. -/
def closeE (force : Nat) : JEntry := entry 0x41 255 [(0x40, 4, 9), (0x44, 1, force)]
/-- The state. -/
def sClose (force : Nat) (x : FlowSt) : State := { mbUp (closeE force) with flows := [(9, x)] }
/-- SET_POWER_STATE p. -/
def pwrE (p : Nat) : JEntry := entry 0x50 255 [(0x40, 1, p)]
/-- RUN_SELFTEST of kind k, sector n, core p. -/
def stE (k n p : Nat) : JEntry := entry 0x60 255 [(0x40, 1, k), (0x41, 1, n), (0x42, 2, p), (0x44, 4, 60)]
/-- The debug commands on network 2 and core c. -/
def dbE (op c : Nat) : JEntry := entry op 2 [(0x40, 2, c)]
/-- DEBUG_READ and DEBUG_WRITE of n bytes at a of space p, unit u. -/
def dbRW (op p u n a : Nat) : JEntry := entry op 255 [(0x40, 1, p), (0x42, 2, u), (0x44, 4, n), (0x48, 8, a)]
/-- The elements of a function of two elements, for rows 1 and 0 of core 3. -/
def map2 : ElemMap := { elems := [[(3, 1)], [(3, 0)]] }
/-- `scan` with that map, under DELTA or not. -/
def scanM (kind len nelem : Nat) (delta : Bool) (win : Tab Byte) : State :=
  { scan kind len nelem win with rfns := [(4, { net := 3, nelem := nelem, map := map2, delta := delta })] }
/-- A sample frame, an address frame and a token frame. -/
def scanS (delta : Bool) : State := scanM 0 2 2 delta [(0, 200), (1, 128)]
/-- The codes of the first. -/
def codeS (i : Nat) : Int := (byteAt [200, 128] i : Int) - 128
/-- What is left of them by the zero point and the references. -/
def diffS (d : Bool) (i : Nat) : Int := codeS i - sampleZp 0 - Tab.get ((scanS d).stc 1).refs 0 i
/-- The differences, narrowed. -/
def narS (d : Bool) (i : Nat) : Int := clampI (-32767) 32767 (diffS d i)
/-- The differences above the threshold. -/
def bigS (d : Bool) (i : Nat) : Bool := decide (((scanS d).stc 1).thresh < (diffS d i).natAbs)
/-- The address frame: elements 1 and 2 × 7. -/
def scanA : State := scanM 1 16 2 false [(1, 0x80), (10, 7)]
/-- Its bytes. -/
def frameA : List Byte := [0, 0x80, 0, 0, 0, 0, 0, 0, 0, 0, 7, 0, 0, 0, 0, 0]
/-- The token frame. -/
def scanT : State := scanM 2 24 4 false (memWrite [] 0 tokDB)
/-- Its bytes. -/
def frameT : List Byte := (scanT.stc 1).frame.2
/-- `up` with an event e of core 3 for result function 0x151, whose context is c. -/
def resUp (e : EvItem) (c : StcSt) : State := { ringUp 0x151 e with stcs := [(1, c)] }
/-- What `takeRing` leaves of it. -/
def resGet (e : EvItem) (c : StcSt) : State := ringGet (resUp e c) isResultFn
/-- A bound context with a result ring. -/
def stcR (prod : Nat) : StcSt := { bound := true, net := 2, resLog2 := 4, resAddr := 4096, prod := prod }
/-- Sender 0 with a vector, to a flow that has room or not. -/
def sFlow (full : Bool) (vec : List (Nat × Int × Bool)) : State :=
  { up with rfns := [(0x170, { net := 3, flow := 9, vec := vec, map := map2 })]
            flows := [(9, { fstate := flowOpen, srcQ := if full then [{ kind := 1 }] else [] })] }
/-- Functions of packers, routers and combiners. -/
def isTokFn (f : Nat) : Bool := 0x100 ≤ f && f < 0x140
/-- What `takeRing` leaves of an event e for function fn. -/
def tokRing (fn : Nat) (e : EvItem) : State := ringGet (ringUp fn e) isTokFn
/-- A dispatch packer of two elements with a winner at position 0, whose expert 9 is on flow 9, and a second flow. -/
def packO : PackSt :=
  { valid := true, net := 2, n := 2, positions := 2, seq := 1, dir := [(0, (9, [9])), (1, (8, [8]))]
    sums := [(8192, 5), (8193, 7)], winners := [(2, 0, 64)] }
/-- A network in a forward or a backward step. -/
def netB (back : Bool) : NetSt := if back then { runN with fwd := 1, pos := 1 } else runN
/-- It in network 2, forward or backward, with a combiner. -/
def sPack (k : PackSt) (back : Bool) : State :=
  { up with dpack := [(0, k)], nets := [(2, netB back)], combs := [(1, { valid := true, net := 2, packer := 0 })] }
/-- Flows that it uses. -/
def dstP (k : PackSt) (i : Nat) : Option Nat :=
  (Tab.get k.dir (0, []) ((k.slotsOf 2).1.getD i (0, 0)).1).2[k.seq % max 1 (Tab.get k.dir (0, []) ((k.slotsOf 2).1.getD i (0, 0)).1).2.length]?
/-- Its CLOSE tokens. -/
def closeP (x : Nat) : List Byte :=
  ({ kind := kindClose, window := 6, expert := ((packO.flowsUsed.find? fun g => g.1 == x).map Prod.snd).getD 0 } : Token).bytes []
/-- An expansion event for core 3. -/
def expO (c : Nat) : Expansion := { fn := 0x140, net := 2, item := { evTo 2 c 1 5 with token := true } }
/-- `up` with that event. -/
def sExp (k : CoreSt) : State := { up with expand := [expO 3], cores := [(3, k)], nets := [(2, runN)] }
/-- A token message. -/
def msgB9 (b : List Byte) : Msg := { mseq := 1, kind := 2, body := b }
/-- What is left of a token message of kind k. -/
def tokAft (b : List Byte) (x : BindSt) (n : NetSt) (k : Nat) : State := tokGet (tokUp b x n) k
/-- `up` with such a message, and window w to be decided next. -/
def tokW (b : List Byte) (x : BindSt) (w : Option Nat) : State := { tokUp b x runN with nets := [(2, { runN with phase := 2 })], tok := { window := w } }
/-- A binding with a token of window 1 held. -/
def bindH (fl : List Nat) : BindSt := { bindO with flows := fl, held := [{ tokD with src := 7, flow := 9, mseq := 0 }] }
/-- Two bindings, window 1. -/
def sTime (fl : List Nat) : State :=
  { up with binds := [(0, bindO), (1, { bindO with expert := 8, flows := fl })], tok := { window := some 1 }
            flows := [(10, { fstate := flowOpen })] }
/-- A binding with a token in its layer. -/
def bindL (back : Bool) : BindSt :=
  if back then { bindO with errIn := [(4, { tokD with flow := 9, mseq := 1 })] } else { bindO with inLayer := [(4, { tokD with flow := 9, mseq := 1 })] }
/-- It with its return packer. -/
def sRet (back : Bool) : State :=
  { up with rpack := [(1, { valid := true, n := 2 })], binds := [(0, bindL back)], nets := [(2, netB back)]
            flows := [(9, { fstate := flowOpen, cacheSize := 4 })] }
/-- A token of dispatch packer 0, refused for code 3. -/
def nakR : Nak := { code := 3, msg := { mseq := 1, kind := 2, sub := 1, body := tokDB } }
/-- A combiner with a window whose slot waits. -/
def combO (st : Nat) : CombSt := { valid := true, net := 2, wins := [{ window := 1, seq := 1, slots := [{ flow := 9, st := st }] }] }
/-- `up` with it. -/
def sComb (st : Nat) (n : NetSt) : State := { up with nets := [(2, n)], combs := [(1, combO st)] }
/-- `up` with an ERROR token for a dispatch packer. -/
def sErrD (n : NetSt) (m : ElemMap) : State :=
  { tokUp tokEB {} n with binds := [], dpack := [(0, { valid := true, net := 2, n := 4, dir := [(0, (9, [9]))], errMap := m })] }
/-- Channel 5 with a count of 8 to 9, and one that wraps. -/
def sCount (c : Nat) : State := upTmr { on := true, count := c, limit := 9 }
/-- Channel 5 at pin 7, which captures its rising edges, and one with a match due. -/
def tCapt : TimerSt := { ctrl := 0xE000, snapcfg := 0x8000, count := 77 }
/-- The latter. -/
def tMatch : TimerSt := { snapcfg := 0x1800, due0 := true, count := 7, snap0 := 7 }
/-- Functions of line outputs. -/
def isLoutFn (f : Nat) : Bool := 0x140 ≤ f && f < 0x150
/-- `up` with event e for line output p and pin p as l. -/
def sLout (p : Nat) (e : EvItem) (l : LoutSt) : State := { ringUp (0x140 + p) e with louts := [(p, l)] }
/-- What `takeRing` leaves of it. -/
def loutGet (p : Nat) (e : EvItem) (l : LoutSt) : State := ringGet (sLout p e l) isLoutFn
/-- The ensign network ready with a trigger b that holds, in power state p, an owner serving or not. -/
def sTrig (b p : Nat) (own : Bool) : State :=
  { upAo (fun a => { a with emergency := true, persist := true, pstate := p, serving := own, ensCopy := 9 }) with
    fault := ensF b, nets := [(2, runN)] }
/-- A supply warning that stands. -/
def sWarn : State := upAo fun a => { a with pwrWarn := true }
/-- The trimmed or untrimmed `up`. -/
def sCal (c : Bool) : State := { up with boot := { up.boot with calDone := c } }
/-- What sensors of sensor 0 at t leave. -/
def tempsOf (t : Int) : Tab Int := (upTo 20).foldl (fun x i => Tab.set x 0 i ((therm t).getD i 0)) []
/-- A wake to P0 with ready bits r. -/
def sWake (w r : Nat) : State :=
  { upAo (fun a => { a with pstate := 2, waking := w, ready := r, regLp := true }) with ports := [(4, { enabled := true })] }
/-- Ports of the state that a wake trains. -/
def trainedIn (s t : State) : Prop :=
  ∀ p, p < 12 → t.port p = if (s.port p).enabled && (s.port p).state == portDown then
    { s.port p with state := portTraining, trainDue := false } else s.port p
/-- `up` at phase 2, in lifecycle lc. -/
def sPh2 (lc : Nat) : State := { upBoot 2 with sec := { lc := lc } }
/-- Slot 0 verifies there. -/
def ok2 (k : Nat) : Bool := (sPh2 2).sec.slotOk (sPh2 2).sec.svnMin ((sPh2 2).sec.slotBoard k) ((sPh2 2).sec.slot k) (nbit 1 ((sPh2 2).sec.slotBoard k))
/-- A compute-partition reset at step n with command that waits. -/
def sCr (n : Nat) (w : List Nat) : State := { up with boot := { up.boot with crStep := n, crWaiters := w }, mbox := parkMb }
/-- The command that waits in `parkMb`. -/
def parkE : JEntry := { seq := 1, st := 1, cmd := zeros 96 }
/-- Sector 0 with a valid spare 16, whose test is due. -/
def sRot (k : CoreSt) : State :=
  { upSec { powered := true, up := true, spareValid := true, spareIndex := 16, lastTest := (16, 9) :: (upTo 15).map fun i => (i + 1, 7) } with
    cores := [(0, k)], nets := [(2, { image := 1, running := true, cores := [0], cN := 5000000010, source := { period := 100 } })] }
/-- The same, where core 16 is tested. -/
def sRot16 : State := upSec { powered := true, up := true, spareValid := true, spareIndex := 16, lastTest := (upTo 16).map fun i => (i, 5) }
/-- Core 4 that migrates to 16 with an event held. -/
def sMig : State := upSec { powered := true, up := true, mapState := [(4, 1)], mig := some { core := 4, dest := 16 }, spareValid := false, migBuf := [evTo 1 4 0 1], mem := [(0x20000, 5)] }
/-- A core under test. -/
def sTest (slice el : Nat) : State :=
  upSec { powered := true, up := true, test := some { phys := 16, slice := slice }, spareValid := false, spareElem := el }
/-- A bank under test. -/
def sBankT (b el : Nat) (f : Bool) : State := upSec { powered := true, up := true, bankTest := b, bankFail := f, spareElem := el }
/-- An owner with a standby and a stamp. -/
def sOwn (sb : Bool) (h : Nat) : State := upAo fun a => { a with standbyUp := sb, hbStamp := h }
/-- A slot A whose check passes on the board, and one that fails. -/
def sUpd (a : List Byte) : State := upSc { updating := true, slotA := a, slotB := [2] }
/-- A state in which the SVN is committed. -/
def sSvn : State := { upSc { lc := 1, svnRun := 0 } with boot := { up.boot with fwSlot := 0 } }
/-- A standing debug authorisation that permits fault injection and JTAG. -/
def sAuth : State := { upSc { auth := true, perms := 6, jtagOpen := true } with ports := [(3, { injMode := 2 })] }

/-! ### Well-formed commands: one ill-formed command for each check -/

theorem test_wf_slotPastWindow : (Instr.commandSlotWrite 0 4095 [1, 2]).wf = false := by decide
theorem test_wf_emptyBytes : (Instr.commandSlotWrite 0 0 []).wf = false ∧ (Instr.hostWindowWrite 0 []).wf = false := by decide
theorem test_wf_registerSize : (Instr.registerWrite 0 2 0).wf = false := by decide
theorem test_wf_registerAlign : (Instr.registerWrite 4 8 0).wf = false := by decide
theorem test_wf_registerPastBar : (Instr.registerWrite 0x1000000 4 0).wf = false := by decide
theorem test_wf_counterLowHalf : (Instr.counterSlotLowRead 4).wf = false := by decide
theorem test_wf_streamPastWindow : (Instr.streamWindowWrite 0 262143 [1, 2]).wf = false := by decide
theorem test_wf_emptyRead : (Instr.hostWindowRead 0 0).wf = false := by decide
theorem test_wf_bankTwice : (Instr.bankAccess 0 1 .descEngine (callE (.read 4)).toBankUse [callE (.read 8)]).wf = false := by decide
theorem test_wf_bankWidth : (Instr.bankAccess 0 1 .descEngine (callE (.read 3)).toBankUse []).wf = false := by decide
theorem test_wf_bankAlign : (Instr.bankAccess 0 1 .descEngine { callE (.write 8 0) with ofs := 4 } []).wf = false := by decide
theorem test_wf_atomicAlign : (Instr.bankAccess 0 1 .descEngine { callE (.atomic 1 0) with ofs := 4 } []).wf = false := by decide
theorem test_wf_gddrBlock : (Instr.gddrAccess 0 (.write 0 []) .host .clean 0).wf = false := by decide
theorem test_wf_gddrFailures : (Instr.gddrAccess 0 .read .host .clean 5).wf = false := by decide
theorem test_wf_frameCredit : (Instr.ctrlFrameReceive 0 0 false 0 512 .good).wf = false := by decide
theorem test_wf_timeCredit : (Instr.timeFrameReceive 0 0 0 0 ⟨true, 0, false, 0, 512, .good⟩).wf = false := by decide
theorem test_wf_framePayload : (Instr.dataFrameReceive 0 0 0 false 0 0 [] .good).wf = false := by decide
theorem test_wf_sensors : (Instr.thermalSample [1]).wf = false := by decide
theorem test_wf_nonce : (Instr.spdmChallenge 0 []).wf = false ∧ (Instr.spdmGetMeasurements 1 true []).wf = false := by decide
theorem test_wf_completionSlot : (Instr.globalControlWrite false (.completionSlot 0 0 [])).wf = false := by decide
theorem test_wf_mmLength : (Instr.managementMailboxPost false 0 (zeros 4097)).wf = false := by decide +kernel
theorem test_wf_good : (Instr.bankAccess 0 1 .descEngine (callE (.atomic 1 0)).toBankUse []).wf = true ∧ (Instr.registerWrite 8 8 0).wf = true := by
  decide

/-! ### Worked values of the spec, and standard check values -/

/-- The first two draws from seed 1 (06, the three-factor update worked through). -/
theorem test_firstDraws : rngDraw (rngNext (rngSeed 1)) = 0x2041 ∧ rngDraw (rngNext (rngNext (rngSeed 1))) = 0x1441 := by
  decide +kernel
/-- Row 300 and column 41 of the same example: decay, increment, rounding by the draw. -/
theorem test_tracesOfTheExample : traceDecay 0xC000 2 = 36864 ∧ traceDecay 0x8000 3 = 8192 ∧
    (traceRound (40 * 36864 + 32 * 65536) 0x2041).1 = 55 ∧ (traceRound (10 * 8192 + 64 * 65536) 0x1441).1 = 66 := by
  decide +kernel
/-- The rule of the same example, run on r0 = 5000, the two traces and m = -1500: the weight becomes 3671. -/
theorem test_ruleOfTheExample :
    (({ rules := [(0, 0x18490010), (1, 0x18920010), (2, 0x11CA0000), (3, 0x11FB000C), (4, 0x04070000)] } : CoreSt).ruleRun 1 6 0
      { r := [(0, 5000), (1, 55 * 65536), (2, 66 * 65536), (3, -1500)], p := false, dacc := 0, sat := 0 }).reg 0 = 3671 := by
  decide +kernel
/-- The check values of CRC-32 and CRC-32C over "123456789". -/
theorem test_crcCheckValues : crc32 [0x31, 0x32, 0x33, 0x34, 0x35, 0x36, 0x37, 0x38, 0x39] = 0xCBF43926 ∧
    crc32c [0x31, 0x32, 0x33, 0x34, 0x35, 0x36, 0x37, 0x38, 0x39] = 0xE3069283 := by
  decide +kernel
/-- SHA-512 of "abc" (FIPS 180-4) begins DDAF35A1 93617ABA. -/
theorem test_sha512Abc : (sha512 [0x61, 0x62, 0x63]).take 8 = [0xDD, 0xAF, 0x35, 0xA1, 0x93, 0x61, 0x7A, 0xBA] := by
  decide +kernel
/-- binary32: 1 + 2^-24 rounds to even, 1/3, and the square root of 2 (IEEE 754). -/
theorem test_f32 : f32Add 0x3F800000 0x33800000 = 0x3F800000 ∧ f32Div 0x3F800000 0x40400000 = 0x3EAAAAAB ∧
    f32Sqrt 0x40000000 = 0x3FB504F3 := by
  decide +kernel

/-! ### Commands on small states -/

theorem test_noWordSpellsACommand : decodeTableWord 32 0x13 = none := by decide
theorem test_idleStep : step State.reset = .next State.reset.idle := rfl
theorem test_stepTakesTheFront :
    (match step { up with pending := [.alignmentPulse, .alignmentPulse] } with | .next t => t.pending | _ => []) = [.alignmentPulse] := by
  decide +kernel
/-- ADD32 wraps: 7 + 0xFFFFFFFF is 6, and the neighbouring word stays. -/
theorem test_atomicWraps :
    (match exec (.bankAccess 0 1 .descEngine (callE (.atomic 0 0xFFFFFFFF)).toBankUse [])
        (upSec { powered := true, mem := [(0x20010, 7), (0x20014, 9)] }) with
      | .next t => (t.sector 0).mem | _ => []) = [(0x20010, 6), (0x20014, 9)] := by
  decide +kernel
/-- `addi t0, t1, 5` as RV32I encodes it: 0x00530293. -/
theorem test_addi :
    (match exec (.sequencerInstruction 3 .execute)
        (upCore { seq := { imem := [(0, 0x93), (1, 0x02), (2, 0x53)], regs := [(6, 9)] } }) with
      | .next t => (Tab.get (t.core 3).seq.regs 0 5, (t.core 3).seq.pc) | _ => (0, 0)) = (14, 4) := by
  decide +kernel
/-- HELLO completes DONE, 0x02, at record offset 0x0A (13 R332, R335). -/
theorem test_hello :
    (match exec (.hello 0) (mbUp (entry 1 255 [(0x41, 1, 1)])) with
      | .next t => (t.mb 0).journal.map fun (x : JEntry) => (x.st, leAt x.record 0x0A 1) | _ => []) = [(2, 2)] := by
  decide +kernel
/-- An event with type code 9 is consumed and counted. -/
theorem test_ignoredEvent :
    (match exec (.eventPop 3) (upCore { coreK with rq := [ev6 9 1] }) with
      | .next t => (t.ctrAt Scope.core 3 Ctr.typeIgnored noSub 0, (t.core 3).rq.length) | _ => (0, 9)) = (1, 0) := by
  decide +kernel

/-! ### Witnesses: the hypotheses of each obligation, clause by clause, at a concrete state -/

theorem witness_StepRunsTheFrontCommand :
    ∃ (s : State) (c : Instr) (rest : List Instr), s.pending = c :: rest :=
  ⟨{ up with pending := [.alignmentPulse] }, .alignmentPulse, [], rfl⟩

theorem witness_StepIdlesAndNeverStops : ∃ s : State, s.pending = [] := ⟨up, rfl⟩

theorem witness_XorshiftDraw :
    ∃ x a b : Word64, (∀ i, i < 64 → a.getLsbD i = (x.getLsbD i ^^ (decide (13 ≤ i) && x.getLsbD (i - 13)))) ∧
      (∀ i, i < 64 → b.getLsbD i = (a.getLsbD i ^^ (decide (i + 7 < 64) && a.getLsbD (i + 7)))) :=
  ⟨1, 0x2001, 0x2041, by decide +kernel, by decide +kernel⟩

theorem witness_RecordLayouts :
    (∃ (e : JEntry) (r : List Byte), r = recordBytes e 0 0 0 1 0 5 []) ∧
    (∃ (s : State) (m : MboxId) (e x : JEntry), x ∈ (s.mb m.val).journal ∧ x.seq = e.seq) ∧
    (∃ s : State, s.traceOn = true ∧ nbit s.traceCtrl.toNat 29 = true ∧ (s.sector 0).traceStage.length < 8192) :=
  ⟨⟨entry 1 255 [], _, rfl⟩, ⟨mbUp (entry 1 255 []), 0, entry 1 255 [], entry 1 255 [], List.mem_cons_self, rfl⟩,
   ⟨{ up with traceCtrl := 0xA0000000 }, by decide +kernel⟩⟩

theorem witness_FusesNeverGoBack :
  (∃ (v : ℕ) (l : ℕ) (e : Bool) (d : Bool) (s : State) (t : State), State.FuseInv v l e d s ∧ step s = Host.Outcome.next t) :=
  ⟨0, 0, false, false, State.reset, State.reset.idle, ⟨by decide, by decide, by decide, by decide, by decide, by decide,
    by decide⟩, rfl⟩

theorem witness_IgnoredEventsAreConsumed :
  (∃ (c : CoreId) (s : State) (e : EvItem) (rest : List EvItem) (id : ℕ), s.canPop c.val = true ∧ (s.core c.val).rq = e :: rest ∧
    e.tag = (s.core c.val).step % 4 ∧ (s.core c.val).delay.get [] ((s.core c.val).step % 64) = [] ∧ evFmt e.ev = 0 ∧
    evPfmt e.ev < 2 ∧ ((evType e.ev = 0 ∨ 6 < evType e.ev) ∧ id = Ctr.typeIgnored ∨ (evType e.ev = 1 ∨ evType e.ev = 2 ∨
    evType e.ev = 3) ∧ (s.netOf c.val).backward = false ∧ ((s.core c.val).nRows ≤ evRow e.ev ∨
    (s.core c.val).rEnable (evRow e.ev) = false) ∧ id = Ctr.rowDisabled)) ∧
  (∃ (c : CoreId) (s : State) (e : EvItem) (rest : List EvItem) (id : ℕ), s.canPop c.val = true ∧ (s.core c.val).rq = e :: rest ∧
    e.tag = (s.core c.val).step % 4 ∧ (s.core c.val).delay.get [] ((s.core c.val).step % 64) = [] ∧ evFmt e.ev = 0 ∧
    evPfmt e.ev < 2 ∧ ((evType e.ev = 0 ∨ 6 < evType e.ev) ∧ id = Ctr.typeIgnored ∨ (evType e.ev = 1 ∨ evType e.ev = 2 ∨
    evType e.ev = 3) ∧ (s.netOf c.val).backward = false ∧ ((s.core c.val).nRows ≤ evRow e.ev ∨
    (s.core c.val).rEnable (evRow e.ev) = false) ∧ id = Ctr.rowDisabled)) ∧
  (∃ (c : CoreId) (s : State) (e : EvItem) (rest : List EvItem) (id : ℕ), s.canPop c.val = true ∧ (s.core c.val).rq = e :: rest ∧
    e.tag = (s.core c.val).step % 4 ∧ (s.core c.val).delay.get [] ((s.core c.val).step % 64) = [] ∧ evFmt e.ev = 0 ∧
    evPfmt e.ev < 2 ∧ ((evType e.ev = 0 ∨ 6 < evType e.ev) ∧ id = Ctr.typeIgnored ∨ (evType e.ev = 1 ∨ evType e.ev = 2 ∨
    evType e.ev = 3) ∧ (s.netOf c.val).backward = false ∧ ((s.core c.val).nRows ≤ evRow e.ev ∨
    (s.core c.val).rEnable (evRow e.ev) = false) ∧ id = Ctr.rowDisabled)) :=
  ⟨⟨3, (upCore { coreK with rq := [ev6 9 1] }), (ev6 9 1), [], Ctr.typeIgnored, by decide +kernel⟩,
   ⟨3, (upCore { coreK with rq := [ev6 1 0] }), (ev6 1 0), [], Ctr.rowDisabled, by decide +kernel⟩,
   ⟨3, (upCore { coreK with rq := [ev6 2 2, ev6 1 1] }), (ev6 2 2), [ev6 1 1], Ctr.rowDisabled, by decide +kernel⟩⟩

theorem witness_EventsReachTheCore :
  (∃ (n : SectorId) (s : State) (e : EvItem) (rest : List Item) (c : ℕ), c = evCore e.ev ∧
    (s.sector n.val).toCore = Item.event e :: rest ∧ s.sectorRuns n.val = true ∧ (s.sector n.val).mstate (indexOf c) = 0 ∧
    (s.netOf c).shed = false ∧ ((s.core c).net = 0 ∨ (e.tag + 4 - s.cutStep c % 4) % 4 < 2) ∧ (e.token = true ∨
    plainEvents (s.core c).rq + (s.core c).credit < 4096)) ∧
  (∃ (n : SectorId) (s : State) (e : EvItem) (rest : List Item) (c : ℕ), c = evCore e.ev ∧
    (s.sector n.val).toCore = Item.event e :: rest ∧ s.sectorRuns n.val = true ∧ (s.sector n.val).mstate (indexOf c) = 0 ∧
    (s.netOf c).shed = false ∧ ((s.core c).net = 0 ∨ (e.tag + 4 - s.cutStep c % 4) % 4 < 2) ∧ e.token = false ∧
    4096 ≤ plainEvents (s.core c).rq + (s.core c).credit) ∧
  (∃ (n : SectorId) (s : State) (e : EvItem) (rest : List Item) (c : ℕ), c = evCore e.ev ∧
    (s.sector n.val).toCore = Item.event e :: rest ∧ s.sectorRuns n.val = true ∧ (s.sector n.val).mstate (indexOf c) = 0 ∧
    (s.netOf c).shed = false ∧ (s.core c).net ≠ 0 ∧ 2 ≤ (e.tag + 4 - s.cutStep c % 4) % 4 ∧ e.token = false) ∧
  (∃ (c : CoreId) (s : State) (e : EvItem) (k : CoreSt) (i : ℕ) (rest : List EvItem), k = s.core c.val ∧ i = evRow e.ev ∧
    s.canPop c.val = true ∧ (s.netOf c.val).backward = false ∧ evFmt e.ev = 0 ∧ evPfmt e.ev < 2 ∧ (evType e.ev = 1 ∨
    evType e.ev = 2) ∧ i < k.nRows ∧ k.rEnable i = true ∧ evOutlier e.ev = k.rOutlier i ∧ (k.rDlEn i && k.rPending i) = false ∧
    k.rq = e :: rest ∧ e.tag = k.step % 4 ∧ k.delay.get [] (k.step % 64) = []) ∧
  (∃ (c : CoreId) (s : State) (e : EvItem) (k : CoreSt) (i : ℕ) (rest : List EvItem), k = s.core c.val ∧ i = evRow e.ev ∧
    s.canPop c.val = true ∧ (s.netOf c.val).backward = false ∧ evFmt e.ev = 0 ∧ evPfmt e.ev < 2 ∧ (evType e.ev = 1 ∨
    evType e.ev = 2) ∧ i < k.nRows ∧ k.rEnable i = true ∧ evOutlier e.ev = k.rOutlier i ∧ (k.rDlEn i && k.rPending i) = false ∧
    k.rq = e :: rest ∧ e.tag = k.step % 4 ∧ k.delay.get [] (k.step % 64) = []) ∧
  (∃ (c : CoreId) (s : State) (e : EvItem) (k : CoreSt) (i : ℕ) (rest : List EvItem), k = s.core c.val ∧ i = evRow e.ev ∧
    s.canPop c.val = true ∧ (s.netOf c.val).backward = false ∧ evFmt e.ev = 0 ∧ evPfmt e.ev < 2 ∧ (evType e.ev = 1 ∨
    evType e.ev = 2) ∧ i < k.nRows ∧ k.rEnable i = true ∧ evOutlier e.ev = k.rOutlier i ∧ (k.rDlEn i && k.rPending i) = false ∧
    k.delay.get [] (k.step % 64) = e :: rest) :=
  ⟨⟨0, (upSec { powered := true, toCore := [.event (evTo 1 3 0 1)] }), (evTo 1 3 0 1), [], 3, by decide +kernel⟩,
   ⟨0, (coreSec { credit := 4096 } { powered := true, toCore := [.event (evTo 1 3 0 1)] }), (evTo 1 3 0 1), [], 3,
    by decide +kernel⟩,
   ⟨0,
    { coreSec { net := 3 } { powered := true, toCore := [.event { evTo 1 3 0 1 with tag := 3 }] } with nets := [(2, { image := 1, cores := [3] })] },
    { evTo 1 3 0 1 with tag := 3 }, [], 3, by decide +kernel⟩,
   ⟨3, (upCore { coreK with rq := [ev6 1 1] }), (ev6 1 1), { coreK with rq := [ev6 1 1] }, 1, [], by decide +kernel⟩,
   ⟨3, (upCore { coreK with rq := [{ ev6 1 1 with ev := evDel 5 }] }), { ev6 1 1 with ev := evDel 5 },
    { coreK with rq := [{ ev6 1 1 with ev := evDel 5 }] }, 1, [], by decide +kernel⟩,
   ⟨3, (upCore { coreK with delay := [(6, [ev6 2 1])] }), (ev6 2 1), { coreK with delay := [(6, [ev6 2 1])] }, 1, [],
    by decide +kernel⟩⟩

theorem witness_FetchBeatsAccumulate :
  (∃ (c : CoreId) (s : State) (p : InPipe) (k : CoreSt) (i : ℕ) (ty : ℕ) (cols : List ℕ), k = s.core c.val ∧ i = evRow p.item.ev ∧
    ty = evType p.item.ev ∧ cols = beatCols (k.rStart i) (k.rLen i) p.beat ∧ s.sectorRuns (sectorOf c.val) = true ∧
    k.lookup = none ∧ k.fetch = some p ∧ (ty = 1 ∨ ty = 2 ∨ ty = 3) ∧ k.rPending i = true) ∧
  (∃ (c : CoreId) (s : State) (p : InPipe) (k : CoreSt) (i : ℕ) (ty : ℕ) (cols : List ℕ), k = s.core c.val ∧ i = evRow p.item.ev ∧
    ty = evType p.item.ev ∧ cols = beatCols (k.rStart i) (k.rLen i) p.beat ∧ s.sectorRuns (sectorOf c.val) = true ∧
    k.lookup = none ∧ k.fetch = some p ∧ (ty = 1 ∨ ty = 2 ∨ ty = 3) ∧ k.rPending i = false) ∧
  (∃ (c : CoreId) (s : State) (p : InPipe) (k : CoreSt) (i : ℕ) (ty : ℕ) (cols : List ℕ), k = s.core c.val ∧ i = evRow p.item.ev ∧
    ty = evType p.item.ev ∧ cols = beatCols (k.rStart i) (k.rLen i) p.beat ∧ s.sectorRuns (sectorOf c.val) = true ∧
    k.lookup = none ∧ k.fetch = some p ∧ (ty = 1 ∨ ty = 2 ∨ ty = 3) ∧ k.rPending i = false) :=
  ⟨⟨3, (upCore { coreK with rowW := [(8, 0xA0000000)], fetch := some { item := ev6 1 1 } }), { item := ev6 1 1 },
    { coreK with rowW := [(8, 0xA0000000)], fetch := some { item := ev6 1 1 } }, 1, 1, (beatCols 0 1 0), by decide +kernel⟩,
   ⟨3, (upCore { coreK with syn := [(0, 9)], fetch := some { item := ev6 1 1 } }), { item := ev6 1 1 },
    { coreK with syn := [(0, 9)], fetch := some { item := ev6 1 1 } }, 1, 1, (beatCols 0 1 0), by decide +kernel⟩,
   ⟨3, (upCore { coreK with syn := [(0, 9)], fetch := some { item := ev6 3 1 } }), { item := ev6 3 1 },
    { coreK with syn := [(0, 9)], fetch := some { item := ev6 3 1 } }, 1, 3, (beatCols 0 1 0), by decide +kernel⟩⟩

theorem witness_PennantsAndTraceRecords :
  (∃ (c : CoreId) (v : Word32) (s : State) (e : EvItem) (n : ℕ) (p : ℕ) (own : Bool), n = sectorOf c.val ∧ p = s.corePort c.val ∧
    e =
    { ev := mkEvent 6 (nfld (BitVec.toNat v) 29 20) 0 0 (nfld (BitVec.toNat v) 15 0) false 1 n false (indexOf c.val) (nfld (BitVec.toNat v) 31 30), tag := s.cutStep c.val % 4, refresh := false, sched := false, token := false, flow := 0, mseq := 0, due := 0, lane := 0 }
    ∧ own = ((s.core c.val).net != 0 && (s.netOf c.val).cores.contains (nfld (BitVec.toNat v) 29 20)) ∧ s.sectorRuns n = true ∧
    own = true ∧ s.roomAt n p (Item.event e) = true) ∧
  (∃ (c : CoreId) (v : Word32) (s : State) (e : EvItem) (n : ℕ) (p : ℕ) (own : Bool), n = sectorOf c.val ∧ p = s.corePort c.val ∧
    e =
    { ev := mkEvent 6 (nfld (BitVec.toNat v) 29 20) 0 0 (nfld (BitVec.toNat v) 15 0) false 1 n false (indexOf c.val) (nfld (BitVec.toNat v) 31 30), tag := s.cutStep c.val % 4, refresh := false, sched := false, token := false, flow := 0, mseq := 0, due := 0, lane := 0 }
    ∧ own = ((s.core c.val).net != 0 && (s.netOf c.val).cores.contains (nfld (BitVec.toNat v) 29 20)) ∧ s.sectorRuns n = true ∧
    own = true ∧ s.roomAt n p (Item.event e) = false) ∧
  (∃ (c : CoreId) (v : Word32) (s : State) (e : EvItem) (n : ℕ) (p : ℕ) (own : Bool), n = sectorOf c.val ∧ p = s.corePort c.val ∧
    e =
    { ev := mkEvent 6 (nfld (BitVec.toNat v) 29 20) 0 0 (nfld (BitVec.toNat v) 15 0) false 1 n false (indexOf c.val) (nfld (BitVec.toNat v) 31 30), tag := s.cutStep c.val % 4, refresh := false, sched := false, token := false, flow := 0, mseq := 0, due := 0, lane := 0 }
    ∧ own = ((s.core c.val).net != 0 && (s.netOf c.val).cores.contains (nfld (BitVec.toNat v) 29 20)) ∧ s.sectorRuns n = true ∧
    own = false) ∧
  (∃ (n : SectorId) (s : State) (r : List Byte) (l : List (List Byte)) (base : ℕ) (size : ℕ) (d : ℕ) (a : ℕ) (full : Bool),
    (s.sector n.val).traceStage = r :: l ∧ s.traceBuffer (fld s.traceCtrl 15 0) = some (base, size) ∧
    s.sectorRuns n.val = true ∧ d = ringRecords size ∧ d ≠ 0 ∧ full = (!nbit (BitVec.toNat s.traceCtrl) 30 && decide (d ≤
    ((s.sector n.val).traceWr + 2 ^ 32 - (s.sector n.val).traceRd) % 2 ^ 32)) ∧
    a = base + n.val * (size / 8) + 32 * ((s.sector n.val).traceWr % d) ∧ full = false ∧ s.gHeld a r.length = false ∧
    rtxBase ≤ a) ∧
  (∃ (n : SectorId) (s : State) (r : List Byte) (l : List (List Byte)) (base : ℕ) (size : ℕ) (d : ℕ) (a : ℕ) (full : Bool),
    (s.sector n.val).traceStage = r :: l ∧ s.traceBuffer (fld s.traceCtrl 15 0) = some (base, size) ∧
    s.sectorRuns n.val = true ∧ d = ringRecords size ∧ d ≠ 0 ∧ full = (!nbit (BitVec.toNat s.traceCtrl) 30 && decide (d ≤
    ((s.sector n.val).traceWr + 2 ^ 32 - (s.sector n.val).traceRd) % 2 ^ 32)) ∧
    a = base + n.val * (size / 8) + 32 * ((s.sector n.val).traceWr % d) ∧ full = true) :=
  ⟨⟨3, 0x40300007, (coreNet { image := 1, cores := [3] } {}), { ev := mkEvent 6 3 0 0 7 false 1 0 false 3 1, tag := 1 }, 0, 7,
    true, by decide +kernel⟩,
   ⟨3, 0x40300007,
    { coreNet { image := 1, cores := [3] } {} with sectors := [(0, { powered := true, up := true, inp := [(7, { be := List.replicate 32 (.event (evTo 1 3 0 1)) })] })] },
    { ev := mkEvent 6 3 0 0 7 false 1 0 false 3 1, tag := 1 }, 0, 7, true, by decide +kernel⟩,
   ⟨3, 0x40900007, (coreNet { image := 1, cores := [3] } {}), { ev := mkEvent 6 9 0 0 7 false 1 0 false 3 1, tag := 1 }, 0, 7,
    false, by decide +kernel⟩,
   ⟨0, (sTrace 0xC0000001 {}), (zeros 32), [], 0x10000000, 65536, 256, 0x10000000, false, by decide +kernel⟩,
   ⟨0, (sTrace 0x80000001 { traceWr := 256 }), (zeros 32), [], 0x10000000, 65536, 256, 0x10000000, true, by decide +kernel⟩⟩

theorem witness_StepsAdvance :
  (∃ (c : CoreId) (s : State) (k : CoreSt), k = s.core c.val ∧ s.cutoffDue c.val = true ∧ ((s.netOf c.val).halting = 0 ∨
    c.val ∈ (s.netOf c.val).cores)) ∧
  (∃ (c : CoreId) (s : State) (k : CoreSt), k = s.core c.val ∧ s.cutoffDue c.val = true ∧ ((s.netOf c.val).halting = 0 ∨
    c.val ∈ (s.netOf c.val).cores)) ∧
  (∃ (c : CoreId) (s : State) (k : CoreSt), k = s.core c.val ∧ s.cutoffDue c.val = false) ∧
  (∃ (k : NetId) (s : State) (n : NetSt), n = s.net k.val ∧ n.running = true ∧ n.lockstep = false ∧ n.tickHeld = true ∧
    n.held = false ∧ n.halting = 0 ∧ n.cores.Nodup ∧ n.dN ≤ s.now) ∧
  (∃ (k : NetId) (s : State) (n : NetSt), n = s.net k.val ∧ n.running = true ∧ n.lockstep = false ∧ n.tickHeld = true ∧
    n.held = false ∧ n.halting = 0 ∧ n.cores.Nodup ∧ n.dN ≤ s.now) ∧
  (∃ (k : NetId) (s : State) (n : NetSt), n = s.net k.val ∧ n.running = true ∧ n.lockstep = false ∧ n.tickHeld = true ∧
    n.held = false ∧ n.halting = 0 ∧ n.cores.Nodup ∧ n.dN ≤ s.now) ∧
  (∃ (k : NetId) (s : State) (n : NetSt), n = s.net k.val ∧ n.running = true ∧ n.lockstep = false ∧ n.tickHeld = true ∧
    n.held = false ∧ n.halting = 0 ∧ n.cores.Nodup ∧ s.now < n.dN) ∧
  (∃ (k : NetId) (s : State) (n : NetSt) (tag : ℕ) (a : ℕ) (c : ℕ), n = s.net k.val ∧ tag = n.step % 4 ∧
    a = 16 * (8160 + 2 * k.val) ∧ n.lockstep = true ∧ n.running = true ∧ n.phase = 1 ∧ c ∈ n.cores) ∧
  (∃ (k : NetId) (s : State) (n : NetSt) (tag : ℕ) (a : ℕ) (f : ℕ), n = s.net k.val ∧ tag = n.step % 4 ∧
    a = 16 * (8160 + 2 * k.val) ∧ n.lockstep = true ∧ n.running = true ∧ n.phase = 1 ∧
    (s.ringEmitters k.val).contains f = true ∧ s.ringClosed f = true) ∧
  (∃ (k : NetId) (s : State) (n : NetSt) (tag : ℕ) (a : ℕ), n = s.net k.val ∧ tag = n.step % 4 ∧ a = 16 * (8160 + 2 * k.val) ∧
    n.lockstep = true ∧ n.running = true ∧ n.phase = 1 ∧ s.quiescentNow k.val = true) ∧
  (∃ (k : NetId) (s : State) (n : NetSt) (tag : ℕ) (a : ℕ), n = s.net k.val ∧ tag = n.step % 4 ∧ a = 16 * (8160 + 2 * k.val) ∧
    n.lockstep = true ∧ n.running = true ∧ n.phase = 1 ∧ s.quiescentNow k.val = false) ∧
  (∃ (c : CoreId) (s : State) (k : ℕ) (n : NetSt), (s.core c.val).net = k + 1 ∧ n = s.net k ∧ n.running = true ∧
    n.lockstep = true ∧ n.phase = 2 ∧ (s.core c.val).phase = 3 ∧ (s.core c.val).halted = false ∧ c.val ∈ n.cores ∧
    ∃ d ∈ n.cores, d ≠ c.val ∧ ((s.core d).fireReported = false ∨ (s.core d).phase ≠ 3)) ∧
  (∃ (c : CoreId) (s : State) (k : ℕ) (n : NetSt), (s.core c.val).net = k + 1 ∧ n = s.net k ∧ n.running = true ∧
    n.lockstep = true ∧ n.phase = 2 ∧ (s.core c.val).phase = 3 ∧ (s.core c.val).halted = false ∧ c.val ∈ n.cores ∧
    (∀ d ∈ n.cores, d ≠ c.val → (s.core d).fireReported = true ∧ (s.core d).phase = 3) ∧ n.halting = 0 ∧ n.tickHeld = false ∧
    n.tickSource.kind ≠ 3) ∧
  (∃ (c : CoreId) (s : State) (k : ℕ) (n : NetSt), (s.core c.val).net = k + 1 ∧ n = s.net k ∧ n.running = true ∧
    n.lockstep = true ∧ n.phase = 2 ∧ (s.core c.val).phase = 3 ∧ (s.core c.val).halted = false ∧ c.val ∈ n.cores ∧
    (∀ d ∈ n.cores, d ≠ c.val → (s.core d).fireReported = true ∧ (s.core d).phase = 3) ∧ n.halting = 0 ∧ (n.tickHeld = true ∨
    n.tickSource.kind = 3) ∧ n.waits = [] ∧ n.reduce = none ∧ s.migrating k = false ∧ s.boot.crStep = 0) :=
  ⟨⟨3, (coreNet { image := 1, cores := [3], running := true } { coreK with rq := [ev6 1 1], delay := [(6, [ev6 2 1])] }),
    (coreNet { image := 1, cores := [3], running := true } { coreK with rq := [ev6 1 1], delay := [(6, [ev6 2 1])] } |>.core
    3), by decide +kernel⟩,
   ⟨3, (coreNet { image := 1, cores := [3], running := true } { coreK with seqHalted := true, engHalted := true, opens := [9] }),
    (coreNet { image := 1, cores := [3], running := true } { coreK with seqHalted := true, engHalted := true, opens := [9] }
    |>.core 3), by decide +kernel⟩,
   ⟨3, (coreNet { image := 1, cores := [3], running := true, cN := 6000000000 } coreK),
    (coreNet { image := 1, cores := [3], running := true, cN := 6000000000 } coreK |>.core 3), by decide +kernel⟩,
   ⟨2, (coreNet nHeld { phase := 1, step := 5 }), nHeld, by decide +kernel⟩,
   ⟨2, (coreNet nHeld { phase := 2, step := 5, fireOf := 5 }), nHeld, by decide +kernel⟩,
   ⟨2, (coreNet nHeld { phase := 3, step := 5 }), nHeld, by decide +kernel⟩,
   ⟨2, (coreNet { nHeld with dN := 5000000001 } { phase := 3, step := 5 }), { nHeld with dN := 5000000001 }, by decide +kernel⟩,
   ⟨2, (coreNet nLock {}), nLock, 0, 130624, 3, by decide +kernel⟩,
   ⟨2, { coreNet nLock {} with rfns := [(4, { net := 3, closedStep := 1 })] }, nLock, 0, 130624, 4, by decide +kernel⟩,
   ⟨2, (coreNet { nLock with sentRep := [(3, 1)] } { reported := [(0, 1)], phase := 1 }), { nLock with sentRep := [(3, 1)] }, 0,
    130624, by decide +kernel⟩,
   ⟨2, (coreNet nLock { phase := 1 }), nLock, 0, 130624, by decide +kernel⟩,
   ⟨3, (coreNet { nLock with phase := 2, cores := [3, 4] } { phase := 3 }), 2, { nLock with phase := 2, cores := [3, 4] },
    by decide +kernel, by decide +kernel, by decide +kernel, by decide +kernel, by decide +kernel, by decide +kernel,
    by decide +kernel, by decide +kernel, ⟨4, by decide, by decide, by decide +kernel⟩⟩,
   ⟨3, (coreNet { nLock with phase := 2 } { phase := 3 }), 2, { nLock with phase := 2 },
    by (and_intros <;> first | decide +kernel | (intros; rfl))⟩,
   ⟨3, (coreNet { nLock with phase := 2, tickHeld := true } { phase := 3 }), 2, { nLock with phase := 2, tickHeld := true },
    by (and_intros <;> first | decide +kernel | (intros; rfl))⟩⟩

theorem witness_FireEvaluatesItsSet :
  (∃ (c : CoreId) (s : State) (k : CoreSt) (n : ℕ) (net : NetSt) (all : List ColEval) (r : CoreSt × FireSum), k = s.core c.val ∧
    n = k.fireOf ∧ net = s.netOf c.val ∧ s.canFire c.val = true ∧ net.backward = false ∧
    all = List.map (k.evalCol n) (k.fireSet n (net.refreshStep (n + 1))) ∧
    r = List.foldl (fireCol k n all (net.refreshStep (n + 1)) (net.fwd != 0 && net.pos + 1 == net.fwd))
    ({ k with emitted := [], evaluated := [], postInc := [], deriv := [], seedCode := [] },
    { items := [], sat := 0, nan := 0, stateNan := 0, accSat := 0 }) all ∧ k.eq.length + r.2.items.length ≤ 2048 ∧
    k.opens = [] ∧ net.halting = 0) ∧
  (∃ (c : CoreId) (s : State) (k : CoreSt) (n : ℕ) (net : NetSt) (all : List ColEval) (r : CoreSt × FireSum), k = s.core c.val ∧
    n = k.fireOf ∧ net = s.netOf c.val ∧ s.canFire c.val = true ∧ net.backward = false ∧
    all = List.map (k.evalCol n) (k.fireSet n (net.refreshStep (n + 1))) ∧
    r = List.foldl (fireCol k n all (net.refreshStep (n + 1)) (net.fwd != 0 && net.pos + 1 == net.fwd))
    ({ k with emitted := [], evaluated := [], postInc := [], deriv := [], seedCode := [] },
    { items := [], sat := 0, nan := 0, stateNan := 0, accSat := 0 }) all ∧ r.2.items ≠ [] ∧
    2048 < k.eq.length + issueLen r.2.items) :=
  ⟨⟨3, (sFire kFire), kFire, 6, netF, (allOf kFire), (fireOf kFire), by decide +kernel⟩,
   ⟨3, (sFire kFireW), kFireW, 6, netF, (allOf kFireW), (fireOf kFireW), by decide +kernel⟩⟩

theorem witness_EmissionAndLearnRows :
  (∃ (c : CoreId) (s : State) (k : CoreSt) (x : EmitItem) (rest : List EmitItem) (n : ℕ) (p : ℕ) (e : EvItem), k = s.core c.val ∧
    n = sectorOf c.val ∧ p = s.corePort c.val ∧ s.sectorRuns n = true ∧ (s.sector n).mstate (indexOf c.val) = 0 ∧
    k.eq = x :: rest ∧ k.fireWait = [] ∧ e = k.emitEvent (c.val) x x.sent ∧ (s.netOf c.val).halting = 0 ∧
    ((s.netOf c.val).lockstep = false ∨ (s.netOf c.val).phase = 1 ∨ (s.netOf c.val).phase = 2) ∧ k.destCount x = 0) ∧
  (∃ (c : CoreId) (s : State) (k : CoreSt) (x : EmitItem) (rest : List EmitItem) (n : ℕ) (p : ℕ) (e : EvItem) (it : Item),
    k = s.core c.val ∧ n = sectorOf c.val ∧ p = s.corePort c.val ∧ s.sectorRuns n = true ∧
    (s.sector n).mstate (indexOf c.val) = 0 ∧ k.eq = x :: rest ∧ k.fireWait = [] ∧ e = k.emitEvent (c.val) x x.sent ∧
    (s.netOf c.val).halting = 0 ∧ ((s.netOf c.val).lockstep = false ∨ (s.netOf c.val).phase = 1 ∨ (s.netOf c.val).phase = 2) ∧
    x.sent < k.destCount x ∧ k.emitStops x = false ∧ ((k.destOf x x.sent).ring = true ∧
    it = Item.ring (k.destOf x x.sent).dest (c.val) e (if x.typ = 4 then f32One else k.colF x.col 1) ∨
    (k.destOf x x.sent).ring = false ∧ s.isSched (c.val) e.ev = false ∧ it = Item.event e) ∧ s.roomAt n p it = true) ∧
  (∃ (c : CoreId) (s : State) (k : CoreSt) (x : EmitItem) (rest : List EmitItem) (n : ℕ) (p : ℕ) (e : EvItem) (it : Item),
    k = s.core c.val ∧ n = sectorOf c.val ∧ p = s.corePort c.val ∧ s.sectorRuns n = true ∧
    (s.sector n).mstate (indexOf c.val) = 0 ∧ k.eq = x :: rest ∧ k.fireWait = [] ∧ e = k.emitEvent (c.val) x x.sent ∧
    (s.netOf c.val).halting = 0 ∧ ((s.netOf c.val).lockstep = false ∨ (s.netOf c.val).phase = 1 ∨ (s.netOf c.val).phase = 2) ∧
    x.sent < k.destCount x ∧ k.emitStops x = false ∧ ((k.destOf x x.sent).ring = true ∧
    it = Item.ring (k.destOf x x.sent).dest (c.val) e (if x.typ = 4 then f32One else k.colF x.col 1) ∨
    (k.destOf x x.sent).ring = false ∧ s.isSched (c.val) e.ev = false ∧ it = Item.event e) ∧ s.roomAt n p it = false) ∧
  (∃ (c : CoreId) (s : State) (k : CoreSt) (x : EmitItem) (rest : List EmitItem) (n : ℕ) (p : ℕ) (e : EvItem) (it : Item),
    k = s.core c.val ∧ n = sectorOf c.val ∧ p = s.corePort c.val ∧ s.sectorRuns n = true ∧
    (s.sector n).mstate (indexOf c.val) = 0 ∧ k.eq = x :: rest ∧ k.fireWait = [] ∧ e = k.emitEvent (c.val) x x.sent ∧
    (s.netOf c.val).halting = 0 ∧ ((s.netOf c.val).lockstep = false ∨ (s.netOf c.val).phase = 1 ∨ (s.netOf c.val).phase = 2) ∧
    x.sent < k.destCount x ∧ k.emitStops x = false ∧ ((k.destOf x x.sent).ring = true ∧
    it = Item.ring (k.destOf x x.sent).dest (c.val) e (if x.typ = 4 then f32One else k.colF x.col 1) ∨
    (k.destOf x x.sent).ring = false ∧ s.isSched (c.val) e.ev = false ∧ it = Item.event e) ∧ s.roomAt n p it = true) ∧
  (∃ (c : CoreId) (s : State) (k : CoreSt) (x : EmitItem) (rest : List EmitItem) (n : ℕ) (p : ℕ) (e : EvItem), k = s.core c.val ∧
    n = sectorOf c.val ∧ p = s.corePort c.val ∧ s.sectorRuns n = true ∧ (s.sector n).mstate (indexOf c.val) = 0 ∧
    k.eq = x :: rest ∧ k.fireWait = [] ∧ e = k.emitEvent (c.val) x x.sent ∧ (s.netOf c.val).halting = 0 ∧
    ((s.netOf c.val).lockstep = false ∨ (s.netOf c.val).phase = 1 ∨ (s.netOf c.val).phase = 2) ∧ x.sent < k.destCount x ∧
    k.emitStops x = false ∧ (k.destOf x x.sent).ring = false ∧ s.isSched (c.val) e.ev = true ∧
    ((s.sector n).inPort p).sched.length < 8) ∧
  (∃ (c : CoreId) (s : State) (k : CoreSt) (i : ℕ) (n : ℕ) (cols : List ℕ) (h : CoreSt × WbCount) (r1 : ℤ) (r : CoreSt × WbCount ×
    ℤ), (k = { s.core c.val with layer := (s.core c.val).learnMark / 65536, oper := (s.core c.val).learnMark % 65536 }) ∧
    (s.core c.val).nextLearnRow = some i ∧ k.learning = true ∧ s.sectorRuns (sectorOf c.val) = true ∧
    (s.sector (sectorOf c.val)).mstate (indexOf c.val) = 0 ∧ k.hostMb = 0 ∧ (s.netOf c.val).halting = 0 ∧
    ((s.netOf c.val).lockstep = false ∨ (s.netOf c.val).phase = 1 ∨ (s.netOf c.val).phase = 2) ∧ n = k.learnStep ∧
    cols = List.map (fun (x : ℕ) => k.rStart i + x) (upTo (k.rLen i)) ∧ h = List.foldl (CoreSt.halve i) (k,
    { wsat := 0, rsat := 0, dclamp := 0, guard := 0 }) cols ∧ r1 = ↑(if k.tracesWritten.get false i = true then k.rTrace i *
    65536 else k.rTrace i * traceDecay (k.tsLambda (k.rPreSet i)) (traceDelta n (k.rLast i))) ∧
    r = List.foldl (CoreSt.ruleSyn i n (k.rRule i) (nfld (BitVec.toNat (k.ruleTab.get 0 (12 * (k.rRule i - 1)))) 5 0) (nfld
    (BitVec.toNat (k.ruleTab.get 0 (12 * (k.rRule i - 1)))) 13 8 + 1) r1 (k.rowTouched n i)) (h.1, h.2, 0) cols) ∧
  (∃ (c : CoreId) (s : State) (k : CoreSt) (i : ℕ) (n : ℕ) (cols : List ℕ) (h : CoreSt × WbCount) (r1 : ℤ) (r : CoreSt × WbCount ×
    ℤ), (k = { s.core c.val with layer := (s.core c.val).learnMark / 65536, oper := (s.core c.val).learnMark % 65536 }) ∧
    (s.core c.val).nextLearnRow = some i ∧ k.learning = true ∧ s.sectorRuns (sectorOf c.val) = true ∧
    (s.sector (sectorOf c.val)).mstate (indexOf c.val) = 0 ∧ k.hostMb = 0 ∧ (s.netOf c.val).halting = 0 ∧
    ((s.netOf c.val).lockstep = false ∨ (s.netOf c.val).phase = 1 ∨ (s.netOf c.val).phase = 2) ∧ n = k.learnStep ∧
    cols = List.map (fun (x : ℕ) => k.rStart i + x) (upTo (k.rLen i)) ∧ h = List.foldl (CoreSt.halve i) (k,
    { wsat := 0, rsat := 0, dclamp := 0, guard := 0 }) cols ∧ r1 = ↑(if k.tracesWritten.get false i = true then k.rTrace i *
    65536 else k.rTrace i * traceDecay (k.tsLambda (k.rPreSet i)) (traceDelta n (k.rLast i))) ∧
    r = List.foldl (CoreSt.ruleSyn i n (k.rRule i) (nfld (BitVec.toNat (k.ruleTab.get 0 (12 * (k.rRule i - 1)))) 5 0) (nfld
    (BitVec.toNat (k.ruleTab.get 0 (12 * (k.rRule i - 1)))) 13 8 + 1) r1 (k.rowTouched n i)) (h.1, h.2, 0) cols) :=
  ⟨⟨3, (upCore { eq := [{ typ := 1, col := 5 }] }), { eq := [{ typ := 1, col := 5 }] }, { typ := 1, col := 5 }, [], 0, 7,
    (CoreSt.emitEvent { eq := [{ typ := 1, col := 5 }] } 3 { typ := 1, col := 5 } 0), by decide +kernel⟩,
   ⟨3, (upCore kEmit), kEmit, { typ := 1, col := 5 }, [], 0, 7, (kEmit.emitEvent 3 { typ := 1, col := 5 } 0),
    (.event (kEmit.emitEvent 3 { typ := 1, col := 5 } 0)), by decide +kernel⟩,
   ⟨3, (coreSec kEmit secFull), kEmit, { typ := 1, col := 5 }, [], 0, 7, (kEmit.emitEvent 3 { typ := 1, col := 5 } 0),
    (.event (kEmit.emitEvent 3 { typ := 1, col := 5 } 0)), by decide +kernel⟩,
   ⟨3, (upCore kRing), kRing, { typ := 1, col := 5 }, [], 0, 7, (kRing.emitEvent 3 { typ := 1, col := 5 } 0),
    (.ring 9 3 (kRing.emitEvent 3 { typ := 1, col := 5 } 0) (kRing.colF 5 1)), by decide +kernel⟩,
   ⟨3, (coreSec kEmit secSched), kEmit, { typ := 1, col := 5 }, [], 0, 7, (kEmit.emitEvent 3 { typ := 1, col := 5 } 0),
    by decide +kernel⟩,
   ⟨3, (upCore kLearn), (marked kLearn), 1, 6, [0], (halved kLearn), 0, (ruled kLearn), by decide +kernel⟩,
   ⟨3, (upCore kWalk), (marked kWalk), 1, 6, [0], (halved kWalk), 0, (ruled kWalk), by decide +kernel⟩⟩

theorem witness_SequencersExecute :
  (∃ (c : CoreId) (s : State) (k : CoreSt) (q : SeqSt) (due : Bool), k = s.core c.val ∧ q = k.seq ∧ s.seqRuns c.val = true ∧
    due = (k.intPending && nbit (BitVec.toNat q.mieReg) 11) ∧ due = true ∧ q.mie = true) ∧
  (∃ (c : CoreId) (s : State) (k : CoreSt) (q : SeqSt) (due : Bool), k = s.core c.val ∧ q = k.seq ∧ s.seqRuns c.val = true ∧
    due = (k.intPending && nbit (BitVec.toNat q.mieReg) 11) ∧ due = false ∧ q.wfi = true) ∧
  (∃ (c : CoreId) (s : State) (k : CoreSt) (q : SeqSt) (due : Bool) (w : ℕ) (rd : ℕ) (rs1 : ℕ) (rs2 : ℕ) (u : SeqSt),
    k = s.core c.val ∧ q = k.seq ∧ s.seqRuns c.val = true ∧ due = (k.intPending && nbit (BitVec.toNat q.mieReg) 11) ∧
    (due = false ∨ q.mie = false) ∧ (due = true ∨ q.wfi = false) ∧ BitVec.toNat q.pc + 2 < 32768 ∧
    k.hits 0 (BitVec.toNat q.pc) = [] ∧ w = memNat q.imem (BitVec.toNat q.pc) 4 ∧ rd < 32 ∧ rs1 < 32 ∧ rs2 < 32 ∧
    ((∃ (f3 : ℕ) (imm : ℕ) (v : ℕ), f3 < 8 ∧ imm < 4096 ∧ w = encI 19 f3 rd rs1 imm ∧
    rvOp w (q.reg rs1) (sextTo 12 32 imm) true = some v ∧ u =
    { q.setReg rd v with pc := BitVec.ofNat 32 (BitVec.toNat q.pc + 4) }) ∨ (∃ (f7 : ℕ) (f3 : ℕ) (v : ℕ), f7 < 128 ∧ f3 < 8 ∧
    w = encR f7 f3 rd rs1 rs2 ∧ rvOp w (q.reg rs1) (q.reg rs2) false = some v ∧
    u = { q.setReg rd v with pc := BitVec.ofNat 32 (BitVec.toNat q.pc + 4) }) ∨ (∃ (f3 : ℕ) (imm : ℕ) (b : Bool), f3 < 8 ∧
    imm < 8192 ∧ imm % 2 = 0 ∧ w = encB f3 rs1 imm + rs2 * 2 ^ 20 ∧ rvTaken f3 (q.reg rs1) (q.reg rs2) = some b ∧
    u = { q with pc := BitVec.ofNat 32 (if b = true then BitVec.toNat q.pc + sextTo 13 32 imm else BitVec.toNat q.pc + 4) }) ∨
    ∃ imm < 2 ^ 21, imm % 2 = 0 ∧ w = encJ rd imm ∧ u =
    { q.setReg rd (BitVec.toNat q.pc + 4) with pc := BitVec.ofNat 32 (BitVec.toNat q.pc + sextTo 21 32 imm) })) ∧
  (∃ (c : CoreId) (s : State) (k : CoreSt) (q : SeqSt) (due : Bool) (w : ℕ) (rd : ℕ) (rs1 : ℕ) (rs2 : ℕ) (u : SeqSt),
    k = s.core c.val ∧ q = k.seq ∧ s.seqRuns c.val = true ∧ due = (k.intPending && nbit (BitVec.toNat q.mieReg) 11) ∧
    (due = false ∨ q.mie = false) ∧ (due = true ∨ q.wfi = false) ∧ BitVec.toNat q.pc + 2 < 32768 ∧
    k.hits 0 (BitVec.toNat q.pc) = [] ∧ w = memNat q.imem (BitVec.toNat q.pc) 4 ∧ rd < 32 ∧ rs1 < 32 ∧ rs2 < 32 ∧
    ((∃ (f3 : ℕ) (imm : ℕ) (v : ℕ), f3 < 8 ∧ imm < 4096 ∧ w = encI 19 f3 rd rs1 imm ∧
    rvOp w (q.reg rs1) (sextTo 12 32 imm) true = some v ∧ u =
    { q.setReg rd v with pc := BitVec.ofNat 32 (BitVec.toNat q.pc + 4) }) ∨ (∃ (f7 : ℕ) (f3 : ℕ) (v : ℕ), f7 < 128 ∧ f3 < 8 ∧
    w = encR f7 f3 rd rs1 rs2 ∧ rvOp w (q.reg rs1) (q.reg rs2) false = some v ∧
    u = { q.setReg rd v with pc := BitVec.ofNat 32 (BitVec.toNat q.pc + 4) }) ∨ (∃ (f3 : ℕ) (imm : ℕ) (b : Bool), f3 < 8 ∧
    imm < 8192 ∧ imm % 2 = 0 ∧ w = encB f3 rs1 imm + rs2 * 2 ^ 20 ∧ rvTaken f3 (q.reg rs1) (q.reg rs2) = some b ∧
    u = { q with pc := BitVec.ofNat 32 (if b = true then BitVec.toNat q.pc + sextTo 13 32 imm else BitVec.toNat q.pc + 4) }) ∨
    ∃ imm < 2 ^ 21, imm % 2 = 0 ∧ w = encJ rd imm ∧ u =
    { q.setReg rd (BitVec.toNat q.pc + 4) with pc := BitVec.ofNat 32 (BitVec.toNat q.pc + sextTo 21 32 imm) })) ∧
  (∃ (c : CoreId) (s : State) (k : CoreSt) (q : SeqSt) (due : Bool) (w : ℕ) (rd : ℕ) (rs1 : ℕ) (rs2 : ℕ) (u : SeqSt),
    k = s.core c.val ∧ q = k.seq ∧ s.seqRuns c.val = true ∧ due = (k.intPending && nbit (BitVec.toNat q.mieReg) 11) ∧
    (due = false ∨ q.mie = false) ∧ (due = true ∨ q.wfi = false) ∧ BitVec.toNat q.pc + 2 < 32768 ∧
    k.hits 0 (BitVec.toNat q.pc) = [] ∧ w = memNat q.imem (BitVec.toNat q.pc) 4 ∧ rd < 32 ∧ rs1 < 32 ∧ rs2 < 32 ∧
    ((∃ (f3 : ℕ) (imm : ℕ) (v : ℕ), f3 < 8 ∧ imm < 4096 ∧ w = encI 19 f3 rd rs1 imm ∧
    rvOp w (q.reg rs1) (sextTo 12 32 imm) true = some v ∧ u =
    { q.setReg rd v with pc := BitVec.ofNat 32 (BitVec.toNat q.pc + 4) }) ∨ (∃ (f7 : ℕ) (f3 : ℕ) (v : ℕ), f7 < 128 ∧ f3 < 8 ∧
    w = encR f7 f3 rd rs1 rs2 ∧ rvOp w (q.reg rs1) (q.reg rs2) false = some v ∧
    u = { q.setReg rd v with pc := BitVec.ofNat 32 (BitVec.toNat q.pc + 4) }) ∨ (∃ (f3 : ℕ) (imm : ℕ) (b : Bool), f3 < 8 ∧
    imm < 8192 ∧ imm % 2 = 0 ∧ w = encB f3 rs1 imm + rs2 * 2 ^ 20 ∧ rvTaken f3 (q.reg rs1) (q.reg rs2) = some b ∧
    u = { q with pc := BitVec.ofNat 32 (if b = true then BitVec.toNat q.pc + sextTo 13 32 imm else BitVec.toNat q.pc + 4) }) ∨
    ∃ imm < 2 ^ 21, imm % 2 = 0 ∧ w = encJ rd imm ∧ u =
    { q.setReg rd (BitVec.toNat q.pc + 4) with pc := BitVec.ofNat 32 (BitVec.toNat q.pc + sextTo 21 32 imm) })) ∧
  (∃ (c : CoreId) (s : State) (k : CoreSt) (q : SeqSt) (due : Bool) (w : ℕ) (rd : ℕ) (rs1 : ℕ) (rs2 : ℕ) (u : SeqSt),
    k = s.core c.val ∧ q = k.seq ∧ s.seqRuns c.val = true ∧ due = (k.intPending && nbit (BitVec.toNat q.mieReg) 11) ∧
    (due = false ∨ q.mie = false) ∧ (due = true ∨ q.wfi = false) ∧ BitVec.toNat q.pc + 2 < 32768 ∧
    k.hits 0 (BitVec.toNat q.pc) = [] ∧ w = memNat q.imem (BitVec.toNat q.pc) 4 ∧ rd < 32 ∧ rs1 < 32 ∧ rs2 < 32 ∧
    ((∃ (f3 : ℕ) (imm : ℕ) (v : ℕ), f3 < 8 ∧ imm < 4096 ∧ w = encI 19 f3 rd rs1 imm ∧
    rvOp w (q.reg rs1) (sextTo 12 32 imm) true = some v ∧ u =
    { q.setReg rd v with pc := BitVec.ofNat 32 (BitVec.toNat q.pc + 4) }) ∨ (∃ (f7 : ℕ) (f3 : ℕ) (v : ℕ), f7 < 128 ∧ f3 < 8 ∧
    w = encR f7 f3 rd rs1 rs2 ∧ rvOp w (q.reg rs1) (q.reg rs2) false = some v ∧
    u = { q.setReg rd v with pc := BitVec.ofNat 32 (BitVec.toNat q.pc + 4) }) ∨ (∃ (f3 : ℕ) (imm : ℕ) (b : Bool), f3 < 8 ∧
    imm < 8192 ∧ imm % 2 = 0 ∧ w = encB f3 rs1 imm + rs2 * 2 ^ 20 ∧ rvTaken f3 (q.reg rs1) (q.reg rs2) = some b ∧
    u = { q with pc := BitVec.ofNat 32 (if b = true then BitVec.toNat q.pc + sextTo 13 32 imm else BitVec.toNat q.pc + 4) }) ∨
    ∃ imm < 2 ^ 21, imm % 2 = 0 ∧ w = encJ rd imm ∧ u =
    { q.setReg rd (BitVec.toNat q.pc + 4) with pc := BitVec.ofNat 32 (BitVec.toNat q.pc + sextTo 21 32 imm) })) ∧
  (∃ (c : CoreId) (s : State) (k : CoreSt) (q : SeqSt) (due : Bool), k = s.core c.val ∧ q = k.seq ∧ s.seqRuns c.val = true ∧
    due = (k.intPending && nbit (BitVec.toNat q.mieReg) 11) ∧ (due = false ∨ q.mie = false) ∧ (due = true ∨ q.wfi = false) ∧
    BitVec.toNat q.pc + 2 < 32768 ∧ k.hits 0 (BitVec.toNat q.pc) = [] ∧ memNat q.imem (BitVec.toNat q.pc) 4 % 128 = 127) ∧
  (∃ (c : CoreId) (s : State) (k : CoreSt) (q : SeqSt) (due : Bool), k = s.core c.val ∧ q = k.seq ∧ s.seqRuns c.val = true ∧
    due = (k.intPending && nbit (BitVec.toNat q.mieReg) 11) ∧ (due = false ∨ q.mie = false) ∧ (due = true ∨ q.wfi = false) ∧
    32768 ≤ BitVec.toNat q.pc) :=
  ⟨⟨3, (upCore { seq := qIrq, intEn := 1, intStatus := 1 }), { seq := qIrq, intEn := 1, intStatus := 1 }, qIrq, true,
    by decide +kernel⟩,
   ⟨3, (upCore { seq := { imem := [(0, 1)], wfi := true } }), { seq := { imem := [(0, 1)], wfi := true } },
    { imem := [(0, 1)], wfi := true }, false, by decide +kernel⟩,
   ⟨3, (upCore { seq := qAddi }), { seq := qAddi }, qAddi, false, 0x530293, 5, 6, 5, { qAddi.setReg 5 14 with pc := 4 },
    by decide +kernel, by decide +kernel, by decide +kernel, by decide +kernel, by decide +kernel, by decide +kernel,
    by decide +kernel, by decide +kernel, by decide +kernel, by decide +kernel, by decide +kernel, by decide +kernel, (.inl ⟨0,
    5, 14, by decide, by decide, by decide +kernel, by decide +kernel, rfl⟩)⟩,
   ⟨3, (upCore { seq := qWord 0x006283B3 }), { seq := qWord 0x006283B3 }, (qWord 0x006283B3), false, 0x006283B3, 7, 5, 6,
    { (qWord 0x006283B3).setReg 7 12 with pc := 4 }, by decide +kernel, by decide +kernel, by decide +kernel,
    by decide +kernel, by decide +kernel, by decide +kernel, by decide +kernel, by decide +kernel, by decide +kernel,
    by decide +kernel, by decide +kernel, by decide +kernel, (.inr (.inl ⟨0, 0, 12, by decide, by decide, by decide +kernel,
    by decide +kernel, rfl⟩))⟩,
   ⟨3, (upCore { seq := qWord 0x00628463 }), { seq := qWord 0x00628463 }, (qWord 0x00628463), false, 0x00628463, 0, 5, 6,
    { qWord 0x00628463 with pc := 4 }, by decide +kernel, by decide +kernel, by decide +kernel, by decide +kernel,
    by decide +kernel, by decide +kernel, by decide +kernel, by decide +kernel, by decide +kernel, by decide +kernel,
    by decide +kernel, by decide +kernel, (.inr (.inr (.inl ⟨0, 8, false, by decide, by decide, by decide, by decide +kernel,
    by decide +kernel, rfl⟩)))⟩,
   ⟨3, (upCore { seq := qWord 0x008000EF }), { seq := qWord 0x008000EF }, (qWord 0x008000EF), false, 0x008000EF, 1, 0, 0,
    { (qWord 0x008000EF).setReg 1 4 with pc := 8 }, by decide +kernel, by decide +kernel, by decide +kernel, by decide +kernel,
    by decide +kernel, by decide +kernel, by decide +kernel, by decide +kernel, by decide +kernel, by decide +kernel,
    by decide +kernel, by decide +kernel, (.inr (.inr (.inr ⟨8, by decide, by decide, by decide +kernel, rfl⟩)))⟩,
   ⟨3, (upCore { seq := qWord 0x7F }), { seq := qWord 0x7F }, (qWord 0x7F), false, by decide +kernel⟩,
   ⟨3, (upCore { seq := { imem := [(0, 1)], pc := 0x8000 } }), { seq := { imem := [(0, 1)], pc := 0x8000 } },
    { imem := [(0, 1)], pc := 0x8000 }, false, by decide +kernel⟩⟩

theorem witness_RoutersForwardAndDrop :
  (∃ (n : SectorId) (out : Fin 23) (s : State) (it : Item) (rest : List Item) (won : ℕ),
    won = arbiter (lfsrOf (n.val) (out.val) ((s.sector n.val).outp.get { lfsr := none, waits := [], lanes := [] } out.val))
    ((s.sector n.val).outp.get { lfsr := none, waits := [], lanes := [] } out.val).waits (s.requests n.val out.val) ∧
    s.sectorRuns n.val = true ∧ s.unroutableAt n.val = [] ∧ s.requests n.val out.val ≠ [] ∧
    ((s.sector n.val).inPort won).be = it :: rest ∧ s.outReady (n.val) (out.val) it = true) ∧
  (∃ (n : SectorId) (out : Fin 23) (s : State) (it : Item) (rest : List Item) (won : ℕ),
    won = arbiter (lfsrOf (n.val) (out.val) ((s.sector n.val).outp.get { lfsr := none, waits := [], lanes := [] } out.val))
    ((s.sector n.val).outp.get { lfsr := none, waits := [], lanes := [] } out.val).waits (s.requests n.val out.val) ∧
    s.sectorRuns n.val = true ∧ s.unroutableAt n.val = [] ∧ s.requests n.val out.val ≠ [] ∧
    ((s.sector n.val).inPort won).be = it :: rest ∧ s.outReady (n.val) (out.val) it = true) ∧
  (∃ (n : SectorId) (out : Fin 23) (s : State) (it : Item) (rest : List Item) (won : ℕ),
    won = arbiter (lfsrOf (n.val) (out.val) ((s.sector n.val).outp.get { lfsr := none, waits := [], lanes := [] } out.val))
    ((s.sector n.val).outp.get { lfsr := none, waits := [], lanes := [] } out.val).waits (s.requests n.val out.val) ∧
    s.sectorRuns n.val = true ∧ s.unroutableAt n.val = [] ∧ s.requests n.val out.val ≠ [] ∧
    ((s.sector n.val).inPort won).be = it :: rest ∧ s.outReady (n.val) (out.val) it = true) ∧
  (∃ (n : SectorId) (out : Fin 23) (s : State) (it : Item) (rest : List Item) (won : ℕ),
    won = arbiter (lfsrOf (n.val) (out.val) ((s.sector n.val).outp.get { lfsr := none, waits := [], lanes := [] } out.val))
    ((s.sector n.val).outp.get { lfsr := none, waits := [], lanes := [] } out.val).waits (s.requests n.val out.val) ∧
    s.sectorRuns n.val = true ∧ s.unroutableAt n.val = [] ∧ s.requests n.val out.val ≠ [] ∧
    ((s.sector n.val).inPort won).be = it :: rest ∧ s.outReady (n.val) (out.val) it = true) ∧
  (∃ (n : SectorId) (out : Fin 23) (s : State) (it : Item) (rest : List Item) (won : ℕ),
    won = arbiter (lfsrOf (n.val) (out.val) ((s.sector n.val).outp.get { lfsr := none, waits := [], lanes := [] } out.val))
    ((s.sector n.val).outp.get { lfsr := none, waits := [], lanes := [] } out.val).waits (s.requests n.val out.val) ∧
    s.sectorRuns n.val = true ∧ s.unroutableAt n.val = [] ∧ s.requests n.val out.val ≠ [] ∧
    ((s.sector n.val).inPort won).be = it :: rest ∧ s.outReady (n.val) (out.val) it = true) ∧
  (∃ (n : SectorId) (s : State) (p : ℕ) (ps : List ℕ), s.sectorRuns n.val = true ∧ s.unroutableAt n.val = p :: ps) :=
  ⟨⟨0, 5, (sIn 4 [.event (evTo 1 1 0 1)]), (.event (evTo 1 1 0 1)), [], 4, by decide +kernel⟩,
   ⟨0, 1, (sIn 4 [.event (evTo 1 16 0 1)]), (.event (evTo 1 16 0 1)), [], 4, by decide +kernel⟩,
   ⟨0, 3, (sIn 4 [.ring 9 3 (evTo 1 0 0 1) 0]), (.ring 9 3 (evTo 1 0 0 1) 0), [], 4, by decide +kernel⟩,
   ⟨0, 21, (sIn 4 [.desc 3 (descW 5 0 3)]), (.desc 3 (descW 5 0 3)), [], 4, by decide +kernel⟩,
   ⟨0, 22, (sIn 4 [.sync 0 { obj := 2 }]), (.sync 0 { obj := 2 }), [], 4, by decide +kernel⟩,
   ⟨0, (sIn 4 [.event (evTo 1 200 0 1)]), 4, [], by decide +kernel⟩⟩

theorem witness_ScheduledFlitsAndSectorClocks :
  (∃ (n : SectorId) (port : Fin 23) (s : State) (e : EvItem) (out : ℕ),
    List.find? (fun (x : EvItem) => (Item.event x).unroutable) ((s.sector n.val).inPort port.val).sched = none ∧
    firstDue ((s.sector n.val).inPort port.val).sched = some e ∧ out = s.outPort (n.val) (Item.event e) ∧
    s.sectorRuns n.val = true ∧ e.due ≤ (s.sector n.val).cycles s.now ∧ s.schedReady (n.val) out = true) ∧
  (∃ (n : SectorId) (port : Fin 23) (s : State) (e : EvItem) (out : ℕ),
    List.find? (fun (x : EvItem) => (Item.event x).unroutable) ((s.sector n.val).inPort port.val).sched = none ∧
    firstDue ((s.sector n.val).inPort port.val).sched = some e ∧ out = s.outPort (n.val) (Item.event e) ∧
    s.sectorRuns n.val = true ∧ e.due ≤ (s.sector n.val).cycles s.now ∧ s.schedReady (n.val) out = true) ∧
  (∃ (n : SectorId) (port : Fin 23) (s : State) (e : EvItem) (out : ℕ),
    List.find? (fun (x : EvItem) => (Item.event x).unroutable) ((s.sector n.val).inPort port.val).sched = none ∧
    firstDue ((s.sector n.val).inPort port.val).sched = some e ∧ out = s.outPort (n.val) (Item.event e) ∧
    s.sectorRuns n.val = true ∧ e.due ≤ (s.sector n.val).cycles s.now ∧ s.schedReady (n.val) out = true) ∧
  (∃ (n : SectorId) (s : State), (s.sector n.val).opNext ≠ 0) ∧
  (∃ (n : SectorId) (s : State), s.mayGate n.val = true) ∧
  (∃ (n : SectorId) (s : State), (s.sector n.val).gated = true) :=
  ⟨⟨0, 2, (upSec { powered := true, inp := [(2, { sched := [evTo 1 16 0 1] })] }), (evTo 1 16 0 1), 1, by decide +kernel⟩,
   ⟨0, 2, (upSec { powered := true, inp := [(2, { sched := [evTo 1 2 0 1] })] }), (evTo 1 2 0 1), 6, by decide +kernel⟩,
   ⟨0, 2, (upSec { powered := true, inp := [(2, { sched := [{ evTo 1 16 0 1 with lane := 3 }] })] }),
    { evTo 1 16 0 1 with lane := 3 }, 1, by decide +kernel⟩,
   ⟨0, (upSec { powered := true, stopped := true, opNext := 2 }), by decide +kernel⟩,
   ⟨0, up, by decide +kernel⟩,
   ⟨0, (upSec { powered := true, gated := true }), by decide +kernel⟩⟩

theorem witness_LinkProtection :
  (∃ (n : SectorId) (l : Fin 5) (s : State) (it : Item) (rest : List Item), ((s.sector n.val).link l.val).inFlight = it :: rest ∧
    ((s.sector n.val).link l.val).stopped = false ∧ ((s.sector n.val).link l.val).replay = false ∧ s.sectorRuns n.val = true ∧
    s.flitRoom (n.val) (l.val) it = true) ∧
  (∃ (n : SectorId) (l : Fin 5) (s : State) (it : Item) (rest : List Item), ((s.sector n.val).link l.val).inFlight = it :: rest ∧
    ((s.sector n.val).link l.val).stopped = false ∧ ((s.sector n.val).link l.val).replay = false ∧ s.sectorRuns n.val = true ∧
    s.flitRoom (n.val) (l.val) it = true) ∧
  (∃ (n : SectorId) (l : Fin 5) (s : State) (it : Item) (rest : List Item), ((s.sector n.val).link l.val).inFlight = it :: rest ∧
    ((s.sector n.val).link l.val).stopped = false ∧ ((s.sector n.val).link l.val).replay = false ∧ s.sectorRuns n.val = true ∧
    s.flitRoom (n.val) (l.val) it = true) ∧
  (∃ (n : SectorId) (l : Fin 5) (s : State) (ecc : EccResult), (ecc = EccResult.uncorrectable ∨ ecc = EccResult.tagMismatch) ∧
    ((s.sector n.val).link l.val).inFlight ≠ [] ∧ ((s.sector n.val).link l.val).stopped = false ∧
    ((s.sector n.val).link l.val).replay = false ∧ s.sectorRuns n.val = true) ∧
  (∃ (n : SectorId) (l : Fin 5) (s : State) (ecc : EccResult), (ecc = EccResult.uncorrectable ∨ ecc = EccResult.tagMismatch) ∧
    ((s.sector n.val).link l.val).inFlight ≠ [] ∧ ((s.sector n.val).link l.val).stopped = false ∧
    ((s.sector n.val).link l.val).replay = false ∧ s.sectorRuns n.val = true) ∧
  (∃ (n : SectorId) (l : Fin 5) (s : State), ((s.sector n.val).link l.val).replay = true) ∧
  (∃ (n : SectorId) (l : Fin 5) (s : State), ((s.sector n.val).link l.val).replay = true) :=
  ⟨⟨0, 1, (sLink { inFlight := [.desc 3 {}] }), (.desc 3 {}), [], by decide +kernel⟩,
   ⟨0, 1, (sLink { inFlight := [.event { evTo 1 3 0 1 with sched := true }] }), (.event { evTo 1 3 0 1 with sched := true }), [],
    by decide +kernel⟩,
   ⟨0, 4, (upSec { powered := true, up := true, links := [(4, { inFlight := [.desc 3 {}] })] }), (.desc 3 {}), [],
    by decide +kernel⟩,
   ⟨0, 1, (sLink { inFlight := [.desc 3 {}] }), .uncorrectable, by decide +kernel⟩,
   ⟨0, 1, (sLink { inFlight := [.desc 3 {}] }), .tagMismatch, by decide +kernel⟩,
   ⟨0, 1, (sLink { inFlight := [.desc 3 {}], replay := true, fails := 3 }), by decide +kernel⟩,
   ⟨0, 1, (sLink { inFlight := [.desc 3 {}], replay := true, fails := 2 }), by decide +kernel⟩⟩

theorem witness_BankAtomicsAndAccesses :
  (∃ (n : SectorId) (b : Fin 64) (s : State) (c : BankCall) (a : ℕ) (ret : State → BitVec 128 × Bool) (w : ℕ),
    a = 131072 * b.val + c.ofs.val ∧ s.sectorRuns n.val = true ∧ s.bankHolds (n.val) (131072 * b.val) = false ∧
    s.bankRefused (n.val) a c.who c.op = false ∧ c.ecc = EccResult.clean ∧
    (s.sector n.val).poisoned a (bankBytes c.op) = false ∧ ((bankRank c.who < 35 ∧
    ret = fun (t : State) => ((t.sector n.val).bankData, (t.sector n.val).bankPoison)) ∨ portOwner b.val = some c.who ∧
    ret = fun (t : State) => ((t.sector n.val).bankDataB, (t.sector n.val).bankPoisonB)) ∧ c.op = BankOp.read w) ∧
  (∃ (n : SectorId) (b : Fin 64) (s : State) (c : BankCall) (a : ℕ) (ret : State →
    BitVec 128 × Bool) (w : ℕ) (i : Fin 16) (d : BankCall), a = 131072 * b.val + c.ofs.val ∧ s.sectorRuns n.val = true ∧
    s.bankHolds (n.val) (131072 * b.val) = false ∧ s.bankRefused (n.val) a c.who c.op = false ∧ c.ecc = EccResult.clean ∧
    (s.sector n.val).poisoned a (bankBytes c.op) = false ∧ ((bankRank c.who < 35 ∧
    ret = fun (t : State) => ((t.sector n.val).bankData, (t.sector n.val).bankPoison)) ∨ portOwner b.val = some c.who ∧
    ret = fun (t : State) => ((t.sector n.val).bankDataB, (t.sector n.val).bankPoisonB)) ∧ c.op = BankOp.read w ∧ 8 ≤ b.val ∧
    bankRank c.who < bankRank (BankReq.sequencer (Fin.castLE (by decide) i)) ∧
    d.who = BankReq.sequencer (Fin.castLE (by decide) i) ∧ s.bankRefused (n.val) (131072 * b.val + d.ofs.val) d.who d.op = false) ∧
  (∃ (n : SectorId) (b : Fin 64) (s : State) (c : BankCall) (a : ℕ) (ret : State → BitVec 128 × Bool) (w : ℕ) (v : BitVec 128),
    a = 131072 * b.val + c.ofs.val ∧ s.sectorRuns n.val = true ∧ s.bankHolds (n.val) (131072 * b.val) = false ∧
    s.bankRefused (n.val) a c.who c.op = false ∧ c.ecc = EccResult.clean ∧
    (s.sector n.val).poisoned a (bankBytes c.op) = false ∧ ((bankRank c.who < 35 ∧
    ret = fun (t : State) => ((t.sector n.val).bankData, (t.sector n.val).bankPoison)) ∨ portOwner b.val = some c.who ∧
    ret = fun (t : State) => ((t.sector n.val).bankDataB, (t.sector n.val).bankPoisonB)) ∧ c.op = BankOp.write w v) ∧
  (∃ (n : SectorId) (b : Fin 64) (s : State) (c : BankCall) (a : ℕ) (ret : State → BitVec 128 × Bool) (w : ℕ) (v : BitVec 128),
    a = 131072 * b.val + c.ofs.val ∧ s.sectorRuns n.val = true ∧ s.bankHolds (n.val) (131072 * b.val) = false ∧
    s.bankRefused (n.val) a c.who c.op = false ∧ c.ecc = EccResult.clean ∧
    (s.sector n.val).poisoned a (bankBytes c.op) = false ∧ ((bankRank c.who < 35 ∧
    ret = fun (t : State) => ((t.sector n.val).bankData, (t.sector n.val).bankPoison)) ∨ portOwner b.val = some c.who ∧
    ret = fun (t : State) => ((t.sector n.val).bankDataB, (t.sector n.val).bankPoisonB)) ∧ c.op = BankOp.write w v) ∧
  (∃ (n : SectorId) (b : Fin 64) (s : State) (c : BankCall) (a : ℕ) (ret : State → BitVec 128 × Bool) (k : Fin 5) (x : Word64),
    a = 131072 * b.val + c.ofs.val ∧ s.sectorRuns n.val = true ∧ s.bankHolds (n.val) (131072 * b.val) = false ∧
    s.bankRefused (n.val) a c.who c.op = false ∧ c.ecc = EccResult.clean ∧
    (s.sector n.val).poisoned a (bankBytes c.op) = false ∧ ((bankRank c.who < 35 ∧
    ret = fun (t : State) => ((t.sector n.val).bankData, (t.sector n.val).bankPoison)) ∨ portOwner b.val = some c.who ∧
    ret = fun (t : State) => ((t.sector n.val).bankDataB, (t.sector n.val).bankPoisonB)) ∧ c.op = BankOp.atomic k x ∧ 131072 ≤ a) ∧
  (∃ (n : SectorId) (b : Fin 64) (s : State) (c : BankCall) (a : ℕ) (ret : State → BitVec 128 × Bool) (k : Fin 5) (x : Word64),
    a = 131072 * b.val + c.ofs.val ∧ s.sectorRuns n.val = true ∧ s.bankHolds (n.val) (131072 * b.val) = false ∧
    s.bankRefused (n.val) a c.who c.op = false ∧ c.ecc = EccResult.clean ∧
    (s.sector n.val).poisoned a (bankBytes c.op) = false ∧ ((bankRank c.who < 35 ∧
    ret = fun (t : State) => ((t.sector n.val).bankData, (t.sector n.val).bankPoison)) ∨ portOwner b.val = some c.who ∧
    ret = fun (t : State) => ((t.sector n.val).bankDataB, (t.sector n.val).bankPoisonB)) ∧ c.op = BankOp.atomic k x ∧ 131072 ≤ a) :=
  ⟨⟨0, 1, sBank, (callE (.read 16)), 0x20010, retA, 16, by decide +kernel, by decide +kernel, by decide +kernel,
    by decide +kernel, by decide +kernel, by decide +kernel, (.inl ⟨by decide, rfl⟩), by decide +kernel⟩,
   ⟨0, 8, sBank, (callE (.read 16)), 0x100010, retA, 16, 3, { who := .sequencer 3, ofs := 32, op := .read 4, ecc := .clean },
    by decide +kernel, by decide +kernel, by decide +kernel, by decide +kernel, by decide +kernel, by decide +kernel,
    (.inl ⟨by decide, rfl⟩), by decide +kernel, by decide +kernel, by decide +kernel, by decide +kernel, by decide +kernel⟩,
   ⟨0, 1, sBank, { callE (.write 4 5) with who := .router }, 0x20010, retB, 4, 5, by decide +kernel, by decide +kernel,
    by decide +kernel, by decide +kernel, by decide +kernel, by decide +kernel, (.inr ⟨by decide, rfl⟩), by decide +kernel⟩,
   ⟨0, 0, sBank, { callE (.write 16 0xFFFFFFFFFFFFFFFFFFFFFFFFFFFFFFFF) with who := .syncUnit }, 16, retB, 16,
    0xFFFFFFFFFFFFFFFFFFFFFFFFFFFFFFFF, by decide +kernel, by decide +kernel, by decide +kernel, by decide +kernel,
    by decide +kernel, by decide +kernel, (.inr ⟨by decide, rfl⟩), by decide +kernel⟩,
   ⟨0, 1, sBank, (callE (.atomic 0 0xFFFFFFFF)), 0x20010, retA, 0, 0xFFFFFFFF, by decide +kernel, by decide +kernel,
    by decide +kernel, by decide +kernel, by decide +kernel, by decide +kernel, (.inl ⟨by decide, rfl⟩), by decide +kernel,
    by decide +kernel⟩,
   ⟨0, 1, sBank, (callE (.atomic 4 5)), 0x20010, retA, 4, 5, by decide +kernel, by decide +kernel, by decide +kernel,
    by decide +kernel, by decide +kernel, by decide +kernel, (.inl ⟨by decide, rfl⟩), by decide +kernel, by decide +kernel⟩⟩

theorem witness_SynchronisationOperations :
  (∃ (n : SectorId) (s : State) (m : ℕ) (r : SyncReq) (rest : List Item) (q : SectorSt) (v : ℕ) (target : ℕ) (l : List
    Machine.Part), q = s.sector n.val ∧ q.toSync = Item.sync m r :: rest ∧ s.sectorRuns n.val = true ∧ (r.path = 0 ∨
    r.path = 2) ∧ s.bankHolds (n.val) (16 * r.obj) = false ∧ q.poisoned (16 * r.obj) 16 = false ∧
    v = (q.objWord r.obj 0 + r.operand) % 2 ^ 32 ∧ target = q.objWord r.obj 1 ∧ (q.objNotify r.obj = false ∨ v < target) ∧
    (l = if r.path = 2 then [Part.sectors, Part.flows] else [Part.sectors]) ∧ r.op = 1 ∧ q.objType r.obj = 1) ∧
  (∃ (n : SectorId) (s : State) (m : ℕ) (r : SyncReq) (rest : List Item) (q : SectorSt) (v : ℕ) (target : ℕ) (l : List
    Machine.Part), q = s.sector n.val ∧ q.toSync = Item.sync m r :: rest ∧ s.sectorRuns n.val = true ∧ (r.path = 0 ∨
    r.path = 2) ∧ s.bankHolds (n.val) (16 * r.obj) = false ∧ q.poisoned (16 * r.obj) 16 = false ∧
    v = (q.objWord r.obj 0 + r.operand) % 2 ^ 32 ∧ target = q.objWord r.obj 1 ∧ (q.objNotify r.obj = false ∨ v < target) ∧
    (l = if r.path = 2 then [Part.sectors, Part.flows] else [Part.sectors]) ∧ r.op = 1 ∧ q.objType r.obj = 1) ∧
  (∃ (n : SectorId) (s : State) (m : ℕ) (r : SyncReq) (rest : List Item) (q : SectorSt) (v : ℕ) (target : ℕ) (l : List
    Machine.Part), q = s.sector n.val ∧ q.toSync = Item.sync m r :: rest ∧ s.sectorRuns n.val = true ∧ (r.path = 0 ∨
    r.path = 2) ∧ s.bankHolds (n.val) (16 * r.obj) = false ∧ q.poisoned (16 * r.obj) 16 = false ∧
    v = (q.objWord r.obj 0 + r.operand) % 2 ^ 32 ∧ target = q.objWord r.obj 1 ∧ (q.objNotify r.obj = false ∨ v < target) ∧
    (l = if r.path = 2 then [Part.sectors, Part.flows] else [Part.sectors]) ∧ r.op = 2 ∧ q.objType r.obj = 2) ∧
  (∃ (n : SectorId) (s : State) (m : ℕ) (r : SyncReq) (rest : List Item) (q : SectorSt) (v : ℕ) (target : ℕ) (l : List
    Machine.Part), q = s.sector n.val ∧ q.toSync = Item.sync m r :: rest ∧ s.sectorRuns n.val = true ∧ (r.path = 0 ∨
    r.path = 2) ∧ s.bankHolds (n.val) (16 * r.obj) = false ∧ q.poisoned (16 * r.obj) 16 = false ∧
    v = (q.objWord r.obj 0 + r.operand) % 2 ^ 32 ∧ target = q.objWord r.obj 1 ∧ (q.objNotify r.obj = false ∨ v < target) ∧
    (l = if r.path = 2 then [Part.sectors, Part.flows] else [Part.sectors]) ∧ r.op = 3 ∧ q.objType r.obj = 3) ∧
  (∃ (n : SectorId) (s : State) (m : ℕ) (r : SyncReq) (rest : List Item) (q : SectorSt), q = s.sector n.val ∧
    q.toSync = Item.sync m r :: rest ∧ s.sectorRuns n.val = true ∧ s.engFree n.val = true ∧ r.path = 1 ∧
    s.bankHolds (n.val) (16 * r.obj) = false ∧ q.poisoned (16 * r.obj) 16 = false ∧ r.op = 4 ∧ q.objType r.obj = 3) ∧
  (∃ (n : SectorId) (s : State) (m : ℕ) (r : SyncReq) (rest : List Item) (q : SectorSt), q = s.sector n.val ∧
    q.toSync = Item.sync m r :: rest ∧ s.sectorRuns n.val = true ∧ s.engFree n.val = true ∧ r.path = 1 ∧
    s.bankHolds (n.val) (16 * r.obj) = false ∧ q.poisoned (16 * r.obj) 16 = false ∧ r.op = 5 ∧ (q.objType r.obj = 1 ∨
    q.objType r.obj = 3) ∧ r.operand < 2 ^ 32 ∧ (q.objWord r.obj 0 < r.operand ∨ q.objNotify r.obj = false)) ∧
  (∃ (n : SectorId) (s : State) (m : ℕ) (r : SyncReq) (rest : List Item) (q : SectorSt), q = s.sector n.val ∧
    q.toSync = Item.sync m r :: rest ∧ s.sectorRuns n.val = true ∧ s.engFree n.val = true ∧ r.path = 1 ∧
    s.bankHolds (n.val) (16 * r.obj) = false ∧ q.poisoned (16 * r.obj) 16 = false ∧ r.op = 6) ∧
  (∃ (n : SectorId) (o : Fin 8192) (s : State) (q : SectorSt) (c : ℕ) (k : ℕ) (x : QueueSt), q = s.sector n.val ∧
    c = q.objCore o.val ∧ k = q.objQueue o.val ∧ x = (s.core c).queue k ∧ s.sectorRuns n.val = true ∧
    s.bankHolds (n.val) (16 * o.val) = false ∧ q.objPending o.val = true ∧ sectorOf c = n.val ∧ x.isOpen = true ∧
    x.reqRoom = true) :=
  ⟨⟨0, (sSync 0x40 { op := 1, obj := 2, operand := 5 }), 0, { op := 1, obj := 2, operand := 5 }, [],
    (sSync 0x40 { op := 1, obj := 2, operand := 5 } |>.sector 0), 5, 100, [.sectors], by decide +kernel⟩,
   ⟨0, (sSync 0x40 { path := 2, flow := 9, mseq := 1, op := 1, obj := 2, operand := 200 }), 0,
    { path := 2, flow := 9, mseq := 1, op := 1, obj := 2, operand := 200 }, [],
    (sSync 0x40 { path := 2, flow := 9, mseq := 1, op := 1, obj := 2, operand := 200 } |>.sector 0), 200, 100,
    [.sectors, .flows], by decide +kernel⟩,
   ⟨0, (sSync 0x80 { op := 2, obj := 2, operand := 250 }), 0, { op := 2, obj := 2, operand := 250 }, [],
    (sSync 0x80 { op := 2, obj := 2, operand := 250 } |>.sector 0), 250, 100, [.sectors], by decide +kernel⟩,
   ⟨0, (sSync 0xC0 { op := 3, obj := 2, operand := 5 }), 0, { op := 3, obj := 2, operand := 5 }, [],
    (sSync 0xC0 { op := 3, obj := 2, operand := 5 } |>.sector 0), 5, 100, [.sectors], by decide +kernel⟩,
   ⟨0, (sSync 0xC0 { path := 1, op := 4, obj := 2, operand := 0 }), 0, { path := 1, op := 4, obj := 2, operand := 0 }, [],
    (sSync 0xC0 { path := 1, op := 4, obj := 2, operand := 0 } |>.sector 0), by decide +kernel⟩,
   ⟨0, (sSync 0xC0 { path := 1, op := 5, obj := 2, operand := 5 }), 0, { path := 1, op := 5, obj := 2, operand := 5 }, [],
    (sSync 0xC0 { path := 1, op := 5, obj := 2, operand := 5 } |>.sector 0), by decide +kernel⟩,
   ⟨0, (sSync 0xC0 { path := 1, op := 6, obj := 2, operand := 5 }), 0, { path := 1, op := 6, obj := 2, operand := 5 }, [],
    (sSync 0xC0 { path := 1, op := 6, obj := 2, operand := 5 } |>.sector 0), by decide +kernel⟩,
   ⟨0, 2, sPend, (sPend.sector 0), 0, 0, (sPend.core 0 |>.queue 0), by decide +kernel⟩⟩

theorem witness_DescriptorsAndStatus :
  (∃ (c : CoreId) (v : Word32) (s : State) (k : CoreSt) (n : ℕ) (r : ℕ) (why : ℕ) (d0 : Desc) (d : Desc), k = s.core c.val ∧
    n = sectorOf c.val ∧ d0 = { k with descSend := k.descSend.set 0 7 v }.sendDesc c.val ∧
    d =
    { w0 := d0.w0, w1 := d0.w1, w2 := d0.w2, w3 := d0.w3, ser := (s.sector n).posts + 1, reSer := if d0.dop = 2 then s.answered (c.val) d0 else 0 }
    ∧ r = k.postOutcome d ∧ why = s.senderCheck (c.val) d ∧ s.engServes c.val = true) ∧
  (∃ (c : CoreId) (v : Word32) (s : State) (k : CoreSt) (n : ℕ) (r : ℕ) (why : ℕ) (d0 : Desc) (d : Desc), k = s.core c.val ∧
    n = sectorOf c.val ∧ d0 = { k with descSend := k.descSend.set 0 7 v }.sendDesc c.val ∧
    d =
    { w0 := d0.w0, w1 := d0.w1, w2 := d0.w2, w3 := d0.w3, ser := (s.sector n).posts + 1, reSer := if d0.dop = 2 then s.answered (c.val) d0 else 0 }
    ∧ r = k.postOutcome d ∧ why = s.senderCheck (c.val) d ∧ s.engServes c.val = true) ∧
  (∃ (c : CoreId) (v : Word32) (s : State) (k : CoreSt) (n : ℕ) (r : ℕ) (why : ℕ) (d0 : Desc) (d : Desc), k = s.core c.val ∧
    n = sectorOf c.val ∧ d0 = { k with descSend := k.descSend.set 0 7 v }.sendDesc c.val ∧
    d =
    { w0 := d0.w0, w1 := d0.w1, w2 := d0.w2, w3 := d0.w3, ser := (s.sector n).posts + 1, reSer := if d0.dop = 2 then s.answered (c.val) d0 else 0 }
    ∧ r = k.postOutcome d ∧ why = s.senderCheck (c.val) d ∧ s.engServes c.val = true) ∧
  (∃ (c : CoreId) (v : Word32) (s : State) (k : CoreSt) (n : ℕ) (r : ℕ) (why : ℕ) (d0 : Desc) (d : Desc), k = s.core c.val ∧
    n = sectorOf c.val ∧ d0 = { k with descSend := k.descSend.set 0 7 v }.sendDesc c.val ∧
    d =
    { w0 := d0.w0, w1 := d0.w1, w2 := d0.w2, w3 := d0.w3, ser := (s.sector n).posts + 1, reSer := if d0.dop = 2 then s.answered (c.val) d0 else 0 }
    ∧ r = k.postOutcome d ∧ why = s.senderCheck (c.val) d ∧ s.engServes c.val = true) ∧
  (∃ (c : CoreId) (v : Word32) (s : State) (k : CoreSt) (n : ℕ) (r : ℕ) (why : ℕ) (d0 : Desc) (d : Desc), k = s.core c.val ∧
    n = sectorOf c.val ∧ d0 = { k with descSend := k.descSend.set 0 7 v }.sendDesc c.val ∧
    d =
    { w0 := d0.w0, w1 := d0.w1, w2 := d0.w2, w3 := d0.w3, ser := (s.sector n).posts + 1, reSer := if d0.dop = 2 then s.answered (c.val) d0 else 0 }
    ∧ r = k.postOutcome d ∧ why = s.senderCheck (c.val) d ∧ s.engServes c.val = true) ∧
  (∃ (n : SectorId) (s : State) (c : ℕ) (e : Word64) (cls : ℕ) (ser : ℕ) (rest : List Item) (o : Outstanding) (l : List
    Outstanding), (s.sector n.val).toDesc = Item.status c e cls ser :: rest ∧ s.sectorRuns n.val = true ∧
    takeOut ser (s.core c).outst = (some o, l) ∧ (s.core c).statusRoom cls = true) ∧
  (∃ (n : SectorId) (s : State) (c : ℕ) (e : Word64) (cls : ℕ) (ser : ℕ) (rest : List Item) (o : Outstanding) (l : List
    Outstanding), (s.sector n.val).toDesc = Item.status c e cls ser :: rest ∧ s.sectorRuns n.val = true ∧
    takeOut ser (s.core c).outst = (some o, l) ∧ (s.core c).statusRoom cls = false) ∧
  (∃ (n : SectorId) (s : State) (c : ℕ) (e : Word64) (cls : ℕ) (ser : ℕ) (rest : List Item),
    (s.sector n.val).toDesc = Item.status c e cls ser :: rest ∧ s.sectorRuns n.val = true ∧
    (takeOut ser (s.core c).outst).1 = none) ∧
  (∃ (c : CoreId) (s : State), s.sectorRuns (sectorOf c.val) = true ∧ (s.core c.val).statusFifo = []) ∧
  (∃ (c : CoreId) (s : State) (e : Word64) (cls : ℕ) (rest : List (Word64 × ℕ)), s.sectorRuns (sectorOf c.val) = true ∧
    (s.core c.val).statusFifo = (e, cls) :: rest) ∧
  (∃ (c : CoreId) (s : State) (e : Word64) (cls : ℕ) (rest : List (Word64 × ℕ)), s.sectorRuns (sectorOf c.val) = true ∧
    (s.core c.val).statusFifo = (e, cls) :: rest) ∧
  (∃ (c : CoreId) (s : State) (g : Tab ℕ), s.engServes c.val = true ∧ (s.core c.val).gate = some g ∧
    (s.core c.val).drained g = true) ∧
  (∃ (n : SectorId) (s : State) (c : ℕ) (q : ℕ) (src : ℕ) (rest : List Item),
    (s.sector n.val).toDesc = Item.mark c q src :: rest ∧ s.sectorRuns n.val = true) :=
  ⟨⟨3, 0, (sPost 0x20030000 none), (kPost 0x20030000 none), 0, 0, ((sPost 0x20030000 none).senderCheck 3 (dPosted 0x20030000
    none)), (dPost 0x20030000 none), (dPosted 0x20030000 none), by decide +kernel⟩,
   ⟨3, 0, (sPost 0x20030000 (some [])), (kPost 0x20030000 (some [])), 0,
    ((kPost 0x20030000 (some [])).postOutcome (dPosted 0x20030000 (some []))),
    ((sPost 0x20030000 (some [])).senderCheck 3 (dPosted 0x20030000 (some []))), (dPost 0x20030000 (some [])),
    (dPosted 0x20030000 (some [])), by decide +kernel⟩,
   ⟨3, 0, sMove, (sMove.core 3), 0, 0, 0, dMove, { dMove with ser := 1 }, by decide +kernel⟩,
   ⟨3, 0, sReq, (sReq.core 3), 0, 0, 0, dReq, { dReq with ser := 1 }, by decide +kernel⟩,
   ⟨3, 0, sSyn, (sSyn.core 3), 0, 0, 0, dSyn, { dSyn with ser := 1 }, by decide +kernel⟩,
   ⟨0, (coreSec { outst := [{ cls := 0, desc := { w0 := 7, ser := 4 } }] }
    { powered := true, toDesc := [.status 3 (statusWord stDone 0 7 1) 0 4] }), 3, (statusWord stDone 0 7 1), 0, 4, [],
    { cls := 0, desc := { w0 := 7, ser := 4 } }, [], by decide +kernel⟩,
   ⟨0, (coreSec { statusFifo := List.replicate 128 (0, 0), outst := [{ cls := 0, desc := { w0 := 7, ser := 4 } }] }
    { powered := true, toDesc := [.status 3 (statusWord stDone 0 7 1) 0 4] }), 3, (statusWord stDone 0 7 1), 0, 4, [],
    { cls := 0, desc := { w0 := 7, ser := 4 } }, [], by decide +kernel⟩,
   ⟨0, (coreSec {} { powered := true, toDesc := [.status 3 (statusWord stDone 0 7 1) 0 4] }), 3, (statusWord stDone 0 7 1), 0, 4,
    [], by decide +kernel⟩,
   ⟨3, (upCore {}), by decide +kernel⟩,
   ⟨3, (upCore { statusFifo := [(statusWord stDone 0 7 1, 0)] }), (statusWord stDone 0 7 1), 0, [], by decide +kernel⟩,
   ⟨3, (upCore { statusFifo := [(statusWord stNak nakFull 7 1, 0)], epoch := 255 }), (statusWord stNak nakFull 7 1), 0, [],
    by decide +kernel⟩,
   ⟨3, (upCore { gate := some [(1, 3)], queues := [(1, { queueO with reqNext := 3 })], gateMarks := [82] }), [(1, 3)],
    by decide +kernel⟩,
   ⟨0, (coreSec { queues := [(2, { marks := [(9, 1)] })] } { powered := true, toDesc := [.mark 3 2 9] }), 3, 2, 9, [],
    by decide +kernel⟩⟩

theorem witness_QueueReaderCommands :
  (∃ (c : CoreId) (q : Fin 16) (s : State) (k : CoreSt) (x : QueueSt) (n : ℕ), k = s.core c.val ∧ x = k.queue q.val ∧
    n = sectorOf c.val ∧ s.engServes c.val = true ∧ s.ringHeld c.val q.val = false ∧ x.isOpen = true ∧ x.reqs[x.taken]? = none) ∧
  (∃ (c : CoreId) (q : Fin 16) (s : State) (k : CoreSt) (x : QueueSt) (n : ℕ) (e : QEntry) (d : Desc), k = s.core c.val ∧
    x = k.queue q.val ∧ n = sectorOf c.val ∧ s.engServes c.val = true ∧ s.ringHeld c.val q.val = false ∧ x.isOpen = true ∧
    x.reqs[x.taken]? = some e ∧ d = s.entryAt (c.val) (x.reqAt e.slot) e ∧ (s.sector n).pendingFor c.val q.val = []) ∧
  (∃ (c : CoreId) (q : Fin 16) (s : State) (k : CoreSt) (x : QueueSt) (n : ℕ) (e : QEntry) (d : Desc), k = s.core c.val ∧
    x = k.queue q.val ∧ n = sectorOf c.val ∧ s.engServes c.val = true ∧ s.ringHeld c.val q.val = false ∧ x.isOpen = true ∧
    x.reqs[x.taken]? = some e ∧ d = s.entryAt (c.val) (x.reqAt e.slot) e ∧ (s.sector n).pendingFor c.val q.val = []) ∧
  (∃ (c : CoreId) (q : Fin 16) (s : State) (k : CoreSt) (x : QueueSt) (n : ℕ), k = s.core c.val ∧ x = k.queue q.val ∧
    n = sectorOf c.val ∧ s.engServes c.val = true ∧ s.ringHeld c.val q.val = false ∧ x.isOpen = true ∧ x.rpls = []) ∧
  (∃ (c : CoreId) (q : Fin 16) (s : State) (k : CoreSt) (x : QueueSt) (n : ℕ) (e : QEntry) (rest : List QEntry) (d : Desc) (b :
    Bool), k = s.core c.val ∧ x = k.queue q.val ∧ n = sectorOf c.val ∧ s.engServes c.val = true ∧
    s.ringHeld c.val q.val = false ∧ x.isOpen = true ∧ x.rpls = e :: rest ∧ d = s.entryAt (c.val) (x.rplAt e.slot) e ∧
    b = (s.sector n).poisoned (x.rplAt e.slot) 32) ∧
  (∃ (c : CoreId) (q : Fin 16) (s : State) (k : CoreSt) (x : QueueSt) (n : ℕ) (e : QEntry) (rest : List QEntry) (d : Desc),
    k = s.core c.val ∧ x = k.queue q.val ∧ n = sectorOf c.val ∧ s.engServes c.val = true ∧ s.ringHeld c.val q.val = false ∧
    x.isOpen = true ∧ x.taken ≠ 0 ∧ x.reqs = e :: rest ∧ d = s.entryAt (c.val) (x.reqAt e.slot) e ∧
    (s.sector n).pendingFor c.val q.val = []) ∧
  (∃ (c : CoreId) (q : Fin 16) (s : State) (k : CoreSt) (x : QueueSt) (n : ℕ), k = s.core c.val ∧ x = k.queue q.val ∧
    n = sectorOf c.val ∧ s.engServes c.val = true ∧ s.ringHeld c.val q.val = false ∧ x.isOpen = true) :=
  ⟨⟨3, 2, (sQ queueO), { queues := [(2, queueO)] }, queueO, 0, by decide +kernel⟩,
   ⟨3, 2, (sQ queueE), { queues := [(2, queueE)] }, queueE, 0, { slot := 0, seq := 0 },
    ((sQ queueE).entryAt 3 0x30000 { slot := 0, seq := 0 }), by decide +kernel⟩,
   ⟨3, 2, (sQp queueE), { queues := [(2, queueE)] }, queueE, 0, { slot := 0, seq := 0 },
    ((sQp queueE).entryAt 3 0x30000 { slot := 0, seq := 0 }), by decide +kernel⟩,
   ⟨3, 2, (sQ queueO), { queues := [(2, queueO)] }, queueO, 0, by decide +kernel⟩,
   ⟨3, 2, (sQ queueE), { queues := [(2, queueE)] }, queueE, 0, { slot := 0, seq := 0 }, [],
    ((sQ queueE).entryAt 3 (queueE.rplAt 0) { slot := 0, seq := 0 }), false, by decide +kernel⟩,
   ⟨3, 2, (sQ { queueE with taken := 1 }), { queues := [(2, { queueE with taken := 1 })] }, { queueE with taken := 1 }, 0,
    { slot := 0, seq := 0 }, [], ((sQ queueE).entryAt 3 0x30000 { slot := 0, seq := 0 }), by decide +kernel⟩,
   ⟨3, 2, (sQ queueE), { queues := [(2, queueE)] }, queueE, 0, by decide +kernel⟩⟩

theorem witness_DescriptorEngineDelivers :
  (∃ (n : SectorId) (s : State) (from_ : ℕ) (d : Desc) (x : QueueSt) (rest : List Item) (st : ℕ → ℕ → Item) (why : ℕ),
    (s.sector n.val).toDesc = Item.desc from_ d :: rest ∧ s.sectorRuns n.val = true ∧ s.engFree n.val = true ∧
    sectorOf d.dst = n.val ∧ x = (s.core d.dst).queue d.dstQ ∧ s.ringHeld d.dst d.dstQ = false ∧ (∀ (a b : ℕ),
    st a b = Item.status d.src (statusWord a b d.tag 0) d.cls d.ser) ∧ d.dop = 1 ∧ s.endedPost d = false ∧ (why = nakNoQueue ∧
    ((s.sector n.val).mstate (indexOf d.dst) = 2 ∨ x.valid = false) ∨ (s.sector n.val).mstate (indexOf d.dst) ≠ 2 ∧
    x.valid = true ∧ (why = nakClosed ∧ x.closed = true ∨ why = nakFull ∧ x.closed = false ∧ x.marks.get 0 d.src = d.epoch + 1))) ∧
  (∃ (n : SectorId) (s : State) (from_ : ℕ) (d : Desc) (x : QueueSt) (rest : List Item) (st : ℕ → ℕ → Item) (why : ℕ),
    (s.sector n.val).toDesc = Item.desc from_ d :: rest ∧ s.sectorRuns n.val = true ∧ s.engFree n.val = true ∧
    sectorOf d.dst = n.val ∧ x = (s.core d.dst).queue d.dstQ ∧ s.ringHeld d.dst d.dstQ = false ∧ (∀ (a b : ℕ),
    st a b = Item.status d.src (statusWord a b d.tag 0) d.cls d.ser) ∧ d.dop = 1 ∧ s.endedPost d = false ∧ (why = nakNoQueue ∧
    ((s.sector n.val).mstate (indexOf d.dst) = 2 ∨ x.valid = false) ∨ (s.sector n.val).mstate (indexOf d.dst) ≠ 2 ∧
    x.valid = true ∧ (why = nakClosed ∧ x.closed = true ∨ why = nakFull ∧ x.closed = false ∧ x.marks.get 0 d.src = d.epoch + 1))) ∧
  (∃ (n : SectorId) (s : State) (from_ : ℕ) (d : Desc) (x : QueueSt) (rest : List Item) (st : ℕ → ℕ → Item) (why : ℕ),
    (s.sector n.val).toDesc = Item.desc from_ d :: rest ∧ s.sectorRuns n.val = true ∧ s.engFree n.val = true ∧
    sectorOf d.dst = n.val ∧ x = (s.core d.dst).queue d.dstQ ∧ s.ringHeld d.dst d.dstQ = false ∧ (∀ (a b : ℕ),
    st a b = Item.status d.src (statusWord a b d.tag 0) d.cls d.ser) ∧ d.dop = 1 ∧ s.endedPost d = false ∧ (why = nakNoQueue ∧
    ((s.sector n.val).mstate (indexOf d.dst) = 2 ∨ x.valid = false) ∨ (s.sector n.val).mstate (indexOf d.dst) ≠ 2 ∧
    x.valid = true ∧ (why = nakClosed ∧ x.closed = true ∨ why = nakFull ∧ x.closed = false ∧ x.marks.get 0 d.src = d.epoch + 1))) ∧
  (∃ (n : SectorId) (s : State) (from_ : ℕ) (d : Desc) (x : QueueSt) (rest : List Item) (st : ℕ → ℕ → Item),
    (s.sector n.val).toDesc = Item.desc from_ d :: rest ∧ s.sectorRuns n.val = true ∧ s.engFree n.val = true ∧
    sectorOf d.dst = n.val ∧ x = (s.core d.dst).queue d.dstQ ∧ s.ringHeld d.dst d.dstQ = false ∧ (∀ (a b : ℕ),
    st a b = Item.status d.src (statusWord a b d.tag 0) d.cls d.ser) ∧ d.dop = 1 ∧ s.endedPost d = false ∧
    (s.sector n.val).mstate (indexOf d.dst) ≠ 2 ∧ x.isOpen = true ∧ x.marks.get 0 d.src ≠ d.epoch + 1 ∧
    (s.sector n.val).pendingFor d.dst d.dstQ = [] ∧ x.reqRoom = true) ∧
  (∃ (n : SectorId) (s : State) (from_ : ℕ) (d : Desc) (x : QueueSt) (rest : List Item) (st : ℕ → ℕ → Item),
    (s.sector n.val).toDesc = Item.desc from_ d :: rest ∧ s.sectorRuns n.val = true ∧ s.engFree n.val = true ∧
    sectorOf d.dst = n.val ∧ x = (s.core d.dst).queue d.dstQ ∧ s.ringHeld d.dst d.dstQ = false ∧ (∀ (a b : ℕ),
    st a b = Item.status d.src (statusWord a b d.tag 0) d.cls d.ser) ∧ d.dop = 1 ∧ s.endedPost d = false ∧
    (s.sector n.val).mstate (indexOf d.dst) ≠ 2 ∧ x.isOpen = true ∧ x.marks.get 0 d.src ≠ d.epoch + 1 ∧
    (s.sector n.val).pendingFor d.dst d.dstQ = [] ∧ x.reqRoom = false) ∧
  (∃ (n : SectorId) (s : State) (from_ : ℕ) (d : Desc) (x : QueueSt) (rest : List Item) (st : ℕ → ℕ → Item) (of : ℕ),
    (s.sector n.val).toDesc = Item.desc from_ d :: rest ∧ s.sectorRuns n.val = true ∧ s.engFree n.val = true ∧
    sectorOf d.dst = n.val ∧ x = (s.core d.dst).queue d.dstQ ∧ s.ringHeld d.dst d.dstQ = false ∧ (∀ (a b : ℕ),
    st a b = Item.status d.src (statusWord a b d.tag 0) d.cls d.ser) ∧
    (of = if d.reSer = 0 then x.reserved.headD 0 else d.reSer) ∧ d.dop = 2 ∧ (s.sector n.val).mstate (indexOf d.dst) ≠ 2 ∧
    x.valid = true ∧ x.closed = false ∧ x.reserved.contains of = true) ∧
  (∃ (n : SectorId) (s : State) (from_ : ℕ) (d : Desc) (x : QueueSt) (rest : List Item) (st : ℕ → ℕ → Item) (of : ℕ),
    (s.sector n.val).toDesc = Item.desc from_ d :: rest ∧ s.sectorRuns n.val = true ∧ s.engFree n.val = true ∧
    sectorOf d.dst = n.val ∧ x = (s.core d.dst).queue d.dstQ ∧ s.ringHeld d.dst d.dstQ = false ∧ (∀ (a b : ℕ),
    st a b = Item.status d.src (statusWord a b d.tag 0) d.cls d.ser) ∧
    (of = if d.reSer = 0 then x.reserved.headD 0 else d.reSer) ∧ d.dop = 2 ∧ (s.sector n.val).mstate (indexOf d.dst) ≠ 2 ∧
    x.valid = true ∧ (x.closed = true ∨ x.reserved.contains of = false)) ∧
  (∃ (c : CoreId) (s : State) (n : ℕ) (from_ : ℕ) (d : Desc) (rest : List Item), n = sectorOf c.val ∧ s.sectorRuns n = true ∧
    s.engFree n = true ∧ (s.sector n).toDesc = Item.desc from_ d :: rest ∧ d.src = c.val ∧ d.dop = 5) ∧
  (∃ (c : CoreId) (s : State) (n : ℕ) (good : ℕ) (m : MoveSt) (l : List MoveSt), n = sectorOf c.val ∧ s.sectorRuns n = true ∧
    takeMove (c.val) (s.sector n).moves = (some m, l) ∧ m.desc.space = 0 ∧ m.desc.dest.1 = 0 ∧ s.moveHeld n m.desc = false ∧
    good = s.cleanBytes 0 n m.desc.ofs m.desc.len) :=
  ⟨⟨0, (sEng {} (descW 1 3 4)), 3, (descW 1 3 4), {}, [], (stOf (descW 1 3 4)), nakNoQueue,
    by (and_intros <;> first | decide +kernel | (intros; rfl))⟩,
   ⟨0, (sEng { queueO with closed := true } (descW 1 3 4)), 3, (descW 1 3 4), { queueO with closed := true }, [],
    (stOf (descW 1 3 4)), nakClosed, by (and_intros <;> first | decide +kernel | (intros; rfl))⟩,
   ⟨0, (sEng { queueO with marks := [(4, 1)] } (descW 1 3 4)), 3, (descW 1 3 4), { queueO with marks := [(4, 1)] }, [],
    (stOf (descW 1 3 4)), nakFull, by (and_intros <;> first | decide +kernel | (intros; rfl))⟩,
   ⟨0, (sEng queueO (descW 1 3 4)), 3, (descW 1 3 4), queueO, [], (stOf (descW 1 3 4)),
    by (and_intros <;> first | decide +kernel | (intros; rfl))⟩,
   ⟨0, (sEng { queueE with cfg := 0x80000000 } (descW 1 3 4)), 3, (descW 1 3 4), { queueE with cfg := 0x80000000 }, [],
    (stOf (descW 1 3 4)), by (and_intros <;> first | decide +kernel | (intros; rfl))⟩,
   ⟨0, (sEng { queueO with reserved := [8] } { descW 2 3 4 with reSer := 8 }), 3, { descW 2 3 4 with reSer := 8 },
    { queueO with reserved := [8] }, [], (stOf { descW 2 3 4 with reSer := 8 }), 8,
    by (and_intros <;> first | decide +kernel | (intros; rfl))⟩,
   ⟨0, (sEng queueO { descW 2 3 4 with reSer := 8 }), 3, { descW 2 3 4 with reSer := 8 }, queueO, [],
    (stOf { descW 2 3 4 with reSer := 8 }), 8, by (and_intros <;> first | decide +kernel | (intros; rfl))⟩,
   ⟨3, (upSec { powered := true, toDesc := [.desc 9 (descW 5 0 3)] }), 0, 9, (descW 5 0 3), [], by decide +kernel⟩,
   ⟨3, (upSec
    { powered := true, mem := [(0x30000, 7)], moves := [{ core := 3, desc := { w1 := 0x30000, w2 := 0x800000000, w3 := 0x40000 } }] }),
    0, 8, { core := 3, desc := { w1 := 0x30000, w2 := 0x800000000, w3 := 0x40000 } }, [], by decide +kernel⟩⟩

theorem witness_FlowRecordsAndTimers :
  (∃ (f : FlowId) (s : State) (x : FlowSt) (m : Msg) (rest : List Msg) (u : ℕ) (a : ℕ), x = s.flow f.val ∧ x.srcQ = m :: rest ∧
    x.fstate = flowOpen ∧ u = recUnits m.body.length ∧ x.rtxUsed + u ≤ x.rtxUnits ∧ x.rtx.length < 2 ^ 30 ∧
    a = rtxBase + 64 * x.rtxTail ∧ ∀ (b n : ℕ), s.gHeld b n = false) ∧
  (∃ (f : FlowId) (s : State) (x : FlowSt) (m : Msg) (rest : List Msg) (u : ℕ) (a : ℕ), x = s.flow f.val ∧ x.srcQ = m :: rest ∧
    x.fstate = flowOpen ∧ u = recUnits m.body.length ∧ x.rtxUsed + u ≤ x.rtxUnits ∧ x.rtx.length < 2 ^ 30 ∧
    a = rtxBase + 64 * x.rtxTail ∧ ∀ (b n : ℕ), s.gHeld b n = false) ∧
  (∃ (f : FlowId) (s : State) (x : FlowSt), x = s.flow f.val ∧ x.fstate ≠ flowClosed ∧ x.fstate ≠ flowOpening ∧ x.unacked = true ∧
    x.rtoAt + x.rto * 1000 ≤ s.now) ∧
  (∃ (f : FlowId) (s : State) (x : FlowSt), x = s.flow f.val ∧ x.fstate ≠ flowClosed ∧ x.fstate ≠ flowOpening ∧ x.unacked = true ∧
    x.stalled = false ∧ x.lastProgress + 1000000000 ≤ s.now) ∧
  (∃ (f : FlowId) (s : State) (x : FlowSt), x = s.flow f.val ∧ x.fstate ≠ flowClosed ∧ x.fstate ≠ flowOpening ∧ x.unacked = true ∧
    x.stalled = false ∧ x.lastProgress + 1000000000 ≤ s.now) ∧
  (∃ (f : FlowId) (s : State) (x : FlowSt), x = s.flow f.val ∧ x.fstate ≠ flowClosed ∧ x.fstate ≠ flowOpening ∧
    s.gHeld (commitBase + 32 * f.val) 32 = false) :=
  ⟨⟨9, (upFlow (flowQ 0)), (flowQ 0), { kind := 1, body := zeros 16 }, [], 1, rtxBase, by decide +kernel, by decide +kernel,
    by decide +kernel, by decide +kernel, by decide +kernel, by decide +kernel, by decide +kernel, (fun _ _ => rfl)⟩,
   ⟨9, (upFlow (flowQ 4096)), (flowQ 4096), { kind := 1, body := zeros 16 }, [], 1, rtxBase, by decide +kernel, by decide +kernel,
    by decide +kernel, by decide +kernel, by decide +kernel, by decide +kernel, by decide +kernel, (fun _ _ => rfl)⟩,
   ⟨9, (upFlow flowR), flowR, by decide +kernel⟩,
   ⟨9, (upFlow flowR), flowR, by decide +kernel⟩,
   ⟨9, { upFlow flowR with pcie := { linkUp := true, flowEv := List.replicate 256 (0, 0) } }, flowR, by decide +kernel⟩,
   ⟨9, (upFlow flowO), flowO, by decide +kernel⟩⟩

set_option maxRecDepth 8000 in
theorem witness_SegmentsAreAssembled :
  (∃ (p : PortId) (s : State) (u : State) (g : Seg) (f : ℕ) (x : FlowSt) (sc : ℕ) (i : ℕ) (id : ℕ),
    (s.takeRx p.val fun (g : Seg) => decide (g.kind < 5) || decide (7 < g.kind)) = some (g, u) ∧ f = g.dstFlow ∧ x = s.flow f ∧
    (49152 ≤ f ∧ sc = Scope.device ∧ i = 0 ∧ id = Ctr.e2eNoFlow ∨ f < 49152 ∧ g.e2e ≠ g.crc ∧ sc = Scope.flow ∧ i = f ∧
    id = Ctr.e2eCrcErr ∨ f < 49152 ∧ g.e2e = g.crc ∧ (x.fstate = flowClosed ∨ g.srcDev ≠ x.peerDev) ∧ sc = Scope.device ∧
    i = 0 ∧ id = Ctr.e2eNoFlow ∨ f < 49152 ∧ g.e2e = g.crc ∧ x.fstate ≠ flowClosed ∧ g.srcDev = x.peerDev ∧ g.epoch ≠ x.epoch ∧
    sc = Scope.flow ∧ i = f ∧ id = Ctr.e2eStaleEpoch)) ∧
  (∃ (p : PortId) (s : State) (u : State) (g : Seg) (f : ℕ) (x : FlowSt) (sc : ℕ) (i : ℕ) (id : ℕ),
    (s.takeRx p.val fun (g : Seg) => decide (g.kind < 5) || decide (7 < g.kind)) = some (g, u) ∧ f = g.dstFlow ∧ x = s.flow f ∧
    (49152 ≤ f ∧ sc = Scope.device ∧ i = 0 ∧ id = Ctr.e2eNoFlow ∨ f < 49152 ∧ g.e2e ≠ g.crc ∧ sc = Scope.flow ∧ i = f ∧
    id = Ctr.e2eCrcErr ∨ f < 49152 ∧ g.e2e = g.crc ∧ (x.fstate = flowClosed ∨ g.srcDev ≠ x.peerDev) ∧ sc = Scope.device ∧
    i = 0 ∧ id = Ctr.e2eNoFlow ∨ f < 49152 ∧ g.e2e = g.crc ∧ x.fstate ≠ flowClosed ∧ g.srcDev = x.peerDev ∧ g.epoch ≠ x.epoch ∧
    sc = Scope.flow ∧ i = f ∧ id = Ctr.e2eStaleEpoch)) ∧
  (∃ (p : PortId) (s : State) (u : State) (g : Seg) (f : ℕ) (x : FlowSt) (sc : ℕ) (i : ℕ) (id : ℕ),
    (s.takeRx p.val fun (g : Seg) => decide (g.kind < 5) || decide (7 < g.kind)) = some (g, u) ∧ f = g.dstFlow ∧ x = s.flow f ∧
    (49152 ≤ f ∧ sc = Scope.device ∧ i = 0 ∧ id = Ctr.e2eNoFlow ∨ f < 49152 ∧ g.e2e ≠ g.crc ∧ sc = Scope.flow ∧ i = f ∧
    id = Ctr.e2eCrcErr ∨ f < 49152 ∧ g.e2e = g.crc ∧ (x.fstate = flowClosed ∨ g.srcDev ≠ x.peerDev) ∧ sc = Scope.device ∧
    i = 0 ∧ id = Ctr.e2eNoFlow ∨ f < 49152 ∧ g.e2e = g.crc ∧ x.fstate ≠ flowClosed ∧ g.srcDev = x.peerDev ∧ g.epoch ≠ x.epoch ∧
    sc = Scope.flow ∧ i = f ∧ id = Ctr.e2eStaleEpoch)) ∧
  (∃ (p : PortId) (s : State) (u : State) (g : Seg) (f : ℕ) (x : FlowSt) (sc : ℕ) (i : ℕ) (id : ℕ),
    (s.takeRx p.val fun (g : Seg) => decide (g.kind < 5) || decide (7 < g.kind)) = some (g, u) ∧ f = g.dstFlow ∧ x = s.flow f ∧
    (49152 ≤ f ∧ sc = Scope.device ∧ i = 0 ∧ id = Ctr.e2eNoFlow ∨ f < 49152 ∧ g.e2e ≠ g.crc ∧ sc = Scope.flow ∧ i = f ∧
    id = Ctr.e2eCrcErr ∨ f < 49152 ∧ g.e2e = g.crc ∧ (x.fstate = flowClosed ∨ g.srcDev ≠ x.peerDev) ∧ sc = Scope.device ∧
    i = 0 ∧ id = Ctr.e2eNoFlow ∨ f < 49152 ∧ g.e2e = g.crc ∧ x.fstate ≠ flowClosed ∧ g.srcDev = x.peerDev ∧ g.epoch ≠ x.epoch ∧
    sc = Scope.flow ∧ i = f ∧ id = Ctr.e2eStaleEpoch)) ∧
  (∃ (p : PortId) (s : State) (u : State) (g : Seg) (f : ℕ) (x : FlowSt),
    (s.takeRx p.val fun (g : Seg) => decide (g.kind < 5) || decide (7 < g.kind)) = some (g, u) ∧ f = g.dstFlow ∧ x = s.flow f ∧
    u.badSeg g = none ∧ g.mseq = seqNext x.rxArrived ∧ seqLe g.mseq x.rxArrived = false ∧ g.seg = x.nextSeg ∧ g.last = true ∧
    ∀ (a n : ℕ), s.gHeld a n = false) ∧
  (∃ (p : PortId) (s : State) (u : State) (g : Seg) (f : ℕ) (x : FlowSt),
    (s.takeRx p.val fun (g : Seg) => decide (g.kind < 5) || decide (7 < g.kind)) = some (g, u) ∧ f = g.dstFlow ∧ x = s.flow f ∧
    u.badSeg g = none ∧ g.mseq = seqNext x.rxArrived ∧ seqLe g.mseq x.rxArrived = false ∧ g.seg = x.nextSeg ∧ g.last = false) ∧
  (∃ (p : PortId) (s : State) (u : State) (g : Seg) (f : ℕ) (x : FlowSt),
    (s.takeRx p.val fun (g : Seg) => decide (g.kind < 5) || decide (7 < g.kind)) = some (g, u) ∧ f = g.dstFlow ∧ x = s.flow f ∧
    u.badSeg g = none ∧ seqLe g.mseq x.rxArrived = true) ∧
  (∃ (p : PortId) (s : State) (u : State) (g : Seg) (f : ℕ) (x : FlowSt),
    (s.takeRx p.val fun (g : Seg) => decide (g.kind < 5) || decide (7 < g.kind)) = some (g, u) ∧ f = g.dstFlow ∧ x = s.flow f ∧
    u.badSeg g = none ∧ seqLe g.mseq x.rxArrived = false ∧ (g.mseq ≠ seqNext x.rxArrived ∨ g.seg ≠ x.nextSeg)) ∧
  (∃ (f : FlowId) (s : State) (x : FlowSt) (gap : Bool) (p : ℕ) (v : ℕ) (due : List (ℕ × ℕ)) (body : List Byte),
    x = s.flow f.val ∧ x.fstate ≠ flowClosed ∧ x.fstate ≠ flowOpening ∧ (if gap = true then x.gapDue else x.ackDue) = true ∧
    due = List.take 16 (List.filter (fun (r : ℕ × ℕ) => seqLe r.1 x.rxWm) x.refused) ∧
    body = toLe 4 x.rxWm ++ toLe 4 x.rxArrived ++ toLe 8 (x.stgFree % 2 ^ 32 + due.length * 2 ^ 32 + b2n gap * 2 ^ 37) ++
    List.flatMap (fun (r : ℕ × ℕ) => toLe 8 (r.1 * 2 ^ 32 + r.2 % 16)) due ∧ s.routeTo x.peerDev = some (p, v) ∧
    s.gHeld (commitBase + 32 * f.val) 32 = false) ∧
  (∃ (f : FlowId) (s : State) (x : FlowSt) (gap : Bool) (p : ℕ) (v : ℕ) (due : List (ℕ × ℕ)) (body : List Byte),
    x = s.flow f.val ∧ x.fstate ≠ flowClosed ∧ x.fstate ≠ flowOpening ∧ (if gap = true then x.gapDue else x.ackDue) = true ∧
    due = List.take 16 (List.filter (fun (r : ℕ × ℕ) => seqLe r.1 x.rxWm) x.refused) ∧
    body = toLe 4 x.rxWm ++ toLe 4 x.rxArrived ++ toLe 8 (x.stgFree % 2 ^ 32 + due.length * 2 ^ 32 + b2n gap * 2 ^ 37) ++
    List.flatMap (fun (r : ℕ × ℕ) => toLe 8 (r.1 * 2 ^ 32 + r.2 % 16)) due ∧ s.routeTo x.peerDev = some (p, v) ∧
    s.gHeld (commitBase + 32 * f.val) 32 = false) :=
  ⟨⟨0, (rxFlow flowO { segM 1 2 0 true 8 (zeros 8) with dstFlow := 49152 }),
    (rxAfter flowO { segM 1 2 0 true 8 (zeros 8) with dstFlow := 49152 }),
    (rxSeg { segM 1 2 0 true 8 (zeros 8) with dstFlow := 49152 }), 49152, {}, Scope.device, 0, Ctr.e2eNoFlow, by decide +kernel⟩,
   ⟨0, (rxFlow flowO { segM 1 2 0 true 8 (zeros 8) with crc := 1 }),
    (rxAfter flowO { segM 1 2 0 true 8 (zeros 8) with crc := 1 }), (rxSeg { segM 1 2 0 true 8 (zeros 8) with crc := 1 }), 9,
    flowO, Scope.flow, 9, Ctr.e2eCrcErr, by decide +kernel⟩,
   ⟨0, (rxFlow { flowO with peerDev := 8 } (segM 1 2 0 true 8 (zeros 8))),
    (rxAfter { flowO with peerDev := 8 } (segM 1 2 0 true 8 (zeros 8))), (rxSeg (segM 1 2 0 true 8 (zeros 8))), 9,
    { flowO with peerDev := 8 }, Scope.device, 0, Ctr.e2eNoFlow, by decide +kernel⟩,
   ⟨0, (rxFlow { flowO with epoch := 2 } (segM 1 2 0 true 8 (zeros 8))),
    (rxAfter { flowO with epoch := 2 } (segM 1 2 0 true 8 (zeros 8))), (rxSeg (segM 1 2 0 true 8 (zeros 8))), 9,
    { flowO with epoch := 2 }, Scope.flow, 9, Ctr.e2eStaleEpoch, by decide +kernel⟩,
   ⟨0, (rxFlow flowO (segM 1 2 0 true 8 (zeros 8))), (rxAfter flowO (segM 1 2 0 true 8 (zeros 8))),
    (rxSeg (segM 1 2 0 true 8 (zeros 8))), 9, flowO, by decide +kernel, by decide +kernel, by decide +kernel,
    by decide +kernel, by decide +kernel, by decide +kernel, by decide +kernel, by decide +kernel, (fun _ _ => rfl)⟩,
   ⟨0, (rxFlow flowO (segM 1 2 0 false 1032 (zeros 1024))), (rxAfter flowO (segM 1 2 0 false 1032 (zeros 1024))),
    (rxSeg (segM 1 2 0 false 1032 (zeros 1024))), 9, flowO, by decide +kernel⟩,
   ⟨0, (rxFlow flowO (segM 0 2 0 true 8 (zeros 8))), (rxAfter flowO (segM 0 2 0 true 8 (zeros 8))),
    (rxSeg (segM 0 2 0 true 8 (zeros 8))), 9, flowO, by decide +kernel⟩,
   ⟨0, (rxFlow flowO (segM 2 2 0 true 8 (zeros 8))), (rxAfter flowO (segM 2 2 0 true 8 (zeros 8))),
    (rxSeg (segM 2 2 0 true 8 (zeros 8))), 9, flowO, by decide +kernel⟩,
   ⟨9, (upFlow { flowO with ackDue := true, refused := [(1, 8)], rxWm := 1 }),
    { flowO with ackDue := true, refused := [(1, 8)], rxWm := 1 }, false, 4, 0, [(1, 8)],
    (toLe 4 1 ++ toLe 4 0 ++ toLe 8 (1024 + 2 ^ 32) ++ toLe 8 (2 ^ 32 + 8)), by decide +kernel⟩,
   ⟨9, (upFlow { flowO with gapDue := true }), { flowO with gapDue := true }, true, 4, 0, [],
    (toLe 4 0 ++ toLe 4 0 ++ toLe 8 (1024 + 2 ^ 37)), by decide +kernel⟩⟩

theorem witness_AcknowledgementsAndHandshake :
  (∃ (p : PortId) (s : State) (u : State) (g : Seg) (f : ℕ) (wm : ℕ) (x : FlowSt),
    (s.takeRx p.val fun (g : Seg) => g.kind == 5) = some (g, u) ∧ u.badSeg g = none ∧ f = g.dstFlow ∧ x = s.flow f ∧
    wm = leAt g.data 0 4 ∧ seqLe x.ackedSeq wm = true ∧ x.fstate ≠ flowClosing) ∧
  (∃ (p : PortId) (s : State) (u : State) (g : Seg) (f : ℕ) (wm : ℕ) (x : FlowSt),
    (s.takeRx p.val fun (g : Seg) => g.kind == 5) = some (g, u) ∧ u.badSeg g = none ∧ f = g.dstFlow ∧ x = s.flow f ∧
    wm = leAt g.data 0 4 ∧ seqLe x.ackedSeq wm = false) ∧
  (∃ (p : PortId) (s : State) (u : State) (g : Seg) (k : ℕ) (f : ℕ) (ep : ℕ) (x : FlowSt) (b : ℕ → ℕ),
    (s.takeRx p.val fun (g : Seg) => g.kind == k) = some (g, u) ∧ f = g.dstFlow ∧ f < 49152 ∧ g.e2e = g.crc ∧ x = s.flow f ∧
    g.srcDev = x.peerDev ∧ (∀ (i : ℕ), b i = leAt g.data (4 * i) 4) ∧ (∀ (a n : ℕ), s.gHeld a n = false) ∧ (s.traceOn = false ∨
    x.waiter = 0) ∧ (k = 6 ∧ (x.fstate = flowOpening ∧ x.resume = false ∧ b 0 = 0 ∧ b 1 = 1 ∧ ep = x.epoch ∨
    x.fstate = flowOpen ∧ b 0 = 1 ∧ b 1 = x.epoch + 1 ∧ ep = x.epoch + 1) ∨ k = 7 ∧ x.fstate = flowOpening ∧
    g.epoch = x.epoch ∧ b 1 = x.epoch ∧ ep = x.epoch)) ∧
  (∃ (p : PortId) (s : State) (u : State) (g : Seg) (k : ℕ) (f : ℕ) (ep : ℕ) (x : FlowSt) (b : ℕ → ℕ),
    (s.takeRx p.val fun (g : Seg) => g.kind == k) = some (g, u) ∧ f = g.dstFlow ∧ f < 49152 ∧ g.e2e = g.crc ∧ x = s.flow f ∧
    g.srcDev = x.peerDev ∧ (∀ (i : ℕ), b i = leAt g.data (4 * i) 4) ∧ (∀ (a n : ℕ), s.gHeld a n = false) ∧ (s.traceOn = false ∨
    x.waiter = 0) ∧ (k = 6 ∧ (x.fstate = flowOpening ∧ x.resume = false ∧ b 0 = 0 ∧ b 1 = 1 ∧ ep = x.epoch ∨
    x.fstate = flowOpen ∧ b 0 = 1 ∧ b 1 = x.epoch + 1 ∧ ep = x.epoch + 1) ∨ k = 7 ∧ x.fstate = flowOpening ∧
    g.epoch = x.epoch ∧ b 1 = x.epoch ∧ ep = x.epoch)) ∧
  (∃ (p : PortId) (s : State) (u : State) (g : Seg) (k : ℕ) (f : ℕ) (ep : ℕ) (x : FlowSt) (b : ℕ → ℕ),
    (s.takeRx p.val fun (g : Seg) => g.kind == k) = some (g, u) ∧ f = g.dstFlow ∧ f < 49152 ∧ g.e2e = g.crc ∧ x = s.flow f ∧
    g.srcDev = x.peerDev ∧ (∀ (i : ℕ), b i = leAt g.data (4 * i) 4) ∧ (∀ (a n : ℕ), s.gHeld a n = false) ∧ (s.traceOn = false ∨
    x.waiter = 0) ∧ (k = 6 ∧ (x.fstate = flowOpening ∧ x.resume = false ∧ b 0 = 0 ∧ b 1 = 1 ∧ ep = x.epoch ∨
    x.fstate = flowOpen ∧ b 0 = 1 ∧ b 1 = x.epoch + 1 ∧ ep = x.epoch + 1) ∨ k = 7 ∧ x.fstate = flowOpening ∧
    g.epoch = x.epoch ∧ b 1 = x.epoch ∧ ep = x.epoch)) ∧
  (∃ (f : FlowId) (s : State) (p : ℕ) (v : ℕ), (s.flow f.val).fstate = flowOpening ∧ (s.flow f.val).openAt + 100000 ≤ s.now ∧
    s.routeTo (s.flow f.val).peerDev = some (p, v)) ∧
  (∃ (f : FlowId) (s : State) (m : ℕ) (e : JEntry), (s.flow f.val).fstate = flowOpening ∧ (s.flow f.val).waiter = m + 1 ∧
    s.parked m = some e ∧ (s.flow f.val).hsDeadline ≤ s.now ∧ s.traceOn = false) :=
  ⟨⟨0, (rxFlow flowR (segM 0 5 0 true 16 ackB)), (rxAfterK 5 flowR (segM 0 5 0 true 16 ackB)), (rxSeg (segM 0 5 0 true 16 ackB)),
    9, 1, flowR, by decide +kernel⟩,
   ⟨0, (rxFlow { flowR with ackedSeq := 2 } (segM 0 5 0 true 16 ackB)),
    (rxAfterK 5 { flowR with ackedSeq := 2 } (segM 0 5 0 true 16 ackB)), (rxSeg (segM 0 5 0 true 16 ackB)), 9, 1,
    { flowR with ackedSeq := 2 }, by decide +kernel⟩,
   ⟨0, (rxFlow { flowOpg with waiter := 0 } (segM 0 6 0 true 24 (openB 0 1))),
    (rxAfterK 6 { flowOpg with waiter := 0 } (segM 0 6 0 true 24 (openB 0 1))), (rxSeg (segM 0 6 0 true 24 (openB 0 1))), 6, 9,
    1, { flowOpg with waiter := 0 }, (words (rxSeg (segM 0 6 0 true 24 (openB 0 1))).data), by decide +kernel,
    by decide +kernel, by decide +kernel, by decide +kernel, by decide +kernel, by decide +kernel, (fun _ => rfl),
    (fun _ _ => rfl), by decide +kernel, by decide +kernel⟩,
   ⟨0, (rxFlow flowO (segM 0 6 0 true 24 (openB 1 2))), (rxAfterK 6 flowO (segM 0 6 0 true 24 (openB 1 2))),
    (rxSeg (segM 0 6 0 true 24 (openB 1 2))), 6, 9, 2, flowO, (words (rxSeg (segM 0 6 0 true 24 (openB 1 2))).data),
    by decide +kernel, by decide +kernel, by decide +kernel, by decide +kernel, by decide +kernel, by decide +kernel,
    (fun _ => rfl), (fun _ _ => rfl), by decide +kernel, by decide +kernel⟩,
   ⟨0, { rxFlow flowOpg (segM 0 7 0 true 24 (openB 0 1)) with mbox := parkMb },
    { rxAfterK 7 flowOpg (segM 0 7 0 true 24 (openB 0 1)) with mbox := parkMb }, (rxSeg (segM 0 7 0 true 24 (openB 0 1))), 7,
    9, 1, flowOpg, (words (rxSeg (segM 0 7 0 true 24 (openB 0 1))).data), by decide +kernel, by decide +kernel,
    by decide +kernel, by decide +kernel, by decide +kernel, by decide +kernel, (fun _ => rfl), (fun _ _ => rfl),
    by decide +kernel, by decide +kernel⟩,
   ⟨9, (upFlow flowOpg), 4, 0, by decide +kernel⟩,
   ⟨9, { upFlow flowOpg with mbox := parkMb }, 0, { seq := 1, st := 1, cmd := zeros 96 }, by decide +kernel⟩⟩

theorem witness_MessagesReachTheirConsumers :
  (∃ (f : FlowId) (s : State) (x : FlowSt) (m : Msg) (w : ℕ) (k : ℕ), x = s.flow f.val ∧ x.nextMsg = some m ∧ k = x.net ∧
    w = leAt m.body 0 8 ∧ s.flowsHeld = true) ∧
  (∃ (f : FlowId) (s : State) (x : FlowSt) (m : Msg) (w : ℕ) (k : ℕ) (n : ℕ) (step : ℕ) (evs : List Word64), x = s.flow f.val ∧
    x.nextMsg = some m ∧ k = x.net ∧ w = leAt m.body 0 8 ∧ m.kind = 1 ∧ s.flowBound x = true ∧ (s.net k).running = true ∧
    s.takesIn = true ∧ n = nfld w 44 32 ∧ step = s.ringStep k ∧ evs = List.map (fun (i : ℕ) => BitVec.ofNat 64 (leAt m.body (8
    + 8 * i) 8)) (upTo n)) ∧
  (∃ (f : FlowId) (s : State) (x : FlowSt) (m : Msg) (w : ℕ) (k : ℕ), x = s.flow f.val ∧ x.nextMsg = some m ∧ k = x.net ∧
    w = leAt m.body 0 8 ∧ m.kind = 2 ∧ s.flowBound x = true ∧ s.flowsHeld = false) ∧
  (∃ (f : FlowId) (s : State) (x : FlowSt) (m : Msg) (w : ℕ) (k : ℕ) (n : ℕ) (o : ℕ), x = s.flow f.val ∧ x.nextMsg = some m ∧
    k = x.net ∧ w = leAt m.body 0 8 ∧ n = nfld w 2 0 ∧ o = nfld w 15 3 ∧ m.kind = 3 ∧ s.flowBound x = true ∧ s.takesIn = true ∧
    s.linkRoom n 3 (Item.sync n
    { path := 0, op := 0, obj := 0, operand := 0, core := 0, tag := 0, ser := 0, flow := 0, mseq := 0 }) = true ∧
    s.objGranted n k o = true ∧ o < 8160) ∧
  (∃ (f : FlowId) (s : State) (x : FlowSt) (m : Msg) (w : ℕ) (k : ℕ) (n : ℕ) (o : ℕ), x = s.flow f.val ∧ x.nextMsg = some m ∧
    k = x.net ∧ w = leAt m.body 0 8 ∧ n = nfld w 2 0 ∧ o = nfld w 15 3 ∧ m.kind = 3 ∧ s.flowBound x = true ∧ s.takesIn = true ∧
    s.linkRoom n 3 (Item.sync n
    { path := 0, op := 0, obj := 0, operand := 0, core := 0, tag := 0, ser := 0, flow := 0, mseq := 0 }) = true ∧
    (s.objGranted n k o = false ∨ 8160 ≤ o)) ∧
  (∃ (f : FlowId) (s : State) (x : FlowSt) (m : Msg) (w : ℕ) (k : ℕ) (data : List Byte), x = s.flow f.val ∧ x.nextMsg = some m ∧
    k = x.net ∧ w = leAt m.body 0 8 ∧ data = List.drop 16 m.body ∧ m.kind = 4 ∧ s.flowsHeld = false ∧
    w + data.length ≤ s.gddr.top ∧ s.gHeld w data.length = false ∧ (w + data.length ≤ 85983232 ∨ rtxBase ≤ w) ∧ ∀ k < 16,
    (s.net k).reduce = none) ∧
  (∃ (f : FlowId) (s : State) (x : FlowSt) (m : Msg) (w : ℕ) (k : ℕ), x = s.flow f.val ∧ x.nextMsg = some m ∧ k = x.net ∧
    w = leAt m.body 0 8 ∧ s.flowBound x = false ∧ s.flowsHeld = false ∧ m.kind = 1) ∧
  (∃ (f : FlowId) (s : State) (x : FlowSt) (m : Msg) (w : ℕ) (k : ℕ), x = s.flow f.val ∧ x.nextMsg = some m ∧ k = x.net ∧
    w = leAt m.body 0 8 ∧ s.flowBound x = false ∧ s.flowsHeld = false ∧ m.kind = 2) ∧
  (∃ (f : FlowId) (s : State) (x : FlowSt) (m : Msg) (w : ℕ) (k : ℕ), x = s.flow f.val ∧ x.nextMsg = some m ∧ k = x.net ∧
    w = leAt m.body 0 8 ∧ s.flowBound x = false ∧ s.flowsHeld = false ∧ m.kind = 3) :=
  ⟨⟨9, { sMsg false msgT with ao := { up.ao with pstate := 2 } }, (flowM 2 msgT), msgT, 0, 2, by decide +kernel⟩,
   ⟨9, (sMsg true msgE), (flowM 2 msgE), msgE, (2 ^ 32), 2, 1, 1, [(evTo 1 3 0 1).ev], by decide +kernel⟩,
   ⟨9, (sMsg false msgT), (flowM 2 msgT), msgT, 0, 2, by decide +kernel⟩,
   ⟨9, (sMsg false msgS), (flowM 2 msgS), msgS, 0x500000028, 2, 0, 5, by decide +kernel⟩,
   ⟨9, { sMsg false msgS with sectors := up.sectors }, (flowM 2 msgS), msgS, 0x500000028, 2, 0, 5, by decide +kernel⟩,
   ⟨9, (sMsg false msgB), (flowM 2 msgB), msgB, 0x10000000, 2, [1, 2, 3],
    by (and_intros <;> first | decide +kernel | (intros; rfl))⟩,
   ⟨9, (sNone msgE), (flowM 2 msgE), msgE, (2 ^ 32), 2, by decide +kernel⟩,
   ⟨9, (sNone msgT), (flowM 2 msgT), msgT, 0, 2, by decide +kernel⟩,
   ⟨9, (sNone msgS), (flowM 2 msgS), msgS, 0x500000028, 2, by decide +kernel⟩⟩

theorem witness_PortsExchangeFrames :
  (∃ (p : PortId) (s : State) (o : PortSt) (f : Frame) (due : Bool) (bytes : List Byte), o = s.port p.val ∧ o.state = portUp ∧
    o.resend = 0 ∧ o.replay.length < 64 ∧ o.nextTx = some f ∧ o.swapped = [] ∧
    due = (o.injMode != 0 && decide (o.injN ≤ o.injCount + 1)) ∧ bytes = frameOf (o.linkWord 1 o.txSeq (f.payload.length / 8))
    f.payload) ∧
  (∃ (p : PortId) (s : State) (o : PortSt) (f : Frame) (due : Bool) (bytes : List Byte), o = s.port p.val ∧ o.state = portUp ∧
    o.resend = 0 ∧ o.replay.length < 64 ∧ o.nextTx = some f ∧ o.swapped = [] ∧
    due = (o.injMode != 0 && decide (o.injN ≤ o.injCount + 1)) ∧ bytes = frameOf (o.linkWord 1 o.txSeq (f.payload.length / 8))
    f.payload) ∧
  (∃ (p : PortId) (s : State) (o : PortSt) (f : Frame) (due : Bool) (bytes : List Byte), o = s.port p.val ∧ o.state = portUp ∧
    o.resend = 0 ∧ o.replay.length < 64 ∧ o.nextTx = some f ∧ o.swapped = [] ∧
    due = (o.injMode != 0 && decide (o.injN ≤ o.injCount + 1)) ∧ bytes = frameOf (o.linkWord 1 o.txSeq (f.payload.length / 8))
    f.payload) ∧
  (∃ (p : PortId) (s : State) (o : PortSt) (f : Frame) (due : Bool) (bytes : List Byte), o = s.port p.val ∧ o.state = portUp ∧
    o.resend = 0 ∧ o.replay.length < 64 ∧ o.nextTx = some f ∧ o.swapped = [] ∧
    due = (o.injMode != 0 && decide (o.injN ≤ o.injCount + 1)) ∧ bytes = frameOf (o.linkWord 1 o.txSeq (f.payload.length / 8))
    f.payload) ∧
  (∃ (p : PortId) (s : State) (o : PortSt) (f : Frame) (due : Bool) (bytes : List Byte), o = s.port p.val ∧ o.state = portUp ∧
    o.resend = 0 ∧ o.replay.length < 64 ∧ o.nextTx = some f ∧ o.swapped = [] ∧
    due = (o.injMode != 0 && decide (o.injN ≤ o.injCount + 1)) ∧ bytes = frameOf (o.linkWord 1 o.txSeq (f.payload.length / 8))
    f.payload) ∧
  (∃ (p : PortId) (s : State) (o : PortSt) (f : Frame) (due : Bool) (bytes : List Byte), o = s.port p.val ∧ o.state = portUp ∧
    o.resend = 0 ∧ o.replay.length < 64 ∧ o.nextTx = some f ∧ o.swapped = [] ∧
    due = (o.injMode != 0 && decide (o.injN ≤ o.injCount + 1)) ∧ bytes = frameOf (o.linkWord 1 o.txSeq (f.payload.length / 8))
    f.payload) ∧
  (∃ (p : PortId) (s : State) (o : PortSt) (f : Frame), o = s.port p.val ∧ o.state = portUp ∧ 0 < o.resend ∧
    o.resend ≤ o.replay.length ∧ o.replay[o.replay.length - o.resend]? = some f ∧ o.swapped = []) ∧
  (∃ (p : PortId) (s : State) (o : PortSt), o = s.port p.val ∧ o.state = portUp ∧ (16 ≤ o.unacked ∨ o.retryDue = true ∨
    o.txAt + 200 ≤ s.now)) ∧
  (∃ (p : PortId) (s : State) (o : PortSt), o = s.port p.val ∧ o.state = portUp ∧ o.replay ≠ [] ∧ o.lackAt + 2000 ≤ s.now) ∧
  (∃ (p : PortId) (s : State) (o : PortSt) (lseq : Byte) (lack : Byte) (lretry : Bool) (v : Fin 3) (n : ℕ) (b : List Byte) (g :
    Seg) (acked : State → Prop) (check : FrameCheck), o = s.port p.val ∧ o.state = portUp ∧ g = parseSeg b ∧ (∀ (t : State),
    acked t ↔ List.map (fun (f : Frame) => (f.lseq, f.payload)) (t.port p.val).replay = List.map (fun (f : Frame) => (f.lseq,
    f.payload)) (List.dropWhile (fun (f : Frame) => decide ((BitVec.toNat lack + 256 - f.lseq) % 256 < 64)) o.replay) ∧
    (lretry = true → (t.port p.val).resend = (t.port p.val).replay.length) ∧
    (t.port p.val).credit.get 32768 v.val = min 32768 (o.credit.get 32768 v.val + 64 * n)) ∧ (check = FrameCheck.good ∨
    check = FrameCheck.fecCorrected) ∧ BitVec.toNat lseq = (o.rxSeq + 1) % 256 ∧ g.dstDev = s.deviceId) ∧
  (∃ (p : PortId) (s : State) (o : PortSt) (lseq : Byte) (lack : Byte) (lretry : Bool) (v : Fin 3) (n : ℕ) (b : List Byte) (g :
    Seg) (acked : State → Prop) (check : FrameCheck) (q : ℕ) (w : ℕ), o = s.port p.val ∧ o.state = portUp ∧ g = parseSeg b ∧
    (∀ (t : State), acked t ↔ List.map (fun (f : Frame) => (f.lseq,
    f.payload)) (t.port p.val).replay = List.map (fun (f : Frame) => (f.lseq,
    f.payload)) (List.dropWhile (fun (f : Frame) => decide ((BitVec.toNat lack + 256 - f.lseq) % 256 < 64)) o.replay) ∧
    (lretry = true → (t.port p.val).resend = (t.port p.val).replay.length) ∧
    (t.port p.val).credit.get 32768 v.val = min 32768 (o.credit.get 32768 v.val + 64 * n)) ∧ (check = FrameCheck.good ∨
    check = FrameCheck.fecCorrected) ∧ BitVec.toNat lseq = (o.rxSeq + 1) % 256 ∧ g.dstDev ≠ s.deviceId ∧ g.hops ≠ 0 ∧
    s.routeTo g.dstDev = some (q, w)) ∧
  (∃ (p : PortId) (s : State) (o : PortSt) (lseq : Byte) (lack : Byte) (lretry : Bool) (v : Fin 3) (n : ℕ) (b : List Byte) (g :
    Seg) (acked : State → Prop) (check : FrameCheck), o = s.port p.val ∧ o.state = portUp ∧ g = parseSeg b ∧ (∀ (t : State),
    acked t ↔ List.map (fun (f : Frame) => (f.lseq, f.payload)) (t.port p.val).replay = List.map (fun (f : Frame) => (f.lseq,
    f.payload)) (List.dropWhile (fun (f : Frame) => decide ((BitVec.toNat lack + 256 - f.lseq) % 256 < 64)) o.replay) ∧
    (lretry = true → (t.port p.val).resend = (t.port p.val).replay.length) ∧
    (t.port p.val).credit.get 32768 v.val = min 32768 (o.credit.get 32768 v.val + 64 * n)) ∧ (check = FrameCheck.good ∨
    check = FrameCheck.fecCorrected) ∧ BitVec.toNat lseq = (o.rxSeq + 1) % 256 ∧ g.dstDev ≠ s.deviceId ∧ (g.hops = 0 ∨
    s.routeTo g.dstDev = none)) ∧
  (∃ (p : PortId) (s : State) (o : PortSt) (lseq : Byte) (lack : Byte) (lretry : Bool) (v : Fin 3) (n : ℕ) (b : List Byte) (g :
    Seg) (acked : State → Prop) (check : FrameCheck), o = s.port p.val ∧ o.state = portUp ∧ g = parseSeg b ∧ (∀ (t : State),
    acked t ↔ List.map (fun (f : Frame) => (f.lseq, f.payload)) (t.port p.val).replay = List.map (fun (f : Frame) => (f.lseq,
    f.payload)) (List.dropWhile (fun (f : Frame) => decide ((BitVec.toNat lack + 256 - f.lseq) % 256 < 64)) o.replay) ∧
    (lretry = true → (t.port p.val).resend = (t.port p.val).replay.length) ∧
    (t.port p.val).credit.get 32768 v.val = min 32768 (o.credit.get 32768 v.val + 64 * n)) ∧ (check = FrameCheck.good ∨
    check = FrameCheck.fecCorrected) ∧ BitVec.toNat lseq = (o.rxSeq + 1) % 256 ∧ g.dstDev ≠ s.deviceId ∧ (g.hops = 0 ∨
    s.routeTo g.dstDev = none)) ∧
  (∃ (p : PortId) (s : State) (o : PortSt) (lseq : Byte) (lack : Byte) (lretry : Bool) (v : Fin 3) (n : ℕ) (b : List Byte) (g :
    Seg) (acked : State → Prop) (check : FrameCheck), o = s.port p.val ∧ o.state = portUp ∧ g = parseSeg b ∧ (∀ (t : State),
    acked t ↔ List.map (fun (f : Frame) => (f.lseq, f.payload)) (t.port p.val).replay = List.map (fun (f : Frame) => (f.lseq,
    f.payload)) (List.dropWhile (fun (f : Frame) => decide ((BitVec.toNat lack + 256 - f.lseq) % 256 < 64)) o.replay) ∧
    (lretry = true → (t.port p.val).resend = (t.port p.val).replay.length) ∧
    (t.port p.val).credit.get 32768 v.val = min 32768 (o.credit.get 32768 v.val + 64 * n)) ∧ (check = FrameCheck.good ∨
    check = FrameCheck.fecCorrected) ∧ BitVec.toNat lseq ≠ (o.rxSeq + 1) % 256) ∧
  (∃ (p : PortId) (s : State) (o : PortSt) (lseq : Byte) (lack : Byte) (lretry : Bool) (v : Fin 3) (n : ℕ) (b : List Byte) (g :
    Seg) (acked : State → Prop) (check : FrameCheck), o = s.port p.val ∧ o.state = portUp ∧ g = parseSeg b ∧ (∀ (t : State),
    acked t ↔ List.map (fun (f : Frame) => (f.lseq, f.payload)) (t.port p.val).replay = List.map (fun (f : Frame) => (f.lseq,
    f.payload)) (List.dropWhile (fun (f : Frame) => decide ((BitVec.toNat lack + 256 - f.lseq) % 256 < 64)) o.replay) ∧
    (lretry = true → (t.port p.val).resend = (t.port p.val).replay.length) ∧
    (t.port p.val).credit.get 32768 v.val = min 32768 (o.credit.get 32768 v.val + 64 * n)) ∧ (check = FrameCheck.good ∨
    check = FrameCheck.fecCorrected) ∧ BitVec.toNat lseq ≠ (o.rxSeq + 1) % 256) ∧
  (∃ (p : PortId) (s : State) (o : PortSt) (lack : Byte) (lretry : Bool) (v : Fin 3) (n : ℕ) (b : List Byte) (g : Seg) (acked :
    State → Prop) (check : FrameCheck), o = s.port p.val ∧ o.state = portUp ∧ g = parseSeg b ∧ (∀ (t : State),
    acked t ↔ List.map (fun (f : Frame) => (f.lseq, f.payload)) (t.port p.val).replay = List.map (fun (f : Frame) => (f.lseq,
    f.payload)) (List.dropWhile (fun (f : Frame) => decide ((BitVec.toNat lack + 256 - f.lseq) % 256 < 64)) o.replay) ∧
    (lretry = true → (t.port p.val).resend = (t.port p.val).replay.length) ∧
    (t.port p.val).credit.get 32768 v.val = min 32768 (o.credit.get 32768 v.val + 64 * n)) ∧ (check = FrameCheck.good ∨
    check = FrameCheck.fecCorrected)) ∧
  (∃ (p : PortId) (s : State) (o : PortSt) (lack : Byte) (lretry : Bool) (v : Fin 3) (n : ℕ) (b : List Byte) (g : Seg) (acked :
    State → Prop) (check : FrameCheck) (id : ℕ), o = s.port p.val ∧ o.state = portUp ∧ g = parseSeg b ∧ (∀ (t : State),
    acked t ↔ List.map (fun (f : Frame) => (f.lseq, f.payload)) (t.port p.val).replay = List.map (fun (f : Frame) => (f.lseq,
    f.payload)) (List.dropWhile (fun (f : Frame) => decide ((BitVec.toNat lack + 256 - f.lseq) % 256 < 64)) o.replay) ∧
    (lretry = true → (t.port p.val).resend = (t.port p.val).replay.length) ∧
    (t.port p.val).credit.get 32768 v.val = min 32768 (o.credit.get 32768 v.val + 64 * n)) ∧ (check = FrameCheck.crcError ∧
    id = Ctr.linkCrcErr ∨ check = FrameCheck.fecUncorrectable ∧ id = Ctr.linkFecUncorr)) ∧
  (∃ (p : PortId) (s : State) (o : PortSt) (lack : Byte) (lretry : Bool) (v : Fin 3) (n : ℕ) (b : List Byte) (g : Seg) (acked :
    State → Prop) (check : FrameCheck) (id : ℕ), o = s.port p.val ∧ o.state = portUp ∧ g = parseSeg b ∧ (∀ (t : State),
    acked t ↔ List.map (fun (f : Frame) => (f.lseq, f.payload)) (t.port p.val).replay = List.map (fun (f : Frame) => (f.lseq,
    f.payload)) (List.dropWhile (fun (f : Frame) => decide ((BitVec.toNat lack + 256 - f.lseq) % 256 < 64)) o.replay) ∧
    (lretry = true → (t.port p.val).resend = (t.port p.val).replay.length) ∧
    (t.port p.val).credit.get 32768 v.val = min 32768 (o.credit.get 32768 v.val + 64 * n)) ∧ (check = FrameCheck.crcError ∧
    id = Ctr.linkCrcErr ∨ check = FrameCheck.fecUncorrectable ∧ id = Ctr.linkFecUncorr)) :=
  ⟨⟨0, (upPort (portTx 0 0)), (portTx 0 0), frameZ, false, (frameOf ((portTx 0 0).linkWord 1 0 4) (zeros 32)), by decide +kernel⟩,
   ⟨0, (upPort (portTx 1 1)), (portTx 1 1), frameZ, true, (frameOf ((portTx 1 1).linkWord 1 0 4) (zeros 32)), by decide +kernel⟩,
   ⟨0, (upPort (portTx 2 1)), (portTx 2 1), frameZ, true, (frameOf ((portTx 2 1).linkWord 1 0 4) (zeros 32)), by decide +kernel⟩,
   ⟨0, (upPort (portTx 3 1)), (portTx 3 1), frameZ, true, (frameOf ((portTx 3 1).linkWord 1 0 4) (zeros 32)), by decide +kernel⟩,
   ⟨0, (upPort (portTx 4 1)), (portTx 4 1), frameZ, true, (frameOf ((portTx 4 1).linkWord 1 0 4) (zeros 32)), by decide +kernel⟩,
   ⟨0, (upPort (portTx 4 2)), (portTx 4 2), frameZ, false, (frameOf ((portTx 4 2).linkWord 1 0 4) (zeros 32)), by decide +kernel⟩,
   ⟨0, (upPort { state := portUp, resend := 1, replay := [frameZ] }), { state := portUp, resend := 1, replay := [frameZ] },
    frameZ, by decide +kernel⟩,
   ⟨0, (upPort { state := portUp, unacked := 16 }), { state := portUp, unacked := 16 }, by decide +kernel⟩,
   ⟨0, (upPort { state := portUp, replay := [{}] }), { state := portUp, replay := [{}] }, by decide +kernel⟩,
   ⟨0, (upPort portRx), portRx, 0, 0, true, 1, 3, (segB 5 63), (rxSeg (segM 1 2 0 true 8 (zeros 8))), (ackedBy portRx 0 true 1 3),
    .good, by decide +kernel, by decide +kernel, by decide +kernel, (fun _ => Iff.rfl), by decide +kernel, by decide +kernel,
    by decide +kernel⟩,
   ⟨0, (upPort4 portRx), portRx, 0, 0, false, 1, 3, (segB 7 63), (parseSeg (segB 7 63)), (ackedBy portRx 0 false 1 3),
    .fecCorrected, 4, 0, by decide +kernel, by decide +kernel, by decide +kernel, (fun _ => Iff.rfl), by decide +kernel,
    by decide +kernel, by decide +kernel, by decide +kernel, by decide +kernel⟩,
   ⟨0, (upPort4 portRx), portRx, 0, 0, false, 1, 3, (segB 7 0), (parseSeg (segB 7 0)), (ackedBy portRx 0 false 1 3), .good,
    by decide +kernel, by decide +kernel, by decide +kernel, (fun _ => Iff.rfl), by decide +kernel, by decide +kernel,
    by decide +kernel, by decide +kernel⟩,
   ⟨0, (upPort4 portRx), portRx, 0, 0, false, 1, 3, (segB 8 63), (parseSeg (segB 8 63)), (ackedBy portRx 0 false 1 3), .good,
    by decide +kernel, by decide +kernel, by decide +kernel, (fun _ => Iff.rfl), by decide +kernel, by decide +kernel,
    by decide +kernel, by decide +kernel⟩,
   ⟨0, (upPort portRx), portRx, 255, 0, false, 1, 3, [], (parseSeg []), (ackedBy portRx 0 false 1 3), .good, by decide +kernel,
    by decide +kernel, by decide +kernel, (fun _ => Iff.rfl), by decide +kernel, by decide +kernel⟩,
   ⟨0, (upPort portRx), portRx, 1, 0, false, 1, 3, [], (parseSeg []), (ackedBy portRx 0 false 1 3), .good, by decide +kernel,
    by decide +kernel, by decide +kernel, (fun _ => Iff.rfl), by decide +kernel, by decide +kernel⟩,
   ⟨0, (upPort portRx), portRx, 0, true, 1, 3, [], (parseSeg []), (ackedBy portRx 0 true 1 3), .good, by decide +kernel,
    by decide +kernel, by decide +kernel, (fun _ => Iff.rfl), by decide +kernel⟩,
   ⟨0, (upPort portRx), portRx, 0, false, 1, 3, [], (parseSeg []), (ackedBy portRx 0 false 1 3), .crcError, Ctr.linkCrcErr,
    by decide +kernel, by decide +kernel, by decide +kernel, (fun _ => Iff.rfl), by decide +kernel⟩,
   ⟨0, (upPort portRx), portRx, 0, false, 1, 3, [], (parseSeg []), (ackedBy portRx 0 false 1 3), .fecUncorrectable,
    Ctr.linkFecUncorr, by decide +kernel, by decide +kernel, by decide +kernel, (fun _ => Iff.rfl), by decide +kernel⟩⟩

theorem witness_PortsTrainAndMeasure :
  (∃ (p : PortId) (s : State) (o : PortSt) (queues : State → Prop) (bad : BitVec 4) (lo : Bool) (hi : Bool) (times : List ℕ),
    o = s.port p.val ∧ (∀ (t : State), queues t ↔ (∀ (q : ℕ), q ≠ p.val → t.port q = { s.port q with txQ := (t.port q).txQ }) ∧
    ((∀ q < 12, (s.port q).txQ = []) → ∀ (q : ℕ), (t.port q).txQ = (s.port q).txQ)) ∧ s.trains p.val = true ∧
    lo = (fld bad 1 0 == 0) ∧ hi = (fld bad 3 2 == 0) ∧ times = List.filter (fun (x : ℕ) => decide (s.now < x + 10000000000))
    (s.now :: o.failTimes) ∧ (lo = true ∨ hi = true)) ∧
  (∃ (p : PortId) (s : State) (o : PortSt) (queues : State → Prop) (bad : BitVec 4) (lo : Bool) (hi : Bool) (times : List ℕ),
    o = s.port p.val ∧ (∀ (t : State), queues t ↔ (∀ (q : ℕ), q ≠ p.val → t.port q = { s.port q with txQ := (t.port q).txQ }) ∧
    ((∀ q < 12, (s.port q).txQ = []) → ∀ (q : ℕ), (t.port q).txQ = (s.port q).txQ)) ∧ s.trains p.val = true ∧
    lo = (fld bad 1 0 == 0) ∧ hi = (fld bad 3 2 == 0) ∧ times = List.filter (fun (x : ℕ) => decide (s.now < x + 10000000000))
    (s.now :: o.failTimes) ∧ (lo = true ∨ hi = true)) ∧
  (∃ (p : PortId) (s : State) (o : PortSt) (queues : State → Prop) (bad : BitVec 4) (lo : Bool) (hi : Bool) (times : List ℕ),
    o = s.port p.val ∧ (∀ (t : State), queues t ↔ (∀ (q : ℕ), q ≠ p.val → t.port q = { s.port q with txQ := (t.port q).txQ }) ∧
    ((∀ q < 12, (s.port q).txQ = []) → ∀ (q : ℕ), (t.port q).txQ = (s.port q).txQ)) ∧ s.trains p.val = true ∧
    lo = (fld bad 1 0 == 0) ∧ hi = (fld bad 3 2 == 0) ∧ times = List.filter (fun (x : ℕ) => decide (s.now < x + 10000000000))
    (s.now :: o.failTimes) ∧ lo = false ∧ hi = false ∧ times.length < 3) ∧
  (∃ (p : PortId) (s : State) (o : PortSt) (queues : State → Prop) (bad : BitVec 4) (lo : Bool) (hi : Bool) (times : List ℕ),
    o = s.port p.val ∧ (∀ (t : State), queues t ↔ (∀ (q : ℕ), q ≠ p.val → t.port q = { s.port q with txQ := (t.port q).txQ }) ∧
    ((∀ q < 12, (s.port q).txQ = []) → ∀ (q : ℕ), (t.port q).txQ = (s.port q).txQ)) ∧ s.trains p.val = true ∧
    lo = (fld bad 1 0 == 0) ∧ hi = (fld bad 3 2 == 0) ∧ times = List.filter (fun (x : ℕ) => decide (s.now < x + 10000000000))
    (s.now :: o.failTimes) ∧ lo = false ∧ hi = false ∧ 3 ≤ times.length) ∧
  (∃ (p : PortId) (s : State) (o : PortSt) (queues : State → Prop) (c : RetrainCause), o = s.port p.val ∧ (∀ (t : State),
    queues t ↔ (∀ (q : ℕ), q ≠ p.val → t.port q = { s.port q with txQ := (t.port q).txQ }) ∧ ((∀ q < 12, (s.port q).txQ = []) →
    ∀ (q : ℕ), (t.port q).txQ = (s.port q).txQ)) ∧ (c = RetrainCause.resends →
    (o.replay.any fun (f : Frame) => decide (16 ≤ f.resent)) = true) ∧ o.state = portUp) ∧
  (∃ (p : PortId) (s : State) (o : PortSt) (queues : State → Prop), o = s.port p.val ∧ (∀ (t : State), queues t ↔ (∀ (q : ℕ),
    q ≠ p.val → t.port q = { s.port q with txQ := (t.port q).txQ }) ∧ ((∀ q < 12, (s.port q).txQ = []) → ∀ (q : ℕ),
    (t.port q).txQ = (s.port q).txQ)) ∧ (o.state = portMeasure ∨ o.state = portUp ∧ o.exchAt + 100000000 ≤ s.now)) ∧
  (∃ (p : PortId) (s : State) (o : PortSt) (queues : State → Prop), o = s.port p.val ∧ (∀ (t : State), queues t ↔ (∀ (q : ℕ),
    q ≠ p.val → t.port q = { s.port q with txQ := (t.port q).txQ }) ∧ ((∀ q < 12, (s.port q).txQ = []) → ∀ (q : ℕ),
    (t.port q).txQ = (s.port q).txQ)) ∧ (o.state = portMeasure ∨ o.state = portUp ∧ o.exchAt + 100000000 ≤ s.now)) ∧
  (∃ (p : PortId) (s : State) (o : PortSt) (queues : State → Prop) (t1 : Word64) (t2 : Word64) (t3 : Word64) (check : FrameCheck)
    (b : ℤ × ℤ), o = s.port p.val ∧ (∀ (t : State), queues t ↔ (∀ (q : ℕ), q ≠ p.val →
    t.port q = { s.port q with txQ := (t.port q).txQ }) ∧ ((∀ q < 12, (s.port q).txQ = []) → ∀ (q : ℕ),
    (t.port q).txQ = (s.port q).txQ)) ∧ (o.state = portMeasure ∨ o.state = portUp) ∧ (check = FrameCheck.good ∨
    check = FrameCheck.fecCorrected) ∧ b = betterRound o.best ((((BitVec.toNat t2 : ℕ) : ℤ) - ((BitVec.toNat t1 : ℕ) : ℤ) -
    ((s.now : ℤ) - ((BitVec.toNat t3 : ℕ) : ℤ))) / 2, ((s.now : ℤ) - ((BitVec.toNat t1 : ℕ) : ℤ) - (((BitVec.toNat t3 : ℕ) : ℤ)
    - ((BitVec.toNat t2 : ℕ) : ℤ))) / 2)) ∧
  (∃ (p : PortId) (s : State) (o : PortSt) (queues : State → Prop) (t1 : Word64) (t2 : Word64) (t3 : Word64) (check : FrameCheck)
    (b : ℤ × ℤ), o = s.port p.val ∧ (∀ (t : State), queues t ↔ (∀ (q : ℕ), q ≠ p.val →
    t.port q = { s.port q with txQ := (t.port q).txQ }) ∧ ((∀ q < 12, (s.port q).txQ = []) → ∀ (q : ℕ),
    (t.port q).txQ = (s.port q).txQ)) ∧ (o.state = portMeasure ∨ o.state = portUp) ∧ (check = FrameCheck.good ∨
    check = FrameCheck.fecCorrected) ∧ b = betterRound o.best ((((BitVec.toNat t2 : ℕ) : ℤ) - ((BitVec.toNat t1 : ℕ) : ℤ) -
    ((s.now : ℤ) - ((BitVec.toNat t3 : ℕ) : ℤ))) / 2, ((s.now : ℤ) - ((BitVec.toNat t1 : ℕ) : ℤ) - (((BitVec.toNat t3 : ℕ) : ℤ)
    - ((BitVec.toNat t2 : ℕ) : ℤ))) / 2) ∧ 1 < o.rounds) ∧
  (∃ (p : PortId) (s : State) (o : PortSt) (queues : State → Prop) (t1 : Word64) (t2 : Word64) (t3 : Word64) (check : FrameCheck)
    (b : ℤ × ℤ), o = s.port p.val ∧ (∀ (t : State), queues t ↔ (∀ (q : ℕ), q ≠ p.val →
    t.port q = { s.port q with txQ := (t.port q).txQ }) ∧ ((∀ q < 12, (s.port q).txQ = []) → ∀ (q : ℕ),
    (t.port q).txQ = (s.port q).txQ)) ∧ (o.state = portMeasure ∨ o.state = portUp) ∧ (check = FrameCheck.good ∨
    check = FrameCheck.fecCorrected) ∧ b = betterRound o.best ((((BitVec.toNat t2 : ℕ) : ℤ) - ((BitVec.toNat t1 : ℕ) : ℤ) -
    ((s.now : ℤ) - ((BitVec.toNat t3 : ℕ) : ℤ))) / 2, ((s.now : ℤ) - ((BitVec.toNat t1 : ℕ) : ℤ) - (((BitVec.toNat t3 : ℕ) : ℤ)
    - ((BitVec.toNat t2 : ℕ) : ℤ))) / 2) ∧ o.rounds = 1) ∧
  (∃ (p : PortId) (s : State) (o : PortSt) (queues : State → Prop), o = s.port p.val ∧ ∀ (t : State), queues t ↔ (∀ (q : ℕ),
    q ≠ p.val → t.port q = { s.port q with txQ := (t.port q).txQ }) ∧ ((∀ q < 12, (s.port q).txQ = []) → ∀ (q : ℕ),
    (t.port q).txQ = (s.port q).txQ)) :=
  ⟨⟨0, (upPort { state := portTraining }), { state := portTraining }, (queuesOf (upPort { state := portTraining })), 0, true,
    true, [5000000000], by decide +kernel, (fun _ => Iff.rfl), by decide +kernel, by decide +kernel, by decide +kernel,
    by decide +kernel, by decide +kernel⟩,
   ⟨0, (upPort { state := portTraining }), { state := portTraining }, (queuesOf (upPort { state := portTraining })), 12, true,
    false, [5000000000], by decide +kernel, (fun _ => Iff.rfl), by decide +kernel, by decide +kernel, by decide +kernel,
    by decide +kernel, by decide +kernel⟩,
   ⟨0, (upPort { state := portTraining }), { state := portTraining }, (queuesOf (upPort { state := portTraining })), 9, false,
    false, [5000000000], by decide +kernel, (fun _ => Iff.rfl), by decide +kernel, by decide +kernel, by decide +kernel,
    by decide +kernel, by decide +kernel, by decide +kernel, by decide +kernel⟩,
   ⟨0, (upPort pFail), pFail, (queuesOf (upPort pFail)), 15, false, false, [5000000000, 4999999999, 4999999998],
    by decide +kernel, (fun _ => Iff.rfl), by decide +kernel, by decide +kernel, by decide +kernel, by decide +kernel,
    by decide +kernel, by decide +kernel, by decide +kernel⟩,
   ⟨0, (upPort { state := portUp, replay := [{}] }), { state := portUp, replay := [{}] },
    (queuesOf (upPort { state := portUp, replay := [{}] })), .symbolErrors, by decide +kernel, (fun _ => Iff.rfl),
    by decide +kernel, by decide +kernel⟩,
   ⟨0, (upPort { state := portMeasure }), { state := portMeasure }, (queuesOf (upPort { state := portMeasure })),
    by decide +kernel, (fun _ => Iff.rfl), by decide +kernel⟩,
   ⟨0, (upPort { state := portUp }), { state := portUp }, (queuesOf (upPort { state := portUp })), by decide +kernel,
    (fun _ => Iff.rfl), by decide +kernel⟩,
   ⟨0, (upPort { state := portMeasure }), { state := portMeasure }, (queuesOf (upPort { state := portMeasure })), 1, 2, 3, .good,
    rd8, by decide +kernel, (fun _ => Iff.rfl), by decide +kernel, by decide +kernel, by decide +kernel⟩,
   ⟨0, (upPort { state := portMeasure, rounds := 8 }), { state := portMeasure, rounds := 8 },
    (queuesOf (upPort { state := portMeasure, rounds := 8 })), 1, 2, 3, .good, rd8, by decide +kernel, (fun _ => Iff.rfl),
    by decide +kernel, by decide +kernel, by decide +kernel, by decide +kernel⟩,
   ⟨0, (upPort { state := portMeasure, rounds := 1 }), { state := portMeasure, rounds := 1 },
    (queuesOf (upPort { state := portMeasure, rounds := 1 })), 1, 2, 3, .fecCorrected, rd8, by decide +kernel,
    (fun _ => Iff.rfl), by decide +kernel, by decide +kernel, by decide +kernel, by decide +kernel⟩,
   ⟨0, (upPort pRst), pRst, (queuesOf (upPort pRst)), by decide +kernel, (fun _ => Iff.rfl)⟩⟩

theorem witness_GddrAndPaging :
  (∃ (a : ℕ) (b : ℕ) (k : ℕ) (g : ℕ) (ch : ℕ) (ecc : EccResult) (r : EccResult) (was : Bool) (s : State), b = a / 64 * 64 ∧
    b < s.gddr.top ∧ g = s.gddr.controller b ∧ ch = g * 2 + s.gddr.channel b ∧ s.gddr.state.get 0 g = 1 ∧
    was = s.gddr.poison.get false (a / 64) ∧ (r = if s.gddr.ecc = false then EccResult.clean else if was = true then
    EccResult.uncorrectable else ecc) ∧ (∀ o ∈ s.gddr.held, o.addr + 64 ≤ b ∨ b + 64 ≤ o.addr) ∧ s.gddr.chan.get 0 ch = 0 ∧
    k < 4) ∧
  (∃ (a : ℕ) (b : ℕ) (k : ℕ) (g : ℕ) (ch : ℕ) (ecc : EccResult) (r : EccResult) (was : Bool) (s : State), b = a / 64 * 64 ∧
    b < s.gddr.top ∧ g = s.gddr.controller b ∧ ch = g * 2 + s.gddr.channel b ∧ s.gddr.state.get 0 g = 1 ∧
    was = s.gddr.poison.get false (a / 64) ∧ (r = if s.gddr.ecc = false then EccResult.clean else if was = true then
    EccResult.uncorrectable else ecc) ∧ (∀ o ∈ s.gddr.held, o.addr + 64 ≤ b ∨ b + 64 ≤ o.addr) ∧ s.gddr.chan.get 0 ch = 0 ∧
    k < 4) ∧
  (∃ (a : ℕ) (b : ℕ) (k : ℕ) (g : ℕ) (ch : ℕ) (ecc : EccResult) (r : EccResult) (was : Bool) (s : State), b = a / 64 * 64 ∧
    b < s.gddr.top ∧ g = s.gddr.controller b ∧ ch = g * 2 + s.gddr.channel b ∧ s.gddr.state.get 0 g = 1 ∧
    was = s.gddr.poison.get false (a / 64) ∧ (r = if s.gddr.ecc = false then EccResult.clean else if was = true then
    EccResult.uncorrectable else ecc) ∧ (∀ o ∈ s.gddr.held, o.addr + 64 ≤ b ∨ b + 64 ≤ o.addr) ∧ s.gddr.chan.get 0 ch = 0 ∧
    k < 4) ∧
  (∃ (a : ℕ) (b : ℕ) (k : ℕ) (g : ℕ) (ch : ℕ) (ecc : EccResult) (r : EccResult) (was : Bool) (s : State), b = a / 64 * 64 ∧
    b < s.gddr.top ∧ g = s.gddr.controller b ∧ ch = g * 2 + s.gddr.channel b ∧ s.gddr.state.get 0 g = 1 ∧
    was = s.gddr.poison.get false (a / 64) ∧ (r = if s.gddr.ecc = false then EccResult.clean else if was = true then
    EccResult.uncorrectable else ecc) ∧ (∀ o ∈ s.gddr.held, o.addr + 64 ≤ b ∨ b + 64 ≤ o.addr) ∧ s.gddr.chan.get 0 ch = 0 ∧
    k < 4) ∧
  (∃ (a : ℕ) (b : ℕ) (k : ℕ) (g : ℕ) (ch : ℕ) (ecc : EccResult) (r : EccResult) (was : Bool) (s : State), b = a / 64 * 64 ∧
    b < s.gddr.top ∧ g = s.gddr.controller b ∧ ch = g * 2 + s.gddr.channel b ∧ s.gddr.state.get 0 g = 1 ∧
    was = s.gddr.poison.get false (a / 64) ∧ (r = if s.gddr.ecc = false then EccResult.clean else if was = true then
    EccResult.uncorrectable else ecc) ∧ (∀ o ∈ s.gddr.held, o.addr + 64 ≤ b ∨ b + 64 ≤ o.addr) ∧ s.gddr.chan.get 0 ch = 0 ∧
    4 ≤ k) ∧
  (∃ (a : ℕ) (b : ℕ) (g : ℕ) (ch : ℕ) (ecc : EccResult) (r : EccResult) (was : Bool) (s : State), b = a / 64 * 64 ∧
    b < s.gddr.top ∧ g = s.gddr.controller b ∧ ch = g * 2 + s.gddr.channel b ∧ s.gddr.state.get 0 g = 1 ∧
    was = s.gddr.poison.get false (a / 64) ∧ (r = if s.gddr.ecc = false then EccResult.clean else if was = true then
    EccResult.uncorrectable else ecc) ∧ (∀ o ∈ s.gddr.held, o.addr + 64 ≤ b ∨ b + 64 ≤ o.addr) ∧ s.gddr.chan.get 0 ch = 1) ∧
  (∃ (a : ℕ) (b : ℕ) (g : ℕ) (ch : ℕ) (ecc : EccResult) (r : EccResult) (was : Bool) (s : State), b = a / 64 * 64 ∧
    b < s.gddr.top ∧ g = s.gddr.controller b ∧ ch = g * 2 + s.gddr.channel b ∧ s.gddr.state.get 0 g = 1 ∧
    was = s.gddr.poison.get false (a / 64) ∧ (r = if s.gddr.ecc = false then EccResult.clean else if was = true then
    EccResult.uncorrectable else ecc) ∧ (∀ o ∈ s.gddr.held, o.addr + 64 ≤ b ∨ b + 64 ≤ o.addr) ∧ 2 ≤ s.gddr.chan.get 0 ch) ∧
  (∃ (g : GcId) (ch : Bool) (s : State) (n : ℕ) (mine : GddrReq → Bool), n = g.val * 2 + b2n ch ∧ (∀ (q : GddrReq),
    mine q = (s.gddr.controller q.addr * 2 + s.gddr.channel q.addr == n)) ∧ s.gddr.chan.get 0 n = 1) ∧
  (∃ (g : GcId) (ch : Bool) (s : State) (n : ℕ) (mine : GddrReq → Bool), n = g.val * 2 + b2n ch ∧ (∀ (q : GddrReq),
    mine q = (s.gddr.controller q.addr * 2 + s.gddr.channel q.addr == n)) ∧ s.gddr.chan.get 0 n = 1) ∧
  (∃ (g : GcId) (ch : Bool) (s : State) (n : ℕ) (mine : GddrReq → Bool), n = g.val * 2 + b2n ch ∧ (∀ (q : GddrReq),
    mine q = (s.gddr.controller q.addr * 2 + s.gddr.channel q.addr == n)) ∧ s.gddr.chan.get 0 n ≠ 1) ∧
  (∃ (c : CoreId) (set : ℕ) (page : ℕ) (b : ℕ) (p : PageSet) (s : State) (k : CoreSt), k = s.core c.val ∧
    s.pageSet (c.val) set = some p ∧ s.sectorRuns (sectorOf c.val) = true ∧ b = k.fillBuf p ∧ k.paging.get 0 set = 0 ∧
    k.pageDue p (s.netOf c.val).step = some page ∧ (64 ≤ p.binding ∨ s.bindBusy p.binding = false) ∧ k.bufferUsed p b = false ∧
    s.evictWaits (c.val) p b = false) ∧
  (∃ (c : CoreId) (set : ℕ) (page : ℕ) (b : ℕ) (p : PageSet) (s : State) (k : CoreSt), k = s.core c.val ∧
    s.pageSet (c.val) set = some p ∧ s.sectorRuns (sectorOf c.val) = true ∧ b = k.fillBuf p ∧ k.paging.get 0 set = 0 ∧
    k.pageDue p (s.netOf c.val).step = some page ∧ (64 ≤ p.binding ∨ s.bindBusy p.binding = false) ∧ k.bufferUsed p b = false ∧
    s.evictWaits (c.val) p b = false) ∧
  (∃ (c : CoreId) (set : ℕ) (page : ℕ) (b : ℕ) (p : PageSet) (s : State) (k : CoreSt), k = s.core c.val ∧
    s.pageSet (c.val) set = some p ∧ s.sectorRuns (sectorOf c.val) = true ∧ b = k.fillBuf p ∧ k.paging.get 0 set = page + 1 ∧
    s.gHeld (p.pageAddr page) (2 * p.words) = false) :=
  ⟨⟨0x10000001, 0x10000000, 3, 0, 1, .corrected, .corrected, false, (sGd gUp),
    by (and_intros <;> first | decide +kernel | (intros; rfl))⟩,
   ⟨0x10000001, 0x10000000, 0, 0, 1, .tagMismatch, .tagMismatch, false, (sGd gUp),
    by (and_intros <;> first | decide +kernel | (intros; rfl))⟩,
   ⟨0x10000001, 0x10000000, 0, 0, 1, .uncorrectable, .uncorrectable, false, (sGd gUp),
    by (and_intros <;> first | decide +kernel | (intros; rfl))⟩,
   ⟨0x10000001, 0x10000000, 0, 0, 1, .clean, .uncorrectable, true, (sGd { gUp with poison := [(0x400000, true)] }),
    by (and_intros <;> first | decide +kernel | (intros; rfl))⟩,
   ⟨0x10000001, 0x10000000, 4, 0, 1, .clean, .clean, false, (sGd gUp), by (and_intros <;> first | decide +kernel | (intros; rfl))⟩,
   ⟨0x10000001, 0x10000000, 0, 1, .clean, .clean, false, (sGd { gUp with chan := [(1, 1)] }),
    by (and_intros <;> first | decide +kernel | (intros; rfl))⟩,
   ⟨0x10000001, 0x10000000, 0, 1, .clean, .clean, false, (sGd { gUp with chan := [(1, 2)] }),
    by (and_intros <;> first | decide +kernel | (intros; rfl))⟩,
   ⟨0, true, (sGd { gUp with chan := [(1, 1)] }), 1, (mine0 (sGd { gUp with chan := [(1, 1)] })), by decide +kernel,
    (fun _ => rfl), by decide +kernel⟩,
   ⟨0, true, (sGd gHold), 1, (mine0 (sGd gHold)), by decide +kernel, (fun _ => rfl), by decide +kernel⟩,
   ⟨0, true, (sGd gUp), 1, (mine0 (sGd gUp)), by decide +kernel, (fun _ => rfl), by decide +kernel⟩,
   ⟨3, 1, 1, 0, pset, (sPage pset {}), {}, by decide +kernel⟩,
   ⟨3, 1, 1, 0, psetW, (sPage psetW kDirty), kDirty, by decide +kernel⟩,
   ⟨3, 1, 1, 0, pset, (sPage pset { paging := [(1, 2)] }), { paging := [(1, 2)] }, by decide +kernel⟩⟩

theorem witness_SlotsAndManagementMailboxes :
  (∃ (m : Fin 8) (s : State) (o : Fin 4096) (b : List Byte) (x : List Byte), s.bar0Open = true ∧
    s.writeActs (mbOffset m.val o.val) true true = true ∧ x = List.take (4096 - o.val) b ∧ (s.mb m.val).busy = false) ∧
  (∃ (m : Fin 8) (s : State) (o : Fin 4096) (b : List Byte) (x : List Byte), s.bar0Open = true ∧
    s.writeActs (mbOffset m.val o.val) true true = true ∧ x = List.take (4096 - o.val) b ∧ (s.mb m.val).busy = false) ∧
  (∃ (m : Fin 8) (s : State) (o : Fin 4096) (b : List Byte) (x : List Byte), s.bar0Open = true ∧
    s.writeActs (mbOffset m.val o.val) true true = true ∧ x = List.take (4096 - o.val) b ∧ (s.mb m.val).busy = true) ∧
  (∃ (m : Fin 8) (s : State), s.bar0Open = true ∧ s.writeActs (mbOffset (m.val) 8192) true true = true ∧ (s.mb m.val).busy = false) ∧
  (∃ (m : Fin 8) (s : State), s.bar0Open = true ∧ s.writeActs (mbOffset (m.val) 8192) true true = true ∧ (s.mb m.val).busy = true) ∧
  (∃ (m : Fin 8) (s : State) (v : Word32) (c : ℕ), s.bar0Open = true ∧ s.writeActs (mbOffset (m.val) 8224) false true = true ∧
    c = min (BitVec.toNat v * 2 ^ 32 + BitVec.toNat (s.mb m.val).consLow) (s.mb m.val).highDone) ∧
  (∃ (m : Fin 8) (s : State) (v : Word32) (c : ℕ), s.bar0Open = true ∧ s.writeActs (mbOffset (m.val) 8224) false true = true ∧
    c = min (BitVec.toNat v * 2 ^ 32 + BitVec.toNat (s.mb m.val).consLow) (s.mb m.val).highDone ∧ (s.mb m.val).consumed < c) ∧
  (∃ (m : Fin 8) (s : State) (v : Word32) (c : ℕ), s.bar0Open = true ∧ s.writeActs (mbOffset (m.val) 8224) false true = true ∧
    c = min (BitVec.toNat v * 2 ^ 32 + BitVec.toNat (s.mb m.val).consLow) (s.mb m.val).highDone ∧ (s.mb m.val).consumed < c) ∧
  (∃ (m : Fin 8) (s : State) (v : Word32) (c : ℕ), s.bar0Open = true ∧ s.writeActs (mbOffset (m.val) 8224) false true = true ∧
    c = min (BitVec.toNat v * 2 ^ 32 + BitVec.toNat (s.mb m.val).consLow) (s.mb m.val).highDone ∧ c ≤ (s.mb m.val).consumed) ∧
  (∃ (mm : Bool) (s : State) (b : MboxSt), s.vendorUp = true ∧ b = s.mb (mmNumber mm) ∧ b.busy = false) ∧
  (∃ (mm : Bool) (s : State) (b : MboxSt), s.vendorUp = true ∧ b = s.mb (mmNumber mm) ∧ b.busy = false) ∧
  (∃ (mm : Bool) (s : State) (b : MboxSt), s.vendorUp = true ∧ b = s.mb (mmNumber mm) ∧ b.busy = true) ∧
  (∃ (mm : Bool) (s : State) (b : MboxSt), s.vendorUp = true ∧ b = s.mb (mmNumber mm)) :=
  ⟨⟨7, up, 0xFF8, [1, 2, 3, 4, 5, 6, 7, 8], [1, 2, 3, 4, 5, 6, 7, 8], by decide +kernel⟩,
   ⟨7, up, 4095, [1, 2], [1], by decide +kernel⟩,
   ⟨0, (posted (getInfoB 1)), 8, [1], [1], by decide +kernel⟩,
   ⟨0, up, by decide +kernel⟩,
   ⟨0, (posted (getInfoB 1)), by decide +kernel⟩,
   ⟨0, up, 3, 0, by decide +kernel⟩,
   ⟨0, mbDone, 0, 1, by decide +kernel⟩,
   ⟨0, mbDone, 1, 2, by decide +kernel⟩,
   ⟨0, { mbDone with mbox := [(0, { next := 3, highDone := 2, consumed := 2, consLow := 1 })] }, 0, 1, by decide +kernel⟩,
   ⟨true, up, {}, by decide +kernel⟩,
   ⟨true, up, {}, by decide +kernel⟩,
   ⟨false, { up with mbox := [(8, { busy := true })] }, { busy := true }, by decide +kernel⟩,
   ⟨false, up, {}, by decide +kernel⟩⟩

theorem witness_MailboxDecisions :
  (∃ (m : MboxId) (s : State) (c : List Byte), s.ao.serving = true ∧ s.boot.devReady = true ∧ (s.mb m.val).busy = true ∧
    c = memRead (s.mb m.val).slot 0 (8 * (s.mb m.val).postLen) ∧ leAt c 10 2 = (s.mb m.val).postLen ∧
    8 ≤ (s.mb m.val).postLen ∧ (s.mb m.val).postLen ≤ 512 ∧ leAt c 0 8 = (s.mb m.val).next ∧
    (s.mb m.val).consumed < (s.mb m.val).next ∧ s.decideChecks (m.val) c = none) ∧
  (∃ (m : MboxId) (s : State) (c : List Byte), s.ao.serving = true ∧ s.boot.devReady = true ∧ (s.mb m.val).busy = true ∧
    c = memRead (s.mb m.val).slot 0 (8 * (s.mb m.val).postLen) ∧ leAt c 10 2 = (s.mb m.val).postLen ∧
    8 ≤ (s.mb m.val).postLen ∧ (s.mb m.val).postLen ≤ 512 ∧ (s.mb m.val).next < leAt c 0 8) :=
  ⟨⟨0, (posted (getInfoB 1)), (getInfoB 1), by decide +kernel⟩,
   ⟨0, (posted (getInfoB 2)), (getInfoB 2), by decide +kernel⟩⟩

theorem witness_RegisterWrites :
  (∃ (s : State), s.bar0Open = true ∧ s.writeActs 256 false false = true) ∧
  (∃ (s : State) (k : NetId), s.bar0Open = true ∧ s.writeActs (135188 + 32 * k.val) false false = true) ∧
  (∃ (s : State) (n : SectorId), s.bar0Open = true ∧ s.writeActs (155652 + 16 * n.val) false false = true) ∧
  (∃ (s : State) (o : ℕ), s.bar0Open = true ∧ ((∃ (c : CoreId), o = 131072 + 4 * c.val) ∨ o = 256 ∧
    s.writeActs 256 false false = false)) ∧
  (∃ (s : State) (o : ℕ), s.bar0Open = true ∧ ((∃ (c : CoreId), o = 131072 + 4 * c.val) ∨ o = 256 ∧
    s.writeActs 256 false false = false)) ∧
  (∃ (s : State) (o : ℕ) (size : ℕ), s.bar0Open = true ∧ regPage o = true ∧ o < 4194304 ∧ ¬(size = 4 ∧ o % 4 = 0) ∧ ¬(size = 8 ∧
    o % 8 = 0)) ∧
  (∃ (s : State) (o : ℕ) (size : ℕ), s.bar0Open = true ∧ regPage o = true ∧ o < 4194304 ∧ ¬(size = 4 ∧ o % 4 = 0) ∧ ¬(size = 8 ∧
    o % 8 = 0)) ∧
  (∃ (s : State), s.bar0Open = true ∧ s.writeActs 72 false true = true) ∧
  (∃ (s : State), s.bar0Open = true ∧ s.writeActs 151560 false true = true) ∧
  (∃ (s : State) (ch : TimerId) (r : Fin 9), s.bar0Open = true ∧ s.writeActs (143360 + 64 * ch.val + 4 * r.val) false false = true
    ∧ (s.tmr ch.val).due false = false ∧ (s.tmr ch.val).due true = false ∧ (r.val < 4 → s.tmrLocked ch.val = false)) ∧
  (∃ (s : State) (ch : TimerId) (r : Fin 9), s.bar0Open = true ∧ s.writeActs (143360 + 64 * ch.val + 4 * r.val) false false = true
    ∧ (s.tmr ch.val).due false = false ∧ (s.tmr ch.val).due true = false ∧ (r.val < 4 → s.tmrLocked ch.val = false)) ∧
  (∃ (s : State) (ch : TimerId) (r : Fin 9), s.bar0Open = true ∧ s.writeActs (143360 + 64 * ch.val + 4 * r.val) false false = true
    ∧ (s.tmr ch.val).due false = false ∧ (s.tmr ch.val).due true = false ∧ (r.val < 4 → s.tmrLocked ch.val = false)) ∧
  (∃ (s : State) (ch : TimerId) (r : Fin 9), s.bar0Open = true ∧ s.writeActs (143360 + 64 * ch.val + 4 * r.val) false false = true
    ∧ (s.tmr ch.val).due false = false ∧ (s.tmr ch.val).due true = false ∧ (r.val < 4 → s.tmrLocked ch.val = false)) ∧
  (∃ (s : State) (ch : TimerId) (r : Fin 9), s.bar0Open = true ∧ s.writeActs (143360 + 64 * ch.val + 4 * r.val) false false = true
    ∧ (s.tmr ch.val).due false = false ∧ (s.tmr ch.val).due true = false ∧ (r.val < 4 → s.tmrLocked ch.val = false)) ∧
  (∃ (s : State) (ch : TimerId) (r : Fin 9), s.bar0Open = true ∧ s.writeActs (143360 + 64 * ch.val + 4 * r.val) false false = true
    ∧ (s.tmr ch.val).due false = false ∧ (s.tmr ch.val).due true = false ∧ (r.val < 4 → s.tmrLocked ch.val = false)) ∧
  (∃ (s : State) (ch : TimerId) (r : Fin 9), s.bar0Open = true ∧ s.writeActs (143360 + 64 * ch.val + 4 * r.val) false false = true
    ∧ (s.tmr ch.val).due false = false ∧ (s.tmr ch.val).due true = false ∧ (r.val < 4 → s.tmrLocked ch.val = false)) ∧
  (∃ (s : State) (ch : TimerId) (r : Fin 9), s.bar0Open = true ∧ s.writeActs (143360 + 64 * ch.val + 4 * r.val) false false = true
    ∧ (s.tmr ch.val).due false = false ∧ (s.tmr ch.val).due true = false ∧ (r.val < 4 → s.tmrLocked ch.val = false)) ∧
  (∃ (s : State) (ch : TimerId) (r : Fin 9), s.bar0Open = true ∧ s.writeActs (143360 + 64 * ch.val + 4 * r.val) false false = true
    ∧ (s.tmr ch.val).due false = false ∧ (s.tmr ch.val).due true = false ∧ (r.val < 4 → s.tmrLocked ch.val = false)) ∧
  (∃ (s : State) (ch : TimerId) (r : Fin 9), s.bar0Open = true ∧ s.writeActs (143360 + 64 * ch.val + 4 * r.val) false false = true
    ∧ (s.tmr ch.val).due false = false ∧ (s.tmr ch.val).due true = false ∧ r.val < 4 ∧ s.tmrLocked ch.val = true) :=
  ⟨⟨{ up with pcie := { linkUp := true, cause := 5 } }, by decide +kernel⟩,
   ⟨{ up with nets := [(15, { events := 31 })] }, 15, by decide +kernel⟩,
   ⟨up, 7, by decide +kernel⟩,
   ⟨up, 0x201FC, by decide +kernel, (.inl ⟨127, rfl⟩)⟩,
   ⟨{ up with ao := { up.ao with pstate := 3 } }, 0x100, by decide +kernel, (.inr ⟨rfl, by decide +kernel⟩)⟩,
   ⟨up, 0x42, 4, by decide +kernel⟩,
   ⟨up, 0x44, 8, by decide +kernel⟩,
   ⟨up, by decide +kernel⟩,
   ⟨up, by decide +kernel⟩,
   ⟨up, 15, 0, by decide +kernel⟩,
   ⟨up, 15, 1, by decide +kernel⟩,
   ⟨up, 15, 2, by decide +kernel⟩,
   ⟨up, 15, 3, by decide +kernel⟩,
   ⟨up, 15, 4, by decide +kernel⟩,
   ⟨up, 15, 5, by decide +kernel⟩,
   ⟨up, 15, 6, by decide +kernel⟩,
   ⟨{ up with timers := [(15, { status := 31 })] }, 15, 7, by decide +kernel⟩,
   ⟨up, 15, 8, by decide +kernel⟩,
   ⟨sLocked, 15, 2, by decide +kernel⟩⟩

theorem witness_RegisterReads :
  (∃ (s : State), s.bar0Open = true) ∧
  (∃ (s : State), s.bar0Open = true) ∧
  (∃ (s : State), s.bar0Open = true) ∧
  (∃ (s : State) (k : NetId) (o : ℕ), s.bar0Open = true ∧ o = 135168 + 32 * k.val) ∧
  (∃ (s : State) (m : Fin 8) (r : Fin 3) (o : ℕ), s.bar0Open = true ∧ o = mbOffset (m.val) (8208 + 8 * r.val)) ∧
  (∃ (s : State) (o : ℕ), s.bar0Open = true ∧ 2097152 ≤ o / 4 * 4 ∧ o / 4 * 4 < 4194304) ∧
  (∃ (s : State), s.bar0Open = true) ∧
  (∃ (s : State), s.bar0Open = true) ∧
  (∃ (s : State) (ch : TimerId) (o : ℕ), s.bar0Open = true ∧ o = 143368 + 64 * ch.val) ∧
  (∃ (s : State) (ch : TimerId) (o : ℕ), s.bar0Open = true ∧ o = 143368 + 64 * ch.val) ∧
  (∃ (s : State) (ch : TimerId) (u : Bool) (o : ℕ), s.bar0Open = true ∧ o = 143376 + 64 * ch.val + 4 * b2n u) :=
  ⟨⟨up, by decide +kernel⟩,
   ⟨{ up with ao := { up.ao with pstate := 3 } }, by decide +kernel⟩,
   ⟨up, by decide +kernel⟩,
   ⟨up, 15, 0x211E0, by decide +kernel⟩,
   ⟨up, 7, 2, 0x11E020, by decide +kernel⟩,
   ⟨up, 0x200010, by decide +kernel⟩,
   ⟨up, by decide +kernel⟩,
   ⟨{ up with pcie := { linkUp := true, flowEv := [(1, 9), (2, 3)] } }, by decide +kernel⟩,
   ⟨{ up with timers := [(3, { count := 7 })] }, 2, 0x23088, by decide +kernel⟩,
   ⟨{ up with timers := [(3, { count := 7 })] }, 3, 0x230C8, by decide +kernel⟩,
   ⟨{ up with timers := [(3, { snapcfg := 0x44000000, status := 7 })] }, 3, true, 0x230D4, by decide +kernel⟩⟩

theorem witness_HostWindowReachesGddr :
  (∃ (s : State) (o : ℕ) (a : ℕ) (b : List Byte), s.bar0Open = true ∧ s.pcie.window o = some a ∧ s.ao.pstate ≠ 3 ∧
    s.gHeld a b.length = false ∧ ∀ x ∈ blockSpan a b.length, s.hostMayWrite (x.1 * 64) = true) ∧
  (∃ (s : State) (o : ℕ) (a : ℕ) (b : List Byte), s.bar0Open = true ∧ s.pcie.window o = some a ∧ s.ao.pstate ≠ 3 ∧
    ∀ x ∈ blockSpan a b.length, s.hostMayWrite (x.1 * 64) = false) ∧
  (∃ (s : State) (o : ℕ) (a : ℕ) (len : ℕ), s.bar0Open = true ∧ s.pcie.window o = some a ∧ s.ao.pstate ≠ 3 ∧ s.gHeld a len = false) ∧
  (∃ (s : State) (o : ℕ) (a : ℕ) (len : ℕ), s.bar0Open = true ∧ s.pcie.window o = some a ∧ s.ao.pstate ≠ 3 ∧ s.gHeld a len = false) ∧
  (∃ (s : State) (o : ℕ) (a : ℕ), s.bar0Open = true ∧ s.pcie.window o = some a ∧ s.ao.pstate = 3) ∧
  (∃ (s : State) (o : ℕ) (a : ℕ), s.bar0Open = true ∧ s.pcie.window o = some a ∧ s.ao.pstate = 3) :=
  ⟨⟨sWin, 0x40, 0x70000040, [1, 2], by (and_intros <;> first | decide +kernel | (intros; rfl))⟩,
   ⟨{ up with gddr := gUp }, 0x40, 0x40, [1, 2], by (and_intros <;> first | decide +kernel | (intros; rfl))⟩,
   ⟨sWin, 0x40, 0x70000040, 4, by decide +kernel⟩,
   ⟨{ sWin with gddr := { gUp with ecc := true, poison := [(0x1C00001, true)] } }, 0x40, 0x70000040, 4, by decide +kernel⟩,
   ⟨{ sWin with ao := { up.ao with pstate := 3 } }, 0x40, 0x70000040, by decide +kernel⟩,
   ⟨{ sWin with ao := { up.ao with pstate := 3 } }, 0x40, 0x70000040, by decide +kernel⟩⟩

theorem witness_LinkAndConfiguration :
  (∃ (s : State), s.pcie.linkUp = true) ∧
  (∃ (s : State), s.pcie.linkUp = true) ∧
  (∃ (s : State), s.pcie.linkUp = true) ∧
  (∃ (s : State), s.ao.porReleased = true ∧ s.ao.inReset = false ∧ s.ao.perstHigh = true ∧ s.ao.resetHigh = true ∧
    (s.boot.cold = true → s.boot.next ≠ 1)) ∧
  (∃ (s : State), s.pcie.linkUp = true ∧ s.ao.inReset = false ∧ (s.boot.fwVerified = true ∨ s.boot.phase = 9)) ∧
  (∃ (s : State), s.pcie.linkUp = true ∧ s.ao.inReset = false ∧ (s.boot.fwVerified = true ∨ s.boot.phase = 9)) ∧
  (∃ (s : State), s.pcie.linkUp = true ∧ s.ao.inReset = false ∧ (s.boot.fwVerified = true ∨ s.boot.phase = 9)) ∧
  (∃ (s : State), s.pcie.linkUp = true ∧ s.ao.inReset = false ∧ (s.boot.fwVerified = true ∨ s.boot.phase = 9)) ∧
  (∃ (s : State), s.pcie.linkUp = true ∧ s.ao.inReset = false ∧ (s.boot.fwVerified = true ∨ s.boot.phase = 9)) ∧
  (∃ (s : State), s.pcie.linkUp = true ∧ s.ao.inReset = false ∧ (s.boot.fwVerified = true ∨ s.boot.phase = 9)) ∧
  (∃ (s : State), s.pcie.linkUp = true ∧ s.ao.inReset = false ∧ (s.boot.fwVerified = true ∨ s.boot.phase = 9)) ∧
  (∃ (s : State), s.pcie.linkUp = true ∧ s.ao.inReset = false ∧ s.boot.fwVerified = false ∧ s.boot.phase ≠ 9) ∧
  (∃ (s : State), s.bar0Open = true) :=
  ⟨⟨up, by decide +kernel⟩,
   ⟨{ up with pcie := { linkUp := true, ecrc := true } }, by decide +kernel⟩,
   ⟨up, by decide +kernel⟩,
   ⟨{ up with pcie := {} }, by decide +kernel⟩,
   ⟨up, by decide +kernel⟩,
   ⟨up, by decide +kernel⟩,
   ⟨up, by decide +kernel⟩,
   ⟨up, by decide +kernel⟩,
   ⟨up, by decide +kernel⟩,
   ⟨up, by decide +kernel⟩,
   ⟨up, by decide +kernel⟩,
   ⟨{ up with boot := { phase := 2 } }, by decide +kernel⟩,
   ⟨{ up with pcie := { linkUp := true, busMaster := true, msixEn := true, pba := 8 } }, by decide +kernel⟩⟩

theorem witness_SessionCommands :
  (∃ (m : MboxId) (s : State) (e : JEntry), s.Ready (m.val) 1 e ∧ leAt e.cmd 64 1 ≤ 1 ∧ 1 ≤ leAt e.cmd 65 1) ∧
  (∃ (m : MboxId) (s : State) (e : JEntry), s.Ready (m.val) 2 e) ∧
  (∃ (m : MboxId) (s : State) (e : JEntry), s.Ready (m.val) 2 e) ∧
  (∃ (m : MboxId) (s : State) (e : JEntry) (sc : ℕ) (i : ℕ), sc = leAt e.cmd 64 1 ∧ i = leAt e.cmd 68 4 ∧ s.Ready (m.val) 97 e ∧
    leAt e.cmd 65 1 ≠ 1) ∧
  (∃ (m : MboxId) (s : State) (e : JEntry) (sc : ℕ) (i : ℕ), sc = leAt e.cmd 64 1 ∧ i = leAt e.cmd 68 4 ∧ s.Ready (m.val) 97 e ∧
    leAt e.cmd 65 1 = 1) ∧
  (∃ (m : MboxId) (s : State) (e : JEntry), s.Ready (m.val) 1 e ∧ (1 < leAt e.cmd 64 1 ∨ leAt e.cmd 65 1 < 1)) ∧
  (∃ (m : MboxId) (s : State) (e : JEntry), s.Ready (m.val) 1 e ∧ (1 < leAt e.cmd 64 1 ∨ leAt e.cmd 65 1 < 1)) :=
  ⟨⟨0, (mbUp (entry 1 255 [(0x41, 1, 1), (0x48, 8, 3)])), (entry 1 255 [(0x41, 1, 1), (0x48, 8, 3)]),
    by (unfold State.Ready; and_intros <;> first | decide +kernel | (intros; rfl))⟩,
   ⟨0, (mbUp (entry 2 255 [(0x18, 2, 4096)])), (entry 2 255 [(0x18, 2, 4096)]),
    by (unfold State.Ready; and_intros <;> first | decide +kernel | (intros; rfl))⟩,
   ⟨8, { up with mbox := [(8, { next := 2, session := true, journal := [entry 2 255 []] })] }, (entry 2 255 []),
    by (unfold State.Ready; and_intros <;> first | decide +kernel | (intros; rfl))⟩,
   ⟨0, (mbUp (entry 0x61 255 [])), (entry 0x61 255 []), 0, 0,
    by (unfold State.Ready; and_intros <;> first | decide +kernel | (intros; rfl))⟩,
   ⟨0, (mbUp (entry 0x61 255 [(0x40, 1, 2), (0x41, 1, 1), (0x44, 4, 3)])),
    (entry 0x61 255 [(0x40, 1, 2), (0x41, 1, 1), (0x44, 4, 3)]), 2, 3,
    by (unfold State.Ready; and_intros <;> first | decide +kernel | (intros; rfl))⟩,
   ⟨0, (mbUp (entry 1 255 [(0x40, 1, 2), (0x41, 1, 2)])), (entry 1 255 [(0x40, 1, 2), (0x41, 1, 2)]),
    by (unfold State.Ready; and_intros <;> first | decide +kernel | (intros; rfl))⟩,
   ⟨0, (mbUp (entry 1 255 [])), (entry 1 255 []), by (unfold State.Ready; and_intros <;> first | decide +kernel | (intros; rfl))⟩⟩

theorem witness_NetworkCommands :
  (∃ (m : MboxId) (s : State) (e : JEntry) (k : ℕ) (kind : ℕ) (ch : ℕ) (p : ℕ), k = cmdNet e.cmd ∧ (s.net k).image ≠ 0 ∧
    (s.net k).shed = false ∧ kind = leAt e.cmd 64 1 ∧ (ch = if kind = 3 then 0 else leAt e.cmd 65 1) ∧ p = leAt e.cmd 68 4 ∧
    s.Ready (m.val) 34 e ∧ s.sourceFits k kind p = true ∧ (kind ≠ 3 → s.channelTaken k ch = false) ∧ (kind = 2 →
    (s.tmr ch).slavedTo ch (leAt e.cmd 66 1) = true) ∧ (s.net k).running = false) ∧
  (∃ (m : MboxId) (s : State) (e : JEntry) (k : ℕ) (kind : ℕ) (ch : ℕ) (p : ℕ), k = cmdNet e.cmd ∧ (s.net k).image ≠ 0 ∧
    (s.net k).shed = false ∧ kind = leAt e.cmd 64 1 ∧ (ch = if kind = 3 then 0 else leAt e.cmd 65 1) ∧ p = leAt e.cmd 68 4 ∧
    s.Ready (m.val) 34 e ∧ s.sourceFits k kind p = true ∧ (kind ≠ 3 → s.channelTaken k ch = false) ∧ (kind = 2 →
    (s.tmr ch).slavedTo ch (leAt e.cmd 66 1) = true) ∧ (s.net k).running = false) ∧
  (∃ (m : MboxId) (s : State) (e : JEntry) (k : ℕ) (kind : ℕ) (ch : ℕ) (p : ℕ), k = cmdNet e.cmd ∧ (s.net k).image ≠ 0 ∧
    (s.net k).shed = false ∧ kind = leAt e.cmd 64 1 ∧ (ch = if kind = 3 then 0 else leAt e.cmd 65 1) ∧ p = leAt e.cmd 68 4 ∧
    s.Ready (m.val) 34 e ∧ s.sourceFits k kind p = true ∧ (kind ≠ 3 → s.channelTaken k ch = false) ∧ (kind = 2 →
    (s.tmr ch).slavedTo ch (leAt e.cmd 66 1) = true) ∧ (s.net k).running = true ∧ kind ≠ 3) ∧
  (∃ (m : MboxId) (s : State) (e : JEntry) (k : ℕ), k = cmdNet e.cmd ∧ (s.net k).image ≠ 0 ∧ (s.net k).shed = false ∧
    s.Ready (m.val) 35 e ∧ (s.net k).blocked = false ∧ (s.net k).source.kind ≠ 0 ∧ (s.net k).source.kind ≠ 3 ∧
    (s.net k).running = false) ∧
  (∃ (m : MboxId) (s : State) (e : JEntry) (k : ℕ), k = cmdNet e.cmd ∧ (s.net k).image ≠ 0 ∧ (s.net k).shed = false ∧
    s.Ready (m.val) 36 e ∧ (s.net k).running = false) ∧
  (∃ (m : MboxId) (s : State) (e : JEntry) (k : ℕ), k = cmdNet e.cmd ∧ (s.net k).image ≠ 0 ∧ (s.net k).shed = false ∧
    s.Ready (m.val) 36 e ∧ (s.net k).running = true ∧ (((s.net k).cores.all fun (c : ℕ) => (s.core c).stepOver) = false ∨
    s.migrating k = true)) ∧
  (∃ (m : MboxId) (s : State) (e : JEntry) (k : ℕ), k = cmdNet e.cmd ∧ (s.net k).image ≠ 0 ∧ (s.net k).shed = false ∧
    s.Ready (m.val) 36 e ∧ (s.net k).running = true ∧ ((s.net k).cores.all fun (c : ℕ) => (s.core c).stepOver) = true ∧
    s.migrating k = false ∧ ∀ c ∈ (s.net k).cores, (s.core c).snapWait = 0) ∧
  (∃ (m : MboxId) (s : State) (e : JEntry) (k : ℕ) (why : ℕ), k = cmdNet e.cmd ∧ s.Ready (m.val) 35 e ∧ (s.net k).image ≠ 0 ∧
    (s.net k).shed = false ∧ ((s.net k).blocked = true ∧ why = Why.coreUnavailable ∨ (s.net k).blocked = false ∧
    (s.net k).source.kind = 0 ∧ why = Why.noSource ∨ (s.net k).blocked = false ∧ (s.net k).source.kind ≠ 0 ∧
    (s.net k).running = true ∧ why = Why.netRunning)) ∧
  (∃ (m : MboxId) (s : State) (e : JEntry) (k : ℕ) (why : ℕ), k = cmdNet e.cmd ∧ s.Ready (m.val) 35 e ∧ (s.net k).image ≠ 0 ∧
    (s.net k).shed = false ∧ ((s.net k).blocked = true ∧ why = Why.coreUnavailable ∨ (s.net k).blocked = false ∧
    (s.net k).source.kind = 0 ∧ why = Why.noSource ∨ (s.net k).blocked = false ∧ (s.net k).source.kind ≠ 0 ∧
    (s.net k).running = true ∧ why = Why.netRunning)) ∧
  (∃ (m : MboxId) (s : State) (e : JEntry) (k : ℕ) (why : ℕ), k = cmdNet e.cmd ∧ s.Ready (m.val) 35 e ∧ (s.net k).image ≠ 0 ∧
    (s.net k).shed = false ∧ ((s.net k).blocked = true ∧ why = Why.coreUnavailable ∨ (s.net k).blocked = false ∧
    (s.net k).source.kind = 0 ∧ why = Why.noSource ∨ (s.net k).blocked = false ∧ (s.net k).source.kind ≠ 0 ∧
    (s.net k).running = true ∧ why = Why.netRunning)) :=
  ⟨⟨0, (netUp net2 (srcE 1)), (srcE 1), 2, 1, 5, 50000,
    by (unfold State.Ready; and_intros <;> first | decide +kernel | (intros; rfl))⟩,
   ⟨0, (netUp (netL false) (srcE 3)), (srcE 3), 2, 3, 0, 50000,
    by (unfold State.Ready; and_intros <;> first | decide +kernel | (intros; rfl))⟩,
   ⟨0, (netUp (netL true) (srcE 1)), (srcE 1), 2, 1, 5, 50000,
    by (unfold State.Ready; and_intros <;> first | decide +kernel | (intros; rfl))⟩,
   ⟨0, (netUp net2 (entry 0x23 2 [])), (entry 0x23 2 []), 2,
    by (unfold State.Ready; and_intros <;> first | decide +kernel | (intros; rfl))⟩,
   ⟨0, (netUp net2 (entry 0x24 2 [])), (entry 0x24 2 []), 2,
    by (unfold State.Ready; and_intros <;> first | decide +kernel | (intros; rfl))⟩,
   ⟨0, { netUp { net2 with running := true } (entry 0x24 2 []) with cores := [(3, { net := 3, image := 1, phase := 1 })] },
    (entry 0x24 2 []), 2, by (unfold State.Ready; and_intros <;> first | decide +kernel | (intros; rfl))⟩,
   ⟨0,
    { netUp { net2 with running := true } (entry 0x24 2 []) with cores := [(3, { net := 3, image := 1, phase := 3 }), (4, { net := 3, image := 1, phase := 3 })] },
    (entry 0x24 2 []), 2, by (unfold State.Ready; and_intros <;> first | decide +kernel | (intros; rfl))⟩,
   ⟨0, (netUp { net2 with blocked := true } (entry 0x23 2 [])), (entry 0x23 2 []), 2, Why.coreUnavailable,
    by (unfold State.Ready; and_intros <;> first | decide +kernel | (intros; rfl))⟩,
   ⟨0, (netUp { net2 with source := {} } (entry 0x23 2 [])), (entry 0x23 2 []), 2, Why.noSource,
    by (unfold State.Ready; and_intros <;> first | decide +kernel | (intros; rfl))⟩,
   ⟨0, (netUp { net2 with running := true } (entry 0x23 2 [])), (entry 0x23 2 []), 2, Why.netRunning,
    by (unfold State.Ready; and_intros <;> first | decide +kernel | (intros; rfl))⟩⟩

theorem witness_EnsignAndStreamCommands :
  (∃ (m : MboxId) (s : State) (e : JEntry), s.Ready (m.val) 112 e ∧ (s.net (cmdNet e.cmd)).image ≠ 0 ∧
    (s.net (cmdNet e.cmd)).shed = false ∧ (s.net (cmdNet e.cmd)).isEnsign = true ∧ s.fault.ensActive = false) ∧
  (∃ (m : MboxId) (s : State) (e : JEntry), s.Ready (m.val) 113 e ∧ s.fault.ensSet = true ∧ s.fault.ensActive = false ∧
    s.ao.ensignPending = 0 ∧ s.ao.pstate < 2) ∧
  (∃ (m : MboxId) (s : State) (e : JEntry), s.Ready (m.val) 113 e ∧ s.fault.ensSet = true ∧ s.fault.ensActive = false ∧
    s.ao.ensignPending = 0 ∧ s.ao.pstate < 2 ∧ (∀ (k : ℕ), k ≠ s.fault.ensNet → (s.net k).image = 0 ∨ (s.net k).shed = true) ∧
    (s.net s.fault.ensNet).running = true) ∧
  (∃ (m : MboxId) (s : State) (e : JEntry), s.Ready (m.val) 113 e ∧ s.fault.ensSet = true ∧ s.fault.ensActive = true) ∧
  (∃ (m : MboxId) (s : State) (e : JEntry), s.Ready (m.val) 114 e ∧ s.fault.ensActive = false) ∧
  (∃ (m : MboxId) (s : State) (e : JEntry), s.Ready (m.val) 114 e ∧ s.fault.ensActive = true ∧ (upTo 4).any s.trigHolds = false) ∧
  (∃ (m : MboxId) (s : State) (e : JEntry), s.Ready (m.val) 114 e ∧ s.fault.ensActive = true ∧ (upTo 4).any s.trigHolds = true) ∧
  (∃ (m : MboxId) (s : State) (e : JEntry) (k : ℕ) (n : ℕ), k = cmdNet e.cmd ∧ n = leAt e.cmd 64 1 ∧ (s.net k).image ≠ 0 ∧
    (s.net k).shed = false ∧ s.Ready (m.val) 32 e ∧ (s.stc n).bound = false ∧ (s.stc n).bindWait = 0 ∧
    s.bindFits k n e.cmd = true ∧ (s.net k).running = false) ∧
  (∃ (m : MboxId) (s : State) (e : JEntry) (k : ℕ) (n : ℕ), k = cmdNet e.cmd ∧ n = leAt e.cmd 64 1 ∧ (s.net k).image ≠ 0 ∧
    (s.net k).shed = false ∧ s.Ready (m.val) 32 e ∧ (s.stc n).bound = false ∧ (s.stc n).bindWait = 0 ∧
    s.bindFits k n e.cmd = true ∧ (s.net k).running = true) ∧
  (∃ (m : MboxId) (s : State) (e : JEntry) (k : ℕ) (n : ℕ), k = cmdNet e.cmd ∧ n = leAt e.cmd 64 1 ∧ (s.net k).image ≠ 0 ∧
    (s.net k).shed = false ∧ s.Ready (m.val) 33 e ∧ (s.stc n).bound = true ∧ (s.stc n).net = k ∧ (s.net k).running = false) ∧
  (∃ (m : MboxId) (s : State) (e : JEntry) (k : ℕ) (n : ℕ), k = cmdNet e.cmd ∧ n = leAt e.cmd 64 1 ∧ (s.net k).image ≠ 0 ∧
    (s.net k).shed = false ∧ s.Ready (m.val) 33 e ∧ (s.stc n).bound = true ∧ (s.stc n).net = k ∧ (s.net k).running = true) :=
  ⟨⟨0, (netUp { net2 with isEnsign := true } (entry 0x70 2 [(0x40, 1, 15), (0x44, 4, 100)])),
    (entry 0x70 2 [(0x40, 1, 15), (0x44, 4, 100)]),
    by (unfold State.Ready; and_intros <;> first | decide +kernel | (intros; rfl))⟩,
   ⟨0, (sEns false true {} 0x71), (ensE 0x71), by (unfold State.Ready; and_intros <;> first | decide +kernel | (intros; rfl))⟩,
   ⟨0, (sEns true false {} 0x71), (ensE 0x71), by unfold State.Ready; decide +kernel, by decide +kernel, by decide +kernel,
    by decide +kernel, by decide +kernel, fun k hk => .inl (by have h : k ≠ 2 := hk; simp [sEns, State.net, Tab.get, h.symm]),
    by decide +kernel⟩,
   ⟨0, (sEns true false { ensActive := true } 0x71), (ensE 0x71),
    by (unfold State.Ready; and_intros <;> first | decide +kernel | (intros; rfl))⟩,
   ⟨0, (sEns true false {} 0x72), (ensE 0x72), by (unfold State.Ready; and_intros <;> first | decide +kernel | (intros; rfl))⟩,
   ⟨0, (sEns true false { ensActive := true } 0x72), (ensE 0x72),
    by (unfold State.Ready; and_intros <;> first | decide +kernel | (intros; rfl))⟩,
   ⟨0, { sEns true false { ensActive := true, ensEnabled := 2 } 0x72 with ao := { up.ao with emergency := true } }, (ensE 0x72),
    by (unfold State.Ready; and_intros <;> first | decide +kernel | (intros; rfl))⟩,
   ⟨0, (sBind false {} bindE), bindE, 2, 7, by (unfold State.Ready; and_intros <;> first | decide +kernel | (intros; rfl))⟩,
   ⟨0, (sBind true {} bindE), bindE, 2, 7, by (unfold State.Ready; and_intros <;> first | decide +kernel | (intros; rfl))⟩,
   ⟨0, (sBind false { bound := true, net := 2 } unbindE), unbindE, 2, 7,
    by (unfold State.Ready; and_intros <;> first | decide +kernel | (intros; rfl))⟩,
   ⟨0, (sBind true { bound := true, net := 2 } unbindE), unbindE, 2, 7,
    by (unfold State.Ready; and_intros <;> first | decide +kernel | (intros; rfl))⟩⟩

set_option maxRecDepth 8000 in
theorem witness_ImagesLoadAndUnload :
  (∃ (m : MboxId) (s : State) (e : JEntry) (b : List Byte) (l : List Byte) (g : Image), s.Ready (m.val) 16 e ∧
    (leAt e.cmd 64 1 = 1 → s.gddr.imageBase ≤ leAt e.cmd 72 8 ∧ leAt e.cmd 72 8 + leAt e.cmd 80 8 ≤ s.gddr.top) ∧
    (s.imageSource e.cmd b).2 = some l ∧ (nbit (leAt e.cmd 65 1) 0 = false ∨ sha512 l = List.take 64 (List.drop 112 e.cmd)) ∧
    parseImage l (leAt e.cmd 80 8) = Except.ok g ∧ s.featureChk (m.val) g.cand = none ∧ g.kind = 1 ∧ g.fabricChk = none ∧
    (leAt (g.body 32 65535) 0 2 = s.deviceId ∨ (List.any s.flows fun (f : ℕ × FlowSt) => f.2.fstate != 0) = false)) ∧
  (∃ (m : MboxId) (s : State) (e : JEntry) (b : List Byte) (l : List Byte) (g : Image) (slots : List ℕ), s.Ready (m.val) 16 e ∧
    (leAt e.cmd 64 1 = 1 → s.gddr.imageBase ≤ leAt e.cmd 72 8 ∧ leAt e.cmd 72 8 + leAt e.cmd 80 8 ≤ s.gddr.top) ∧
    (s.imageSource e.cmd b).2 = some l ∧ (nbit (leAt e.cmd 65 1) 0 = false ∨ sha512 l = List.take 64 (List.drop 112 e.cmd)) ∧
    parseImage l (leAt e.cmd 80 8) = Except.ok g ∧ s.featureChk (m.val) g.cand = none ∧
    slots = List.take g.cand.nets.length s.freeSlots ∧ g.kind ≠ 1 ∧
    (Option.or g.cand.validity (s.expertChk g.cand)).or (s.fitChk g.cand (loadAvoid e.cmd)) = none) ∧
  (∃ (m : MboxId) (s : State) (e : JEntry) (h : ℕ) (slots : List ℕ), h = leAt e.cmd 64 2 ∧
    slots = (s.images.get { kind := 0, bytes := [], digest := [], slots := [] } h).slots ∧ s.Ready (m.val) 17 e ∧
    s.images.keys.contains h = true ∧ (∀ k ∈ slots, (s.net k).running = false) ∧ ∀ f ∈ s.flows, f.2.fstate = flowClosed ∨
    f.2.net ∉ slots) :=
  ⟨⟨0, { mbUp loadE with out := [] }, loadE, fabB, fabB, fabG, by unfold State.Ready; decide +kernel, by decide +kernel,
    loadE_source, by decide +kernel, loadE_parses, by decide +kernel, rfl, fabG_chk, by decide +kernel⟩,
   ⟨0, sLoad, cLoadE, cImg, cImg, cImgG, [0], by (unfold State.Ready; and_intros <;> first | decide +kernel | (intros; rfl))⟩,
   ⟨0, sUnload, (entry 0x11 255 [(0x40, 2, 1)]), 1, [2],
    by (unfold State.Ready; and_intros <;> first | decide +kernel | (intros; rfl))⟩⟩

theorem witness_WeightCommandsComplete :
  (∃ (m : MboxId) (s : State) (e : JEntry) (k : ℕ) (c : ℕ) (a : ℕ) (n : ℕ), k = cmdNet e.cmd ∧ (s.net k).image ≠ 0 ∧
    (s.net k).shed = false ∧ (s.net k).running = false ∧ c = leAt e.cmd 64 2 ∧ a = leAt e.cmd 66 2 ∧ n = leAt e.cmd 68 2 ∧
    s.Ready (m.val) 49 e ∧ (s.net k).cores.contains c = true ∧ a + n ≤ (s.core c).nRows ∧ (leAt e.cmd 70 1 = 1 →
    2 ≤ fld (s.core c).trainCfg 31 30)) ∧
  (∃ (m : MboxId) (s : State) (e : JEntry) (k : ℕ) (c : ℕ) (a : ℕ) (n : ℕ), k = cmdNet e.cmd ∧ (s.net k).image ≠ 0 ∧
    (s.net k).shed = false ∧ (s.net k).running = false ∧ c = leAt e.cmd 64 2 ∧ a = leAt e.cmd 66 2 ∧ n = leAt e.cmd 68 2 ∧
    s.Ready (m.val) 49 e ∧ (s.net k).cores.contains c = true ∧ a + n ≤ (s.core c).nRows ∧ (leAt e.cmd 70 1 = 1 →
    2 ≤ fld (s.core c).trainCfg 31 30)) ∧
  (∃ (m : MboxId) (s : State) (e : JEntry) (k : ℕ) (c : ℕ) (b : List Byte) (rows : List (ℕ × List Byte)), k = cmdNet e.cmd ∧
    (s.net k).image ≠ 0 ∧ (s.net k).shed = false ∧ (s.net k).running = false ∧ c = leAt e.cmd 64 2 ∧ s.Ready (m.val) 48 e ∧
    (s.net k).cores.contains c = true ∧ (s.core c).writeRows c b = some rows ∧ b.length = leAt e.cmd 80 4 ∧
    (s.core c).learnRows = [] ∧ (s.core c).learnSkipped = [] ∧ (s.core c).snapWait = 0) ∧
  (∃ (m : MboxId) (s : State) (e : JEntry) (k : ℕ), k = cmdNet e.cmd ∧ (s.net k).image ≠ 0 ∧ (s.net k).shed = false ∧
    (s.net k).running = false ∧ s.Ready (m.val) 50 e ∧ ((s.net k).cores.any fun (c : ℕ) => (s.core c).accumulates) = true ∧
    s.reduces k = false) ∧
  (∃ (m : MboxId) (s : State) (e : JEntry) (k : ℕ) (r : Region), k = cmdNet e.cmd ∧ (s.net k).image ≠ 0 ∧ (s.net k).shed = false ∧
    (s.net k).running = false ∧ s.Ready (m.val) 51 e ∧ s.ckptRegion e = some r) ∧
  (∃ (m : MboxId) (s : State) (e : JEntry) (k : ℕ) (a : ℕ) (n : ℕ) (ck : Ckpt), k = cmdNet e.cmd ∧ (s.net k).image ≠ 0 ∧
    (s.net k).shed = false ∧ (s.net k).running = false ∧ a = leAt e.cmd 64 8 ∧ n = leAt e.cmd 72 8 ∧ s.Ready (m.val) 52 e ∧
    a + n ≤ s.gddr.top ∧ List.find? (fun (x : Ckpt) => x.len == n && x.digest == s.imageDigest (s.net k) && s.gPeek a n ==
    ckptBytes x.seed x.len) s.gddr.ckpts = some ck) :=
  ⟨⟨0, (sW { nRows := 2 } (rdE 0)), (rdE 0), 2, 3, 1, 1,
    by (unfold State.Ready; and_intros <;> first | decide +kernel | (intros; rfl))⟩,
   ⟨0, (sW { nRows := 2, trainCfg := 0x80000000 } (rdE 1)), (rdE 1), 2, 3, 1, 1,
    by (unfold State.Ready; and_intros <;> first | decide +kernel | (intros; rfl))⟩,
   ⟨0, (sW { nRows := 2 } wrE), wrE, 2, 3, wrB, [], by (unfold State.Ready; and_intros <;> first | decide +kernel | (intros; rfl))⟩,
   ⟨0, (sW { nRows := 0, trainCfg := 0x80000000 } (entry 0x32 2 [])), (entry 0x32 2 []), 2,
    by (unfold State.Ready; and_intros <;> first | decide +kernel | (intros; rfl))⟩,
   ⟨0, { netUp net2 ckE with regions := [ckR] }, ckE, 2, ckR,
    by (unfold State.Ready; and_intros <;> first | decide +kernel | (intros; rfl))⟩,
   ⟨0, { netUp net2 rsE with gddr := { gUp with ckpts := [{ base := 0x10000000, step := 9, pos := 1 }] } }, rsE, 2, 0x10000000, 0,
    { base := 0x10000000, step := 9, pos := 1 }, by (unfold State.Ready; and_intros <;> first | decide +kernel | (intros; rfl))⟩⟩

theorem witness_FlowCommandsComplete :
  (∃ (m : MboxId) (s : State) (e : JEntry) (f : ℕ) (a : ℕ × ℕ), f = leAt e.cmd 64 4 ∧ s.Ready (m.val) 64 e ∧
    (s.net (cmdNet e.cmd)).image ≠ 0 ∧ (s.net (cmdNet e.cmd)).shed = false ∧ leAt e.cmd 68 2 ≠ s.deviceId ∧
    (s.flow f).fstate = flowClosed ∧ s.quotaAt (leAt e.cmd 80 4 * 65536) (leAt e.cmd 84 4 * 65536) = some a ∧
    (leAt e.cmd 72 1 = 1 → s.commitGood f = true ∧ (s.commitOf f).epoch ≠ 65535 ∧ (s.commitOf f).peerDev = leAt e.cmd 68 2 ∧
    (s.commitOf f).peerFlow = leAt e.cmd 70 2)) ∧
  (∃ (m : MboxId) (s : State) (e : JEntry) (f : ℕ) (a : ℕ × ℕ), f = leAt e.cmd 64 4 ∧ s.Ready (m.val) 64 e ∧
    (s.net (cmdNet e.cmd)).image ≠ 0 ∧ (s.net (cmdNet e.cmd)).shed = false ∧ leAt e.cmd 68 2 ≠ s.deviceId ∧
    (s.flow f).fstate = flowClosed ∧ s.quotaAt (leAt e.cmd 80 4 * 65536) (leAt e.cmd 84 4 * 65536) = some a ∧
    (leAt e.cmd 72 1 = 1 → s.commitGood f = true ∧ (s.commitOf f).epoch ≠ 65535 ∧ (s.commitOf f).peerDev = leAt e.cmd 68 2 ∧
    (s.commitOf f).peerFlow = leAt e.cmd 70 2)) ∧
  (∃ (m : MboxId) (s : State) (e : JEntry) (f : ℕ), f = leAt e.cmd 64 4 ∧ s.Ready (m.val) 65 e ∧ (s.flow f).fstate = flowClosed) ∧
  (∃ (m : MboxId) (s : State) (e : JEntry) (f : ℕ), f = leAt e.cmd 64 4 ∧ s.Ready (m.val) 65 e ∧ (s.flow f).fstate ≠ flowClosed ∧
    leAt e.cmd 68 1 = 1 ∧ (s.flow f).closer = 0) ∧
  (∃ (m : MboxId) (s : State) (e : JEntry) (f : ℕ), f = leAt e.cmd 64 4 ∧ s.Ready (m.val) 65 e ∧ (s.flow f).fstate ≠ flowClosed ∧
    leAt e.cmd 68 1 ≠ 1 ∧ seqNext (s.flow f).ackedSeq ≠ (s.flow f).nextSeq) ∧
  (∃ (m : MboxId) (s : State) (e : JEntry) (f : ℕ), f = leAt e.cmd 64 4 ∧ s.Ready (m.val) 65 e ∧ (s.flow f).fstate ≠ flowClosed ∧
    leAt e.cmd 68 1 ≠ 1 ∧ seqNext (s.flow f).ackedSeq = (s.flow f).nextSeq) ∧
  (∃ (m : MboxId) (s : State) (e : JEntry) (p : ℕ), p = leAt e.cmd 64 1 ∧ s.Ready (m.val) 144 e) :=
  ⟨⟨0, (sOpen 0), (openE 0), 9, (0, 0), by (unfold State.Ready; and_intros <;> first | decide +kernel | (intros; rfl))⟩,
   ⟨0, (sOpen 1), (openE 1), 9, (0, 0), by (unfold State.Ready; and_intros <;> first | decide +kernel | (intros; rfl))⟩,
   ⟨0, (sClose 0 {}), (closeE 0), 9, by (unfold State.Ready; and_intros <;> first | decide +kernel | (intros; rfl))⟩,
   ⟨0, (sClose 1 flowR), (closeE 1), 9, by (unfold State.Ready; and_intros <;> first | decide +kernel | (intros; rfl))⟩,
   ⟨0, (sClose 0 { flowR with nextSeq := 2 }), (closeE 0), 9,
    by (unfold State.Ready; and_intros <;> first | decide +kernel | (intros; rfl))⟩,
   ⟨0, (sClose 0 flowO), (closeE 0), 9, by (unfold State.Ready; and_intros <;> first | decide +kernel | (intros; rfl))⟩,
   ⟨0, (mbUp (entry 0x90 255 [(0x40, 1, 11), (0x41, 1, 4), (0x42, 2, 9)])),
    (entry 0x90 255 [(0x40, 1, 11), (0x41, 1, 4), (0x42, 2, 9)]), 11,
    by (unfold State.Ready; and_intros <;> first | decide +kernel | (intros; rfl))⟩⟩

theorem witness_PowerTestAndResetCommands :
  (∃ (m : MboxId) (s : State) (e : JEntry) (p : ℕ), p = leAt e.cmd 64 1 ∧ s.Ready (m.val) 80 e ∧ p = s.ao.pstate) ∧
  (∃ (m : MboxId) (s : State) (e : JEntry) (p : ℕ), p = leAt e.cmd 64 1 ∧ s.Ready (m.val) 80 e ∧ p ≠ s.ao.pstate ∧ (p = 2 ∨
    p = 3) ∧ (∀ k < 16, (s.net k).running = false) ∧ (p = 3 → (∀ f ∈ s.flows, f.2.fstate = flowClosed) ∧
    s.ao.hottest.1 ≤ celsius 60)) ∧
  (∃ (m : MboxId) (s : State) (e : JEntry) (p : ℕ), p = leAt e.cmd 64 1 ∧ s.Ready (m.val) 80 e ∧ p ≠ s.ao.pstate ∧ (p = 2 ∨
    p = 3) ∧ (∀ k < 16, (s.net k).running = false) ∧ (p = 3 → (∀ f ∈ s.flows, f.2.fstate = flowClosed) ∧
    s.ao.hottest.1 ≤ celsius 60)) ∧
  (∃ (m : MboxId) (s : State) (e : JEntry) (n : ℕ) (p : ℕ), n = leAt e.cmd 65 1 ∧ p = leAt e.cmd 66 2 ∧ s.Ready (m.val) 96 e ∧
    leAt e.cmd 64 1 = 3) ∧
  (∃ (m : MboxId) (s : State) (e : JEntry) (n : ℕ) (p : ℕ) (x : Option (Fin 17)), n = leAt e.cmd 65 1 ∧ p = leAt e.cmd 66 2 ∧
    s.Ready (m.val) 96 e ∧ leAt e.cmd 64 1 = 2 ∧ (List.any s.images fun (x : ℕ × ImageRec) => x.2.kind == 0) = false) ∧
  (∃ (m : MboxId) (s : State) (e : JEntry) (n : ℕ) (p : ℕ) (x : Option (Fin 17)) (q : Fin 17), n = leAt e.cmd 65 1 ∧
    p = leAt e.cmd 66 2 ∧ s.Ready (m.val) 96 e ∧ leAt e.cmd 64 1 = 2 ∧
    (List.any s.images fun (x : ℕ × ImageRec) => x.2.kind == 0) = false ∧ x = some q) ∧
  (∃ (m : MboxId) (s : State) (e : JEntry) (n : ℕ) (p : ℕ), n = leAt e.cmd 65 1 ∧ p = leAt e.cmd 66 2 ∧ s.Ready (m.val) 96 e ∧
    leAt e.cmd 64 1 = 1) ∧
  (∃ (m : MboxId) (s : State) (e : JEntry) (n : ℕ) (p : ℕ), n = leAt e.cmd 65 1 ∧ p = leAt e.cmd 66 2 ∧ s.Ready (m.val) 96 e ∧
    leAt e.cmd 64 1 = 0 ∧ (s.sector n).mig = none ∧ (s.sector n).test = none ∧ s.fencedPhys n p = true) ∧
  (∃ (m : MboxId) (s : State) (e : JEntry) (n : ℕ) (p : ℕ), n = leAt e.cmd 65 1 ∧ p = leAt e.cmd 66 2 ∧ s.Ready (m.val) 96 e ∧
    leAt e.cmd 64 1 = 0 ∧ (s.sector n).mig = none ∧ (s.sector n).test = none ∧ s.fencedPhys n p = false ∧
    (s.sector n).spareValid = true ∧ s.carriedCore n p = none) ∧
  (∃ (m : MboxId) (s : State) (e : JEntry), s.Ready (m.val) 81 e ∧ s.fault.fatal = false ∧ s.boot.crStep = 0) ∧
  (∃ (m : MboxId) (s : State) (e : JEntry), s.Ready (m.val) 81 e ∧ s.fault.fatal = false ∧ s.boot.crStep ≠ 0) :=
  ⟨⟨0, (mbUp (pwrE 0)), (pwrE 0), 0, by (unfold State.Ready; and_intros <;> first | decide +kernel | (intros; rfl))⟩,
   ⟨0, (mbUp (pwrE 2)), (pwrE 2), 2, by (unfold State.Ready; and_intros <;> first | decide +kernel | (intros; rfl))⟩,
   ⟨0, { mbUp (pwrE 3) with ports := [(3, { state := portUp, enabled := true })] }, (pwrE 3), 3,
    by (unfold State.Ready; and_intros <;> first | decide +kernel | (intros; rfl))⟩,
   ⟨0, (mbUp (stE 3 0 0)), (stE 3 0 0), 0, 0, by (unfold State.Ready; and_intros <;> first | decide +kernel | (intros; rfl))⟩,
   ⟨0, (mbUp (stE 2 3 0)), (stE 2 3 0), 3, 0, none, by (unfold State.Ready; and_intros <;> first | decide +kernel | (intros; rfl))⟩,
   ⟨0, (mbUp (stE 2 3 0)), (stE 2 3 0), 3, 0, (some 4), 4,
    by (unfold State.Ready; and_intros <;> first | decide +kernel | (intros; rfl))⟩,
   ⟨0, (mbUp (stE 1 3 0)), (stE 1 3 0), 3, 0, by (unfold State.Ready; and_intros <;> first | decide +kernel | (intros; rfl))⟩,
   ⟨0, { mbUp (stE 0 3 4) with ao := { up.ao with fenced := [(3, 16)] } }, (stE 0 3 4), 3, 4,
    by (unfold State.Ready; and_intros <;> first | decide +kernel | (intros; rfl))⟩,
   ⟨0, (mbUp (stE 0 3 16)), (stE 0 3 16), 3, 16, by (unfold State.Ready; and_intros <;> first | decide +kernel | (intros; rfl))⟩,
   ⟨0, (mbUp (entry 0x51 255 [])), (entry 0x51 255 []),
    by (unfold State.Ready; and_intros <;> first | decide +kernel | (intros; rfl))⟩,
   ⟨0, { mbUp (entry 0x51 255 []) with boot := { up.boot with crStep := 3 } }, (entry 0x51 255 []),
    by (unfold State.Ready; and_intros <;> first | decide +kernel | (intros; rfl))⟩⟩

set_option maxRecDepth 8000 in
theorem witness_DebugCommandsComplete :
  (∃ (m : MboxId) (s : State) (e : JEntry) (c : ℕ), c = leAt e.cmd 64 2 ∧ (s.net (cmdNet e.cmd)).image ≠ 0 ∧
    (s.net (cmdNet e.cmd)).shed = false ∧ s.Ready (m.val) 128 e ∧ c ≠ 65535 ∧ (s.net (cmdNet e.cmd)).cores.contains c = true ∧
    (s.core c).halted = false ∧ (s.sector (sectorOf c)).mstate (indexOf c) ≠ 1) ∧
  (∃ (m : MboxId) (s : State) (e : JEntry) (c : ℕ), c = leAt e.cmd 64 2 ∧ (s.net (cmdNet e.cmd)).image ≠ 0 ∧
    (s.net (cmdNet e.cmd)).shed = false ∧ s.Ready (m.val) 128 e ∧ c = 65535 ∧ ∀ d ∈ (s.net (cmdNet e.cmd)).cores,
    (s.core d).halted = false ∧ (s.sector (sectorOf d)).mstate (indexOf d) ≠ 1) ∧
  (∃ (m : MboxId) (s : State) (e : JEntry) (c : ℕ), c = leAt e.cmd 64 2 ∧ (s.net (cmdNet e.cmd)).image ≠ 0 ∧
    (s.net (cmdNet e.cmd)).shed = false ∧ s.Ready (m.val) 129 e ∧ c ≠ 65535 ∧ (s.net (cmdNet e.cmd)).cores.contains c = true ∧
    ((s.core c).halted = true ∨ (s.core c).seqHalted = true) ∧ (s.core c).hits 0 (BitVec.toNat (s.core c).seq.pc) = [] ∧
    ((s.netOf c).running = false ∨ (s.netOf c).lockstep = false ∧ (s.netOf c).halting = 0)) ∧
  (∃ (m : MboxId) (s : State) (e : JEntry) (c : ℕ) (a : ℕ) (n : ℕ) (u : ℕ), c = leAt e.cmd 64 2 ∧ a = leAt e.cmd 72 8 ∧
    n = leAt e.cmd 68 4 ∧ u = leAt e.cmd 66 2 ∧ s.Ready (m.val) 130 e ∧ leAt e.cmd 64 1 = 1) ∧
  (∃ (m : MboxId) (s : State) (e : JEntry) (c : ℕ) (a : ℕ) (n : ℕ) (u : ℕ), c = leAt e.cmd 64 2 ∧ a = leAt e.cmd 72 8 ∧
    n = leAt e.cmd 68 4 ∧ u = leAt e.cmd 66 2 ∧ s.Ready (m.val) 130 e ∧ leAt e.cmd 64 1 = 6 ∧ a + n ≤ s.gddr.top) ∧
  (∃ (m : MboxId) (s : State) (e : JEntry) (c : ℕ) (a : ℕ) (n : ℕ) (u : ℕ) (p : ℕ), c = leAt e.cmd 64 2 ∧ a = leAt e.cmd 72 8 ∧
    n = leAt e.cmd 68 4 ∧ u = leAt e.cmd 66 2 ∧ s.Ready (m.val) 130 e ∧ p = leAt e.cmd 64 1 ∧ p ≤ 5) ∧
  (∃ (m : MboxId) (s : State) (e : JEntry) (c : ℕ) (a : ℕ) (n : ℕ) (u : ℕ) (p : ℕ), c = leAt e.cmd 64 2 ∧ a = leAt e.cmd 72 8 ∧
    n = leAt e.cmd 68 4 ∧ u = leAt e.cmd 66 2 ∧ s.Ready (m.val) 130 e ∧ p = leAt e.cmd 64 1 ∧ p ≤ 5) ∧
  (∃ (m : MboxId) (s : State) (e : JEntry) (c : ℕ) (a : ℕ) (u : ℕ) (n : ℕ) (p : ℕ), c = leAt e.cmd 64 2 ∧ a = leAt e.cmd 72 8 ∧
    n = leAt e.cmd 68 4 ∧ u = leAt e.cmd 66 2 ∧ p = leAt e.cmd 64 1 ∧ s.Ready (m.val) 131 e ∧ s.dbgRefusal p u a n = 0) ∧
  (∃ (m : MboxId) (s : State) (e : JEntry) (c : ℕ) (a : ℕ) (u : ℕ) (n : ℕ) (p : ℕ), c = leAt e.cmd 64 2 ∧ a = leAt e.cmd 72 8 ∧
    n = leAt e.cmd 68 4 ∧ u = leAt e.cmd 66 2 ∧ p = leAt e.cmd 64 1 ∧ s.Ready (m.val) 131 e ∧ s.dbgRefusal p u a n = 0) ∧
  (∃ (s : State) (e : JEntry) (c : ℕ) (d : CoreId), c = leAt e.cmd 64 2 ∧ (s.core d.val).haltPending = true ∧
    (s.core d.val).atRest = true ∧ (s.sector (sectorOf d.val)).mstate (indexOf d.val) ≠ 1 ∧ s.sectorRuns (sectorOf d.val) = true) :=
  ⟨⟨0, (sW {} (dbE 0x80 3)), (dbE 0x80 3), 3, by (unfold State.Ready; and_intros <;> first | decide +kernel | (intros; rfl))⟩,
   ⟨0, (sW {} (dbE 0x80 0xFFFF)), (dbE 0x80 0xFFFF), 0xFFFF,
    by (unfold State.Ready; and_intros <;> first | decide +kernel | (intros; rfl))⟩,
   ⟨0, (sW { seqHalted := true, engHalted := true } (dbE 0x81 3)), (dbE 0x81 3), 3,
    by (unfold State.Ready; and_intros <;> first | decide +kernel | (intros; rfl))⟩,
   ⟨0, (mbUp (dbRW 0x82 1 0 8 0)), (dbRW 0x82 1 0 8 0), 1, 0, 8, 0,
    by (unfold State.Ready; and_intros <;> first | decide +kernel | (intros; rfl))⟩,
   ⟨0, { mbUp (dbRW 0x82 6 0 8 0x10000000) with gddr := gUp }, (dbRW 0x82 6 0 8 0x10000000), 6, 0x10000000, 8, 0,
    by (unfold State.Ready; and_intros <;> first | decide +kernel | (intros; rfl))⟩,
   ⟨0, (mbUp (dbRW 0x82 0 3 8 0)), (dbRW 0x82 0 3 8 0), 0, 0, 8, 3, 0,
    by (unfold State.Ready; and_intros <;> first | decide +kernel | (intros; rfl))⟩,
   ⟨0, (mbUp (dbRW 0x82 5 0 8 0)), (dbRW 0x82 5 0 8 0), 5, 0, 8, 0, 5,
    by (unfold State.Ready; and_intros <;> first | decide +kernel | (intros; rfl))⟩,
   ⟨0, (mbUp (dbRW 0x83 1 0 4 0x30000)), (dbRW 0x83 1 0 4 0x30000), 1, 0x30000, 0, 4, 1,
    by (unfold State.Ready; and_intros <;> first | decide +kernel | (intros; rfl))⟩,
   ⟨0, { mbUp (dbRW 0x83 6 0 4 0x10000000) with gddr := gUp }, (dbRW 0x83 6 0 4 0x10000000), 6, 0x10000000, 0, 4, 6,
    by (unfold State.Ready; and_intros <;> first | decide +kernel | (intros; rfl))⟩,
   ⟨{ up with cores := [(3, { haltPending := true, acc := [(1, 5)] })] }, (entry 0 0 []), 0, 3, by decide +kernel⟩⟩

theorem witness_StreamFrames :
  (∃ (n : StcId) (s : State) (c : StcSt) (q : Fin 4) (o : Fin 262144) (b : List Byte), c = s.stc n.val ∧ s.bar0Open = true ∧
    c.bound = true ∧ s.ao.pstate ≠ 3 ∧ o.val / 65536 = q.val ∧ o.val % 65536 + b.length ≤ 65520 ∧ c.isPosted q.val = false) ∧
  (∃ (n : StcId) (s : State) (c : StcSt) (q : Fin 4) (o : Fin 262144) (b : List Byte), c = s.stc n.val ∧ s.bar0Open = true ∧
    c.bound = true ∧ s.ao.pstate ≠ 3 ∧ o.val / 65536 = q.val ∧ o.val % 65536 + b.length ≤ 65520 ∧ c.isPosted q.val = true ∧
    b ≠ []) ∧
  (∃ (n : StcId) (s : State) (c : StcSt) (q : Fin 4), c = s.stc n.val ∧ s.bar0Open = true ∧ c.bound = true ∧ s.ao.pstate ≠ 3 ∧
    c.isPosted q.val = false) ∧
  (∃ (n : StcId) (s : State) (c : StcSt) (q : Fin 4), c = s.stc n.val ∧ s.bar0Open = true ∧ c.bound = true ∧ s.ao.pstate ≠ 3 ∧
    c.isPosted q.val = true) ∧
  (∃ (n : StcId) (s : State) (c : StcSt), c = s.stc n.val ∧ s.bar0Open = true ∧ (c.bound = false ∨ s.ao.pstate = 3)) ∧
  (∃ (n : StcId) (s : State) (c : StcSt), c = s.stc n.val ∧ s.bar0Open = true ∧ (c.bound = false ∨ s.ao.pstate = 3)) ∧
  (∃ (n : StcId) (s : State) (c : StcSt), c = s.stc n.val ∧ s.bar0Open = false) ∧
  (∃ (n : StcId) (s : State) (c : StcSt) (r : RingFn) (len : ℕ) (step : ℕ) (frame : List Byte) (p : Packet) (code : ℕ →
    ℤ) (d : ℕ → ℤ) (q : ℕ → ℤ) (big : ℕ → Bool) (evs : List EvItem), c = s.stc n.val ∧ r = s.rfn c.ifn ∧ c.frame = (len,
    frame) ∧ step = s.ringStep c.net ∧ p = parsePacket frame ∧ s.canScan (n.val) 0 = true ∧ len = r.nelem * sampleBytes r.fmt ∧
    (∀ (i : ℕ), code i = if r.fmt = 0 then ((byteAt frame i : ℕ) : ℤ) - 128 else if r.fmt = 1 then ((leAt frame (2 * i) 2 : ℕ)
    : ℤ) - 32768 else max (-32767) (sext 16 (leAt frame (2 * i) 2))) ∧ (∀ (i : ℕ),
    d i = code i - sampleZp r.fmt - c.refs.get 0 i) ∧ (∀ (i : ℕ), q i = clampI (-32767) 32767 (d i)) ∧ (∀ (i : ℕ),
    big i = decide (c.thresh < (d i).natAbs)) ∧ evs = if r.delta = true then List.flatMap (fun (i : ℕ) => List.map (fun (x : ℕ
    × ℕ) => streamEvent 2 x true (q i)) (r.map.elems.getD i [])) (List.filter big (upTo r.nelem)) else List.flatMap (fun (i :
    ℕ) => List.map (fun (x : ℕ × ℕ) => streamEvent 2 x (r.fmt != 0) (code i)) (r.map.elems.getD i [])) (upTo r.nelem)) ∧
  (∃ (n : StcId) (s : State) (c : StcSt) (r : RingFn) (len : ℕ) (step : ℕ) (frame : List Byte) (p : Packet) (code : ℕ →
    ℤ) (d : ℕ → ℤ) (q : ℕ → ℤ) (big : ℕ → Bool) (evs : List EvItem), c = s.stc n.val ∧ r = s.rfn c.ifn ∧ c.frame = (len,
    frame) ∧ step = s.ringStep c.net ∧ p = parsePacket frame ∧ s.canScan (n.val) 0 = true ∧ len = r.nelem * sampleBytes r.fmt ∧
    (∀ (i : ℕ), code i = if r.fmt = 0 then ((byteAt frame i : ℕ) : ℤ) - 128 else if r.fmt = 1 then ((leAt frame (2 * i) 2 : ℕ)
    : ℤ) - 32768 else max (-32767) (sext 16 (leAt frame (2 * i) 2))) ∧ (∀ (i : ℕ),
    d i = code i - sampleZp r.fmt - c.refs.get 0 i) ∧ (∀ (i : ℕ), q i = clampI (-32767) 32767 (d i)) ∧ (∀ (i : ℕ),
    big i = decide (c.thresh < (d i).natAbs)) ∧ evs = if r.delta = true then List.flatMap (fun (i : ℕ) => List.map (fun (x : ℕ
    × ℕ) => streamEvent 2 x true (q i)) (r.map.elems.getD i [])) (List.filter big (upTo r.nelem)) else List.flatMap (fun (i :
    ℕ) => List.map (fun (x : ℕ × ℕ) => streamEvent 2 x (r.fmt != 0) (code i)) (r.map.elems.getD i [])) (upTo r.nelem)) ∧
  (∃ (n : StcId) (s : State) (c : StcSt) (r : RingFn) (len : ℕ) (step : ℕ) (frame : List Byte) (p : Packet) (els : List ℕ) (evs :
    List EvItem), c = s.stc n.val ∧ r = s.rfn c.ifn ∧ c.frame = (len, frame) ∧ step = s.ringStep c.net ∧
    p = parsePacket frame ∧ s.canScan (n.val) 1 = true ∧ len ≠ 0 ∧ len % 8 = 0 ∧ len ≤ 65520 ∧
    els = List.map (fun (i : ℕ) => 2 * leAt frame (8 * i + 2) 2 + b2n (nbit (leAt frame (8 * i) 2) 15)) (upTo (len / 8)) ∧
    evs = List.flatMap (fun (e : ℕ) => List.map (fun (x : ℕ × ℕ) => streamEvent 1 x false 1) (r.map.elems.getD e []))
    (List.filter (fun (e : ℕ) => decide (e < r.nelem)) els)) ∧
  (∃ (n : StcId) (s : State) (c : StcSt) (r : RingFn) (len : ℕ) (step : ℕ) (frame : List Byte) (p : Packet) (evs : List EvItem),
    c = s.stc n.val ∧ r = s.rfn c.ifn ∧ c.frame = (len, frame) ∧ step = s.ringStep c.net ∧ p = parsePacket frame ∧
    s.canScan (n.val) 2 = true ∧ 16 ≤ len ∧ len ≤ 65520 ∧ p.tok.kind = kindDispatch ∧ p.tok.delta = false ∧ p.tok.n = r.nelem ∧
    p.good = true ∧ evs = List.map (fun (e : EvItem) => { e with token := false }) (tokenEvents r.map p.tok 2 false 0 0)) ∧
  (∃ (n : StcId) (s : State) (c : StcSt) (r : RingFn) (len : ℕ) (step : ℕ) (frame : List Byte) (p : Packet) (k : ℕ),
    c = s.stc n.val ∧ r = s.rfn c.ifn ∧ c.frame = (len, frame) ∧ step = s.ringStep c.net ∧ p = parsePacket frame ∧ k < 3 ∧
    s.canScan (n.val) k = true ∧ (k = 0 ∧ len ≠ r.nelem * sampleBytes r.fmt ∨ k = 1 ∧ (len = 0 ∨ len % 8 ≠ 0 ∨ 65520 < len) ∨
    k = 2 ∧ (65520 < len ∨ len < 16 ∨ p.tok.kind ≠ kindDispatch ∨ p.tok.delta = true ∨ p.tok.n ≠ r.nelem ∨ p.good = false))) ∧
  (∃ (n : StcId) (s : State) (c : StcSt) (r : RingFn) (len : ℕ) (step : ℕ) (frame : List Byte) (p : Packet) (k : ℕ),
    c = s.stc n.val ∧ r = s.rfn c.ifn ∧ c.frame = (len, frame) ∧ step = s.ringStep c.net ∧ p = parsePacket frame ∧ k < 3 ∧
    s.canScan (n.val) k = true ∧ (k = 0 ∧ len ≠ r.nelem * sampleBytes r.fmt ∨ k = 1 ∧ (len = 0 ∨ len % 8 ≠ 0 ∨ 65520 < len) ∨
    k = 2 ∧ (65520 < len ∨ len < 16 ∨ p.tok.kind ≠ kindDispatch ∨ p.tok.delta = true ∨ p.tok.n ≠ r.nelem ∨ p.good = false))) ∧
  (∃ (n : StcId) (s : State) (c : StcSt) (r : RingFn) (len : ℕ) (step : ℕ) (frame : List Byte) (p : Packet) (k : ℕ),
    c = s.stc n.val ∧ r = s.rfn c.ifn ∧ c.frame = (len, frame) ∧ step = s.ringStep c.net ∧ p = parsePacket frame ∧ k < 3 ∧
    s.canScan (n.val) k = true ∧ (k = 0 ∧ len ≠ r.nelem * sampleBytes r.fmt ∨ k = 1 ∧ (len = 0 ∨ len % 8 ≠ 0 ∨ 65520 < len) ∨
    k = 2 ∧ (65520 < len ∨ len < 16 ∨ p.tok.kind ≠ kindDispatch ∨ p.tok.delta = true ∨ p.tok.n ≠ r.nelem ∨ p.good = false))) :=
  ⟨⟨1, (upStc { bound := true }), { bound := true }, 2, 0x20010, [1, 2], by decide +kernel⟩,
   ⟨1, (upStc { bound := true, posted := [(2, 5, 0)] }), { bound := true, posted := [(2, 5, 0)] }, 2, 0x20010, [1, 2],
    by decide +kernel⟩,
   ⟨1, (upStc { bound := true }), { bound := true }, 2, by decide +kernel⟩,
   ⟨1, (upStc { bound := true, posted := [(2, 5, 0)] }), { bound := true, posted := [(2, 5, 0)] }, 2, by decide +kernel⟩,
   ⟨1, up, {}, by decide +kernel⟩,
   ⟨1, up, {}, by decide +kernel⟩,
   ⟨1, {}, {}, by decide +kernel⟩,
   ⟨1, (scanS false), ((scanS false).stc 1), { net := 3, nelem := 2, map := map2 }, 2, ((scanS false).ringStep 2), [200, 128],
    (parsePacket [200, 128]), codeS, (diffS false), (narS false), (bigS false),
    [streamEvent 2 (3, 1) false 72, streamEvent 2 (3, 0) false 0], by decide +kernel, by decide +kernel, by decide +kernel,
    by decide +kernel, by decide +kernel, by decide +kernel, by decide +kernel, (fun _ => rfl), (fun _ => rfl), (fun _ => rfl),
    (fun _ => rfl), by decide +kernel⟩,
   ⟨1, (scanS true), ((scanS true).stc 1), { net := 3, nelem := 2, map := map2, delta := true }, 2, ((scanS true).ringStep 2),
    [200, 128], (parsePacket [200, 128]), codeS, (diffS true), (narS true), (bigS true),
    [streamEvent 2 (3, 1) true 200, streamEvent 2 (3, 0) true 128], by decide +kernel, by decide +kernel, by decide +kernel,
    by decide +kernel, by decide +kernel, by decide +kernel, by decide +kernel, (fun _ => rfl), (fun _ => rfl), (fun _ => rfl),
    (fun _ => rfl), by decide +kernel⟩,
   ⟨1, scanA, (scanA.stc 1), { net := 3, nelem := 2, map := map2 }, 16, (scanA.ringStep 2), frameA, (parsePacket frameA), [1, 14],
    [streamEvent 1 (3, 0) false 1], by decide +kernel⟩,
   ⟨1, scanT, (scanT.stc 1), { net := 3, nelem := 4, map := map2 }, 24, (scanT.ringStep 2), frameT, (parsePacket frameT),
    ((tokenEvents map2 (parsePacket frameT).tok 2 false 0 0).map (fun e => { e with token := false })), by decide +kernel⟩,
   ⟨1, (scanM 0 3 2 false []), ((scanM 0 3 2 false []).stc 1), { net := 3, nelem := 2, map := map2 }, 3,
    ((scanM 0 3 2 false []).ringStep 2), [0, 0, 0], (parsePacket [0, 0, 0]), 0, by decide +kernel⟩,
   ⟨1, (scanM 1 4 2 false []), ((scanM 1 4 2 false []).stc 1), { net := 3, nelem := 2, map := map2 }, 4,
    ((scanM 1 4 2 false []).ringStep 2), (zeros 4), (parsePacket (zeros 4)), 1, by decide +kernel⟩,
   ⟨1, (scanM 2 24 2 false []), ((scanM 2 24 2 false []).stc 1), { net := 3, nelem := 2, map := map2 }, 24,
    ((scanM 2 24 2 false []).ringStep 2), (zeros 24), (parsePacket (zeros 24)), 2, by decide +kernel⟩⟩

theorem witness_ResultsAndEventFlows :
  (∃ (n : SectorId) (s : State) (u : State) (fn : ℕ) (src : ℕ) (e : EvItem) (sc : Word32) (c : StcSt),
    s.takeRing (n.val) isResultFn = some (fn, src, e, sc, u) ∧ c = s.stc (fn - 336) ∧ 336 ≤ fn ∧ fn < 368 ∧
    s.ringBound fn src = true ∧ c.bound = true ∧ c.resLog2 ≠ 0 ∧ (s.rfn fn).net = c.net + 1 ∧ (evType e.ev = 1 ∨
    evType e.ev = 2) ∧ (c.prod + 65536 - c.cons) % 65536 ≠ 2 ^ c.resLog2) ∧
  (∃ (n : SectorId) (s : State) (u : State) (fn : ℕ) (src : ℕ) (e : EvItem) (sc : Word32) (c : StcSt),
    s.takeRing (n.val) isResultFn = some (fn, src, e, sc, u) ∧ c = s.stc (fn - 336) ∧ 336 ≤ fn ∧ fn < 368 ∧
    s.ringBound fn src = true ∧ c.bound = true ∧ c.resLog2 ≠ 0 ∧ (s.rfn fn).net = c.net + 1 ∧ (evType e.ev = 1 ∨
    evType e.ev = 2) ∧ (c.prod + 65536 - c.cons) % 65536 = 2 ^ c.resLog2) ∧
  (∃ (n : SectorId) (s : State) (u : State) (fn : ℕ) (src : ℕ) (e : EvItem) (sc : Word32) (c : StcSt),
    s.takeRing (n.val) isResultFn = some (fn, src, e, sc, u) ∧ c = s.stc (fn - 336) ∧ (fn < 336 ∨ 368 ≤ fn ∨
    s.ringBound fn src = false ∨ c.bound = false ∨ c.resLog2 = 0 ∨ (s.rfn fn).net ≠ c.net + 1 ∨ evType e.ev ≠ 1 ∧
    evType e.ev ≠ 2)) ∧
  (∃ (x : Fin 32) (s : State) (g : State) (fn : ℕ) (r : RingFn), fn = 368 + x.val ∧ g = s.gatherFlow fn ∧ r = g.rfn fn ∧
    s.srcFree (s.rfn fn).flow = false) ∧
  (∃ (x : Fin 32) (s : State) (g : State) (fn : ℕ) (r : RingFn), fn = 368 + x.val ∧ g = s.gatherFlow fn ∧ r = g.rfn fn ∧
    s.srcFree (s.rfn fn).flow = true ∧ r.net ≠ 0 ∧ r.vec ≠ [] ∧ g.emitDone (r.net - 1) = true ∧ g.ringQuiet fn = true) ∧
  (∃ (x : Fin 32) (s : State) (g : State) (fn : ℕ) (r : RingFn), fn = 368 + x.val ∧ g = s.gatherFlow fn ∧ r = g.rfn fn ∧
    s.srcFree (s.rfn fn).flow = true ∧ (r.net = 0 ∨ r.vec = [] ∨ g.emitDone (r.net - 1) = false ∨ g.ringQuiet fn = false)) :=
  ⟨⟨0, (resUp (evTo 1 0 0 1) (stcR 0)), (resGet (evTo 1 0 0 1) (stcR 0)), 0x151, 3, (evTo 1 0 0 1), 0x3F800000, (stcR 0),
    by decide +kernel⟩,
   ⟨0, (resUp (evTo 2 0 0 1) (stcR 16)), (resGet (evTo 2 0 0 1) (stcR 16)), 0x151, 3, (evTo 2 0 0 1), 0x3F800000, (stcR 16),
    by decide +kernel⟩,
   ⟨0, (resUp (evTo 3 0 0 1) (stcR 0)), (resGet (evTo 3 0 0 1) (stcR 0)), 0x151, 3, (evTo 3 0 0 1), 0x3F800000, (stcR 0),
    by decide +kernel⟩,
   ⟨0, (sFlow true []), (sFlow true []), 0x170, { net := 3, flow := 9, map := map2 }, by decide +kernel⟩,
   ⟨0, (sFlow false [(0, 5, false), (1, 1, true)]), (sFlow false [(0, 5, false), (1, 1, true)]), 0x170,
    { net := 3, flow := 9, vec := [(0, 5, false), (1, 1, true)], map := map2 }, by decide +kernel⟩,
   ⟨0, (sFlow false []), (sFlow false []), 0x170, { net := 3, flow := 9, map := map2 }, by decide +kernel⟩⟩

set_option maxRecDepth 8000 in
theorem witness_TokensAreBuiltAndReceived :
  (∃ (n : SectorId) (s : State) (u : State) (fn : ℕ) (src : ℕ) (i : ℕ) (e : EvItem) (sc : Word32) (ok : Bool),
    (s.takeRing n.val fun (f : ℕ) => decide (256 ≤ f) && decide (f < 320)) = some (fn, src, e, sc, u) ∧
    i = e.tag * 4096 + evRow e.ev ∧ ok = s.ringBound fn src) ∧
  (∃ (n : SectorId) (s : State) (u : State) (fn : ℕ) (src : ℕ) (i : ℕ) (e : EvItem) (sc : Word32) (ok : Bool),
    (s.takeRing n.val fun (f : ℕ) => decide (256 ≤ f) && decide (f < 320)) = some (fn, src, e, sc, u) ∧
    i = e.tag * 4096 + evRow e.ev ∧ ok = s.ringBound fn src) ∧
  (∃ (n : SectorId) (s : State) (u : State) (fn : ℕ) (src : ℕ) (i : ℕ) (e : EvItem) (sc : Word32) (ok : Bool),
    (s.takeRing n.val fun (f : ℕ) => decide (256 ≤ f) && decide (f < 320)) = some (fn, src, e, sc, u) ∧
    i = e.tag * 4096 + evRow e.ev ∧ ok = s.ringBound fn src) ∧
  (∃ (n : SectorId) (s : State) (u : State) (fn : ℕ) (src : ℕ) (i : ℕ) (e : EvItem) (sc : Word32) (ok : Bool),
    (s.takeRing n.val fun (f : ℕ) => decide (256 ≤ f) && decide (f < 320)) = some (fn, src, e, sc, u) ∧
    i = e.tag * 4096 + evRow e.ev ∧ ok = s.ringBound fn src) ∧
  (∃ (n : SectorId) (s : State) (u : State) (fn : ℕ) (src : ℕ) (i : ℕ) (e : EvItem) (sc : Word32) (ok : Bool),
    (s.takeRing n.val fun (f : ℕ) => decide (256 ≤ f) && decide (f < 320)) = some (fn, src, e, sc, u) ∧
    i = e.tag * 4096 + evRow e.ev ∧ ok = s.ringBound fn src) ∧
  (∃ (n : SectorId) (s : State) (u : State) (fn : ℕ) (src : ℕ) (i : ℕ) (e : EvItem) (sc : Word32) (ok : Bool),
    (s.takeRing n.val fun (f : ℕ) => decide (256 ≤ f) && decide (f < 320)) = some (fn, src, e, sc, u) ∧
    i = e.tag * 4096 + evRow e.ev ∧ ok = s.ringBound fn src) ∧
  (∃ (p : Fin 16) (s : State) (k : PackSt) (n : NetSt) (tag : ℕ) (w : ℕ) (sl : List (ℕ × Word32) × Bool) (body : Token) (dst : ℕ →
    Option ℕ) (closing : ℕ → Bool) (close : ℕ → List Byte), k = s.dp p.val ∧ n = s.net k.net ∧ k.valid = true ∧
    n.running = true ∧ n.step ≠ 0 ∧ k.built ≤ n.step ∧ s.emitDone k.net = true ∧ s.ringQuiet (fnDispatch p.val) = true ∧
    s.ringQuiet (fnRouter p.val) = true ∧ (∀ f ∈ k.flowsUsed, s.srcFree f.1 = true) ∧ tag = n.step % 4 ∧ w = n.step % 2 ^ 32 ∧
    sl = k.slotsOf tag ∧ body = (narrowToken k.zpm k.outl (k.values tag)).1 ∧ (∀ (i : ℕ), dst i = (k.dir.get (0,
    []) (sl.1.getD i (0, 0)).1).2[k.seq % max 1 (k.dir.get (0, []) (sl.1.getD i (0, 0)).1).2.length]?) ∧ (∀ (f : ℕ),
    closing f = !(upTo 16).any fun (d : ℕ) => d != p.val && (s.dp d).valid && (s.dp d).net == k.net && decide ((s.dp d).built ≤
    n.step) && (s.dp d).flowsUsed.any fun (g : ℕ × ℕ) => g.1 == f) ∧ ∀ (x e : ℕ),
    List.find? (fun (g : ℕ × ℕ) => g.1 == x) k.flowsUsed = some (x, e) →
    close x = ({ kind := kindClose, window := w, expert := e } : Token).bytes []) ∧
  (∃ (p : Fin 16) (s : State) (k : PackSt) (n : NetSt) (tag : ℕ) (w : ℕ) (sl : List (ℕ × Word32) × Bool) (body : Token) (dst : ℕ →
    Option ℕ) (closing : ℕ → Bool) (close : ℕ → List Byte), k = s.dp p.val ∧ n = s.net k.net ∧ k.valid = true ∧
    n.running = true ∧ n.step ≠ 0 ∧ k.built ≤ n.step ∧ s.emitDone k.net = true ∧ s.ringQuiet (fnDispatch p.val) = true ∧
    s.ringQuiet (fnRouter p.val) = true ∧ (∀ f ∈ k.flowsUsed, s.srcFree f.1 = true) ∧ tag = n.step % 4 ∧ w = n.step % 2 ^ 32 ∧
    sl = k.slotsOf tag ∧ body = (narrowToken k.zpm k.outl (k.values tag)).1 ∧ (∀ (i : ℕ), dst i = (k.dir.get (0,
    []) (sl.1.getD i (0, 0)).1).2[k.seq % max 1 (k.dir.get (0, []) (sl.1.getD i (0, 0)).1).2.length]?) ∧ (∀ (f : ℕ),
    closing f = !(upTo 16).any fun (d : ℕ) => d != p.val && (s.dp d).valid && (s.dp d).net == k.net && decide ((s.dp d).built ≤
    n.step) && (s.dp d).flowsUsed.any fun (g : ℕ × ℕ) => g.1 == f) ∧ ∀ (x e : ℕ),
    List.find? (fun (g : ℕ × ℕ) => g.1 == x) k.flowsUsed = some (x, e) →
    close x = ({ kind := kindClose, window := w, expert := e } : Token).bytes []) ∧
  (∃ (n : SectorId) (s : State) (v : State) (x : Expansion) (rest : List Expansion) (c : ℕ) (step : ℕ),
    (v = match s.homeNet with | some k => s.tokenStep k | none => s) ∧ v.expand = x :: rest ∧ (∀ y ∈ rest,
    sectorOf (evCore y.item.ev) ≠ n.val) ∧ c = evCore x.item.ev ∧ sectorOf c = n.val ∧ c < 128 ∧ step = v.ringStep x.net ∧
    ((v.core c).credit = 0 ∨ (v.core c).freeCredit ≠ 0) ∧ v.linkRoom (n.val) 3 (Item.event x.item) = true) ∧
  (∃ (n : SectorId) (s : State) (v : State) (x : Expansion) (rest : List Expansion) (c : ℕ) (step : ℕ),
    (v = match s.homeNet with | some k => s.tokenStep k | none => s) ∧ v.expand = x :: rest ∧ (∀ y ∈ rest,
    sectorOf (evCore y.item.ev) ≠ n.val) ∧ c = evCore x.item.ev ∧ sectorOf c = n.val ∧ c < 128 ∧ step = v.ringStep x.net ∧
    ((v.core c).credit = 0 ∨ (v.core c).freeCredit ≠ 0) ∧ v.linkRoom (n.val) 3 (Item.event x.item) = true) ∧
  (∃ (n : SectorId) (s : State) (v : State) (x : Expansion) (rest : List Expansion) (c : ℕ) (step : ℕ),
    (v = match s.homeNet with | some k => s.tokenStep k | none => s) ∧ v.expand = x :: rest ∧ (∀ y ∈ rest,
    sectorOf (evCore y.item.ev) ≠ n.val) ∧ c = evCore x.item.ev ∧ sectorOf c = n.val ∧ c < 128 ∧ step = v.ringStep x.net ∧
    ((v.core c).credit ≠ 0 ∧ (v.core c).freeCredit = 0 ∨ v.linkRoom (n.val) 3 (Item.event x.item) = false)) ∧
  (∃ (s : State), s.takesIn = false) ∧
  (∃ (f : FlowId) (s : State), s.takesIn = false ∧ (s.flow f.val).naks = []) ∧
  (∃ (f : FlowId) (s : State) (u : State) (m : Msg) (p : Packet) (x : FlowSt) (ob : Option ℕ) (b : ℕ) (codes : List ℤ),
    s.nextTok (f.val) kindDispatch = some (m, p, u) ∧ x = s.flow f.val ∧ ob = s.bindingOf p.tok.expert ∧ s.takesIn = true ∧
    s.tokenRoom p.tok = true ∧ p.good = true ∧ ob = some b ∧ p.tok.n = (s.bind b).n ∧ p.tok.zpm = (s.bind b).zpm ∧
    (s.net (s.bind b).net).running = true ∧ (s.bind b).flows.contains f.val = true ∧ (∀ (w : ℕ), s.tok.window = some w →
    seqLe w p.tok.window = true) ∧ (p.tok.delta = true → ∃ (l : List ℤ), x.cache.find p.tok.seq = some l ∧
    l.length = p.tok.n) ∧ codes = p.codes ((x.cache.find p.tok.seq).getD [])) ∧
  (∃ (f : FlowId) (s : State) (u : State) (m : Msg) (p : Packet) (x : FlowSt) (ob : Option ℕ) (code : ℕ),
    s.nextTok (f.val) kindDispatch = some (m, p, u) ∧ x = s.flow f.val ∧ ob = s.bindingOf p.tok.expert ∧ s.takesIn = true ∧
    s.tokenRoom p.tok = true ∧ (p.good = false ∧ code = 5 ∨ p.good = true ∧ ob = none ∧ code = 2 ∨ ∃ (b : ℕ), p.good = true ∧
    ob = some b ∧ ((p.tok.n ≠ (s.bind b).n ∨ p.tok.zpm ≠ (s.bind b).zpm) ∧ code = 5 ∨ p.tok.n = (s.bind b).n ∧
    p.tok.zpm = (s.bind b).zpm ∧ (((s.net (s.bind b).net).running = false ∨ (s.bind b).flows.contains f.val = false ∨
    ∃ (w : ℕ), s.tok.window = some w ∧ seqLe w p.tok.window = false) ∧ code = 3 ∨ (s.net (s.bind b).net).running = true ∧
    (s.bind b).flows.contains f.val = true ∧ (∀ (w : ℕ), s.tok.window = some w → seqLe w p.tok.window = true) ∧
    p.tok.delta = true ∧ (∀ (l : List ℤ), x.cache.find p.tok.seq = some l → l.length ≠ p.tok.n) ∧ code = 4)))) ∧
  (∃ (f : FlowId) (s : State) (u : State) (m : Msg) (p : Packet) (x : FlowSt) (ob : Option ℕ) (code : ℕ),
    s.nextTok (f.val) kindDispatch = some (m, p, u) ∧ x = s.flow f.val ∧ ob = s.bindingOf p.tok.expert ∧ s.takesIn = true ∧
    s.tokenRoom p.tok = true ∧ (p.good = false ∧ code = 5 ∨ p.good = true ∧ ob = none ∧ code = 2 ∨ ∃ (b : ℕ), p.good = true ∧
    ob = some b ∧ ((p.tok.n ≠ (s.bind b).n ∨ p.tok.zpm ≠ (s.bind b).zpm) ∧ code = 5 ∨ p.tok.n = (s.bind b).n ∧
    p.tok.zpm = (s.bind b).zpm ∧ (((s.net (s.bind b).net).running = false ∨ (s.bind b).flows.contains f.val = false ∨
    ∃ (w : ℕ), s.tok.window = some w ∧ seqLe w p.tok.window = false) ∧ code = 3 ∨ (s.net (s.bind b).net).running = true ∧
    (s.bind b).flows.contains f.val = true ∧ (∀ (w : ℕ), s.tok.window = some w → seqLe w p.tok.window = true) ∧
    p.tok.delta = true ∧ (∀ (l : List ℤ), x.cache.find p.tok.seq = some l → l.length ≠ p.tok.n) ∧ code = 4)))) ∧
  (∃ (f : FlowId) (s : State) (u : State) (m : Msg) (p : Packet) (w : ℕ) (all : List Token) (d : ℕ),
    s.nextTok (f.val) kindClose = some (m, p, u) ∧ w = p.tok.window ∧ s.takesIn = true ∧ p.good = true ∧
    (s.bindingOf p.tok.expert).isSome = true ∧ (∃ b ∈ s.bindings, (s.bind b).flows.contains f.val = true) ∧
    all = List.filter (fun (t : Token) => t.window == w) (List.flatMap (fun (b : ℕ) => (s.bind b).held) s.bindings) ∧
    s.tok.window = some d ∧ seqLe d w = false) ∧
  (∃ (f : FlowId) (s : State) (u : State) (m : Msg) (p : Packet) (w : ℕ) (all : List Token),
    s.nextTok (f.val) kindClose = some (m, p, u) ∧ w = p.tok.window ∧ s.takesIn = true ∧ p.good = true ∧
    (s.bindingOf p.tok.expert).isSome = true ∧ (∃ b ∈ s.bindings, (s.bind b).flows.contains f.val = true) ∧
    all = List.filter (fun (t : Token) => t.window == w) (List.flatMap (fun (b : ℕ) => (s.bind b).held) s.bindings) ∧
    (∀ (d : ℕ), s.tok.window = some d → seqLe d w = true) ∧ ∃ b ∈ s.bindings, ∃ g ∈ (s.bind b).flows, g ≠ f.val ∧
    (s.bind b).closedBy (s.tok.window.getD w) g = false) ∧
  (∃ (f : FlowId) (s : State) (u : State) (m : Msg) (p : Packet) (w : ℕ) (all : List Token),
    s.nextTok (f.val) kindClose = some (m, p, u) ∧ w = p.tok.window ∧ s.takesIn = true ∧ p.good = true ∧
    (s.bindingOf p.tok.expert).isSome = true ∧ (∃ b ∈ s.bindings, (s.bind b).flows.contains f.val = true) ∧
    all = List.filter (fun (t : Token) => t.window == w) (List.flatMap (fun (b : ℕ) => (s.bind b).held) s.bindings) ∧
    (∀ (d : ℕ), s.tok.window = some d → seqLe d w = true) ∧ (∀ b ∈ s.bindings, ∀ g ∈ (s.bind b).flows, g = f.val ∨
    (s.bind b).closedBy w g = true) ∧ s.tok.window.getD w = w ∧ ∀ (k : ℕ), s.homeNet = some k → (s.net k).running = false ∨
    (s.net k).phase ≠ 1) ∧
  (∃ (b : Fin 64) (s : State) (w : ℕ) (x : BindSt) (gone : List ℕ), x = s.bind b.val ∧ s.tok.window = some w ∧ x.valid = true ∧
    gone = List.filter (fun (f : ℕ) => !x.closedBy w f && ((s.flow f).fstate != flowOpen || (s.flow f).stalled || decide
    (x.closeRef w + x.tc * 1000 ≤ s.now))) x.flows ∧ gone = []) ∧
  (∃ (b : Fin 64) (s : State) (w : ℕ) (x : BindSt) (gone : List ℕ), x = s.bind b.val ∧ s.tok.window = some w ∧ x.valid = true ∧
    gone = List.filter (fun (f : ℕ) => !x.closedBy w f && ((s.flow f).fstate != flowOpen || (s.flow f).stalled || decide
    (x.closeRef w + x.tc * 1000 ≤ s.now))) x.flows ∧ gone ≠ [] ∧ ∃ o ∈ s.bindings, ∃ g ∈ (s.bind o).flows,
    (s.bind o).closedBy w g = false ∧ (o = b.val → g ∉ gone)) ∧
  (∃ (b : Fin 64) (s : State) (w : ℕ) (x : BindSt) (gone : List ℕ), x = s.bind b.val ∧ s.tok.window = some w ∧ x.valid = true ∧
    gone = List.filter (fun (f : ℕ) => !x.closedBy w f && ((s.flow f).fstate != flowOpen || (s.flow f).stalled || decide
    (x.closeRef w + x.tc * 1000 ≤ s.now))) x.flows ∧ gone ≠ [] ∧ ∀ o ∈ s.bindings, ∀ g ∈ (s.bind o).flows,
    (s.bind o).closedBy w g = true ∨ o = b.val ∧ g ∈ gone) :=
  ⟨⟨0, (ringUp 0x102 (evTo 2 0 5 9)), (tokRing 0x102 (evTo 2 0 5 9)), 0x102, 3, 5, (evTo 2 0 5 9), 0x3F800000, true,
    by decide +kernel⟩,
   ⟨0, (ringUp 0x103 (evTo 2 0 5 9)), (tokRing 0x103 (evTo 2 0 5 9)), 0x103, 3, 5, (evTo 2 0 5 9), 0x3F800000, true,
    by decide +kernel⟩,
   ⟨0, (ringUp 0x122 (evTo 2 0 5 9)), (tokRing 0x122 (evTo 2 0 5 9)), 0x122, 3, 5, (evTo 2 0 5 9), 0x3F800000, true,
    by decide +kernel⟩,
   ⟨0, (ringUp 0x122 (evTo 4 0 5 9)), (tokRing 0x122 (evTo 4 0 5 9)), 0x122, 3, 5, (evTo 4 0 5 9), 0x3F800000, true,
    by decide +kernel⟩,
   ⟨0, (ringUp 0x132 (evTo 4 0 5 9)), (tokRing 0x132 (evTo 4 0 5 9)), 0x132, 3, 5, (evTo 4 0 5 9), 0x3F800000, true,
    by decide +kernel⟩,
   ⟨0, (ringUp 0x102 (evTo 1 0 5 9)), (tokRing 0x102 (evTo 1 0 5 9)), 0x102, 3, 5, (evTo 1 0 5 9), 0x3F800000, true,
    by decide +kernel⟩,
   ⟨0, (sPack packO false), packO, (netB false), 2, 6, (packO.slotsOf 2), (narrowToken 0 [] (packO.values 2)).1, (dstP packO),
    (fun _ => true), closeP, by decide +kernel, by decide +kernel, by decide +kernel, by decide +kernel, by decide +kernel,
    by decide +kernel, by decide +kernel, by decide +kernel, by decide +kernel, by decide +kernel, by decide +kernel,
    by decide +kernel, by decide +kernel, by decide +kernel, (fun _ => rfl), (fun _ => rfl), (fun x e h => by simp [closeP, h])⟩,
   ⟨0, (sPack packO true), packO, (netB true), 2, 6, (packO.slotsOf 2), (narrowToken 0 [] (packO.values 2)).1, (dstP packO),
    (fun _ => true), closeP, by decide +kernel, by decide +kernel, by decide +kernel, by decide +kernel, by decide +kernel,
    by decide +kernel, by decide +kernel, by decide +kernel, by decide +kernel, by decide +kernel, by decide +kernel,
    by decide +kernel, by decide +kernel, by decide +kernel, (fun _ => rfl), (fun _ => rfl), (fun x e h => by simp [closeP, h])⟩,
   ⟨0, (sExp { credit := 4 }), (sExp { credit := 4 }), (expO 3), [], 3, 7,
    by (and_intros <;> first | decide +kernel | (intros; rfl))⟩,
   ⟨0, (sExp {}), (sExp {}), (expO 3), [], 3, 7, by (and_intros <;> first | decide +kernel | (intros; rfl))⟩,
   ⟨0, (sExp { credit := 1, creditUsed := 1 }), (sExp { credit := 1, creditUsed := 1 }), (expO 3), [], 3, 7,
    by (and_intros <;> first | decide +kernel | (intros; rfl))⟩,
   ⟨(sCr 1 []), by decide +kernel⟩,
   ⟨9, (sCr 1 []), by decide +kernel⟩,
   ⟨9, (tokUp tokDB bindO runN), (tokAft tokDB bindO runN kindDispatch), (msgB9 tokDB), (parsePacket tokDB),
    ((tokUp tokDB bindO runN).flow 9), (some 0), 0, [1, 2, 3, 4], by (and_intros <;> first | decide +kernel | (intros; rfl))⟩,
   ⟨9, (tokUp tokDB { bindO with expert := 8 } runN), (tokAft tokDB { bindO with expert := 8 } runN kindDispatch), (msgB9 tokDB),
    (parsePacket tokDB), ((tokUp tokDB { bindO with expert := 8 } runN).flow 9), none, 2, by decide +kernel, by decide +kernel,
    by decide +kernel, by decide +kernel, by decide +kernel, (.inr (.inl ⟨by decide +kernel, rfl, rfl⟩))⟩,
   ⟨9, (tokUp tokDB bindO {}), (tokAft tokDB bindO {} kindDispatch), (msgB9 tokDB), (parsePacket tokDB),
    ((tokUp tokDB bindO {}).flow 9), (some 0), 3, by decide +kernel, by decide +kernel, by decide +kernel, by decide +kernel,
    by decide +kernel, (.inr (.inr ⟨0, by decide +kernel, rfl, .inr ⟨by decide +kernel, by decide +kernel,
    .inl ⟨.inl (by decide +kernel), rfl⟩⟩⟩))⟩,
   ⟨9, (tokW tokCB bindO (some 5)), (tokGet (tokW tokCB bindO (some 5)) kindClose), (msgB9 tokCB), (parsePacket tokCB), 1, [], 5,
    by decide +kernel⟩,
   ⟨9, (tokW tokCB { bindO with flows := [8, 9] } none), (tokGet (tokW tokCB { bindO with flows := [8, 9] } none) kindClose),
    (msgB9 tokCB), (parsePacket tokCB), 1, [], by (and_intros <;> first | decide +kernel | (intros; rfl))⟩,
   ⟨9, (tokW tokCB (bindH [9]) (some 1)), (tokGet (tokW tokCB (bindH [9]) (some 1)) kindClose), (msgB9 tokCB),
    (parsePacket tokCB), 1, (bindH [9]).held, by (and_intros <;> first | decide +kernel | (intros; rfl))⟩,
   ⟨0, { sTime [] with binds := [(0, { bindO with flows := [] })] }, 1, { bindO with flows := [] }, [], by decide +kernel⟩,
   ⟨0, (sTime [10]), 1, bindO, [9], by decide +kernel⟩,
   ⟨0, (sTime []), 1, bindO, [9], by (and_intros <;> first | decide +kernel | (intros; rfl))⟩⟩

set_option maxRecDepth 8000 in
theorem witness_TokensReturn :
  (∃ (r : Fin 16) (s : State) (k : PackSt) (x : BindSt) (n : NetSt) (st : ℕ) (tk : Token) (rest : List (ℕ × Token)) (tag : ℕ)
    (body : Token) (base : Option (List ℤ)) (dl : Bool), k = s.rp r.val ∧ x = s.bind k.binding ∧ n = s.net x.net ∧
    k.valid = true ∧ x.valid = true ∧ n.running = true ∧ s.emitDone x.net = true ∧ s.ringQuiet (fnReturn r.val) = true ∧
    (∀ y ∈ x.inLayer ++ x.errIn, s.srcFree y.2.flow = true) ∧ n.backward = false ∧ x.inLayer = (st, tk) :: rest ∧
    st + x.ld ≤ n.step ∧ tag = (st + x.ld) % 4 ∧ body = (narrowToken k.zpm k.outl (k.values tag)).1 ∧
    base = (s.flow tk.flow).mirror.find tk.seq ∧ dl
    = (match base with | some b => b.length == body.n && decide ((diffElems body.codes b).length + (body.n + 7) / 8 < body.n) | none => false)) ∧
  (∃ (r : Fin 16) (s : State) (k : PackSt) (x : BindSt) (n : NetSt) (st : ℕ) (tk : Token) (rest : List (ℕ × Token)) (codes : List
    ℤ), k = s.rp r.val ∧ x = s.bind k.binding ∧ n = s.net x.net ∧ k.valid = true ∧ x.valid = true ∧ n.running = true ∧
    s.emitDone x.net = true ∧ s.ringQuiet (fnReturn r.val) = true ∧ (∀ y ∈ x.inLayer ++ x.errIn, s.srcFree y.2.flow = true) ∧
    n.backward = true ∧ x.errIn = (st, tk) :: rest ∧ st + x.ld ≤ n.step ∧
    codes = List.map (fun (i : ℕ) => clampI (-32767) 32767 (k.errs.get 0 ((st + x.ld) % 4 * 4096 + i))) (upTo k.n)) ∧
  (∃ (f : FlowId) (s : State) (x : FlowSt) (r : Nak) (rest : List Nak) (q : Packet), x = s.flow f.val ∧ x.naks = r :: rest ∧
    q = parsePacket r.msg.body ∧ q.tok.kind = kindDispatch ∧ r.msg.sub ≠ 0) ∧
  (∃ (f : FlowId) (s : State) (x : FlowSt) (u : State) (m : Msg) (p : Packet) (tk : Token), x = s.flow f.val ∧ x.naks = [] ∧
    s.takesIn = true ∧ s.nextTok (f.val) kindReturn = some (m, p, u) ∧ p.good = true ∧ (p.tok.delta = true → ∃ (l : List ℤ),
    x.cache.find p.tok.seq = some l ∧ l.length = p.tok.n) ∧ tk =
    { p.tok with codes := p.codes ((x.cache.find p.tok.seq).getD []), src := x.peerDev, flow := f.val, mseq := m.mseq }) ∧
  (∃ (c : Fin 16) (s : State) (x : CombSt) (w : PendWin) (i : ℕ) (slots : List SlotSt) (y : Word32 × List Narrow),
    x = s.comb c.val ∧ x.valid = true ∧ (s.net x.net).running = true ∧ s.dueWindow c.val = some i ∧
    w = x.wins.getD i { window := 0, seq := 0, slots := [], mixed := false, pos := 0, mixPos := 0 } ∧
    slots = x.gates (List.map (fun (o : SlotSt) => if o.st = 0 then
    { st := 2, gate := o.gate, flow := o.flow, tok := o.tok, pos := o.pos } else o) w.slots) ∧
    y = narrowMix (mixOf slots (s.dp x.packer).n) ∧ ((w.slots.all fun (o : SlotSt) => o.st != 0) = true ∨
    s.cutPassed x w = true)) ∧
  (∃ (c : Fin 16) (s : State) (x : CombSt) (w : PendWin) (i : ℕ) (slots : List SlotSt) (y : Word32 × List Narrow),
    x = s.comb c.val ∧ x.valid = true ∧ (s.net x.net).running = true ∧ s.dueWindow c.val = some i ∧
    w = x.wins.getD i { window := 0, seq := 0, slots := [], mixed := false, pos := 0, mixPos := 0 } ∧
    slots = x.gates (List.map (fun (o : SlotSt) => if o.st = 0 then
    { st := 2, gate := o.gate, flow := o.flow, tok := o.tok, pos := o.pos } else o) w.slots) ∧
    y = narrowMix (mixOf slots (s.dp x.packer).n) ∧ (w.slots.all fun (o : SlotSt) => o.st != 0) = false ∧
    s.cutPassed x w = false) ∧
  (∃ (f : FlowId) (s : State) (u : State) (m : Msg) (p : Packet) (tk : Token) (ob : Option ℕ) (code : ℕ),
    s.nextTok (f.val) kindError = some (m, p, u) ∧ s.takesIn = true ∧ (tk = { p.tok with flow := f.val, mseq := m.mseq }) ∧
    ob = List.find? (fun (b : ℕ) => (s.bind b).flows.contains f.val && (s.bind b).expert == tk.expert) s.bindings ∧
    ((p.good = false ∨ tk.zpm ≠ 0) ∧ code = 5 ∨ p.good = true ∧ tk.zpm = 0 ∧ (ob = none ∧ s.errorPacker (f.val) tk = none ∧
    code = 2 ∨ (∃ (b : ℕ), ob = some b ∧ (tk.n ≠ (s.bind b).n ∧ code = 5 ∨ tk.n = (s.bind b).n ∧
    (s.net (s.bind b).net).running = false ∧ code = 3)) ∨ ∃ (d : ℕ), ob = none ∧ s.errorPacker (f.val) tk = some d ∧
    (tk.n ≠ (s.dp d).n ∧ code = 5 ∨ tk.n = (s.dp d).n ∧ (s.net (s.dp d).net).running = false ∧ code = 3)))) ∧
  (∃ (f : FlowId) (s : State) (u : State) (m : Msg) (p : Packet) (tk : Token) (ob : Option ℕ) (b : ℕ),
    s.nextTok (f.val) kindError = some (m, p, u) ∧ s.takesIn = true ∧ (tk = { p.tok with flow := f.val, mseq := m.mseq }) ∧
    ob = List.find? (fun (b : ℕ) => (s.bind b).flows.contains f.val && (s.bind b).expert == tk.expert) s.bindings ∧
    p.good = true ∧ tk.zpm = 0 ∧ ob = some b ∧ tk.n = (s.bind b).n ∧ (s.net (s.bind b).net).running = true ∧ ∀ (k : ℕ),
    s.homeNet = some k → (s.net k).backward = false) ∧
  (∃ (f : FlowId) (s : State) (u : State) (m : Msg) (p : Packet) (tk : Token) (ob : Option ℕ) (d : ℕ) (evs : List EvItem),
    s.nextTok (f.val) kindError = some (m, p, u) ∧ s.takesIn = true ∧ (tk = { p.tok with flow := f.val, mseq := m.mseq }) ∧
    ob = List.find? (fun (b : ℕ) => (s.bind b).flows.contains f.val && (s.bind b).expert == tk.expert) s.bindings ∧
    p.good = true ∧ tk.zpm = 0 ∧ ob = none ∧ s.errorPacker (f.val) tk = some d ∧ tk.n = (s.dp d).n ∧
    (s.net (s.dp d).net).running = true ∧ evs = tokenEvents (s.dp d).errMap { tk with zpm := 0, outl := [] } 4 true (f.val + 1)
    m.mseq) ∧
  (∃ (f : FlowId) (s : State) (u : State) (m : Msg) (p : Packet) (tk : Token) (ob : Option ℕ) (d : ℕ) (evs : List EvItem),
    s.nextTok (f.val) kindError = some (m, p, u) ∧ s.takesIn = true ∧ (tk = { p.tok with flow := f.val, mseq := m.mseq }) ∧
    ob = List.find? (fun (b : ℕ) => (s.bind b).flows.contains f.val && (s.bind b).expert == tk.expert) s.bindings ∧
    p.good = true ∧ tk.zpm = 0 ∧ ob = none ∧ s.errorPacker (f.val) tk = some d ∧ tk.n = (s.dp d).n ∧
    (s.net (s.dp d).net).running = true ∧ evs = tokenEvents (s.dp d).errMap { tk with zpm := 0, outl := [] } 4 true (f.val + 1)
    m.mseq) :=
  ⟨⟨1, (sRet false), { valid := true, n := 2 }, (bindL false), (netB false), 4, { tokD with flow := 9, mseq := 1 }, [], 1,
    (narrowToken 0 [] (({ n := 2 } : PackSt).values 1)).1, none, false,
    by (and_intros <;> first | decide +kernel | (intros; rfl))⟩,
   ⟨1, (sRet true), { valid := true, n := 2 }, (bindL true), (netB true), 4, { tokD with flow := 9, mseq := 1 }, [], [0, 0],
    by (and_intros <;> first | decide +kernel | (intros; rfl))⟩,
   ⟨9, { sComb 0 runN with flows := [(9, { naks := [nakR] })] }, { naks := [nakR] }, nakR, [], (parsePacket tokDB),
    by decide +kernel⟩,
   ⟨9, { tokUp tokRB {} runN with combs := [(1, combO 0)] }, ((tokUp tokRB {} runN).flow 9),
    (tokGet { tokUp tokRB {} runN with combs := [(1, combO 0)] } kindReturn), (msgB9 tokRB), (parsePacket tokRB),
    { (parsePacket tokRB).tok with codes := [1, 2, 3, 4], src := 7, flow := 9, mseq := 1 }, by decide +kernel⟩,
   ⟨1, (sComb 1 runN), (combO 1), { window := 1, seq := 1, slots := [{ flow := 9, st := 1 }] }, 0, [{ flow := 9, st := 1 }],
    (narrowMix (mixOf [{ flow := 9, st := 1 }] 1)), by decide +kernel⟩,
   ⟨1, (sComb 0 { runN with lockstep := true }), (combO 0), { window := 1, seq := 1, slots := [{ flow := 9 }] }, 0,
    [{ flow := 9, st := 2 }], (narrowMix (mixOf [{ flow := 9, st := 2 }] 1)), by decide +kernel⟩,
   ⟨9, (tokUp tokEB { bindO with expert := 8 } runN), (tokAft tokEB { bindO with expert := 8 } runN kindError), (msgB9 tokEB),
    (parsePacket tokEB), { (parsePacket tokEB).tok with flow := 9, mseq := 1 }, none, 2, by decide +kernel, by decide +kernel,
    by decide +kernel, by decide +kernel, (.inr ⟨by decide +kernel, by decide +kernel, .inl ⟨rfl, by decide +kernel, rfl⟩⟩)⟩,
   ⟨9, (tokUp tokEB bindO runN), (tokAft tokEB bindO runN kindError), (msgB9 tokEB), (parsePacket tokEB),
    { (parsePacket tokEB).tok with flow := 9, mseq := 1 }, (some 0), 0,
    by (and_intros <;> first | decide +kernel | (intros; rfl))⟩,
   ⟨9, (sErrD runN map2), (tokGet (sErrD runN map2) kindError), (msgB9 tokEB), (parsePacket tokEB),
    { (parsePacket tokEB).tok with flow := 9, mseq := 1 }, none, 0,
    (tokenEvents map2 { (parsePacket tokEB).tok with flow := 9, mseq := 1, zpm := 0, outl := [] } 4 true 10 1),
    by decide +kernel⟩,
   ⟨9, (sErrD runN {}), (tokGet (sErrD runN {}) kindError), (msgB9 tokEB), (parsePacket tokEB),
    { (parsePacket tokEB).tok with flow := 9, mseq := 1 }, none, 0, [], by decide +kernel⟩⟩

theorem witness_TimersAndLines :
  (∃ (ch : TimerId) (s : State) (q : TimerSt), q = s.tmr ch.val ∧ q.tickSel = 0 ∧ q.paired ch.val = false ∧ q.on = true ∧
    q.pre < q.div) ∧
  (∃ (ch : TimerId) (s : State) (q : TimerSt), q = s.tmr ch.val ∧ q.tickSel = 0 ∧ q.paired ch.val = false ∧ q.on = true ∧
    q.div ≤ q.pre ∧ s.tmrCounts ch.val = false) ∧
  (∃ (ch : TimerId) (s : State) (q : TimerSt) (v : ℕ), q = s.tmr ch.val ∧ q.tickSel = 0 ∧ q.paired ch.val = false ∧
    s.tmrCounts ch.val = true ∧ q.div ≤ q.pre ∧ q.due false = false ∧ q.due true = false ∧ v = (q.count + 1) % 2 ^ 32 ∧
    q.count ≠ q.limit) ∧
  (∃ (ch : TimerId) (s : State) (q : TimerSt), q = s.tmr ch.val ∧ q.tickSel = 0 ∧ q.paired ch.val = false ∧
    s.tmrCounts ch.val = true ∧ q.div ≤ q.pre ∧ q.due false = false ∧ q.due true = false ∧ q.count = q.limit ∧ (∀ c < 16,
    (s.tmr c).leaderOf c ≠ some ch.val) ∧ (ch.val % 2 = 0 → (s.tmr (ch.val + 1)).paired (ch.val + 1) = false) ∧ ∀ k < 16,
    (s.net k).image = 0 ∨ (s.net k).tickSource.ch ≠ ch.val ∨ (s.net k).tickSource.kind ≠ 1 ∧ (s.net k).tickSource.kind ≠ 2) ∧
  (∃ (ch : TimerId) (s : State) (q : TimerSt) (u : Bool) (pin : Fin 8) (rising : Bool) (samples : Fin 16), q = s.tmr ch.val ∧
    (∀ c < 16, (s.tmr c).leaderOf c ≠ some ch.val) ∧ s.accepts (pin.val) rising samples.val = [ch.val] ∧ (q.mode u = 4 ∨
    q.mode u = 2 ∧ rising = true ∨ q.mode u = 3 ∧ rising = false) ∧ ¬((q.mode !u) = 4 ∨ (q.mode !u) = 2 ∧ rising = true ∨
    (q.mode !u) = 3 ∧ rising = false) ∧ q.tickSel ≠ if rising = true then 1 else 2) ∧
  (∃ (ch : TimerId) (s : State) (q : TimerSt) (u : Bool), q = s.tmr ch.val ∧ (∀ c < 16, (s.tmr c).leaderOf c ≠ some ch.val) ∧
    q.due u = true) ∧
  (∃ (n : SectorId) (s : State) (u : State) (fn : ℕ) (src : ℕ) (p : ℕ) (e : EvItem) (sc : Word32) (l : LoutSt),
    (s.takeRing n.val fun (f : ℕ) => decide (320 ≤ f) && decide (f < 336)) = some (fn, src, e, sc, u) ∧
    s.ringBound fn src = true ∧ decide (328 ≤ fn) = s.fault.ensActive ∧ (s.fault.ensActive = true → s.noCopy = false) ∧
    p = fn % 8 ∧ l = s.loutPin p ∧ (evType e.ev = 1 ∨ evType e.ev = 2 ∧ evInt e.ev ≠ 0)) ∧
  (∃ (n : SectorId) (s : State) (u : State) (fn : ℕ) (src : ℕ) (p : ℕ) (e : EvItem) (sc : Word32) (l : LoutSt),
    (s.takeRing n.val fun (f : ℕ) => decide (320 ≤ f) && decide (f < 336)) = some (fn, src, e, sc, u) ∧
    s.ringBound fn src = true ∧ decide (328 ≤ fn) = s.fault.ensActive ∧ (s.fault.ensActive = true → s.noCopy = false) ∧
    p = fn % 8 ∧ l = s.loutPin p ∧ (evType e.ev = 1 ∨ evType e.ev = 2 ∧ evInt e.ev ≠ 0)) ∧
  (∃ (n : SectorId) (s : State) (u : State) (fn : ℕ) (src : ℕ) (p : ℕ) (e : EvItem) (sc : Word32) (l : LoutSt),
    (s.takeRing n.val fun (f : ℕ) => decide (320 ≤ f) && decide (f < 336)) = some (fn, src, e, sc, u) ∧
    s.ringBound fn src = true ∧ decide (328 ≤ fn) = s.fault.ensActive ∧ (s.fault.ensActive = true → s.noCopy = false) ∧
    p = fn % 8 ∧ l = s.loutPin p ∧ evType e.ev = 2 ∧ evInt e.ev = 0) ∧
  (∃ (p : Fin 8) (s : State), (s.lout p.val).pulseEnd ≠ 0 ∧ (s.lout p.val).pulseEnd ≤ s.now) :=
  ⟨⟨5, (upTmr { on := true, div := 3 }), { on := true, div := 3 }, by decide +kernel⟩,
   ⟨5, (upTmr { on := true, ctrl := 0x10000 }), { on := true, ctrl := 0x10000 }, by decide +kernel⟩,
   ⟨5, (sCount 8), { on := true, count := 8, limit := 9 }, 9, by decide +kernel⟩,
   ⟨5, (sCount 9), { on := true, count := 9, limit := 9 }, by (and_intros <;> first | decide +kernel | (intros; rfl))⟩,
   ⟨5, (upTmr tCapt), tCapt, false, 7, true, 8, by (and_intros <;> first | decide +kernel | (intros; rfl))⟩,
   ⟨5, (upTmr tMatch), tMatch, false, by (and_intros <;> first | decide +kernel | (intros; rfl))⟩,
   ⟨0, (sLout 0 (evTo 1 0 0 1) {}), (loutGet 0 (evTo 1 0 0 1) {}), 0x140, 3, 0, (evTo 1 0 0 1), 0x3F800000, {}, by decide +kernel⟩,
   ⟨0, (sLout 7 (evTo 2 0 0 5) { changedAt := 4999999995 }), (loutGet 7 (evTo 2 0 0 5) { changedAt := 4999999995 }), 0x147, 3, 7,
    (evTo 2 0 0 5), 0x3F800000, { changedAt := 4999999995 }, by decide +kernel⟩,
   ⟨0, (sLout 7 (evTo 2 0 0 0) { asserted := true }), (loutGet 7 (evTo 2 0 0 0) { asserted := true }), 0x147, 3, 7,
    (evTo 2 0 0 0), 0x3F800000, { asserted := true }, by decide +kernel⟩,
   ⟨7, { up with louts := [(7, { pulse := true, asserted := true, pulseEnd := 4 })] }, by decide +kernel⟩⟩

theorem witness_EnsignAndFaults :
  (∃ (s : State) (b : Fin 4), s.trigHolds b.val = true ∧ s.fault.ensSet = true ∧ s.fault.ensActive = false ∧
    s.ao.ensignPending = 0 ∧ s.ao.pstate < 2 ∧ s.ao.serving = true) ∧
  (∃ (s : State) (b : Fin 4), s.trigHolds b.val = true ∧ s.fault.ensSet = true ∧ s.fault.ensActive = false ∧
    s.ao.ensignPending = 0 ∧ s.ao.pstate < 2 ∧ s.ao.serving = false) ∧
  (∃ (s : State) (b : Fin 4), s.trigHolds b.val = true ∧ s.fault.ensSet = true ∧ s.fault.ensActive = false ∧
    s.ao.ensignPending = 0 ∧ 2 ≤ s.ao.pstate) ∧
  (∃ (s : State) (f : FaultSource) (cls : ℕ) (src : ℕ) (unit : ℕ), s.ao.serving = true ∧ (f = FaultSource.supplyNotice ∧
    s.supplyLogged = false ∧ cls = classNotice ∧ src = 10 ∧ unit = 0 ∨ f = FaultSource.thermalNotice ∧ cls = classNotice ∧
    src = 11 ∧ unit = 0 ∨ (∃ (p : PortId), (f = FaultSource.laneDegrade p ∨ f = FaultSource.portFailed p) ∧
    cls = classDegraded ∧ src = 6 ∧ unit = p.val) ∨ ∃ (c : CoreId), f = FaultSource.numeric c ∧
    s.fault.guardDue.contains c.val = true ∧ cls = classNotice ∧ src = 12 ∧ unit = c.val)) ∧
  (∃ (s : State) (f : FaultSource) (cls : ℕ) (src : ℕ) (unit : ℕ), s.ao.serving = true ∧ (f = FaultSource.supplyNotice ∧
    s.supplyLogged = false ∧ cls = classNotice ∧ src = 10 ∧ unit = 0 ∨ f = FaultSource.thermalNotice ∧ cls = classNotice ∧
    src = 11 ∧ unit = 0 ∨ (∃ (p : PortId), (f = FaultSource.laneDegrade p ∨ f = FaultSource.portFailed p) ∧
    cls = classDegraded ∧ src = 6 ∧ unit = p.val) ∨ ∃ (c : CoreId), f = FaultSource.numeric c ∧
    s.fault.guardDue.contains c.val = true ∧ cls = classNotice ∧ src = 12 ∧ unit = c.val)) ∧
  (∃ (s : State) (f : FaultSource) (cls : ℕ) (src : ℕ) (unit : ℕ), s.ao.serving = true ∧ (f = FaultSource.supplyNotice ∧
    s.supplyLogged = false ∧ cls = classNotice ∧ src = 10 ∧ unit = 0 ∨ f = FaultSource.thermalNotice ∧ cls = classNotice ∧
    src = 11 ∧ unit = 0 ∨ (∃ (p : PortId), (f = FaultSource.laneDegrade p ∨ f = FaultSource.portFailed p) ∧
    cls = classDegraded ∧ src = 6 ∧ unit = p.val) ∨ ∃ (c : CoreId), f = FaultSource.numeric c ∧
    s.fault.guardDue.contains c.val = true ∧ cls = classNotice ∧ src = 12 ∧ unit = c.val)) ∧
  (∃ (s : State), s.ao.serving = true) ∧
  (∃ (s : State) (b : Fin 64), s.ao.serving = true ∧ 2 ≤ b.val) ∧
  (∃ (s : State) (n : SectorId) (p : Fin 17) (i : ℕ), s.ao.serving = true ∧ (s.sector n.val).mig = none ∧
    (s.sector n.val).carried p.val = some i ∧ s.atStepBoundary (16 * n.val + i) = true) ∧
  (∃ (s : State) (n : SectorId) (p : Fin 17) (i : ℕ), s.ao.serving = true ∧ (s.sector n.val).mig = none ∧
    (s.sector n.val).carried p.val = some i ∧ s.atStepBoundary (16 * n.val + i) = true) :=
  ⟨⟨(sTrig 1 0 true), 1, by decide +kernel⟩,
   ⟨(sTrig 3 1 false), 3, by decide +kernel⟩,
   ⟨(sTrig 2 2 true), 2, by decide +kernel⟩,
   ⟨up, .supplyNotice, classNotice, 10, 0, by decide +kernel, (.inl (by decide +kernel))⟩,
   ⟨up, (.portFailed 11), classDegraded, 6, 11, by decide +kernel, (.inr (.inr (.inl ⟨11, .inr rfl, rfl, rfl, rfl⟩)))⟩,
   ⟨{ up with fault := { guardDue := [5] } }, (.numeric 5), classNotice, 12, 5, by decide +kernel, (.inr (.inr (.inr ⟨5, rfl,
    by decide, rfl, rfl, rfl⟩)))⟩,
   ⟨up, by decide +kernel⟩,
   ⟨up, 63, by decide +kernel⟩,
   ⟨(sRot {}), 0, 3, 3, by decide +kernel⟩,
   ⟨up, 7, 3, 3, by decide +kernel⟩⟩

theorem witness_SuppliesAndTemperature :
  (∃ (s : State) (a : AoSt), a = s.ao ∧ a.porReleased = true ∧ a.pwrWarn = false) ∧
  (∃ (s : State) (a : AoSt), a = s.ao ∧ a.porReleased = true ∧ a.pwrWarn = true) ∧
  (∃ (s : State) (a : AoSt), a = s.ao ∧ a.porReleased = true) ∧
  (∃ (s : State) (a : AoSt), a = s.ao ∧ a.pwrWarn = true ∧ a.vcoreWarn = false ∧ a.vauxWarn = false ∧ a.aboveAt + 50000 ≤ s.now) ∧
  (∃ (s : State) (a : AoSt), a = s.ao ∧ (a.pwrWarn = true ∧ a.warnRise + 1000000 ≤ s.now ∨ a.warnRises.length = 16 ∧
    s.now ≤ a.warnRises.getLastD 0 + 100000000)) ∧
  (∃ (s : State) (a : AoSt), a = s.ao ∧ a.persist = true ∧ a.pwrWarn = false ∧ a.lastWarn + 1000000000 ≤ s.now) ∧
  (∃ (s : State) (l : List ℤ) (temps : Tab ℤ) (h : ℤ), s.ao.porReleased = true ∧ s.ao.tripped = false ∧
    temps = List.foldl (fun (t : Tab ℤ) (i : ℕ) => t.set 0 i (l.getD i 0)) s.ao.temps (upTo 20) ∧
    h = ({ s.ao with temps := temps }).hottest.1 ∧ s.boot.calDone = true ∧ h < celsius 115) ∧
  (∃ (s : State) (l : List ℤ) (temps : Tab ℤ) (h : ℤ), s.ao.porReleased = true ∧ s.ao.tripped = false ∧
    temps = List.foldl (fun (t : Tab ℤ) (i : ℕ) => t.set 0 i (l.getD i 0)) s.ao.temps (upTo 20) ∧
    h = ({ s.ao with temps := temps }).hottest.1 ∧ s.boot.calDone = true ∧ h < celsius 115) ∧
  (∃ (s : State) (l : List ℤ) (temps : Tab ℤ) (h : ℤ), s.ao.porReleased = true ∧ s.ao.tripped = false ∧
    temps = List.foldl (fun (t : Tab ℤ) (i : ℕ) => t.set 0 i (l.getD i 0)) s.ao.temps (upTo 20) ∧
    h = ({ s.ao with temps := temps }).hottest.1 ∧ s.boot.calDone = false ∧ h < celsius 110) ∧
  (∃ (s : State) (l : List ℤ) (temps : Tab ℤ) (h : ℤ), s.ao.porReleased = true ∧ s.ao.tripped = false ∧
    temps = List.foldl (fun (t : Tab ℤ) (i : ℕ) => t.set 0 i (l.getD i 0)) s.ao.temps (upTo 20) ∧
    h = ({ s.ao with temps := temps }).hottest.1 ∧ (if s.boot.calDone = true then celsius 115 else celsius 110) ≤ h) ∧
  (∃ (s : State), s.ao.throttle = true ∧ s.ao.coolSince ≠ 0 ∧ s.ao.coolSince - 1 + 10000000 ≤ s.now) :=
  ⟨⟨up, up.ao, by decide +kernel⟩,
   ⟨sWarn, sWarn.ao, by decide +kernel⟩,
   ⟨up, up.ao, by decide +kernel⟩,
   ⟨sWarn, sWarn.ao, by decide +kernel⟩,
   ⟨sWarn, sWarn.ao, by decide +kernel⟩,
   ⟨(upAo fun a => { a with persist := true }), { up.ao with persist := true }, by decide +kernel⟩,
   ⟨up, (therm 760), (tempsOf 760), 760, by decide +kernel⟩,
   ⟨up, (therm 840), (tempsOf 840), 840, by decide +kernel⟩,
   ⟨(sCal false), (therm 840), (tempsOf 840), 840, by decide +kernel⟩,
   ⟨up, (therm 920), (tempsOf 920), 920, by decide +kernel⟩,
   ⟨(upAo fun a => { a with throttle := true, coolSince := 1 }), by decide +kernel⟩⟩

theorem witness_WakeFromPowerStates :
  (∃ (s : State) (trained : State → Prop), s.ao.waking ≠ 0 ∧ (∀ (t : State), trained t ↔ ∀ p < 12,
    t.port p = if ((s.port p).enabled && (s.port p).state == portDown) = true then
    { s.port p with state := portTraining, trainDue := false } else s.port p) ∧ nbit s.ao.ready 3 = false) ∧
  (∃ (s : State) (trained : State → Prop), s.ao.waking ≠ 0 ∧ (∀ (t : State), trained t ↔ ∀ p < 12,
    t.port p = if ((s.port p).enabled && (s.port p).state == portDown) = true then
    { s.port p with state := portTraining, trainDue := false } else s.port p) ∧ nbit s.ao.ready 3 = true ∧
    nbit s.ao.ready 2 = false) ∧
  (∃ (s : State) (trained : State → Prop), s.ao.waking ≠ 0 ∧ (∀ (t : State), trained t ↔ ∀ p < 12,
    t.port p = if ((s.port p).enabled && (s.port p).state == portDown) = true then
    { s.port p with state := portTraining, trainDue := false } else s.port p) ∧ nbit s.ao.ready 3 = true ∧
    nbit s.ao.ready 2 = true ∧ nbit s.ao.ready 1 = false) ∧
  (∃ (s : State) (trained : State → Prop), s.ao.waking ≠ 0 ∧ (∀ (t : State), trained t ↔ ∀ p < 12,
    t.port p = if ((s.port p).enabled && (s.port p).state == portDown) = true then
    { s.port p with state := portTraining, trainDue := false } else s.port p) ∧ nbit s.ao.ready 3 = true ∧
    nbit s.ao.ready 2 = true ∧ nbit s.ao.ready 1 = false) ∧
  (∃ (s : State) (trained : State → Prop), s.ao.waking ≠ 0 ∧ (∀ (t : State), trained t ↔ ∀ p < 12,
    t.port p = if ((s.port p).enabled && (s.port p).state == portDown) = true then
    { s.port p with state := portTraining, trainDue := false } else s.port p) ∧ nbit s.ao.ready 3 = true ∧
    nbit s.ao.ready 2 = true ∧ nbit s.ao.ready 1 = true ∧ nbit s.ao.ready 0 = false ∧ s.ao.ensignPending = 0) ∧
  (∃ (s : State) (j : ℤ) (i : ℕ), s.ao.pstate = 3 ∧ s.ao.waking = 0 ∧ (celsius 70 ≤ j ∨ 2700 ≤ i)) ∧
  (∃ (s : State) (j : ℤ) (i : ℕ), s.ao.pstate = 3 ∧ s.ao.waking = 0 ∧ (celsius 70 ≤ j ∨ 2700 ≤ i)) ∧
  (∃ (s : State), s.ao.pstate = 3) :=
  ⟨⟨(sWake 1 0), (trainedIn (sWake 1 0)), by decide +kernel, (fun _ => Iff.rfl), by decide +kernel⟩,
   ⟨(sWake 1 8), (trainedIn (sWake 1 8)), by decide +kernel, (fun _ => Iff.rfl), by decide +kernel, by decide +kernel⟩,
   ⟨(sWake 1 12), (trainedIn (sWake 1 12)), by decide +kernel, (fun _ => Iff.rfl), by decide +kernel, by decide +kernel,
    by decide +kernel⟩,
   ⟨(sWake 3 12), (trainedIn (sWake 3 12)), by decide +kernel, (fun _ => Iff.rfl), by decide +kernel, by decide +kernel,
    by decide +kernel⟩,
   ⟨(sWake 1 14), (trainedIn (sWake 1 14)), by decide +kernel, (fun _ => Iff.rfl), by decide +kernel, by decide +kernel,
    by decide +kernel, by decide +kernel, by decide +kernel⟩,
   ⟨(upAo fun a => { a with pstate := 3 }), 560, 0, by decide +kernel⟩,
   ⟨(upAo fun a => { a with pstate := 3 }), 0, 2700, by decide +kernel⟩,
   ⟨(upAo fun a => { a with pstate := 3 }), by decide +kernel⟩⟩

theorem witness_BringupAndResets :
  (∃ (s : State), s.ao.porReleased = false) ∧
  (∃ (s : State), s.ao.porReleased = true ∧ s.ao.tripped = false ∧ s.boot.next = 1) ∧
  (∃ (s : State) (arg : ℕ) (slot : ℕ) (ok : ℕ → Bool), s.ao.porReleased = true ∧ s.ao.tripped = false ∧ s.ao.inReset = false ∧
    s.boot.next = 2 ∧ s.sec.lc ≠ 4 ∧ nbit arg 2 = false ∧ nbit arg 3 = false ∧ nbit arg 4 = false ∧ s.sec.flashHal % 4 = 0 ∧
    s.ao.northFenced = false ∧ s.ao.southFenced = false ∧ slot < 2 ∧ (∀ (k : ℕ),
    ok k = s.sec.slotOk s.sec.svnMin (s.sec.slotBoard k) (s.sec.slot k) (nbit arg (s.sec.slotBoard k))) ∧
    (slot = if ok 0 = true then 0 else 1) ∧ ok slot = true) ∧
  (∃ (s : State) (arg : ℕ) (err : ℕ), s.ao.porReleased = true ∧ s.ao.tripped = false ∧ s.ao.inReset = false ∧ s.boot.next = 2 ∧
    (s.sec.lc = 4 ∧ err = 6 ∨ s.sec.lc ≠ 4 ∧ nbit arg 3 = true ∧ nbit arg 4 = true ∧ err = 5 ∨ s.sec.lc ≠ 4 ∧
    nbit arg 3 = false ∧ nbit s.sec.flashHal 0 = false ∧ s.ao.northFenced = false ∧ nbit arg 2 = true ∧ err = 2)) ∧
  (∃ (s : State), s.ao.porReleased = true ∧ s.ao.tripped = false ∧ s.ao.inReset = false ∧ s.boot.next = 3) ∧
  (∃ (s : State), s.ao.porReleased = true ∧ s.ao.tripped = false ∧ s.ao.inReset = false ∧ s.boot.next = 4 ∧ s.board.valid = true ∧
    s.board.memOk = true) ∧
  (∃ (s : State), s.ao.porReleased = true ∧ s.ao.tripped = false ∧ s.ao.inReset = false ∧ s.boot.next = 4 ∧ s.board.valid = false) ∧
  (∃ (s : State), s.ao.porReleased = true ∧ s.ao.tripped = false ∧ s.ao.inReset = false ∧ s.boot.next = 5 ∧ s.boot.waves = 255 ∧
    s.ao.srFailed = false ∧ s.boot.bootErr ≠ 4) ∧
  (∃ (s : State), s.ao.porReleased = true ∧ s.ao.tripped = false ∧ s.ao.inReset = false ∧ s.boot.next = 6) ∧
  (∃ (s : State), s.ao.porReleased = true ∧ s.ao.tripped = false ∧ s.ao.inReset = false ∧ s.boot.next = 8 ∧ ∀ m < 10,
    s.oldest m = none) ∧
  (∃ (s : State) (n : SectorId), s.boot.crStep ≠ 5 ∧ s.boot.next = 5 ∧ s.ao.inReset = false ∧ s.ao.tripped = false ∧
    nbit s.boot.waves n.val = false ∧ ∀ i < 8, i % 4 < n.val % 4 → nbit s.boot.waves i = true) ∧
  (∃ (s : State) (n : SectorId), (s.sector n.val).softPending = true) ∧
  (∃ (s : State), 1 ≤ s.boot.crStep ∧ s.boot.crStep < 8) ∧
  (∃ (s : State), s.boot.crStep = 6) ∧
  (∃ (s : State), s.boot.crStep = 8 ∧ s.ao.ensignPending = 0 ∧ s.boot.crWaiters = []) ∧
  (∃ (s : State) (m : ℕ) (e : JEntry), s.boot.crStep = 8 ∧ s.ao.ensignPending = 0 ∧ s.boot.crWaiters = [m + 1] ∧
    s.parked m = some e ∧ s.traceOn = false) ∧
  (∃ (s : State) (n : SectorId), s.ao.serving = true ∧ s.fault.fatal = false ∧ (∀ (k : ℕ), (s.net k).running = false) ∧
    s.images = [] ∧ s.cores = [] ∧ (s.sector n.val).mig = none) ∧
  (∃ (s : State) (c : CoreId), s.ao.serving = true ∧ s.fault.fatal = false ∧ (∀ (k : ℕ), (s.net k).running = false) ∧
    (s.core c.val).image = 0 ∧ (s.core c.val).hostMb = 0 ∧ (s.core c.val).snapWait = 0) ∧
  (∃ (low : ℕ) (taken : Bool), low < 20 ∨ low < 1000 ∧ taken = false) ∧
  (∃ (s : State) (low : ℕ) (taken : Bool), s.ao.porReleased = true ∧ s.boot.next ≠ 1 ∧ s.ao.inReset = false ∧ (1000 ≤ low ∨
    20 ≤ low ∧ taken = true)) ∧
  (∃ (s : State), s.ao.porReleased = true ∧ s.boot.next ≠ 1 ∧ s.ao.inReset = false ∧ s.ao.tripped = false) ∧
  (∃ (s : State) (pin : ResetPin), s.ao.tripped = false ∧ (pin = ResetPin.perst ∨ s.ao.perstHigh = true) ∧ (pin = ResetPin.reset ∨
    s.ao.resetHigh = true)) ∧
  (∃ (s : State) (cause : ℕ), cause = if s.ao.tripped = true then 6 else 4) :=
  ⟨⟨State.reset, by decide +kernel⟩,
   ⟨(upBoot 1), by decide +kernel⟩,
   ⟨(sPh2 2), 1, 0, ok2, by decide +kernel, by decide +kernel, by decide +kernel, by decide +kernel, by decide +kernel,
    by decide +kernel, by decide +kernel, by decide +kernel, by decide +kernel, by decide +kernel, by decide +kernel,
    by decide +kernel, (fun _ => rfl), by decide +kernel, by decide +kernel⟩,
   ⟨(sPh2 4), 0, 6, by decide +kernel⟩,
   ⟨(upBoot 3), by decide +kernel⟩,
   ⟨{ upBoot 4 with board := { ports := 0x11 } }, by decide +kernel⟩,
   ⟨{ upBoot 4 with board := { valid := false } }, by decide +kernel⟩,
   ⟨{ up with boot := { next := 5, waves := 255 } }, by decide +kernel⟩,
   ⟨(upBoot 6), by decide +kernel⟩,
   ⟨(upBoot 8), by (and_intros <;> first | decide +kernel | (intros; rfl))⟩,
   ⟨{ up with boot := { next := 5, waves := 17 } }, 5, by (and_intros <;> first | decide +kernel | (intros; rfl))⟩,
   ⟨{ up with sectors := [(0, { softPending := true, softUsed := 9 })] }, 0, by decide +kernel⟩,
   ⟨(sCr 2 []), by decide +kernel⟩,
   ⟨(sCr 6 []), by decide +kernel⟩,
   ⟨(sCr 8 []), by decide +kernel⟩,
   ⟨(sCr 8 [1]), 0, parkE, by decide +kernel⟩,
   ⟨up, 7, by (and_intros <;> first | decide +kernel | (intros; rfl))⟩,
   ⟨up, 127, by (and_intros <;> first | decide +kernel | (intros; rfl))⟩,
   ⟨999, false, by decide +kernel⟩,
   ⟨up, 20, true, by decide +kernel⟩,
   ⟨up, by decide +kernel⟩,
   ⟨(upAo fun a => { a with inReset := true, perstHigh := false, resetHigh := true }), .perst, by decide +kernel⟩,
   ⟨up, 4, by decide +kernel⟩⟩

theorem witness_RotationAndOwnership :
  (∃ (n : SectorId) (s : State) (q : SectorSt) (p : ℕ) (mb : ℕ), q = s.sector n.val ∧ s.ao.serving = true ∧ s.ao.pstate = 0 ∧
    s.fault.fatal = false ∧ q.spareValid = true ∧ q.mig = none ∧ q.test = none ∧ (s.selftestWaiting (n.val) 0 = none ∧
    s.oldestTest n.val = some p ∧ mb = 0 ∨ ∃ (m : ℕ) (e : JEntry), s.selftestWaiting (n.val) 0 = some (m, e) ∧
    leAt e.cmd 66 2 = p ∧ s.testable (n.val) p = true ∧ mb = m + 1)) ∧
  (∃ (n : SectorId) (s : State) (q : SectorSt) (p : ℕ) (mb : ℕ), q = s.sector n.val ∧ s.ao.serving = true ∧ s.ao.pstate = 0 ∧
    s.fault.fatal = false ∧ q.spareValid = true ∧ q.mig = none ∧ q.test = none ∧ (s.selftestWaiting (n.val) 0 = none ∧
    s.oldestTest n.val = some p ∧ mb = 0 ∨ ∃ (m : ℕ) (e : JEntry), s.selftestWaiting (n.val) 0 = some (m, e) ∧
    leAt e.cmd 66 2 = p ∧ s.testable (n.val) p = true ∧ mb = m + 1)) ∧
  (∃ (n : SectorId) (s : State) (q : SectorSt) (p : ℕ) (mb : ℕ), q = s.sector n.val ∧ s.ao.serving = true ∧ s.ao.pstate = 0 ∧
    s.fault.fatal = false ∧ q.spareValid = true ∧ q.mig = none ∧ q.test = none ∧ (s.selftestWaiting (n.val) 0 = none ∧
    s.oldestTest n.val = some p ∧ mb = 0 ∨ ∃ (m : ℕ) (e : JEntry), s.selftestWaiting (n.val) 0 = some (m, e) ∧
    leAt e.cmd 66 2 = p ∧ s.testable (n.val) p = true ∧ mb = m + 1)) ∧
  (∃ (n : SectorId) (s : State) (q : SectorSt) (g : Migration) (agree : Bool) (i : ℕ) (k : CoreSt), q = s.sector n.val ∧
    q.mig = some g ∧ i = indexOf g.core ∧ k = s.core g.core ∧ (agree = false → g.mb = 0) ∧ (s.netOf g.core).shed = false ∧
    (s.netOf g.core).running = false ∧ plainEvents k.rq + q.migBuf.length + k.credit ≤ 4096 ∧ (k.net = 0 ∨ ∀ e ∈ q.migBuf,
    (e.tag + 4 - s.cutStep g.core % 4) % 4 < 2)) ∧
  (∃ (n : SectorId) (s : State) (q : SectorSt) (g : Migration) (agree : Bool) (i : ℕ) (k : CoreSt), q = s.sector n.val ∧
    q.mig = some g ∧ i = indexOf g.core ∧ k = s.core g.core ∧ (agree = false → g.mb = 0) ∧ (s.netOf g.core).shed = false ∧
    (s.netOf g.core).running = false ∧ plainEvents k.rq + q.migBuf.length + k.credit ≤ 4096 ∧ (k.net = 0 ∨ ∀ e ∈ q.migBuf,
    (e.tag + 4 - s.cutStep g.core % 4) % 4 < 2)) ∧
  (∃ (n : SectorId) (s : State) (q : SectorSt) (x : CoreTest), q = s.sector n.val ∧ q.test = some x ∧ s.boot.crStep = 0 ∧
    s.fault.fatal = false) ∧
  (∃ (n : SectorId) (s : State) (q : SectorSt) (x : CoreTest), q = s.sector n.val ∧ q.test = some x ∧ s.boot.crStep = 0 ∧
    s.fault.fatal = false) ∧
  (∃ (n : SectorId) (s : State) (q : SectorSt) (x : CoreTest), q = s.sector n.val ∧ q.test = some x ∧ s.boot.crStep = 0 ∧
    s.fault.fatal = false) ∧
  (∃ (n : SectorId) (s : State) (q : SectorSt) (x : CoreTest), q = s.sector n.val ∧ q.test = some x ∧ s.boot.crStep = 0 ∧
    s.fault.fatal = false) ∧
  (∃ (n : SectorId) (s : State) (q : SectorSt) (b : Fin 64) (g : Fin 8) (pass : Bool) (r : Bool) (fails : Bool) (el : ℕ),
    q = s.sector n.val ∧ s.ao.serving = true ∧ s.fault.fatal = false ∧ q.mig = none ∧
    (q.bankTest = if g.val = 0 then 0 else b.val + 1) ∧ (el = if pass = false ∧ r = true then min 1 q.spareElem else 0) ∧
    fails = (!pass && el == 0 || g.val != 0 && q.bankFail) ∧ (g.val < 7 ∨ fails = false ∨ 2 ≤ b.val) ∧ (g.val < 7 ∨
    s.traceOn = false ∨ s.selftestWaiting (n.val) 1 = none)) ∧
  (∃ (n : SectorId) (s : State) (q : SectorSt) (b : Fin 64) (g : Fin 8) (pass : Bool) (r : Bool) (fails : Bool) (el : ℕ),
    q = s.sector n.val ∧ s.ao.serving = true ∧ s.fault.fatal = false ∧ q.mig = none ∧
    (q.bankTest = if g.val = 0 then 0 else b.val + 1) ∧ (el = if pass = false ∧ r = true then min 1 q.spareElem else 0) ∧
    fails = (!pass && el == 0 || g.val != 0 && q.bankFail) ∧ (g.val < 7 ∨ fails = false ∨ 2 ≤ b.val) ∧ (g.val < 7 ∨
    s.traceOn = false ∨ s.selftestWaiting (n.val) 1 = none)) ∧
  (∃ (s : State) (a : AoSt), a = s.ao ∧ a.serving = true) ∧
  (∃ (s : State) (a : AoSt), a = s.ao ∧ a.serving = true) ∧
  (∃ (s : State) (a : AoSt), a = s.ao ∧ a.standbyUp = true ∧ (a.halFenced !a.ownerSouth) = false ∧ a.pstate < 2 ∧
    s.boot.devReady = true ∧ s.boot.crStep = 0 ∧ a.hbStamp + 30000000 < s.now) ∧
  (∃ (s : State) (a : AoSt), a = s.ao ∧ a.standbyUp = true ∧ (a.halFenced !a.ownerSouth) = false ∧ a.pstate < 2 ∧
    s.boot.devReady = true ∧ s.boot.crStep = 0 ∧ s.now ≤ a.hbStamp + 30000000) ∧
  (∃ (s : State) (a : AoSt), a = s.ao ∧ a.standbyUp = false ∧ a.pstate < 2 ∧ s.boot.devReady = true ∧
    a.hbStamp + 100000000 < s.now ∧ s.boot.crStep = 0 ∧ s.fault.fatal = false) :=
  ⟨⟨0, sRot16, (sRot16.sector 0), 16, 0, by decide +kernel, by decide +kernel, by decide +kernel, by decide +kernel,
    by decide +kernel, by decide +kernel, by decide +kernel, (.inl ⟨by decide +kernel, by decide +kernel, rfl⟩)⟩,
   ⟨0, (sRot {}), ((sRot {}).sector 0), 0, 0, by decide +kernel, by decide +kernel, by decide +kernel, by decide +kernel,
    by decide +kernel, by decide +kernel, by decide +kernel, (.inl ⟨by decide +kernel, by decide +kernel, rfl⟩)⟩,
   ⟨0, (sRot { net := 3, image := 1, phase := 3 }), ((sRot { net := 3, image := 1, phase := 3 }).sector 0), 0, 0,
    by decide +kernel, by decide +kernel, by decide +kernel, by decide +kernel, by decide +kernel, by decide +kernel,
    by decide +kernel, (.inl ⟨by decide +kernel, by decide +kernel, rfl⟩)⟩,
   ⟨0, sMig, (sMig.sector 0), { core := 4, dest := 16 }, true, 4, {}, by (and_intros <;> first | decide +kernel | (intros; rfl))⟩,
   ⟨0, sMig, (sMig.sector 0), { core := 4, dest := 16 }, false, 4, {}, by (and_intros <;> first | decide +kernel | (intros; rfl))⟩,
   ⟨0, (sTest 0 0), ((sTest 0 0).sector 0), { phys := 16 }, by decide +kernel⟩,
   ⟨0, (sTest 4 9), ((sTest 4 9).sector 0), { phys := 16, slice := 4 }, by decide +kernel⟩,
   ⟨0, (sTest 11 0), ((sTest 11 0).sector 0), { phys := 16, slice := 11 }, by decide +kernel⟩,
   ⟨0, (sTest 11 0), ((sTest 11 0).sector 0), { phys := 16, slice := 11 }, by decide +kernel⟩,
   ⟨0, (sBankT 0 9 false), ((sBankT 0 9 false).sector 0), 63, 0, false, true, false, 1, by decide +kernel⟩,
   ⟨0, (sBankT 64 0 true), ((sBankT 64 0 true).sector 0), 63, 7, true, false, true, 0, by decide +kernel⟩,
   ⟨up, up.ao, by decide +kernel⟩,
   ⟨up, up.ao, by decide +kernel⟩,
   ⟨(sOwn true 0), (sOwn true 0).ao, by decide +kernel⟩,
   ⟨(sOwn true 4999999999), (sOwn true 4999999999).ao, by decide +kernel⟩,
   ⟨up, up.ao, by decide +kernel⟩⟩

theorem witness_GlobalControlWrites :
  (∃ (s : State) (own : Bool) (c : CoreId) (v : BitVec 32) (q : SectorSt) (i : ℕ), own = s.ao.ownerSouth ∧
    s.ao.halFenced own = false ∧ q = s.sector (sectorOf c.val) ∧ i = indexOf c.val ∧
    s.mapWriteOk (c.val) (fld v 7 6) (fld v 4 0) = true) ∧
  (∃ (s : State) (own : Bool) (c : CoreId) (v : BitVec 32) (q : SectorSt) (i : ℕ), own = s.ao.ownerSouth ∧
    s.ao.halFenced own = false ∧ q = s.sector (sectorOf c.val) ∧ i = indexOf c.val ∧
    s.mapWriteOk (c.val) (fld v 7 6) (fld v 4 0) = false) ∧
  (∃ (s : State) (own : Bool), own = s.ao.ownerSouth ∧ s.ao.halFenced own = false) ∧
  (∃ (s : State) (own : Bool) (n : SectorId), own = s.ao.ownerSouth ∧ s.ao.halFenced own = false ∧ ∀ c ∈ s.cores.keys,
    sectorOf c ∈ s.clockGroup n.val → s.atStepBoundary c = true) ∧
  (∃ (s : State) (own : Bool) (n : SectorId), own = s.ao.ownerSouth ∧ s.ao.halFenced own = false ∧ ∃ c ∈ s.cores.keys,
    sectorOf c ∈ s.clockGroup n.val ∧ s.atStepBoundary c = false) ∧
  (∃ (s : State) (own : Bool), own = s.ao.ownerSouth ∧ s.ao.halFenced own = false) ∧
  (∃ (s : State) (own : Bool), own = s.ao.ownerSouth ∧ s.ao.halFenced own = false) ∧
  (∃ (s : State) (own : Bool) (at_ : ℕ) (bytes : List Byte), own = s.ao.ownerSouth ∧ s.ao.halFenced own = false ∧
    at_ + bytes.length ≤ 85983232 ∧ s.gHeld at_ bytes.length = false) ∧
  (∃ (s : State) (own : Bool), own = s.ao.ownerSouth) :=
  ⟨⟨up, false, 3, 0x3, ((up).sector 0), 3, by decide +kernel⟩,
   ⟨up, false, 3, 0x7, ((up).sector 0), 3, by decide +kernel⟩,
   ⟨up, false, by decide +kernel⟩,
   ⟨up, false, 5, by (and_intros <;> first | decide +kernel | (intros; rfl))⟩,
   ⟨(sFire { net := 3, phase := 2 }), false, 0, by decide +kernel⟩,
   ⟨up, false, by decide +kernel⟩,
   ⟨up, false, by decide +kernel⟩,
   ⟨{ up with gddr := gUp }, false, 0x051FFFFF, [9], by decide +kernel⟩,
   ⟨up, false, by decide +kernel⟩⟩

theorem witness_SpdmRequestsAreAnswered :
  (∃ (s : State), s.vendorUp = true) ∧
  (∃ (s : State), s.vendorUp = true) ∧
  (∃ (s : State), s.vendorUp = true) ∧
  (∃ (s : State), s.vendorUp = true ∧ (s.sec.lc = 1 ∨ s.sec.lc = 2)) ∧
  (∃ (s : State), s.vendorUp = true ∧ (s.sec.lc = 1 ∨ s.sec.lc = 2)) ∧
  (∃ (s : State), s.vendorUp = true ∧ (s.sec.lc = 1 ∨ s.sec.lc = 2)) ∧
  (∃ (s : State), s.vendorUp = true ∧ (s.sec.lc = 1 ∨ s.sec.lc = 2)) ∧
  (∃ (s : State) (i : ℕ) (l : List ℕ) (r : List Byte), s.vendorUp = true ∧ (s.sec.lc = 1 ∨ s.sec.lc = 2) ∧ (i = 0 ∧ l = [] ∨
    i = 255 ∧ l = measureIndices ∨ i ∈ measureIndices ∧ l = [i]) ∧
    r = toLe 1 (if i = 0 then measureIndices.length else l.length) ++ List.flatMap s.measureBlock l) ∧
  (∃ (s : State) (i : ℕ) (l : List ℕ) (r : List Byte), s.vendorUp = true ∧ (s.sec.lc = 1 ∨ s.sec.lc = 2) ∧ (i = 0 ∧ l = [] ∨
    i = 255 ∧ l = measureIndices ∨ i ∈ measureIndices ∧ l = [i]) ∧
    r = toLe 1 (if i = 0 then measureIndices.length else l.length) ++ List.flatMap s.measureBlock l) :=
  ⟨⟨up, by decide +kernel⟩,
   ⟨up, by decide +kernel⟩,
   ⟨up, by decide +kernel⟩,
   ⟨(upSc { lc := 1 }), by decide +kernel⟩,
   ⟨(upSc { lc := 2 }), by decide +kernel⟩,
   ⟨(upSc { lc := 2 }), by decide +kernel⟩,
   ⟨(upSc { lc := 1 }), by decide +kernel⟩,
   ⟨(upSc { lc := 1 }), 0, [], (toLe 1 measureIndices.length), by decide +kernel, by decide +kernel, by decide +kernel, rfl⟩,
   ⟨(upSc { lc := 2 }), 5, [5], (toLe 1 1 ++ (upSc { lc := 2 }).measureBlock 5), by decide +kernel, by decide +kernel,
    by decide +kernel, (by simp [toLe, List.flatMap])⟩⟩

theorem witness_SpdmErrorInBlankAndRma :
  (∃ (s : State), s.vendorUp = true ∧ (s.sec.lc = 0 ∨ s.sec.lc = 3)) ∧
  (∃ (s : State), s.vendorUp = true ∧ (s.sec.lc = 0 ∨ s.sec.lc = 3)) :=
  ⟨⟨(upSc {}), by decide +kernel⟩,
   ⟨(upSc { lc := 3 }), by decide +kernel⟩⟩

theorem witness_SidebandMessages :
  (∃ (s : State) (len : ℕ) (ok : Bool), s.sidebandUp = true ∧ (4224 < len ∨ ok = false)) ∧
  (∃ (s : State) (len : ℕ) (ok : Bool), s.sidebandUp = true ∧ (4224 < len ∨ ok = false)) ∧
  (∃ (s : State) (len : ℕ), s.sidebandUp = true ∧ len ≤ 4224) ∧
  (∃ (s : State) (len : ℕ), s.sidebandUp = true ∧ len ≤ 4224) ∧
  (∃ (s : State) (len : ℕ), s.sidebandUp = true ∧ len ≤ 4224) ∧
  (∃ (s : State) (len : ℕ), s.sidebandUp = true ∧ len ≤ 4224) ∧
  (∃ (s : State) (len : ℕ), s.sidebandUp = true ∧ len ≤ 4224) ∧
  (∃ (s : State), s.sidebandUp = true) ∧
  (∃ (s : State), s.sidebandUp = true) ∧
  (∃ (s : State), s.sidebandUp = true ∧ s.monitorUp = true) ∧
  (∃ (s : State), s.sidebandUp = true ∧ s.monitorUp = true) ∧
  (∃ (s : State), s.sidebandUp = true ∧ s.monitorUp = true) :=
  ⟨⟨up, 4225, true, by decide +kernel⟩,
   ⟨up, 12, false, by decide +kernel⟩,
   ⟨up, 4224, by decide +kernel⟩,
   ⟨up, 4224, by decide +kernel⟩,
   ⟨up, 12, by decide +kernel⟩,
   ⟨up, 12, by decide +kernel⟩,
   ⟨up, 12, by decide +kernel⟩,
   ⟨up, by decide +kernel⟩,
   ⟨up, by decide +kernel⟩,
   ⟨up, by decide +kernel⟩,
   ⟨up, by decide +kernel⟩,
   ⟨up, by decide +kernel⟩⟩

theorem witness_FirmwareAndSvn :
  (∃ (s : State), s.updateUp = true) ∧
  (∃ (s : State) (off : ℕ) (data : List Byte), s.updateUp = true ∧ s.sec.updating = true ∧ data ≠ [] ∧
    off + data.length ≤ slotBytes) ∧
  (∃ (s : State), s.updateUp = true ∧ s.sec.updating = true) ∧
  (∃ (s : State), s.updateUp = true ∧ s.sec.updating = true ∧ s.sec.verified = true) ∧
  (∃ (s : State), s.vendorUp = true ∧ (s.sec.lc = 1 ∨ s.sec.lc = 2) ∧ s.boot.fwSlot = 0 ∧ s.sec.updating = false ∧
    s.sec.slotOk (max s.sec.svnMin s.sec.svnRun) s.sec.boardA s.sec.slotA s.foundA = true) :=
  ⟨⟨up, by decide +kernel⟩,
   ⟨(sUpd []), 0, [1, 2], by decide +kernel⟩,
   ⟨(sUpd [1]), by decide +kernel⟩,
   ⟨(upSc { updating := true, verified := true }), by decide +kernel⟩,
   ⟨sSvn, by decide +kernel⟩⟩

theorem witness_DebugAuthorisations :
  (∃ (s : State), s.vendorUp = true) ∧
  ((authS 1).authSigned (authM 1 3 ++ zeros 64) = true → ∃ (s : State) (b : List Byte), s.vendorUp = true ∧ s.sec.authGood b = true ∧ leAt b 1 1 = 1) ∧
  ((authS 1).authSigned (authM 2 2 ++ zeros 64) = true → ∃ (s : State) (b : List Byte), s.vendorUp = true ∧ s.sec.authGood b = true ∧ leAt b 1 1 = 2 ∧
    lcChange s.sec.fused (leAt b 2 2) s.sec.certWritten = true) ∧
  (∃ (s : State) (b : List Byte), s.vendorUp = true ∧ (s.sec.authGood b = false ∨ leAt b 1 1 = 2 ∧
    lcChange s.sec.fused (leAt b 2 2) s.sec.certWritten = false)) ∧
  (∃ (s : State), s.vendorUp = true ∧ s.sec.auth = true) :=
  ⟨⟨up, by decide +kernel⟩,
   fun h => ⟨(upSc (authS 1)), (authM 1 3 ++ zeros 64), by decide +kernel, authGood_of 1 1 3 (.inl rfl) h⟩,
   fun h => ⟨(upSc (authS 1)), (authM 2 2 ++ zeros 64), by decide +kernel, (authGood_of 1 2 2 (.inr rfl) h).1,
    (authGood_of 1 2 2 (.inr rfl) h).2, by simp [authM, leAt, leNat, toLe, zeros, upSc, authS, lcChange, SecSt.fused]⟩,
   ⟨up, [1], by decide +kernel⟩,
   ⟨sAuth, by decide +kernel⟩⟩

end Sys2Proof.Tests
end

section
/-! SUPPORT. Numbers and device counters: a field of a number replaced, bit by bit, and what the count of a device counter
(20 R506) leaves unchanged. -/

namespace Sys2Proof.Machine

/-! ### Bits of numbers -/

/-- The high part, the new field and the low part of a number with a field replaced. -/
theorem nput_eq_parts (n hi lo v : Nat) (h : lo ≤ hi + 1) :
    nput n hi lo v = (n / 2 ^ (hi + 1) * 2 ^ (hi + 1 - lo) + v % 2 ^ (hi + 1 - lo)) * 2 ^ lo + n % 2 ^ lo := by
  have hlow := Nat.div_add_mod n (2 ^ lo)
  have hfield := Nat.div_add_mod (n / 2 ^ lo) (2 ^ (hi + 1 - lo))
  rw [nput, nfld, Nat.shiftRight_eq_div_pow, ← pow_mul_pow_sub 2 h, ← Nat.div_div_eq_div_mul]
  generalize n / 2 ^ lo / 2 ^ (hi + 1 - lo) = a at *
  generalize n / 2 ^ lo % 2 ^ (hi + 1 - lo) = f at *
  have hn : n = a * 2 ^ (hi + 1 - lo) * 2 ^ lo + f * 2 ^ lo + n % 2 ^ lo := by
    rw [← add_mul, mul_comm a, hfield, mul_comm, hlow]
  rw [add_mul]
  omega

/-- A bit outside a field stays when the field is replaced. -/
theorem nbit_nput_outside (n hi lo v i : Nat) (h : lo ≤ hi + 1) (hi' : i < lo ∨ hi < i) :
    nbit (nput n hi lo v) i = nbit n i := by
  have hdiv : nput n hi lo v / 2 ^ (hi + 1) = n / 2 ^ (hi + 1) := by
    rw [nput_eq_parts n hi lo v h, ← pow_mul_pow_sub 2 h, ← Nat.div_div_eq_div_mul, mul_comm _ (2 ^ lo),
      Nat.mul_add_div (Nat.two_pow_pos lo), Nat.div_eq_of_lt (Nat.mod_lt n (Nat.two_pow_pos lo)), add_zero,
      mul_comm _ (2 ^ (hi + 1 - lo)), Nat.mul_add_div (Nat.two_pow_pos _),
      Nat.div_eq_of_lt (Nat.mod_lt v (Nat.two_pow_pos _)), add_zero]
  have hmod : nput n hi lo v % 2 ^ lo = n % 2 ^ lo := by
    rw [nput_eq_parts n hi lo v h, mul_comm, Nat.mul_add_mod, Nat.mod_mod]
  rcases hi' with hlt | hgt
  · have := congrArg (·.testBit i) hmod
    simpa [Nat.testBit_mod_two_pow, hlt, nbit] using this
  · have := congrArg (·.testBit (i - (hi + 1))) hdiv
    simpa [Nat.testBit_div_two_pow, Nat.sub_add_cancel hgt, nbit] using this

/-- A bit of a field kept at its place. -/
theorem nbit_nfld_mul (n hi lo i : Nat) (hlo : lo ≤ i) (hhi : i ≤ hi) : nbit (nfld n hi lo * 2 ^ lo) i = nbit n i := by
  have hlt : i - lo < hi + 1 - lo := by omega
  simp [nbit, nfld, Nat.testBit_mul_two_pow, Nat.testBit_mod_two_pow, Nat.testBit_shiftRight, hlo, hlt]

/-- A bit of a number that a register word of w bits holds. -/
theorem nbit_toNat_ofNat (w n i : Nat) (h : i < w) : nbit (BitVec.ofNat w n).toNat i = nbit n i := by
  simp [nbit, Nat.testBit_mod_two_pow, h]

/-! ### Device counters -/

variable (s : State) (id sub inc : Nat)

/-- A count of a device counter changes the counters and nothing else. -/
theorem State.countDev_eq_with_ctr : ∃ c, s.countDev id sub inc = { s with ctr := c } := by
  unfold State.countDev State.count State.ctrAdd
  split
  · exact ⟨s.ctr, rfl⟩
  · exact ⟨_, rfl⟩

@[simp] theorem State.keepsBut_countDev {t : State} {l : List Part} (hp : Part.ctr ∈ l) :
    State.KeepsBut l s (t.countDev id sub inc) ↔ State.KeepsBut l s t := State.keepsBut_ctrAdd s hp 0 0 id sub 0 inc

@[simp] theorem State.countDev_units :
    (s.countDev id sub inc).core = s.core ∧ (s.countDev id sub inc).sector = s.sector ∧
    (s.countDev id sub inc).net = s.net ∧ (s.countDev id sub inc).mb = s.mb ∧
    (s.countDev id sub inc).port = s.port ∧ (s.countDev id sub inc).flow = s.flow ∧
    (s.countDev id sub inc).stc = s.stc ∧ (s.countDev id sub inc).tmr = s.tmr ∧
    (s.countDev id sub inc).lout = s.lout ∧ (s.countDev id sub inc).now = s.now := by
  obtain ⟨c, hc⟩ := s.countDev_eq_with_ctr id sub inc
  rw [hc]
  repeat' constructor

@[simp] theorem State.countDev_fields :
    (s.countDev id sub inc).ao = s.ao ∧ (s.countDev id sub inc).boot = s.boot ∧ (s.countDev id sub inc).pcie = s.pcie ∧
    (s.countDev id sub inc).fault = s.fault ∧ (s.countDev id sub inc).out = s.out := by
  obtain ⟨c, hc⟩ := s.countDev_eq_with_ctr id sub inc
  rw [hc]
  repeat' constructor

@[simp] theorem State.writeActs_countDev : (s.countDev id sub inc).writeActs = s.writeActs := by
  obtain ⟨c, hc⟩ := s.countDev_eq_with_ctr id sub inc
  rw [hc]
  rfl

@[simp] theorem State.tmrLocked_countDev : (s.countDev id sub inc).tmrLocked = s.tmrLocked := by
  obtain ⟨c, hc⟩ := s.countDev_eq_with_ctr id sub inc
  rw [hc]
  rfl

variable {id sub inc}

/-- What a device counter reads after it has advanced. -/
theorem State.ctrAt_countDev_self (h : inc ≠ 0) :
    (s.countDev id sub inc).ctrAt Scope.device 0 id sub 0 = satCtr (s.ctrAt Scope.device 0 id sub 0 + inc) := by
  simp [State.countDev, State.count, State.ctrAdd, h, State.ctrAt_ctrPut]

/-- A device counter with another number keeps its value. -/
theorem State.ctrAt_countDev_ne {id' sub' : Nat} (h : id' ≠ id) (hsub : sub < 65536) (hsub' : sub' < 65536) :
    (s.countDev id sub inc).ctrAt Scope.device 0 id' sub' 0 = s.ctrAt Scope.device 0 id' sub' 0 := by
  have hkey : ckey Scope.device 0 id' sub' 0 ≠ ckey 0 0 id sub 0 := by unfold ckey Scope.device; omega
  unfold State.countDev State.count State.ctrAdd
  split
  · rfl
  · rw [State.ctrAt_ctrPut, if_neg hkey]

end Sys2Proof.Machine
end

section
/-! SUPPORT. Host register writes (13 R322, R325; 21 R525): how a write comes to its register, where it does not act, and
what the registers of O33 do with the word. -/

namespace Sys2Proof.Machine

variable (s : State)

/-! ### The way of a write to its register -/

theorem regPage_lt {o : Nat} (h : regPage o = true) : o < 0x400000 := by
  simp [regPage] at h
  omega

/-- A naturally aligned access of 4 bytes is counted and writes one word. -/
theorem exec_registerWrite_word {o : Nat} (v : Word64) (hopen : s.bar0Open = true) (hpage : regPage o = true)
    (halign : o % 4 = 0) :
    exec (.registerWrite o 4 v) s = .next ((s.countDev Ctr.pcieRxBytes noSub 4).wordWrite o (v.toNat % 2 ^ 32)) := by
  have hlt := regPage_lt hpage
  have hstc : ¬ 0x800000 ≤ o := by omega
  simp [exec, execRegisterWrite, hopen, hpage, halign, hstc]

/-- An access of a register page with another size or alignment is counted and answered Unsupported Request (13 R322). -/
theorem exec_registerWrite_unsupported {o size : Nat} (v : Word64) (hopen : s.bar0Open = true) (hpage : regPage o = true)
    (h4 : ¬ (size = 4 ∧ o % 4 = 0)) (h8 : ¬ (size = 8 ∧ o % 8 = 0)) :
    exec (.registerWrite o size v) s = .next ((s.countDev Ctr.pcieRxBytes noSub (min size 8)).send .unsupported) := by
  have hlt := regPage_lt hpage
  have hstc : ¬ 0x800000 ≤ o := by omega
  simp [exec, execRegisterWrite, hopen, hpage, hstc, h4, h8]

/-- A register with a row of its own is written as any other, with its 4 bytes counted. -/
theorem State.hostPut_of_open (o v : Nat) (hopen : s.bar0Open = true) :
    s.hostPut o v = (s.countDev Ctr.pcieRxBytes noSub 4).wordWrite o v := by
  simp [State.hostPut, hopen]

/-- A word reaches a register that is neither of a mailbox nor live in P3 where R525 lets it act. -/
theorem State.wordWrite_register (o v : Nat) (ho : o < 0x100000) (hmark : o ≠ 0x48) (hbeat : o ≠ 0x25008) :
    s.wordWrite o v = if s.writeActs o false false then s.regPut o v else s := by
  have hmb : ¬ 0x100000 ≤ o := by omega
  simp [State.wordWrite, hmb, beq_eq_false_iff_ne.mpr hmark, beq_eq_false_iff_ne.mpr hbeat]

/-- The same for TIME_MARK and HOST_HEARTBEAT, which stay live in P3 (16 R421). -/
theorem State.wordWrite_island (o v : Nat) (h : o = 0x48 ∨ o = 0x25008) :
    s.wordWrite o v = if s.writeActs o false true then s.regPut o v else s := by
  rcases h with rfl | rfl <;> simp [State.wordWrite]

/-- A naturally aligned write of 4 bytes that R525 lets act puts its word into the register of the counted state. -/
theorem exec_registerWrite_acts {o : Nat} (v : Word64) (hopen : s.bar0Open = true)
    (hpage : regPage o = true ∧ o < 0x100000 ∧ o % 4 = 0) (hmark : o ≠ 0x48) (hbeat : o ≠ 0x25008)
    (hacts : s.writeActs o false false = true) :
    exec (.registerWrite o 4 v) s = .next ((s.countDev Ctr.pcieRxBytes noSub 4).regPut o (v.toNat % 2 ^ 32)) := by
  obtain ⟨hreg, hlow, halign⟩ := hpage
  rw [exec_registerWrite_word s v hopen hreg halign, State.wordWrite_register _ _ _ hlow hmark hbeat,
    State.writeActs_countDev, if_pos hacts]

/-- The same for the two registers with a row of their own that stay live in P3. -/
theorem State.hostPut_island_acts (o v : Nat) (h : o = 0x48 ∨ o = 0x25008) (hopen : s.bar0Open = true)
    (hacts : s.writeActs o false true = true) :
    s.hostPut o v = (s.countDev Ctr.pcieRxBytes noSub 4).regPut o v := by
  rw [s.hostPut_of_open _ _ hopen, State.wordWrite_island _ _ _ h, State.writeActs_countDev, if_pos hacts]

/-! ### The registers -/

theorem State.regPut_timeMark (v : Nat) : s.regPut 0x48 v = s.modPcie fun p => { p with mark := BitVec.ofNat 64 s.now } := rfl

theorem State.regPut_intDevCause (v : Nat) :
    s.regPut 0x100 v = s.modPcie fun p => { p with cause := nclear p.cause (v % 1024) } := rfl

theorem State.regPut_hostHeartbeat (v : Nat) : s.regPut 0x25008 v = s.modFault fun f => { f with hbLast := s.now } := rfl

theorem State.regPut_compute (o v : Nat) (hlo : 0x20000 ≤ o) (hhi : o < 0x23000) : s.regPut o v = s.putCompute o v := by
  unfold State.regPut
  rw [if_neg (by omega), if_neg (by omega), if_neg (by omega), if_neg (by omega), if_neg (by omega), if_pos hhi]

theorem State.regPut_lines (o v : Nat) (hlo : 0x23000 ≤ o) (hhi : o < 0x24000) : s.regPut o v = s.putLines o v := by
  unfold State.regPut
  rw [if_neg (by omega), if_neg (by omega), if_neg (by omega), if_neg (by omega), if_neg (by omega), if_neg (by omega),
    if_pos hhi]

theorem State.regPut_system (o v : Nat) (hlo : 0x24000 ≤ o) (hhi : o < 0x30000) : s.regPut o v = s.putSystem o v := by
  unfold State.regPut
  rw [if_neg (by omega), if_neg (by omega), if_neg (by omega), if_neg (by omega), if_neg (by omega), if_neg (by omega),
    if_neg (by omega), if_pos hhi]

/-- CORE_MAP is read-only. -/
theorem State.regPut_coreMap (c : CoreId) (v : Nat) : s.regPut (0x20000 + 4 * c.val) v = s := by
  have hlt : 0x20000 + 4 * c.val < 0x21000 := by omega
  rw [s.regPut_compute _ v (by omega) (by omega)]
  generalize 0x20000 + 4 * c.val = o at hlt
  have hplace : ∀ n, 0x21000 ≤ n → ¬ n ≤ o := by omega
  simp [State.putCompute, hplace]

theorem State.regPut_netStepStatus (k : NetId) (v : Nat) :
    s.regPut (0x21014 + 0x20 * k.val) v = s.modNet k.val fun n => { n with events := nclear n.events (nfld v 28 24) } := by
  have hnet : 0x21000 ≤ 0x21014 + 0x20 * k.val ∧ 0x21014 + 0x20 * k.val < 0x21240 := by omega
  have hslot : (0x21014 + 0x20 * k.val - 0x21000) / 0x20 = k.val := by omega
  rw [s.regPut_compute _ v (by omega) (by omega), State.putCompute, if_pos (by simpa using hnet), State.putNet,
    if_pos (by omega), if_pos (by omega), hslot]

theorem State.regPut_traceRd (n : SectorId) (v : Nat) :
    s.regPut (0x26004 + 0x10 * n.val) v = s.modSector n.val fun q => { q with traceRd := v } := by
  have htrace : 0x26000 ≤ 0x26004 + 0x10 * n.val ∧ 0x26004 + 0x10 * n.val < 0x26080 := by omega
  have hplace : (0x26004 + 0x10 * n.val) % 0x10 = 4 := by omega
  have hsector : (0x26004 + 0x10 * n.val - 0x26000) / 0x10 = n.val := by omega
  rw [s.regPut_system _ v (by omega) (by omega), State.putSystem, if_neg (by omega), if_neg (by omega), if_neg (by omega),
    if_pos (by simpa [hplace] using htrace), hsector]

theorem State.regPut_timer (ch : TimerId) (r : Fin 9) (v : Nat) :
    s.regPut (0x23000 + 0x40 * ch.val + 4 * r.val) v = s.tmrHostWrite ch.val r.val v := by
  have hch : (0x23000 + 0x40 * ch.val + 4 * r.val - 0x23000) / 0x40 = ch.val := by omega
  have hreg : (0x23000 + 0x40 * ch.val + 4 * r.val) % 0x40 / 4 = r.val := by omega
  rw [s.regPut_lines _ v (by omega) (by omega), State.putLines, if_pos (by omega), if_pos (by omega), hch, hreg]

end Sys2Proof.Machine
end

section
/-! SUPPORT. Timer register writes (15 R395, R396, R399): what the host's write of each register of a channel leaves in
the channel, and the frame of them all. -/

namespace Sys2Proof.Machine

variable (s : State) (c v : Nat)

/-- Where no match is due, none is taken. -/
theorem State.tmrMatches_of_not_due (h0 : (s.tmr c).due false = false) (h1 : (s.tmr c).due true = false) :
    s.tmrMatches c = (s, []) := by
  simp [State.tmrMatches, h0, h1]

/-- Where no match is due, a host write has no lead event to broadcast first. -/
theorem State.tmrHostWrite_of_not_due (reg : Nat) (h0 : (s.tmr c).due false = false) (h1 : (s.tmr c).due true = false) :
    s.tmrHostWrite c reg v = s.tmrWrite c reg v := by
  simp [State.tmrHostWrite, s.tmrMatches_of_not_due c h0 h1, State.tmrLead]

/-- A network holds the first four registers of a channel that it names (R399): a write is counted and does nothing. -/
theorem State.tmrWrite_of_locked {reg : Nat} (hreg : reg < 4) (hlock : s.tmrLocked c = true) :
    s.tmrWrite c reg v = s.countDev Ctr.tmrWriteLocked c := by
  simp [State.tmrWrite, hreg, hlock]

theorem State.tmrWrite_ctrl (hlock : s.tmrLocked c = false) :
    ((s.tmrWrite c 0 v).tmr c).on = nbit v 31 ∧
    ∀ i, 8 ≤ i → i ≤ 30 → (i = 29 → c % 2 = 1) → nbit ((s.tmrWrite c 0 v).tmr c).ctrl.toNat i = nbit v i := by
  have hval : (s.tmrWrite c 0 v).tmr c = { s.tmr c with
      ctrl := BitVec.ofNat 32 (if c % 2 = 0 then nput (nfld v 30 8 * 2 ^ 8) 29 29 0 else nfld v 30 8 * 2 ^ 8)
      on := nbit v 31
      pre := if (s.tmr c).on then (s.tmr c).pre else 0 } := by
    simp [State.tmrWrite, hlock]
  rw [hval]
  refine ⟨rfl, fun i hlo hhi hpair => ?_⟩
  rw [nbit_toNat_ofNat 32 _ i (by omega)]
  split
  · rw [nbit_nput_outside _ 29 29 0 i (by omega) (by omega), nbit_nfld_mul v 30 8 i hlo hhi]
  · exact nbit_nfld_mul v 30 8 i hlo hhi

theorem State.tmrWrite_div (hlock : s.tmrLocked c = false) :
    (s.tmrWrite c 1 v).tmr c = { s.tmr c with div := v % 65536, pre := 0 } := by
  simp [State.tmrWrite, hlock]

theorem State.tmrWrite_count (hlock : s.tmrLocked c = false) : (s.tmrWrite c 2 v).tmr c = (s.tmr c).setCount v := by
  simp [State.tmrWrite, hlock]

theorem State.tmrWrite_limit (hlock : s.tmrLocked c = false) :
    (s.tmrWrite c 3 v).tmr c = { s.tmr c with limit := v } := by
  simp [State.tmrWrite, hlock]

theorem State.tmrWrite_snap0 : (s.tmrWrite c 4 v).tmr c = { s.tmr c with snap0 := v } := by
  simp [State.tmrWrite]

theorem State.tmrWrite_snap1 : (s.tmrWrite c 5 v).tmr c = { s.tmr c with snap1 := v } := by
  simp [State.tmrWrite]

theorem State.tmrWrite_snapcfg : (s.tmrWrite c 6 v).tmr c =
    { s.tmr c with snapcfg := BitVec.ofNat 32 v &&& 0xF8FFF8FF, edge0 := 0, edge1 := 0 } := by
  simp [State.tmrWrite]

theorem State.tmrWrite_status : (s.tmrWrite c 7 v).tmr c =
    { s.tmr c with status := nclear (s.tmr c).status (v % 32) } := by
  simp [State.tmrWrite]

/-- A write of a register is a count of the refusal, or a change of that channel alone; only COUNT and LIMIT change the
count and the limit. -/
theorem State.tmrWrite_cases (reg : Nat) :
    (∃ id sub, s.tmrWrite c reg v = s.countDev id sub) ∨ s.tmrWrite c reg v = s ∨
    ∃ x : TimerSt, s.tmrWrite c reg v = s.setTmr c x ∧ (reg ≠ 2 → x.count = (s.tmr c).count) ∧
      (reg ≠ 3 → x.limit = (s.tmr c).limit) := by
  unfold State.tmrWrite
  split
  · exact .inl ⟨_, _, rfl⟩
  · split
    case h_9 => exact .inr (.inl rfl)
    all_goals exact .inr (.inr ⟨_, rfl, by simp [TimerSt.setCount], by simp [TimerSt.setCount]⟩)

theorem State.tmrWrite_count_of_ne {reg : Nat} (h : reg ≠ 2) : ((s.tmrWrite c reg v).tmr c).count = (s.tmr c).count := by
  obtain ⟨id, sub, hw⟩ | hw | ⟨x, hw, hcount, -⟩ := s.tmrWrite_cases c v reg <;> simp [hw]
  exact hcount h

theorem State.tmrWrite_limit_of_ne {reg : Nat} (h : reg ≠ 3) : ((s.tmrWrite c reg v).tmr c).limit = (s.tmr c).limit := by
  obtain ⟨id, sub, hw⟩ | hw | ⟨x, hw, -, hlimit⟩ := s.tmrWrite_cases c v reg <;> simp [hw]
  exact hlimit h

theorem State.tmr_tmrWrite_ne (reg : Nat) {c' : Nat} (h : c' ≠ c) : (s.tmrWrite c reg v).tmr c' = s.tmr c' := by
  obtain ⟨id, sub, hw⟩ | hw | ⟨x, hw, -, -⟩ := s.tmrWrite_cases c v reg <;> simp [hw, h]

@[simp] theorem State.keepsBut_tmrWrite {t : State} {l : List Part} (htimers : Part.timers ∈ l) (hctr : Part.ctr ∈ l)
    (reg : Nat) : State.KeepsBut l s (t.tmrWrite c reg v) ↔ State.KeepsBut l s t := by
  obtain ⟨id, sub, hw⟩ | hw | ⟨x, hw, -, -⟩ := t.tmrWrite_cases c v reg <;> simp [hw, htimers, hctr]

end Sys2Proof.Machine
end

section
/-! PROOF. Register writes follow their access codes (O33), one lemma for each clause. -/

namespace Sys2Proof.Machine

variable (s : State)

/-! ### Registers of the pages -/

theorem registerWrite_intDevCause (v : Word64) (hopen : s.bar0Open = true) (hacts : s.writeActs 0x100 false false = true) :
    ∃ t, exec (.registerWrite 0x100 4 v) s = .next t ∧
      t.pcie = { s.pcie with cause := nclear s.pcie.cause (v.toNat % 2 ^ 32 % 1024) } ∧
      State.KeepsBut [.pcie, .ctr] s t := by
  refine ⟨_, exec_registerWrite_acts s v hopen ⟨rfl, by decide, rfl⟩ (by decide) (by decide) hacts, ?_⟩
  simp [State.regPut_intDevCause]

theorem registerWrite_netStepStatus (v : Word64) (k : NetId) (hopen : s.bar0Open = true)
    (hacts : s.writeActs (0x21014 + 0x20 * k.val) false false = true) :
    ∃ t, exec (.registerWrite (0x21014 + 0x20 * k.val) 4 v) s = .next t ∧
      t.net k.val = { s.net k.val with events := nclear (s.net k.val).events (nfld (v.toNat % 2 ^ 32) 28 24) } ∧
      State.NetsBut [k.val] s t ∧ State.KeepsBut [.nets, .ctr] s t := by
  refine ⟨_, exec_registerWrite_acts s v hopen ⟨by simp [regPage]; omega, by omega, by omega⟩ (by omega) (by omega) hacts,
    ?_⟩
  rw [State.regPut_netStepStatus]
  refine ⟨by simp, fun j hj => ?_, by simp⟩
  have hne : j ≠ k.val := by simpa using hj
  simp [hne]

theorem registerWrite_traceRd (v : Word64) (n : SectorId) (hopen : s.bar0Open = true)
    (hacts : s.writeActs (0x26004 + 0x10 * n.val) false false = true) :
    ∃ t, exec (.registerWrite (0x26004 + 0x10 * n.val) 4 v) s = .next t ∧
      t.sector n.val = { s.sector n.val with traceRd := v.toNat % 2 ^ 32 } ∧ State.SectorsBut [n.val] s t ∧
      State.KeepsBut [.sectors, .ctr] s t := by
  refine ⟨_, exec_registerWrite_acts s v hopen ⟨by simp [regPage]; omega, by omega, by omega⟩ (by omega) (by omega) hacts,
    ?_⟩
  rw [State.regPut_traceRd]
  refine ⟨by simp, fun j hj => ?_, by simp⟩
  have hne : j ≠ n.val := by simpa using hj
  simp [hne]

/-- Where the word written changes nothing, the write is counted and that is all. -/
theorem registerWrite_no_effect {o : Nat} (v : Word64) (hopen : s.bar0Open = true) (hpage : regPage o = true)
    (halign : o % 4 = 0) (hword : ∀ (t : State) w, t.writeActs = s.writeActs → t.wordWrite o w = t) :
    ∃ t, exec (.registerWrite o 4 v) s = .next t ∧ State.KeepsBut [.ctr] s t ∧
      t.ctrAt Scope.device 0 Ctr.pcieRxBytes noSub 0 = satCtr (s.ctrAt Scope.device 0 Ctr.pcieRxBytes noSub 0 + 4) := by
  refine ⟨_, exec_registerWrite_word s v hopen hpage halign, ?_⟩
  rw [hword _ _ (State.writeActs_countDev ..)]
  exact ⟨by simp, s.ctrAt_countDev_self (by decide)⟩

/-- CORE_MAP is read-only, whether or not the write reaches it. -/
theorem State.wordWrite_coreMap (c : CoreId) (w : Nat) : s.wordWrite (0x20000 + 4 * c.val) w = s := by
  rw [State.wordWrite_register _ _ _ (by omega) (by omega) (by omega), State.regPut_coreMap, ite_self]

theorem registerWrite_unsupported (o size : Nat) (v : Word64) (hopen : s.bar0Open = true) (hpage : regPage o = true)
    (h4 : ¬ (size = 4 ∧ o % 4 = 0)) (h8 : ¬ (size = 8 ∧ o % 8 = 0)) :
    ∃ t, exec (.registerWrite o size v) s = .next t ∧ t.out = s.out ++ [Out.unsupported] ∧
      State.KeepsBut [.out, .ctr] s t :=
  ⟨_, exec_registerWrite_unsupported s v hopen hpage h4 h8, by simp, by simp⟩

/-! ### Registers with a row of their own -/

theorem timeMark_holds_now (v : Word32) (hopen : s.bar0Open = true) (hacts : s.writeActs 0x48 false true = true) :
    ∃ t, exec (.timeMark v) s = .next t ∧ t.pcie = { s.pcie with mark := BitVec.ofNat 64 s.now } ∧
      State.KeepsBut [.pcie, .ctr] s t := by
  refine ⟨s.hostPut 0x48 v.toNat, rfl, ?_⟩
  rw [s.hostPut_island_acts _ _ (.inl rfl) hopen hacts, State.regPut_timeMark]
  simp

theorem hostHeartbeat_restarts (v : Word32) (hopen : s.bar0Open = true) (hacts : s.writeActs 0x25008 false true = true) :
    ∃ t, exec (.hostHeartbeat v) s = .next t ∧ t.fault = { s.fault with hbLast := s.now } ∧
      State.KeepsBut [.fault, .ctr] s t := by
  refine ⟨s.hostPut 0x25008 v.toNat, rfl, ?_⟩
  rw [s.hostPut_island_acts _ _ (.inr rfl) hopen hacts, State.regPut_hostHeartbeat]
  simp

/-- A timer register write that acts, on a channel with no match due, writes the register in the counted state. -/
theorem exec_timerRegisterWrite (ch : TimerId) (r : Fin 9) (v : Word32) (hopen : s.bar0Open = true)
    (hacts : s.writeActs (0x23000 + 0x40 * ch.val + 4 * r.val) false false = true)
    (h0 : (s.tmr ch.val).due false = false) (h1 : (s.tmr ch.val).due true = false) :
    exec (.timerRegisterWrite ch r v) s =
      .next ((s.countDev Ctr.pcieRxBytes noSub 4).tmrWrite ch.val r.val v.toNat) := by
  change Host.Outcome.next (s.hostPut (0x23000 + 0x40 * ch.val + 4 * r.val) v.toNat) = _
  rw [s.hostPut_of_open _ _ hopen, State.wordWrite_register _ _ _ (by omega) (by omega) (by omega),
    State.writeActs_countDev, if_pos hacts, State.regPut_timer, State.tmrHostWrite_of_not_due _ _ _ _ (by simpa) (by simpa)]

/-- On a channel with no match due, and none of the first four registers of a held channel, the register takes the value. -/
theorem timerRegisterWrite_sets (ch : TimerId) (r : Fin 9) (v : Word32) (hopen : s.bar0Open = true)
    (hacts : s.writeActs (0x23000 + 0x40 * ch.val + 4 * r.val) false false = true)
    (h0 : (s.tmr ch.val).due false = false) (h1 : (s.tmr ch.val).due true = false)
    (hlock : r.val < 4 → s.tmrLocked ch.val = false) :
    ∃ t, exec (.timerRegisterWrite ch r v) s = .next t ∧
      (r = 0 → (t.tmr ch.val).on = nbit v.toNat 31 ∧ ∀ i, 8 ≤ i → i ≤ 30 → (i = 29 → ch.val % 2 = 1) →
        nbit (t.tmr ch.val).ctrl.toNat i = nbit v.toNat i) ∧
      (r = 1 → (t.tmr ch.val).div = v.toNat % 65536 ∧ (t.tmr ch.val).pre = 0) ∧
      (r = 2 → (t.tmr ch.val).count = v.toNat) ∧ (r = 3 → (t.tmr ch.val).limit = v.toNat) ∧
      (r = 4 → (t.tmr ch.val).snap0 = v.toNat) ∧ (r = 5 → (t.tmr ch.val).snap1 = v.toNat) ∧
      (r = 6 → (t.tmr ch.val).snapcfg = v &&& 0xF8FFF8FF) ∧
      (r = 7 → (t.tmr ch.val).status = nclear (s.tmr ch.val).status (v.toNat % 32)) ∧
      (r ≠ 2 → (t.tmr ch.val).count = (s.tmr ch.val).count) ∧ (r ≠ 3 → (t.tmr ch.val).limit = (s.tmr ch.val).limit) ∧
      (∀ c, c ≠ ch.val → t.tmr c = s.tmr c) ∧ State.KeepsBut [.timers, .ctr] s t := by
  refine ⟨_, exec_timerRegisterWrite s ch r v hopen hacts h0 h1, ?_⟩
  rw [← State.tmrLocked_countDev s Ctr.pcieRxBytes noSub 4] at hlock
  have htmr : (s.countDev Ctr.pcieRxBytes noSub 4).tmr = s.tmr := by simp
  have hkeep : State.KeepsBut [.timers, .ctr] s (s.countDev Ctr.pcieRxBytes noSub 4) := by simp
  generalize s.countDev Ctr.pcieRxBytes noSub 4 = u at *
  refine ⟨?_, ?_, ?_, ?_, ?_, ?_, ?_, ?_, fun hr => by rw [u.tmrWrite_count_of_ne _ _ (Fin.val_ne_of_ne hr), htmr],
    fun hr => by rw [u.tmrWrite_limit_of_ne _ _ (Fin.val_ne_of_ne hr), htmr],
    fun c hc => by rw [u.tmr_tmrWrite_ne _ _ _ hc, htmr], by simpa using hkeep⟩
  all_goals rintro rfl
  · exact u.tmrWrite_ctrl _ _ (hlock (by decide))
  · have hdiv := u.tmrWrite_div ch.val v.toNat (hlock (by decide))
    exact ⟨congrArg TimerSt.div hdiv, congrArg TimerSt.pre hdiv⟩
  · exact congrArg TimerSt.count (u.tmrWrite_count _ _ (hlock (by decide)))
  · exact congrArg TimerSt.limit (u.tmrWrite_limit _ _ (hlock (by decide)))
  · exact congrArg TimerSt.snap0 (u.tmrWrite_snap0 _ _)
  · exact congrArg TimerSt.snap1 (u.tmrWrite_snap1 _ _)
  · exact (congrArg TimerSt.snapcfg (u.tmrWrite_snapcfg _ _)).trans (by simp)
  · exact (congrArg TimerSt.status (u.tmrWrite_status _ _)).trans (by simp [htmr])

/-- One of the first four registers of a channel that a network holds takes nothing, and the refusal is counted. -/
theorem timerRegisterWrite_locked (ch : TimerId) (r : Fin 9) (v : Word32) (hopen : s.bar0Open = true)
    (hacts : s.writeActs (0x23000 + 0x40 * ch.val + 4 * r.val) false false = true)
    (h0 : (s.tmr ch.val).due false = false) (h1 : (s.tmr ch.val).due true = false)
    (hr : r.val < 4) (hlock : s.tmrLocked ch.val = true) :
    ∃ t, exec (.timerRegisterWrite ch r v) s = .next t ∧
      t.ctrAt Scope.device 0 Ctr.tmrWriteLocked ch.val 0 =
        satCtr (s.ctrAt Scope.device 0 Ctr.tmrWriteLocked ch.val 0 + 1) ∧ State.KeepsBut [.ctr] s t := by
  refine ⟨_, exec_timerRegisterWrite s ch r v hopen hacts h0 h1, ?_⟩
  rw [State.tmrWrite_of_locked _ _ _ hr (by simpa)]
  refine ⟨?_, by simp⟩
  rw [State.ctrAt_countDev_self _ (by decide), State.ctrAt_countDev_ne _ (by decide) (by decide) (by omega)]

/-- Settles O33: each clause is the word that reaches its register, in the state whose PCIE_RX_BYTES has counted it. -/
theorem registerWrites : Obligations.RegisterWrites := by
  unfold Obligations.RegisterWrites
  refine ⟨fun s v hopen => ⟨registerWrite_intDevCause s v hopen, fun k => registerWrite_netStepStatus s v k hopen,
      fun n => registerWrite_traceRd s v n hopen, ?_⟩,
    fun s o size v hopen hpage _ => registerWrite_unsupported s o size v hopen hpage,
    fun s v hopen => ⟨timeMark_holds_now s v hopen, hostHeartbeat_restarts s v hopen,
      fun ch r => timerRegisterWrite_sets s ch r v hopen, fun ch r => timerRegisterWrite_locked s ch r v hopen⟩⟩
  rintro o (⟨c, rfl⟩ | ⟨rfl, hno⟩)
  · exact registerWrite_no_effect s v hopen (by simp [regPage]; omega) (by omega) fun t w _ => t.wordWrite_coreMap c w
  · refine registerWrite_no_effect s v hopen rfl rfl fun t w ht => ?_
    rw [State.wordWrite_register _ _ _ (by decide) (by decide) (by decide), ht, hno, if_neg Bool.false_ne_true]

end Sys2Proof.Machine
end

section
/-! SUPPORT. What nearly every command of the owner Halyard does besides its effect: the messages of the state sensors
(19 R491), the interrupts of a device cause (21 R523), and the entries of the fault log (18 R460, R461). -/

namespace Sys2Proof.Machine

variable (s : State)

/-! ### Bits, what a fold keeps, and reads after an update -/

@[simp] theorem nbit_nsetBit (n i j : Nat) : nbit (nsetBit n i) j = (nbit n j || decide (i = j)) := by
  simp [nbit, nsetBit, Nat.one_shiftLeft, Nat.testBit_two_pow]

/-- What every step of a fold keeps, the fold keeps. -/
theorem foldl_keeps {β γ : Type} (view : State → γ) {f : State → β → State} (h : ∀ s x, view (f s x) = view s)
    (l : List β) (s : State) : view (l.foldl f s) = view s := by
  induction l generalizing s with
  | nil => rfl
  | cons x l ih => rw [List.foldl_cons, ih, h]

@[simp] theorem State.modFault_ctrAt (f : FaultSt → FaultSt) : (s.modFault f).ctrAt = s.ctrAt := rfl

@[simp] theorem State.countDev_nets (id sub inc : Nat) : (s.countDev id sub inc).nets = s.nets := by
  obtain ⟨c, hc⟩ := s.countDev_eq_with_ctr id sub inc
  rw [hc]

/-! ### State sensors -/

/-- The messages of the state sensors are added to what is sent, and nothing else changes. -/
theorem State.platform_eq_with_out (s0 : State) : ∃ o, s0.platform s = { s with out := o } := by
  unfold State.platform
  generalize s.sec.receiver = receiver
  cases receiver with
  | none => exact ⟨s.out, rfl⟩
  | some r =>
    dsimp only
    generalize ([3, 4, 5, 6, 7] : List Nat) = ids
    induction ids generalizing s with
    | nil => exact ⟨s.out, rfl⟩
    | cons id ids ih =>
      rw [List.foldl_cons]
      split
      · exact ih s
      · exact ih (s.send _)

@[simp] theorem State.platform_fields (s0 : State) :
    (s0.platform s).ao = s.ao ∧ (s0.platform s).fault = s.fault ∧ (s0.platform s).sec = s.sec ∧
    (s0.platform s).nets = s.nets ∧ (s0.platform s).louts = s.louts ∧ (s0.platform s).gddr = s.gddr := by
  obtain ⟨o, ho⟩ := s.platform_eq_with_out s0
  rw [ho]
  repeat' constructor

@[simp] theorem State.platform_units (s0 : State) :
    (s0.platform s).sector = s.sector ∧ (s0.platform s).net = s.net ∧ (s0.platform s).mb = s.mb ∧
    (s0.platform s).lout = s.lout := by
  obtain ⟨o, ho⟩ := s.platform_eq_with_out s0
  rw [ho]
  repeat' constructor

@[simp] theorem State.ctrAt_platform (s0 : State) : (s0.platform s).ctrAt = s.ctrAt := by
  obtain ⟨o, ho⟩ := s.platform_eq_with_out s0
  rw [ho]
  rfl

@[simp] theorem State.keepsBut_platform {t s0 : State} {l : List Part} (hp : Part.out ∈ l) :
    State.KeepsBut l s (s0.platform t) ↔ State.KeepsBut l s t := by
  obtain ⟨o, ho⟩ := t.platform_eq_with_out s0
  rw [ho]
  exact State.keepsBut_congr s fun p h => by cases p <;> first | rfl | exact absurd hp h

/-- Where no state sensor reads otherwise, no message is sent. -/
theorem State.platform_of_sensor_eq {t : State} (h : t.sensor = s.sensor) : s.platform t = t := by
  unfold State.platform
  split
  · rfl
  · simp [h]

@[simp] theorem State.platform_self : s.platform s = s := s.platform_of_sensor_eq rfl

/-! ### Device causes -/

/-- A vector fires as a pending bit, or as a message that PCIE_TX_BYTES (143) counts, or not at all. -/
theorem State.fireVector_cases (v : Nat) : s.fireVector v = s ∨ (∃ p, s.fireVector v = { s with pcie := p }) ∨
    s.fireVector v = (s.send (.msix v)).countDev 143 noSub 4 := by
  unfold State.fireVector
  split
  · exact .inl rfl
  · split
    · exact .inr (.inl ⟨_, rfl⟩)
    · exact .inr (.inr rfl)

/-- A vector that fires or not changes the PCIe state, the counters and what is sent, and nothing else. -/
theorem fireIf_eq_with_parts (was : Bool) (v : Nat) :
    ∃ p o c, fireIf was v s = { s with pcie := p, out := o, ctr := c } := by
  unfold fireIf
  split
  · exact ⟨s.pcie, s.out, s.ctr, rfl⟩
  · obtain h | ⟨p, h⟩ | h := s.fireVector_cases v <;> rw [h]
    · exact ⟨s.pcie, s.out, s.ctr, rfl⟩
    · exact ⟨p, s.out, s.ctr, rfl⟩
    · obtain ⟨c, hc⟩ := (s.send (.msix v)).countDev_eq_with_ctr 143 noSub 4
      exact ⟨s.pcie, _, c, hc⟩

/-- A vector counts in no device counter but PCIE_TX_BYTES. -/
theorem ctrAt_fireIf {id sub : Nat} (was : Bool) (v : Nat) (hid : id ≠ 143) (hsub : sub < 65536) :
    (fireIf was v s).ctrAt Scope.device 0 id sub 0 = s.ctrAt Scope.device 0 id sub 0 := by
  unfold fireIf
  split
  · rfl
  · obtain h | ⟨p, h⟩ | h := s.fireVector_cases v <;> rw [h]
    · rfl
    · exact State.ctrAt_countDev_ne _ hid (by decide) hsub

/-- A device cause that is set changes the PCIe state, the counters and what is sent, and nothing else. -/
theorem State.raiseDev_eq_with_parts (i : Nat) :
    ∃ p o c, s.raiseDev i = { s with pcie := p, out := o, ctr := c } :=
  fireIf_eq_with_parts (s.modPcie fun p => { p with cause := nsetBit p.cause i }) _ _

@[simp] theorem State.raiseDev_fields (i : Nat) :
    (s.raiseDev i).ao = s.ao ∧ (s.raiseDev i).boot = s.boot ∧ (s.raiseDev i).fault = s.fault ∧
    (s.raiseDev i).sec = s.sec ∧ (s.raiseDev i).nets = s.nets ∧ (s.raiseDev i).louts = s.louts := by
  obtain ⟨p, o, c, h⟩ := s.raiseDev_eq_with_parts i
  rw [h]
  repeat' constructor

@[simp] theorem State.raiseDev_units (i : Nat) :
    (s.raiseDev i).sector = s.sector ∧ (s.raiseDev i).net = s.net ∧ (s.raiseDev i).lout = s.lout ∧
    (s.raiseDev i).now = s.now := by
  obtain ⟨p, o, c, h⟩ := s.raiseDev_eq_with_parts i
  rw [h]
  repeat' constructor

@[simp] theorem State.keepsBut_raiseDev {t : State} {l : List Part} (hp : Part.pcie ∈ l) (ho : Part.out ∈ l)
    (hc : Part.ctr ∈ l) (i : Nat) : State.KeepsBut l s (t.raiseDev i) ↔ State.KeepsBut l s t := by
  obtain ⟨p, o, c, h⟩ := t.raiseDev_eq_with_parts i
  rw [h]
  exact State.keepsBut_congr s fun p h => by
    cases p <;> first | rfl | exact absurd hp h | exact absurd ho h | exact absurd hc h

theorem State.ctrAt_raiseDev {id sub : Nat} (i : Nat) (hid : id ≠ 143) (hsub : sub < 65536) :
    (s.raiseDev i).ctrAt Scope.device 0 id sub 0 = s.ctrAt Scope.device 0 id sub 0 := ctrAt_fireIf _ _ _ hid hsub

/-! ### The fault log -/

/-- The fault state with one more entry in the log. -/
def FaultSt.logged (f : FaultSt) (cls : Nat) (entry : List Byte) : FaultSt :=
  { f with
    log := (entry :: f.log).take 16384
    entries := min 65535 (f.entries + 1)
    entriesCold := min (2 ^ 32 - 1) (f.entriesCold + 1)
    events := if cls = classDegraded then nsetBit f.events 2 else if classUncorr ≤ cls then nsetBit f.events 3 else f.events }

variable (cls src unit action addr detail : Nat)

@[simp] theorem FaultSt.logged_fields (f : FaultSt) (entry : List Byte) :
    (f.logged cls entry).log = (entry :: f.log).take 16384 ∧ (f.logged cls entry).fatal = f.fatal ∧
    (f.logged cls entry).ensActive = f.ensActive ∧ (f.logged cls entry).ensNet = f.ensNet ∧
    (f.logged cls entry).ensCause = f.ensCause ∧ (f.logged cls entry).guardDue = f.guardDue := by
  repeat' constructor

/-- A DEGRADED entry sets its event bit. -/
theorem FaultSt.logged_degraded_events (f : FaultSt) (entry : List Byte) :
    (f.logged classDegraded entry).events = nsetBit f.events 2 := by
  simp [FaultSt.logged]

/-- A NOTICE sets no event bit. -/
theorem FaultSt.logged_notice_events (f : FaultSt) (entry : List Byte) : (f.logged classNotice entry).events = f.events := by
  simp [FaultSt.logged]

/-- An entry of the fault log is the fault state with it, and at most a device cause on top. -/
theorem State.logFault_eq_logged : ∃ u, (u = s.modFault fun f =>
      f.logged cls (faultEntry s.now cls src unit action addr s.ao.epoch detail)) ∧
    (s.logFault cls src unit action addr detail = u ∨ s.logFault cls src unit action addr detail = u.raiseDev 1) := by
  refine ⟨_, rfl, ?_⟩
  rw [State.logFault, State.faultEdge]
  exact (ite_eq_or_eq _ _ _).symm

@[simp] theorem State.logFault_fault : (s.logFault cls src unit action addr detail).fault =
    s.fault.logged cls (faultEntry s.now cls src unit action addr s.ao.epoch detail) := by
  obtain ⟨u, rfl, h | h⟩ := s.logFault_eq_logged cls src unit action addr detail <;> simp [h]

@[simp] theorem State.logFault_fields :
    (s.logFault cls src unit action addr detail).ao = s.ao ∧ (s.logFault cls src unit action addr detail).sec = s.sec ∧
    (s.logFault cls src unit action addr detail).nets = s.nets ∧
    (s.logFault cls src unit action addr detail).louts = s.louts := by
  obtain ⟨u, rfl, h | h⟩ := s.logFault_eq_logged cls src unit action addr detail <;> simp [h]

@[simp] theorem State.logFault_units :
    (s.logFault cls src unit action addr detail).sector = s.sector ∧
    (s.logFault cls src unit action addr detail).net = s.net ∧
    (s.logFault cls src unit action addr detail).lout = s.lout := by
  obtain ⟨u, rfl, h | h⟩ := s.logFault_eq_logged cls src unit action addr detail <;> simp [h]

@[simp] theorem State.keepsBut_logFault {t : State} {l : List Part} (hf : Part.fault ∈ l) (hp : Part.pcie ∈ l)
    (ho : Part.out ∈ l) (hc : Part.ctr ∈ l) :
    State.KeepsBut l s (t.logFault cls src unit action addr detail) ↔ State.KeepsBut l s t := by
  obtain ⟨u, rfl, h | h⟩ := t.logFault_eq_logged cls src unit action addr detail <;> simp [h, hf, hp, ho, hc]

theorem State.ctrAt_logFault {id sub : Nat} (hid : id ≠ 143) (hsub : sub < 65536) :
    (s.logFault cls src unit action addr detail).ctrAt Scope.device 0 id sub 0 = s.ctrAt Scope.device 0 id sub 0 := by
  obtain ⟨u, rfl, h | h⟩ := s.logFault_eq_logged cls src unit action addr detail <;> rw [h]
  · rfl
  · rw [State.ctrAt_raiseDev _ 1 hid hsub]
    rfl

end Sys2Proof.Machine
end

section
/-! PROOF. Global control writes act for the owner and are dropped, counted and logged for the other Halyard (O55): one lemma
for each write. -/

namespace Sys2Proof.Machine

variable (s : State)

/-! ### The way of a write -/

/-- A write by the owner acts, unless that Halyard is fenced. -/
theorem exec_globalControlWrite_owner {own : Bool} (w : GlobalWrite) (hown : own = s.ao.ownerSouth)
    (hfree : s.ao.halFenced own = false) :
    exec (.globalControlWrite own w) s = .next (s.platform (s.globalWrite w)) := by
  change execGlobalControlWrite own w s = _
  simp [execGlobalControlWrite, ← hown, hfree]

/-- A write by the other Halyard is dropped, counted and logged. -/
theorem globalControlWrite_other {own : Bool} (w : GlobalWrite) (hown : own = s.ao.ownerSouth) :
    ∃ t, exec (.globalControlWrite (!own) w) s = .next t ∧
      t.ctrAt Scope.device 0 Ctr.nonownerWrite noSub 0 = satCtr (s.ctrAt Scope.device 0 Ctr.nonownerWrite noSub 0 + 1) ∧
      nbit t.fault.events 1 = true ∧
      t.fault.log = (faultEntry s.now classDegraded 9 (b2n (!own)) 0 0 s.ao.epoch 0 :: s.fault.log).take 16384 ∧
      State.KeepsBut [.fault, .pcie, .out, .ctr] s t := by
  have hother : ¬ (!own) = s.ao.ownerSouth := by simp [hown]
  refine ⟨s.platform (((s.countDev Ctr.nonownerWrite).modFault fun f => { f with events := nsetBit f.events 1 }).logFault
    classDegraded 9 (b2n (!own)) 0), ?_, ?_, ?_, ?_, ?_⟩
  · change execGlobalControlWrite (!own) w s = _
    rw [execGlobalControlWrite, if_neg hother]
  · rw [State.ctrAt_platform, State.ctrAt_logFault _ _ _ _ _ _ _ (by decide) (by decide)]
    exact s.ctrAt_countDev_self (by decide)
  · simp [FaultSt.logged_degraded_events]
  · simp
  · simp

/-! ### Core map, power and mailboxes -/

theorem globalWrite_coreMap (c : CoreId) (v : Word32) (hok : s.mapWriteOk c.val (fld v 7 6) (fld v 4 0) = true) :
    s.globalWrite (.coreMap c v) = s.modSector (sectorOf c.val) fun q => { q with
      mapState := Tab.set q.mapState 0 (indexOf c.val) (fld v 7 6)
      mapPhys := Tab.set q.mapPhys (indexOf c.val) (indexOf c.val) (fld v 4 0) } := by
  simp [State.globalWrite, hok]

theorem globalWrite_coreMap_refused (c : CoreId) (v : Word32)
    (hno : s.mapWriteOk c.val (fld v 7 6) (fld v 4 0) = false) : s.globalWrite (.coreMap c v) = s := by
  simp [State.globalWrite, hno]

/-- A write to one sector's record, as the owner makes it. -/
theorem platform_modSector (n : Nat) (f : SectorSt → SectorSt) :
    (s.platform (s.modSector n f)).sector n = f (s.sector n) ∧ State.SectorsBut [n] s (s.platform (s.modSector n f)) ∧
    State.KeepsBut [.sectors, .out] s (s.platform (s.modSector n f)) := by
  refine ⟨by simp, fun m hm => ?_, by simp⟩
  have hne : m ≠ n := by simpa using hm
  simp [hne]

/-- A write to one mailbox's record, as the owner makes it. -/
theorem platform_modMb (m : Nat) (f : MboxSt → MboxSt) :
    (s.platform (s.modMb m f)).mb m = f (s.mb m) ∧ State.MbBut [m] s (s.platform (s.modMb m f)) ∧
    State.KeepsBut [.mbox, .out] s (s.platform (s.modMb m f)) := by
  refine ⟨by simp, fun j hj => ?_, by simp⟩
  have hne : j ≠ m := by simpa using hj
  simp [hne]

/-! ### Sector clocks -/

variable (op : Nat)

/-- What a write of operating point `op` leaves of a sector: one whose operating point changes stops for the relock. -/
def SectorSt.clocked (q : SectorSt) (op : Nat) : SectorSt :=
  if q.opSet = op then q else { q with opNext := op + 1, stopped := true, aligned := false }

theorem State.clockGroup_nodup (n : Nat) : (s.clockGroup n).Nodup := by
  dsimp only [State.clockGroup]
  split
  · exact List.nodup_range.filter _
  · exact List.nodup_singleton n

theorem State.sector_writeClock (n m : Nat) :
    (s.writeClock n op).sector m = if m = n then (s.sector m).clocked op else s.sector m := by
  have hcount (u : State) : (u.countSec n Ctr.freqChange).sector = u.sector := rfl
  by_cases hop : (s.sector n).opSet = op
  · rw [State.writeClock, if_pos hop]
    split
    · next h => rw [h, SectorSt.clocked, if_pos hop]
    · rfl
  · rw [State.writeClock, if_neg hop, hcount, State.modSector_def, State.sector_setSector]
    split
    · next h => rw [h, SectorSt.clocked, if_neg hop]
    · rfl

/-- Each change of an operating point counts in FREQ_CHANGE of its sector. -/
theorem State.ctrAt_writeClock (n m : Nat) :
    (s.writeClock n op).ctrAt Scope.sector m Ctr.freqChange noSub 0 =
      if m = n ∧ (s.sector m).opSet ≠ op then satCtr (s.ctrAt Scope.sector m Ctr.freqChange noSub 0 + 1)
      else s.ctrAt Scope.sector m Ctr.freqChange noSub 0 := by
  have hkey : ckey Scope.sector m Ctr.freqChange noSub 0 = ckey Scope.sector n Ctr.freqChange noSub 0 ↔ m = n := by
    unfold ckey
    omega
  by_cases hop : (s.sector n).opSet = op
  · rw [State.writeClock, if_pos hop, if_neg]
    rintro ⟨rfl, hne⟩
    exact hne hop
  · rw [State.writeClock, if_neg hop, State.countSec, State.count, State.ctrAdd, if_neg one_ne_zero, State.ctrAt_ctrPut]
    simp only [hkey]
    obtain rfl | hne := eq_or_ne m n
    · rw [if_pos rfl, if_pos ⟨rfl, hop⟩]
      rfl
    · rw [if_neg hne, if_neg fun h => hne h.1]
      rfl

theorem State.keepsBut_writeClock (n : Nat) : State.KeepsBut [.sectors, .ctr, .out] s (s.writeClock n op) := by
  unfold State.writeClock State.countSec State.count
  simp

/-- The clocks of a list of different sectors are written. -/
def State.writeClocks (s : State) (l : List Nat) (op : Nat) : State := l.foldl (fun s m => s.writeClock m op) s

theorem State.sector_writeClocks {l : List Nat} (hl : l.Nodup) (m : Nat) :
    (s.writeClocks l op).sector m = if m ∈ l then (s.sector m).clocked op else s.sector m := by
  induction l generalizing s with
  | nil => simp [State.writeClocks]
  | cons n l ih =>
    obtain ⟨hn, hl⟩ := List.nodup_cons.mp hl
    change ((s.writeClock n op).writeClocks l op).sector m = _
    rw [ih _ hl, State.sector_writeClock]
    obtain rfl | hne := eq_or_ne m n
    · simp [hn]
    · simp [hne]

theorem State.ctrAt_writeClocks {l : List Nat} (hl : l.Nodup) (m : Nat) :
    (s.writeClocks l op).ctrAt Scope.sector m Ctr.freqChange noSub 0 =
      if m ∈ l ∧ (s.sector m).opSet ≠ op then satCtr (s.ctrAt Scope.sector m Ctr.freqChange noSub 0 + 1)
      else s.ctrAt Scope.sector m Ctr.freqChange noSub 0 := by
  induction l generalizing s with
  | nil => simp [State.writeClocks]
  | cons n l ih =>
    obtain ⟨hn, hl⟩ := List.nodup_cons.mp hl
    change ((s.writeClock n op).writeClocks l op).ctrAt _ _ _ _ _ = _
    rw [ih _ hl, State.ctrAt_writeClock, State.sector_writeClock]
    obtain rfl | hne := eq_or_ne m n
    · simp [hn]
    · simp [hne]

/-- Where every core of the group is at a step boundary, the clocks of the whole group are written. -/
theorem globalWrite_sectorClock (n : SectorId) (op : Fin 4)
    (h : ∀ c ∈ Tab.keys s.cores, sectorOf c ∈ s.clockGroup n.val → s.atStepBoundary c = true) :
    s.globalWrite (.sectorClock n op) = s.writeClocks (s.clockGroup n.val) op.val := by
  have hnone : ((Tab.keys s.cores).any fun c => (s.clockGroup n.val).contains (sectorOf c) && !s.atStepBoundary c) = false := by
    simpa using h
  rw [State.globalWrite, hnone]
  rfl

theorem globalWrite_sectorClock_waits (n : SectorId) (op : Fin 4)
    (h : ∃ c ∈ Tab.keys s.cores, sectorOf c ∈ s.clockGroup n.val ∧ s.atStepBoundary c = false) :
    s.globalWrite (.sectorClock n op) = s := by
  have hsome : ((Tab.keys s.cores).any fun c => (s.clockGroup n.val).contains (sectorOf c) && !s.atStepBoundary c) = true := by
    simpa using h
  rw [State.globalWrite, hsome, if_pos rfl]

/-- The clocks of a group, as the owner writes them. -/
theorem platform_writeClocks {l : List Nat} (hl : l.Nodup) :
    (∀ m, m ∈ l → (s.sector m).opSet ≠ op →
      (s.platform (s.writeClocks l op)).sector m = { s.sector m with opNext := op + 1, stopped := true, aligned := false } ∧
      (s.platform (s.writeClocks l op)).ctrAt Scope.sector m Ctr.freqChange noSub 0 =
        satCtr (s.ctrAt Scope.sector m Ctr.freqChange noSub 0 + 1)) ∧
    (∀ m, m ∉ l ∨ (s.sector m).opSet = op → (s.platform (s.writeClocks l op)).sector m = s.sector m) ∧
    State.KeepsBut [.sectors, .ctr, .out] s (s.platform (s.writeClocks l op)) := by
  have hkeep : State.KeepsBut [.sectors, .ctr, .out] s (s.writeClocks l op) :=
    .foldl (fun s m => s.keepsBut_writeClock op m) l s
  refine ⟨fun m hm hop => ?_, fun m hm => ?_, by simpa using hkeep⟩
  · simp [State.sector_writeClocks s op hl, State.ctrAt_writeClocks s op hl, hm, hop, SectorSt.clocked]
  · have hsame : m ∈ l → (s.sector m).clocked op = s.sector m := fun hin =>
      if_pos (hm.resolve_left (not_not_intro hin))
    simpa [State.sector_writeClocks s op hl] using hsame

/-! ### The system area -/

/-- A check of blocks changes the events of the controllers and the counters, and no byte. -/
theorem State.gCheck_keeps (a n : Nat) :
    (s.gCheck a n).gddr.mem = s.gddr.mem ∧ State.KeepsBut [.gddr, .ctr] s (s.gCheck a n) := by
  unfold State.gCheck
  split
  · simp
  · refine ⟨foldl_keeps (fun s => s.gddr.mem) (fun u x => ?_) _ _, .foldl (fun u x => ?_) _ _⟩
    · split <;> rfl
    · simp [State.gddrEvent]

/-- The bytes of a write below the reserved range are stored as they are, once the blocks written in part are checked. -/
theorem State.gStore_below (a : Nat) (bytes : List Byte) (h : a + bytes.length ≤ 0x05200000) :
    (s.gStore a bytes).gddr.mem = memWrite s.gddr.mem a bytes ∧ State.KeepsBut [.gddr, .ctr] s (s.gStore a bytes) := by
  have hstore (g : GddrSt) : (g.store a bytes).mem = memWrite g.mem a bytes := by
    simp [GddrSt.store, Nat.not_lt.mpr h]
  have hcheck (l : List (Nat × Nat)) : (l.foldl (fun s x => s.gCheck (x.1 * 64) 64) s).gddr.mem = s.gddr.mem ∧
      State.KeepsBut [.gddr, .ctr] s (l.foldl (fun s x => s.gCheck (x.1 * 64) 64) s) :=
    ⟨foldl_keeps (fun s => s.gddr.mem) (fun u x => (u.gCheck_keeps _ _).1) l s,
      .foldl (fun u x => (u.gCheck_keeps _ _).2) l s⟩
  unfold State.gStore
  split
  · simp [hstore]
  · simp [hstore, hcheck]

/-- The counts of an access change the counters alone. -/
theorem State.gddrCount_keeps (a n : Nat) (cls : GddrClass) (dir : Nat) :
    State.KeepsBut [.ctr] s (s.gddrCount a n cls dir) := by
  unfold State.gddrCount
  exact .foldl (fun u x => by simp) _ _

/-- A write below the reserved range whose channels serve: its bytes stand there, and every other byte stays. -/
theorem globalWrite_systemArea (a : Nat) (bytes : List Byte) (h : a + bytes.length ≤ 0x05200000)
    (hserve : s.gHeld a bytes.length = false) :
    (s.globalWrite (.systemArea a bytes)).gddr.mem = memWrite s.gddr.mem a bytes ∧
      State.KeepsBut [.gddr, .ctr] s (s.globalWrite (.systemArea a bytes)) := by
  have hacts : s.globalWrite (.systemArea a bytes) = (s.gStore a bytes).gddrCount a bytes.length .system 1 := by
    simp [State.globalWrite, State.gWrite, State.gPoke, hserve, h.trans (by decide : 0x05200000 ≤ rtxBase)]
  obtain ⟨hmem, hkeep⟩ := s.gStore_below a bytes h
  have hcount := (s.gStore a bytes).gddrCount_keeps a bytes.length .system 1
  rw [hacts]
  exact ⟨hcount.gddr_eq ▸ hmem, hkeep.trans (hcount.mono (by decide))⟩

/-- Settles O55: each write by the owner is its lemma above, and a write by the other Halyard is one lemma for them all. -/
theorem globalControlWrites : Obligations.GlobalControlWrites := by
  unfold Obligations.GlobalControlWrites
  intro s own hown
  refine ⟨fun hfree => ?_, fun w => globalControlWrite_other s w hown⟩
  have hexec := fun w => exec_globalControlWrite_owner s w hown hfree
  refine ⟨?_, fun n on => ⟨_, hexec _, platform_modSector s _ _⟩, fun n op => ⟨fun h => ⟨_, hexec _, ?_⟩, fun h => ?_⟩,
    fun m v => ⟨_, hexec _, platform_modMb s _ _⟩, fun m v => ⟨_, hexec _, platform_modMb s _ _⟩,
    fun a bytes h hserve => ⟨_, hexec _, ?_⟩⟩
  · rintro c v q i rfl rfl
    refine ⟨fun hok => ⟨_, hexec _, ?_⟩, fun hno => ?_⟩
    · rw [globalWrite_coreMap s c v hok]
      exact platform_modSector s _ _
    · rw [hexec, globalWrite_coreMap_refused s c v hno, State.platform_self]
  · rw [globalWrite_sectorClock s n op h]
    exact platform_writeClocks s op.val (s.clockGroup_nodup n.val)
  · rw [hexec, globalWrite_sectorClock_waits s n op h, State.platform_self]
  · obtain ⟨hmem, hkeep⟩ := globalWrite_systemArea s a bytes h hserve
    have hgddr : (s.platform (s.globalWrite (.systemArea a bytes))).gddr.mem = memWrite s.gddr.mem a bytes := by
      simpa using hmem
    rw [hgddr]
    exact ⟨memRead_memWrite _ _ _, fun b hb => memByte_memWrite_outside _ _ _ _ hb,
      by simpa using hkeep.mono (by decide : [Part.gddr, .ctr] ⊆ [.gddr, .ctr, .out])⟩

end Sys2Proof.Machine
end

section
/-! SUPPORT. What the step engines leave standing. Opening a step, halting and shedding a network move cores, sectors, flows,
streams, mailboxes, memory and counters; the always-on domain, the line outputs, the fault record but for the guard overflows it
has still to show, and which networks are loaded, shed and running stand. One lemma for each operation says so, as an equation
of that view, which passes through compositions and folds. -/

namespace Sys2Proof.Machine

/-- The parts of the state that no step engine changes, the rest of it blank, and three fields of each network slot. -/
structure Standing where
  /-- the state with every part blank that a step engine may change -/
  rest : State
  /-- image handle of each network slot -/
  image : Nat → Nat
  /-- each network slot is shed -/
  shed : Nat → Bool
  /-- each network slot runs -/
  running : Nat → Bool

/-- The view of a state that the step engines keep. -/
def State.standing (s : State) : Standing where
  rest := { s with
    pcie := {}, mbox := [], nets := [], cores := [], sectors := [], flows := [], gddr := {}, binds := [], tok := {}
    dpack := [], rpack := [], combs := [], rfns := [], expand := [], errTok := [], stcs := []
    fault := { s.fault with guardDue := [] }, ctr := [], snap := [], out := [], free := 0 }
  image k := (s.net k).image
  shed k := (s.net k).shed
  running k := (s.net k).running

/-- Line outputs and fault fields of two states whose views agree. -/
theorem State.kept_of_rest_eq {s t : State} (h : t.standing.rest = s.standing.rest) :
    t.louts = s.louts ∧ t.fault.ensActive = s.fault.ensActive ∧ t.fault.ensCause = s.fault.ensCause ∧
    t.fault.ensNet = s.fault.ensNet ∧ t.fault.fatal = s.fault.fatal :=
  have hfault := congrArg State.fault h
  ⟨(congrArg State.louts h :), (congrArg FaultSt.ensActive hfault :), (congrArg FaultSt.ensCause hfault :),
    (congrArg FaultSt.ensNet hfault :), (congrArg FaultSt.fatal hfault :)⟩

/-- The view with the slot of network k as n has it. -/
def Standing.putSlot (v : Standing) (k : Nat) (n : NetSt) : Standing where
  rest := v.rest
  image := Function.update v.image k n.image
  shed := Function.update v.shed k n.shed
  running := Function.update v.running k n.running

/-- The view with network k running or not. -/
def Standing.putRunning (v : Standing) (k : Nat) (b : Bool) : Standing where
  rest := v.rest
  image := v.image
  shed := v.shed
  running := Function.update v.running k b

/-- The view with network k shed. -/
def Standing.putShed (v : Standing) (k : Nat) : Standing where
  rest := v.rest
  image := v.image
  shed := Function.update v.shed k true
  running := v.running

variable (s : State)

/-! ### The view through conditionals, folds and single updates -/

@[simp] theorem State.standing_ite {c : Prop} [Decidable c] (t : State) :
    (if c then s else t).standing = if c then s.standing else t.standing := apply_ite State.standing c s t

@[simp] theorem State.standing_foldl {β : Type} {f : State → β → State} (h : ∀ s x, (f s x).standing = s.standing)
    (l : List β) : (l.foldl f s).standing = s.standing := foldl_keeps State.standing h l s

@[simp] theorem State.standing_setCore (c : Nat) (k : CoreSt) : (s.setCore c k).standing = s.standing := rfl
@[simp] theorem State.standing_setSector (n : Nat) (q : SectorSt) : (s.setSector n q).standing = s.standing := rfl
@[simp] theorem State.standing_setMb (m : Nat) (b : MboxSt) : (s.setMb m b).standing = s.standing := rfl
@[simp] theorem State.standing_setFlow (f : Nat) (x : FlowSt) : (s.setFlow f x).standing = s.standing := rfl
@[simp] theorem State.standing_setStc (n : Nat) (c : StcSt) : (s.setStc n c).standing = s.standing := rfl
@[simp] theorem State.standing_modBind (b : Nat) (f : BindSt → BindSt) : (s.modBind b f).standing = s.standing := rfl
@[simp] theorem State.standing_modDp (p : Nat) (f : PackSt → PackSt) : (s.modDp p f).standing = s.standing := rfl
@[simp] theorem State.standing_modRp (p : Nat) (f : PackSt → PackSt) : (s.modRp p f).standing = s.standing := rfl
@[simp] theorem State.standing_modComb (p : Nat) (f : CombSt → CombSt) : (s.modComb p f).standing = s.standing := rfl
@[simp] theorem State.standing_modRfn (r : Nat) (f : RingFn → RingFn) : (s.modRfn r f).standing = s.standing := rfl
@[simp] theorem State.standing_modPcie (f : PcieSt → PcieSt) : (s.modPcie f).standing = s.standing := rfl
@[simp] theorem State.standing_modGddr (f : GddrSt → GddrSt) : (s.modGddr f).standing = s.standing := rfl
@[simp] theorem State.standing_drawn : s.drawn.standing = s.standing := rfl
@[simp] theorem State.standing_send (o : Out) : (s.send o).standing = s.standing := rfl
@[simp] theorem State.standing_ctrPut (scope idx id sub kind v : Nat) :
    (s.ctrPut scope idx id sub kind v).standing = s.standing := rfl

theorem State.standing_setNet_eq (k : Nat) (n : NetSt) : (s.setNet k n).standing = s.standing.putSlot k n := by
  have hfield {γ : Type} (field : NetSt → γ) :
      (fun j => field ((s.setNet k n).net j)) = Function.update (fun j => field (s.net j)) k (field n) := by
    funext j
    rw [State.net_setNet, Function.update_apply, apply_ite field]
  simp only [State.standing, Standing.putSlot, hfield NetSt.image, hfield NetSt.shed, hfield NetSt.running,
    State.setNet_fields]

/-- A network slot written with the same image, shed or not, running or not, as it had. -/
@[simp] theorem State.standing_setNet (k : Nat) (n : NetSt)
    (h : n.image = (s.net k).image ∧ n.shed = (s.net k).shed ∧ n.running = (s.net k).running) :
    (s.setNet k n).standing = s.standing := by
  obtain ⟨himage, hshed, hrunning⟩ := h
  rw [State.standing_setNet_eq, Standing.putSlot, himage, hshed, hrunning]
  simp [State.standing]

/-- A network slot written with its image and shed or not as it was. -/
theorem State.standing_setNet_running (k : Nat) (n : NetSt) (himage : n.image = (s.net k).image)
    (hshed : n.shed = (s.net k).shed) : (s.setNet k n).standing = s.standing.putRunning k n.running := by
  rw [State.standing_setNet_eq, Standing.putSlot, himage, hshed]
  simp [State.standing, Standing.putRunning]

/-- A network slot written as shed, with its image and running or not as it was. -/
theorem State.standing_setNet_shed (k : Nat) (n : NetSt) (himage : n.image = (s.net k).image) (hshed : n.shed = true)
    (hrunning : n.running = (s.net k).running) : (s.setNet k n).standing = s.standing.putShed k := by
  rw [State.standing_setNet_eq, Standing.putSlot, himage, hshed, hrunning]
  simp [State.standing, Standing.putShed]

/-! ### Counters, traces and interrupts -/

@[simp] theorem State.standing_ctrAdd (scope idx id sub kind inc : Nat) :
    (s.ctrAdd scope idx id sub kind inc).standing = s.standing := by
  simp [State.ctrAdd]

@[simp] theorem State.standing_count (scope idx id sub inc : Nat) :
    (s.count scope idx id sub inc).standing = s.standing := by
  simp [State.count]

@[simp] theorem State.standing_countDev (id sub inc : Nat) : (s.countDev id sub inc).standing = s.standing := by
  simp [State.countDev]

@[simp] theorem State.standing_countSec (n id sub inc : Nat) : (s.countSec n id sub inc).standing = s.standing := by
  simp [State.countSec]

@[simp] theorem State.standing_countNet (k id inc : Nat) : (s.countNet k id inc).standing = s.standing := by
  simp [State.countNet]

@[simp] theorem State.standing_countStc (n id inc : Nat) : (s.countStc n id inc).standing = s.standing := by
  simp [State.countStc]

@[simp] theorem standing_fireIf (was : Bool) (v : Nat) : (fireIf was v s).standing = s.standing := by
  simp [fireIf, State.fireVector]

@[simp] theorem State.standing_raiseNet (k i : Nat) : (s.raiseNet k i).standing = s.standing := by
  simp [State.raiseNet]

@[simp] theorem State.standing_raiseStc (n i : Nat) : (s.raiseStc n i).standing = s.standing := by
  simp [State.raiseStc]

@[simp] theorem State.standing_raiseMb (m i : Nat) (msix : Bool) : (s.raiseMb m i msix).standing = s.standing := by
  simp [State.raiseMb]

@[simp] theorem State.standing_raiseSeq (c i : Nat) : (s.raiseSeq c i).standing = s.standing := by
  simp [State.raiseSeq]

@[simp] theorem State.standing_traceSector (n kind unit mark step a b : Nat) :
    (s.traceSector n kind unit mark step a b).standing = s.standing := by
  simp [State.traceSector]

@[simp] theorem State.standing_traceCore (c bit kind a b : Nat) : (s.traceCore c bit kind a b).standing = s.standing := by
  simp [State.traceCore]

@[simp] theorem State.standing_traceRing (bit kind unit mark a b : Nat) :
    (s.traceRing bit kind unit mark a b).standing = s.standing := by
  simp [State.traceRing]

@[simp] theorem State.standing_pmcAdd (c i inc : Nat) : (s.pmcAdd c i inc).standing = s.standing := by
  simp [State.pmcAdd]

@[simp] theorem State.standing_pmcEvent (c ev inc : Nat) : (s.pmcEvent c ev inc).standing = s.standing := by
  simp [State.pmcEvent]

@[simp] theorem State.standing_countCoreSub (c id sub inc : Nat) : (s.countCoreSub c id sub inc).standing = s.standing := by
  simp [State.countCoreSub]

@[simp] theorem State.standing_countCore (c id inc : Nat) : (s.countCore c id inc).standing = s.standing := by
  simp [State.countCore]

@[simp] theorem State.standing_dropCore (c id ev : Nat) : (s.dropCore c id ev).standing = s.standing := by
  simp [State.dropCore]

/-- The guard overflows that are still to be shown are no part of the view. -/
@[simp] theorem State.standing_modFault_guardDue (due : FaultSt → List Nat) :
    (s.modFault fun f => { f with guardDue := due f }).standing = s.standing := rfl

@[simp] theorem State.standing_guardOvf (c n : Nat) : (s.guardOvf c n).standing = s.standing := by
  simp [State.guardOvf]

/-- What a fold carries beside the state is no part of the view. -/
@[simp] theorem State.standing_foldl_fst {β γ : Type} {f : State × γ → β → State × γ}
    (h : ∀ r x, (f r x).1.standing = r.1.standing) (l : List β) (r : State × γ) :
    (l.foldl f r).1.standing = r.1.standing := by
  induction l generalizing r with
  | nil => rfl
  | cons x l ih => rw [List.foldl_cons, ih, h]

theorem State.standing_snap (t : Tab (Nat × Nat)) : { s with snap := t }.standing = s.standing := rfl
theorem State.standing_free (n : Nat) : { s with free := n }.standing = s.standing := rfl
theorem State.standing_errTok (l : List Token) : { s with errTok := l }.standing = s.standing := rfl

@[simp] theorem State.standing_snapCore (c : Nat) : (s.snapCore c).standing = s.standing := by
  simp [State.snapCore, ↓State.standing_snap]

@[simp] theorem State.standing_wakeCmd (m1 : Nat) {f : State → Nat → JEntry → State}
    (h : ∀ s m e, (f s m e).standing = s.standing) : (s.wakeCmd m1 f).standing = s.standing := by
  unfold State.wakeCmd
  split
  · rfl
  · split
    · rfl
    · exact h ..

/-! ### Events -/

@[simp] theorem State.standing_evDone (e : EvItem) : (s.evDone e).standing = s.standing := by
  simp [State.evDone]

@[simp] theorem State.standing_evsDone (l : List EvItem) : (s.evsDone l).standing = s.standing := by
  simp [State.evsDone]

@[simp] theorem State.standing_hostWrite (addr : Nat) (bytes : List Byte) :
    (s.hostWrite addr bytes).standing = s.standing := by
  simp [State.hostWrite]

/-! ### Memory -/

@[simp] theorem State.standing_gddrCount (a n : Nat) (cls : GddrClass) (dir : Nat) :
    (s.gddrCount a n cls dir).standing = s.standing := by
  simp [State.gddrCount]

@[simp] theorem State.standing_gddrEvent (g i : Nat) : (s.gddrEvent g i).standing = s.standing := by
  simp [State.gddrEvent]

@[simp] theorem State.standing_gCheck (a n : Nat) : (s.gCheck a n).standing = s.standing := by
  simp [State.gCheck]

@[simp] theorem State.standing_gStore (a : Nat) (bytes : List Byte) : (s.gStore a bytes).standing = s.standing := by
  simp [State.gStore]

@[simp] theorem State.standing_gPoke (a : Nat) (bytes : List Byte) : (s.gPoke a bytes).standing = s.standing := by
  simp [State.gPoke]

@[simp] theorem State.standing_gRead (a n : Nat) (cls : GddrClass) : (s.gRead a n cls).2.standing = s.standing := by
  simp [State.gRead]

@[simp] theorem State.standing_gWrite (a : Nat) (bytes : List Byte) (cls : GddrClass) :
    (s.gWrite a bytes cls).standing = s.standing := by
  simp [State.gWrite]

/-! ### Mailboxes -/

@[simp] theorem State.standing_showRecord (m : Nat) (e : JEntry) (r : List Byte) :
    (s.showRecord m e r).standing = s.standing := by
  simp [State.showRecord]

@[simp] theorem State.standing_complete (m : Nat) (e : JEntry) (code reason : Nat) (inline : List Byte) (resBytes : Nat)
    (short : Bool) :
    (s.complete m e code reason inline resBytes short).standing = s.standing := by
  simp [State.complete]

@[simp] theorem State.standing_finish (m : Nat) (e : JEntry) (inline : List Byte) :
    (s.finish m e inline).standing = s.standing := by
  simp [State.finish]

@[simp] theorem State.standing_refuse (m : Nat) (e : JEntry) (code reason : Nat) (inline : List Byte) :
    (s.refuse m e code reason inline).standing = s.standing := by
  simp [State.refuse]

@[simp] theorem State.standing_finishResult (m : Nat) (e : JEntry) (bytes : List Byte) (inline : List Byte) :
    (s.finishResult m e bytes inline).standing = s.standing := by
  simp [State.finishResult]

@[simp] theorem State.standing_park (m : Nat) (e : JEntry) : (s.park m e).standing = s.standing := by
  simp [State.park]

/-! ### Routers -/

@[simp] theorem State.standing_modIn (n p : Nat) (f : InPort → InPort) : (s.modIn n p f).standing = s.standing := by
  simp [State.modIn]

@[simp] theorem State.standing_modLink (n l : Nat) (f : LinkSt → LinkSt) : (s.modLink n l f).standing = s.standing := by
  simp [State.modLink]

@[simp] theorem State.standing_offer (n p : Nat) (it : Item) : (s.offer n p it).standing = s.standing := by
  simp [State.offer]

@[simp] theorem State.standing_onLink (n l : Nat) (it : Item) : (s.onLink n l it).standing = s.standing := by
  simp [State.onLink]

@[simp] theorem State.standing_inject (n : Nat) (it : Item) : (s.inject n it).standing = s.standing := by
  simp [State.inject]

/-! ### Cores -/

@[simp] theorem State.standing_alignPulse : s.alignPulse.standing = s.standing :=
  s.standing_foldl (fun u _ => u.standing_setSector _ _) _

@[simp] theorem State.standing_countWb (c : Nat) (n : WbCount) : (s.countWb c n).standing = s.standing := by
  simp [State.countWb]

@[simp] theorem State.standing_learnCheck (c : Nat) : (s.learnCheck c).standing = s.standing := by
  simp [State.learnCheck]

@[simp] theorem State.standing_learnCutoff (c : Nat) : (s.learnCutoff c).standing = s.standing := by
  simp [State.learnCutoff]

@[simp] theorem State.standing_smemPoke (n a : Nat) (bytes : List Byte) : (s.smemPoke n a bytes).standing = s.standing := by
  simp [State.smemPoke]

@[simp] theorem State.standing_smemCountCore (c dir n : Nat) : (s.smemCountCore c dir n).standing = s.standing := by
  simp [State.smemCountCore]

@[simp] theorem State.standing_fetchFrame (c f : Nat) : (s.fetchFrame c f).standing = s.standing := by
  simp [State.fetchFrame]

@[simp] theorem State.standing_loadFrame (c f : Nat) : (s.loadFrame c f).standing = s.standing := by
  simp [State.loadFrame]

@[simp] theorem State.standing_markDirty (c i : Nat) : (s.markDirty c i).standing = s.standing := by
  simp [State.markDirty]

/-! ### Ring, flows and queues -/

@[simp] theorem State.standing_ringPut (step : Nat) (e : EvItem) : (s.ringPut step e).standing = s.standing := by
  simp [State.ringPut]

@[simp] theorem State.standing_ringEvent (fn step : Nat) (e : EvItem) : (s.ringEvent fn step e).standing = s.standing := by
  simp [State.ringEvent]

@[simp] theorem State.standing_offerMsg (f kind : Nat) (body : List Byte) (ackFlow : Nat) (ackSeq : Nat) (sub : Nat)
    (prev : Option (List Int)) :
    (s.offerMsg f kind body ackFlow ackSeq sub prev).standing = s.standing := by
  simp [State.offerMsg]

@[simp] theorem State.standing_consumeMsg (f m : Nat) : (s.consumeMsg f m).standing = s.standing := by
  simp [State.consumeMsg]

@[simp] theorem State.standing_sendStatus (n : Nat) (d : Desc) (kind reason result : Nat) :
    (s.sendStatus n d kind reason result).standing = s.standing := by
  simp [State.sendStatus]

@[simp] theorem State.standing_modQueue (c q : Nat) (f : QueueSt → QueueSt) : (s.modQueue c q f).standing = s.standing := by
  simp [State.modQueue]

@[simp] theorem State.standing_closeQueue (c q : Nat) : (s.closeQueue c q).standing = s.standing := by
  simp [State.closeQueue]

/-! ### Delivery -/

@[simp] theorem State.standing_deliverBegin (c n : Nat) : (s.deliverBegin c n).standing = s.standing := by
  simp [State.deliverBegin]

@[simp] theorem State.standing_coreAdvance (c : Nat) : (s.coreAdvance c).standing = s.standing := by
  dsimp only [State.coreAdvance]
  split
  · simp
  · simp

/-! ### Tokens -/

@[simp] theorem State.standing_queueExpansion (fn k : Nat) (t tOut : Word32) (evs : List EvItem) :
    (s.queueExpansion fn k t tOut evs).standing = s.standing := rfl

@[simp] theorem State.standing_expandToken (b step : Nat) (t : Token) : (s.expandToken b step t).standing = s.standing := by
  simp [State.expandToken]

@[simp] theorem State.standing_expandError (fn k : Nat) (m : ElemMap) (t : Token) :
    (s.expandError fn k m t).standing = s.standing := by
  simp [State.expandError]

@[simp] theorem State.standing_takeErrors (k : Nat) : (s.takeErrors k).standing = s.standing := by
  refine s.standing_foldl (fun u x => ?_) _
  split
  · rfl
  · simp [↓State.standing_errTok]

@[simp] theorem State.standing_tokenStep (k : Nat) : (s.tokenStep k).standing = s.standing := by
  have htok (t : TokSt) : { s with tok := t }.standing = s.standing := rfl
  dsimp only [State.tokenStep]
  split
  · rfl
  · split
    · simp
    · split
      · rfl
      · split
        · rfl
        · refine (State.standing_foldl _ (fun u b => ?_) _).trans (htok _)
          split
          · split <;> simp
          · rfl

/-! ### Pages and streams -/

@[simp] theorem State.standing_pageOpen (c n : Nat) : (s.pageOpen c n).standing = s.standing := by
  refine s.standing_foldl (fun u p => ?_) _
  split
  · rfl
  · simp

@[simp] theorem State.standing_bindStc (n : Nat) (c : List Byte) : (s.bindStc n c).standing = s.standing := by
  simp [State.bindStc]

@[simp] theorem State.standing_unbindStc (n : Nat) : (s.unbindStc n).standing = s.standing := by
  simp [State.unbindStc]

@[simp] theorem State.standing_sendElem (fn step typ i : Nat) (p16 : Bool) (v : Int) :
    (s.sendElem fn step typ i p16 v).1.standing = s.standing := by
  simp [State.sendElem]

@[simp] theorem State.standing_sendElems (fn step typ : Nat) (p16 : Bool) (l : List (Nat × Int)) :
    (s.sendElems fn step typ p16 l).1.standing = s.standing := by
  simp [State.sendElems]

@[simp] theorem State.standing_sendRefs (n fn step : Nat) (sign : Int) (refs : Tab Int) :
    (s.sendRefs n fn step sign refs).standing = s.standing := by
  simp [State.sendRefs]

@[simp] theorem State.standing_streamsOpen (k step : Nat) : (s.streamsOpen k step).standing = s.standing := by
  simp [State.streamsOpen]

/-! ### Weights read and written -/

@[simp] theorem State.standing_readNow (m : Nat) (e : JEntry) (step : Nat) (cols recs : List Byte) :
    (s.readNow m e step cols recs).standing = s.standing := by
  simp [State.readNow]

@[simp] theorem State.standing_copyRow (c i : Nat) : (s.copyRow c i).standing = s.standing := by
  dsimp only [State.copyRow]
  split
  · rfl
  · exact s.standing_wakeCmd _ fun _ _ _ => rfl

@[simp] theorem State.standing_copyCols (c : Nat) : (s.copyCols c).standing = s.standing := by
  dsimp only [State.copyCols]
  split
  · rfl
  · exact s.standing_wakeCmd _ fun _ _ _ => rfl

@[simp] theorem State.standing_copyDeliver (c : Nat) : (s.copyDeliver c).standing = s.standing := by
  simp [State.copyDeliver]

@[simp] theorem State.standing_serveSnap (c : Nat) : (s.serveSnap c).standing = s.standing := by
  dsimp only [State.serveSnap]
  split
  · rfl
  · split
    · simp
    · simp

@[simp] theorem State.standing_hostApply (c : Nat) : (s.hostApply c).standing = s.standing := by
  simp [State.hostApply]

@[simp] theorem State.standing_applyRow (c mul shift : Nat) (i : Nat) :
    (s.applyRow c mul shift i).standing = s.standing := by
  simp [State.applyRow]

@[simp] theorem State.standing_applyCore (c mul shift : Nat) : (s.applyCore c mul shift).standing = s.standing := by
  simp [State.applyCore]

@[simp] theorem State.standing_applyAll (m : Nat) (e : JEntry) : (s.applyAll m e).standing = s.standing := by
  simp [State.applyAll]

/-! ### Reductions and checkpoints -/

@[simp] theorem State.standing_sendBulk (f : Nat) (data : List Byte) : (s.sendBulk f data).standing = s.standing := by
  simp [State.sendBulk]

@[simp] theorem State.standing_reduceStart (k m1 : Nat) : (s.reduceStart k m1).standing = s.standing := by
  unfold State.reduceStart
  split
  · simp
  · rfl
  · simp

@[simp] theorem State.standing_reduceSum (k : Nat) : (s.reduceSum k).standing = s.standing := by
  unfold State.reduceSum
  split
  · simp
  · rfl

@[simp] theorem State.standing_reduceEnd (k : Nat) : (s.reduceEnd k).standing = s.standing := by
  unfold State.reduceEnd
  split
  · simp
  · rfl

@[simp] theorem State.standing_reduceGo (k : Nat) : (s.reduceGo k).standing = s.standing := by
  simp [State.reduceGo]

@[simp] theorem State.standing_applyNow (m : Nat) (e : JEntry) : (s.applyNow m e).standing = s.standing := by
  simp [State.applyNow]

@[simp] theorem State.standing_checkpointNow (m : Nat) (e : JEntry) (r : Region) :
    (s.checkpointNow m e r).standing = s.standing := by
  simp [State.checkpointNow, ↓State.standing_free]

@[simp] theorem State.standing_serveWaits (k : Nat) (boundary : Bool) :
    (s.serveWaits k boundary).standing = s.standing := by
  refine s.standing_foldl (fun u m => ?_) _
  split
  · simp
  · dsimp only
    split
    · simp
    · simp
    · split
      · split <;> simp
      · rfl
    · simp

/-! ### Steps -/

@[simp] theorem State.standing_settle (c : Nat) : (s.settle c).standing = s.standing := by
  simp [State.settle]

@[simp] theorem State.standing_lateDrop (c id : Nat) (ev : Word64) : (s.lateDrop c id ev).standing = s.standing := by
  simp [State.lateDrop]

@[simp] theorem State.standing_dropLate (c : Nat) : (s.dropLate c).standing = s.standing := by
  simp [State.dropLate]

@[simp] theorem State.standing_missFire (c : Nat) : (s.missFire c).standing = s.standing := by
  simp [State.missFire]

@[simp] theorem State.standing_coreCutoff (c : Nat) : (s.coreCutoff c).standing = s.standing := by
  simp [State.coreCutoff]

@[simp] theorem State.standing_coreOpen (c t : Nat) : (s.coreOpen c t).standing = s.standing := by
  simp [State.coreOpen]

@[simp] theorem State.standing_reduceWaiting (k : Nat) : (s.reduceWaiting k).standing = s.standing := by
  unfold State.reduceWaiting
  split
  · simp
  · rfl

@[simp] theorem State.standing_clearTotals (k tag : Nat) : (s.clearTotals k tag).standing = s.standing := by
  unfold State.clearTotals
  extract_lets cores rings unpacker keep packers
  calc _ = packers.standing := by simp
    _ = unpacker.standing := State.standing_foldl _ (fun u p => by simp) _
    _ = rings.standing := State.standing_modRfn ..
    _ = cores.standing := State.standing_foldl _ (fun u f => u.standing_modRfn f _) _
    _ = s.standing := State.standing_foldl _ (fun u c => u.standing_setCore c _) _

@[simp] theorem State.standing_writeTotals (k : Nat) : (s.writeTotals k).standing = s.standing := by
  simp [State.writeTotals]

@[simp] theorem State.standing_openStep (k t : Nat) : (s.openStep k t).standing = s.standing := by
  simp [State.openStep]

@[simp] theorem State.standing_tryOpen (k : Nat) : (s.tryOpen k).standing = s.standing := by
  simp [State.tryOpen]

@[simp] theorem State.standing_requeue (m : Nat) : (s.requeue m).standing = s.standing := by
  unfold State.requeue
  split
  · rfl
  · simp

@[simp] theorem State.standing_dropHeld (c : Nat) : (s.dropHeld c).2.standing = s.standing := by
  simp [State.dropHeld]

/-! ### Networks halted, shed and started -/

theorem Standing.putRunning_self {v : Standing} {k : Nat} {b : Bool} (h : v.running k = b) : v.putRunning k b = v := by
  rw [Standing.putRunning, ← h, Function.update_eq_self]

theorem State.standing_stopNet (k : Nat) : (s.stopNet k).standing = s.standing.putRunning k false := by
  unfold State.stopNet
  extract_lets ended
  have hended : ended.standing = s.standing := State.standing_foldl _ (fun u c => by simp) _
  rw [← hended]
  exact State.standing_setNet_running _ _ _ rfl rfl

theorem State.standing_haltNow (k : Nat) : (s.haltNow k).standing = s.standing.putRunning k false := by
  by_cases hrun : (s.net k).running = false
  · rw [State.haltNow, hrun, Standing.putRunning_self hrun]
    rfl
  · unfold State.haltNow
    extract_lets n last halting waits streams stopped cores
    rw [if_neg (by simpa [n] using hrun)]
    have hwaits : waits.standing = s.standing := State.standing_foldl _ (fun u m => u.standing_requeue m) _
    have hstreams : streams.standing = waits.standing := State.standing_foldl _ (fun u i => by simp) _
    calc _ = cores.standing := by simp
      _ = stopped.standing := State.standing_foldl _ (fun u c => u.standing_setCore c _) _
      _ = streams.standing.putRunning k false := streams.standing_stopNet k
      _ = s.standing.putRunning k false := by rw [hstreams, hwaits]

@[simp] theorem State.standing_shedCore (c : Nat) : (s.shedCore c).standing = s.standing := by
  simp [State.shedCore]

theorem State.standing_shedNet (k : Nat) :
    (s.shedNet k).standing = (s.standing.putShed k).putRunning k false := by
  unfold State.shedNet
  extract_lets marked streams waits cores
  have hmarked : marked.standing = s.standing.putShed k := State.standing_setNet_shed _ _ _ rfl rfl rfl
  have hstreams : streams.standing = marked.standing := State.standing_foldl _ (fun u i => by simp) _
  have hwaits : waits.standing = streams.standing := State.standing_foldl _ (fun u m => by simp) _
  calc _ = (waits.haltNow k).standing := State.standing_foldl _ (fun u c => u.standing_shedCore c) _
    _ = (s.standing.putShed k).putRunning k false := by rw [State.standing_haltNow, hwaits, hstreams, hmarked]

theorem State.standing_startNet (k : Nat) : (s.startNet k).standing = s.standing.putRunning k true := by
  unfold State.startNet
  extract_lets cores n first started
  have hfirst : first.standing = s.standing := by
    dsimp only [first]
    split
    · rfl
    · exact State.standing_foldl _ (fun u c => u.standing_setCore c _) _
  have hstarted : started.standing = first.standing.putRunning k true :=
    State.standing_setNet_running _ _ _ rfl rfl
  rw [State.standing_ite, State.standing_tryOpen, ite_self, hstarted, hfirst]

end Sys2Proof.Machine
end

section
/-! PROOF. Triggers enter ensign mode; faults are recorded (O50): the pins and the shedding of an entry, the three ways of a
trigger, and one lemma for each fault source. -/

namespace Sys2Proof.Machine

variable (s : State)

/-! ### The pins -/

/-- The pins change the line outputs and nothing else. -/
theorem State.pinsInit_eq_with_louts (init : Nat → Bool) : ∃ l, s.pinsInit init = { s with louts := l } := by
  unfold State.pinsInit
  generalize upTo 8 = pins
  induction pins generalizing s with
  | nil => exact ⟨s.louts, rfl⟩
  | cons p pins ih => exact ih (s.modLout p _)

@[simp] theorem State.pinsInit_fields (init : Nat → Bool) :
    (s.pinsInit init).ao = s.ao ∧ (s.pinsInit init).fault = s.fault ∧ (s.pinsInit init).sec = s.sec ∧
    (s.pinsInit init).nets = s.nets ∧ (s.pinsInit init).sector = s.sector ∧ (s.pinsInit init).net = s.net ∧
    (s.pinsInit init).ctrAt = s.ctrAt := by
  obtain ⟨l, hl⟩ := s.pinsInit_eq_with_louts init
  rw [hl]
  repeat' constructor

@[simp] theorem State.keepsBut_pinsInit {t : State} {l : List Part} (hp : Part.louts ∈ l) (init : Nat → Bool) :
    State.KeepsBut l s (t.pinsInit init) ↔ State.KeepsBut l s t := by
  obtain ⟨x, hx⟩ := t.pinsInit_eq_with_louts init
  rw [hx]
  exact State.keepsBut_congr s fun p h => by cases p <;> first | rfl | exact absurd hp h

/-- Each of the eight pins drives its initial state. -/
theorem State.lout_pinsInit (init : Nat → Bool) (p : Nat) :
    (s.pinsInit init).lout p = if p < 8 then (s.lout p).ensign (init p) else s.lout p := by
  have hpins (pins : List Nat) : (pins.foldl (fun s p => s.modLout p fun l => l.ensign (init p)) s).lout p =
      if p ∈ pins then (s.lout p).ensign (init p) else s.lout p := by
    induction pins generalizing s with
    | nil => simp
    | cons q pins ih =>
      rw [List.foldl_cons, ih, State.lout_modLout]
      obtain rfl | hne := eq_or_ne p q
      · simp [LoutSt.ensign]
      · simp [hne]
  rw [State.pinsInit, hpins]
  simp [upTo]

/-! ### The entry: pins, cause and count -/

variable (cause : Nat) (init : Nat → Bool)

theorem State.ensignPins_fault :
    (s.ensignPins cause init).fault = { s.fault with ensActive := true, ensDriven := 0, ensCause := cause } := by
  simp [State.ensignPins]

@[simp] theorem State.ensignPins_fields :
    (s.ensignPins cause init).ao = s.ao ∧ (s.ensignPins cause init).nets = s.nets ∧
    (s.ensignPins cause init).net = s.net := by
  simp [State.ensignPins]

theorem State.lout_ensignPins (p : Nat) (hp : p < 8) : (s.ensignPins cause init).lout p = (s.lout p).ensign (init p) := by
  simp [State.ensignPins, State.lout_pinsInit, hp]

@[simp] theorem State.keepsBut_ensignPins {t : State} {l : List Part} (hf : Part.fault ∈ l) (hl : Part.louts ∈ l)
    (hc : Part.ctr ∈ l) (hp : Part.pcie ∈ l) (ho : Part.out ∈ l) :
    State.KeepsBut l s (t.ensignPins cause init) ↔ State.KeepsBut l s t := by
  simp [State.ensignPins, hf, hl, hc, hp, ho]

/-- An entry into ensign mode counts once. -/
theorem State.ctrAt_ensignPins : (s.ensignPins cause init).ctrAt Scope.device 0 Ctr.ensignEntry noSub 0 =
    satCtr (s.ctrAt Scope.device 0 Ctr.ensignEntry noSub 0 + 1) := by
  rw [State.ensignPins, State.ctrAt_raiseDev _ _ (by decide) (by decide), State.ctrAt_countDev_self _ (by decide)]
  simp

/-! ### The entry: the other networks shed, the ensign network run -/

/-- Network k is shed, unless it is not loaded, is the ensign network, or is shed already. -/
def State.shedOther (s : State) (k : Nat) : State :=
  if (s.net k).image != 0 && k != s.fault.ensNet && !(s.net k).shed then s.shedNet k else s

/-- One network of the others: the parts that stand and the images stay, and it is shed if it is loaded. -/
theorem State.shedOther_standing (k : Nat) :
    (s.shedOther k).standing.rest = s.standing.rest ∧ (s.shedOther k).standing.image = s.standing.image ∧
    (∀ j, s.standing.shed j = true → (s.shedOther k).standing.shed j = true) ∧
    (s.standing.image k ≠ 0 → k ≠ s.standing.rest.fault.ensNet → (s.shedOther k).standing.shed k = true) := by
  unfold State.shedOther
  split
  · rw [State.standing_shedNet]
    refine ⟨rfl, rfl, fun j hj => ?_, fun _ _ => Function.update_self ..⟩
    change Function.update s.standing.shed k true j = true
    rw [Function.update_apply, hj, ite_self]
  · next h =>
    refine ⟨rfl, rfl, fun _ hj => hj, fun himage hens => ?_⟩
    by_contra hshed
    exact h (by simpa using ⟨⟨himage, hens⟩, Bool.eq_false_iff.mpr hshed⟩)

/-- All of a list of networks. -/
theorem State.foldl_shedOther_standing (l : List Nat) :
    (l.foldl (fun s k => s.shedOther k) s).standing.rest = s.standing.rest ∧
    (∀ j, s.standing.shed j = true → (l.foldl (fun s k => s.shedOther k) s).standing.shed j = true) ∧
    ∀ k ∈ l, s.standing.image k ≠ 0 → k ≠ s.standing.rest.fault.ensNet →
      (l.foldl (fun s k => s.shedOther k) s).standing.shed k = true := by
  induction l generalizing s with
  | nil => simp
  | cons n l ih =>
    obtain ⟨hrest, himage, hkeep, hshed⟩ := s.shedOther_standing n
    obtain ⟨ihRest, ihKeep, ihShed⟩ := ih (s.shedOther n)
    rw [List.foldl_cons]
    refine ⟨ihRest.trans hrest, fun j hj => ihKeep j (hkeep j hj), fun k hk hk0 hens => ?_⟩
    obtain rfl | hk := List.mem_cons.mp hk
    · exact ihKeep k (hshed hk0 hens)
    · exact ihShed k hk (himage ▸ hk0) (hrest ▸ hens)

theorem State.ensignShed_eq : s.ensignShed =
    let u := (upTo 16).foldl (fun s k => s.shedOther k) (s.logFault classNotice 13 0 6)
    if (u.net u.fault.ensNet).running || u.fault.fatal then u else u.startNet u.fault.ensNet := by
  unfold State.ensignShed State.shedOther
  with_reducible rfl

/-- Steps 2 and 3 of R464: but for the log the parts that stand stay, every other loaded network is shed, and the ensign network
runs, unless a FATAL fault stands. -/
theorem State.ensignShed_standing :
    s.ensignShed.standing.rest = (s.logFault classNotice 13 0 6).standing.rest ∧
    (∀ k, k < 16 → (s.net k).image ≠ 0 → k ≠ s.fault.ensNet → (s.ensignShed.net k).shed = true) ∧
    (s.fault.fatal = false → (s.ensignShed.net s.fault.ensNet).running = true) := by
  have hnet : (s.logFault classNotice 13 0 6).net = s.net := by simp
  have hlog : (s.logFault classNotice 13 0 6).fault.ensNet = s.fault.ensNet ∧
      (s.logFault classNotice 13 0 6).fault.fatal = s.fault.fatal := by simp
  obtain ⟨hrest, -, hshed⟩ := (s.logFault classNotice 13 0 6).foldl_shedOther_standing (upTo 16)
  rw [State.ensignShed_eq]
  generalize (upTo 16).foldl (fun s k => s.shedOther k) (s.logFault classNotice 13 0 6) = u at hrest hshed
  obtain ⟨-, -, -, huEns, huFatal⟩ := State.kept_of_rest_eq hrest
  have hens : u.fault.ensNet = s.fault.ensNet := huEns.trans hlog.1
  have hfatal : u.fault.fatal = s.fault.fatal := huFatal.trans hlog.2
  have hothers : ∀ k, k < 16 → (s.net k).image ≠ 0 → k ≠ s.fault.ensNet → u.standing.shed k = true := fun k hk h0 hk' =>
    hshed k (List.mem_range.mpr hk) (by simpa [State.standing, hnet] using h0) fun h => hk' (h.trans hlog.1)
  dsimp only
  rw [hens, hfatal]
  split
  · next hdone =>
    exact ⟨hrest, hothers, fun hf => by simpa [hf] using hdone⟩
  · have hstart := u.standing_startNet s.fault.ensNet
    refine ⟨(congrArg Standing.rest hstart).trans hrest, fun k hk h0 hk' => ?_, fun _ => ?_⟩
    · exact (congrArg (fun v => v.shed k) hstart).trans (hothers k hk h0 hk')
    · exact (congrArg (fun v => v.running s.fault.ensNet) hstart).trans (Function.update_self ..)

/-- Where the other networks are shed already and the ensign network runs, only the log takes an entry. -/
theorem State.ensignShed_of_shed (hshed : ∀ k, k ≠ s.fault.ensNet → (s.net k).image = 0 ∨ (s.net k).shed = true)
    (hrun : (s.net s.fault.ensNet).running = true) : s.ensignShed = s.logFault classNotice 13 0 6 := by
  have hnet : (s.logFault classNotice 13 0 6).net = s.net := by simp
  have hens : (s.logFault classNotice 13 0 6).fault.ensNet = s.fault.ensNet := by simp
  have hother (k : Nat) : (s.logFault classNotice 13 0 6).shedOther k = s.logFault classNotice 13 0 6 := by
    rw [State.shedOther, hnet, hens, if_neg]
    simp only [Bool.and_eq_true, bne_iff_ne, Bool.not_eq_true']
    rintro ⟨⟨h0, hk⟩, hns⟩
    simpa [h0, hns] using hshed k hk
  rw [State.ensignShed_eq, List.foldl_fixed' hother]
  dsimp only
  rw [hnet, hens, hrun, Bool.true_or, if_pos rfl]

/-! ### The three ways of a trigger -/

/-- A trigger that holds enters ensign mode with its cause; the heartbeat's time-out is trigger 2. -/
theorem exec_ensignTrigger (b : Fin 4) (htrig : s.trigHolds b.val = true) :
    exec (.ensignTrigger b) s = .next (s.platform (s.enterEnsign (b.val + 1))) ∧
    (b = 2 → exec .heartbeatTimeout s = .next (s.platform (s.enterEnsign (b.val + 1)))) := by
  constructor
  · change execEnsignTrigger b s = _
    rw [execEnsignTrigger, htrig, if_pos rfl]
  · rintro rfl
    change execHeartbeatTimeout s = _
    have hbeat : s.trigHolds 2 = true := htrig
    rw [execHeartbeatTimeout, if_pos hbeat]
    rfl

/-- The mode stands ready and is inactive, and no entry waits. -/
def State.ensignReady (s : State) : Prop := s.fault.ensSet = true ∧ s.fault.ensActive = false ∧ s.ao.ensignPending = 0

section Ensign

variable {s} (hready : s.ensignReady)
include hready

theorem State.enterEnsign_serving (hpower : s.ao.pstate < 2) (hserving : s.ao.serving = true) :
    s.enterEnsign cause = (s.ensignPins cause fun p => (s.lout p).ensInit).ensignShed := by
  obtain ⟨hset, hinactive, hnone⟩ := hready
  simp [State.enterEnsign, hset, hinactive, hnone, Nat.not_le.mpr hpower, hserving]

theorem State.enterEnsign_waits (hpower : s.ao.pstate < 2) (hserving : s.ao.serving = false) :
    s.enterEnsign cause = s.modAo fun a => { a with ensignPending := cause } := by
  obtain ⟨hset, hinactive, hnone⟩ := hready
  simp [State.enterEnsign, hset, hinactive, hnone, Nat.not_le.mpr hpower, hserving]

theorem State.enterEnsign_asleep (hpower : 2 ≤ s.ao.pstate) :
    s.enterEnsign cause = (s.ensignPins cause fun p => nbit s.ao.ensCopy.toNat p).modAo fun a => { a with
      ensignPending := cause, waking := if a.waking = 0 then 1 else min a.waking 1 } := by
  obtain ⟨hset, hinactive, hnone⟩ := hready
  have hasleep : ¬ s.ao.pstate < 2 := Nat.not_lt.mpr hpower
  rw [State.enterEnsign, if_neg (by simp [hset, hinactive, hnone]), if_pos hpower, State.startWake, if_neg (by simpa)]
  rfl

/-- In P0 and P1 with the owner serving. -/
theorem enterEnsign_serving_effect (hpower : s.ao.pstate < 2) (hserving : s.ao.serving = true) :
    let t := s.platform (s.enterEnsign cause)
    t.fault.ensActive = true ∧ t.fault.ensCause = cause ∧ (∀ p, p < 8 → (t.lout p).asserted = (s.lout p).ensInit) ∧
      (∀ k, k < 16 → (s.net k).image ≠ 0 → k ≠ s.fault.ensNet → (t.net k).shed = true) ∧
      (s.fault.fatal = false → (t.net s.fault.ensNet).running = true) ∧
      ((∀ k, k ≠ s.fault.ensNet → (s.net k).image = 0 ∨ (s.net k).shed = true) → (s.net s.fault.ensNet).running = true →
        t.ctrAt Scope.device 0 Ctr.ensignEntry noSub 0 = satCtr (s.ctrAt Scope.device 0 Ctr.ensignEntry noSub 0 + 1) ∧
        State.KeepsBut [.fault, .louts, .ctr, .pcie, .out] s t) := by
  have hpins := s.ensignPins_fault cause fun p => (s.lout p).ensInit
  have hlouts := s.lout_ensignPins cause fun p => (s.lout p).ensInit
  have hcount := s.ctrAt_ensignPins cause fun p => (s.lout p).ensInit
  have hnet : (s.ensignPins cause fun p => (s.lout p).ensInit).net = s.net := by simp
  have hkeep : State.KeepsBut [.fault, .louts, .ctr, .pcie, .out] s (s.ensignPins cause fun p => (s.lout p).ensInit) := by
    simp
  rw [State.enterEnsign_serving cause hready hpower hserving]
  generalize (s.ensignPins cause fun p => (s.lout p).ensInit) = u at *
  obtain ⟨hrest, hshed, hrun⟩ := u.ensignShed_standing
  have hens : u.fault.ensNet = s.fault.ensNet ∧ u.fault.fatal = s.fault.fatal := by simp [hpins]
  rw [hnet, hens.1] at hshed
  rw [hens.1, hens.2] at hrun
  obtain ⟨hlout, hactive, hcause, -, -⟩ := State.kept_of_rest_eq hrest
  have hpin (p : Nat) : u.ensignShed.lout p = u.lout p := by
    simp only [State.lout, hlout, State.logFault_fields]
  refine ⟨by simp [hactive, hpins], by simp [hcause, hpins], fun p hp => ?_, by simpa using hshed, by simpa using hrun,
    fun hothers hens' => ?_⟩
  · simp [hpin, hlouts p hp, LoutSt.ensign]
  · have hlog := u.ensignShed_of_shed (by rwa [hnet, hens.1]) (by rwa [hnet, hens.1])
    rw [hlog]
    refine ⟨?_, by simpa using hkeep⟩
    rw [State.ctrAt_platform, State.ctrAt_logFault _ _ _ _ _ _ _ (by decide) (by decide), hcount]

/-- While no owner serves, the entry waits. -/
theorem enterEnsign_waits_effect (hpower : s.ao.pstate < 2) (hserving : s.ao.serving = false) :
    let t := s.platform (s.enterEnsign cause)
    t.ao = { s.ao with ensignPending := cause } ∧ State.KeepsBut [.ao] s t := by
  have hsensor : (s.modAo fun a => { a with ensignPending := cause }).sensor = s.sensor := rfl
  rw [State.enterEnsign_waits cause hready hpower hserving, State.platform_of_sensor_eq s hsensor]
  exact ⟨rfl, by simp⟩

/-- In P2 and P3 the always-on domain drives the pins, and a wake to P0 begins. -/
theorem enterEnsign_asleep_effect (hpower : 2 ≤ s.ao.pstate) :
    let t := s.platform (s.enterEnsign cause)
    t.fault.ensActive = true ∧ t.fault.ensCause = cause ∧
      (∀ p, p < 8 → (t.lout p).asserted = nbit s.ao.ensCopy.toNat p) ∧
      t.ao = { s.ao with ensignPending := cause, waking := if s.ao.waking = 0 then 1 else min s.ao.waking 1 } ∧
      t.ctrAt Scope.device 0 Ctr.ensignEntry noSub 0 = satCtr (s.ctrAt Scope.device 0 Ctr.ensignEntry noSub 0 + 1) ∧
      State.KeepsBut [.fault, .louts, .ctr, .pcie, .out, .ao] s t := by
  rw [State.enterEnsign_asleep cause hready hpower]
  have hcount := s.ctrAt_ensignPins cause fun p => nbit s.ao.ensCopy.toNat p
  refine ⟨by simp [State.ensignPins_fault], by simp [State.ensignPins_fault], fun p hp => ?_, by simp, ?_, by simp⟩
  · simp [State.lout_ensignPins _ _ _ p hp, LoutSt.ensign]
  · rw [State.ctrAt_platform]
    exact hcount

end Ensign

/-! ### Faults that only the log shows -/

theorem exec_faultHandling (f : FaultSource) : exec (.faultHandling f) s = execFaultHandling f s := rfl

/-- A fault whose handling is an entry of class NOTICE or DEGRADED, and at most the guard overflow that it shows. -/
theorem faultHandling_logs (f : FaultSource) (cls src unit : Nat) (due : List Nat)
    (hcls : cls = classNotice ∨ cls = classDegraded)
    (hexec : exec (.faultHandling f) s =
      .next (s.platform ((s.modFault fun x => { x with guardDue := due }).logFault cls src unit 0)))
    (hdue : ∀ c : CoreId, f = .numeric c → due = s.fault.guardDue.erase c.val) :
    ∃ t, exec (.faultHandling f) s = .next t ∧
      t.fault.log = (faultEntry s.now cls src unit 0 0 s.ao.epoch 0 :: s.fault.log).take 16384 ∧
      t.fault.events = (if cls = classDegraded then nsetBit s.fault.events 2 else s.fault.events) ∧
      (∀ c : CoreId, f = .numeric c → t.fault.guardDue = s.fault.guardDue.erase c.val) ∧
      State.KeepsBut [.fault, .pcie, .out, .ctr] s t := by
  refine ⟨_, hexec, by simp, ?_, fun c hc => by simpa using hdue c hc, by simp⟩
  obtain rfl | rfl := hcls
  · simp [FaultSt.logged_notice_events]
  · simp [FaultSt.logged_degraded_events]

/-- The supply notice that is not logged yet, the thermal notice, a degraded or failed port, and a guard overflow not shown yet
each put their entry in the log. -/
theorem faultHandling_notice (hserving : s.ao.serving = true) (f : FaultSource) (cls src unit : Nat)
    (h : f = .supplyNotice ∧ s.supplyLogged = false ∧ cls = classNotice ∧ src = 10 ∧ unit = 0 ∨
      f = .thermalNotice ∧ cls = classNotice ∧ src = 11 ∧ unit = 0 ∨
      (∃ p : PortId, (f = .laneDegrade p ∨ f = .portFailed p) ∧ cls = classDegraded ∧ src = 6 ∧ unit = p.val) ∨
      (∃ c : CoreId, f = .numeric c ∧ s.fault.guardDue.contains c.val = true ∧ cls = classNotice ∧ src = 12 ∧
        unit = c.val)) :
    ∃ t, exec (.faultHandling f) s = .next t ∧
      t.fault.log = (faultEntry s.now cls src unit 0 0 s.ao.epoch 0 :: s.fault.log).take 16384 ∧
      t.fault.events = (if cls = classDegraded then nsetBit s.fault.events 2 else s.fault.events) ∧
      (∀ c : CoreId, f = .numeric c → t.fault.guardDue = s.fault.guardDue.erase c.val) ∧
      State.KeepsBut [.fault, .pcie, .out, .ctr] s t := by
  rcases h with ⟨rfl, hlogged, rfl, rfl, rfl⟩ | ⟨rfl, rfl, rfl, rfl⟩ | ⟨p, rfl | rfl, rfl, rfl, rfl⟩ |
    ⟨c, rfl, hdue, rfl, rfl, rfl⟩
  · refine faultHandling_logs s _ _ _ _ s.fault.guardDue (.inl rfl) ?_ nofun
    rw [exec_faultHandling, execFaultHandling, hserving, hlogged]
    rfl
  · refine faultHandling_logs s _ _ _ _ s.fault.guardDue (.inl rfl) ?_ nofun
    rw [exec_faultHandling, execFaultHandling, hserving]
    rfl
  · refine faultHandling_logs s _ _ _ _ s.fault.guardDue (.inr rfl) ?_ nofun
    rw [exec_faultHandling, execFaultHandling, hserving]
    rfl
  · refine faultHandling_logs s _ _ _ _ s.fault.guardDue (.inr rfl) ?_ nofun
    rw [exec_faultHandling, execFaultHandling, hserving]
    rfl
  · refine faultHandling_logs s _ _ _ _ (s.fault.guardDue.erase c.val) (.inl rfl) ?_ fun c' hc' => ?_
    · rw [exec_faultHandling, execFaultHandling, hserving, hdue]
      rfl
    · obtain rfl : c = c' := by simpa using hc'
      rfl

/-! ### Faults that mark a unit -/

/-- A DEGRADED entry of the log on a state v that the handling has marked. -/
theorem platform_logFault_degraded (v : State) (src unit action addr detail : Nat) (hfault : v.fault = s.fault)
    (hnow : v.now = s.now) (hepoch : v.ao.epoch = s.ao.epoch) :
    (s.platform (v.logFault classDegraded src unit action addr detail)).fault.log =
      (faultEntry s.now classDegraded src unit action addr s.ao.epoch detail :: s.fault.log).take 16384 ∧
    nbit (s.platform (v.logFault classDegraded src unit action addr detail)).fault.events 2 = true := by
  simp [FaultSt.logged_degraded_events, hfault, hnow, hepoch]

/-- A Halyard fenced, in the fault record and in the flash. -/
def State.markHalyard (s : State) (south : Bool) : State :=
  (s.modAo fun a => if south then { a with southFenced := true } else { a with northFenced := true }).modSec fun q =>
    { q with flashHal := nsetBit q.flashHal (b2n south) }

/-- A bank failed, in the fault record and in the flash. -/
def State.markBank (s : State) (n b : Nat) : State :=
  (s.modAo fun a => { a with badBanks := Tab.set a.badBanks 0 n (put (Tab.get a.badBanks 0 n) b b 1) }).modSec fun q =>
    { q with flashBanks := Tab.set q.flashBanks 0 n (put (Tab.get q.flashBanks 0 n) b b 1) }

/-- A core fenced, in the fault record and in the flash. -/
def State.markCore (s : State) (n p : Nat) : State :=
  (s.modAo fun a => { a with fenced := Tab.set a.fenced 0 n (put (Tab.get a.fenced 0 n) p p 1) }).modSec fun q =>
    { q with flashFence := Tab.set q.flashFence 0 n (put (Tab.get q.flashFence 0 n) p p 1) }

@[simp] theorem State.markCore_keeps (n p : Nat) :
    (s.markCore n p).fault = s.fault ∧ (s.markCore n p).nets = s.nets ∧ (s.markCore n p).louts = s.louts ∧
    (s.markCore n p).sector = s.sector ∧ (s.markCore n p).net = s.net ∧ (s.markCore n p).ao.time = s.ao.time ∧
    (s.markCore n p).ao.epoch = s.ao.epoch := by
  repeat' constructor

/-- A bank other than 0 and 1 is marked and no more. -/
theorem State.failBank_eq_markBank (n b : Nat) (hb : 2 ≤ b) : s.failBank n b = s.markBank n b :=
  if_neg (Nat.not_lt.mpr hb)

theorem State.fencePhys_eq_markCore (n p : Nat) : s.fencePhys n p = (s.markCore n p).fenceMap n p := rfl

theorem faultHandling_halyardFenced (hserving : s.ao.serving = true) (south : Bool) :
    ∃ t, exec (.faultHandling (.halyardFenced south)) s = .next t ∧
      t.fault.log = (faultEntry s.now classDegraded 8 (b2n south) 2 0 s.ao.epoch 0 :: s.fault.log).take 16384 ∧
      t.ao = (if south then { s.ao with southFenced := true } else { s.ao with northFenced := true }) ∧
      t.sec = { s.sec with flashHal := nsetBit s.sec.flashHal (b2n south) } ∧ nbit t.fault.events 2 = true ∧
      State.KeepsBut [.fault, .pcie, .out, .ctr, .ao, .sec] s t := by
  have hexec : exec (.faultHandling (.halyardFenced south)) s =
      .next (s.platform ((s.markHalyard south).logFault classDegraded 8 (b2n south) 2)) := by
    rw [exec_faultHandling, execFaultHandling, hserving]
    rfl
  have hnow : (s.markHalyard south).now = s.now := by cases south <;> rfl
  have hepoch : (s.markHalyard south).ao.epoch = s.ao.epoch := by cases south <;> rfl
  obtain ⟨hlog, hevent⟩ := platform_logFault_degraded s (s.markHalyard south) 8 (b2n south) 2 0 0 rfl hnow hepoch
  exact ⟨_, hexec, hlog, by simp [State.markHalyard], by simp [State.markHalyard], hevent, by simp [State.markHalyard]⟩

theorem faultHandling_bankUnrepairable (hserving : s.ao.serving = true) (n : SectorId) (b : Fin 64) (hb : 2 ≤ b.val) :
    ∃ t, exec (.faultHandling (.bankUnrepairable n b)) s = .next t ∧
      t.fault.log =
        (faultEntry s.now classDegraded 7 (32 * n.val) 2 (0x20000 * b.val) s.ao.epoch 0 :: s.fault.log).take 16384 ∧
      Tab.get t.ao.badBanks 0 n.val = put (Tab.get s.ao.badBanks 0 n.val) b.val b.val 1 ∧
      Tab.get t.sec.flashBanks 0 n.val = put (Tab.get s.sec.flashBanks 0 n.val) b.val b.val 1 ∧
      nbit t.fault.events 2 = true ∧ State.KeepsBut [.fault, .pcie, .out, .ctr, .ao, .sec] s t := by
  have hexec : exec (.faultHandling (.bankUnrepairable n b)) s =
      .next (s.platform ((s.markBank n.val b.val).logFault classDegraded 7 (32 * n.val) 2 (0x20000 * b.val))) := by
    rw [exec_faultHandling, execFaultHandling, hserving, ← s.failBank_eq_markBank n.val b.val hb]
    rfl
  obtain ⟨hlog, hevent⟩ :=
    platform_logFault_degraded s (s.markBank n.val b.val) 7 (32 * n.val) 2 (0x20000 * b.val) 0 rfl rfl rfl
  exact ⟨_, hexec, hlog, by simp [State.markBank], by simp [State.markBank], hevent, by simp [State.markBank]⟩

/-! ### A core fenced at a step boundary -/

/-- A network goes on without core c. -/
def NetSt.without (n : NetSt) (c : Nat) : NetSt := { n with cores := n.cores.filter (· != c) }

theorem NetSt.without_of_not_contains {n : NetSt} {c : Nat} (h : ¬ n.cores.contains c = true) : n.without c = n := by
  have hkeep : n.cores.filter (· != c) = n.cores :=
    List.filter_eq_self.mpr fun x hx => bne_iff_ne.mpr fun hxc => h (by simpa [hxc] using hx)
  rw [NetSt.without, hkeep]

/-- Every network of a list goes on without core c. -/
theorem State.foldl_without (c : Nat) (l : List Nat) (t : State)
    (ht : t = l.foldl (fun s k => if (s.net k).cores.contains c then s.modNet k fun x => x.without c else s) s) :
    (∀ k, t.net k = if k ∈ l then (s.net k).without c else s.net k) ∧ State.KeepsBut [.nets] s t := by
  subst ht
  refine ⟨fun k => ?_, .foldl (fun u k => by simp) l s⟩
  induction l generalizing s with
  | nil => simp
  | cons j l ih =>
    have hstep : (if (s.net j).cores.contains c then s.modNet j fun x => x.without c else s).net k =
        if k = j then (s.net k).without c else s.net k := by
      split
      · rw [State.modNet_def, State.net_setNet]
        split
        · next h => rw [h]
        · rfl
      · next h =>
        split
        · next hk => rw [hk, NetSt.without_of_not_contains h]
        · rfl
    rw [List.foldl_cons, ih, hstep]
    obtain rfl | hne := eq_or_ne k j
    · simp [NetSt.without]
    · simp [hne]

/-- An index that becomes UNAVAILABLE: its networks go on without it, and in ensign mode the pins may go to their initial
states. -/
theorem State.unavailable_effect (n i : Nat) :
    ((s.unavailable n i).sector n).mstate i = 2 ∧
    State.SectorsBut [n] s (s.unavailable n i) ∧
    (∀ k, k < 16 → ((s.unavailable n i).net k).cores = (s.net k).cores.filter (· != 16 * n + i)) ∧
    (s.fault.ensActive = false → (s.unavailable n i).louts = s.louts) ∧
    State.KeepsBut [.sectors, .nets, .louts] s (s.unavailable n i) := by
  unfold State.unavailable
  extract_lets core marked left
  obtain ⟨hnet, hleft⟩ := marked.foldl_without core (upTo 16) left rfl
  clear_value left
  have hsector (m : Nat) : left.sector m = marked.sector m := by simp only [State.sector, hleft.sectors_eq]
  have hself : (left.sector n).mstate i = 2 := by simp [hsector, marked, SectorSt.mstate]
  have hothers : State.SectorsBut [n] s left := fun m hm => by
    have hne : m ≠ n := by simpa using hm
    simp [hsector, marked, hne]
  have hcores : ∀ k, k < 16 → (left.net k).cores = (s.net k).cores.filter (· != 16 * n + i) := fun k hk => by
    simp [hnet, upTo, hk, NetSt.without, marked, core]
  have hkeep : State.KeepsBut [.sectors, .nets, .louts] s left :=
    .trans (t := marked) (by simp [marked]) (hleft.mono (by decide))
  split
  · next hpins =>
    have hactive : left.fault.ensActive = true := by simp_all
    rw [hkeep.fault_eq] at hactive
    exact ⟨by simp [hself], fun m hm => by simp [hothers m hm], fun k hk => by simp [hcores k hk], by simp [hactive],
      by simpa using hkeep⟩
  · exact ⟨hself, hothers, hcores, fun _ => hleft.louts_eq, hkeep⟩

/-- The map entry of a fenced core moves to a valid spare. -/
theorem State.fenceMap_of_spare {n p i : Nat} (hcarried : (s.sector n).carried p = some i)
    (hspare : (s.sector n).spareValid = true) : s.fenceMap n p = s.modSector n fun q =>
      { q with mapPhys := Tab.set q.mapPhys i i (s.sector n).spareIndex, spareValid := false } := by
  rw [State.fenceMap, hcarried]
  simp [hspare]

/-- Without a valid spare it becomes UNAVAILABLE. -/
theorem State.fenceMap_of_no_spare {n p i : Nat} (hcarried : (s.sector n).carried p = some i)
    (hspare : (s.sector n).spareValid = false) : s.fenceMap n p = s.unavailable n i := by
  rw [State.fenceMap, hcarried]
  simp [hspare]

/-- What the fence of a physical core that carries index i does to the core map, in either case. -/
theorem State.fenceMap_effect {n p i : Nat} (hcarried : (s.sector n).carried p = some i) :
    ((s.sector n).spareValid = true → ((s.fenceMap n p).sector n).phys i = (s.sector n).spareIndex ∧
      ((s.fenceMap n p).sector n).mstate i = (s.sector n).mstate i ∧
      ((s.fenceMap n p).sector n).spareValid = false ∧ (s.fenceMap n p).nets = s.nets) ∧
    ((s.sector n).spareValid = false → ((s.fenceMap n p).sector n).mstate i = 2 ∧
      ∀ k, k < 16 → ((s.fenceMap n p).net k).cores = (s.net k).cores.filter (· != 16 * n + i)) ∧
    (s.fault.ensActive = false → (s.fenceMap n p).louts = s.louts) ∧
    State.SectorsBut [n] s (s.fenceMap n p) ∧ State.KeepsBut [.sectors, .nets, .louts] s (s.fenceMap n p) := by
  cases hspare : (s.sector n).spareValid with
  | true =>
    rw [s.fenceMap_of_spare hcarried hspare]
    refine ⟨fun _ => by simp [SectorSt.phys, SectorSt.mstate], nofun, fun _ => by simp, fun m hm => ?_, by simp⟩
    have hne : m ≠ n := by simpa using hm
    simp [hne]
  | false =>
    rw [s.fenceMap_of_no_spare hcarried hspare]
    obtain ⟨hself, hothers, hcores, hlouts, hkeep⟩ := s.unavailable_effect n i
    exact ⟨nofun, fun _ => ⟨hself, hcores⟩, hlouts, hothers, hkeep⟩

/-- A core that its test finds wrong, in a sector without a migration and at a step boundary. -/
theorem faultHandling_selftestMismatch (hserving : s.ao.serving = true) (n : SectorId) (p : Fin 17) (misr : BitVec 32)
    (i : Nat) (hmig : (s.sector n.val).mig = none) (hcarried : (s.sector n.val).carried p.val = some i)
    (hboundary : s.atStepBoundary (16 * n.val + i) = true) :
    ∃ t, exec (.faultHandling (.selftestMismatch n p misr)) s = .next t ∧
      t.fault.log =
        (faultEntry s.now classDegraded 7 (32 * n.val + p.val) 2 0 s.ao.epoch misr.toNat :: s.fault.log).take 16384 ∧
      Tab.get t.ao.fenced 0 n.val = put (Tab.get s.ao.fenced 0 n.val) p.val p.val 1 ∧
      ((s.sector n.val).spareValid = true → (t.sector n.val).phys i = (s.sector n.val).spareIndex ∧
        (t.sector n.val).mstate i = (s.sector n.val).mstate i ∧ (t.sector n.val).spareValid = false ∧ t.nets = s.nets) ∧
      ((s.sector n.val).spareValid = false → (t.sector n.val).mstate i = 2 ∧
        ∀ k, k < 16 → (t.net k).cores = (s.net k).cores.filter (· != 16 * n.val + i)) ∧
      (s.fault.ensActive = false → t.louts = s.louts) ∧
      State.SectorsBut [n.val] s t ∧ State.KeepsBut [.fault, .pcie, .out, .ctr, .ao, .sec, .sectors, .nets, .louts] s t := by
  have hexec : exec (.faultHandling (.selftestMismatch n p misr)) s = .next (s.platform
      (((s.markCore n.val p.val).fenceMap n.val p.val).logFault classDegraded 7 (32 * n.val + p.val) 2 0 misr.toNat)) := by
    have hmigFault : s.migFault n.val p.val = s := by rw [State.migFault, hmig]
    have hany : ((s.sector n.val).carried p.val).any (fun i => !s.atStepBoundary (16 * n.val + i)) = false := by
      rw [hcarried, Option.any_some, hboundary]
      rfl
    rw [exec_faultHandling, execFaultHandling, hserving]
    simp only [Bool.not_true, Bool.false_eq_true, if_false, hany, hmigFault, State.fencePhys_eq_markCore]
  have hfenced : Tab.get (s.markCore n.val p.val).ao.fenced 0 n.val = put (Tab.get s.ao.fenced 0 n.val) p.val p.val 1 := by
    simp [State.markCore]
  have hmark : State.KeepsBut [.fault, .pcie, .out, .ctr, .ao, .sec, .sectors, .nets, .louts] s (s.markCore n.val p.val) := by
    simp [State.markCore]
  obtain ⟨hmoved, hlost, hlouts, hothers, hkeep⟩ :=
    (s.markCore n.val p.val).fenceMap_effect (n := n.val) (p := p.val) (i := i) (by simpa using hcarried)
  have hao := hkeep.ao_eq
  have hfault := hkeep.fault_eq
  obtain ⟨hlog, -⟩ := platform_logFault_degraded s ((s.markCore n.val p.val).fenceMap n.val p.val) 7 (32 * n.val + p.val) 2 0
    misr.toNat (by simp [hfault]) (by simp [State.now, hao]) (by simp [hao])
  simp only [State.markCore_keeps] at hmoved hlost hlouts
  refine ⟨_, hexec, hlog, by simpa [hao] using hfenced, by simpa using hmoved, by simpa using hlost,
    by simpa using hlouts, fun m hm => by simpa using hothers m hm, ?_⟩
  simpa using hmark.trans (hkeep.mono (by decide))

/-- Settles O50: the ways of a trigger are the three effects of an entry, and each fault source is its lemma above. -/
theorem ensignAndFaults : Obligations.EnsignAndFaults := by
  unfold Obligations.EnsignAndFaults
  refine ⟨fun s b htrig hset hinactive hnone => ?_, fun s hserving => ⟨faultHandling_notice s hserving,
    faultHandling_halyardFenced s hserving, faultHandling_bankUnrepairable s hserving,
    faultHandling_selftestMismatch s hserving⟩⟩
  obtain ⟨hexec, hbeat⟩ := exec_ensignTrigger s b htrig
  have hready : s.ensignReady := ⟨hset, hinactive, hnone⟩
  exact ⟨fun hpower hserving => ⟨_, hexec, hbeat, enterEnsign_serving_effect _ hready hpower hserving⟩,
    fun hpower hserving => ⟨_, hexec, hbeat, enterEnsign_waits_effect _ hready hpower hserving⟩,
    fun hpower => ⟨_, hexec, hbeat, enterEnsign_asleep_effect _ hready hpower⟩⟩

end Sys2Proof.Machine
end

section
/-! PROOF. One draw of the xorshift generator (O6, 02 R58): the shifted exclusive ors bit by bit, and the state and the draw
that they make. -/

namespace Sys2Proof.Machine

/-! ### One shifted exclusive or -/

/-- Bit i of one left step of the generator: it meets the bit k places below, where there is one. -/
theorem getLsbD_xor_shiftLeft_self (x : Word64) (k : Nat) {i : Nat} (hi : i < 64) :
    (x ^^^ (x <<< k)).getLsbD i = (x.getLsbD i ^^ (decide (k ≤ i) && x.getLsbD (i - k))) := by
  have hfrom : (!decide (i < k)) = decide (k ≤ i) := by simp [← decide_not]
  rw [BitVec.getLsbD_xor, BitVec.getLsbD_shiftLeft, hfrom, decide_eq_true hi, Bool.true_and]

/-- Bit i of one right step of the generator: it meets the bit k places above, and a zero beyond the word (a logical shift). -/
theorem getLsbD_xor_ushiftRight_self (x : Word64) (k i : Nat) :
    (x ^^^ (x >>> k)).getLsbD i = (x.getLsbD i ^^ (decide (i + k < 64) && x.getLsbD (i + k))) := by
  have hword : x.getLsbD (i + k) = (decide (i + k < 64) && x.getLsbD (i + k)) := by
    by_cases hin : i + k < 64
    · simp [hin]
    · simp [hin, BitVec.getLsbD_of_ge x (i + k) (by omega)]
  rw [BitVec.getLsbD_xor, BitVec.getLsbD_ushiftRight, Nat.add_comm k i, ← hword]

/-! ### The generator -/

/-- The three steps chained, each named, so that a proof can speak of the words between them. -/
theorem rngNext_eq {x a b : Word64} (ha : a = x ^^^ (x <<< 13)) (hb : b = a ^^^ (a >>> 7)) :
    rngNext x = b ^^^ (b <<< 17) := by
  subst ha hb
  rfl

/-- Bits [15:0] as the remainder by which R58's program text writes them. -/
theorem rngDraw_eq (x : Word64) : rngDraw x = x.toNat % 2 ^ 16 := rfl

/-- Settles O6: the bits determine the words between the shifts, so the new state is the third step of the second word. -/
theorem xorshiftDraw : Obligations.XorshiftDraw := by
  unfold Obligations.XorshiftDraw
  intro x a b ha hb
  have hleft : a = x ^^^ (x <<< 13) :=
    BitVec.eq_of_getLsbD_eq fun i hi => (ha i hi).trans (getLsbD_xor_shiftLeft_self x 13 hi).symm
  have hright : b = a ^^^ (a >>> 7) :=
    BitVec.eq_of_getLsbD_eq fun i hi => (hb i hi).trans (getLsbD_xor_ushiftRight_self a 7 i).symm
  refine ⟨fun i hi => ?_, rngDraw_eq _⟩
  rw [rngNext_eq hleft hright, getLsbD_xor_shiftLeft_self b 17 hi]

end Sys2Proof.Machine
end

section
/-! SUPPORT. Counting and tracing at a core (20 R508, R510, R515 to R517): they change the core's programmable counters and
SEQ_INT_STATUS, the trace staging of its sector and counter slots. `State.Becomes` says that a core becomes another one while no more
than that happens beside it; the rules below it carry it over the operations of a command, one after the other. -/

namespace Sys2Proof.Machine

/-! ### A core becomes another one -/

/-- A core with other programmable counters, another SEQ_INT_STATUS and another credit in use. -/
def CoreSt.noted (k : CoreSt) (pmcs : Tab Pmc) (ints used : Nat) : CoreSt :=
  { k with pmcs := pmcs, intStatus := ints, creditUsed := used }

/-- A sector without its staged trace records. -/
def SectorSt.untraced (q : SectorSt) : SectorSt := { q with traceStage := [], traceGap := false }

/-- Between s and t core c becomes k, but for what counting changes in it (the STEP interrupt stands as k has it); no core but c and
those listed differs, its sector differs in staged trace records alone, and of the other parts only counters and those of l. -/
structure State.Becomes (l : List Part) (cs : List Nat) (c : Nat) (k : CoreSt) (s t : State) : Prop where
  core : ∃ pmcs ints used, t.core c = k.noted pmcs ints used ∧ nbit ints 0 = nbit k.intStatus 0
  cores : State.CoresBut (c :: cs) s t
  sector : (t.sector (sectorOf c)).untraced = (s.sector (sectorOf c)).untraced
  sectors : State.SectorsBut [sectorOf c] s t
  keeps : State.KeepsBut (.cores :: .sectors :: .ctr :: l) s t

/-- Core c stands as it was, but for what counting changes. -/
abbrev State.Notes (l : List Part) (cs : List Nat) (c : Nat) (s t : State) : Prop := s.Becomes l cs c (s.core c) t

variable {l : List Part} {cs : List Nat} {c : Nat} {k : CoreSt} {s t u : State}

namespace State.Becomes

theorem refl : State.Notes l cs c s s where
  core := ⟨_, _, _, rfl, rfl⟩
  cores _ _ := rfl
  sector := rfl
  sectors _ _ := rfl
  keeps := .refl

theorem trans (h : s.Becomes l cs c k t) (h' : t.Notes l cs c u) : s.Becomes l cs c k u where
  core := by
    obtain ⟨p, i, n, hcore, hint⟩ := h.core
    obtain ⟨p', i', n', hcore', hint'⟩ := h'.core
    exact ⟨p', i', n', by rw [hcore', hcore]; rfl, by rw [hint', hcore]; exact hint⟩
  cores d hd := (h'.cores d hd).trans (h.cores d hd)
  sector := h'.sector.trans h.sector
  sectors n hn := (h'.sectors n hn).trans (h.sectors n hn)
  keeps := h.keeps.trans h'.keeps

/-- Whatever core c was, it may be replaced. -/
theorem setCore (h : s.Becomes l cs c k t) (k' : CoreSt) : s.Becomes l cs c k' (t.setCore c k') where
  core := ⟨_, _, _, State.core_setCore_self .., rfl⟩
  cores d hd := by
    have hne : d ≠ c := fun hdc => hd (by simp [hdc])
    rw [State.core_setCore_ne _ _ _ _ hne, h.cores d hd]
  sector := h.sector
  sectors := h.sectors
  keeps := by simpa using h.keeps

/-- A change of the core that neither reads nor writes what counting changes. -/
theorem modCore (h : s.Becomes l cs c k t) (f : CoreSt → CoreSt)
    (hf : ∀ k p i n, f (k.noted p i n) = (f k).noted p i n ∧ (f k).intStatus = k.intStatus) :
    s.Becomes l cs c (f k) (t.modCore c f) := by
  obtain ⟨p, i, n, hcore, hint⟩ := h.core
  have hset := h.setCore (f (t.core c))
  refine { hset with core := ⟨p, i, n, ?_, by rw [hint, (hf k p i n).2]⟩ }
  rw [State.modCore_def, State.core_setCore_self, hcore, (hf k p i n).1]

/-- A field of the core that counting does not change. -/
theorem get {α : Type} (h : s.Becomes l cs c k t) (f : CoreSt → α)
    (hf : ∀ p i n, f (k.noted p i n) = f k := by exact fun _ _ _ => rfl) : f (t.core c) = f k := by
  obtain ⟨p, i, n, hcore, -⟩ := h.core
  rw [hcore, hf]

theorem step_interrupt (h : s.Becomes l cs c k t) : nbit (t.core c).intStatus 0 = nbit k.intStatus 0 := by
  obtain ⟨p, i, n, hcore, hint⟩ := h.core
  rw [hcore]
  exact hint

theorem keepsBut {l' : List Part} (h : s.Becomes l cs c k t)
    (hl : (.cores :: .sectors :: .ctr :: l) ⊆ l' := by decide) : State.KeepsBut l' s t := h.keeps.mono hl

/-- A field of any sector that tracing does not change. -/
theorem sector_get {α : Type} (h : s.Becomes l cs c k t) (n : Nat) (f : SectorSt → α)
    (hf : ∀ q : SectorSt, f q.untraced = f q := by exact fun _ => rfl) : f (t.sector n) = f (s.sector n) := by
  by_cases hn : n = sectorOf c
  · rw [hn, ← hf, h.sector, hf]
  · rw [h.sectors n (by simpa using hn)]

theorem sameBytes (h : s.Becomes l cs c k t) (hl : Part.gddr ∉ l := by decide) : s.SameBytes t :=
  ⟨by rw [h.keeps.gddr_eq (by simpa using hl)], fun n => h.sector_get n (·.mem)⟩

theorem net_eq (h : s.Becomes l cs c k t) (hl : Part.nets ∉ l := by decide) : t.net = s.net := by
  funext n
  rw [State.net, h.keeps.nets_eq (by simpa using hl), State.net]

/-- The network of the core, where the core stays in it. -/
theorem netOf_eq (h : s.Becomes l cs c k t) (hk : k.net = (s.core c).net) (hl : Part.nets ∉ l := by decide) :
    t.netOf c = s.netOf c := by
  rw [State.netOf, h.get (·.net), hk, h.net_eq hl, State.netOf]

end State.Becomes

/-! ### What counting and tracing do -/

theorem State.Notes.foldl {β : Type} {f : State → β → State} (hf : ∀ s x, State.Notes l cs c s (f s x)) (xs : List β)
    (s : State) : State.Notes l cs c s (xs.foldl f s) := by
  induction xs generalizing s with
  | nil => exact .refl
  | cons x xs ih => exact (hf s x).trans (ih (f s x))

theorem State.Notes.ite {b : Prop} [Decidable b] (ht : State.Notes l cs c s t) (hu : State.Notes l cs c s u) :
    State.Notes l cs c s (if b then t else u) := by
  split
  · exact ht
  · exact hu

theorem State.notes_ctrPut {scope idx id sub kind v : Nat} : s.Notes l cs c (s.ctrPut scope idx id sub kind v) where
  core := ⟨_, _, _, rfl, rfl⟩
  cores _ _ := rfl
  sector := rfl
  sectors _ _ := rfl
  keeps := by simp

theorem State.notes_ctrAdd {scope idx id sub kind inc : Nat} : s.Notes l cs c (s.ctrAdd scope idx id sub kind inc) :=
  .ite .refl notes_ctrPut

theorem State.notes_countSec {n id sub inc : Nat} : s.Notes l cs c (s.countSec n id sub inc) := notes_ctrAdd

theorem State.notes_traceSector {kind unit mark step a b : Nat} :
    s.Notes l cs c (s.traceSector (sectorOf c) kind unit mark step a b) := by
  have hset (q : SectorSt) (hq : q.untraced = (s.sector (sectorOf c)).untraced) : s.Notes l cs c (s.setSector (sectorOf c) q) :=
    { core := ⟨_, _, _, rfl, rfl⟩
      cores := fun _ _ => rfl
      sector := by rw [State.sector_setSector_self, hq]
      sectors := fun n hn => State.sector_setSector_ne _ _ _ _ (by simpa using hn)
      keeps := by simp }
  dsimp only [State.traceSector]
  split
  · refine (hset _ ?_).trans notes_countSec
    rfl
  · exact hset _ rfl

theorem State.notes_traceCore {bit kind a b : Nat} : s.Notes l cs c (s.traceCore c bit kind a b) :=
  .ite notes_traceSector .refl

theorem State.notes_traceSampled {bit kind a b skip : Nat} : s.Notes l cs c (s.traceSampled c bit kind a b skip).2 := by
  dsimp only [State.traceSampled]
  split
  · split
    · exact notes_traceCore
    · exact .refl
  · exact .refl

/-- A raised interrupt other than STEP. -/
theorem State.notes_raiseSeq {i : Nat} (hi : i ≠ 0) : s.Notes l cs c (s.raiseSeq c i) := by
  have hset : s.Becomes l cs c _ (s.raiseSeq c i) := State.Becomes.refl.setCore _
  refine { hset with core := ⟨(s.core c).pmcs, nsetBit (s.core c).intStatus i, (s.core c).creditUsed, ?_, ?_⟩ }
  · rw [State.raiseSeq, State.modCore_def, State.core_setCore_self]
    rfl
  · simp [hi]

theorem State.notes_pmcAdd {i inc : Nat} : s.Notes l cs c (s.pmcAdd c i inc) := by
  have hset (p : Tab Pmc) : s.Notes l cs c (s.setCore c { s.core c with pmcs := p }) :=
    { State.Becomes.refl.setCore _ with
      core := ⟨p, (s.core c).intStatus, (s.core c).creditUsed, State.core_setCore_self .., rfl⟩ }
  dsimp only [State.pmcAdd]
  split
  · exact ((hset _).trans (notes_raiseSeq (by decide))).trans notes_traceCore
  · exact hset _

theorem State.notes_pmcEvent {ev inc : Nat} : s.Notes l cs c (s.pmcEvent c ev inc) :=
  .foldl (fun _ _ => .ite notes_pmcAdd .refl) _ s

theorem State.notes_countCoreSub {id sub inc : Nat} : s.Notes l cs c (s.countCoreSub c id sub inc) :=
  .ite .refl (notes_ctrAdd.trans notes_pmcEvent)

theorem State.notes_countCore {id inc : Nat} : s.Notes l cs c (s.countCore c id inc) := notes_countCoreSub

theorem State.notes_level {id v : Nat} : s.Notes l cs c (s.level c id v) := .ite notes_ctrPut .refl

theorem State.notes_dropCore {id ev : Nat} : s.Notes l cs c (s.dropCore c id ev) := notes_countCore.trans notes_traceCore

/-- A guard overflow is also noted for the fault log. -/
theorem State.notes_guardOvf {n : Nat} (hl : Part.fault ∈ l) : s.Notes l cs c (s.guardOvf c n) := by
  have hfault (t : State) (f : FaultSt → FaultSt) : t.Notes l cs c (t.modFault f) :=
    { core := ⟨_, _, _, rfl, rfl⟩
      cores := fun _ _ => rfl
      sector := rfl
      sectors := fun _ _ => rfl
      keeps := by simp [hl] }
  exact .ite .refl ((notes_countCore.trans (notes_raiseSeq (by decide))).trans (hfault _ _))

theorem State.notes_countWb {n : WbCount} (hl : Part.fault ∈ l) : s.Notes l cs c (s.countWb c n) :=
  ((notes_countCore.trans notes_countCore).trans notes_countCore).trans (notes_guardOvf hl)

/-! ### The end of an event -/

@[simp] theorem State.evDone_flow (e : EvItem) (f : Nat) (h : f ≠ e.flow - 1) : (s.evDone e).flow f = s.flow f := by
  have hcredit (b : Bool) (d : Nat) (x : CoreSt) : (if b then s.setCore d x else s).flow = s.flow := by cases b <;> rfl
  dsimp only [State.evDone, State.modCore_def]
  split
  · rw [hcredit]
  · rw [State.modFlow_def, State.flow_setFlow_ne _ _ _ _ h, hcredit]

/-- An event that ends frees the credit of a token event in its destination core, and its message is consumed in its flow. -/
theorem State.notes_evDone {e : EvItem} (hflow : e.flow ≠ 0 → Part.flows ∈ l)
    (htok : e.token = true → fld e.ev 57 48 ∈ c :: cs) : s.Notes l cs c (s.evDone e) := by
  have hcredit (d : Nat) (hd : d ∈ c :: cs) :
      s.Notes l cs c (s.modCore d fun k => { k with creditUsed := k.creditUsed - 1 }) := by
    refine { core := ?_, cores := fun x hx => ?_, sector := rfl, sectors := fun _ _ => rfl, keeps := by simp }
    · by_cases hcd : c = d
      · subst hcd
        exact ⟨_, _, (s.core c).creditUsed - 1, State.core_setCore_self .., rfl⟩
      · exact ⟨_, _, _, State.core_setCore_ne _ _ _ _ hcd, rfl⟩
    · exact State.core_setCore_ne _ _ _ _ fun hxd => hx (hxd ▸ hd)
  have hfree : s.Notes l cs c (if e.token && fld e.ev 57 48 < 128 then
      s.modCore (fld e.ev 57 48) fun k => { k with creditUsed := k.creditUsed - 1 } else s) := by
    split
    · next h => exact hcredit _ (htok (by simp_all))
    · exact .refl
  dsimp only [State.evDone]
  split
  · exact hfree
  · next h =>
    refine hfree.trans { core := ⟨_, _, _, rfl, rfl⟩, cores := fun _ _ => rfl, sector := rfl, sectors := fun _ _ => rfl, keeps := ?_ }
    simp [hflow h]

/-! ### Counter slots of a core -/

/-- Counting at a core changes no other slot of core scope than its own, and tracing none. -/
theorem State.ctrAt_core_traceCore (hc : c < 2 ^ 20) {bit kind a b : Nat} {d i sub j : Nat} :
    (s.traceCore c bit kind a b).ctrAt Scope.core d i sub j = s.ctrAt Scope.core d i sub j := by
  have hkey : ckey Scope.core d i sub j ≠ ckey Scope.sector (sectorOf c) Ctr.traceDrop noSub 0 := by
    unfold ckey sectorOf Scope.core Scope.sector Ctr.traceDrop noSub
    omega
  dsimp only [State.traceCore, State.traceSector]
  split
  · split
    · exact (State.ctrAt_ctrPut ..).trans (if_neg hkey)
    · rfl
  · rfl

theorem State.ctrAt_core_traceSampled (hc : c < 2 ^ 20) {bit kind a b skip : Nat} {d i sub j : Nat} :
    (s.traceSampled c bit kind a b skip).2.ctrAt Scope.core d i sub j = s.ctrAt Scope.core d i sub j := by
  dsimp only [State.traceSampled]
  split
  · split
    · exact ctrAt_core_traceCore hc
    · rfl
  · rfl

theorem State.ctrAt_core_pmcEvent (hc : c < 2 ^ 20) {ev inc : Nat} {d i sub j : Nat} :
    (s.pmcEvent c ev inc).ctrAt Scope.core d i sub j = s.ctrAt Scope.core d i sub j := by
  refine foldl_keeps (fun s => s.ctrAt Scope.core d i sub j) (fun u n => ?_) _ _
  split
  · dsimp only [State.pmcAdd]
    split
    · exact ctrAt_core_traceCore hc
    · rfl
  · rfl

/-- The slot of a core counter advances when it counts. -/
theorem State.ctrAt_countCore_self (hc : c < 2 ^ 20) {id inc : Nat} (hinc : inc ≠ 0) :
    (s.countCore c id inc).ctrAt Scope.core c id noSub (if perStep id then 4 else 0) =
      satCtr (s.ctrAt Scope.core c id noSub (if perStep id then 4 else 0) + inc) := by
  rw [State.countCore, State.countCoreSub, if_neg hinc, ctrAt_core_pmcEvent hc, State.ctrAdd, if_neg hinc,
    State.ctrAt_ctrPut, if_pos rfl]

/-- A counter of another number stands. -/
theorem State.ctrAt_countCore_ne (hc : c < 2 ^ 20) {id inc : Nat} {i sub j : Nat} (hid : i ≠ id)
    (hsub : sub < 65536) (hj : j < 8) :
    (s.countCore c id inc).ctrAt Scope.core c i sub j = s.ctrAt Scope.core c i sub j := by
  have hkey (x : Nat) (hx : x < 8) : ckey Scope.core c i sub j ≠ ckey Scope.core c id noSub x := by
    unfold ckey Scope.core noSub
    omega
  have hkind : (if perStep id then 4 else 0) < 8 := by split <;> decide
  unfold State.countCore State.countCoreSub State.ctrAdd
  split
  · rfl
  · rw [ctrAt_core_pmcEvent hc]
    exact (State.ctrAt_ctrPut ..).trans (if_neg (hkey _ hkind))

theorem State.ctrAt_dropCore_self (hc : c < 2 ^ 20) {id ev : Nat} :
    (s.dropCore c id ev).ctrAt Scope.core c id noSub (if perStep id then 4 else 0) =
      satCtr (s.ctrAt Scope.core c id noSub (if perStep id then 4 else 0) + 1) :=
  (ctrAt_core_traceCore hc).trans (ctrAt_countCore_self hc one_ne_zero)

@[simp] theorem State.ctrAt_evDone (e : EvItem) : (s.evDone e).ctrAt = s.ctrAt := by
  have hcredit (b : Bool) (d : Nat) (x : CoreSt) : (if b then s.setCore d x else s).ctrAt = s.ctrAt := by cases b <;> rfl
  dsimp only [State.evDone, State.modCore_def]
  split
  · exact hcredit _ _ _
  · exact hcredit _ _ _

end Sys2Proof.Machine
end

section
/-! PROOF. Events at a core (03 R64 to R71, 05 R124; O8, O9): row lookup and the pop of the receive queue, one lemma for each outcome,
and the receive-queue write. -/

namespace Sys2Proof.Machine

variable {l : List Part} {cs : List Nat} {c : Nat} {k : CoreSt} {s u : State} {p : InPipe}

/-! ### Row lookup -/

/-- What stands in row lookup. -/
def CoreSt.setLookup (k : CoreSt) (x : Option InPipe) : CoreSt := { k with lookup := x }

/-- An event behind those of a slot of the delay ring. -/
def CoreSt.addDelayed (k : CoreSt) (slot : Nat) (e : EvItem) : CoreSt :=
  { k with delay := Tab.set k.delay [] slot (Tab.get k.delay [] slot ++ [e]) }

/-- An event of a reserved type is counted, and no more. -/
theorem State.received_reserved (hfmt : evFmt p.item.ev = 0) (hpfmt : evPfmt p.item.ev < 2)
    (htype : evType p.item.ev = 0 ∨ 6 < evType p.item.ev) : s.received c p = s.countCore c Ctr.typeIgnored := by
  have hform : ¬ (evFmt p.item.ev ≠ 0 || 2 ≤ evPfmt p.item.ev) = true := by simp [hfmt, hpfmt]
  dsimp only [State.received]
  rw [if_neg hform]
  have hno (n : Nat) (h1 : 1 ≤ n) (h6 : n ≤ 6) : evType p.item.ev ≠ n := by omega
  split
  iterate 6 exact absurd ‹_› (hno _ (by decide) (by decide))
  rfl

/-- An event of a forward step that addresses a row goes through row lookup. -/
theorem State.received_row (hfmt : evFmt p.item.ev = 0) (hpfmt : evPfmt p.item.ev < 2)
    (htype : evType p.item.ev = 1 ∨ evType p.item.ev = 2 ∨ evType p.item.ev = 3) (hback : (s.netOf c).backward = false) :
    s.received c p = (s.lookupRow c p).1.modCore c (·.setLookup (s.lookupRow c p).2) := by
  have hform : ¬ (evFmt p.item.ev ≠ 0 || 2 ≤ evPfmt p.item.ev) = true := by simp [hfmt, hpfmt]
  dsimp only [State.received]
  rw [if_neg hform, hback]
  rcases htype with h | h | h <;> rw [h] <;> rfl

/-- A row beyond those loaded, or one that is not enabled. -/
theorem State.lookupRow_disabled
    (hrow : (s.core c).nRows ≤ evRow p.item.ev ∨ (s.core c).rEnable (evRow p.item.ev) = false) :
    s.lookupRow c p = (s.countCore c Ctr.rowDisabled, none) := by
  dsimp only [State.lookupRow]
  rw [if_pos]
  rcases hrow with h | h <;> simp [h]

/-- Row i of core k can take event e: it is loaded and enabled, of the event's kind, and LEARN does not hold its delay. -/
structure CoreSt.RowTakes (k : CoreSt) (i : Nat) (e : Word64) : Prop where
  loaded : i < k.nRows
  enabled : k.rEnable i = true
  outlier : evOutlier e = k.rOutlier i
  free : (k.rDlEn i && k.rPending i) = false

/-- The steps by which the event of p is delayed at core k: none where it comes from the delay ring. -/
def CoreSt.delayOf (k : CoreSt) (p : InPipe) : Nat :=
  if p.released then 0 else min (evDelay p.item.ev + k.rDelay (evRow p.item.ev)) 63

/-- The lookup of a row in use, for an event whose delay is cut to 63 or not. -/
theorem State.lookupRow_takes (h : (s.core c).RowTakes (evRow p.item.ev) p.item.ev) :
    ∃ cut : Bool, (p.released = true → cut = false) ∧ s.lookupRow c p =
      let t := if cut then s.countCore c Ctr.delayClamp else s
      let d := (s.core c).delayOf p
      if d = 0 then (t.modCore c (·.touchRow (evRow p.item.ev)), some { p with looked := true })
      else if 32768 ≤ (s.core c).delayed then
        ((t.countCore c Ctr.delayRingFull).modCore c (·.touchRow (evRow p.item.ev)), some { p with looked := true })
      else (t.modCore c (·.addDelayed (((s.core c).pipeStep + d) % 64) p.item), none) := by
  have huse : ¬ ((s.core c).nRows ≤ evRow p.item.ev || !(s.core c).rEnable (evRow p.item.ev) ||
      (evOutlier p.item.ev != (s.core c).rOutlier (evRow p.item.ev))) = true := by
    simp [h.loaded, h.enabled, h.outlier]
  refine ⟨!p.released && 63 < evDelay p.item.ev + (s.core c).rDelay (evRow p.item.ev), fun hr => by simp [hr], ?_⟩
  dsimp only [State.lookupRow]
  rw [if_neg huse, h.free, if_neg Bool.false_ne_true]
  rfl

/-- What the event of a row in use leaves of core k: without a delay it waits in row lookup, with one it goes to its slot of the
delay ring where the ring has room. -/
theorem State.Becomes.received_takes (h : s.Becomes l cs c k u) (hnet : u.netOf c = s.netOf c)
    (hfmt : evFmt p.item.ev = 0) (hpfmt : evPfmt p.item.ev < 2) (htype : evType p.item.ev = 1 ∨ evType p.item.ev = 2)
    (hback : (s.netOf c).backward = false) (hrow : k.RowTakes (evRow p.item.ev) p.item.ev) :
    ∃ k', s.Becomes l cs c k' (u.received c p) ∧ k'.rq = k.rq ∧ k'.popped = k.popped ∧
      (k.delayOf p = 0 → k'.lookup = some { p with looked := true } ∧ k'.delay = k.delay) ∧
      (k.delayOf p ≠ 0 → k.delayed < 32768 →
        k'.lookup = none ∧ k'.delay = (k.addDelayed ((k.pipeStep + k.delayOf p) % 64) p.item).delay) := by
  have hrow' : (u.core c).RowTakes (evRow p.item.ev) p.item.ev :=
    ⟨by rw [h.get (·.nRows)]; exact hrow.loaded, by rw [h.get (·.rEnable _)]; exact hrow.enabled,
      by rw [h.get (·.rOutlier _)]; exact hrow.outlier, by rw [h.get (·.rDlEn _), h.get (·.rPending _)]; exact hrow.free⟩
  obtain ⟨cut, -, hlookup⟩ := State.lookupRow_takes hrow'
  have hclamp : s.Becomes l cs c k (if cut then u.countCore c Ctr.delayClamp else u) :=
    h.trans (.ite State.notes_countCore .refl)
  rw [State.received_row hfmt hpfmt (htype.imp_right .inl) (hnet ▸ hback), hlookup, h.get (·.delayOf p), h.get (·.delayed),
    h.get (·.pipeStep)]
  dsimp only
  generalize (if cut then u.countCore c Ctr.delayClamp else u) = v at hclamp
  have hwaits {v : State} (hv : s.Becomes l cs c k v) (x : Option InPipe) :
      s.Becomes l cs c ((k.touchRow (evRow p.item.ev)).setLookup x)
        ((v.modCore c (·.touchRow (evRow p.item.ev))).modCore c (·.setLookup x)) :=
    (hv.modCore (·.touchRow _) fun _ _ _ _ => ⟨rfl, rfl⟩).modCore (·.setLookup x) fun _ _ _ _ => ⟨rfl, rfl⟩
  by_cases hd : k.delayOf p = 0
  · rw [if_pos hd]
    exact ⟨_, hwaits hclamp _, rfl, rfl, fun _ => ⟨rfl, rfl⟩, fun hne => absurd hd hne⟩
  · rw [if_neg hd]
    by_cases hfull : 32768 ≤ k.delayed
    · rw [if_pos hfull]
      exact ⟨_, hwaits (hclamp.trans State.notes_countCore) _, rfl, rfl, fun h0 => absurd h0 hd,
        fun _ hroom => absurd hfull (Nat.not_le.mpr hroom)⟩
    · rw [if_neg hfull]
      exact ⟨_, (hclamp.modCore (·.addDelayed _ _) fun _ _ _ _ => ⟨rfl, rfl⟩).modCore (·.setLookup none)
        fun _ _ _ _ => ⟨rfl, rfl⟩, rfl, rfl, fun h0 => absurd h0 hd, fun _ _ => ⟨rfl, rfl⟩⟩

/-! ### The pop -/

variable {e : EvItem} {rest : List EvItem}

/-- The head e of the receive queue has left it, and is counted as popped under its tag. -/
def CoreSt.popHead (k : CoreSt) (e : EvItem) (rest : List EvItem) : CoreSt :=
  { k with rq := rest, popped := Tab.set k.popped 0 e.tag (Tab.get k.popped 0 e.tag + 1) }

/-- The occurrences of the POP record since the last one. -/
def CoreSt.setPopSkip (k : CoreSt) (n : Nat) : CoreSt := { k with popSkip := n }

/-- The head e of the receive queue has left it, and has ended. -/
def State.popEnd (s : State) (c : Nat) (e : EvItem) (rest : List EvItem) : State :=
  ((s.setCore c ((s.core c).popHead e rest)).pmcEvent c 0x305 1).evDone e

/-- The pop is recorded. -/
def State.popTrace (s : State) (c : Nat) (e : EvItem) (skip : Nat) : State :=
  let t := s.traceSampled c 30 1 (evRow e.ev) e.ev.toNat skip
  t.2.modCore c (·.setPopSkip t.1)

/-- The head of the receive queue, tagged for the current step, is popped while the open delay slot is empty. -/
theorem exec_eventPop (c : CoreId) (s : State) (hpop : s.canPop c.val = true)
    (hq : (s.core c.val).rq = e :: rest) (htag : e.tag = (s.core c.val).step % 4)
    (hslot : Tab.get (s.core c.val).delay [] ((s.core c.val).step % 64) = []) :
    exec (.eventPop c) s =
      .next (((s.popEnd c.val e rest).popTrace c.val e (s.core c.val).popSkip).received c.val { item := e }) := by
  have hacts : ¬ (!s.canPop c.val || e.tag ≠ (s.core c.val).step % 4 ||
      !(Tab.get (s.core c.val).delay [] ((s.core c.val).step % 64)).isEmpty) = true := by simp [hpop, htag, hslot]
  change execEventPop c s = _
  dsimp only [execEventPop]
  rw [hq]
  dsimp only
  rw [if_neg hacts]
  rfl

theorem State.popEnd_becomes (hflow : e.flow ≠ 0 → Part.flows ∈ l) (htok : e.token = true → fld e.ev 57 48 ∈ c :: cs) :
    s.Becomes l cs c ((s.core c).popHead e rest) (s.popEnd c e rest) :=
  ((State.Becomes.refl.setCore _).trans State.notes_pmcEvent).trans (State.notes_evDone hflow htok)

theorem State.Becomes.popTrace (h : s.Becomes l cs c k u) (skip : Nat) :
    ∃ n, s.Becomes l cs c (k.setPopSkip n) (u.popTrace c e skip) :=
  ⟨_, (h.trans State.notes_traceSampled).modCore (·.setPopSkip _) fun _ _ _ _ => ⟨rfl, rfl⟩⟩

/-- The event of a row in use that has left the receive queue. -/
theorem State.Becomes.popped_takes (h : s.Becomes l cs c k u) (hnet : k.net = (s.core c).net) (hl : Part.nets ∉ l)
    (hfmt : evFmt e.ev = 0) (hpfmt : evPfmt e.ev < 2) (htype : evType e.ev = 1 ∨ evType e.ev = 2)
    (hback : (s.netOf c).backward = false) (hrow : k.RowTakes (evRow e.ev) e.ev) (skip : Nat) :
    ∃ k', s.Becomes l cs c k' ((u.popTrace c e skip).received c { item := e }) ∧ k'.rq = k.rq ∧ k'.popped = k.popped ∧
      (evDelay e.ev + k.rDelay (evRow e.ev) = 0 → k'.lookup = some { item := e, looked := true } ∧ k'.delay = k.delay) ∧
      ∀ d, d = min (evDelay e.ev + k.rDelay (evRow e.ev)) 63 → d ≠ 0 → k.delayed < 32768 →
        k'.lookup = none ∧ k'.delay = (k.addDelayed ((k.pipeStep + d) % 64) e).delay := by
  obtain ⟨n, htrace⟩ := h.popTrace (e := e) skip
  obtain ⟨k', hk', hrq, hpopped, hnow, hlater⟩ := htrace.received_takes (p := { item := e }) (htrace.netOf_eq hnet hl)
    hfmt hpfmt htype hback ⟨hrow.loaded, hrow.enabled, hrow.outlier, hrow.free⟩
  refine ⟨k', hk', hrq, hpopped, fun h0 => hnow ?_, ?_⟩
  · change min (evDelay e.ev + k.rDelay (evRow e.ev)) 63 = 0
    rw [h0]
    rfl
  · rintro d rfl hd hroom
    exact hlater hd hroom

/-- The pop of an event whose row is in use (O9). -/
theorem eventPop_takes (c : CoreId) (s : State) {e : EvItem} {k : CoreSt} {i : Nat} (hk : k = s.core c.val) (hi : i = evRow e.ev)
    (hpop : s.canPop c.val = true) (hback : (s.netOf c.val).backward = false) (hfmt : evFmt e.ev = 0)
    (hpfmt : evPfmt e.ev < 2) (htype : evType e.ev = 1 ∨ evType e.ev = 2) (hrow : k.RowTakes i e.ev) (rest : List EvItem)
    (hq : k.rq = e :: rest) (htag : e.tag = k.step % 4) (hslot : Tab.get k.delay [] (k.step % 64) = []) :
    ∃ t, exec (.eventPop c) s = .next t ∧ (t.core c.val).rq = rest ∧
      Tab.get (t.core c.val).popped 0 e.tag = Tab.get k.popped 0 e.tag + 1 ∧
      (evDelay e.ev + k.rDelay i = 0 →
        (t.core c.val).lookup = some { item := e, looked := true } ∧ (t.core c.val).delay = k.delay) ∧
      (∀ d, d = min (evDelay e.ev + k.rDelay i) 63 → d ≠ 0 → k.delayed < 32768 →
        (t.core c.val).lookup = none ∧ Tab.get (t.core c.val).delay [] ((k.step + d) % 64) =
          Tab.get k.delay [] ((k.step + d) % 64) ++ [e] ∧
        (∀ x, x ≠ (k.step + d) % 64 → Tab.get (t.core c.val).delay [] x = Tab.get k.delay [] x)) ∧
      (e.flow = 0 → t.flows = s.flows) ∧ State.FlowsBut [e.flow - 1] s t ∧ (e.token = false → State.CoresBut [c.val] s t) ∧
      s.SameBytes t ∧ State.KeepsBut [.sectors, .cores, .ctr, .flows] s t := by
  subst hk hi
  have hstep : (s.core c.val).pipeStep = (s.core c.val).step := by
    have hphase : (s.core c.val).phase = 1 := by simp [State.canPop] at hpop; tauto
    simp [CoreSt.pipeStep, hphase]
  have hrow' : ((s.core c.val).popHead e rest).RowTakes (evRow e.ev) e.ev :=
    ⟨hrow.loaded, hrow.enabled, hrow.outlier, hrow.free⟩
  have hall {l : List Part} {cs : List Nat} (hl : Part.nets ∉ l) (hflow : e.flow ≠ 0 → Part.flows ∈ l)
      (htok : e.token = true → fld e.ev 57 48 ∈ c.val :: cs) :=
    (State.popEnd_becomes (s := s) (rest := rest) hflow htok).popped_takes rfl hl hfmt hpfmt htype hback hrow'
      (s.core c.val).popSkip
  obtain ⟨k', hk', hrq, hpopped, hnow, hlater⟩ := hall (l := [.flows]) (cs := [fld e.ev 57 48]) (by decide) (by simp) (by simp)
  refine ⟨_, exec_eventPop c s hpop hq htag hslot, by rw [hk'.get (·.rq), hrq]; rfl, ?_, ?_, ?_, ?_, ?_, ?_,
    hk'.sameBytes, hk'.keepsBut⟩
  · rw [hk'.get (·.popped), hpopped, CoreSt.popHead, Tab.get_set, if_pos rfl]
  · rw [hk'.get (·.lookup), hk'.get (·.delay)]
    exact hnow
  · intro d hd hne hroom
    obtain ⟨hlookup, hdelay⟩ := hlater d hd hne hroom
    have hget (x : Nat) : Tab.get k'.delay [] x = if x = ((s.core c.val).step + d) % 64
        then Tab.get (s.core c.val).delay [] (((s.core c.val).step + d) % 64) ++ [e] else Tab.get (s.core c.val).delay [] x := by
      rw [hdelay, ← hstep]
      exact Tab.get_set ..
    rw [hk'.get (·.lookup), hk'.get (·.delay)]
    exact ⟨hlookup, by rw [hget, if_pos rfl], fun x hx => by rw [hget, if_neg hx]⟩
  · intro hflow
    obtain ⟨_, h0, -⟩ := hall (l := []) (cs := [fld e.ev 57 48]) (by decide) (absurd hflow) (by simp)
    exact h0.keeps.flows_eq
  · intro f hf
    have hbefore : s.Becomes [] [] c.val _ ((s.setCore c.val ((s.core c.val).popHead e rest)).pmcEvent c.val 0x305 1) :=
      (State.Becomes.refl.setCore _).trans State.notes_pmcEvent
    have hend := State.popEnd_becomes (s := s) (c := c.val) (e := e) (rest := rest) (l := [.flows]) (cs := [fld e.ev 57 48])
      (by simp) (by simp)
    obtain ⟨_, hafter, -⟩ := (State.Becomes.refl (l := []) (cs := []) (c := c.val) (s := s.popEnd c.val e rest)).popped_takes
      rfl (by decide) hfmt hpfmt htype (by rw [hend.netOf_eq rfl]; exact hback)
      ⟨by rw [hend.get (·.nRows)]; exact hrow.loaded, by rw [hend.get (·.rEnable _)]; exact hrow.enabled,
        by rw [hend.get (·.rOutlier _)]; exact hrow.outlier,
        by rw [hend.get (·.rDlEn _), hend.get (·.rPending _)]; exact hrow.free⟩ (s.core c.val).popSkip
    rw [State.flow, hafter.keeps.flows_eq]
    refine (State.evDone_flow e f (by simpa using hf)).trans ?_
    rw [State.flow, hbefore.keeps.flows_eq, State.flow]
  · intro htok
    obtain ⟨_, h0, -⟩ := hall (l := [.flows]) (cs := []) (by decide) (by simp) (by simp [htok])
    exact h0.cores

/-- An event from the delay ring is never delayed again: where its row is in use it waits in row lookup. -/
theorem State.received_released (hfmt : evFmt p.item.ev = 0) (hpfmt : evPfmt p.item.ev < 2)
    (htype : evType p.item.ev = 1 ∨ evType p.item.ev = 2) (hback : (u.netOf c).backward = false)
    (hrow : (u.core c).RowTakes (evRow p.item.ev) p.item.ev) (hrel : p.released = true) :
    u.received c p = (u.modCore c (·.touchRow (evRow p.item.ev))).modCore c (·.setLookup (some { p with looked := true })) := by
  obtain ⟨cut, hcut, hlookup⟩ := State.lookupRow_takes hrow
  have hnow : (u.core c).delayOf p = 0 := if_pos hrel
  rw [received_row hfmt hpfmt (htype.imp_right .inl) hback, hlookup, hcut hrel, hnow]
  rfl

/-- The events of a slot of the delay ring. -/
def CoreSt.setSlot (k : CoreSt) (slot : Nat) (es : List EvItem) : CoreSt := { k with delay := Tab.set k.delay [] slot es }

theorem exec_delaySlotRelease (c : CoreId) (s : State) (hpop : s.canPop c.val = true)
    (hslot : Tab.get (s.core c.val).delay [] ((s.core c.val).step % 64) = e :: rest) :
    exec (.delaySlotRelease c) s =
      .next ((s.setCore c.val ((s.core c.val).setSlot ((s.core c.val).step % 64) rest)).received c.val
        { item := e, released := true }) := by
  change execDelaySlotRelease c s = _
  dsimp only [execDelaySlotRelease]
  rw [hslot, hpop]
  rfl

/-- The oldest event of the open delay slot waits in row lookup (O9). -/
theorem delaySlotRelease_takes (c : CoreId) (s : State) {e : EvItem} {k : CoreSt} {i : Nat} (hk : k = s.core c.val)
    (hi : i = evRow e.ev) (hpop : s.canPop c.val = true) (hback : (s.netOf c.val).backward = false) (hfmt : evFmt e.ev = 0)
    (hpfmt : evPfmt e.ev < 2) (htype : evType e.ev = 1 ∨ evType e.ev = 2) (hrow : k.RowTakes i e.ev) (rest : List EvItem)
    (hslot : Tab.get k.delay [] (k.step % 64) = e :: rest) :
    ∃ t, exec (.delaySlotRelease c) s = .next t ∧ Tab.get (t.core c.val).delay [] (k.step % 64) = rest ∧
      (t.core c.val).lookup = some { item := e, released := true, looked := true } ∧ (t.core c.val).rq = k.rq ∧
      State.CoresBut [c.val] s t ∧ State.KeepsBut [.cores] s t := by
  subst hk hi
  refine ⟨_, exec_delaySlotRelease c s hpop hslot, ?_⟩
  have hothers : State.CoresBut [c.val] s (s.setCore c.val ((s.core c.val).setSlot ((s.core c.val).step % 64) rest)) :=
    fun d hd => State.core_setCore_ne _ _ _ _ (by simpa using hd)
  have hkeeps : State.KeepsBut [.cores] s (s.setCore c.val ((s.core c.val).setSlot ((s.core c.val).step % 64) rest)) := by simp
  have hcore := State.core_setCore_self s c.val ((s.core c.val).setSlot ((s.core c.val).step % 64) rest)
  generalize s.setCore c.val ((s.core c.val).setSlot ((s.core c.val).step % 64) rest) = u at *
  have hnet : u.netOf c.val = s.netOf c.val := by
    rw [State.netOf, State.net, hcore, hkeeps.nets_eq]
    rfl
  have hrow' : (u.core c.val).RowTakes (evRow e.ev) e.ev := by
    rw [hcore]
    exact ⟨hrow.loaded, hrow.enabled, hrow.outlier, hrow.free⟩
  rw [State.received_released (p := { item := e, released := true }) hfmt hpfmt htype (hnet ▸ hback) hrow' rfl]
  simp only [State.modCore_def, State.core_setCore_self]
  rw [hcore]
  refine ⟨(Tab.get_set ..).trans (if_pos rfl), rfl, rfl, fun d hd => ?_, by simpa using hkeeps⟩
  have hne : d ≠ c.val := by simpa using hd
  rw [State.core_setCore_ne _ _ _ _ hne, State.core_setCore_ne _ _ _ _ hne, hothers d hd]

end Sys2Proof.Machine
end

section
/-! PROOF. Events without effect (03 R64; O8). -/

namespace Sys2Proof.Machine

variable {c : Nat} {k : CoreSt} {s u : State} {p : InPipe}

/-- Event e of core k is ignored, and counted as `id`: its type is reserved, or it addresses a row that is not in use. -/
def CoreSt.Ignores (k : CoreSt) (back : Bool) (e : Word64) (id : Nat) : Prop :=
  (evType e = 0 ∨ 6 < evType e) ∧ id = Ctr.typeIgnored ∨
    (evType e = 1 ∨ evType e = 2 ∨ evType e = 3) ∧ back = false ∧ (k.nRows ≤ evRow e ∨ k.rEnable (evRow e) = false) ∧
      id = Ctr.rowDisabled

/-- An event that is ignored is counted, and leaves row lookup free. -/
theorem State.received_ignored {id : Nat} (hfmt : evFmt p.item.ev = 0) (hpfmt : evPfmt p.item.ev < 2)
    (hev : (s.core c).Ignores (s.netOf c).backward p.item.ev id) :
    s.received c p = s.countCore c id ∨ s.received c p = (s.countCore c id).modCore c (·.setLookup none) := by
  obtain ⟨htype, rfl⟩ | ⟨htype, hback, hrow, rfl⟩ := hev
  · exact .inl (received_reserved hfmt hpfmt htype)
  · exact .inr (by rw [received_row hfmt hpfmt htype hback, lookupRow_disabled hrow])

/-- The pop of the head of the receive queue counts in no slot of core scope. -/
theorem State.ctrAt_popTrace_popEnd (hc : c < 2 ^ 20) {e : EvItem} {rest : List EvItem} {skip d i sub j : Nat} :
    ((s.popEnd c e rest).popTrace c e skip).ctrAt Scope.core d i sub j = s.ctrAt Scope.core d i sub j := by
  refine (ctrAt_core_traceSampled hc).trans ?_
  rw [popEnd, ctrAt_evDone]
  exact ctrAt_core_pmcEvent hc

/-- Settles O8: the event leaves the receive queue and is counted; row lookup stays free, and nothing else of the core's events moves. -/
theorem ignoredEventsAreConsumed : Obligations.IgnoredEventsAreConsumed := by
  intro c s e rest id hpop hq htag hslot hfmt hpfmt hev
  have hc : c.val < 2 ^ 20 := c.isLt.trans (by decide)
  have hfree : (s.core c.val).lookup = none := by
    simp [State.canPop] at hpop
    tauto
  have hpopped := State.popEnd_becomes (s := s) (c := c.val) (e := e) (rest := rest) (l := [.flows]) (cs := [fld e.ev 57 48])
    (by simp) (by simp)
  obtain ⟨n, htraced⟩ := hpopped.popTrace (e := e) (s.core c.val).popSkip
  have hctr {i sub j : Nat} := State.ctrAt_popTrace_popEnd (s := s) hc (e := e) (rest := rest)
    (skip := (s.core c.val).popSkip) (d := c.val) (i := i) (sub := sub) (j := j)
  refine ⟨_, exec_eventPop c s hpop hq htag hslot, ?_⟩
  generalize (s.popEnd c.val e rest).popTrace c.val e (s.core c.val).popSkip = u at htraced hctr
  have hev' : (u.core c.val).Ignores (u.netOf c.val).backward e.ev id := by
    rw [CoreSt.Ignores, htraced.netOf_eq rfl, htraced.get (·.nRows), htraced.get (·.rEnable _)]
    exact hev
  obtain ⟨k', hk', hrq, hlookup, hrest⟩ : ∃ k', s.Becomes [.flows] [fld e.ev 57 48] c.val k' (u.received c.val { item := e }) ∧
      k'.rq = rest ∧ k'.lookup = none ∧ k'.acc = (s.core c.val).acc ∧ k'.delay = (s.core c.val).delay ∧
      k'.syn = (s.core c.val).syn ∧ k'.eq = (s.core c.val).eq := by
    have hcount := htraced.trans (State.notes_countCore (id := id) (inc := 1))
    obtain h | h := State.received_ignored (p := { item := e }) hfmt hpfmt hev'
    · rw [h]
      exact ⟨_, hcount, rfl, hfree, rfl, rfl, rfl, rfl⟩
    · rw [h]
      exact ⟨_, hcount.modCore (·.setLookup none) fun _ _ _ _ => ⟨rfl, rfl⟩, rfl, rfl, rfl, rfl, rfl, rfl⟩
  have hcounted : (u.received c.val { item := e }).ctrAt = (u.countCore c.val id).ctrAt := by
    obtain h | h := State.received_ignored (p := { item := e }) hfmt hpfmt hev'
    · rw [h]
    · rw [h]
      rfl
  refine ⟨by rw [hk'.get (·.rq), hrq], by rw [hk'.get (·.lookup), hlookup], by rw [hk'.get (·.acc), hrest.1],
    by rw [hk'.get (·.delay), hrest.2.1], by rw [hk'.get (·.syn), hrest.2.2.1], by rw [hk'.get (·.eq), hrest.2.2.2], ?_, ?_,
    hk'.sameBytes, hk'.keepsBut⟩
  · rw [hcounted, State.ctrAt_countCore_self hc one_ne_zero, hctr]
  · intro i sub j _ hi hsub hj
    rw [hcounted, State.ctrAt_countCore_ne hc hi hsub hj, hctr]

end Sys2Proof.Machine
end

section
/-! PROOF. The receive-queue write (03 R65, 05 R124; O9): the event enters the queue, finds it full, or is late; one lemma for each. -/

namespace Sys2Proof.Machine

variable {l : List Part} {cs : List Nat} {c : Nat} {s : State} {e : EvItem}

/-! ### Step notices -/

/-- A vector that fires changes the PCIe state, what is sent and counters. -/
theorem State.notes_fireIf (hp : Part.pcie ∈ l) (ho : Part.out ∈ l) {was : Bool} {v : Nat} :
    State.Notes l cs c s (fireIf was v s) := by
  obtain ⟨p, o, ct, h⟩ := fireIf_eq_with_parts (s := s) was v
  have hkeeps : State.KeepsBut (.cores :: .sectors :: .ctr :: l) s (fireIf was v s) := by
    unfold fireIf State.fireVector
    split
    · exact .refl
    · split
      · exact .refl
      · split
        · simp [hp]
        · simp [ho]
  rw [h] at hkeeps ⊢
  exact { core := ⟨_, _, _, rfl, rfl⟩, cores := fun _ _ => rfl, sector := rfl, sectors := fun _ _ => rfl, keeps := hkeeps }

/-- A network with one more step notice. -/
def NetSt.notice (n : NetSt) (b : Nat) : NetSt := { n with events := nsetBit n.events b }

/-- A step notice changes the network it is for, and beside it the PCIe state, the counters and what is sent. -/
theorem State.notes_raiseNet (hn : Part.nets ∈ l) (hp : Part.pcie ∈ l) (ho : Part.out ∈ l) {i b : Nat} :
    State.Notes l cs c s (s.raiseNet i b) := by
  have hmod : State.Notes l cs c s (s.modNet i (·.notice b)) :=
    { core := ⟨_, _, _, rfl, rfl⟩, cores := fun _ _ => rfl, sector := rfl, sectors := fun _ _ => rfl, keeps := by simp [hn] }
  exact hmod.trans (State.notes_fireIf hp ho)

theorem State.net_raiseNet {i b j : Nat} : (s.raiseNet i b).net j = if j = i then (s.net i).notice b else s.net j := by
  have hfire : State.Notes [.pcie, .out] [] 0 (s.modNet i (·.notice b)) (s.raiseNet i b) :=
    State.notes_fireIf (by decide) (by decide)
  rw [hfire.net_eq]
  exact State.net_setNet ..

/-- A vector counts in no slot of core scope. -/
theorem State.ctrAt_core_fireIf {was : Bool} {v d i sub j : Nat} :
    (fireIf was v s).ctrAt Scope.core d i sub j = s.ctrAt Scope.core d i sub j := by
  have hkey : ckey Scope.core d i sub j ≠ ckey 0 0 143 noSub 0 := by
    unfold ckey Scope.core noSub
    omega
  unfold fireIf
  split
  · rfl
  · obtain h | ⟨p, h⟩ | h := s.fireVector_cases v
    · rw [h]
    · rw [h]
      rfl
    · rw [h]
      exact (State.ctrAt_ctrPut ..).trans (if_neg hkey)

theorem State.ctrAt_core_raiseNet {i b d id sub j : Nat} :
    (s.raiseNet i b).ctrAt Scope.core d id sub j = s.ctrAt Scope.core d id sub j := State.ctrAt_core_fireIf

/-! ### The write -/

/-- An event behind those of the receive queue. -/
def CoreSt.receive (k : CoreSt) (e : EvItem) : CoreSt := { k with rq := k.rq ++ [e] }

/-- An event under the tag counts as popped. -/
def CoreSt.popUnder (k : CoreSt) (tag : Nat) : CoreSt :=
  { k with popped := Tab.set k.popped 0 tag (Tab.get k.popped 0 tag + 1) }

theorem CoreSt.popped_popUnder_self {k : CoreSt} {tag : Nat} :
    Tab.get (k.popUnder tag).popped 0 tag = Tab.get k.popped 0 tag + 1 := by
  simp [popUnder]

/-- The oldest event granted to a core port of the sector has left it. -/
def SectorSt.setToCore (q : SectorSt) (rest : List Item) : SectorSt := { q with toCore := rest }

theorem exec_receiveQueueWrite (n : SectorId) (s : State) {e : EvItem} {rest : List Item}
    (hq : (s.sector n.val).toCore = .event e :: rest) (hruns : s.sectorRuns n.val = true)
    (hactive : (s.sector n.val).mstate (indexOf (evCore e.ev)) = 0) :
    exec (.receiveQueueWrite n) s = .next ((s.modSector n.val (·.setToCore rest)).rqWrite (evCore e.ev) e) := by
  have hruns' : ¬ (!s.sectorRuns n.val) = true := by simp [hruns]
  have hactive' : ((s.modSector n.val (·.setToCore rest)).sector n.val).mstate (indexOf (evCore e.ev)) = 0 := by
    rw [State.modSector_def, State.sector_setSector_self]
    exact hactive
  change execReceiveQueueWrite n s = _
  dsimp only [execReceiveQueueWrite]
  rw [hq]
  dsimp only
  rw [if_neg hruns']
  refine congrArg _ ?_
  change (s.modSector n.val (·.setToCore rest)).deliver n.val e = _
  dsimp only [State.deliver]
  rw [hactive']
  rfl

theorem State.rqWrite_enters (hshed : (s.netOf c).shed = false)
    (hdue : (s.core c).net = 0 ∨ (e.tag + 4 - s.cutStep c % 4) % 4 < 2)
    (hroom : e.token = true ∨ plainEvents (s.core c).rq + (s.core c).credit < 4096) :
    s.rqWrite c e = (s.setCore c ((s.core c).receive e)).level c Ctr.rqHwm ((s.core c).rq.length + 1) := by
  have hlate : ¬ ((s.core c).net ≠ 0 && 2 ≤ (e.tag + 4 - s.cutStep c % 4) % 4) = true := by
    simp only [Bool.and_eq_true, decide_eq_true_eq]
    omega
  have hfull : ¬ (!e.token && 4096 ≤ plainEvents (s.core c).rq + (s.core c).credit) = true := by
    simp only [Bool.and_eq_true, Bool.not_eq_true', decide_eq_true_eq]
    rintro ⟨htok, hfull⟩
    exact hroom.elim (by simp [htok]) (by omega)
  dsimp only [State.rqWrite]
  rw [if_neg (by simp [hshed]), if_neg hlate, if_neg hfull]
  rfl

theorem State.rqWrite_full (hshed : (s.netOf c).shed = false)
    (hdue : (s.core c).net = 0 ∨ (e.tag + 4 - s.cutStep c % 4) % 4 < 2) (htok : e.token = false)
    (hfull : 4096 ≤ plainEvents (s.core c).rq + (s.core c).credit) :
    s.rqWrite c e = (s.dropCore c Ctr.dropQueue e.ev.toNat).evDone e := by
  have hlate : ¬ ((s.core c).net ≠ 0 && 2 ≤ (e.tag + 4 - s.cutStep c % 4) % 4) = true := by
    simp only [Bool.and_eq_true, decide_eq_true_eq]
    omega
  dsimp only [State.rqWrite]
  rw [if_neg (by simp [hshed]), if_neg hlate, if_pos (by simp [htok, hfull])]

theorem State.rqWrite_late (hshed : (s.netOf c).shed = false) (hnet : (s.core c).net ≠ 0)
    (hlate : 2 ≤ (e.tag + 4 - s.cutStep c % 4) % 4) :
    s.rqWrite c e = ((((s.modCore c (·.popUnder e.tag)).countCore c Ctr.lateArrival).dropCore c Ctr.stepLateDrop
      e.ev.toNat).raiseNet ((s.core c).net - 1) 4).evDone e := by
  dsimp only [State.rqWrite]
  rw [if_neg (by simp [hshed]), if_pos (by simp [hnet, hlate])]
  rfl

/-- An event that ends changes its own flow alone, and none where it came from no message. -/
theorem State.flows_evDone {t : State} (h : t.flows = s.flows) :
    (e.flow = 0 → (t.evDone e).flows = s.flows) ∧ State.FlowsBut [e.flow - 1] s (t.evDone e) := by
  refine ⟨fun h0 => ?_, fun f hf => ?_⟩
  · have hend : State.Notes [] [fld e.ev 57 48] 0 t (t.evDone e) := State.notes_evDone (absurd h0) (by simp)
    rw [hend.keeps.flows_eq, h]
  · rw [State.evDone_flow e f (by simpa using hf), State.flow, h, State.flow]

/-- An event for which the queue has room stands behind those there (O9). -/
theorem rqWrite_enters (hshed : (s.netOf c).shed = false)
    (hdue : (s.core c).net = 0 ∨ (e.tag + 4 - s.cutStep c % 4) % 4 < 2)
    (hroom : e.token = true ∨ plainEvents (s.core c).rq + (s.core c).credit < 4096) :
    (s.rqWrite c e).core c = (s.core c).receive e ∧ (s.rqWrite c e).sector = s.sector ∧
      State.CoresBut [c] s (s.rqWrite c e) ∧ State.KeepsBut [.cores, .ctr] s (s.rqWrite c e) := by
  have hlevel (t : State) (v : Nat) : (t.level c Ctr.rqHwm v).core = t.core ∧ (t.level c Ctr.rqHwm v).sector = t.sector ∧
      State.KeepsBut [.cores, .ctr] t (t.level c Ctr.rqHwm v) := by
    unfold State.level
    split
    · exact ⟨rfl, rfl, by simp⟩
    · exact ⟨rfl, rfl, .refl⟩
  rw [State.rqWrite_enters hshed hdue hroom]
  obtain ⟨hcore, hsector, hkeeps⟩ := hlevel (s.setCore c ((s.core c).receive e)) ((s.core c).rq.length + 1)
  refine ⟨by rw [hcore, State.core_setCore_self], hsector, fun d hd => ?_, State.KeepsBut.trans (by simp) hkeeps⟩
  rw [hcore, State.core_setCore_ne _ _ _ _ (by simpa using hd)]

/-- An event that finds no room is dropped and counted (O9). -/
theorem rqWrite_full (hc : c < 2 ^ 20) (hshed : (s.netOf c).shed = false)
    (hdue : (s.core c).net = 0 ∨ (e.tag + 4 - s.cutStep c % 4) % 4 < 2) (htok : e.token = false)
    (hfull : 4096 ≤ plainEvents (s.core c).rq + (s.core c).credit) :
    State.Notes [.flows] [] c s (s.rqWrite c e) ∧ (s.rqWrite c e).ctrAt Scope.core c Ctr.dropQueue noSub 4 =
      satCtr (s.ctrAt Scope.core c Ctr.dropQueue noSub 4 + 1) ∧
      (e.flow = 0 → (s.rqWrite c e).flows = s.flows) ∧ State.FlowsBut [e.flow - 1] s (s.rqWrite c e) := by
  have hdrop : State.Notes [] [] c s (s.dropCore c Ctr.dropQueue e.ev.toNat) := State.notes_dropCore
  rw [State.rqWrite_full hshed hdue htok hfull]
  refine ⟨State.notes_dropCore.trans (State.notes_evDone (by simp) (by simp [htok])), ?_, State.flows_evDone hdrop.keeps.flows_eq⟩
  rw [State.ctrAt_evDone]
  exact State.ctrAt_dropCore_self hc

/-- An event of another tag is dropped, counted and noted for its network (O9). -/
theorem rqWrite_late (hc : c < 2 ^ 20) (hshed : (s.netOf c).shed = false) (hnet : (s.core c).net ≠ 0)
    (hlate : 2 ≤ (e.tag + 4 - s.cutStep c % 4) % 4) (htok : e.token = false) :
    s.Becomes [.flows, .nets, .pcie, .out] [] c ((s.core c).popUnder e.tag) (s.rqWrite c e) ∧
      nbit ((s.rqWrite c e).net ((s.core c).net - 1)).events 4 = true ∧ State.NetsBut [(s.core c).net - 1] s (s.rqWrite c e) ∧
      (s.rqWrite c e).ctrAt Scope.core c Ctr.stepLateDrop noSub 4 = satCtr (s.ctrAt Scope.core c Ctr.stepLateDrop noSub 4 + 1) ∧
      (e.flow = 0 → (s.rqWrite c e).flows = s.flows) ∧ State.FlowsBut [e.flow - 1] s (s.rqWrite c e) := by
  have hdropped {l : List Part} : s.Becomes l [] c ((s.core c).popUnder e.tag)
      (((s.modCore c (·.popUnder e.tag)).countCore c Ctr.lateArrival).dropCore c Ctr.stepLateDrop e.ev.toNat) :=
    ((State.Becomes.refl.modCore (·.popUnder e.tag) fun _ _ _ _ => ⟨rfl, rfl⟩).trans State.notes_countCore).trans
      State.notes_dropCore
  have hcounted : (((s.modCore c (·.popUnder e.tag)).countCore c Ctr.lateArrival).dropCore c Ctr.stepLateDrop
      e.ev.toNat).ctrAt Scope.core c Ctr.stepLateDrop noSub 4 = satCtr (s.ctrAt Scope.core c Ctr.stepLateDrop noSub 4 + 1) := by
    refine (State.ctrAt_dropCore_self hc).trans ?_
    rw [State.ctrAt_countCore_ne hc (by decide) (by decide) (by decide)]
    rfl
  rw [State.rqWrite_late hshed hnet hlate]
  generalize ((s.modCore c (·.popUnder e.tag)).countCore c Ctr.lateArrival).dropCore c Ctr.stepLateDrop e.ev.toNat = u
    at hdropped hcounted
  have hraise {l : List Part} (hn : Part.nets ∈ l) (hp : Part.pcie ∈ l) (ho : Part.out ∈ l) :
      s.Becomes l [] c ((s.core c).popUnder e.tag) (u.raiseNet ((s.core c).net - 1) 4) :=
    hdropped.trans (State.notes_raiseNet hn hp ho)
  have hend : State.Notes [.flows] [] c _ ((u.raiseNet ((s.core c).net - 1) 4).evDone e) :=
    State.notes_evDone (by simp) (by simp [htok])
  refine ⟨(hraise (by simp) (by simp) (by simp)).trans (State.notes_evDone (by simp) (by simp [htok])), ?_, fun j hj => ?_, ?_,
    State.flows_evDone (hraise (l := [.nets, .pcie, .out]) (by simp) (by simp) (by simp)).keeps.flows_eq⟩
  · simp [hend.net_eq, State.net_raiseNet, NetSt.notice]
  · rw [hend.net_eq, State.net_raiseNet, if_neg (by simpa using hj), State.Becomes.net_eq (hdropped (l := []))]
  · rw [State.ctrAt_evDone, State.ctrAt_core_raiseNet, hcounted]

/-! ### O9 -/

/-- What is granted to the sector's cores changes in the sector alone, and no byte. -/
theorem State.sameBytes_setToCore (s : State) (n : Nat) (rest : List Item) : s.SameBytes (s.modSector n (·.setToCore rest)) := by
  refine ⟨rfl, fun m => ?_⟩
  by_cases hm : m = n
  · subst hm
    rw [State.modSector_def, State.sector_setSector_self]
    rfl
  · rw [State.modSector_def, State.sector_setSector_ne _ _ _ _ hm]

theorem State.SameBytes.trans {s t u : State} (h : s.SameBytes t) (h' : t.SameBytes u) : s.SameBytes u :=
  ⟨h'.1.trans h.1, fun n => (h'.2 n).trans (h.2 n)⟩

/-- Settles O9: the three outcomes of the receive-queue write, and the two ways into row lookup. -/
theorem eventsReachTheCore : Obligations.EventsReachTheCore := by
  refine ⟨?_, ?_⟩
  · intro n s e rest c hce hq hruns hactive hshed
    subst hce
    have hc : evCore e.ev < 2 ^ 20 := lt_of_lt_of_le (Nat.mod_lt _ (by decide)) (by decide : 1024 ≤ 2 ^ 20)
    have hexec := exec_receiveQueueWrite n s hq hruns hactive
    have hq' : (s.modSector n.val (·.setToCore rest)).sector n.val = (s.sector n.val).setToCore rest :=
      State.sector_setSector_self ..
    have hbytes := s.sameBytes_setToCore n.val rest
    have hkeeps {l : List Part} (hl : Part.sectors ∈ l) : State.KeepsBut l s (s.modSector n.val (·.setToCore rest)) := by
      simp [hl]
    refine ⟨fun hdue => ⟨fun hroom => ?_, fun htok hfull => ?_⟩, fun hnet hlate htok => ?_⟩
    · obtain ⟨hcore, hsector, hcores, hk⟩ := rqWrite_enters (s := s.modSector n.val (·.setToCore rest)) hshed hdue hroom
      refine ⟨_, hexec, by rw [hsector, hq']; rfl, hcore, hcores, fun m hm => ?_,
        (hkeeps (by decide)).trans (hk.mono (by decide))⟩
      rw [hsector]
      exact State.sector_setSector_ne _ _ _ _ (by simpa using hm)
    · obtain ⟨ht, hcount, hflows, hothers⟩ :=
        rqWrite_full (s := s.modSector n.val (·.setToCore rest)) hc hshed hdue htok hfull
      exact ⟨_, hexec, by rw [ht.sector_get _ (·.toCore), hq']; rfl, ht.get (·.rq), hcount, hflows, hothers, ht.cores,
        hbytes.trans ht.sameBytes, (hkeeps (by decide)).trans ht.keepsBut⟩
    · obtain ⟨ht, hnotice, hnets, hcount, hflows, hothers⟩ :=
        rqWrite_late (s := s.modSector n.val (·.setToCore rest)) hc hshed hnet hlate htok
      exact ⟨_, hexec, by rw [ht.sector_get _ (·.toCore), hq']; rfl, ht.get (·.rq),
        (congrArg (Tab.get · 0 e.tag) (ht.get (·.popped))).trans CoreSt.popped_popUnder_self, hnotice, hcount, hflows, hothers, ht.cores, hnets,
        hbytes.trans ht.sameBytes, (hkeeps (by decide)).trans ht.keepsBut⟩
  · intro c s e k i hk hi hpop hback hfmt hpfmt htype hloaded henabled houtlier hfree
    exact ⟨eventPop_takes c s hk hi hpop hback hfmt hpfmt htype ⟨hloaded, henabled, houtlier, hfree⟩,
      delaySlotRelease_takes c s hk hi hpop hback hfmt hpfmt htype ⟨hloaded, henabled, houtlier, hfree⟩⟩

end Sys2Proof.Machine
end

section
/-! PROOF. Fetch beats (03 R71 to R75, 06 R145; O10): a beat's columns, one after the other, and what the core is after it. -/

namespace Sys2Proof.Machine

variable {l : List Part} {cs : List Nat} {c i j n m : Nat} {k : CoreSt} {s u : State} {q : Int}

/-! ### One column -/

theorem CoreSt.accTerm_noted {a : Nat} {term : Int} (ps : Tab Pmc) (x y : Nat) :
    (k.noted ps x y).accTerm a j term = ((k.accTerm a j term).1.noted ps x y, (k.accTerm a j term).2) := by
  unfold accTerm
  rw [show (k.noted ps x y).acc56 a = k.acc56 a from rfl]
  dsimp only
  split <;> rfl

theorem accColumn_noted {keep : Bool} (ps : Tab Pmc) (x y : Nat) : accColumn i n q keep (k.noted ps x y, m) j =
    ((accColumn i n q keep (k, m) j).1.noted ps x y, (accColumn i n q keep (k, m) j).2) := by
  unfold accColumn
  dsimp only
  rw [show (k.noted ps x y).cPersist j = k.cPersist j from rfl]
  split
  · rfl
  · rw [show (k.noted ps x y).synWord ((k.noted ps x y).synAddr i j) = k.synWord (k.synAddr i j) from rfl,
      show (k.noted ps x y).mode = k.mode from rfl, show (k.noted ps x y).cExp j = k.cExp j from rfl, CoreSt.accTerm_noted]
    split <;> rfl

theorem modColumn_noted {ch : Nat} (ps : Tab Pmc) (x y : Nat) : modColumn i n ch q (k.noted ps x y, m) j =
    ((modColumn i n ch q (k, m) j).1.noted ps x y, (modColumn i n ch q (k, m) j).2) := by
  unfold modColumn
  dsimp only
  rw [show (k.noted ps x y).cModEn j = k.cModEn j from rfl, show (k.noted ps x y).cRxCh j = k.cRxCh j from rfl]
  split <;> rfl

/-- What a view of the accumulator shows is kept by every step of a fold that keeps it (`foldl_keeps`, for any accumulator). -/
theorem foldl_keeps_view {α β γ : Type} (view : α → γ) {f : α → β → α} (h : ∀ a x, view (f a x) = view a) (xs : List β) (a : α) :
    view (xs.foldl f a) = view a := by
  induction xs generalizing a with
  | nil => rfl
  | cons x xs ih => rw [List.foldl_cons, ih, h]

/-- What the columns of a fetch beat leave of a core, as far as they could reach it. -/
def CoreSt.besideSums (k : CoreSt) : Tab Int × List EvItem × Nat := (k.modBank, k.rq, k.intStatus)

theorem accColumn_besideSums {keep : Bool} {r : CoreSt × Nat} :
    (accColumn i n q keep r j).1.besideSums = r.1.besideSums := by
  have hterm (a : Nat) (term : Int) : (r.1.accTerm a j term).1.besideSums = r.1.besideSums := by
    unfold CoreSt.accTerm
    dsimp only
    split <;> rfl
  unfold accColumn
  dsimp only
  split
  · rfl
  · split
    · exact hterm _ _
    · exact hterm _ _

/-- What the columns of a MODULATOR beat leave of a core, as far as they could reach it. -/
def CoreSt.besideBank (k : CoreSt) : Tab Int × List EvItem × Nat := (k.acc, k.rq, k.intStatus)

theorem modColumn_besideBank {ch : Nat} {r : CoreSt × Nat} : (modColumn i n ch q r j).1.besideBank = r.1.besideBank := by
  unfold modColumn
  dsimp only
  split <;> rfl

/-! ### The columns of a beat -/

/-- The core after the columns of a SPIKE or GRADED beat. -/
def CoreSt.accCols (k : CoreSt) (i n : Nat) (q : Int) (keep : Bool) (cols : List Nat) : CoreSt :=
  (cols.foldl (accColumn i n q keep) (k, 0)).1

/-- The core after the columns of a MODULATOR beat. -/
def CoreSt.modCols (k : CoreSt) (i n ch : Nat) (q : Int) (cols : List Nat) : CoreSt :=
  (cols.foldl (modColumn i n ch q) (k, 0)).1

variable {cols : List Nat}

theorem CoreSt.accCols_besideSums {keep : Bool} : (k.accCols i n q keep cols).besideSums = k.besideSums :=
  foldl_keeps_view (fun r : CoreSt × Nat => r.1.besideSums) (fun _ _ => accColumn_besideSums) cols (k, 0)

theorem CoreSt.modCols_besideBank {ch : Nat} : (k.modCols i n ch q cols).besideBank = k.besideBank :=
  foldl_keeps_view (fun r : CoreSt × Nat => r.1.besideBank) (fun _ _ => modColumn_besideBank) cols (k, 0)

theorem CoreSt.modBank_accCols {keep : Bool} : (k.accCols i n q keep cols).modBank = k.modBank :=
  (Prod.ext_iff.mp accCols_besideSums).1

theorem CoreSt.acc_modCols {ch : Nat} : (k.modCols i n ch q cols).acc = k.acc := (Prod.ext_iff.mp modCols_besideBank).1

theorem CoreSt.accCols_noted {keep : Bool} (ps : Tab Pmc) (x y : Nat) :
    (k.noted ps x y).accCols i n q keep cols = (k.accCols i n q keep cols).noted ps x y := by
  have hfold := List.foldl_hom (fun r : CoreSt × Nat => (r.1.noted ps x y, r.2)) (g₁ := accColumn i n q keep)
    (g₂ := accColumn i n q keep) (l := cols) (init := (k, 0)) fun r j => accColumn_noted ps x y
  exact congrArg Prod.fst hfold

theorem CoreSt.modCols_noted {ch : Nat} (ps : Tab Pmc) (x y : Nat) :
    (k.noted ps x y).modCols i n ch q cols = (k.modCols i n ch q cols).noted ps x y := by
  have hfold := List.foldl_hom (fun r : CoreSt × Nat => (r.1.noted ps x y, r.2)) (g₁ := modColumn i n ch q)
    (g₂ := modColumn i n ch q) (l := cols) (init := (k, 0)) fun r j => modColumn_noted ps x y
  exact congrArg Prod.fst hfold

/-! ### After the columns -/

/-- The fetch port holds p, or is free. -/
def CoreSt.setFetch (k : CoreSt) (x : Option InPipe) : CoreSt := { k with fetch := x }

/-- The code q of an event kept in its row, where the row keeps it. -/
def CoreSt.keepCode (k : CoreSt) (i : Nat) (q : Int) (keep : Bool) : CoreSt :=
  { k with rowW := if k.rTrack i && keep then
      (k.putRow i 4 (nput (k.rowWord i 4) 31 16 (toField 16 (k.rInCode i + q)))).rowW else k.rowW }

theorem CoreSt.keepCode_eq {keep : Bool} : k.keepCode i q keep =
    if k.rTrack i && keep then k.putRow i 4 (nput (k.rowWord i 4) 31 16 (toField 16 (k.rInCode i + q))) else k := by
  unfold keepCode
  split <;> rfl

/-- The code q of an event added to the input sum of its row, where the activation log is on. -/
def CoreSt.addInput (k : CoreSt) (i : Nat) (q : Int) : CoreSt :=
  { k with xsum := if nbit k.trainCfg.toNat 23 then Tab.set k.xsum 0 i (Tab.get k.xsum 0 i + q - k.cZp (k.rStart i)) else k.xsum }

theorem CoreSt.addInput_eq : k.addInput i q = if nbit k.trainCfg.toNat 23 then
    { k with xsum := Tab.set k.xsum 0 i (Tab.get k.xsum 0 i + q - k.cZp (k.rStart i)) } else k := by
  unfold addInput
  split <;> rfl

/-- The core after the last beat of event e to row i: a MODULATOR event leaves no code. -/
def CoreSt.deliver (k : CoreSt) (i : Nat) (e : Word64) (keep : Bool) : CoreSt :=
  if evType e = 3 then k else (k.keepCode i (evQ e) keep).addInput i (evQ e)

/-- The counts of a delivered event. -/
def State.countDelivered (s : State) (c i : Nat) (keep : Bool) : State :=
  let k := s.core c
  let t := (s.countCore c Ctr.eventsDelivered).countCore c Ctr.sopCount (k.rLen i)
  if !keep && (upTo (k.rLen i)).any fun x => k.cPersist (k.rStart i + x) then t.countCore c Ctr.deltaSuperseded else t

theorem State.delivered_eq (s : State) (c i : Nat) (e : Word64) (keep : Bool) : s.delivered c i e keep =
    if evType e = 3 then s.countDelivered c i keep
    else (s.countDelivered c i keep).modCore c fun k => (k.keepCode i (evQ e) keep).addInput i (evQ e) := by
  unfold State.delivered
  dsimp only
  split
  · rfl
  · refine congrArg (State.modCore _ c) (funext fun k => ?_)
    rw [CoreSt.addInput_eq, CoreSt.keepCode_eq]

theorem State.Becomes.delivered (h : s.Becomes l cs c k u) (i : Nat) (e : Word64) (keep : Bool) :
    s.Becomes l cs c (k.deliver i e keep) (u.delivered c i e keep) := by
  have hcount : s.Becomes l cs c k (u.countDelivered c i keep) :=
    (h.trans (State.notes_countCore.trans State.notes_countCore)).trans (.ite State.notes_countCore .refl)
  rw [State.delivered_eq, CoreSt.deliver]
  split
  · exact hcount
  · exact hcount.modCore (fun k => (k.keepCode i (evQ e) keep).addInput i (evQ e)) fun _ _ _ _ => ⟨rfl, rfl⟩

/-! ### A beat -/

variable {p : InPipe}

theorem exec_fetchBeat (c : CoreId) (s : State) (hruns : s.sectorRuns (sectorOf c.val) = true)
    (hlookup : (s.core c.val).lookup = none) (hfetch : (s.core c.val).fetch = some p) (htype : evType p.item.ev ≠ 4) :
    exec (.fetchBeat c) s = .next (if (s.core c.val).rPending (evRow p.item.ev) then s.countCore c.val Ctr.fetchUpdStall
      else (s.pmcEvent c.val 0x301 1).beat c.val p) := by
  have hruns' : ¬ (!s.sectorRuns (sectorOf c.val)) = true := by simp [hruns]
  change execFetchBeat c s = _
  dsimp only [execFetchBeat]
  rw [if_neg hruns', hlookup]
  dsimp only
  rw [hfetch]
  dsimp only
  have hrows : (s.core c.val).fetchRows p.item.ev = [evRow p.item.ev] := if_neg htype
  rw [hfetch]
  dsimp only
  rw [hrows, if_neg htype]
  simp only [List.any_cons, List.any_nil, Bool.or_false]

/-- The core after the columns of a beat of event p. -/
def CoreSt.beatCols (k : CoreSt) (p : InPipe) (keep : Bool) : CoreSt :=
  let i := evRow p.item.ev
  let cols := Machine.beatCols (k.rStart i) (k.rLen i) p.beat
  if evType p.item.ev = 3 then k.modCols i k.pipeStep (evTs p.item.ev) (evQ p.item.ev) cols
  else k.accCols i k.pipeStep (evQ p.item.ev) keep cols

theorem CoreSt.beatCols_noted {keep : Bool} (ps : Tab Pmc) (x y : Nat) :
    (k.noted ps x y).beatCols p keep = (k.beatCols p keep).noted ps x y := by
  unfold beatCols
  dsimp only
  split
  · exact modCols_noted ps x y
  · exact accCols_noted ps x y

theorem CoreSt.beatCols_modulator {keep : Bool} (h : evType p.item.ev = 3) :
    k.beatCols p keep = k.modCols (evRow p.item.ev) k.pipeStep (evTs p.item.ev) (evQ p.item.ev)
      (Machine.beatCols (k.rStart (evRow p.item.ev)) (k.rLen (evRow p.item.ev)) p.beat) := if_pos h

theorem CoreSt.beatCols_products {keep : Bool} (h : evType p.item.ev ≠ 3) :
    k.beatCols p keep = k.accCols (evRow p.item.ev) k.pipeStep (evQ p.item.ev) keep
      (Machine.beatCols (k.rStart (evRow p.item.ev)) (k.rLen (evRow p.item.ev)) p.beat) := if_neg h

theorem CoreSt.beatCols_rest {keep : Bool} :
    (k.beatCols p keep).rq = k.rq ∧ (k.beatCols p keep).intStatus = k.intStatus := by
  by_cases h : evType p.item.ev = 3
  · rw [beatCols_modulator h]
    exact Prod.ext_iff.mp (Prod.ext_iff.mp modCols_besideBank).2
  · rw [beatCols_products h]
    exact Prod.ext_iff.mp (Prod.ext_iff.mp accCols_besideSums).2

/-- The core after a beat of event p: the next one follows, or the port is free and the event is delivered. -/
def CoreSt.beat (k : CoreSt) (p : InPipe) (keep : Bool) : CoreSt :=
  if (p.beat + 1) * 512 < k.rLen (evRow p.item.ev) then (k.beatCols p keep).setFetch (some { p with beat := p.beat + 1 })
  else ((k.beatCols p keep).setFetch none).deliver (evRow p.item.ev) p.item.ev (keep || evType p.item.ev == 3)

/-- The columns of a beat are counted, and their sums stand in the core. -/
def State.beatCols (s : State) (c : Nat) (p : InPipe) (keep : Bool) : State :=
  let k := s.core c
  let i := evRow p.item.ev
  let cols := Machine.beatCols (k.rStart i) (k.rLen i) p.beat
  let t := s.countCore c Ctr.synRdBytes (fetchBytes k.mode (k.rBase i + 512 * p.beat) cols.length)
  if evType p.item.ev = 3 then
    let r := cols.foldl (modColumn i k.pipeStep (evTs p.item.ev) (evQ p.item.ev)) (t.core c, 0)
    (t.setCore c r.1).countCore c Ctr.modSat r.2
  else
    let r := cols.foldl (accColumn i k.pipeStep (evQ p.item.ev) keep) (t.core c, 0)
    (t.setCore c r.1).guardOvf c r.2

theorem State.Becomes.beatCols (h : s.Becomes l cs c k u) (hl : Part.fault ∈ l) (keep : Bool) :
    s.Becomes l cs c (k.beatCols p keep) (u.beatCols c p keep) := by
  have hcount := h.trans (State.notes_countCore (id := Ctr.synRdBytes) (inc := fetchBytes k.mode
    (k.rBase (evRow p.item.ev) + 512 * p.beat)
    (Machine.beatCols (k.rStart (evRow p.item.ev)) (k.rLen (evRow p.item.ev)) p.beat).length))
  unfold State.beatCols
  dsimp only
  rw [h.get (·.pipeStep), h.get (·.rLen _), h.get (·.rStart _), h.get (·.mode), h.get (·.rBase _)]
  by_cases htype : evType p.item.ev = 3
  · rw [if_pos htype, CoreSt.beatCols_modulator htype]
    refine (hcount.modCore (fun k' => k'.modCols (evRow p.item.ev) k.pipeStep (evTs p.item.ev) (evQ p.item.ev)
      (Machine.beatCols (k.rStart (evRow p.item.ev)) (k.rLen (evRow p.item.ev)) p.beat)) fun _ _ _ _ => ⟨?_, ?_⟩).trans
      State.notes_countCore
    · exact CoreSt.modCols_noted _ _ _
    · exact (Prod.ext_iff.mp (Prod.ext_iff.mp CoreSt.modCols_besideBank).2).2
  · rw [if_neg htype, CoreSt.beatCols_products htype]
    refine (hcount.modCore (fun k' => k'.accCols (evRow p.item.ev) k.pipeStep (evQ p.item.ev) keep
      (Machine.beatCols (k.rStart (evRow p.item.ev)) (k.rLen (evRow p.item.ev)) p.beat)) fun _ _ _ _ => ⟨?_, ?_⟩).trans
      (State.notes_guardOvf hl)
    · exact CoreSt.accCols_noted _ _ _
    · exact (Prod.ext_iff.mp (Prod.ext_iff.mp CoreSt.accCols_besideSums).2).2

/-- The products of the beat of p at core c are kept in persistent columns (05 R131). -/
def State.keeps (s : State) (c : Nat) (p : InPipe) : Bool :=
  !((s.netOf c).refreshStep (s.core c).pipeStep) || p.item.refresh || evRing p.item.ev

theorem State.beat_eq (s : State) (c : Nat) (p : InPipe) : s.beat c p =
    if (p.beat + 1) * 512 < (s.core c).rLen (evRow p.item.ev) then
      (s.beatCols c p (s.keeps c p)).modCore c (·.setFetch (some { p with beat := p.beat + 1 }))
    else ((s.beatCols c p (s.keeps c p)).modCore c (·.setFetch none)).delivered c (evRow p.item.ev) p.item.ev
      (s.keeps c p || evType p.item.ev == 3) := by
  have hnet (id inc : Nat) : (s.countCore c id inc).netOf c = s.netOf c :=
    (State.notes_countCore (l := []) (cs := [])).netOf_eq rfl
  unfold State.beat
  dsimp only
  rw [hnet]
  rfl

theorem State.Becomes.beat (h : s.Becomes l cs c k u) (hl : Part.fault ∈ l) :
    s.Becomes l cs c (k.beat p (u.keeps c p)) (u.beat c p) := by
  have hfetch (x : Option InPipe) := (h.beatCols (p := p) hl (u.keeps c p)).modCore (·.setFetch x) fun _ _ _ _ => ⟨rfl, rfl⟩
  rw [State.beat_eq, CoreSt.beat, h.get (·.rLen _)]
  split
  · exact hfetch _
  · exact (hfetch none).delivered _ _ _

theorem CoreSt.fetch_beat {keep : Bool} : (k.beat p keep).fetch =
    if (p.beat + 1) * 512 < k.rLen (evRow p.item.ev) then some { p with beat := p.beat + 1 } else none := by
  unfold beat deliver
  split
  · rfl
  · split <;> rfl

/-- A field that neither the fetch port nor the delivery of an event changes is as the beat's columns leave it. -/
theorem CoreSt.beat_get {α : Type} {keep : Bool} (f : CoreSt → α)
    (hf : ∀ (k : CoreSt) (x : Option InPipe) (i : Nat) (q : Int) (b : Bool), f (k.setFetch x) = f k ∧
      f (((k.setFetch x).keepCode i q b).addInput i q) = f k := by exact fun _ _ _ _ _ => ⟨rfl, rfl⟩) :
    f (k.beat p keep) = f (k.beatCols p keep) := by
  unfold beat deliver
  split
  · exact (hf _ _ 0 0 false).1
  · split
    · exact (hf _ _ 0 0 false).1
    · exact (hf _ _ _ _ _).2

/-- Settles O10: the beat of a pending row is counted and waits; another one's columns stand in the core. -/
theorem fetchBeatsAccumulate : Obligations.FetchBeatsAccumulate := by
  intro c s p k i ty cols hk hi hty hcols hruns hlookup hfetch htype
  subst hk hi hty hcols
  have hexec := exec_fetchBeat c s hruns hlookup hfetch (by omega)
  refine ⟨fun hpending => ?_, fun hfree => ?_⟩
  · rw [if_pos hpending] at hexec
    have ht : State.Notes [] [] c.val s (s.countCore c.val Ctr.fetchUpdStall) := State.notes_countCore
    exact ⟨_, hexec, (ht.get (·.fetch)).trans hfetch, ht.get (·.acc), ht.get (·.modBank),
      State.ctrAt_countCore_self (c.isLt.trans (by decide)) one_ne_zero, ht.cores, ht.sameBytes, ht.keepsBut⟩
  · rw [if_neg (by simp [hfree])] at hexec
    have hevent : State.Notes [.fault] [] c.val s (s.pmcEvent c.val 0x301 1) := State.notes_pmcEvent
    have hkeeps : (s.pmcEvent c.val 0x301 1).keeps c.val p = (!((s.netOf c.val).refreshStep (s.core c.val).pipeStep) ||
        p.item.refresh || evRing p.item.ev) := by
      rw [State.keeps, hevent.netOf_eq rfl, hevent.get (·.pipeStep)]
    have ht := hevent.beat (p := p) (by decide)
    rw [hkeeps] at ht
    refine ⟨_, hexec, by rw [ht.get (·.fetch), CoreSt.fetch_beat], fun hne r hr => ?_, fun h3 => ?_, ?_, ht.cores,
      ht.sameBytes, ht.keepsBut⟩
    · subst hr
      rw [ht.get (·.acc), ht.get (·.touched), ht.get (·.wake), ht.get (·.modBank), CoreSt.beat_get (·.acc),
        CoreSt.beat_get (·.touched), CoreSt.beat_get (·.wake), CoreSt.beat_get (·.modBank), CoreSt.beatCols_products hne]
      exact ⟨rfl, rfl, rfl, CoreSt.modBank_accCols⟩
    · rw [ht.get (·.acc), ht.get (·.modBank), CoreSt.beat_get (·.acc), CoreSt.beat_get (·.modBank), CoreSt.beatCols_modulator h3]
      exact ⟨rfl, CoreSt.acc_modCols⟩
    · rw [ht.get (·.rq), CoreSt.beat_get (·.rq)]
      exact CoreSt.beatCols_rest.1

end Sys2Proof.Machine
end

section
/-! SUPPORT. What FIRE, LEARN and the commands that wait for rows leave of a core: views of it that each of their operations keeps. -/

namespace Sys2Proof.Machine

variable {k k' : CoreSt} {c i j n : Nat} {s t : State}

/-- The queues of a core, its phase and network, and whether the STEP interrupt stands. -/
structure Pipeline where
  /-- receive queue -/
  rq : List EvItem
  /-- emit queue -/
  eq : List EmitItem
  /-- items that wait to enter it -/
  fireWait : List EmitItem
  /-- phase -/
  phase : Nat
  /-- steps that have opened -/
  opens : List Nat
  /-- network -/
  net : Nat
  /-- the STEP interrupt -/
  stepInt : Bool

/-- The pipeline of core k. -/
def CoreSt.pipeline (k : CoreSt) : Pipeline :=
  { rq := k.rq, eq := k.eq, fireWait := k.fireWait, phase := k.phase, opens := k.opens, net := k.net
    stepInt := nbit k.intStatus 0 }

/-! ### FIRE -/

/-- What the evaluation of a column leaves: the pipeline, and the commands that wait. -/
def CoreSt.besideFire (k : CoreSt) : Pipeline × Nat × Nat := (k.pipeline, k.hostMb, k.snapWait)

theorem CoreSt.readDone_besideFire : (k.readDone n j).besideFire = k.besideFire := by
  unfold readDone
  dsimp only
  split
  · rfl
  · split <;> rfl

theorem CoreSt.afterRead_besideFire : (k.afterRead n j).besideFire = k.besideFire := by
  unfold afterRead
  dsimp only
  split
  · rw [readDone_besideFire, readDone_besideFire]
  · rw [readDone_besideFire]

theorem CoreSt.putNeu_besideFire {w : Nat} {v : Word32} : (k.putNeu j w v).besideFire = k.besideFire := rfl

theorem CoreSt.putNrec_besideFire {x : NRec} : (k.putNrec j n x).besideFire = k.besideFire := by
  simp only [putNrec, putNeu_besideFire]

theorem CoreSt.logCodes_besideFire {d seed : Word32} : (k.logCodes j d seed).1.besideFire = k.besideFire := rfl

theorem CoreSt.wakesIn_besideFire (ws : List Nat) : (ws.foldl (fun k w => k.wakeIn n j w) k).besideFire = k.besideFire :=
  foldl_keeps_view CoreSt.besideFire (f := fun k w => k.wakeIn n j w) (fun _ _ => rfl) ws k

theorem fireCol_besideFire {k0 : CoreSt} {all : List ColEval} {refresh quiet : Bool} {r : CoreSt × FireSum} {e : ColEval} :
    (fireCol k0 n all refresh quiet r e).1.besideFire = r.1.besideFire := by
  have hread : (r.1.afterRead n e.j).besideFire = r.1.besideFire := CoreSt.afterRead_besideFire
  unfold fireCol
  dsimp only
  generalize r.1.afterRead n e.j = k at hread
  cases e.out with
  | none =>
    dsimp only
    split
    · split
      · exact CoreSt.logCodes_besideFire.trans hread
      · exact hread
    · exact hread
  | some o =>
    have hrecord (k : CoreSt) (a : Tab Bool) (b : Tab Nat) :
        CoreSt.besideFire { k with emitted := a, postInc := b } = k.besideFire := rfl
    dsimp only
    split
    · exact CoreSt.logCodes_besideFire.trans
        ((CoreSt.wakesIn_besideFire _).trans ((hrecord _ _ _).trans (CoreSt.putNrec_besideFire.trans hread)))
    · exact (CoreSt.wakesIn_besideFire _).trans ((hrecord _ _ _).trans (CoreSt.putNrec_besideFire.trans hread))

/-! ### The issues of a FIRE -/

/-- The emit queue, and the items that wait to enter it. -/
def CoreSt.setItems (k : CoreSt) (eq wait : List EmitItem) : CoreSt := { k with eq := eq, fireWait := wait }

/-- The first m waiting items stand in the emit queue. -/
def CoreSt.takeItems (k : CoreSt) (m : Nat) : CoreSt := k.setItems (k.eq ++ k.fireWait.take m) (k.fireWait.drop m)

/-- Items wait to enter the emit queue. -/
def CoreSt.setWait (k : CoreSt) (items : List EmitItem) : CoreSt := { k with fireWait := items }

theorem issueLen_le (items : List EmitItem) : issueLen items ≤ items.length := by
  cases items with
  | nil => rfl
  | cons x rest => exact Nat.succ_le_succ (List.takeWhile_prefix _).length_le

theorem issueLen_pos {items : List EmitItem} (h : items ≠ []) : 0 < issueLen items := by
  cases items with
  | nil => exact absurd rfl h
  | cons x rest => exact Nat.succ_pos _

theorem CoreSt.takeItems_nil (h : k.fireWait = []) (m : Nat) : k.takeItems m = k := by
  have heq : k.eq ++ k.fireWait.take m = k.eq := by simp [h]
  have hwait : k.fireWait.drop m = k.fireWait := by simp [h]
  rw [takeItems, heq, hwait]
  rfl

/-- The first issue and then the rest are all that waits. -/
theorem CoreSt.takeItems_takeItems (m : Nat) : (k.takeItems m).takeItems (k.takeItems m).fireWait.length = k.takeItems k.fireWait.length := by
  simp only [takeItems, setItems, List.take_length, List.drop_length, List.append_assoc, List.take_append_drop]

theorem CoreSt.admitFuel_succ (fuel : Nat) : admitFuel (fuel + 1) k =
    if issueLen k.fireWait = 0 || 2048 < k.eq.length + issueLen k.fireWait then k
    else admitFuel fuel (k.takeItems (issueLen k.fireWait)) := rfl

/-- Where the first issue finds no room, none enters. -/
theorem CoreSt.admitFuel_stays (fuel : Nat) (h : 2048 < k.eq.length + issueLen k.fireWait) : admitFuel fuel k = k := by
  cases fuel with
  | zero => rfl
  | succ fuel => rw [admitFuel_succ, if_pos (by simp [h])]

/-- Where all that waits finds room, all of it enters, issue by issue. -/
theorem CoreSt.admitFuel_all {fuel : Nat} (hfuel : k.fireWait.length ≤ fuel) (h : k.eq.length + k.fireWait.length ≤ 2048) :
    admitFuel fuel k = k.takeItems k.fireWait.length := by
  induction fuel generalizing k with
  | zero => exact (takeItems_nil (List.length_eq_zero_iff.mp (Nat.le_zero.mp hfuel)) _).symm
  | succ fuel ih =>
    by_cases hnil : k.fireWait = []
    · rw [admitFuel_succ, hnil, if_pos (by simp [issueLen]), takeItems_nil hnil]
    · have hpos := issueLen_pos hnil
      have hle := issueLen_le k.fireWait
      have hgoes : ¬ (issueLen k.fireWait = 0 || 2048 < k.eq.length + issueLen k.fireWait) = true := by
        simp only [Bool.or_eq_true, decide_eq_true_eq]
        omega
      have heq : (k.takeItems (issueLen k.fireWait)).eq.length = k.eq.length + issueLen k.fireWait := by
        simp [takeItems, setItems, hle]
      have hwait : (k.takeItems (issueLen k.fireWait)).fireWait.length = k.fireWait.length - issueLen k.fireWait := by
        simp [takeItems, setItems]
      rw [admitFuel_succ, if_neg hgoes, ih (by omega) (by omega), takeItems_takeItems]

theorem CoreSt.enqueue_stays {items : List EmitItem} (h : 2048 < k.eq.length + issueLen items) :
    k.enqueue items = k.setWait items := admitFuel_stays _ h

theorem CoreSt.enqueue_all {items : List EmitItem} (h : k.eq.length + items.length ≤ 2048) :
    k.enqueue items = k.setItems (k.eq ++ items) [] := by
  refine (admitFuel_all (k := k.setWait items) (Nat.le_refl _) h).trans ?_
  simp only [takeItems, setWait, List.take_length, List.drop_length]
  rfl

/-- The evaluated columns of a forward step leave the touched set empty and no wake request of the step. -/
def CoreSt.setFired (k : CoreSt) (n : Nat) : CoreSt :=
  { k with touched := [], wake := Tab.restrict k.wake fun a => !(n % 64 * 16384 ≤ a && a < n % 64 * 16384 + 16384) }

/-- The evaluated columns of the forward step n of core c. -/
def State.evaluated (s : State) (c n : Nat) : List ColEval :=
  ((s.core c).fireSet n ((s.netOf c).refreshStep (n + 1))).map ((s.core c).evalCol n)

/-- The fire set of core c in step n, its columns written back one after the other. -/
def State.fireCols (s : State) (c n : Nat) : CoreSt × FireSum :=
  let k := s.core c
  let net := s.netOf c
  (s.evaluated c n).foldl (fireCol k n (s.evaluated c n) (net.refreshStep (n + 1)) (net.fwd != 0 && net.pos + 1 == net.fwd))
    ({ k with emitted := [], evaluated := [], postInc := [], deriv := [], seedCode := [] }, {})

/-- The counts of a FIRE of m columns. -/
def State.countFire (s : State) (c m cycles : Nat) (r : FireSum) : State :=
  let s := (s.countCore c Ctr.accSat r.accSat).countCore c Ctr.convSat r.sat
  let s := (s.countCore c Ctr.convNan r.nan).countCore c Ctr.stateNan r.stateNan
  let s := (s.countCore c Ctr.neuronsEvaluated m).countCore c Ctr.stateBytes (64 * m)
  let s := s.pmcEvent c 0x302 cycles
  s.level c Ctr.eqHwm (s.core c).eq.length

variable {l : List Part} {cs : List Nat}

theorem State.notes_countFire {m cycles : Nat} {r : FireSum} : State.Notes l cs c s (s.countFire c m cycles r) :=
  ((((((notes_countCore.trans notes_countCore).trans notes_countCore).trans notes_countCore).trans notes_countCore).trans
    notes_countCore).trans notes_pmcEvent).trans notes_level

/-- The core after the columns of FIRE n: its items enter the emit queue. -/
def State.afterCols (s : State) (c n : Nat) : CoreSt := ((s.fireCols c n).1.setFired n).enqueue (s.fireCols c n).2.items

theorem State.fireForward_eq (s : State) (c n : Nat) : s.fireForward c n = (s.setCore c (s.afterCols c n)).countFire c
    (s.evaluated c n).length ((s.core c).issueCycles ((s.core c).fireSet n ((s.netOf c).refreshStep (n + 1))))
    (s.fireCols c n).2 := by
  unfold State.fireForward State.countFire State.afterCols State.fireCols State.evaluated CoreSt.setFired
  with_reducible rfl

theorem State.becomes_fireForward : s.Becomes l cs c (s.afterCols c n) (s.fireForward c n) := by
  rw [State.fireForward_eq]
  exact (State.Becomes.refl.setCore _).trans State.notes_countFire

theorem State.fireCols_besideFire : (s.fireCols c n).1.besideFire = (s.core c).besideFire :=
  foldl_keeps_view (fun r : CoreSt × FireSum => r.1.besideFire) (fun _ _ => fireCol_besideFire) _ _

/-- The pipeline of a core with the state of its step interrupt. -/
theorem State.Becomes.pipeline (h : s.Becomes l cs c k t) : (t.core c).pipeline = k.pipeline := by
  obtain ⟨p, i, m, hcore, hint⟩ := h.core
  rw [hcore]
  exact congrArg (fun b => { k.pipeline with stepInt := b }) hint

theorem State.fireCols_eq : (s.fireCols c n).1.eq = (s.core c).eq := congrArg (·.1.eq) s.fireCols_besideFire

/-- Where the first issue finds no room, the items of the FIRE wait. -/
theorem State.afterCols_waits (h : 2048 < (s.core c).eq.length + issueLen (s.fireCols c n).2.items) :
    s.afterCols c n = ((s.fireCols c n).1.setFired n).setItems (s.core c).eq (s.fireCols c n).2.items := by
  rw [← s.fireCols_eq (n := n)] at h ⊢
  unfold State.afterCols
  generalize s.fireCols c n = r at h ⊢
  exact CoreSt.enqueue_stays h

/-- Where all items find room, they stand in the emit queue. -/
theorem State.afterCols_enters (h : (s.core c).eq.length + (s.fireCols c n).2.items.length ≤ 2048) :
    s.afterCols c n = ((s.fireCols c n).1.setFired n).setItems ((s.core c).eq ++ (s.fireCols c n).2.items) [] := by
  rw [← s.fireCols_eq (n := n)] at h ⊢
  unfold State.afterCols
  generalize s.fireCols c n = r at h ⊢
  exact CoreSt.enqueue_all h

end Sys2Proof.Machine
end

section
/-! SUPPORT. The end of FIRE (05 R122): the step interrupt, the log frame, the beginning of LEARN, and the wait for the next opening. -/

namespace Sys2Proof.Machine

variable {l : List Part} {cs : List Nat} {k : CoreSt} {c i j n : Nat} {s t u : State}

/-! ### LEARN begins -/

/-- What the beginning of LEARN leaves: the pipeline, the commands that wait, the touched set and the neuron records. -/
def CoreSt.besideLearn (k : CoreSt) : (Pipeline × Nat × Nat) × Tab Bool × Tab Word32 := (k.besideFire, k.touched, k.neuW)

theorem CoreSt.putRow_besideLearn {w v : Nat} : (k.putRow i w v).besideLearn = k.besideLearn := rfl

theorem CoreSt.putCol_besideLearn {w v : Nat} : (k.putCol j w v).besideLearn = k.besideLearn := rfl

theorem CoreSt.setPending_besideLearn {b : Bool} : (k.setPending i b).besideLearn = k.besideLearn := putRow_besideLearn

theorem CoreSt.setMark_besideLearn {b : Bool} : (k.setMark j b).besideLearn = k.besideLearn := putCol_besideLearn

theorem CoreSt.setPendings_besideLearn {b : Bool} (rows : List Nat) :
    (rows.foldl (fun k i => k.setPending i b) k).besideLearn = k.besideLearn :=
  foldl_keeps_view CoreSt.besideLearn (fun _ _ => setPending_besideLearn) rows k

theorem CoreSt.newTrace_besideLearn {set trace last inc : Nat} :
    (k.newTrace set trace last inc n).1.besideLearn = k.besideLearn := by
  have hdraw (k : CoreSt) (g : Word64) : CoreSt.besideLearn { k with rng := g } = k.besideLearn := rfl
  exact hdraw k _

theorem CoreSt.tracesWritten_besideLearn {x : Tab Bool} :
    CoreSt.besideLearn { k with tracesWritten := x } = k.besideLearn := rfl

theorem CoreSt.writePre_besideLearn {r : CoreSt × Nat} {x : Nat × Nat} : (writePre n r x).1.besideLearn = r.1.besideLearn := by
  unfold writePre
  dsimp only
  rw [tracesWritten_besideLearn, putRow_besideLearn, putRow_besideLearn, newTrace_besideLearn]

theorem CoreSt.writePost_besideLearn {r : CoreSt × Nat} {x : Nat × Nat} : (writePost n r x).1.besideLearn = r.1.besideLearn := by
  unfold writePost
  dsimp only
  rw [tracesWritten_besideLearn, putCol_besideLearn, putCol_besideLearn, newTrace_besideLearn]

theorem CoreSt.holdRow_besideLearn : (k.holdRow n i).besideLearn = k.besideLearn := by
  have hcal (k : CoreSt) (x : Tab Bool) : CoreSt.besideLearn { k with rowCal := x } = k.besideLearn := rfl
  exact foldl_keeps_view CoreSt.besideLearn (fun k _ => hcal k _) _ k

theorem CoreSt.learnRetire_besideLearn : k.learnRetire.besideLearn = k.besideLearn := by
  have hrows := CoreSt.setPendings_besideLearn (k := k) (b := false) k.learnSkipped
  unfold learnRetire
  dsimp only
  generalize k.learnSkipped.foldl (fun k i => k.setPending i false) k = k' at hrows
  have hend (k : CoreSt) (a : Tab Int) (b d e : Tab Bool) : CoreSt.besideLearn { k with
      modBank := a, touchedRow := b, rowCal := d, renormMask := e, renormCols := [], learning := false, learnRows := []
      learnSkipped := [], tracesWritten := [], learnGrad := false, learnDsum := [], learnX := [], learnT := f32One } =
      k.besideLearn := rfl
  exact (hend k' _ _ _ _).trans hrows

/-- The marks of columns whose exponent a renormalisation raises are taken. -/
def CoreSt.takeMarks (k : CoreSt) (marks : List Nat) : CoreSt :=
  marks.foldl (fun k j => (k.putCol j 12 (nput (k.colWord j 12) 8 6 (min 7 (k.cExp j + 1)))).setMark j false) k

theorem CoreSt.takeMarks_besideLearn (marks : List Nat) : (k.takeMarks marks).besideLearn = k.besideLearn :=
  foldl_keeps_view CoreSt.besideLearn (fun _ _ => setMark_besideLearn.trans putCol_besideLearn) marks k

/-- The columns that LEARN renormalises. -/
def CoreSt.setRenorm (k : CoreSt) (x : Tab Bool) : CoreSt := { k with renormCols := x }

/-- LEARN n stands in the core, with the rows it holds. -/
def CoreSt.setLearn (k : CoreSt) (n : Nat) (rows : List Nat) : CoreSt :=
  { k with learning := true, learnStep := n, learnRows := rows, learnMark := k.mark }

/-- The traces of step n written at core k, and the count of TRACE_SAT. -/
def CoreSt.writeTraces (k : CoreSt) (n : Nat) : CoreSt × Nat :=
  (k.postWrites n).foldl (CoreSt.writePost n) ((k.preWrites n).foldl (CoreSt.writePre n) (k, 0))

theorem CoreSt.writeTraces_besideLearn : (k.writeTraces n).1.besideLearn = k.besideLearn :=
  (foldl_keeps_view (fun r : CoreSt × Nat => r.1.besideLearn) (fun _ _ => writePost_besideLearn) _ _).trans
    (foldl_keeps_view (fun r : CoreSt × Nat => r.1.besideLearn) (fun _ _ => writePre_besideLearn) _ (k, 0))

/-- The rows touched in step n are held for the walks that follow. -/
def CoreSt.holdRows (k : CoreSt) (n : Nat) (rows : List Nat) : CoreSt := rows.foldl (fun k i => k.holdRow n i) k

theorem CoreSt.holdRows_besideLearn (rows : List Nat) : (k.holdRows n rows).besideLearn = k.besideLearn :=
  foldl_keeps_view CoreSt.besideLearn (fun _ _ => holdRow_besideLearn) rows k

/-- The rows of LEARN n: those of the walk set and those to renormalise. -/
def CoreSt.rowsOfLearn (k : CoreSt) (n : Nat) : List Nat := k.rowsUsed.filter fun i => k.inWalk n i || Tab.get k.renormMask false i

/-- The rows of LEARN n are pending. -/
def CoreSt.learnPending (k : CoreSt) (n : Nat) : CoreSt := (k.rowsOfLearn n).foldl (fun k i => k.setPending i true) k

/-- The marks that LEARN n takes. -/
def CoreSt.learnMarks (k : CoreSt) (n : Nat) : List Nat := (k.learnPending n).listedCols.filter (k.learnPending n).cMark

/-- The core in which the traces of LEARN n are written: its rows are pending and its marks taken. -/
def CoreSt.learnMarked (k : CoreSt) (n : Nat) : CoreSt :=
  let mask := k.rowsUsed.filter fun i => Tab.get k.renormMask false i
  ((k.learnPending n).takeMarks (k.learnMarks n)).setRenorm
    (if mask.isEmpty && (k.learnMarks n).isEmpty then [] else (k.learnMarks n).map fun j => (j, true))

theorem CoreSt.learnMarked_besideLearn : (k.learnMarked n).besideLearn = k.besideLearn := by
  have hset (k : CoreSt) (x : Tab Bool) : (k.setRenorm x).besideLearn = k.besideLearn := rfl
  unfold learnMarked
  dsimp only
  rw [hset, takeMarks_besideLearn, learnPending, setPendings_besideLearn]

/-- The traces of LEARN n are written, and the rows touched in step n are held. -/
def CoreSt.learnTraced (k : CoreSt) (n : Nat) : CoreSt :=
  ((k.learnMarked n).writeTraces n).1.holdRows n ((k.learnMarked n).rowsUsed.filter ((k.learnMarked n).rowTouched n))

/-- The core as LEARN n begins on it. -/
def CoreSt.learnBegin (k : CoreSt) (n : Nat) : CoreSt := (k.learnTraced n).setLearn n (k.rowsOfLearn n)

theorem CoreSt.learnBegin_besideLearn : (k.learnBegin n).besideLearn = k.besideLearn := by
  have hset (k : CoreSt) (rows : List Nat) : (k.setLearn n rows).besideLearn = k.besideLearn := rfl
  rw [learnBegin, hset, learnTraced, holdRows_besideLearn, writeTraces_besideLearn, learnMarked_besideLearn]

theorem State.learnStart_eq (s : State) (c n : Nat) : ∃ a b d, s.learnStart c n =
    ((((s.setCore c ((s.core c).learnBegin n)).countCore c Ctr.renorm a).countCore c Ctr.traceSat b).countCore c Ctr.ruleSat
      d).learnCheck c := by
  refine ⟨((s.core c).learnMarks n).length, (((s.core c).learnMarked n).writeTraces n).2,
    ((((s.core c).learnTraced n).walkCols ((s.core c).rowsUsed.filter ((s.core c).inWalk n))).filter
      fun j => (((s.core c).learnTraced n).modulator n j).2).length, ?_⟩
  unfold State.learnStart CoreSt.learnBegin CoreSt.learnTraced CoreSt.learnMarked CoreSt.writeTraces CoreSt.holdRows
    CoreSt.setLearn CoreSt.setRenorm CoreSt.takeMarks CoreSt.learnMarks CoreSt.learnPending CoreSt.rowsOfLearn
  with_reducible rfl

theorem State.Becomes.besideLearn (h : s.Becomes l cs c k t) : (t.core c).besideLearn = k.besideLearn := by
  unfold CoreSt.besideLearn CoreSt.besideFire
  rw [h.pipeline, h.get (·.hostMb), h.get (·.snapWait), h.get (·.touched), h.get (·.neuW)]

/-- LEARN retires, or not, in a core whose pipeline, touched set and neuron records stay. -/
theorem State.Becomes.learnCheck (h : s.Becomes l cs c k t) :
    ∃ k', s.Becomes l cs c k' (t.learnCheck c) ∧ k'.besideLearn = k.besideLearn := by
  unfold State.learnCheck
  split
  · exact ⟨_, h.setCore (t.core c).learnRetire, CoreSt.learnRetire_besideLearn.trans h.besideLearn⟩
  · exact ⟨k, h, rfl⟩

/-- LEARN begins in a core whose pipeline, touched set and neuron records stay. -/
theorem State.becomes_learnStart : ∃ k', s.Becomes l cs c k' (s.learnStart c n) ∧ k'.besideLearn = (s.core c).besideLearn := by
  obtain ⟨a, b, d, hstart⟩ := s.learnStart_eq c n
  have hcounted : s.Becomes l cs c ((s.core c).learnBegin n) ((((s.setCore c ((s.core c).learnBegin n)).countCore c Ctr.renorm
      a).countCore c Ctr.traceSat b).countCore c Ctr.ruleSat d) :=
    (((State.Becomes.refl.setCore _).trans State.notes_countCore).trans State.notes_countCore).trans State.notes_countCore
  obtain ⟨k', hk', hview⟩ := hcounted.learnCheck
  exact ⟨k', hstart ▸ hk', hview.trans CoreSt.learnBegin_besideLearn⟩

/-! ### The log frame -/

theorem State.gStore_keeps (a : Nat) (bytes : List Byte) : State.KeepsBut [.gddr, .ctr] s (s.gStore a bytes) := by
  have hcheck (xs : List (Nat × Nat)) : State.KeepsBut [.gddr, .ctr] s (xs.foldl (fun s x => s.gCheck (x.1 * 64) 64) s) :=
    .foldl (fun u x => (u.gCheck_keeps _ _).2) xs s
  unfold State.gStore
  split
  · simp
  · simpa using hcheck _

theorem State.gPoke_keeps (a : Nat) (bytes : List Byte) : State.KeepsBut [.gddr, .ctr] s (s.gPoke a bytes) := by
  unfold State.gPoke
  split
  · exact s.gStore_keeps a bytes
  · refine .foldl (fun u x => ?_) _ _
    split
    · simp
    · exact u.gStore_keeps _ _

theorem State.gWrite_keeps (a : Nat) (bytes : List Byte) (cls : GddrClass) :
    State.KeepsBut [.gddr, .ctr] s (s.gWrite a bytes cls) :=
  (s.gPoke_keeps a bytes).trans (((s.gPoke a bytes).gddrCount_keeps a bytes.length cls 1).mono (by decide))

/-- The staged frame of a core. -/
def CoreSt.setFrame (k : CoreSt) (f : Nat) : CoreSt := { k with frameReady := f }

/-- A log frame goes to the staging area and to the activation log. -/
theorem State.writeFrame_keeps (f : Nat) : ((s.writeFrame c n f).core c).besideLearn = (s.core c).besideLearn ∧
    State.KeepsBut [.cores, .sectors, .ctr, .gddr] s (s.writeFrame c n f) := by
  have hframe (k : CoreSt) (f : Nat) : (k.setFrame f).besideLearn = k.besideLearn := rfl
  unfold State.writeFrame
  dsimp only
  split
  · exact ⟨rfl, .refl⟩
  · have hsat : State.Notes [] [] c s (s.countCore c Ctr.convSat ((s.core c).frame n).2) := State.notes_countCore
    have hbytes (t : State) (bytes : Nat) : State.Notes [] [] c t (t.smemCountCore c 1 bytes) := State.notes_countCoreSub
    have hpoke (t : State) (q a : Nat) (bytes : List Byte) : State.KeepsBut [.sectors] t (t.smemPoke q a bytes) := by
      simp [State.smemPoke]
    generalize s.countCore c Ctr.convSat ((s.core c).frame n).2 = t1 at hsat
    have hstaged := hbytes (t1.smemPoke (sectorOf c) ((s.core c).stageAddr f) ((s.core c).frame n).1) ((s.core c).frame n).1.length
    have hstage := hpoke t1 (sectorOf c) ((s.core c).stageAddr f) ((s.core c).frame n).1
    generalize (t1.smemPoke (sectorOf c) ((s.core c).stageAddr f) ((s.core c).frame n).1).smemCountCore c 1
      ((s.core c).frame n).1.length = t2 at hstaged
    have hlog := t2.gWrite_keeps (t2.frameAddr (t2.netOf c) c f) ((s.core c).frame n).1 .compute
    generalize t2.gWrite (t2.frameAddr (t2.netOf c) c f) ((s.core c).frame n).1 .compute = t3 at hlog
    constructor
    · change ((t3.modCore c (·.setFrame (f + 1))).core c).besideLearn = _
      rw [State.modCore_def, State.core_setCore_self, hframe, State.core, hlog.cores_eq]
      exact hstaged.besideLearn.trans hsat.besideLearn
    · have hall : State.KeepsBut [.cores, .sectors, .ctr, .gddr] s t3 :=
        ((hsat.keepsBut.trans (hstage.mono (by decide))).trans hstaged.keepsBut).trans (hlog.mono (by decide))
      simpa using hall

/-! ### FIRE ends -/

/-- The STEP interrupt stands. -/
def CoreSt.raiseStep (k : CoreSt) : CoreSt := { k with intStatus := nsetBit k.intStatus 0 }

/-- What the end of FIRE leaves of a core: its STEP interrupt is raised. -/
theorem CoreSt.besideLearn_raiseStep : k.raiseStep.besideLearn =
    (({ k.pipeline with stepInt := true }, k.hostMb, k.snapWait), k.touched, k.neuW) := by
  have hbit : nbit (nsetBit k.intStatus 0) 0 = true := by simp
  exact congrArg (fun b => (({ k.pipeline with stepInt := b }, k.hostMb, k.snapWait), k.touched, k.neuW)) hbit

/-- The core waits for the next opening. -/
def CoreSt.setPhase (k : CoreSt) (p : Nat) : CoreSt := { k with phase := p }

/-- What the end of FIRE leaves of core k: its STEP interrupt is raised, and it waits for the next opening. -/
def CoreSt.besideEnd (k : CoreSt) : (Pipeline × Nat × Nat) × Tab Bool × Tab Word32 :=
  (({ k.pipeline with stepInt := true, phase := 3 }, k.hostMb, k.snapWait), k.touched, k.neuW)

theorem State.fireEnd_eq (hback : (s.netOf c).backward = false) (hopens : (s.core c).opens = []) : s.fireEnd c =
    (((if (s.netOf c).fwd != 0 then (s.raiseSeq c 0).writeFrame c (s.core c).fireOf (s.netOf c).pos else s.raiseSeq c 0).learnStart
      c (s.core c).fireOf).coreAdvance c) := by
  unfold State.fireEnd
  dsimp only
  rw [hback, if_neg Bool.false_ne_true, hopens]

/-- A core that becomes another one after it became one. -/
theorem State.Becomes.after {k' : CoreSt} (h' : t.Becomes l cs c k' u) (h : s.Becomes l cs c k t) : s.Becomes l cs c k' u where
  core := h'.core
  cores d hd := (h'.cores d hd).trans (h.cores d hd)
  sector := h'.sector.trans h.sector
  sectors m hm := (h'.sectors m hm).trans (h.sectors m hm)
  keeps := h.keeps.trans h'.keeps

theorem State.coreAdvance_eq (hopens : (s.core c).opens = []) : s.coreAdvance c = s.modCore c (·.setPhase 3) := by
  unfold State.coreAdvance
  dsimp only
  rw [hopens]
  rfl

theorem CoreSt.opens_of_besideLearn {k k' : CoreSt} (h : k.besideLearn = k'.besideLearn) : k.opens = k'.opens :=
  congrArg (·.1.1.opens) h

theorem CoreSt.setPhase_besideLearn {k k' : CoreSt} (h : k'.besideLearn = k.raiseStep.besideLearn) :
    (k'.setPhase 3).besideLearn = k.besideEnd :=
  congrArg (fun v => (({ v.1.1 with phase := 3 }, v.1.2), v.2)) (h.trans besideLearn_raiseStep)

/-- FIRE of a forward step ends, no further step having opened: in a network that logs no frames in its core alone. -/
theorem State.fireEnd_forward (hback : (s.netOf c).backward = false) (hopens : (s.core c).opens = []) :
    ((s.fireEnd c).core c).besideLearn = (s.core c).besideEnd ∧
      State.KeepsBut [.cores, .sectors, .ctr, .gddr] s (s.fireEnd c) ∧
      ((s.netOf c).fwd = 0 → ∃ k', s.Becomes [] [] c k' (s.fireEnd c)) := by
  have hraised : s.Becomes [] [] c (s.core c).raiseStep (s.raiseSeq c 0) := State.Becomes.refl.setCore _
  have hstep : ((s.raiseSeq c 0).core c).besideLearn = (s.core c).raiseStep.besideLearn := hraised.besideLearn
  rw [State.fireEnd_eq hback hopens]
  have hframe : ∀ w, w = (if (s.netOf c).fwd != 0 then
        (s.raiseSeq c 0).writeFrame c (s.core c).fireOf (s.netOf c).pos else s.raiseSeq c 0) →
      (w.core c).besideLearn = (s.core c).raiseStep.besideLearn ∧ State.KeepsBut [.cores, .sectors, .ctr, .gddr] s w ∧
      ((s.netOf c).fwd = 0 → w = s.raiseSeq c 0) := by
    rintro w rfl
    split
    · next hfwd =>
      obtain ⟨hview, hkeeps⟩ := (s.raiseSeq c 0).writeFrame_keeps (c := c) (n := (s.core c).fireOf) (s.netOf c).pos
      exact ⟨hview.trans hstep, hraised.keepsBut.trans hkeeps, fun h0 => by simp [h0] at hfwd⟩
    · exact ⟨hstep, hraised.keepsBut, fun _ => rfl⟩
  obtain ⟨hview, hkeeps, hsame⟩ := hframe _ rfl
  generalize (if (s.netOf c).fwd != 0 then
    (s.raiseSeq c 0).writeFrame c (s.core c).fireOf (s.netOf c).pos else s.raiseSeq c 0) = w at hview hkeeps hsame
  obtain ⟨k', hk', hlearn⟩ := State.becomes_learnStart (l := []) (cs := []) (c := c) (n := (s.core c).fireOf) (s := w)
  have hlearnt := hk'.besideLearn.trans (hlearn.trans hview)
  rw [State.coreAdvance_eq ((CoreSt.opens_of_besideLearn hlearnt).trans hopens)]
  have hdone := hk'.modCore (·.setPhase 3) fun _ _ _ _ => ⟨rfl, rfl⟩
  refine ⟨hdone.besideLearn.trans (CoreSt.setPhase_besideLearn (hlearn.trans hview)), hkeeps.trans hdone.keepsBut, fun h0 => ?_⟩
  obtain rfl := hsame h0
  exact ⟨_, hdone.after hraised⟩

end Sys2Proof.Machine
end

section
/-! SUPPORT. The commands that wait for rows of a core (06 R165, 07 R187) go on: what they leave of every core, and the parts they reach. -/

namespace Sys2Proof.Machine

variable {l : List Part} {cs : List Nat} {k : CoreSt} {c i j n m : Nat} {s t u : State}

/-! ### A core -/

/-- What the write-back of a row leaves: the pipeline, the touched set, the neuron records, and the rows of LEARN with the row table. -/
def CoreSt.besideRows (k : CoreSt) : (Pipeline × Tab Bool × Tab Word32) × List Nat × Tab Word32 :=
  ((k.pipeline, k.touched, k.neuW), k.learnRows, k.rowW)

/-- The same, and the commands that wait for the core. -/
def CoreSt.besideWeights (k : CoreSt) : ((Pipeline × Tab Bool × Tab Word32) × List Nat × Tab Word32) × Nat × Nat :=
  (k.besideRows, k.hostMb, k.snapWait)

theorem CoreSt.putSyn_besideWeights {a v : Nat} : (k.putSyn a v).besideWeights = k.besideWeights := rfl

theorem CoreSt.putCol_besideWeights {w v : Nat} : (k.putCol j w v).besideWeights = k.besideWeights := rfl

theorem CoreSt.putAcc_besideWeights {a : Nat} {v : Int} : (k.putAcc a v).besideWeights = k.besideWeights := rfl

theorem CoreSt.setMark_besideWeights {b : Bool} : (k.setMark j b).besideWeights = k.besideWeights := putCol_besideWeights

theorem CoreSt.addSum_besideWeights {d : Int} : (k.addSum j d).besideWeights = k.besideWeights := putCol_besideWeights

theorem CoreSt.putTag_besideWeights {a v : Nat} : (k.putTag a v).besideWeights = k.besideWeights := putSyn_besideWeights

theorem CoreSt.accTerm_besideWeights {a : Nat} {term : Int} : (k.accTerm a j term).1.besideWeights = k.besideWeights := by
  unfold accTerm
  dsimp only
  split
  · exact putCol_besideWeights.trans putAcc_besideWeights
  · exact putAcc_besideWeights

theorem CoreSt.ite_besideWeights {b : Prop} [Decidable b] {x y z : CoreSt} (hx : x.besideWeights = z.besideWeights)
    (hy : y.besideWeights = z.besideWeights) : (if b then x else y).besideWeights = z.besideWeights := by
  split
  · exact hx
  · exact hy

theorem CoreSt.ite_accTerm_besideWeights {b : Prop} [Decidable b] {a : Nat} {term : Int} :
    (if b then k.accTerm a j term else (k, false)).1.besideWeights = k.besideWeights := by
  split
  · exact accTerm_besideWeights
  · rfl

theorem CoreSt.writeWeight_besideWeights {w : Int} {d : Nat} {x : WbCount} :
    (k.writeWeight i j w d x).1.besideWeights = k.besideWeights := by
  have hsum (k' : CoreSt) (b : Prop) [Decidable b] (v : Int) (h : k'.besideWeights = k.besideWeights) :
      (if b then k' else k'.addSum j v).besideWeights = k.besideWeights := ite_besideWeights h (addSum_besideWeights.trans h)
  have hword (a v : Nat) : (k.putSyn a v).besideWeights = k.besideWeights := putSyn_besideWeights
  unfold writeWeight
  dsimp only
  refine ite_besideWeights (setMark_besideWeights.trans ?_) ?_
  · exact ite_accTerm_besideWeights.trans (hsum _ _ _ (hword _ _))
  · exact ite_accTerm_besideWeights.trans (hsum _ _ _ (hword _ _))

/-- The row of a WRITE_WEIGHTS written back. -/
theorem CoreSt.hostRow_besideWeights {body : List Byte} : (k.hostRow i body).1.besideWeights = k.besideWeights := by
  have hmask (k : CoreSt) (x : Tab Bool) : CoreSt.besideWeights { k with renormMask := x } = k.besideWeights := rfl
  have hwords (f : Nat → Int) (g : Nat → Nat) (xs : List Nat) (start : Nat) :
      (xs.foldl (fun (r : CoreSt × WbCount) x => r.1.writeWeight i (start + x) (f x) (g x) r.2) (k, {})).1.besideWeights =
        k.besideWeights :=
    foldl_keeps_view (fun r : CoreSt × WbCount => r.1.besideWeights) (fun _ _ => writeWeight_besideWeights) xs _
  have htags (k : CoreSt) (f g : Nat → Nat) (xs : List Nat) :
      (xs.foldl (fun k x => k.putTag (f x) (g x)) k).besideWeights = k.besideWeights :=
    foldl_keeps_view CoreSt.besideWeights (fun _ _ => putTag_besideWeights) xs k
  unfold hostRow
  dsimp only
  have htagged (b : Prop) [Decidable b] (k' : CoreSt) (f g : Nat → Nat) (xs : List Nat) (h : k'.besideWeights = k.besideWeights) :
      (if b then xs.foldl (fun k x => k.putTag (f x) (g x)) k' else k').besideWeights = k.besideWeights :=
    ite_besideWeights ((htags _ _ _ _).trans h) h
  exact ite_besideWeights (htagged _ _ _ _ _ (hwords _ _ _ _)) ((hmask _ _).trans (htagged _ _ _ _ _ (hwords _ _ _ _)))

theorem CoreSt.hostRow_besideRows {body : List Byte} : (k.hostRow i body).1.besideRows = k.besideRows :=
  congrArg Prod.fst hostRow_besideWeights

/-! ### The state -/

/-- The parts that a waiting command can reach, besides the free values. -/
abbrev settleParts : List Part := mailParts ++ [.cores, .sectors, .gddr, .fault]

/-- From s to t waiting commands have gone on. -/
structure State.Settles (s t : State) : Prop where
  core : ∀ d, (t.core d).besideRows = (s.core d).besideRows
  keeps : State.KeepsBut settleParts s t

namespace State.Settles

theorem refl : State.Settles s s := ⟨fun _ => rfl, .refl⟩

theorem trans (h : s.Settles t) (h' : t.Settles u) : s.Settles u :=
  ⟨fun d => (h'.core d).trans (h.core d), h.keeps.trans h'.keeps⟩

theorem ite {b : Prop} [Decidable b] (ht : s.Settles t) (hu : s.Settles u) : s.Settles (if b then t else u) := by
  split
  · exact ht
  · exact hu

theorem foldl {β : Type} {f : State → β → State} (hf : ∀ s x, State.Settles s (f s x)) (xs : List β) (s : State) :
    s.Settles (xs.foldl f s) := by
  induction xs generalizing s with
  | nil => exact refl
  | cons x xs ih => exact (hf s x).trans (ih _)

theorem of_keepsBut (h : State.KeepsBut l s t) (hl : l ⊆ settleParts := by decide) (hc : Part.cores ∉ l := by decide) :
    s.Settles t :=
  ⟨fun d => by rw [State.core, h.cores_eq hc, State.core], h.mono hl⟩

theorem setCore {k' : CoreSt} (h : k'.besideRows = (s.core c).besideRows) : s.Settles (s.setCore c k') where
  core d := by
    by_cases hd : d = c
    · rw [hd, State.core_setCore_self, h]
    · rw [State.core_setCore_ne _ _ _ _ hd]
  keeps := by simp

theorem modCore {f : CoreSt → CoreSt} (h : (f (s.core c)).besideRows = (s.core c).besideRows) : s.Settles (s.modCore c f) :=
  setCore h

theorem of_notes (h : State.Notes [.fault] [] c s t) : s.Settles t where
  core d := by
    by_cases hd : d = c
    · rw [hd, CoreSt.besideRows, CoreSt.besideRows, h.pipeline, h.get (·.touched), h.get (·.neuW), h.get (·.learnRows),
        h.get (·.rowW)]
    · rw [h.cores d (by simpa using hd)]
  keeps := h.keepsBut

end State.Settles

/-! ### The completion of a command -/

theorem State.keepsBut_fireIf {was : Bool} {v : Nat} : State.KeepsBut [.pcie, .out, .ctr] s (fireIf was v s) := by
  unfold fireIf State.fireVector
  split
  · exact .refl
  · split
    · exact .refl
    · split
      · simp
      · simp

theorem State.keepsBut_traceRing {bit kind unit mark a b : Nat} :
    State.KeepsBut [.sectors, .ctr] s (s.traceRing bit kind unit mark a b) := by
  unfold State.traceRing State.traceSector
  split
  · dsimp only
    split
    · simp [State.countSec, State.count]
    · simp
  · exact .refl

theorem State.keepsBut_raiseMb {m b : Nat} {msix : Bool} : State.KeepsBut mailParts s (s.raiseMb m b msix) := by
  have hset : State.KeepsBut mailParts s (s.modMb m fun x => { x with event := nsetBit x.event b }) := by simp
  unfold State.raiseMb
  dsimp only
  split
  · exact hset.trans (State.keepsBut_fireIf.mono (by decide))
  · exact hset

theorem State.keepsBut_showRecord {m : Nat} {e : JEntry} {r : List Byte} :
    State.KeepsBut mailParts s (s.showRecord m e r) := by
  have hset : State.KeepsBut mailParts s (s.modMb m fun b => { b with comp := memWrite b.comp (64 * (e.seq % 64)) r }) := by simp
  unfold State.showRecord
  dsimp only
  split
  · simpa using hset.trans State.keepsBut_raiseMb
  · exact hset.trans State.keepsBut_raiseMb

theorem State.keepsBut_complete {m : Nat} {e : JEntry} {code reason : Nat} {inline : List Byte} {resBytes : Nat} {short : Bool} :
    State.KeepsBut (mailParts ++ [.sectors]) s (s.complete m e code reason inline resBytes short) := by
  have hset (r : List Byte) : State.KeepsBut (mailParts ++ [.sectors]) s (s.modMb m fun b => { b with
      journal := putEntry b.journal { e with st := 2, record := r }, highDone := max b.highDone e.seq }) := by simp
  exact ((hset _).trans (State.keepsBut_showRecord.mono (by decide))).trans (State.keepsBut_traceRing.mono (by decide))

theorem State.keepsBut_hostWrite {addr : Nat} {bytes : List Byte} : State.KeepsBut [.out, .ctr] s (s.hostWrite addr bytes) := by
  unfold State.hostWrite
  split
  · exact .refl
  · simp

theorem State.keepsBut_finishResult {m : Nat} {e : JEntry} {bytes inline : List Byte} :
    State.KeepsBut (mailParts ++ [.sectors]) s (s.finishResult m e bytes inline) := by
  unfold State.finishResult
  dsimp only
  split
  · exact State.keepsBut_complete
  · exact (State.keepsBut_hostWrite.mono (by decide)).trans State.keepsBut_complete

/-! ### WRITE_WEIGHTS and READ_WEIGHTS go on -/

/-- A command that wakes does what its continuation does. -/
theorem State.settles_wakeCmd {m1 : Nat} {f : State → Nat → JEntry → State} (hf : ∀ m e, s.Settles (f s m e)) :
    s.Settles (s.wakeCmd m1 f) := by
  unfold State.wakeCmd
  split
  · exact .refl
  · split
    · exact .refl
    · exact hf _ _

theorem State.settles_copyRow : s.Settles (s.copyRow c i) := by
  have hset (k : CoreSt) (a : List Nat) (b : List (Nat × List Byte)) :
      CoreSt.besideRows { k with snapTodo := a, snapGot := b } = k.besideRows := rfl
  unfold State.copyRow
  dsimp only
  split
  · exact .refl
  · exact settles_wakeCmd fun _ _ => .modCore (hset _ _ _)

theorem State.settles_copyCols : s.Settles (s.copyCols c) := by
  have hset (k : CoreSt) (a : Option (List Byte)) : CoreSt.besideRows { k with snapCols := a } = k.besideRows := rfl
  unfold State.copyCols
  dsimp only
  split
  · exact .refl
  · exact settles_wakeCmd fun _ _ => .modCore (hset _ _)

theorem State.settles_markDirty : s.Settles (s.markDirty c i) := by
  have hset (k : CoreSt) (a : Tab Bool) : CoreSt.besideRows { k with dirtyRows := a } = k.besideRows := rfl
  unfold State.markDirty
  dsimp only
  split
  · exact .modCore (hset _ _)
  · exact .refl

theorem State.settles_readNow {m step : Nat} {e : JEntry} {cols recs : List Byte} : s.Settles (s.readNow m e step cols recs) := by
  have hread (t : State) (a n : Nat) : t.Settles ((t.gCheck a n).gddrCount a n .compute 0) :=
    .of_keepsBut (l := [.gddr, .ctr]) ((t.gCheck_keeps a n).2.trans (((t.gCheck a n).gddrCount_keeps a n .compute 0).mono (by decide)))
  have hdone (bytes : List Byte) : s.Settles (s.finishResult m e bytes) := .of_keepsBut State.keepsBut_finishResult
  unfold State.readNow
  dsimp only
  split
  · exact (hdone _).trans (.of_notes State.notes_countCore)
  · split
    · exact hdone _
    · exact (hdone _).trans (.foldl (fun _ _ => hread _ _ _) _ _)

/-- The commands that wait for a core, and what is left for them, are no part of the view. -/
theorem CoreSt.waits_besideRows : (∀ a, CoreSt.besideRows { k with hostRows := a } = k.besideRows) ∧
    CoreSt.besideRows { k with hostMb := 0 } = k.besideRows ∧
    CoreSt.besideRows { k with snapWait := 0, snapTodo := [], snapGot := [], snapCols := none } = k.besideRows :=
  ⟨fun _ => rfl, rfl, rfl⟩

/-- A READ_WEIGHTS that waits on core c ends once all of it is copied. -/
def State.snapDone (s : State) (c : Nat) : State :=
  let k := s.core c
  match k.snapCols with
  | some cols =>
    if !k.snapTodo.isEmpty then s
    else
      let recs := (sortNat (k.snapGot.map Prod.fst)).flatMap fun i => ((k.snapGot.find? (·.1 == i)).map Prod.snd).getD []
      (s.wakeCmd k.snapWait fun s m e => s.readNow m e k.snapStep cols recs).modCore c fun k =>
        { k with snapWait := 0, snapTodo := [], snapGot := [], snapCols := none }
  | none => s

theorem State.serveSnap_eq (h : (s.core c).snapWait ≠ 0) : ∃ t, s.Settles t ∧ s.serveSnap c = t.snapDone c := by
  have hrows (t : State) (rows : List Nat) : t.Settles (rows.foldl (fun s i => s.copyRow c i) t) :=
    .foldl (fun _ _ => State.settles_copyRow) rows t
  refine ⟨_, ?_, if_neg h⟩
  exact .ite (State.settles_copyCols.trans (hrows _ _)) State.settles_copyCols

theorem State.settles_snapDone : s.Settles (s.snapDone c) := by
  have hend (t : State) : t.Settles (t.modCore c fun k => { k with snapWait := 0, snapTodo := [], snapGot := [], snapCols := none }) :=
    .setCore CoreSt.waits_besideRows.2.2
  unfold State.snapDone
  dsimp only
  split
  · split
    · exact .refl
    · exact (State.settles_wakeCmd fun _ _ => State.settles_readNow).trans (hend _)
  · exact .refl

theorem State.settles_serveSnap : s.Settles (s.serveSnap c) := by
  by_cases h : (s.core c).snapWait = 0
  · have hnone : s.serveSnap c = s := if_pos h
    rw [hnone]
    exact .refl
  · obtain ⟨t, ht, heq⟩ := State.serveSnap_eq h
    rw [heq]
    exact ht.trans State.settles_snapDone

theorem State.settles_hostApply : s.Settles (s.hostApply c) := by
  have hrow (t : State) (r : Nat × List Byte) (bytes : Nat) : t.Settles ((((((t.copyRow c r.1).setCore c
      (((t.copyRow c r.1).core c).hostRow r.1 r.2).1).countWb c (((t.copyRow c r.1).core c).hostRow r.1 r.2).2).countCore c
      Ctr.synWrBytes bytes).markDirty c r.1)) :=
    (((State.settles_copyRow.trans (.setCore CoreSt.hostRow_besideRows)).trans (.of_notes (State.notes_countWb (by decide)))).trans
      (.of_notes State.notes_countCore)).trans State.settles_markDirty
  have hleft (t : State) (a : List (Nat × List Byte)) : t.Settles (t.modCore c fun k => { k with hostRows := a }) :=
    .setCore (CoreSt.waits_besideRows.1 a)
  have hfree (t : State) : t.Settles (t.modCore c fun k => { k with hostMb := 0 }) := .setCore CoreSt.waits_besideRows.2.1
  have hdone (t : State) (m1 : Nat) : t.Settles (t.wakeCmd m1 fun s m e => s.finish m e) :=
    State.settles_wakeCmd fun _ _ => .of_keepsBut State.keepsBut_complete
  unfold State.hostApply
  dsimp only
  split
  · exact .refl
  · exact .ite ((((State.Settles.foldl (fun _ _ => hrow _ _ _) _ _).trans (hleft _ _)).trans (hdone _ _)).trans (hfree _))
      ((State.Settles.foldl (fun _ _ => hrow _ _ _) _ _).trans (hleft _ _))

theorem State.settles_settle : s.Settles (s.settle c) := State.settles_hostApply.trans State.settles_serveSnap

/-- Where no command waits for the core, none goes on. -/
theorem State.settle_eq (hhost : (s.core c).hostMb = 0) (hsnap : (s.core c).snapWait = 0) : s.settle c = s := by
  have happly : s.hostApply c = s := if_pos hhost
  rw [State.settle, happly]
  exact if_pos hsnap

end Sys2Proof.Machine
end

section
/-! PROOF. FIRE of a forward step (03 R76 to R82, 05 R122; O13): its columns, then its end where all its items find room. -/

namespace Sys2Proof.Machine

variable {c n : Nat} {s t : State}

/-! ### The phase -/

theorem exec_firePhase (c : CoreId) (s : State) (hfire : s.canFire c.val = true) (hback : (s.netOf c.val).backward = false) :
    exec (.firePhase c) s = .next (let t := s.fireForward c.val (s.core c.val).fireOf
      if (t.core c.val).fireWait.isEmpty then ((t.fireEnd c.val).settle c.val).haltCheckOf c.val else t) := by
  change execFirePhase c s = _
  have hfire' : ¬ (!s.canFire c.val) = true := by simp [hfire]
  dsimp only [execFirePhase]
  rw [if_neg hfire', hback, if_neg Bool.false_ne_true]

/-- Where no HALT_RUN waits for the network of the core, none completes. -/
theorem State.haltCheckOf_eq (h : (s.netOf c).halting = 0) : s.haltCheckOf c = s := by
  unfold State.haltCheckOf
  split
  · rfl
  · next hnet =>
    rw [State.netOf, if_neg hnet] at h
    unfold State.haltCheck
    dsimp only
    rw [h]
    rfl

theorem State.Settles.netOf (h : s.Settles t) : t.netOf c = s.netOf c := by
  have hnet : (t.core c).net = (s.core c).net := congrArg (·.1.1.net) (h.core c)
  rw [State.netOf, State.netOf, hnet, State.net, State.net, h.keeps.nets_eq]

/-! ### The columns -/

/-- The core after the columns of FIRE, where its emit queue and the items that wait for it stand as a and b. -/
theorem State.fireForward_core {a b : List EmitItem}
    (h : s.afterCols c n = ((s.fireCols c n).1.setFired n).setItems a b) : ((s.fireForward c n).core c).besideLearn =
      (({ (s.core c).pipeline with eq := a, fireWait := b }, (s.core c).hostMb, (s.core c).snapWait), [],
        (s.fireCols c n).1.neuW) := by
  have hset (k : CoreSt) : ((k.setFired n).setItems a b).besideLearn =
    (({ k.besideFire.1 with eq := a, fireWait := b }, k.besideFire.2), [], k.neuW) := rfl
  have hcols : s.Becomes [] [] c (s.afterCols c n) (s.fireForward c n) := State.becomes_fireForward
  rw [hcols.besideLearn, h, hset, State.fireCols_besideFire]
  rfl

/-! ### O13 -/

theorem State.phase_of_canFire (h : s.canFire c = true) : (s.core c).phase = 2 := by
  simp only [State.canFire, Bool.and_eq_true, beq_iff_eq] at h
  obtain ⟨⟨⟨⟨⟨⟨⟨⟨hphase, -⟩, -⟩, -⟩, -⟩, -⟩, -⟩, -⟩, -⟩ := h
  exact hphase

/-- The first issue of the FIRE finds no room: its items wait, and FIRE goes on (O13). -/
theorem firePhase_waits (c : CoreId) (s : State) {n : Nat} (hn : n = (s.core c.val).fireOf) (hfire : s.canFire c.val = true)
    (hback : (s.netOf c.val).backward = false) (hitems : (s.fireCols c.val n).2.items ≠ [])
    (hfull : 2048 < (s.core c.val).eq.length + issueLen (s.fireCols c.val n).2.items) :
    ∃ t, exec (.firePhase c) s = .next t ∧ (t.core c.val).eq = (s.core c.val).eq ∧
      (t.core c.val).fireWait = (s.fireCols c.val n).2.items ∧ (t.core c.val).phase = 2 ∧
      (t.core c.val).rq = (s.core c.val).rq ∧ (t.core c.val).neuW = (s.fireCols c.val n).1.neuW ∧ s.SameBytes t ∧
      State.CoresBut [c.val] s t ∧ State.KeepsBut [.cores, .sectors, .ctr] s t := by
  have hphase := State.phase_of_canFire hfire
  have hcols : s.Becomes [] [] c.val (s.afterCols c.val n) (s.fireForward c.val n) := State.becomes_fireForward
  have hview := State.fireForward_core (State.afterCols_waits hfull)
  have hexec := exec_firePhase c s hfire hback
  rw [← hn] at hexec
  generalize s.fireForward c.val n = u at hcols hview hexec
  have hwait : (u.core c.val).fireWait = (s.fireCols c.val n).2.items := congrArg (·.1.1.fireWait) hview
  have hgoes : ¬ (u.core c.val).fireWait.isEmpty = true := by simpa [hwait] using hitems
  exact ⟨u, hexec.trans (congrArg _ (if_neg hgoes)), congrArg (·.1.1.eq) hview, hwait,
    (congrArg (·.1.1.phase) hview).trans hphase, congrArg (·.1.1.rq) hview, congrArg (·.2.2) hview, hcols.sameBytes, hcols.cores,
    hcols.keepsBut⟩

/-- All items of the FIRE find room: they stand in the emit queue, and FIRE ends (O13). -/
theorem firePhase_ends (c : CoreId) (s : State) {n : Nat} (hn : n = (s.core c.val).fireOf) (hfire : s.canFire c.val = true)
    (hback : (s.netOf c.val).backward = false)
    (hroom : (s.core c.val).eq.length + (s.fireCols c.val n).2.items.length ≤ 2048) (hopens : (s.core c.val).opens = [])
    (hhalt : (s.netOf c.val).halting = 0) :
    ∃ t, exec (.firePhase c) s = .next t ∧ (t.core c.val).eq = (s.core c.val).eq ++ (s.fireCols c.val n).2.items ∧
      (t.core c.val).fireWait = [] ∧ (t.core c.val).phase = 3 ∧ (t.core c.val).touched = [] ∧
      nbit (t.core c.val).intStatus 0 = true ∧ (t.core c.val).rq = (s.core c.val).rq ∧
      (t.core c.val).neuW = (s.fireCols c.val n).1.neuW ∧
      ((s.netOf c.val).fwd = 0 → (s.core c.val).hostMb = 0 → (s.core c.val).snapWait = 0 → s.SameBytes t ∧
        State.CoresBut [c.val] s t ∧ State.KeepsBut [.cores, .sectors, .ctr] s t) ∧
      State.KeepsBut (mailParts ++ [Part.cores, .sectors, .nets, .fault, .gddr, .snap]) s t := by
  have hcols : s.Becomes [] [] c.val (s.afterCols c.val n) (s.fireForward c.val n) := State.becomes_fireForward
  have hview := State.fireForward_core (State.afterCols_enters hroom)
  have hexec := exec_firePhase c s hfire hback
  rw [← hn] at hexec
  generalize s.fireForward c.val n = u at hcols hview hexec
  have hnet : u.netOf c.val = s.netOf c.val := hcols.netOf_eq (congrArg (·.1.1.net) (hcols.besideLearn.symm.trans hview))
  obtain ⟨hend, hkeeps, hcore⟩ := State.fireEnd_forward (s := u) (c := c.val) (by rw [hnet]; exact hback)
    ((congrArg (·.1.1.opens) hview).trans hopens)
  have hwait : (u.core c.val).fireWait.isEmpty = true := congrArg List.isEmpty (congrArg (·.1.1.fireWait) hview)
  dsimp only at hexec
  rw [if_pos hwait] at hexec
  have hcommands : ((s.netOf c.val).fwd = 0 → (s.core c.val).hostMb = 0 → (s.core c.val).snapWait = 0 →
      (u.fireEnd c.val).settle c.val = u.fireEnd c.val) := fun _ hmb hsnap =>
    State.settle_eq ((congrArg (·.1.2.1) hend).trans ((congrArg (·.1.2.1) hview).trans hmb))
      ((congrArg (·.1.2.2) hend).trans ((congrArg (·.1.2.2) hview).trans hsnap))
  have hsettle : (u.fireEnd c.val).Settles ((u.fireEnd c.val).settle c.val) := State.settles_settle
  generalize u.fireEnd c.val = v at hend hkeeps hcore hsettle hexec hcommands
  have hnetEnd : v.netOf c.val = s.netOf c.val := by
    have hsame : (v.core c.val).net = (u.core c.val).net := congrArg (·.1.1.net) hend
    rw [State.netOf, hsame, State.net, hkeeps.nets_eq, ← hnet, State.netOf, State.net]
  generalize v.settle c.val = w at hsettle hexec hcommands
  have hstill : w.haltCheckOf c.val = w := State.haltCheckOf_eq (by rw [hsettle.netOf, hnetEnd]; exact hhalt)
  have hview' := hsettle.core c.val
  rw [hstill] at hexec
  refine ⟨w, hexec, ?_, ?_, ?_, ?_, ?_, ?_, ?_, fun hfwd hmb hsnap => ?_, ?_⟩
  · exact (congrArg (·.1.1.eq) hview').trans ((congrArg (·.1.1.eq) hend).trans (congrArg (·.1.1.eq) hview))
  · exact (congrArg (·.1.1.fireWait) hview').trans ((congrArg (·.1.1.fireWait) hend).trans (congrArg (·.1.1.fireWait) hview))
  · exact (congrArg (·.1.1.phase) hview').trans (congrArg (·.1.1.phase) hend)
  · exact (congrArg (·.1.2.1) hview').trans ((congrArg (·.2.1) hend).trans (congrArg (·.2.1) hview))
  · exact (congrArg (·.1.1.stepInt) hview').trans (congrArg (·.1.1.stepInt) hend)
  · exact (congrArg (·.1.1.rq) hview').trans ((congrArg (·.1.1.rq) hend).trans (congrArg (·.1.1.rq) hview))
  · exact (congrArg (·.1.2.2) hview').trans ((congrArg (·.2.2) hend).trans (congrArg (·.2.2) hview))
  · obtain rfl := hcommands hfwd hmb hsnap
    obtain ⟨k', hk'⟩ := hcore (by rw [hnet]; exact hfwd)
    have hall := hk'.after hcols
    exact ⟨hall.sameBytes, hall.cores, hall.keepsBut⟩
  · exact ((hcols.keepsBut (l' := mailParts ++ [Part.cores, .sectors, .nets, .fault, .gddr, .snap])).trans
      (hkeeps.mono (by decide))).trans (hsettle.keeps.mono (by decide))

/-- Settles O13: the fire set's columns stand in the core; its items wait, or enter the emit queue and end the FIRE. -/
theorem fireEvaluatesItsSet : Obligations.FireEvaluatesItsSet := by
  intro c s k n net all r hk hn hnet hfire hback hall hr
  subst hk hnet
  have hcols : r = s.fireCols c.val n := by
    subst hr hall
    unfold State.fireCols State.evaluated
    with_reducible rfl
  subst hcols
  exact ⟨firePhase_waits c s hn hfire hback, firePhase_ends c s hn hfire hback⟩

end Sys2Proof.Machine
end

section
/-! PROOF. Emission (03 R82 to R85, 04 R99, R100, 09 R226, R228; O14): the item at the head of the emit queue sends its next
destination, waits, or is discarded. -/

namespace Sys2Proof.Machine

variable {l : List Part} {cs : List Nat} {c n p : Nat} {k : CoreSt} {s t u : State} {x : EmitItem} {rest : List EmitItem}

/-! ### What follows the head of the queue -/

/-- An opening that no tick and no phase allows does not happen. -/
theorem State.tryOpen_eq {j : Nat}
    (h : (s.net j).lockstep = false ∨ (s.net j).phase = 1 ∨ (s.net j).phase = 2) : s.tryOpen j = s := by
  have hno : (!(s.net j).lockstep || !(s.net j).running || (s.net j).halting != 0 ||
      !((s.net j).phase == 3 || (s.net j).phase == 0) || !(s.boot.crStep == 0 || s.boot.crStep == 8) ||
      !((s.net j).tickHeld || (s.net j).tickSource.kind == 3)) = true := by
    rcases h with h | h | h <;> simp [h]
  exact if_pos hno

/-- No HALT_RUN and no opening of a step can act for the network of core c. -/
def State.Running (s : State) (c : Nat) : Prop :=
  (s.netOf c).halting = 0 ∧ ((s.netOf c).lockstep = false ∨ (s.netOf c).phase = 1 ∨ (s.netOf c).phase = 2)

/-- The opening that the progress of core c can bring does not happen while its network runs. -/
theorem State.Running.still (h : s.Running c) (hnet : t.netOf c = s.netOf c) :
    (if ((t.haltCheckOf c).core c).net = 0 then t.haltCheckOf c
      else (t.haltCheckOf c).tryOpen (((t.haltCheckOf c).core c).net - 1)) = t := by
  rw [State.haltCheckOf_eq (hnet ▸ h.1)]
  split
  · rfl
  · next hne =>
    have hof : t.net ((t.core c).net - 1) = s.netOf c := by rw [← hnet, State.netOf, if_neg hne]
    exact State.tryOpen_eq (hof ▸ h.2)

/-- The waiting items of core c enter its emit queue, and the queue's mark stands. -/
def State.admitted (s : State) (c : Nat) : State :=
  let t := s.modCore c CoreSt.admitIssues
  t.level c Ctr.eqHwm (t.core c).eq.length

/-- Where no item waits, no core changes. -/
theorem State.admitted_keeps (hwait : (s.core c).fireWait = []) :
    (∀ d, (s.admitted c).core d = s.core d) ∧ State.KeepsBut [.cores, .ctr] s (s.admitted c) := by
  have hsame : (s.core c).admitIssues = s.core c := by rw [CoreSt.admitIssues, hwait]; rfl
  have hlevel (t : State) (v : Nat) : (t.level c Ctr.eqHwm v).core = t.core ∧ State.KeepsBut [.ctr] t (t.level c Ctr.eqHwm v) := by
    unfold State.level
    split
    · exact ⟨rfl, by simp⟩
    · exact ⟨rfl, .refl⟩
  obtain ⟨hcores, hkeeps⟩ := hlevel (s.modCore c CoreSt.admitIssues) ((s.modCore c CoreSt.admitIssues).core c).eq.length
  refine ⟨fun d => ?_, State.KeepsBut.trans (by simp) (hkeeps.mono (by decide))⟩
  refine (congrFun hcores d).trans ?_
  rw [State.modCore_def, hsame]
  by_cases hd : d = c
  · rw [hd, State.core_setCore_self]
  · rw [State.core_setCore_ne _ _ _ _ hd]

theorem exec_emitSend (c : CoreId) (s : State) (hruns : s.sectorRuns (sectorOf c.val) = true)
    (hactive : (s.sector (sectorOf c.val)).mstate (indexOf c.val) = 0) (hwait : (s.core c.val).fireWait = [])
    (hrunning : s.Running c.val) (hnet : ((s.emitHead c.val).admitted c.val).netOf c.val = s.netOf c.val) :
    exec (.emitSend c) s = .next ((s.emitHead c.val).admitted c.val) := by
  have hacts : ¬ (!s.sectorRuns (sectorOf c.val) || (s.sector (sectorOf c.val)).mstate (indexOf c.val) != 0) = true := by
    simp [hruns, hactive]
  have hnone : (!(s.core c.val).fireWait.isEmpty) = false := by rw [hwait]; rfl
  change execEmitSend c s = _
  dsimp only [execEmitSend]
  rw [if_neg hacts, hnone, if_neg Bool.false_ne_true]
  exact congrArg _ (hrunning.still hnet)

/-! ### The head of the queue -/

/-- The emit queue. -/
def CoreSt.setEmit (k : CoreSt) (q : List EmitItem) : CoreSt := { k with eq := q }

/-- The occurrences of the EMIT record since the last one. -/
def CoreSt.setEmitSkip (k : CoreSt) (m : Nat) : CoreSt := { k with emitSkip := m }

/-- The emit queue once the item x at its head has sent a destination. -/
def CoreSt.afterSend (k : CoreSt) (x : EmitItem) (rest : List EmitItem) : List EmitItem :=
  if x.sent + 1 < k.destCount x then { x with sent := x.sent + 1 } :: rest else rest

theorem State.emitHead_discards (hq : (s.core c).eq = x :: rest) (h0 : (s.core c).destCount x = 0) :
    s.emitHead c = s.modCore c (·.setEmit rest) := by
  unfold State.emitHead
  dsimp only
  rw [hq]
  exact if_pos h0

theorem State.emitHead_waits (hq : (s.core c).eq = x :: rest) (hsent : x.sent < (s.core c).destCount x)
    (hstops : (s.core c).emitStops x = false) (hnone : s.sendDest c x x.sent = none) : s.emitHead c = s := by
  unfold State.emitHead
  dsimp only
  rw [hq]
  dsimp only
  rw [if_neg (by omega), hstops, if_neg Bool.false_ne_true, hnone]

/-- What the head's sending adds once the event has left: the sent totals, a trace record, and the head that has moved on. -/
theorem State.emitHead_sends (hq : (s.core c).eq = x :: rest) (hsent : x.sent < (s.core c).destCount x)
    (hstops : (s.core c).emitStops x = false) (hsome : s.sendDest c x x.sent = some t) :
    ∃ m, t.Becomes l cs c (((t.core c).setEmitSkip m).setEmit ((t.core c).afterSend x rest)) (s.emitHead c) := by
  have hcounted : State.Notes l cs c t (t.countSent c) := State.notes_ctrAdd.trans State.notes_pmcEvent
  have hmoves {m : Nat} {u : State} (h : t.Becomes l cs c ((t.core c).setEmitSkip m) u) :
      t.Becomes l cs c (((t.core c).setEmitSkip m).setEmit ((t.core c).afterSend x rest)) (u.modCore c fun k =>
        if x.sent + 1 < k.destCount x then { k with eq := { x with sent := x.sent + 1 } :: rest } else { k with eq := rest }) := by
    have hmove : (fun k : CoreSt => if x.sent + 1 < k.destCount x then { k with eq := { x with sent := x.sent + 1 } :: rest }
        else { k with eq := rest }) = fun k => k.setEmit (k.afterSend x rest) := by
      funext k
      unfold CoreSt.setEmit CoreSt.afterSend
      split <;> rfl
    rw [hmove]
    exact h.modCore (fun k => k.setEmit (k.afterSend x rest)) fun _ _ _ _ => ⟨rfl, rfl⟩
  unfold State.emitHead
  dsimp only
  rw [hq]
  dsimp only
  rw [if_neg (by omega), hstops, if_neg Bool.false_ne_true, hsome]
  dsimp only
  by_cases h0 : x.sent = 0
  · rw [if_pos h0]
    exact ⟨_, hmoves ((hcounted.trans State.notes_traceSampled).modCore (·.setEmitSkip _) fun _ _ _ _ => ⟨rfl, rfl⟩)⟩
  · rw [if_neg h0]
    exact ⟨(t.core c).emitSkip, hmoves hcounted⟩

/-! ### One destination -/

/-- What a change of an input port leaves. -/
theorem State.modIn_facts (s : State) (n p : Nat) (f : InPort → InPort) :
    ((s.modIn n p f).sector n).inPort p = f ((s.sector n).inPort p) ∧ s.SameBytes (s.modIn n p f) ∧
      State.SectorsBut [n] s (s.modIn n p f) ∧ (s.modIn n p f).core = s.core ∧ State.KeepsBut [.sectors] s (s.modIn n p f) := by
  have hself : (s.modIn n p f).sector n =
      { s.sector n with inp := Tab.set (s.sector n).inp {} p (f ((s.sector n).inPort p)) } := State.sector_setSector_self ..
  have hothers : State.SectorsBut [n] s (s.modIn n p f) := fun m hm => State.sector_setSector_ne _ _ _ _ (by simpa using hm)
  refine ⟨?_, ⟨rfl, fun m => ?_⟩, hothers, rfl, by simp [State.modIn]⟩
  · rw [hself]
    exact (Tab.get_set ..).trans (if_pos rfl)
  · by_cases hm : m = n
    · rw [hm, hself]
    · rw [hothers m (by simpa using hm)]

/-- The magnitude that a ring destination has seen. -/
def CoreSt.seeMax (k : CoreSt) (d : Nat) (v : Word32) : CoreSt :=
  { k with maxAbs := Tab.set k.maxAbs 0 d (maxAbsStep (Tab.get k.maxAbs 0 d) v) }

/-- An event sent under the tag is counted in the core. -/
def CoreSt.sendUnder (k : CoreSt) (tag : Nat) : CoreSt := { k with sent := Tab.set k.sent 0 tag (Tab.get k.sent 0 tag + 1) }

theorem CoreSt.sent_sendUnder {tag : Nat} : Tab.get (k.sendUnder tag).sent 0 tag = Tab.get k.sent 0 tag + 1 := by
  simp [sendUnder]

/-- Item x of core c finds room for its destination i: what then stands in the port, and in the core. -/
theorem State.sendDest_ring {i : Nat} {it : Item} (hring : ((s.core c).destOf x i).ring = true)
    (hit : it = .ring ((s.core c).destOf x i).dest c ((s.core c).emitEvent c x i) (if x.typ = 4 then f32One else (s.core c).colF x.col 1)) :
    s.sendDest c x i = if !s.roomAt (sectorOf c) (s.corePort c) it then none
      else some (if (s.outliersOf ((s.core c).destOf x i).dest).contains ((s.core c).destOf x i).row then
          s.offer (sectorOf c) (s.corePort c) it
        else (s.offer (sectorOf c) (s.corePort c) it).modCore c (·.seeMax ((s.core c).destOf x i).dest x.value)) := by
  subst hit
  unfold State.sendDest
  dsimp only
  rw [if_pos hring]
  rfl

theorem State.sendDest_best {i : Nat} (hring : ((s.core c).destOf x i).ring = false)
    (hsched : s.isSched c ((s.core c).emitEvent c x i).ev = false) :
    s.sendDest c x i = if !s.roomAt (sectorOf c) (s.corePort c) (.event ((s.core c).emitEvent c x i)) then none
      else some ((s.offer (sectorOf c) (s.corePort c) (.event ((s.core c).emitEvent c x i))).modCore c
        (·.sendUnder ((s.core c).emitEvent c x i).tag)) := by
  unfold State.sendDest State.toRouter
  dsimp only
  rw [hring, if_neg Bool.false_ne_true, hsched, Bool.and_false, if_neg Bool.false_ne_true]
  split <;> rfl

theorem State.sendDest_sched {i : Nat} (hring : ((s.core c).destOf x i).ring = false)
    (hsched : s.isSched c ((s.core c).emitEvent c x i).ev = true)
    (hroom : ((s.sector (sectorOf c)).inPort (s.corePort c)).sched.length < 8) :
    s.sendDest c x i = some ((s.modIn (sectorOf c) (s.corePort c) fun q => { q with sched := q.sched ++
      [{ (s.core c).emitEvent c x i with
          sched := true
          due := (s.dueOf c (s.corePort c) ((s.core c).emitEvent c x i)).1
          lane := (s.dueOf c (s.corePort c) ((s.core c).emitEvent c x i)).2 }] }).modCore c
        (·.sendUnder ((s.core c).emitEvent c x i).tag)) := by
  unfold State.sendDest State.toRouter
  dsimp only
  rw [hring, if_neg Bool.false_ne_true, hsched, Bool.and_true, if_pos rfl, if_neg (by omega)]
  rfl

/-- From s to t an event has entered the port of core c, which then holds y, and core c has become k. -/
structure State.Sends (s : State) (c : Nat) (k : CoreSt) (y : InPort) (t : State) : Prop where
  core : t.core c = k
  cores : State.CoresBut [c] s t
  port : (t.sector (sectorOf c)).inPort (s.corePort c) = y
  bytes : s.SameBytes t
  sectors : State.SectorsBut [sectorOf c] s t
  keeps : State.KeepsBut [.cores, .sectors] s t

theorem State.sends_modIn (f : InPort → InPort) : s.Sends c (s.core c) (f ((s.sector (sectorOf c)).inPort (s.corePort c)))
    (s.modIn (sectorOf c) (s.corePort c) f) := by
  obtain ⟨hport, hbytes, hsectors, hcore, hkeeps⟩ := s.modIn_facts (sectorOf c) (s.corePort c) f
  exact ⟨congrFun hcore c, fun d _ => congrFun hcore d, hport, hbytes, hsectors, hkeeps.mono (by decide)⟩

theorem State.Sends.modCore {y : InPort} (h : s.Sends c k y t) (g : CoreSt → CoreSt) : s.Sends c (g k) y (t.modCore c g) where
  core := by rw [State.modCore_def, State.core_setCore_self, h.core]
  cores d hd := by rw [State.modCore_def, State.core_setCore_ne _ _ _ _ (by simpa using hd), h.cores d hd]
  port := h.port
  bytes := h.bytes
  sectors := h.sectors
  keeps := by simpa using h.keeps

/-! ### The first half of O14 -/

theorem State.netOf_congr (hcore : (t.core c).net = (s.core c).net) (hnets : t.nets = s.nets) : t.netOf c = s.netOf c := by
  rw [State.netOf, State.netOf, hcore, State.net, State.net, hnets]

section
variable (c : CoreId) (s : State) (hruns : s.sectorRuns (sectorOf c.val) = true)
  (hactive : (s.sector (sectorOf c.val)).mstate (indexOf c.val) = 0) (hwait : (s.core c.val).fireWait = [])
  (hrunning : s.Running c.val)
include hruns hactive hwait hrunning

/-- Where the head leaves the core in its network with no item waiting, EMIT_SEND does what the head does. -/
theorem emitSend_next {w : State} (hw : s.emitHead c.val = w) (hwaits : (w.core c.val).fireWait = [])
    (hnet : (w.core c.val).net = (s.core c.val).net) (hnets : w.nets = s.nets) :
    ∃ t, exec (.emitSend c) s = .next t ∧ (∀ d, t.core d = w.core d) ∧ State.KeepsBut [.cores, .ctr] w t := by
  obtain ⟨hcores, hkeeps⟩ := State.admitted_keeps hwaits
  refine ⟨_, exec_emitSend c s hruns hactive hwait hrunning ?_, hw.symm ▸ hcores, hw.symm ▸ hkeeps⟩
  rw [hw]
  exact State.netOf_congr ((congrArg CoreSt.net (hcores c.val)).trans hnet) (hkeeps.nets_eq.trans hnets)

variable (hq : (s.core c.val).eq = x :: rest)
include hq

/-- An item without a destination is discarded. -/
theorem emitSend_discards (h0 : (s.core c.val).destCount x = 0) :
    ∃ t, exec (.emitSend c) s = .next t ∧ (t.core c.val).eq = rest ∧ t.sectors = s.sectors ∧ State.CoresBut [c.val] s t ∧
      State.KeepsBut [.cores, .ctr] s t := by
  have hcore : (s.modCore c.val (·.setEmit rest)).core c.val = (s.core c.val).setEmit rest := State.core_setCore_self ..
  obtain ⟨t, hexec, hcores, hkeeps⟩ := emitSend_next c s hruns hactive hwait hrunning (State.emitHead_discards hq h0)
    (by rw [hcore]; exact hwait) (by rw [hcore]; rfl) rfl
  refine ⟨t, hexec, by rw [hcores, hcore]; rfl, hkeeps.sectors_eq, fun d hd => ?_, State.KeepsBut.trans (by simp) hkeeps⟩
  rw [hcores]
  exact State.core_setCore_ne _ _ _ _ (by simpa using hd)

/-- An item whose destination has no room waits. -/
theorem emitSend_waits (hsent : x.sent < (s.core c.val).destCount x) (hstops : (s.core c.val).emitStops x = false)
    (hnone : s.sendDest c.val x x.sent = none) :
    ∃ t, exec (.emitSend c) s = .next t ∧ t.core c.val = s.core c.val ∧ State.CoresBut [c.val] s t ∧
      State.KeepsBut [.cores, .ctr] s t := by
  obtain ⟨t, hexec, hcores, hkeeps⟩ := emitSend_next c s hruns hactive hwait hrunning
    (State.emitHead_waits hq hsent hstops hnone) hwait rfl rfl
  exact ⟨t, hexec, hcores _, fun d _ => hcores d, hkeeps⟩

/-- An item whose destination has room sends it, and leaves with its last one. -/
theorem emitSend_sends (hsent : x.sent < (s.core c.val).destCount x) (hstops : (s.core c.val).emitStops x = false)
    {u : State} {y : InPort} (hsome : s.sendDest c.val x x.sent = some u) (hu : s.Sends c.val k y u)
    (hk : k.destCount x = (s.core c.val).destCount x ∧ k.fireWait = (s.core c.val).fireWait ∧ k.net = (s.core c.val).net) :
    ∃ t, exec (.emitSend c) s = .next t ∧ (t.core c.val).eq = (s.core c.val).afterSend x rest ∧
      ((t.sector (sectorOf c.val)).inPort (s.corePort c.val)) = y ∧ (t.core c.val).sent = k.sent ∧
      s.SameBytes t ∧ State.CoresBut [c.val] s t ∧ State.SectorsBut [sectorOf c.val] s t ∧
      State.KeepsBut [.cores, .sectors, .ctr] s t := by
  obtain ⟨hdest, hwaits, hnet⟩ := hk
  obtain ⟨m, hw⟩ := State.emitHead_sends (l := []) (cs := []) hq hsent hstops hsome
  rw [hu.core] at hw
  obtain ⟨t, hexec, hcores, hkeeps⟩ := emitSend_next c s hruns hactive hwait hrunning rfl
    ((hw.get (·.fireWait)).trans (hwaits.trans hwait)) ((hw.get (·.net)).trans hnet)
    (hw.keeps.nets_eq.trans hu.keeps.nets_eq)
  have hsector (q : Nat) : t.sector q = (s.emitHead c.val).sector q := by rw [State.sector, hkeeps.sectors_eq, State.sector]
  have hafter : k.afterSend x rest = (s.core c.val).afterSend x rest := by rw [CoreSt.afterSend, hdest, CoreSt.afterSend]
  refine ⟨t, hexec, ?_, ?_, ?_, ?_, fun d hd => ?_, fun q hq => ?_, ?_⟩
  · rw [hcores, hw.get (·.eq)]
    exact hafter
  · rw [hsector, hw.sector_get _ (·.inPort _), hu.port]
  · rw [hcores]
    exact hw.get (·.sent)
  · refine (hu.bytes.trans hw.sameBytes).trans ⟨by rw [hkeeps.gddr_eq], fun q => by rw [hsector]⟩
  · rw [hcores, hw.cores d hd, hu.cores d hd]
  · rw [hsector, hw.sectors q hq, hu.sectors q hq]
  · exact ((hu.keeps.mono (by decide)).trans hw.keepsBut).trans (hkeeps.mono (by decide))

end

/-- A destination through the best-effort buffer, by what enters it (O14). -/
theorem emitSend_offers (c : CoreId) (s : State) {e : EvItem} (hruns : s.sectorRuns (sectorOf c.val) = true)
    (hactive : (s.sector (sectorOf c.val)).mstate (indexOf c.val) = 0) (hwait : (s.core c.val).fireWait = [])
    (hrunning : s.Running c.val) (hq : (s.core c.val).eq = x :: rest) (hsent : x.sent < (s.core c.val).destCount x)
    (hstops : (s.core c.val).emitStops x = false) (he : e = (s.core c.val).emitEvent c.val x x.sent) (it : Item)
    (hit : ((s.core c.val).destOf x x.sent).ring = true ∧ it = .ring ((s.core c.val).destOf x x.sent).dest c.val e
        (if x.typ = 4 then f32One else (s.core c.val).colF x.col 1) ∨
      ((s.core c.val).destOf x x.sent).ring = false ∧ s.isSched c.val e.ev = false ∧ it = .event e) :
    (s.roomAt (sectorOf c.val) (s.corePort c.val) it = true → ∃ t, exec (.emitSend c) s = .next t ∧
      (t.core c.val).eq = (s.core c.val).afterSend x rest ∧ ((t.sector (sectorOf c.val)).inPort (s.corePort c.val)).be =
        ((s.sector (sectorOf c.val)).inPort (s.corePort c.val)).be ++ [it] ∧
      (((s.core c.val).destOf x x.sent).ring = false →
        Tab.get (t.core c.val).sent 0 e.tag = Tab.get (s.core c.val).sent 0 e.tag + 1) ∧
      s.SameBytes t ∧ State.CoresBut [c.val] s t ∧ State.SectorsBut [sectorOf c.val] s t ∧
      State.KeepsBut [.cores, .sectors, .ctr] s t) ∧
    (s.roomAt (sectorOf c.val) (s.corePort c.val) it = false → ∃ t, exec (.emitSend c) s = .next t ∧
      t.core c.val = s.core c.val ∧ State.CoresBut [c.val] s t ∧ State.KeepsBut [.cores, .ctr] s t) := by
  subst he
  have hoffer : s.Sends c.val _ _ (s.offer (sectorOf c.val) (s.corePort c.val) it) := State.sends_modIn _
  obtain ⟨hring, hit⟩ | ⟨hring, hsched, hit⟩ := hit
  · have hsend := State.sendDest_ring hring hit
    refine ⟨fun hroom => ?_, fun hroom => ?_⟩
    · rw [hroom, Bool.not_true, if_neg Bool.false_ne_true] at hsend
      have hsends : ∃ u k y, s.sendDest c.val x x.sent = some u ∧ s.Sends c.val k y u ∧ (k.destCount x =
          (s.core c.val).destCount x ∧ k.fireWait = (s.core c.val).fireWait ∧ k.net = (s.core c.val).net) ∧
          y.be = ((s.sector (sectorOf c.val)).inPort (s.corePort c.val)).be ++ [it] := by
        split at hsend
        · exact ⟨_, _, _, hsend, hoffer, ⟨rfl, rfl, rfl⟩, rfl⟩
        · exact ⟨_, _, _, hsend, hoffer.modCore (·.seeMax _ _), ⟨rfl, rfl, rfl⟩, rfl⟩
      obtain ⟨u, k, y, hsome, hu, hk, hbe⟩ := hsends
      obtain ⟨t, hexec, heq, hport, -, hrest⟩ :=
        emitSend_sends c s hruns hactive hwait hrunning hq hsent hstops hsome hu hk
      exact ⟨t, hexec, heq, hport.symm ▸ hbe, fun h => absurd hring (by simp [h]), hrest⟩
    · rw [hroom, Bool.not_false, if_pos rfl] at hsend
      exact emitSend_waits c s hruns hactive hwait hrunning hq hsent hstops hsend
  · have hsend := State.sendDest_best hring hsched
    rw [← hit] at hsend
    refine ⟨fun hroom => ?_, fun hroom => ?_⟩
    · rw [hroom, Bool.not_true, if_neg Bool.false_ne_true] at hsend
      obtain ⟨t, hexec, heq, hport, hsentUnder, hrest⟩ := emitSend_sends c s hruns hactive hwait hrunning hq hsent hstops hsend
        (hoffer.modCore (·.sendUnder _)) ⟨rfl, rfl, rfl⟩
      refine ⟨t, hexec, heq, by rw [hport], fun _ => ?_, hrest⟩
      rw [hsentUnder]
      exact CoreSt.sent_sendUnder
    · rw [hroom, Bool.not_false, if_pos rfl] at hsend
      exact emitSend_waits c s hruns hactive hwait hrunning hq hsent hstops hsend

/-- A destination through the scheduled buffer (O14). -/
theorem emitSend_schedules (c : CoreId) (s : State) {e : EvItem} (hruns : s.sectorRuns (sectorOf c.val) = true)
    (hactive : (s.sector (sectorOf c.val)).mstate (indexOf c.val) = 0) (hwait : (s.core c.val).fireWait = [])
    (hrunning : s.Running c.val) (hq : (s.core c.val).eq = x :: rest) (hsent : x.sent < (s.core c.val).destCount x)
    (hstops : (s.core c.val).emitStops x = false) (he : e = (s.core c.val).emitEvent c.val x x.sent)
    (hring : ((s.core c.val).destOf x x.sent).ring = false) (hsched : s.isSched c.val e.ev = true)
    (hroom : ((s.sector (sectorOf c.val)).inPort (s.corePort c.val)).sched.length < 8) :
    ∃ t, exec (.emitSend c) s = .next t ∧ (t.core c.val).eq = (s.core c.val).afterSend x rest ∧
      ((t.sector (sectorOf c.val)).inPort (s.corePort c.val)).sched =
        ((s.sector (sectorOf c.val)).inPort (s.corePort c.val)).sched ++
          [{ e with sched := true, due := (s.dueOf c.val (s.corePort c.val) e).1, lane := (s.dueOf c.val (s.corePort c.val) e).2 }] ∧
      ((t.sector (sectorOf c.val)).inPort (s.corePort c.val)).be =
        ((s.sector (sectorOf c.val)).inPort (s.corePort c.val)).be ∧
      s.SameBytes t ∧ State.CoresBut [c.val] s t ∧ State.SectorsBut [sectorOf c.val] s t ∧
      State.KeepsBut [.cores, .sectors, .ctr] s t := by
  subst he
  obtain ⟨t, hexec, heq, hport, -, hrest⟩ := emitSend_sends c s hruns hactive hwait hrunning hq hsent hstops
    (State.sendDest_sched hring hsched hroom) ((State.sends_modIn _).modCore (·.sendUnder _)) ⟨rfl, rfl, rfl⟩
  exact ⟨t, hexec, heq, by rw [hport], by rw [hport], hrest⟩

end Sys2Proof.Machine
end

section
/-! SUPPORT. A row of LEARN (06 R152 to R163, 07 R181): the fields of its table entry, and what the commit of its weights leaves. -/

namespace Sys2Proof.Machine

variable {l : List Part} {cs : List Nat} {k K : CoreSt} {c i j n : Nat} {s t u : State}

/-! ### Words of the row table -/

/-- A field is read off its bits. -/
theorem nfld_congr {a b hi lo : Nat} (h : ∀ x, lo ≤ x → x ≤ hi → nbit a x = nbit b x) : nfld a hi lo = nfld b hi lo := by
  refine Nat.eq_of_testBit_eq fun x => ?_
  unfold nfld
  rw [Nat.testBit_mod_two_pow, Nat.testBit_mod_two_pow, Nat.testBit_shiftRight, Nat.testBit_shiftRight]
  by_cases hx : x < hi + 1 - lo
  · exact congrArg _ (h (lo + x) (by omega) (by omega))
  · simp [hx]

/-- The bit that a one-bit field of a register word takes. -/
theorem nbit_nput_self (m x : Nat) (b : Bool) : nbit (nput m x x (b2n b)) x = b := by
  have hparts := nput_eq_parts m x x (b2n b) (Nat.le_succ x)
  rw [Nat.add_sub_cancel_left, pow_one] at hparts
  have hlow : m % 2 ^ x < 2 ^ x := Nat.mod_lt _ (Nat.two_pow_pos x)
  have hdiv : nput m x x (b2n b) / 2 ^ x = m / 2 ^ (x + 1) * 2 + b2n b % 2 := by
    rw [hparts, mul_comm _ (2 ^ x), Nat.mul_add_div (Nat.two_pow_pos x), Nat.div_eq_of_lt hlow, Nat.add_zero]
  rw [nbit, Nat.testBit_eq_decide_div_mod_eq, hdiv]
  cases b <;> simp [b2n]

theorem CoreSt.rowWord_putRow {w w' v : Nat} (hw : w < 8) (hw' : w' < 8) :
    (k.putRow i w v).rowWord j w' = if j = i ∧ w' = w then (BitVec.ofNat 32 v).toNat else k.rowWord j w' := by
  have haddr : 8 * j + w' = 8 * i + w ↔ j = i ∧ w' = w := by omega
  unfold rowWord putRow
  rw [Tab.get_set]
  simp only [haddr]
  split <;> rfl

theorem CoreSt.rPending_setPending {b : Bool} : (k.setPending i b).rPending j = if j = i then b else k.rPending j := by
  rw [rPending, setPending, rowWord_putRow (by decide) (by decide)]
  by_cases hji : j = i
  · rw [if_pos ⟨hji, rfl⟩, if_pos hji, nbit_toNat_ofNat _ _ _ (by decide), nbit_nput_self]
  · rw [if_neg fun h => hji h.1, if_neg hji, rPending]

theorem CoreSt.rDelay_setPending {b : Bool} : (k.setPending i b).rDelay j = k.rDelay j := by
  rw [rDelay, setPending, rowWord_putRow (by decide) (by decide)]
  refine nfld_congr fun x _ hx => ?_
  split
  · next h =>
    rw [nbit_toNat_ofNat _ _ _ (by omega), nbit_nput_outside _ _ _ _ _ (by decide) (by omega), h.1]
  · rfl

theorem CoreSt.rDgrad_setPending {b : Bool} : (k.setPending i b).rDgrad j = k.rDgrad j := by
  rw [rDgrad, setPending, rowWord_putRow (by decide) (by decide), if_neg (by simp), rDgrad]

/-! ### Views of a core under LEARN -/

/-- What LEARN is about in row i: the weights, its delay and its delay gradient. -/
def CoreSt.learnt (k : CoreSt) (i : Nat) : Tab SynWord × Nat × Int := (k.syn, k.rDelay i, k.rDgrad i)

/-- K is core k, which has retired row i of LEARN. -/
structure CoreSt.Retires (k K : CoreSt) (i : Nat) : Prop where
  rows : K.learnRows = k.learnRows.filter (· != i)
  free : K.rPending i = false
  pipe : K.pipeline = k.pipeline

theorem CoreSt.learnt_setPending {b : Bool} : (k.setPending j b).learnt i = k.learnt i := by
  have hsyn (v : Nat) : (k.putRow j 0 v).syn = k.syn := rfl
  unfold learnt
  rw [rDelay_setPending, rDgrad_setPending, setPending, hsyn]

/-- Where LEARN retires, its rows are no longer pending, and the row stands as it was committed. -/
theorem CoreSt.learnRetire_row : k.learnRetire.learnt i = k.learnt i ∧ (k.rPending i = false → k.learnRetire.rPending i = false) := by
  have hset (k : CoreSt) (j : Nat) : (k.setPending j false).learnt i = k.learnt i := learnt_setPending
  have hrow (xs : List Nat) (k : CoreSt) : (xs.foldl (fun k i => k.setPending i false) k).learnt i = k.learnt i :=
    foldl_keeps_view (fun k => k.learnt i) (fun _ _ => hset _ _) xs k
  have hfree (xs : List Nat) (k : CoreSt) (h : k.rPending i = false) :
      (xs.foldl (fun k i => k.setPending i false) k).rPending i = false := by
    induction xs generalizing k with
    | nil => exact h
    | cons x xs ih =>
      refine ih _ ?_
      rw [rPending_setPending]
      split
      · rfl
      · exact h
  have hend := hrow k.learnSkipped k
  have hpend := hfree k.learnSkipped k
  unfold learnRetire
  dsimp only
  generalize k.learnSkipped.foldl (fun k i => k.setPending i false) k = k' at hend hpend
  exact ⟨hend, hpend⟩

/-! ### The weights of a row -/

/-- What the weights, the rule and the delay of a row leave of a core: the pipeline, the rows of LEARN, the commands that wait. -/
def CoreSt.besideRule (k : CoreSt) : Pipeline × List Nat × Nat × Nat := (k.pipeline, k.learnRows, k.hostMb, k.snapWait)

theorem CoreSt.besideRule_of_besideWeights (h : K.besideWeights = k.besideWeights) : K.besideRule = k.besideRule :=
  congrArg (fun v => (v.1.1.1, v.1.2.1, v.2)) h

theorem CoreSt.halve_besideWeights {r : CoreSt × WbCount} : (halve i r j).1.besideWeights = r.1.besideWeights := by
  have hsum (k' : CoreSt) (b : Prop) [Decidable b] (v : Int) (h : k'.besideWeights = r.1.besideWeights) :
      (if b then k' else k'.addSum j v).besideWeights = r.1.besideWeights := ite_besideWeights h (addSum_besideWeights.trans h)
  have hmark (k' : CoreSt) (b : Prop) [Decidable b] (h : k'.besideWeights = r.1.besideWeights) :
      (if b then k'.setMark j true else k').besideWeights = r.1.besideWeights := ite_besideWeights (setMark_besideWeights.trans h) h
  have hword (a v : Nat) : (r.1.putSyn a v).besideWeights = r.1.besideWeights := putSyn_besideWeights
  unfold halve
  dsimp only
  split
  · rfl
  · exact ite_accTerm_besideWeights.trans (hmark _ _ (hsum _ _ _ (hword _ _)))

theorem CoreSt.ruleSyn_besideWeights {rule start len : Nat} {r1 : Int} {touched : Bool} {r : CoreSt × WbCount × Int} :
    (ruleSyn i n rule start len r1 touched r j).1.besideWeights = r.1.besideWeights := by
  have htag (x : CoreSt × WbCount) (y : WbCount) (b : Prop) [Decidable b] (a v : Nat)
      (h : x.1.besideWeights = r.1.besideWeights) : (if b then (x.1.putTag a v, y) else x).1.besideWeights = r.1.besideWeights := by
    split
    · exact putTag_besideWeights.trans h
    · exact h
  unfold ruleSyn
  dsimp only
  exact htag _ _ _ _ _ writeWeight_besideWeights

theorem CoreSt.delayLearn_besideRule {dacc : Int} :
    (k.delayLearn i dacc).1.besideRule = k.besideRule ∧ (k.delayLearn i dacc).1.syn = k.syn := by
  have hput (k : CoreSt) (a b w v : Nat) : ((k.putRow i a w).putRow i b v).besideRule = k.besideRule ∧
    ((k.putRow i a w).putRow i b v).syn = k.syn := ⟨rfl, rfl⟩
  unfold delayLearn
  dsimp only
  split
  · exact hput _ _ _ _ _
  · split
    · split
      · exact hput _ _ _ _ _
      · exact hput _ _ _ _ _
    · split
      · split
        · exact hput _ _ _ _ _
        · exact hput _ _ _ _ _
      · exact hput _ _ _ _ _

/-- The columns of row i. -/
def CoreSt.rowCols (k : CoreSt) (i : Nat) : List Nat := (upTo (k.rLen i)).map (k.rStart i + ·)

/-- Row i halved where its columns are renormalised. -/
def CoreSt.halved (k : CoreSt) (i : Nat) : CoreSt × WbCount := (k.rowCols i).foldl (CoreSt.halve i) (k, {})

/-- The trace of row i as its rule in LEARN n sees it. -/
def CoreSt.rowTrace (k : CoreSt) (n i : Nat) : Int :=
  if Tab.get k.tracesWritten false i then (k.rTrace i * 65536 : Nat)
  else (k.rTrace i * traceDecay (k.tsLambda (k.rPreSet i)) (traceDelta n (k.rLast i)) : Nat)

/-- The rule of row i run on each of its synapses, halved before. -/
def CoreSt.ruled (k : CoreSt) (n i : Nat) : CoreSt × WbCount × Int :=
  let e := (Tab.get k.ruleTab 0 (12 * (k.rRule i - 1))).toNat
  (k.rowCols i).foldl (CoreSt.ruleSyn i n (k.rRule i) (nfld e 5 0) (nfld e 13 8 + 1) (k.rowTrace n i) (k.rowTouched n i))
    ((k.halved i).1, (k.halved i).2, 0)

/-- The core after the weights of row i of LEARN n: halved, and for a row of the walk set ruled, with its delay learnt. -/
def CoreSt.rowDone (k : CoreSt) (n i : Nat) : CoreSt :=
  if k.inWalk n i then ((k.ruled n i).1.delayLearn i (k.ruled n i).2.2).1 else (k.halved i).1

theorem CoreSt.rowDone_besideRule : (k.rowDone n i).besideRule = k.besideRule := by
  have hhalved : (k.halved i).1.besideWeights = k.besideWeights :=
    foldl_keeps_view (fun r : CoreSt × WbCount => r.1.besideWeights) (fun _ _ => halve_besideWeights) _ (k, {})
  have hruled : (k.ruled n i).1.besideWeights = (k.halved i).1.besideWeights :=
    foldl_keeps_view (fun r : CoreSt × WbCount × Int => r.1.besideWeights) (fun _ _ => ruleSyn_besideWeights) _ _
  unfold rowDone
  split
  · exact delayLearn_besideRule.1.trans (besideRule_of_besideWeights (hruled.trans hhalved))
  · exact besideRule_of_besideWeights hhalved

/-- The row of a forward step's LEARN: its core becomes `rowDone`, with the row no longer pending. -/
theorem State.becomes_learnRow (hl : Part.fault ∈ l) (hn : n = (s.core c).learnStep) :
    s.Becomes l cs c (((s.core c).rowDone n i).setPending i false) (s.learnRow c i) := by
  subst hn
  have hwritten (K : CoreSt) (w : WbCount) : s.Becomes l cs c K ((s.setCore c K).countWb c w) :=
    (State.Becomes.refl.setCore K).trans (State.notes_countWb hl)
  unfold State.learnRow CoreSt.rowDone CoreSt.ruled CoreSt.halved CoreSt.rowTrace CoreSt.rowCols
  dsimp only
  by_cases hwalk : (s.core c).inWalk (s.core c).learnStep i = true
  · rw [if_pos hwalk, hwalk, Bool.not_true, if_neg Bool.false_ne_true]
    exact (((((hwritten _ _).trans State.notes_countCore).trans State.notes_countCore).trans State.notes_countCore).trans
      State.notes_countCore).trans State.notes_countCore
  · rw [if_neg hwalk, if_pos (by simpa using hwalk)]
    exact ((hwritten _ _).trans State.notes_countCore).trans State.notes_countCore

/-! ### The gradients of a row -/

/-- A change of other parts leaves every core. -/
theorem State.Notes.of_keepsBut {l' : List Part} (h : State.KeepsBut l' s t) (hl : l' ⊆ .ctr :: l)
    (hc : Part.cores ∉ l' := by decide) (hs : Part.sectors ∉ l' := by decide) : State.Notes l cs c s t where
  core := ⟨_, _, _, by rw [State.core, h.cores_eq hc]; rfl, rfl⟩
  cores d _ := by rw [State.core, h.cores_eq hc, State.core]
  sector := by rw [State.sector, h.sectors_eq hs, State.sector]
  sectors q _ := by rw [State.sector, h.sectors_eq hs, State.sector]
  keeps := h.mono fun _ hp => List.mem_cons_of_mem _ (List.mem_cons_of_mem _ (hl hp))

/-- The gradients of row i that are not 0, by column. -/
def CoreSt.grads (k : CoreSt) (i : Nat) : List (Nat × Int × Bool) :=
  ((k.gradCols i).map fun j => (j, k.gradient i j)).filter fun x => x.2.1 != 0

/-- Gradients of row i, those of core k, taken from the weights of core K. -/
def CoreSt.takeGrads (K k : CoreSt) (i : Nat) (gs : List (Nat × Int × Bool)) : CoreSt × WbCount :=
  gs.foldl (fun (r : CoreSt × WbCount) x =>
    r.1.writeWeight i x.1 (r.1.weight i x.1 - x.2.1) (synDelay k.mode (k.synWord (k.synAddr i x.1))) r.2) (K, {})

theorem CoreSt.takeGrads_besideWeights (gs : List (Nat × Int × Bool)) : (K.takeGrads k i gs).1.besideWeights = K.besideWeights :=
  foldl_keeps_view (fun r : CoreSt × WbCount => r.1.besideWeights) (fun _ _ => writeWeight_besideWeights) gs (K, {})

theorem State.Becomes.besideRule (h : s.Becomes l cs c k t) : (t.core c).besideRule = k.besideRule := by
  rw [CoreSt.besideRule, CoreSt.besideRule, h.pipeline, h.get (·.learnRows), h.get (·.hostMb), h.get (·.snapWait)]

/-- The row of a backward step's LEARN writes weights of the core, or gradients in GDDR6. -/
theorem State.becomes_gradRow (hg : Part.gddr ∈ l) (hf : Part.fault ∈ l) :
    ∃ K, s.Becomes l cs c K (s.gradRow c i) ∧ K.besideRule = (s.core c).besideRule := by
  have hsat (m : Nat) : State.Notes l cs c s (s.countCore c Ctr.gradSat m) := State.notes_countCore
  have hweights (t : State) (ht : State.Notes l cs c s t) :
      ((t.core c).takeGrads (s.core c) i ((s.core c).grads i)).1.besideRule = (s.core c).besideRule :=
    (CoreSt.besideRule_of_besideWeights (CoreSt.takeGrads_besideWeights _)).trans ht.besideRule
  have htaken (t : State) (ht : State.Notes l cs c s t) (r : CoreSt × WbCount) (a b : Nat) : s.Becomes l cs c r.1
      ((((t.setCore c r.1).countWb c r.2).countCore c Ctr.synRdBytes a).countCore c Ctr.synWrBytes b) :=
    (((ht.setCore _).trans (State.notes_countWb hf)).trans State.notes_countCore).trans State.notes_countCore
  have hpoke (t : State) (a m : Nat) (bytes : List Byte) :
      State.Notes l cs c t ((t.gPoke a bytes).countCore c Ctr.gradSat m) :=
    (State.Notes.of_keepsBut (t.gPoke_keeps a bytes) (by simp [hg])).trans State.notes_countCore
  have hcount (t : State) (a : Nat) :
      State.Notes l cs c t ((t.gddrCount a 64 .compute 0).gddrCount a 64 .compute 1) :=
    (State.Notes.of_keepsBut (t.gddrCount_keeps a 64 .compute 0) (by simp)).trans
      (State.Notes.of_keepsBut (State.gddrCount_keeps _ a 64 .compute 1) (by simp))
  unfold State.gradRow
  dsimp only
  split
  · refine ⟨_, htaken _ (hsat _) _ _ _, ?_⟩
    exact hweights _ (hsat _)
  · split
    · exact ⟨_, ((hsat _).trans (State.Notes.foldl (fun _ _ => hpoke _ _ _ _) _ _)).trans
        (State.Notes.foldl (fun _ _ => hcount _ _) _ _), rfl⟩
    · exact ⟨_, hsat _, rfl⟩

/-! ### The row retires -/

/-- The marking of a core. -/
def CoreSt.setMarking (k : CoreSt) (layer oper : Nat) : CoreSt := { k with layer := layer, oper := oper }

/-- The core under the marking in force when its LEARN began. -/
def CoreSt.underMark (k : CoreSt) : CoreSt := k.setMarking (k.learnMark / 65536) (k.learnMark % 65536)

/-- A row of a write-back page set is dirty. -/
def CoreSt.setDirty (k : CoreSt) (i : Nat) : CoreSt := { k with dirtyRows := Tab.set k.dirtyRows false i true }

/-- Row i has left the rows of LEARN. -/
def CoreSt.dropRow (k : CoreSt) (i : Nat) : CoreSt := { k with learnRows := k.learnRows.filter (· != i) }

/-- The weights of row i, committed by LEARN on core c. -/
def State.commitRow (s : State) (c i : Nat) : State :=
  if (s.core c).learnGrad then (s.gradRow c i).modCore c fun k => k.setPending i false else s.learnRow c i

theorem State.retireRow_eq (s : State) (c i : Nat) : s.retireRow c i =
    let v := ((s.setCore c (s.core c).underMark).commitRow c i).modCore c (·.setMarking (s.core c).layer (s.core c).oper)
    let w := if (s.core c).learnGrad && fld (s.core c).trainCfg 31 30 != 1 then v else v.markDirty c i
    (w.pmcEvent c 0x303 1).modCore c (·.dropRow i) := by
  unfold State.retireRow State.underMark State.commitRow CoreSt.underMark CoreSt.setMarking CoreSt.dropRow
  with_reducible rfl

theorem CoreSt.setPending_noted {b : Bool} (p : Tab Pmc) (x y : Nat) :
    (k.noted p x y).setPending i b = (k.setPending i b).noted p x y ∧ (k.setPending i b).intStatus = k.intStatus := by
  have hput (k : CoreSt) (v : Nat) : (k.noted p x y).putRow i 0 v = (k.putRow i 0 v).noted p x y ∧
    (k.putRow i 0 v).intStatus = k.intStatus := ⟨rfl, rfl⟩
  have hword : (k.noted p x y).rowWord i 0 = k.rowWord i 0 := rfl
  unfold setPending
  rw [hword]
  exact hput k _

/-- X is core c with the weights of row i committed; the row is no longer pending. -/
theorem State.becomes_commitRow (hg : Part.gddr ∈ l) (hf : Part.fault ∈ l) :
    ∃ X, s.Becomes l cs c (X.setPending i false) (s.commitRow c i) ∧ X.besideRule = (s.core c).besideRule ∧
      ((s.core c).learnGrad = false → X = (s.core c).rowDone (s.core c).learnStep i) := by
  unfold State.commitRow
  by_cases hgrad : (s.core c).learnGrad = true
  · obtain ⟨K, hK, hrule⟩ := State.becomes_gradRow (s := s) (c := c) (i := i) (cs := cs) hg hf
    rw [if_pos hgrad]
    refine ⟨K, hK.modCore (·.setPending i false) fun _ _ _ _ => CoreSt.setPending_noted _ _ _, hrule, fun h => absurd hgrad (by simp [h])⟩
  · rw [if_neg hgrad]
    exact ⟨_, State.becomes_learnRow hf rfl, CoreSt.rowDone_besideRule, fun _ => rfl⟩

/-- A row that is marked dirty, or not, changes in that alone. -/
theorem State.Becomes.markDirty (h : s.Becomes l cs c k t) :
    s.Becomes l cs c k (t.markDirty c i) ∨ s.Becomes l cs c (k.setDirty i) (t.markDirty c i) := by
  unfold State.markDirty
  dsimp only
  split
  · exact .inr (h.modCore (·.setDirty i) fun _ _ _ _ => ⟨rfl, rfl⟩)
  · exact .inl h

/-- K is core X with row i no longer pending: its weights and what else LEARN goes by are as in X. -/
structure CoreSt.Commits (X K : CoreSt) (i : Nat) : Prop where
  rule : K.besideRule = X.besideRule
  learnt : K.learnt i = X.learnt i
  free : K.rPending i = false

theorem CoreSt.commits_setPending : k.Commits (k.setPending i false) i := by
  have hput (v : Nat) : (k.putRow i 0 v).besideRule = k.besideRule := rfl
  exact ⟨hput _, learnt_setPending, by rw [rPending_setPending, if_pos rfl]⟩

theorem CoreSt.Commits.setMarking (h : k.Commits K i) (a b : Nat) : k.Commits (K.setMarking a b) i := ⟨h.rule, h.learnt, h.free⟩

theorem CoreSt.Commits.setDirty (h : k.Commits K i) : k.Commits (K.setDirty i) i := ⟨h.rule, h.learnt, h.free⟩

theorem CoreSt.Commits.retires {X : CoreSt} (h : X.Commits K i) (hX : X.besideRule = k.besideRule) : k.Retires (K.dropRow i) i where
  rows := congrArg (·.filter (· != i)) (congrArg (·.2.1) (h.rule.trans hX))
  free := h.free
  pipe := congrArg (·.1) (h.rule.trans hX)

/-- The commands that wait for a core. -/
def CoreSt.waits (k : CoreSt) : Nat × Nat := (k.hostMb, k.snapWait)

/-- Row i of LEARN retires in core c alone: X is the core with its weights committed. -/
theorem State.becomes_retireRow : ∃ X K, s.Becomes [.gddr, .fault] [] c K (s.retireRow c i) ∧ (s.core c).Retires K i ∧
    K.waits = (s.core c).waits ∧ K.learnt i = X.learnt i ∧
    ((s.core c).learnGrad = false → X = (s.core c).underMark.rowDone (s.core c).learnStep i) := by
  have hmark : s.Becomes [.gddr, .fault] [] c (s.core c).underMark (s.setCore c (s.core c).underMark) := State.Becomes.refl.setCore _
  have hcore := State.core_setCore_self s c (s.core c).underMark
  obtain ⟨X, hX, hrule, hforward⟩ := State.becomes_commitRow (s := s.setCore c (s.core c).underMark) (c := c) (i := i)
    (l := [.gddr, .fault]) (cs := []) (by decide) (by decide)
  rw [hcore] at hrule hforward
  have hrow := (hX.after hmark).modCore (·.setMarking (s.core c).layer (s.core c).oper) fun _ _ _ _ => ⟨rfl, rfl⟩
  obtain ⟨K, hK, hcommits⟩ : ∃ K, s.Becomes [.gddr, .fault] [] c K
      (let v := ((s.setCore c (s.core c).underMark).commitRow c i).modCore c (·.setMarking (s.core c).layer (s.core c).oper)
        if (s.core c).learnGrad && fld (s.core c).trainCfg 31 30 != 1 then v else v.markDirty c i) ∧ X.Commits K i := by
    have hmarking := CoreSt.commits_setPending.setMarking (k := X) (i := i) (s.core c).layer (s.core c).oper
    dsimp only
    split
    · exact ⟨_, hrow, hmarking⟩
    · exact hrow.markDirty.elim (fun h => ⟨_, h, hmarking⟩) fun h => ⟨_, h, hmarking.setDirty⟩
  rw [State.retireRow_eq]
  exact ⟨X, K.dropRow i, (hK.trans State.notes_pmcEvent).modCore (·.dropRow i) fun _ _ _ _ => ⟨rfl, rfl⟩,
    hcommits.retires hrule, congrArg (·.2.2) (hcommits.rule.trans hrule), hcommits.learnt, hforward⟩

end Sys2Proof.Machine
end

section
/-! PROOF. LEARN commits its next row (06 R152 to R163; O14): the row retires, LEARN with its last one, and waiting commands go on. -/

namespace Sys2Proof.Machine

variable {l : List Part} {cs : List Nat} {k K : CoreSt} {c i n : Nat} {s t u v : State}

/-! ### Where no READ_WEIGHTS waits -/

/-- LEARN retires with its last row, or not: the row stands as it was committed. -/
theorem State.Becomes.learnCheck_row (h : s.Becomes l cs c K v) (hrow : k.Retires K i) :
    ∃ K', s.Becomes l cs c K' (v.learnCheck c) ∧ k.Retires K' i ∧ K'.waits = K.waits ∧ K'.learnt i = K.learnt i := by
  have hlearnt : (v.core c).learnt i = K.learnt i := h.get (·.learnt i)
  have hfree : (v.core c).rPending i = false := (h.get (·.rPending i)).trans hrow.free
  unfold State.learnCheck
  split
  · next hlast =>
    have hrows : (v.core c).learnRows = [] := by
      rw [Bool.and_eq_true] at hlast
      exact List.isEmpty_iff.mp hlast.2
    have hview := CoreSt.learnRetire_besideLearn.trans h.besideLearn
    refine ⟨_, h.setCore (v.core c).learnRetire, ⟨?_, CoreSt.learnRetire_row.2 hfree, ?_⟩,
      congrArg (·.1.2) hview, CoreSt.learnRetire_row.1.trans hlearnt⟩
    · rw [← hrow.rows, ← h.get (·.learnRows), hrows]
      rfl
    · exact (congrArg (·.1.1) hview).trans hrow.pipe
  · exact ⟨K, h, hrow, rfl, rfl⟩

/-! ### In general -/

theorem CoreSt.rPending_congr (h : K.besideRows = k.besideRows) : K.rPending i = k.rPending i := by
  have hrow : K.rowW = k.rowW := congrArg (·.2.2) h
  unfold rPending rowWord
  rw [hrow]

theorem CoreSt.Retires.congr {k' K' : CoreSt} (h : k.Retires K i) (hk : k.besideRows = k'.besideRows)
    (hK : K'.besideRows = K.besideRows) : k'.Retires K' i where
  rows := by
    have hrows : k.learnRows = k'.learnRows := congrArg (·.2.1) hk
    rw [← hrows, ← h.rows]
    exact congrArg (·.2.1) hK
  free := (CoreSt.rPending_congr hK).trans h.free
  pipe := (congrArg (·.1.1) hK).trans (h.pipe.trans (congrArg (·.1.1) hk))

/-- The parts that LEARN and the commands that wait for its rows can reach. -/
abbrev learnParts : List Part := mailParts ++ [.cores, .sectors, .gddr, .fault, .free]

/-- From s to t core c has retired row i of LEARN, and waiting commands may have gone on. -/
structure State.Retired (s : State) (c i : Nat) (t : State) : Prop where
  core : (s.core c).Retires (t.core c) i
  keeps : State.KeepsBut learnParts s t

theorem State.Becomes.besideRows (h : s.Becomes l cs c k t) : (t.core c).besideRows = k.besideRows := by
  rw [CoreSt.besideRows, CoreSt.besideRows, h.pipeline, h.get (·.touched), h.get (·.neuW), h.get (·.learnRows), h.get (·.rowW)]

theorem State.Retired.settles (h : s.Retired c i t) (h' : t.Settles u) : s.Retired c i u :=
  ⟨h.core.congr rfl (h'.core c), h.keeps.trans (h'.keeps.mono (by decide))⟩

theorem State.Retired.learnCheck (h : s.Retired c i t) : s.Retired c i (t.learnCheck c) := by
  obtain ⟨K, hK, hrow, -⟩ := (State.Becomes.refl (l := []) (cs := [])).learnCheck_row h.core
  exact ⟨hrow.congr rfl hK.besideRows, h.keeps.trans hK.keepsBut⟩

theorem State.retired_retireRow (hcore : (u.core c).besideRows = (s.core c).besideRows) (hkeeps : State.KeepsBut learnParts s u) :
    s.Retired c i (u.retireRow c i) := by
  obtain ⟨-, K, hK, hrow, -⟩ := State.becomes_retireRow (s := u) (c := c) (i := i)
  exact ⟨hrow.congr hcore hK.besideRows, hkeeps.trans hK.keepsBut⟩

/-- A row that LEARN retires, with the copies that a READ_WEIGHTS takes before or after. -/
theorem State.retired_retireCopied : s.Retired c i (s.retireCopied c i) := by
  have hrow : s.Retired c i (s.retireRow c i) := State.retired_retireRow rfl .refl
  unfold State.retireCopied
  dsimp only
  split
  · exact hrow
  · split
    · exact hrow.settles State.settles_copyRow
    · have hstall (m : Nat) : State.Notes [] [] c s (s.countCore c Ctr.snapshotStall m) := State.notes_countCore
      have hcopied (t : State) : t.drawn.Settles (t.drawn.copyRow c i) := State.settles_copyRow
      have hdrawn (m : Nat) : State.KeepsBut learnParts s (s.countCore c Ctr.snapshotStall m).drawn := by
        simpa using (hstall m).keepsBut (l' := learnParts)
      exact State.retired_retireRow (((hcopied _).core c).trans (hstall _).besideRows)
        ((hdrawn _).trans ((hcopied _).keeps.mono (by decide)))

/-! ### LEARN_ROW_RETIRE -/

theorem exec_learnRowRetire (c : CoreId) (s : State) (hnext : (s.core c.val).nextLearnRow = some i)
    (hlearning : (s.core c.val).learning = true) (hruns : s.sectorRuns (sectorOf c.val) = true)
    (hactive : (s.sector (sectorOf c.val)).mstate (indexOf c.val) = 0) (hrunning : s.Running c.val) {t : State}
    (ht : ((s.retireCopied c.val i).learnCheck c.val).settle c.val = t) (hnets : t.nets = s.nets)
    (hnet : (t.core c.val).net = (s.core c.val).net) : exec (.learnRowRetire c) s = .next t := by
  have hacts : ¬ (!(s.core c.val).learning || !s.sectorRuns (sectorOf c.val) ||
      (s.sector (sectorOf c.val)).mstate (indexOf c.val) != 0) = true := by
    simp [hlearning, hruns, hactive]
  have hof : t.netOf c.val = s.netOf c.val := State.netOf_congr hnet hnets
  have hstill := hrunning.still hof
  rw [State.haltCheckOf_eq (hof ▸ hrunning.1), hnet] at hstill
  change execLearnRowRetire c s = _
  unfold execLearnRowRetire
  dsimp only
  rw [hnext]
  dsimp only
  rw [if_neg hacts, ht, State.haltCheckOf_eq (hof ▸ hrunning.1), hstill]

/-! ### O14 -/

/-- Where no command waits for its rows, LEARN commits row i in core c alone, and the row stands as its rule leaves it. -/
theorem State.learnRow_alone {t : State} (ht : t = ((s.retireCopied c i).learnCheck c).settle c)
    (hsnap : (s.core c).snapWait = 0) (hmb : (s.core c).hostMb = 0) :
    (∃ K, s.Becomes [.gddr, .fault] [] c K t) ∧ ((s.core c).learnGrad = false →
      (t.core c).learnt i = ((s.core c).underMark.rowDone (s.core c).learnStep i).learnt i) := by
  obtain ⟨X, K, hK, hrow, hwaits, hlearnt, hforward⟩ := State.becomes_retireRow (s := s) (c := c) (i := i)
  obtain ⟨K', hK', -, hwaits', hlearnt'⟩ := hK.learnCheck_row hrow
  have hcopied : s.retireCopied c i = s.retireRow c i := if_pos (by simp [hsnap])
  have hall := hwaits'.trans hwaits
  rw [hcopied, State.settle_eq ((hK'.get (·.hostMb)).trans ((congrArg (·.1) hall).trans hmb))
    ((hK'.get (·.snapWait)).trans ((congrArg (·.2) hall).trans hsnap))] at ht
  subst ht
  exact ⟨⟨K', hK'⟩, fun hgrad => (hK'.get (·.learnt i)).trans (hlearnt'.trans (hforward hgrad ▸ hlearnt))⟩

theorem CoreSt.rowDone_of_not_walk (h : k.inWalk n i = false) : k.rowDone n i = (k.halved i).1 := if_neg (by simp [h])

theorem CoreSt.rowDone_of_walk (h : k.inWalk n i = true) : k.rowDone n i = ((k.ruled n i).1.delayLearn i (k.ruled n i).2.2).1 :=
  if_pos h

/-- Settles O14: the emit queue's head, by its destination, and the row that LEARN takes next. -/
theorem emissionAndLearnRows : Obligations.EmissionAndLearnRows := by
  refine ⟨?_, ?_⟩
  · intro c s k x rest n p e hk hn hp hruns hactive hq hwait he hhalt hphase
    subst hk hn hp
    refine ⟨emitSend_discards c s hruns hactive hwait ⟨hhalt, hphase⟩ hq, fun hsent hstops => ⟨fun it hit => ?_, ?_⟩⟩
    · exact emitSend_offers c s hruns hactive hwait ⟨hhalt, hphase⟩ hq hsent hstops he it hit
    · exact emitSend_schedules c s hruns hactive hwait ⟨hhalt, hphase⟩ hq hsent hstops he
  · intro c s k i n cols h r1 r hk hnext hlearning hruns hactive hmb hhalt hphase hn hcols hh hr1 hr
    obtain rfl : k = (s.core c.val).underMark := hk
    obtain rfl : cols = (s.core c.val).underMark.rowCols i := hcols
    obtain rfl : h = (s.core c.val).underMark.halved i := hh
    obtain rfl : r1 = (s.core c.val).underMark.rowTrace n i := hr1.trans (apply_ite Nat.cast _ _ _)
    obtain rfl : r = (s.core c.val).underMark.ruled n i := hr
    have hretired : s.Retired c.val i (((s.retireCopied c.val i).learnCheck c.val).settle c.val) :=
      State.retired_retireCopied.learnCheck.settles State.settles_settle
    have hexec := exec_learnRowRetire c s hnext hlearning hruns hactive ⟨hhalt, hphase⟩ rfl hretired.keeps.nets_eq
      (congrArg (·.net) hretired.core.pipe)
    have halone := fun hsnap => State.learnRow_alone (s := s) (c := c.val) (i := i) rfl hsnap hmb
    generalize ((s.retireCopied c.val i).learnCheck c.val).settle c.val = t at hretired hexec halone
    refine ⟨t, hexec, hretired.core.rows, hretired.core.free, congrArg (·.rq) hretired.core.pipe,
      fun hsnap hgrad hwalk => ?_, fun hsnap hgrad hwalk => ?_, fun hsnap => ?_, hretired.keeps⟩
    · have hrow := (halone hsnap).2 hgrad
      rw [← (show n = (s.core c.val).learnStep from hn), CoreSt.rowDone_of_not_walk hwalk] at hrow
      exact congrArg (·.1) hrow
    · have hrow := (halone hsnap).2 hgrad
      rw [← (show n = (s.core c.val).learnStep from hn), CoreSt.rowDone_of_walk hwalk] at hrow
      exact ⟨(congrArg (·.1) hrow).trans CoreSt.delayLearn_besideRule.2, congrArg (·.2.1) hrow, congrArg (·.2.2) hrow⟩
    · obtain ⟨⟨K, hK⟩, -⟩ := halone hsnap
      exact ⟨hK.cores, hK.keepsBut⟩

end Sys2Proof.Machine
end

section
/-! PROOF. Sequencers (03 R86, R89; O15): what an instruction word decodes to, and one instruction, trap or interrupt. -/

namespace Sys2Proof.Machine

variable {l : List Part} {cs : List Nat} {k : CoreSt} {q : SeqSt} {c : Nat} {s t : State}

/-! ### Instruction words -/

theorem nfld_eq_div (n hi lo : Nat) : nfld n hi lo = n / 2 ^ lo % 2 ^ (hi + 1 - lo) := by
  rw [nfld, Nat.shiftRight_eq_div_pow]

/-- The fields of an I-type word. -/
theorem encI_fields {op f3 rd rs1 imm : Nat} (hop : op < 128) (hf3 : f3 < 8) (hrd : rd < 32) (hrs1 : rs1 < 32) (himm : imm < 4096) :
    encI op f3 rd rs1 imm % 128 = op ∧ nfld (encI op f3 rd rs1 imm) 11 7 = rd ∧ nfld (encI op f3 rd rs1 imm) 19 15 = rs1 ∧
      nfld (encI op f3 rd rs1 imm) 31 20 = imm := by
  simp only [nfld_eq_div, encI, Nat.reducePow, Nat.reduceAdd, Nat.reduceSub]
  omega

/-- The fields of an R-type word. -/
theorem encR_fields {f7 f3 rd rs1 rs2 : Nat} (hf3 : f3 < 8) (hrd : rd < 32) (hrs1 : rs1 < 32) (hrs2 : rs2 < 32) :
    encR f7 f3 rd rs1 rs2 % 128 = 0x33 ∧ nfld (encR f7 f3 rd rs1 rs2) 11 7 = rd ∧ nfld (encR f7 f3 rd rs1 rs2) 19 15 = rs1 ∧
      nfld (encR f7 f3 rd rs1 rs2) 24 20 = rs2 := by
  simp only [nfld_eq_div, encR, Nat.reducePow, Nat.reduceAdd, Nat.reduceSub]
  omega

/-- The immediate of a branch as its word holds it. -/
def immB (w : Nat) : Nat := nfld w 31 31 * 4096 + nfld w 7 7 * 2048 + nfld w 30 25 * 32 + nfld w 11 8 * 2

/-- The immediate of a JAL as its word holds it. -/
def immJ (w : Nat) : Nat := nfld w 31 31 * 2 ^ 20 + nfld w 19 12 * 4096 + nfld w 20 20 * 2048 + nfld w 30 21 * 2

/-- The fields of a branch word of which a, b, d and e are the pieces of the immediate. -/
theorem branchWord_fields {a b d e f3 rs1 rs2 : Nat} (ha : a < 2) (hb : b < 64) (hd : d < 16) (he : e < 2) (hf3 : f3 < 8)
    (hrs1 : rs1 < 32) (hrs2 : rs2 < 32) {w : Nat}
    (hw : w = a * 2147483648 + b * 33554432 + rs1 * 32768 + f3 * 4096 + d * 256 + e * 128 + 99 + rs2 * 1048576) :
    w % 128 = 0x63 ∧ nfld w 14 12 = f3 ∧ nfld w 19 15 = rs1 ∧ nfld w 24 20 = rs2 ∧
      immB w = a * 4096 + e * 2048 + b * 32 + d * 2 := by
  have h31 : nfld w 31 31 = a := by rw [nfld_eq_div]; omega
  have h30 : nfld w 30 25 = b := by rw [nfld_eq_div]; omega
  have h11 : nfld w 11 8 = d := by rw [nfld_eq_div]; omega
  have h7 : nfld w 7 7 = e := by rw [nfld_eq_div]; omega
  refine ⟨by omega, ?_, ?_, ?_, by rw [immB, h31, h30, h11, h7]⟩
  · rw [nfld_eq_div]; omega
  · rw [nfld_eq_div]; omega
  · rw [nfld_eq_div]; omega

/-- The fields of a branch. -/
theorem encB_fields {f3 rs1 rs2 imm : Nat} (hf3 : f3 < 8) (hrs1 : rs1 < 32) (hrs2 : rs2 < 32) (himm : imm < 8192)
    (heven : imm % 2 = 0) : (encB f3 rs1 imm + rs2 * 2 ^ 20) % 128 = 0x63 ∧ nfld (encB f3 rs1 imm + rs2 * 2 ^ 20) 14 12 = f3 ∧
      nfld (encB f3 rs1 imm + rs2 * 2 ^ 20) 19 15 = rs1 ∧ nfld (encB f3 rs1 imm + rs2 * 2 ^ 20) 24 20 = rs2 ∧
      immB (encB f3 rs1 imm + rs2 * 2 ^ 20) = imm := by
  have hsum : imm / 4096 % 2 * 4096 + imm / 2048 % 2 * 2048 + imm / 32 % 64 * 32 + imm / 2 % 16 * 2 = imm := by omega
  have hfields := branchWord_fields (a := imm / 4096 % 2) (b := imm / 32 % 64) (d := imm / 2 % 16) (e := imm / 2048 % 2)
    (by omega) (by omega) (by omega) (by omega) hf3 hrs1 hrs2 (w := encB f3 rs1 imm + rs2 * 2 ^ 20)
    (by simp only [nfld_eq_div, encB, Nat.reducePow, Nat.reduceAdd, Nat.reduceSub])
  rwa [hsum] at hfields

/-- The fields of a jump word of which a, b, d and e are the pieces of the immediate. -/
theorem jumpWord_fields {a b d e rd : Nat} (ha : a < 2) (hb : b < 1024) (hd : d < 2) (he : e < 256) (hrd : rd < 32) {w : Nat}
    (hw : w = a * 2147483648 + b * 2097152 + d * 1048576 + e * 4096 + rd * 128 + 111) :
    w % 128 = 0x6F ∧ nfld w 11 7 = rd ∧ immJ w = a * 2 ^ 20 + e * 4096 + d * 2048 + b * 2 := by
  have h31 : nfld w 31 31 = a := by rw [nfld_eq_div]; omega
  have h30 : nfld w 30 21 = b := by rw [nfld_eq_div]; omega
  have h20 : nfld w 20 20 = d := by rw [nfld_eq_div]; omega
  have h19 : nfld w 19 12 = e := by rw [nfld_eq_div]; omega
  refine ⟨by omega, ?_, by rw [immJ, h31, h30, h20, h19]⟩
  rw [nfld_eq_div]; omega

/-- The fields of a JAL. -/
theorem encJ_fields {rd imm : Nat} (hrd : rd < 32) (himm : imm < 2 ^ 21) (heven : imm % 2 = 0) :
    encJ rd imm % 128 = 0x6F ∧ nfld (encJ rd imm) 11 7 = rd ∧ immJ (encJ rd imm) = imm := by
  have hsum : imm / 2 ^ 20 % 2 * 2 ^ 20 + imm / 4096 % 256 * 4096 + imm / 2048 % 2 * 2048 + imm / 2 % 1024 * 2 = imm := by omega
  have hfields := jumpWord_fields (a := imm / 2 ^ 20 % 2) (b := imm / 2 % 1024) (d := imm / 2048 % 2) (e := imm / 4096 % 256)
    (by omega) (by omega) (by omega) (by omega) hrd (w := encJ rd imm)
    (by simp only [nfld_eq_div, encJ, Nat.reducePow, Nat.reduceAdd, Nat.reduceSub])
  rwa [hsum] at hfields

/-- A word of instruction memory begins with its first halfword. -/
theorem memNat_two (m : Memory) (a : Nat) : memNat m a 2 % 4 = memNat m a 4 % 4 := by
  simp only [memNat, memRead, leNat]
  omega

/-! ### A change of the sequencer -/

/-- A core with another sequencer. -/
def CoreSt.setSeq (k : CoreSt) (q : SeqSt) : CoreSt := { k with seq := q }

/-- A sequencer that does not wait for an interrupt. -/
def SeqSt.awake (q : SeqSt) : SeqSt := { q with wfi := false }

/-- A sequencer whose pc went to `next` as an instruction retired. -/
def SeqSt.advanced (q : SeqSt) (next : Nat) : SeqSt := { q with pc := BitVec.ofNat 32 next, retired := q.retired + 1 }

@[simp] theorem SeqSt.reg_awake (q : SeqSt) (r : Nat) : q.awake.reg r = q.reg r := rfl

theorem SeqSt.setReg_awake (q : SeqSt) (r v : Nat) : q.awake.setReg r v = (q.setReg r v).awake := by
  unfold SeqSt.setReg
  split <;> rfl

@[simp] theorem SeqSt.retired_setReg (q : SeqSt) (r v : Nat) : (q.setReg r v).retired = q.retired := by
  unfold SeqSt.setReg
  split <;> rfl

theorem State.core_modSeq_self (s : State) (c : Nat) (f : SeqSt → SeqSt) :
    (s.modSeq c f).core c = (s.core c).setSeq (f (s.core c).seq) := State.core_setCore_self ..

theorem State.Becomes.modSeq (h : s.Becomes l cs c k t) (f : SeqSt → SeqSt) :
    s.Becomes l cs c (k.setSeq (f k.seq)) (t.modSeq c f) :=
  h.modCore (fun k => k.setSeq (f k.seq)) (fun _ _ _ _ => ⟨rfl, rfl⟩)

/-- A change of the sequencer alone leaves every other core and every other part. -/
theorem State.coresBut_modSeq (f : SeqSt → SeqSt) (h : State.CoresBut [c] s t) : State.CoresBut [c] s (t.modSeq c f) :=
  fun d hd => (State.core_setCore_ne _ _ _ _ (by simpa using hd)).trans (h d hd)

theorem State.keepsBut_modSeq (f : SeqSt → SeqSt) (h : State.KeepsBut [.cores] s t) : State.KeepsBut [.cores] s (t.modSeq c f) :=
  h.trans (by simp [State.modSeq, State.modCore_def])

/-! ### One instruction -/

theorem State.Becomes.retire (h : s.Becomes l cs c k t) (next : Nat) :
    s.Becomes l cs c (k.setSeq (k.seq.advanced next)) (t.retire c next) := 
  (h.modSeq fun q => q.advanced next).trans notes_pmcEvent

theorem State.Becomes.retireReg (h : s.Becomes l cs c k t) (next rd v : Nat) :
    s.Becomes l cs c (k.setSeq ((k.seq.setReg rd v).advanced next)) (t.retireReg c next rd v) :=
  (h.modSeq fun q => q.setReg rd v).retire next

/-- What an instruction word does, by its opcode. -/
theorem State.rvExec_opImm {pc next w v : Nat} (hop : w % 128 = 0x13)
    (hv : rvOp w ((s.core c).seq.reg (nfld w 19 15)) (sextTo 12 32 (nfld w 31 20)) true = some v) :
    s.rvExec c pc next w = s.retireReg c next (nfld w 11 7) v := by
  simp only [State.rvExec, hop, hv]

theorem State.rvExec_op {pc next w v : Nat} (hop : w % 128 = 0x33)
    (hv : rvOp w ((s.core c).seq.reg (nfld w 19 15)) ((s.core c).seq.reg (nfld w 24 20)) false = some v) :
    s.rvExec c pc next w = s.retireReg c next (nfld w 11 7) v := by
  simp only [State.rvExec, hop, hv]

theorem State.rvExec_branch {pc next w : Nat} {b : Bool} (hop : w % 128 = 0x63)
    (hb : rvTaken (nfld w 14 12) ((s.core c).seq.reg (nfld w 19 15)) ((s.core c).seq.reg (nfld w 24 20)) = some b) :
    s.rvExec c pc next w = s.retire c (if b then (pc + sextTo 13 32 (immB w)) % 2 ^ 32 else next) := by
  simp only [State.rvExec, hop, hb, immB]

theorem State.rvExec_jal {pc next w : Nat} (hop : w % 128 = 0x6F) :
    s.rvExec c pc next w = s.retireReg c ((pc + sextTo 21 32 (immJ w)) % 2 ^ 32) (nfld w 11 7) next := by
  simp only [State.rvExec, hop, immJ]

theorem State.rvExec_illegal {pc next w : Nat} (hop : w % 128 = 0x7F) : s.rvExec c pc next w = s.seqTrap c 2 w := by
  simp only [State.rvExec, hop]

/-- A fetch outside instruction memory. -/
theorem State.seqStep_outside (hpc : 0x8000 ≤ (s.core c).seq.pc.toNat) :
    s.seqStep c = (s.seqFault c).seqTrap c 1 (s.core c).seq.pc.toNat := by
  simp [State.seqStep, hpc]

/-- A 32-bit instruction inside instruction memory, at which no breakpoint hits. -/
theorem State.seqStep_word (hpc : (s.core c).seq.pc.toNat + 2 < 0x8000) (hhits : (s.core c).hits 0 (s.core c).seq.pc.toNat = [])
    (hw : memNat (s.core c).seq.imem (s.core c).seq.pc.toNat 4 % 4 = 3) :
    s.seqStep c = s.rvExec c (s.core c).seq.pc.toNat ((s.core c).seq.pc.toNat + 4)
      (memNat (s.core c).seq.imem (s.core c).seq.pc.toNat 4) := by
  have hfetch : ¬ 0x8000 ≤ (s.core c).seq.pc.toNat := by omega
  have hhalf : ¬ 0x8000 ≤ (s.core c).seq.pc.toNat + 2 := by omega
  rw [← memNat_two] at hw
  simp [State.seqStep, hfetch, hhalf, hhits, hw]

/-! ### The command -/

/-- A due interrupt is taken in place of an instruction. -/
theorem exec_sequencer_interrupt {c : CoreId} {s : State} (op : SeqOp) (hruns : s.seqRuns c.val = true)
    (hdue : ((s.core c.val).intPending && nbit (s.core c.val).seq.mieReg.toNat 11) = true) (hmie : (s.core c.val).seq.mie = true) :
    exec (.sequencerInstruction c op) s = .next ((s.modSeq c.val SeqSt.awake).modSeq c.val fun q => q.trap 11 0 true) := by
  change execSequencerInstruction c op s = _
  simp only [execSequencerInstruction, hruns, hdue, hmie, Bool.not_true, Bool.and_false, Bool.or_false, Bool.false_eq_true,
    if_false, Bool.and_self, if_true]
  rfl

/-- A sequencer that waits for an interrupt does nothing while none is due. -/
theorem exec_sequencer_waits {c : CoreId} {s : State} (op : SeqOp)
    (hdue : ((s.core c.val).intPending && nbit (s.core c.val).seq.mieReg.toNat 11) = false) (hwfi : (s.core c.val).seq.wfi = true) :
    exec (.sequencerInstruction c op) s = .next s := by
  change execSequencerInstruction c op s = _
  simp only [execSequencerInstruction, hdue, hwfi, Bool.not_false, Bool.and_self, Bool.or_true, if_true]

/-- Else the sequencer wakes and executes. -/
theorem exec_sequencer_execute {c : CoreId} {s : State} {due : Bool} (hruns : s.seqRuns c.val = true)
    (hdue : due = ((s.core c.val).intPending && nbit (s.core c.val).seq.mieReg.toNat 11))
    (hint : due = false ∨ (s.core c.val).seq.mie = false) (hwait : due = true ∨ (s.core c.val).seq.wfi = false) :
    exec (.sequencerInstruction c .execute) s = .next ((s.modSeq c.val SeqSt.awake).seqStep c.val) := by
  change execSequencerInstruction c .execute s = _
  have hstay : ((s.core c.val).seq.wfi && !due) = false := by
    rcases hwait with hwait | hwait <;> simp [hwait]
  have hno : (due && (s.core c.val).seq.mie) = false := by
    rcases hint with hint | hint <;> simp [hint]
  simp only [execSequencerInstruction, ← hdue, hruns, hstay, hno, Bool.not_true, Bool.or_false, Bool.false_eq_true, if_false]
  rfl

/-- The sequencer that an instruction leaves, as the statement writes it. -/
theorem SeqSt.advanced_awake (q : SeqSt) (next : Nat) :
    q.awake.advanced next = { q with pc := BitVec.ofNat 32 next, wfi := false, retired := q.retired + 1 } := rfl

theorem SeqSt.advanced_setReg_awake (q : SeqSt) (r v next : Nat) :
    (q.awake.setReg r v).advanced next =
      { q.setReg r v with pc := BitVec.ofNat 32 next, wfi := false, retired := q.retired + 1 } := by
  rw [setReg_awake, advanced_awake, retired_setReg]

/-- An address is reduced to the width of the pc. -/
theorem SeqSt.advanced_mod (q : SeqSt) (next : Nat) : q.advanced (next % 2 ^ 32) = q.advanced next := by
  have hpc : BitVec.ofNat 32 (next % 2 ^ 32) = BitVec.ofNat 32 next := BitVec.eq_of_toNat_eq (by simp)
  rw [SeqSt.advanced, hpc, SeqSt.advanced]

section
variable {rd rs1 rs2 : Nat} (hrd : rd < 32) (hrs1 : rs1 < 32) (hrs2 : rs2 < 32) (hq : (s.core c).seq = q.awake)
include hrd hrs1 hq

/-- Arithmetic of a register and an immediate writes its register. -/
theorem State.becomes_opImm {f3 imm v : Nat} (hf3 : f3 < 8) (himm : imm < 4096)
    (hv : rvOp (encI 0x13 f3 rd rs1 imm) (q.reg rs1) (sextTo 12 32 imm) true = some v) :
    s.Becomes [] [] c
      ((s.core c).setSeq { q.setReg rd v with pc := BitVec.ofNat 32 (q.pc.toNat + 4), wfi := false, retired := q.retired + 1 })
      (s.rvExec c q.pc.toNat (q.pc.toNat + 4) (encI 0x13 f3 rd rs1 imm)) := by
  obtain ⟨hop, hfrd, hfrs1, hfimm⟩ := encI_fields (op := 0x13) (by decide) hf3 hrd hrs1 himm
  rw [State.rvExec_opImm hop (by rw [hfrs1, hfimm, hq]; exact hv), hfrd, ← SeqSt.advanced_setReg_awake, ← hq]
  exact State.Becomes.refl.retireReg _ _ _

include hrs2

/-- Arithmetic of two registers writes its register. -/
theorem State.becomes_op {f7 f3 v : Nat} (hf3 : f3 < 8)
    (hv : rvOp (encR f7 f3 rd rs1 rs2) (q.reg rs1) (q.reg rs2) false = some v) :
    s.Becomes [] [] c
      ((s.core c).setSeq { q.setReg rd v with pc := BitVec.ofNat 32 (q.pc.toNat + 4), wfi := false, retired := q.retired + 1 })
      (s.rvExec c q.pc.toNat (q.pc.toNat + 4) (encR f7 f3 rd rs1 rs2)) := by
  obtain ⟨hop, hfrd, hfrs1, hfrs2⟩ := encR_fields (f7 := f7) hf3 hrd hrs1 hrs2
  rw [State.rvExec_op hop (by rw [hfrs1, hfrs2, hq]; exact hv), hfrd, ← SeqSt.advanced_setReg_awake, ← hq]
  exact State.Becomes.refl.retireReg _ _ _

omit hrd in
/-- A branch goes to its target or on. -/
theorem State.becomes_branch {f3 imm : Nat} {b : Bool} (hf3 : f3 < 8) (himm : imm < 8192) (heven : imm % 2 = 0)
    (hb : rvTaken f3 (q.reg rs1) (q.reg rs2) = some b) :
    s.Becomes [] [] c
      ((s.core c).setSeq { q with
        pc := BitVec.ofNat 32 (if b then q.pc.toNat + sextTo 13 32 imm else q.pc.toNat + 4), wfi := false,
        retired := q.retired + 1 })
      (s.rvExec c q.pc.toNat (q.pc.toNat + 4) (encB f3 rs1 imm + rs2 * 2 ^ 20)) := by
  obtain ⟨hop, hff3, hfrs1, hfrs2, hfimm⟩ := encB_fields hf3 hrs1 hrs2 himm heven
  have hpc : q.awake.advanced (if b then q.pc.toNat + sextTo 13 32 imm else q.pc.toNat + 4) =
      q.awake.advanced (if b then (q.pc.toNat + sextTo 13 32 imm) % 2 ^ 32 else q.pc.toNat + 4) := by
    cases b with
    | true => exact (SeqSt.advanced_mod ..).symm
    | false => rfl
  rw [State.rvExec_branch hop (by rw [hff3, hfrs1, hfrs2, hq]; exact hb), hfimm, ← SeqSt.advanced_awake, hpc, ← hq]
  exact State.Becomes.refl.retire _

omit hrs1 hrs2 in
/-- JAL links and jumps. -/
theorem State.becomes_jal {imm : Nat} (himm : imm < 2 ^ 21) (heven : imm % 2 = 0) :
    s.Becomes [] [] c
      ((s.core c).setSeq { q.setReg rd (q.pc.toNat + 4) with
        pc := BitVec.ofNat 32 (q.pc.toNat + sextTo 21 32 imm), wfi := false, retired := q.retired + 1 })
      (s.rvExec c q.pc.toNat (q.pc.toNat + 4) (encJ rd imm)) := by
  obtain ⟨hop, hfrd, hfimm⟩ := encJ_fields hrd himm heven
  rw [State.rvExec_jal hop, hfrd, hfimm, ← SeqSt.advanced_setReg_awake, ← SeqSt.advanced_mod, ← hq]
  exact State.Becomes.refl.retireReg _ _ _

end

/-- The word w of arithmetic, a branch or a JAL with its registers, at the pc of q, makes u of q. -/
def SeqSt.Makes (q : SeqSt) (w rd rs1 rs2 : Nat) (u : SeqSt) : Prop :=
  (∃ f3 imm v, f3 < 8 ∧ imm < 4096 ∧ w = encI 0x13 f3 rd rs1 imm ∧ rvOp w (q.reg rs1) (sextTo 12 32 imm) true = some v ∧
      u = { q.setReg rd v with pc := BitVec.ofNat 32 (q.pc.toNat + 4) }) ∨
  (∃ f7 f3 v, f7 < 128 ∧ f3 < 8 ∧ w = encR f7 f3 rd rs1 rs2 ∧ rvOp w (q.reg rs1) (q.reg rs2) false = some v ∧
      u = { q.setReg rd v with pc := BitVec.ofNat 32 (q.pc.toNat + 4) }) ∨
  (∃ f3 imm b, f3 < 8 ∧ imm < 8192 ∧ imm % 2 = 0 ∧ w = encB f3 rs1 imm + rs2 * 2 ^ 20 ∧
      rvTaken f3 (q.reg rs1) (q.reg rs2) = some b ∧
      u = { q with pc := BitVec.ofNat 32 (if b then q.pc.toNat + sextTo 13 32 imm else q.pc.toNat + 4) }) ∨
  (∃ imm, imm < 2 ^ 21 ∧ imm % 2 = 0 ∧ w = encJ rd imm ∧
      u = { q.setReg rd (q.pc.toNat + 4) with pc := BitVec.ofNat 32 (q.pc.toNat + sextTo 21 32 imm) })

/-- Such a word executes as it says, and is no compressed instruction. -/
theorem SeqSt.Makes.becomes {w rd rs1 rs2 : Nat} {u : SeqSt} (h : q.Makes w rd rs1 rs2 u) (hrd : rd < 32) (hrs1 : rs1 < 32)
    (hrs2 : rs2 < 32) (hq : (s.core c).seq = q.awake) :
    w % 4 = 3 ∧ s.Becomes [] [] c ((s.core c).setSeq { u with wfi := false, retired := q.retired + 1 })
      (s.rvExec c q.pc.toNat (q.pc.toNat + 4) w) := by
  have hmod {n op : Nat} (hop : n % 128 = op) (h : op % 4 = 3) : n % 4 = 3 := by omega
  rcases h with ⟨f3, imm, v, hf3, himm, rfl, hv, rfl⟩ | ⟨f7, f3, v, hf7, hf3, rfl, hv, rfl⟩ |
    ⟨f3, imm, b, hf3, himm, heven, rfl, hb, rfl⟩ | ⟨imm, himm, heven, rfl, rfl⟩
  · exact ⟨hmod (encI_fields (by decide) hf3 hrd hrs1 himm).1 rfl, State.becomes_opImm hrd hrs1 hq hf3 himm hv⟩
  · exact ⟨hmod (encR_fields hf3 hrd hrs1 hrs2).1 rfl, State.becomes_op hrd hrs1 hrs2 hq hf3 hv⟩
  · exact ⟨hmod (encB_fields hf3 hrs1 hrs2 himm heven).1 rfl, State.becomes_branch hrs1 hrs2 hq hf3 himm heven hb⟩
  · exact ⟨hmod (encJ_fields hrd himm heven).1 rfl, State.becomes_jal hrd hq himm heven⟩

/-- The trap of the external interrupt; a vectored one goes to its own entry. -/
theorem SeqSt.trap_interrupt (hmie : q.mie = true) :
    q.awake.trap 11 0 true = { q with
      wfi := false, mepc := q.pc, mcause := 0x8000000B, mtval := 0, mpie := true, mie := false
      pc := BitVec.ofNat 32 (q.mtvec.toNat / 4 * 4 + if q.mtvec.toNat % 4 = 1 then 44 else 0) } := by
  have hpc : (if (true && q.mtvec.toNat % 4 == 1) = true then q.mtvec.toNat / 4 * 4 + 4 * 11 else q.mtvec.toNat / 4 * 4) =
      q.mtvec.toNat / 4 * 4 + if q.mtvec.toNat % 4 = 1 then 44 else 0 := by
    by_cases hmode : q.mtvec.toNat % 4 = 1 <;> simp [hmode]
  simp only [SeqSt.trap, SeqSt.awake, hmie, hpc]
  rfl

section
variable {c : CoreId} (hruns : s.seqRuns c.val = true)
include hruns

/-- A due interrupt: the trap is taken. -/
theorem sequencer_takesInterrupt (op : SeqOp) (hq : q = (s.core c.val).seq)
    (hdue : ((s.core c.val).intPending && nbit q.mieReg.toNat 11) = true) (hmie : q.mie = true) :
    ∃ t, exec (.sequencerInstruction c op) s = .next t ∧
      (t.core c.val).seq = { q with
        wfi := false, mepc := q.pc, mcause := 0x8000000B, mtval := 0, mpie := true, mie := false
        pc := BitVec.ofNat 32 (q.mtvec.toNat / 4 * 4 + if q.mtvec.toNat % 4 = 1 then 44 else 0) } ∧
      State.CoresBut [c.val] s t ∧ State.KeepsBut [.cores] s t := by
  subst hq
  refine ⟨_, exec_sequencer_interrupt op hruns hdue hmie, ?_, State.coresBut_modSeq _ (State.coresBut_modSeq _ fun _ _ => rfl),
    State.keepsBut_modSeq _ (State.keepsBut_modSeq _ .refl)⟩
  rw [State.core_modSeq_self, State.core_modSeq_self]
  exact SeqSt.trap_interrupt hmie

variable {due : Bool} (hdue : due = ((s.core c.val).intPending && nbit (s.core c.val).seq.mieReg.toNat 11))
  (hint : due = false ∨ (s.core c.val).seq.mie = false) (hwait : due = true ∨ (s.core c.val).seq.wfi = false)
include hdue hint hwait

/-- Arithmetic, a branch or a JAL at the pc. -/
theorem sequencer_executesWord {w rd rs1 rs2 : Nat} {u : SeqSt} (hq : q = (s.core c.val).seq) (hpc : q.pc.toNat + 2 < 0x8000)
    (hhits : (s.core c.val).hits 0 q.pc.toNat = []) (hw : w = memNat q.imem q.pc.toNat 4) (hrd : rd < 32) (hrs1 : rs1 < 32)
    (hrs2 : rs2 < 32) (hu : q.Makes w rd rs1 rs2 u) :
    ∃ t, exec (.sequencerInstruction c .execute) s = .next t ∧
      (t.core c.val).seq = { u with wfi := false, retired := q.retired + 1 } ∧ s.SameBytes t ∧
      State.CoresBut [c.val] s t ∧ State.KeepsBut [.cores, .sectors, .ctr] s t := by
  subst hq
  have hexec := exec_sequencer_execute hruns hdue hint hwait
  have hwoken : State.Becomes [] [] c.val _ s (s.modSeq c.val SeqSt.awake) := State.Becomes.refl.modSeq SeqSt.awake
  have hcore := State.core_modSeq_self s c.val SeqSt.awake
  generalize s.modSeq c.val SeqSt.awake = s' at hexec hwoken hcore
  have hseq : (s'.core c.val).seq = (s.core c.val).seq.awake := by rw [hcore]; rfl
  obtain ⟨hw4, hrun⟩ := hu.becomes hrd hrs1 hrs2 hseq
  have hstep : s'.seqStep c.val = s'.rvExec c.val (s.core c.val).seq.pc.toNat ((s.core c.val).seq.pc.toNat + 4) w := by
    rw [State.seqStep_word (by rw [hseq]; exact hpc) (by rw [hcore]; exact hhits) (by rw [hseq]; exact hw ▸ hw4), hseq, hw]
    rfl
  have hall := hrun.after hwoken
  exact ⟨_, hexec.trans (congrArg _ hstep), hall.get (·.seq), hall.sameBytes, hall.cores, hall.keepsBut⟩

/-- An illegal word at the pc. -/
theorem sequencer_trapsIllegal (hq : q = (s.core c.val).seq) (hpc : q.pc.toNat + 2 < 0x8000)
    (hhits : (s.core c.val).hits 0 q.pc.toNat = []) (hw : memNat q.imem q.pc.toNat 4 % 128 = 0x7F) :
    ∃ t, exec (.sequencerInstruction c .execute) s = .next t ∧ (t.core c.val).seq.mepc = q.pc ∧
      (t.core c.val).seq.mcause = 2 ∧ (t.core c.val).seq.mtval = BitVec.ofNat 32 (memNat q.imem q.pc.toNat 4) ∧
      (t.core c.val).seq.regs = q.regs ∧ State.CoresBut [c.val] s t ∧ State.KeepsBut [.cores] s t := by
  subst hq
  have hexec := exec_sequencer_execute hruns hdue hint hwait
  have hcore := State.core_modSeq_self s c.val SeqSt.awake
  have hcores : State.CoresBut [c.val] s (s.modSeq c.val SeqSt.awake) := State.coresBut_modSeq _ fun _ _ => rfl
  have hkeeps : State.KeepsBut [.cores] s (s.modSeq c.val SeqSt.awake) := State.keepsBut_modSeq _ .refl
  generalize s.modSeq c.val SeqSt.awake = s' at hexec hcore hcores hkeeps
  have hseq : (s'.core c.val).seq = (s.core c.val).seq.awake := by rw [hcore]; rfl
  have hstep : s'.seqStep c.val = s'.seqTrap c.val 2 (memNat (s.core c.val).seq.imem (s.core c.val).seq.pc.toNat 4) := by
    rw [State.seqStep_word (by rw [hseq]; exact hpc) (by rw [hcore]; exact hhits)
      (by rw [hseq]; change memNat (s.core c.val).seq.imem (s.core c.val).seq.pc.toNat 4 % 4 = 3; omega), hseq]
    exact State.rvExec_illegal hw
  have htrap := State.core_modSeq_self s' c.val fun q =>
    q.trap 2 (memNat (s.core c.val).seq.imem (s.core c.val).seq.pc.toNat 4) false
  rw [hseq] at htrap
  refine ⟨_, hexec.trans (congrArg _ hstep), ?_, ?_, ?_, ?_, State.coresBut_modSeq _ hcores, State.keepsBut_modSeq _ hkeeps⟩ <;>
    rw [State.seqTrap, htrap] <;> rfl

/-- A fetch outside instruction memory. -/
theorem sequencer_faultsOutside (hq : q = (s.core c.val).seq) (hpc : 0x8000 ≤ q.pc.toNat) :
    ∃ t, exec (.sequencerInstruction c .execute) s = .next t ∧ (t.core c.val).seq.mepc = q.pc ∧
      (t.core c.val).seq.mcause = 1 ∧ (t.core c.val).seq.mtval = q.pc ∧ (t.core c.val).seq.regs = q.regs ∧
      t.ctrAt Scope.core c.val Ctr.seqAccessFault noSub 0 =
        satCtr (s.ctrAt Scope.core c.val Ctr.seqAccessFault noSub 0 + 1) ∧ s.SameBytes t ∧
      State.CoresBut [c.val] s t ∧ State.KeepsBut [.cores, .sectors, .ctr] s t := by
  subst hq
  have hexec := exec_sequencer_execute hruns hdue hint hwait
  have hwoken : State.Becomes [] [] c.val _ s (s.modSeq c.val SeqSt.awake) := State.Becomes.refl.modSeq SeqSt.awake
  have hseq : ((s.modSeq c.val SeqSt.awake).core c.val).seq = (s.core c.val).seq.awake := by rw [State.core_modSeq_self]; rfl
  have hctr : (s.modSeq c.val SeqSt.awake).ctrAt = s.ctrAt := rfl
  generalize s.modSeq c.val SeqSt.awake = s' at hexec hwoken hseq hctr
  have hstep : s'.seqStep c.val = (s'.seqFault c.val).seqTrap c.val 1 (s.core c.val).seq.pc.toNat := by
    rw [State.seqStep_outside (by rw [hseq]; exact hpc), hseq]
    rfl
  have hall := (hwoken.trans (State.notes_countCore (id := Ctr.seqAccessFault) (inc := 1))).modSeq
    fun q => q.trap 1 (s.core c.val).seq.pc.toNat false
  have hcount := State.ctrAt_countCore_self (s := s') (c := c.val) (id := Ctr.seqAccessFault) (by omega) one_ne_zero
  rw [hctr] at hcount
  exact ⟨_, hexec.trans (congrArg _ hstep), hall.get (·.seq.mepc), hall.get (·.seq.mcause),
    (hall.get (·.seq.mtval)).trans (BitVec.ofNat_toNat 32 _), hall.get (·.seq.regs), hcount,
    hall.sameBytes, hall.cores, hall.keepsBut⟩

end

/-- Settles O15: each form of the command by its own rule. -/
theorem sequencersExecute : Obligations.SequencersExecute := by
  unfold Obligations.SequencersExecute
  rintro c s k q due rfl rfl hruns hdue
  refine ⟨fun h hmie op => sequencer_takesInterrupt hruns op rfl (hdue ▸ h) hmie,
    fun h hwfi op => exec_sequencer_waits op (hdue ▸ h) hwfi, fun hint hwait => ⟨?_, ?_, ?_⟩⟩
  · intro w rd rs1 rs2 u hpc hhits hw hrd hrs1 hrs2 hu
    exact sequencer_executesWord hruns hdue hint hwait rfl hpc hhits hw hrd hrs1 hrs2 hu
  · exact sequencer_trapsIllegal hruns hdue hint hwait rfl
  · exact sequencer_faultsOutside hruns hdue hint hwait rfl

end Sys2Proof.Machine
end

section
/-! SUPPORT. The way of a mailbox command (13 R334 to R337) with tracing off: it executes when its turn has come, and its completion
stands in the journal and in the completion slot. -/

namespace Sys2Proof.Machine

variable {s t u v : State} {m op k code reason rf n : Nat} {e : JEntry} {inline : List Byte}

/-! ### Its turn -/

theorem State.traceRing_off (h : s.traceOn = false) (bit kind unit mark a b : Nat) :
    s.traceRing bit kind unit mark a b = s := by
  simp [State.traceRing, h]

/-- A command whose turn it is executes. -/
theorem State.Ready.runCmd (h : s.Ready m op e) (f : State → JEntry → State) : s.runCmd m op f = f s e := by
  obtain ⟨hserving, hfront, hauth, hheld, hmem, htrace⟩ := h
  simp [State.runCmd, hserving, hfront, State.traceRing_off htrace, hauth, hheld, hmem]

theorem State.Ready.traceOn_eq (h : s.Ready m op e) : s.traceOn = false := by
  obtain ⟨-, -, -, -, -, htrace⟩ := h
  exact htrace

theorem State.Ready.traceOn_congr (h : s.Ready m op e) (ht : t.traceCtrl = s.traceCtrl) : t.traceOn = false := by
  rw [State.traceOn, ht]
  exact h.traceOn_eq

/-- It is the first entry of its journal that has not completed. -/
theorem State.Ready.oldest_eq (h : s.Ready m op e) : s.oldest m = some e := by
  obtain ⟨-, hfront, -⟩ := h
  unfold State.front at hfront
  split at hfront
  · next x hx =>
    split at hfront
    · rw [hx, Option.some.inj hfront]
    · cases hfront
  · cases hfront

theorem State.Ready.mem_journal (h : s.Ready m op e) : e ∈ (s.mb m).journal := List.mem_of_find?_eq_some h.oldest_eq

/-- The network that a command names is loaded and not shed. -/
theorem State.needNet_loaded (himage : (s.net (cmdNet e.cmd)).image ≠ 0) (hshed : (s.net (cmdNet e.cmd)).shed = false)
    (f : State → State) : (s.needNet m e fun s => s.needNotShed m e f) = f s := by
  simp [State.needNet, State.needNotShed, himage, hshed]

/-! ### Its record -/

theorem fitBytes_length (n : Nat) (l : List Byte) : (fitBytes n l).length = n := by
  simp only [fitBytes, zeros, List.length_append, List.length_take, List.length_replicate]
  omega

theorem recordBytes_length (e : JEntry) (code rflags reason epoch resBytes now : Nat) (inline : List Byte) :
    (recordBytes e code rflags reason epoch resBytes now inline).length = 64 := by
  simp [recordBytes, fitBytes_length, zeros]

theorem mem_putEntry {l : List JEntry} {x : JEntry} (h : x ∈ l) (hseq : x.seq = e.seq) : e ∈ putEntry l e :=
  List.mem_map.mpr ⟨x, h, if_pos hseq⟩

/-- The mailbox after an event bit of it is raised. -/
theorem State.mb_raiseMb (b : Nat) (msix : Bool) (j : Nat) :
    (s.raiseMb m b msix).mb j = if j = m then { s.mb m with event := nsetBit (s.mb m).event b } else s.mb j := by
  have hfire (was : Bool) (w : Nat) (u : State) : (fireIf was w u).mb j = u.mb j := by
    rw [State.mb, State.keepsBut_fireIf.mbox_eq, State.mb]
  unfold State.raiseMb
  dsimp only
  split
  · rw [hfire, State.modMb_def, State.mb_setMb]
  · rw [State.modMb_def, State.mb_setMb]

/-- A record shown in the completion slot of its mailbox. -/
theorem State.mb_showRecord (r : List Byte) (j : Nat) : (s.showRecord m e r).mb j = if j = m then
    { s.mb m with comp := memWrite (s.mb m).comp (64 * (e.seq % 64)) r, event := nsetBit (s.mb m).event 1 } else s.mb j := by
  have hshown (w : Bool) : ((s.modMb m fun b => { b with comp := memWrite b.comp (64 * (e.seq % 64)) r }).raiseMb m 1 w).mb j =
      if j = m then { s.mb m with comp := memWrite (s.mb m).comp (64 * (e.seq % 64)) r, event := nsetBit (s.mb m).event 1 }
      else s.mb j := by
    rw [State.mb_raiseMb, State.modMb_def, State.mb_setMb_self]
    split
    · rfl
    · next h => rw [State.mb_setMb_ne _ _ _ _ h]
  unfold State.showRecord
  dsimp only
  split
  · exact hshown _
  · exact hshown _

theorem State.complete_off (h : s.traceOn = false) (short : Bool) : s.complete m e code reason inline n short =
    (s.modMb m fun b => { b with
      journal := putEntry b.journal { e with st := 2, record := recordBytes e code (2 * b2n short) reason s.ao.epoch n s.now inline }
      highDone := max b.highDone e.seq }).showRecord m e (recordBytes e code (2 * b2n short) reason s.ao.epoch n s.now inline) := by
  have hoff (f : MboxSt → MboxSt) (r : List Byte) : ((s.modMb m f).showRecord m e r).traceOn = false := by
    have hset : State.KeepsBut mailParts s (s.modMb m f) := by simp
    rw [State.traceOn, (hset.trans State.keepsBut_showRecord).traceCtrl_eq]
    exact h
  exact State.traceRing_off (hoff _ _) ..

/-- An entry of the journal completes. -/
theorem State.completes_complete (htrace : s.traceOn = false) {x : JEntry} (hmem : x ∈ (s.mb m).journal) (hseq : x.seq = e.seq)
    (short : Bool := false) :
    s.Completes (s.complete m e code reason inline n short) m e code reason inline (2 * b2n short) n := by
  rw [State.complete_off htrace]
  refine ⟨⟨{ e with st := 2, record := recordBytes e code (2 * b2n short) reason s.ao.epoch n s.now inline }, ?_, rfl, rfl, rfl⟩, ?_,
    fun j hj => ?_⟩
  · rw [State.mb_showRecord, if_pos rfl, State.modMb_def, State.mb_setMb_self]
    exact mem_putEntry hmem hseq
  · rw [State.mb_showRecord, if_pos rfl]
    conv_lhs => rw [← recordBytes_length e code (2 * b2n short) reason s.ao.epoch n s.now inline]
    exact memRead_memWrite ..
  · have hne : j ≠ m := by simpa using hj
    rw [State.mb_showRecord, if_neg hne, State.modMb_def, State.mb_setMb_ne _ _ _ _ hne]

theorem State.keepsBut_complete_off (htrace : s.traceOn = false) (short : Bool := false) :
    State.KeepsBut mailParts s (s.complete m e code reason inline n short) := by
  have hset (f : MboxSt → MboxSt) : State.KeepsBut mailParts s (s.modMb m f) := by simp
  rw [State.complete_off htrace]
  exact (hset _).trans State.keepsBut_showRecord

/-- What a completion says of its mailbox and the others, carried over what comes before and after it. -/
theorem State.Completes.carry (h : u.Completes v m e code reason inline rf n) (hao : u.ao = s.ao) (hmb : State.MbBut [m] s u)
    (hend : t.mbox = v.mbox) : s.Completes t m e code reason inline rf n := by
  have hnow : u.now = s.now := congrArg AoSt.time hao
  have hsame (j : Nat) : t.mb j = v.mb j := by rw [State.mb, hend, State.mb]
  obtain ⟨hjournal, hslot, hothers⟩ := h
  rw [hao, hnow] at hjournal hslot
  exact ⟨(hsame m).symm ▸ hjournal, (hsame m).symm ▸ hslot, fun j hj => (hsame j).trans ((hothers j hj).trans (hmb j hj))⟩

/-- A ready command completes DONE. -/
theorem State.Ready.finishes (h : s.Ready m op e) (hao : u.ao = s.ao) (htrace : u.traceCtrl = s.traceCtrl)
    (hmbox : u.mbox = s.mbox) (hend : t.mbox = (u.finish m e inline).mbox) :
    s.Completes t m e codeDone 0 inline := by
  have hmb (j : Nat) : u.mb j = s.mb j := by rw [State.mb, hmbox, State.mb]
  have hdone : u.Completes (u.finish m e inline) m e codeDone 0 inline :=
    State.completes_complete (h.traceOn_congr htrace) (x := e) ((hmb m).symm ▸ h.mem_journal) rfl
  exact hdone.carry hao (fun j _ => hmb j) hend

end Sys2Proof.Machine
end

section
/-! PROOF. SET_STEP_SOURCE, RUN and HALT_RUN (14 R361, R362; 05 R135, R136; O38), one lemma for each outcome. -/

namespace Sys2Proof.Machine

variable {s t u : State} {m : MboxId} {k : Nat} {e : JEntry}

theorem State.net_congr (h : t.nets = s.nets) : t.net = s.net := by
  funext j
  rw [State.net, h, State.net]

theorem State.core_congr (h : t.cores = s.cores) : t.core = s.core := by
  funext c
  rw [State.core, h, State.core]

/-- The completion of a command before its network changes. -/
theorem State.finish_net {inline : List Byte} {i : Nat} (h : s.traceOn = false) : (s.finish i e inline).net = s.net :=
  State.net_congr (State.keepsBut_complete_off h).nets_eq

/-! ### SET_STEP_SOURCE -/

section

variable {kind ch p : Nat}

/-- The channel of a TIMER source begins to run free. -/
def State.startChannel (s : State) (kind ch p : Nat) : State := if kind = 1 then s.modTmr ch fun t => t.freeRunning p else s

theorem State.keepsBut_startChannel : State.KeepsBut [.timers] s (s.startChannel kind ch p) := by simp [State.startChannel]

theorem State.tmr_startChannel_self (h : kind = 1) : (s.startChannel kind ch p).tmr ch = (s.tmr ch).freeRunning p := by
  rw [State.startChannel, if_pos h, State.modTmr_def, State.tmr_setTmr_self]

theorem State.tmr_startChannel_ne {c : Nat} (h : c ≠ ch ∨ kind ≠ 1) : (s.startChannel kind ch p).tmr c = s.tmr c := by
  unfold State.startChannel
  split
  · next hkind => exact State.tmr_setTmr_ne _ _ _ _ (h.resolve_right (not_not_intro hkind))
  · rfl

/-- The end of the command, whatever it changes in the network. -/
theorem setStepSource_effect (hready : s.Ready m.val 0x22 e) (f : NetSt → NetSt)
    (ht : t = ((s.startChannel kind ch p).finish m.val e).modNet k f) :
    s.Completes t m.val e codeDone 0 ∧ t.net k = f (s.net k) ∧ State.NetsBut [k] s t ∧
      (kind = 1 → (t.tmr ch).limit = p - 1 ∧ (t.tmr ch).on = true ∧ (t.tmr ch).count = 0 ∧ (t.tmr ch).div = 0 ∧
        (t.tmr ch).pre = 0) ∧
      (∀ c, c ≠ ch ∨ kind ≠ 1 → t.tmr c = s.tmr c) ∧ State.KeepsBut (mailParts ++ [Part.nets, .timers]) s t := by
  have hchannel : State.KeepsBut [.timers] s (s.startChannel kind ch p) := State.keepsBut_startChannel
  have hdone : State.KeepsBut mailParts (s.startChannel kind ch p) ((s.startChannel kind ch p).finish m.val e) :=
    State.keepsBut_complete_off (hready.traceOn_congr hchannel.traceCtrl_eq)
  have hnet : ((s.startChannel kind ch p).finish m.val e).net = s.net :=
    State.net_congr (hdone.nets_eq.trans hchannel.nets_eq)
  have htimers : t.timers = (s.startChannel kind ch p).timers := by
    rw [ht]
    simpa using hdone.timers_eq
  have htmr (c : Nat) : t.tmr c = (s.startChannel kind ch p).tmr c := by rw [State.tmr, htimers, State.tmr]
  refine ⟨hready.finishes hchannel.ao_eq hchannel.traceCtrl_eq hchannel.mbox_eq (by rw [ht]; simp), ?_, fun j hj => ?_,
    fun hkind => ?_, fun c hc => (htmr c).trans (State.tmr_startChannel_ne hc), ?_⟩
  · rw [ht, State.modNet_def, State.net_setNet_self, hnet]
  · rw [ht, State.modNet_def, State.net_setNet_ne _ _ _ _ (by simpa using hj), hnet]
  · rw [htmr, State.tmr_startChannel_self hkind]
    exact ⟨rfl, rfl, rfl, rfl, rfl⟩
  · rw [ht]
    simpa using (hchannel.mono (by decide)).trans (hdone.mono (by decide))

variable (hready : s.Ready m.val 0x22 e) (hk : k = cmdNet e.cmd) (himage : (s.net k).image ≠ 0) (hshed : (s.net k).shed = false)
  (hkind : kind = leAt e.cmd 0x40 1) (hch : ch = if kind = 3 then 0 else leAt e.cmd 0x41 1) (hp : p = leAt e.cmd 0x44 4)
  (hfits : s.sourceFits k kind p = true) (hfree : kind ≠ 3 → s.channelTaken k ch = false)
  (hslave : kind = 2 → (s.tmr ch).slavedTo ch (leAt e.cmd 0x42 1) = true)

include hready hk himage hshed hkind hch hp hfits hfree hslave

/-- The command where its source fits the network: it completes, and the network takes the source up, at its next opening where it
runs. -/
theorem exec_setStepSource :
    exec (.setStepSource m) s = .next (
      let v := (s.startChannel kind ch p).finish m.val e
      if (s.net k).running then
        let w := v.modNet k fun n => { n with nextSource := some { kind := kind, ch := ch, period := p }, tickHeld := false }
        if kind = 3 then w.tryOpen k else w
      else v.modNet k fun n => { n with source := { kind := kind, ch := ch, period := p }, nextSource := none }) := by
  have hoff : (s.startChannel kind ch p).traceOn = false := hready.traceOn_congr State.keepsBut_startChannel.traceCtrl_eq
  have hnet : ((s.startChannel kind ch p).finish m.val e).net k = s.net k := by
    rw [State.finish_net hoff, State.net_congr State.keepsBut_startChannel.nets_eq]
  have htaken : ¬ (!s.sourceFits k kind p || (kind != 3 && s.channelTaken k ch)) = true := by
    by_cases h3 : kind = 3
    · simp [h3 ▸ hfits, h3]
    · simp [hfits, hfree h3]
  have hslaved : ¬ (decide (kind = 2) && !(s.tmr ch).slavedTo ch (leAt e.cmd 0x42 1)) = true := by
    by_cases h2 : kind = 2
    · simp [hslave h2]
    · simp [h2]
  change Host.Outcome.next (s.runCmd m.val 0x22 _) = _
  rw [hready.runCmd]
  dsimp only
  rw [State.needNet_loaded (hk ▸ himage) (hk ▸ hshed), ← hk, ← hkind, ← hch, ← hp, if_neg htaken, if_neg hslaved]
  change Host.Outcome.next (if (((s.startChannel kind ch p).finish m.val e).net k).running = true then _ else _) = _
  rw [hnet]
  rfl

/-- A halted network takes the source up at once. -/
theorem setStepSource_halted (hrun : (s.net k).running = false) :
    ∃ t, exec (.setStepSource m) s = .next t ∧ s.Completes t m.val e codeDone 0 ∧
      t.net k = { s.net k with source := { kind := kind, ch := ch, period := p }, nextSource := none } ∧ State.NetsBut [k] s t ∧
      (kind = 1 → (t.tmr ch).limit = p - 1 ∧ (t.tmr ch).on = true ∧ (t.tmr ch).count = 0 ∧ (t.tmr ch).div = 0 ∧
        (t.tmr ch).pre = 0) ∧
      (∀ c, c ≠ ch ∨ kind ≠ 1 → t.tmr c = s.tmr c) ∧ State.KeepsBut (mailParts ++ [Part.nets, .timers]) s t := by
  have hexec := exec_setStepSource hready hk himage hshed hkind hch hp hfits hfree hslave
  dsimp only at hexec
  rw [if_neg (by simp [hrun])] at hexec
  exact ⟨_, hexec, setStepSource_effect hready _ rfl⟩

/-- A running network takes a source of ticks up at its next opening. -/
theorem setStepSource_running (hrun : (s.net k).running = true) (hticks : kind ≠ 3) :
    ∃ t, exec (.setStepSource m) s = .next t ∧ s.Completes t m.val e codeDone 0 ∧
      t.net k = { s.net k with nextSource := some { kind := kind, ch := ch, period := p }, tickHeld := false } ∧
      State.NetsBut [k] s t ∧ State.KeepsBut (mailParts ++ [Part.nets, .timers]) s t := by
  have hexec := exec_setStepSource hready hk himage hshed hkind hch hp hfits hfree hslave
  dsimp only at hexec
  rw [if_pos hrun, if_neg hticks] at hexec
  obtain ⟨hdone, hnet, hnets, -, -, hkeeps⟩ := setStepSource_effect hready (kind := kind) (ch := ch) (p := p)
    (fun n => { n with nextSource := some { kind := kind, ch := ch, period := p }, tickHeld := false }) rfl
  exact ⟨_, hexec, hdone, hnet, hnets, hkeeps⟩

end

/-! ### RUN -/

/-- The command where its network is loaded and not shed: refused, in this order, for a blocked network, for want of a source and
for one that runs; else the network starts (log 57). -/
theorem exec_run (hready : s.Ready m.val 0x23 e) (hk : k = cmdNet e.cmd) (himage : (s.net k).image ≠ 0)
    (hshed : (s.net k).shed = false) :
    exec (.run m) s = .next (
      if (s.net k).blocked then s.refuse m.val e codeState Why.coreUnavailable
      else if (s.net k).source.kind = 0 then s.refuse m.val e codeState Why.noSource
      else if (s.net k).running then s.refuse m.val e codeState Why.netRunning
      else (s.finish m.val e).startNet k) := by
  change Host.Outcome.next (s.runCmd m.val 0x23 _) = _
  rw [hready.runCmd]
  dsimp only
  rw [State.needNet_loaded (hk ▸ himage) (hk ▸ hshed), ← hk]

/-- Cores outside a list that a change goes through keep what they hold. -/
theorem State.core_foldl_modCore_of_not_mem {f : CoreSt → CoreSt} {c : Nat} (l : List Nat) (s : State) (hc : c ∉ l) :
    (l.foldl (fun s d => s.modCore d f) s).core c = s.core c := by
  induction l generalizing s with
  | nil => rfl
  | cons d l ih =>
    obtain ⟨hcd, hcl⟩ := not_or.mp (mt List.mem_cons.mpr hc)
    exact (ih _ hcl).trans (State.core_setCore_ne _ _ _ _ hcd)

/-- The cores that network k runs on. -/
def State.runCores (s : State) (k : Nat) : List Nat :=
  (Tab.keys s.cores).filter fun c => (s.core c).net == k + 1 && (s.sector (sectorOf c)).mstate (indexOf c) != 2

/-- The first run of network k writes its cores. -/
def State.firstRun (s : State) (k : Nat) : State :=
  if (s.net k).everRun then s else (s.runCores k).foldl (fun t c => t.modCore c fun x => x.firstRun (s.net k).step) s

theorem State.startNet_eq (hkind : (s.net k).source.kind ≠ 3) : s.startNet k = (s.firstRun k).modNet k fun n => { n with
    running := true, everRun := true, cycleNew := true, phase := 0, cores := s.runCores k, halting := 0, tickHeld := false } := by
  unfold State.startNet State.firstRun State.runCores
  dsimp only
  exact if_neg hkind

theorem State.keepsBut_firstRun : State.KeepsBut [.cores] s (s.firstRun k) := by
  unfold State.firstRun
  split
  · exact .refl
  · exact .foldl (fun u c => by simp) _ _

theorem State.core_firstRun {c : Nat} (hc : (s.core c).net ≠ k + 1) : (s.firstRun k).core c = s.core c := by
  unfold State.firstRun
  split
  · rfl
  · refine State.core_foldl_modCore_of_not_mem _ _ ?_
    simp [State.runCores, hc]

/-- A halted network with a source of ticks starts. -/
theorem run_starts (hready : s.Ready m.val 0x23 e) (hk : k = cmdNet e.cmd) (himage : (s.net k).image ≠ 0)
    (hshed : (s.net k).shed = false) (hblocked : (s.net k).blocked = false) (hsource : (s.net k).source.kind ≠ 0)
    (hticks : (s.net k).source.kind ≠ 3) (hrun : (s.net k).running = false) :
    ∃ t, exec (.run m) s = .next t ∧ s.Completes t m.val e codeDone 0 ∧ (t.net k).running = true ∧
      (t.net k).everRun = true ∧ (t.net k).step = (s.net k).step ∧ (t.net k).source = (s.net k).source ∧
      State.NetsBut [k] s t ∧ ((s.net k).everRun = true → t.cores = s.cores) ∧
      (∀ c, (s.core c).net ≠ k + 1 → t.core c = s.core c) ∧ State.KeepsBut (mailParts ++ [Part.nets, .cores]) s t := by
  have hexec := exec_run hready hk himage hshed
  rw [if_neg (by simp [hblocked]), if_neg hsource, if_neg (by simp [hrun])] at hexec
  have hdone : State.KeepsBut mailParts s (s.finish m.val e) := State.keepsBut_complete_off hready.traceOn_eq
  have hcompletes : s.Completes (s.finish m.val e) m.val e codeDone 0 := hready.finishes rfl rfl rfl rfl
  have hnet := State.net_congr hdone.nets_eq
  have hcore := State.core_congr hdone.cores_eq
  generalize s.finish m.val e = u at hexec hdone hcompletes hnet hcore
  rw [State.startNet_eq (by rwa [hnet])] at hexec
  have hfirst : State.KeepsBut [.cores] u (u.firstRun k) := State.keepsBut_firstRun
  have hfirstNet := (State.net_congr hfirst.nets_eq).trans hnet
  refine ⟨_, hexec, hcompletes.carry rfl (fun _ _ => rfl) (by simpa using hfirst.mbox_eq), ?_, ?_, ?_, ?_, fun j hj => ?_,
    fun hever => ?_, fun c hc => ?_, ?_⟩
  · rw [State.modNet_def, State.net_setNet_self]
  · rw [State.modNet_def, State.net_setNet_self]
  · rw [State.modNet_def, State.net_setNet_self, hfirstNet]
  · rw [State.modNet_def, State.net_setNet_self, hfirstNet]
  · rw [State.modNet_def, State.net_setNet_ne _ _ _ _ (by simpa using hj), hfirstNet]
  · have hstays : u.firstRun k = u := if_pos (by rw [hnet, hever])
    rw [hstays]
    simpa using hdone.cores_eq
  · have hkept : (u.firstRun k).core c = u.core c := State.core_firstRun (by rwa [hcore])
    exact hkept.trans (congrFun hcore c)
  · simpa using (hdone.mono (by decide)).trans (hfirst.mono (by decide))

/-- A refused command leaves its network as it was. -/
theorem State.Ready.refused {op code why : Nat} (hready : s.Ready m.val op e) :
    s.Completes (s.refuse m.val e code why) m.val e code why ∧ State.KeepsBut mailParts s (s.refuse m.val e code why) :=
  ⟨State.completes_complete hready.traceOn_eq hready.mem_journal rfl, State.keepsBut_complete_off hready.traceOn_eq⟩

/-- A blocked network, one without a source and one that runs do not start. -/
theorem run_refused {why : Nat} (hready : s.Ready m.val 0x23 e) (hk : k = cmdNet e.cmd) (himage : (s.net k).image ≠ 0)
    (hshed : (s.net k).shed = false)
    (hwhy : (s.net k).blocked = true ∧ why = Why.coreUnavailable ∨
      (s.net k).blocked = false ∧ (s.net k).source.kind = 0 ∧ why = Why.noSource ∨
      (s.net k).blocked = false ∧ (s.net k).source.kind ≠ 0 ∧ (s.net k).running = true ∧ why = Why.netRunning) :
    ∃ t, exec (.run m) s = .next t ∧ s.Completes t m.val e codeState why ∧ State.KeepsBut mailParts s t := by
  have hexec : exec (.run m) s = .next (s.refuse m.val e codeState why) := by
    rw [exec_run hready hk himage hshed]
    obtain ⟨hblocked, rfl⟩ | ⟨hblocked, hsource, rfl⟩ | ⟨hblocked, hsource, hrun, rfl⟩ := hwhy
    · rw [if_pos hblocked]
    · rw [if_neg (by simp [hblocked]), if_pos hsource]
    · rw [if_neg (by simp [hblocked]), if_neg hsource, if_pos hrun]
  exact ⟨_, hexec, hready.refused⟩

/-! ### HALT_RUN -/

/-- A HALT_RUN waits on its mailbox for network k. -/
def State.parkHalt (s : State) (m : Nat) (e : JEntry) (k : Nat) : State := (s.park m e).modNet k fun n => { n with halting := m + 1 }

theorem exec_haltRun (hready : s.Ready m.val 0x24 e) (hk : k = cmdNet e.cmd) (himage : (s.net k).image ≠ 0)
    (hshed : (s.net k).shed = false) :
    exec (.haltRun m) s = .next (
      if !(s.net k).running then s.finish m.val e [1]
      else (s.parkHalt m.val e k).haltCheck k) := by
  change Host.Outcome.next (s.runCmd m.val 0x24 _) = _
  rw [hready.runCmd]
  dsimp only
  rw [State.needNet_loaded (hk ▸ himage) (hk ▸ hshed), ← hk]
  rfl

/-- A HALT_RUN whose network goes on waits. -/
theorem State.haltCheck_waits (h : ((s.net k).cores.all fun c => (s.core c).stepOver) = false ∨ s.migrating k = true) :
    s.haltCheck k = s := by
  refine if_pos ?_
  obtain h | h := h <;> simp [h]

/-- A HALT_RUN completes once its network has ended its step. -/
theorem State.haltCheck_stops (hhalting : (s.net k).halting ≠ 0) (hrun : (s.net k).running = true)
    (hover : ((s.net k).cores.all fun c => (s.core c).stepOver) = true) (hmig : s.migrating k = false) :
    s.haltCheck k = (s.stopNet k).wakeCmd (s.net k).halting fun s m e => s.finish m e [0] :=
  if_neg (by simp [hhalting, hrun, hover, hmig])

/-- The command that waits on its mailbox is found there. -/
theorem State.Ready.parked_park {m op : Nat} (h : s.Ready m op e) : (s.park m e).parked m = some { e with st := 1 } := by
  have hput (l : List JEntry) (hl : l.find? (fun x => x.st != 2) = some e) :
      (putEntry l { e with st := 1 }).find? (fun x => x.st == 1) = some { e with st := 1 } := by
    induction l with
    | nil => cases hl
    | cons x l ih =>
      unfold putEntry at ih ⊢
      rw [List.map_cons]
      by_cases hseq : x.seq = e.seq
      · rw [if_pos hseq, List.find?_cons_of_pos (by rfl)]
      · have hdone : x.st = 2 := by
          by_contra hst
          rw [List.find?_cons_of_pos (by simpa using hst)] at hl
          exact hseq (congrArg JEntry.seq (Option.some.inj hl))
        rw [List.find?_cons_of_neg (by simp [hdone])] at hl
        rw [if_neg hseq, List.find?_cons_of_neg (by simp [hdone]), ih hl]
  rw [State.parked, State.park, State.modMb_def, State.mb_setMb_self]
  exact hput _ h.oldest_eq

theorem State.executing_park {i op : Nat} (h : s.Ready i op e) : (s.park i e).Executing i e := by
  refine ⟨{ e with st := 1 }, ?_, rfl, rfl⟩
  rw [State.park, State.modMb_def, State.mb_setMb_self]
  exact mem_putEntry h.mem_journal rfl

/-- The step of core c closes, and it stops. -/
def State.stopCore (s : State) (c : Nat) : State :=
  ((s.snapCore c).modCore c fun x => { x with phase := 0, fireReported := false }).serveSnap c

/-- The programmable counters of a core at a step boundary. -/
def CoreSt.closePmcs (k : CoreSt) : CoreSt := { k with pmcs := pmcsClosed k.pmcs }

theorem State.keepsBut_withSnap (s : State) (x : Tab (Nat × Nat)) : State.KeepsBut [.snap] s { s with snap := x } := by
  intro p hp
  cases p
  case snap => exact absurd List.mem_cons_self hp
  all_goals rfl

/-- The per-step slots of a core close, its programmable counters with them, and its STEP record is written. -/
theorem State.snapCore_eq (s : State) (c : Nat) : ∃ u a b, State.KeepsBut [.ctr, .snap] s u ∧
    s.snapCore c = ((u.modCore c CoreSt.closePmcs).traceCore c 28 3 a b).ctrPut 2 c 0 noSub 4 0 := by
  refine ⟨_, _, _, ?_, rfl⟩
  refine State.KeepsBut.trans (State.KeepsBut.foldl (fun u r => ?_) _ _) ((State.keepsBut_withSnap _ _).mono (l := [.snap]) (by decide))
  split
  · simp
  · split <;> simp

theorem State.snapCore_off (hoff : s.traceOn = false) (c : Nat) : State.KeepsBut [.cores, .ctr, .snap] s (s.snapCore c) ∧
    ∀ d, ((s.snapCore c).core d).snapWait = (s.core d).snapWait := by
  obtain ⟨u, a, b, hu, heq⟩ := s.snapCore_eq c
  have hclosed : State.KeepsBut [.cores, .ctr, .snap] s (u.modCore c CoreSt.closePmcs) := by simpa using hu.mono (by decide)
  have htrace : (u.modCore c CoreSt.closePmcs).traceCore c 28 3 a b = u.modCore c CoreSt.closePmcs := by
    have hoff' : (u.modCore c CoreSt.closePmcs).traceOn = false := by rw [State.traceOn, hclosed.traceCtrl_eq]; exact hoff
    simp only [State.traceCore, hoff', Bool.false_and, Bool.false_eq_true, if_false]
  rw [heq, htrace]
  refine ⟨by simpa using hu.mono (by decide), fun d => ?_⟩
  simp only [State.ctrPut_units]
  rw [State.modCore_def, State.core_setCore, ← State.core_congr hu.cores_eq]
  split
  · next h => rw [h]; rfl
  · rfl

theorem State.stopCore_off (hoff : s.traceOn = false) {c : Nat} (hsnap : (s.core c).snapWait = 0) :
    State.KeepsBut [.cores, .ctr, .snap] s (s.stopCore c) ∧ ∀ d, ((s.stopCore c).core d).snapWait = (s.core d).snapWait := by
  obtain ⟨hkeeps, hwaits⟩ := State.snapCore_off hoff c
  have hstopped (d : Nat) : (((s.snapCore c).modCore c fun x => { x with phase := 0, fireReported := false }).core d).snapWait =
      (s.core d).snapWait := by
    rw [State.modCore_def, State.core_setCore]
    split
    · next h => rw [h, hwaits]
    · exact hwaits d
  have hnone : s.stopCore c = (s.snapCore c).modCore c fun x => { x with phase := 0, fireReported := false } :=
    if_pos ((hstopped c).trans hsnap)
  rw [hnone]
  exact ⟨by simpa using hkeeps, hstopped⟩

/-- Cores for which no READ_WEIGHTS waits stop. -/
theorem State.stopCores_off (l : List Nat) (hoff : s.traceOn = false) (hsnap : ∀ c ∈ l, (s.core c).snapWait = 0) :
    State.KeepsBut [.cores, .ctr, .snap] s (l.foldl State.stopCore s) := by
  induction l generalizing s with
  | nil => exact .refl
  | cons c l ih =>
    obtain ⟨hkeeps, hwaits⟩ := State.stopCore_off hoff (hsnap c List.mem_cons_self)
    have hrest := ih (s := s.stopCore c) (by rw [State.traceOn, hkeeps.traceCtrl_eq]; exact hoff)
      fun d hd => (hwaits d).trans (hsnap d (List.mem_cons_of_mem c hd))
    exact hkeeps.trans hrest

/-- The run of a network ends. -/
theorem State.stopNet_off (hoff : s.traceOn = false) (hsnap : ∀ c ∈ (s.net k).cores, (s.core c).snapWait = 0) :
    State.KeepsBut [.nets, .cores, .ctr, .snap] s (s.stopNet k) ∧ ((s.stopNet k).net k).running = false ∧
      ((s.stopNet k).net k).halting = 0 ∧ ((s.stopNet k).net k).step = (s.net k).step ∧ State.NetsBut [k] s (s.stopNet k) := by
  have hstop : s.stopNet k = ((s.net k).cores.foldl State.stopCore s).modNet k fun n => { n with
      running := false, halting := 0, phase := 0, tickHeld := false, quiescent := false, held := false
      source := n.nextSource.getD n.source, nextSource := none, stretchFrom := 0, migrateFrom := 0 } := rfl
  have hcores := State.stopCores_off _ hoff hsnap
  have hnet := State.net_congr hcores.nets_eq
  rw [hstop, State.modNet_def, State.net_setNet_self, hnet]
  exact ⟨by simpa using hcores.mono (by decide), rfl, rfl, rfl,
    fun j hj => by rw [State.net_setNet_ne _ _ _ _ (by simpa using hj), hnet]⟩

/-- HALT_RUN of a halted network. -/
theorem haltRun_halted (hready : s.Ready m.val 0x24 e) (hk : k = cmdNet e.cmd) (himage : (s.net k).image ≠ 0)
    (hshed : (s.net k).shed = false) (hrun : (s.net k).running = false) :
    ∃ t, exec (.haltRun m) s = .next t ∧ s.Completes t m.val e codeDone 0 [1] ∧ State.KeepsBut mailParts s t := by
  have hexec := exec_haltRun hready hk himage hshed
  rw [if_pos (by simp [hrun])] at hexec
  exact ⟨_, hexec, hready.finishes rfl rfl rfl rfl, State.keepsBut_complete_off hready.traceOn_eq⟩

theorem State.parkHalt_keeps {i : Nat} : State.KeepsBut [.mbox, .nets] s (s.parkHalt i e k) := by
  simp [State.parkHalt, State.park]

theorem State.net_parkHalt {i : Nat} (j : Nat) :
    (s.parkHalt i e k).net j = if j = k then { s.net k with halting := i + 1 } else s.net j := State.net_setNet _ _ _ _

/-- What is asked of a network that halts is as it was. -/
theorem State.parkHalt_over {i : Nat} : ((s.parkHalt i e k).net k).cores = (s.net k).cores ∧
    ((s.parkHalt i e k).net k).running = (s.net k).running ∧ (s.parkHalt i e k).core = s.core ∧
    (s.parkHalt i e k).migrating k = s.migrating k := by
  have hnet : (s.parkHalt i e k).net k = { s.net k with halting := i + 1 } := (State.net_parkHalt k).trans (if_pos rfl)
  have hsector : (s.parkHalt i e k).sector = s.sector := rfl
  exact ⟨by rw [hnet], by rw [hnet], rfl, by rw [State.migrating, hnet, hsector, State.migrating]⟩

/-- HALT_RUN of a network that has not ended its step on every core, or of which a core migrates. -/
theorem haltRun_waits (hready : s.Ready m.val 0x24 e) (hk : k = cmdNet e.cmd) (himage : (s.net k).image ≠ 0)
    (hshed : (s.net k).shed = false) (hrun : (s.net k).running = true)
    (hgoes : ((s.net k).cores.all fun c => (s.core c).stepOver) = false ∨ s.migrating k = true) :
    ∃ t, exec (.haltRun m) s = .next t ∧ t.Executing m.val e ∧ t.net k = { s.net k with halting := m.val + 1 } ∧
      State.NetsBut [k] s t ∧ State.KeepsBut [.mbox, .nets] s t := by
  have hexec := exec_haltRun hready hk himage hshed
  obtain ⟨hcores, -, hcore, hmig⟩ := State.parkHalt_over (s := s) (i := m.val) (e := e) (k := k)
  have hstays : (s.parkHalt m.val e k).haltCheck k = s.parkHalt m.val e k :=
    State.haltCheck_waits (by rwa [hcores, hcore, hmig])
  rw [if_neg (by simp [hrun]), hstays] at hexec
  exact ⟨_, hexec, State.executing_park hready, (State.net_parkHalt k).trans (if_pos rfl),
    fun j hj => (State.net_parkHalt j).trans (if_neg (by simpa using hj)), State.parkHalt_keeps⟩

/-- HALT_RUN of a network that has ended its step on every core. -/
theorem haltRun_stops (hready : s.Ready m.val 0x24 e) (hk : k = cmdNet e.cmd) (himage : (s.net k).image ≠ 0)
    (hshed : (s.net k).shed = false) (hrun : (s.net k).running = true)
    (hover : ((s.net k).cores.all fun c => (s.core c).stepOver) = true) (hmig : s.migrating k = false)
    (hsnap : ∀ c ∈ (s.net k).cores, (s.core c).snapWait = 0) :
    ∃ t, exec (.haltRun m) s = .next t ∧ s.Completes t m.val e codeDone 0 [0] ∧ (t.net k).running = false ∧
      (t.net k).halting = 0 ∧ (t.net k).step = (s.net k).step ∧ State.NetsBut [k] s t ∧
      State.KeepsBut (mailParts ++ [Part.nets, .cores, .snap]) s t := by
  have hexec := exec_haltRun hready hk himage hshed
  rw [if_neg (by simp [hrun])] at hexec
  obtain ⟨hcores, hrunning, hcore, hmigrating⟩ := State.parkHalt_over (s := s) (i := m.val) (e := e) (k := k)
  have hpark : State.KeepsBut [.mbox, .nets] s (s.parkHalt m.val e k) := State.parkHalt_keeps
  have hnet := State.net_parkHalt (s := s) (i := m.val) (e := e) (k := k)
  have hparked : (s.parkHalt m.val e k).parked m.val = some { e with st := 1 } := hready.parked_park
  have hwaiting : { e with st := 1 } ∈ ((s.parkHalt m.val e k).mb m.val).journal := List.mem_of_find?_eq_some hparked
  have hothers : State.MbBut [m.val] s (s.parkHalt m.val e k) := fun j hj => State.mb_setMb_ne _ _ _ _ (by simpa using hj)
  have hself : (s.parkHalt m.val e k).net k = { s.net k with halting := m.val + 1 } := (hnet k).trans (if_pos rfl)
  generalize s.parkHalt m.val e k = u at *
  have hoff : u.traceOn = false := hready.traceOn_congr hpark.traceCtrl_eq
  rw [State.haltCheck_stops (by rw [hself]; exact Nat.succ_ne_zero _) (by rwa [hrunning]) (by rwa [hcores, hcore])
    (by rwa [hmigrating]), hself] at hexec
  obtain ⟨hstop, hhalted, hfree, hstep, hnets⟩ := State.stopNet_off hoff (k := k) (by rwa [hcores, hcore])
  generalize u.stopNet k = v at *
  have hmb : v.mb = u.mb := by
    funext j
    rw [State.mb, hstop.mbox_eq, State.mb]
  have hoffEnd : v.traceOn = false := hready.traceOn_congr (hstop.traceCtrl_eq.trans hpark.traceCtrl_eq)
  have hwake : v.wakeCmd (m.val + 1) (fun s m e => s.finish m e [0]) = v.finish m.val { e with st := 1 } [0] := by
    rw [State.wakeCmd, if_neg (Nat.succ_ne_zero _), Nat.add_sub_cancel, State.parked, hmb]
    change (match u.parked m.val with | none => v | some e => v.finish m.val e [0]) = _
    rw [hparked]
  have hdone : v.Completes (v.finish m.val { e with st := 1 } [0]) m.val { e with st := 1 } codeDone 0 [0] :=
    State.completes_complete hoffEnd (by rw [hmb]; exact hwaiting) rfl
  have hfinish : State.KeepsBut mailParts v (v.finish m.val { e with st := 1 } [0]) := State.keepsBut_complete_off hoffEnd
  have hend := State.net_congr hfinish.nets_eq
  rw [hwake] at hexec
  refine ⟨_, hexec, hdone.carry (hstop.ao_eq.trans hpark.ao_eq) (fun j hj => (congrFun hmb j).trans (hothers j hj)) rfl, ?_, ?_, ?_,
    fun j hj => ?_, ((hpark.mono (by decide)).trans (hstop.mono (by decide))).trans (hfinish.mono (by decide))⟩
  · rw [hend, hhalted]
  · rw [hend, hfree]
  · rw [hend, hstep, hself]
  · rw [hend, hnets j hj, hnet, if_neg (by simpa using hj)]

/-! ### O38 -/

/-- Settles O38: each outcome of the three commands by its own lemma. -/
theorem networkCommands : Obligations.NetworkCommands := by
  unfold Obligations.NetworkCommands
  refine ⟨fun m s e k hk himage hshed => ⟨?_, ?_, ?_, ?_, ?_⟩, fun m s e k why hk hready himage hshed hwhy => ?_⟩
  · intro kind ch p hkind hch hp hready hfits hfree hslave
    exact ⟨setStepSource_halted hready hk himage hshed hkind hch hp hfits hfree hslave,
      setStepSource_running hready hk himage hshed hkind hch hp hfits hfree hslave⟩
  · exact fun hready hblocked hsource hticks hrun => run_starts hready hk himage hshed hblocked hsource hticks hrun
  · exact fun hready hrun => haltRun_halted hready hk himage hshed hrun
  · exact fun hready hrun hgoes => haltRun_waits hready hk himage hshed hrun hgoes
  · exact fun hready hrun hover hmig hsnap => haltRun_stops hready hk himage hshed hrun hover hmig hsnap
  · exact run_refused hready hk himage hshed hwhy

end Sys2Proof.Machine
end

section
/-! PROOF. The cutoff of a LOCKSTEP step (05 R132; O12) can count at a core outside its network: a READ_WEIGHTS that waits on a core of
the network counts its bytes at the core that its command names (07 R187, 20 R510), and a state may name another one there. -/

namespace Sys2Proof.Machine

variable {c : Nat} {s : State}

/-- READ_WEIGHTS of row 0 of core 5, executing. -/
def readEntry : JEntry := { seq := 1, st := 1, cmd := zeros 0x40 ++ [5, 0, 0, 0, 1, 0] }

/-- A LOCKSTEP network on core 3, quiescent in DELIVER of step 0. -/
def lockNet : NetSt := { lockstep := true, running := true, phase := 1, cores := [3], sentRep := [(3, 1)] }

/-- Programmable counter 0 of core 5, which counts SYN_RD_BYTES. -/
def bytesRead (n : Nat) : Pmc := { cfg := BitVec.ofNat 32 (2 ^ 31 + Ctr.synRdBytes), value := BitVec.ofNat 64 n }

/-- The READ_WEIGHTS waits on core 3, all of it copied, and names core 5. -/
def crossedRead : State := {
  nets := [(0, lockNet)]
  cores := [(3, { net := 1, phase := 1, reported := [(0, 1)], snapWait := 1, snapCols := some [] }), (5, { pmcs := [(0, bytesRead 0)] })]
  mbox := [(0, { journal := [readEntry] })] }

/-- Where all rows and columns of a READ_WEIGHTS are copied, the end of DELIVER copies none. -/
theorem State.copyDeliver_of_copied (hwait : (s.core c).snapWait ≠ 0) (hrows : (s.core c).snapTodo = [])
    (hcols : (s.core c).snapCols.isSome = true) : s.copyDeliver c = s.drawn := by
  have hnone : s.copyCols c = s := by simp [State.copyCols, hcols]
  simp [State.copyDeliver, hwait, hrows, hnone]

/-- The phase of network k that the cutoff of a LOCKSTEP step begins. -/
def State.closeDeliver (s : State) (k : Nat) : State := s.modNet k fun n => { n with
  phase := 2, cN := s.now, quiescent := true
  stretchFrom := if n.cores.any (fun c => (s.core c).halted) then s.now + 1 else 0 }

/-- The cutoff of a LOCKSTEP step at core c. -/
def State.lockCutoff (s : State) (c : Nat) : State := ((s.copyDeliver c).serveSnap c).modCore c fun x =>
  { x with phase := 2, fireOf := x.step, fireHeld := x.halted, maxAbs := [] }

theorem exec_stepQuiescent {k : NetId} (hlock : (s.net k.val).lockstep = true) (hrun : (s.net k.val).running = true)
    (hphase : (s.net k.val).phase = 1) (hquiet : s.quiescentNow k.val = true) :
    exec (.stepQuiescent k) s = .next ((s.net k.val).cores.foldl State.lockCutoff (s.closeDeliver k.val)) := by
  change execStepQuiescent k s = _
  unfold execStepQuiescent
  dsimp only
  rw [if_neg (by simp [hlock, hrun, hphase, hquiet])]
  rfl

/-- The cutoff of the network on core 3 changes core 5: it counts there the 2 bytes that the command read. -/
theorem pmcs_lockCutoff_crossedRead :
    Tab.get (((crossedRead.closeDeliver 0).lockCutoff 3).core 5).pmcs {} 0 = bytesRead 2 := by
  have hcopied : (crossedRead.closeDeliver 0).copyDeliver 3 = (crossedRead.closeDeliver 0).drawn :=
    State.copyDeliver_of_copied (by decide) (by decide) (by decide)
  rw [State.lockCutoff, hcopied]
  decide +kernel

/-- Refutes O12: the cutoff of a LOCKSTEP step is to change no core outside the network; from `crossedRead` the one of the network on
core 3 changes core 5. -/
theorem not_stepsAdvance : ¬ Obligations.StepsAdvance := by
  unfold Obligations.StepsAdvance
  rintro ⟨-, -, hlockstep, -⟩
  obtain ⟨-, -, hcutoff, -⟩ := hlockstep 0 crossedRead lockNet 0 130560 rfl rfl rfl rfl rfl rfl
  obtain ⟨t, hexec, -, -, -, -, -, hcores, -⟩ := hcutoff (by decide)
  have ht : (crossedRead.closeDeliver 0).lockCutoff 3 = t := by
    rw [exec_stepQuiescent rfl rfl rfl (by decide)] at hexec
    exact Host.Outcome.next.inj hexec
  have hcounted := pmcs_lockCutoff_crossedRead
  rw [ht, hcores 5 (by decide)] at hcounted
  exact absurd hcounted (by decide)

end Sys2Proof.Machine
end

section
/-! SUPPORT. The commands on weights (06 R165; 07 R183, R187) with tracing off: the cores and the parts that a row read, written or
updated may change. -/

namespace Sys2Proof.Machine

variable {l : List Part} {cs : List Nat} {c i : Nat} {s t u : State}

/-- From s to t no core but those of cs has changed; nor, with tracing off, any part but cores, counters and those of l. -/
structure State.Works (l : List Part) (cs : List Nat) (s t : State) : Prop where
  cores : State.CoresBut cs s t
  traceCtrl : t.traceCtrl = s.traceCtrl
  keeps : s.traceOn = false → State.KeepsBut (.cores :: .ctr :: l) s t

namespace State.Works

theorem refl : State.Works l cs s s := ⟨fun _ _ => rfl, rfl, fun _ => .refl⟩

theorem traceOn_eq (h : s.Works l cs t) : t.traceOn = s.traceOn := by rw [State.traceOn, h.traceCtrl, State.traceOn]

theorem trans (h : s.Works l cs t) (h' : t.Works l cs u) : s.Works l cs u where
  cores d hd := (h'.cores d hd).trans (h.cores d hd)
  traceCtrl := h'.traceCtrl.trans h.traceCtrl
  keeps hoff := (h.keeps hoff).trans (h'.keeps (h.traceOn_eq.trans hoff))

theorem ite {b : Prop} [Decidable b] (ht : s.Works l cs t) (hu : s.Works l cs u) : s.Works l cs (if b then t else u) := by
  split
  · exact ht
  · exact hu

theorem foldl {β : Type} {f : State → β → State} (xs : List β) (hf : ∀ s, ∀ x ∈ xs, State.Works l cs s (f s x)) (s : State) :
    s.Works l cs (xs.foldl f s) := by
  induction xs generalizing s with
  | nil => exact refl
  | cons x xs ih => exact (hf s x List.mem_cons_self).trans (ih (fun s y hy => hf s y (List.mem_cons_of_mem x hy)) _)

theorem setCore (hc : c ∈ cs) (k : CoreSt) : s.Works l cs (s.setCore c k) where
  cores d hd := State.core_setCore_ne _ _ _ _ fun hdc => hd (hdc ▸ hc)
  traceCtrl := rfl
  keeps _ := by simp

theorem modCore (hc : c ∈ cs) (f : CoreSt → CoreSt) : s.Works l cs (s.modCore c f) := setCore hc _

theorem of_keepsBut {l' : List Part} (h : State.KeepsBut l' s t) (hl : l' ⊆ .ctr :: l) (hc : Part.cores ∉ l' := by decide)
    (ht : Part.traceCtrl ∉ l' := by decide) : s.Works l cs t where
  cores d _ := by rw [State.core, h.cores_eq hc, State.core]
  traceCtrl := h.traceCtrl_eq ht
  keeps _ := h.mono fun _ hp => List.mem_cons_of_mem _ (hl hp)

theorem wakeCmd {m1 : Nat} {f : State → Nat → JEntry → State} (hf : ∀ m e, s.Works l cs (f s m e)) :
    s.Works l cs (s.wakeCmd m1 f) := by
  unfold State.wakeCmd
  split
  · exact refl
  · split
    · exact refl
    · exact hf _ _

end State.Works

/-! ### Counting -/

/-- A trace record, which tracing off does not write. -/
theorem State.works_traceCore {bit kind a b : Nat} (hc : c ∈ cs) : s.Works l cs (s.traceCore c bit kind a b) := by
  have hnotes : State.Notes [] [] c s (s.traceCore c bit kind a b) := State.notes_traceCore
  refine ⟨fun d hd => hnotes.cores d fun hm => hd (List.mem_singleton.mp hm ▸ hc), hnotes.keeps.traceCtrl_eq, fun hoff => ?_⟩
  have hnone : s.traceCore c bit kind a b = s := by simp [State.traceCore, hoff]
  rw [hnone]
  exact .refl

theorem State.works_countCore {id inc : Nat} (hc : c ∈ cs) : s.Works l cs (s.countCore c id inc) := by
  have hadd (t : State) (j : Nat) : t.Works l cs (t.pmcAdd c j inc) := by
    unfold State.pmcAdd
    exact .ite (((State.Works.setCore hc _).trans (.modCore hc _)).trans (State.works_traceCore hc)) (.setCore hc _)
  have hslot : s.Works l cs (s.ctrAdd Scope.core c id noSub (if perStep id then 4 else 0) inc) :=
    .of_keepsBut (l' := [.ctr]) (by simp) (by simp)
  unfold State.countCore State.countCoreSub State.pmcEvent
  exact .ite .refl (hslot.trans (.foldl _ (fun t j _ => .ite (hadd t j) .refl) _))

/-- The counts of a write-back; a guard overflow is also noted for the fault log. -/
theorem State.works_countWb {n : WbCount} (hc : c ∈ cs) (hf : Part.fault ∈ l) : s.Works l cs (s.countWb c n) := by
  have hdue (t : State) (f : FaultSt → FaultSt) : t.Works l cs (t.modFault f) :=
    .of_keepsBut (l' := [.fault]) (by simp) (by simp [hf])
  have hguard (t : State) : t.Works l cs (t.guardOvf c n.guard) :=
    .ite .refl (((State.works_countCore hc).trans (.modCore hc _)).trans (hdue _ _))
  exact (((State.works_countCore hc).trans (State.works_countCore hc)).trans (State.works_countCore hc)).trans (hguard _)

theorem State.works_markDirty (hc : c ∈ cs) : s.Works l cs (s.markDirty c i) := .ite (.modCore hc _) .refl

/-! ### A row of WRITE_WEIGHTS -/

theorem State.works_copyRow (hc : c ∈ cs) : s.Works l cs (s.copyRow c i) := .ite .refl (.wakeCmd fun _ _ => .modCore hc _)

/-- Row r of a WRITE_WEIGHTS written to core c, which held k when the rows' turn came. -/
def State.putHostRow (c : Nat) (k : CoreSt) (s : State) (r : Nat × List Byte) : State :=
  let s := s.copyRow c r.1
  let h := (s.core c).hostRow r.1 r.2
  (((s.setCore c h.1).countWb c h.2).countCore c Ctr.synWrBytes (fetchBytes k.mode (k.rBase r.1) (k.rLen r.1))).markDirty c r.1

theorem State.works_putHostRow {k : CoreSt} {r : Nat × List Byte} (hc : c ∈ cs) (hf : Part.fault ∈ l) :
    s.Works l cs (s.putHostRow c k r) :=
  ((((State.works_copyRow hc).trans (.setCore hc _)).trans (State.works_countWb hc hf)).trans (State.works_countCore hc)).trans
    (State.works_markDirty hc)

/-- Where LEARN holds no row, all rows that wait are written, and the command ends. -/
theorem State.hostApply_eq (hmb : (s.core c).hostMb ≠ 0) (hrows : (s.core c).learnRows = []) (hskip : (s.core c).learnSkipped = []) :
    s.hostApply c = ((((s.core c).hostRows.foldl (State.putHostRow c (s.core c)) s).modCore c fun k =>
      { k with hostRows := [] }).wakeCmd (s.core c).hostMb fun s m e => s.finish m e).modCore c fun k => { k with hostMb := 0 } := by
  have hready : ((s.core c).hostRows.filter fun r =>
      !(s.core c).learnRows.contains r.1 && !(s.core c).learnSkipped.contains r.1) = (s.core c).hostRows := by simp [hrows, hskip]
  have hleft : ((s.core c).hostRows.filter fun r =>
      (s.core c).learnRows.contains r.1 || (s.core c).learnSkipped.contains r.1) = [] := by simp [hrows, hskip]
  unfold State.hostApply
  dsimp only
  rw [if_neg hmb, hready, hleft]
  exact if_pos rfl

/-! ### A row of APPLY_UPDATES -/

theorem State.works_applyRow {mul shift : Nat} (hc : c ∈ cs) (hg : Part.gddr ∈ l) (hf : Part.fault ∈ l) :
    s.Works l cs (s.applyRow c mul shift i) := by
  have hcount (t : State) (a n dir : Nat) : t.Works l cs (t.gddrCount a n .compute dir) :=
    .of_keepsBut (t.gddrCount_keeps a n .compute dir) (by simp)
  have hword (t : State) (r : CoreSt × WbCount) (a : Nat) (bytes : List Byte) :
      t.Works l cs (((t.setCore c r.1).countWb c r.2).gPoke a bytes) :=
    ((State.Works.setCore hc _).trans (State.works_countWb hc hf)).trans (.of_keepsBut (State.gPoke_keeps a bytes) (by simp [hg]))
  unfold State.applyRow
  dsimp only
  exact (((((hcount _ _ _ _).trans (hcount _ _ _ _)).trans (.foldl _ (fun t _ _ => hword t _ _ _) _)).trans
    (State.works_markDirty hc)).trans (State.works_countCore hc)).trans (State.works_countCore hc)

theorem State.works_applyCore {mul shift : Nat} (hc : c ∈ cs) (hg : Part.gddr ∈ l) (hf : Part.fault ∈ l) :
    s.Works l cs (s.applyCore c mul shift) :=
  .ite .refl ((State.Works.foldl _ (fun _ _ _ => State.works_applyRow hc hg hf) s).trans (.modCore hc _))

end Sys2Proof.Machine
end

section
/-! SUPPORT. A mailbox command with a result (13 R336; 19 R490): what its completion sends and shows; and the completion of a command
that has waited on its mailbox. -/

namespace Sys2Proof.Machine

variable {s t u : State} {m op : Nat} {e : JEntry} {bytes : List Byte}

/-! ### What a completion sends -/

theorem State.out_countDev {id sub inc : Nat} : (s.countDev id sub inc).out = s.out := by simp

theorem State.out_isPrefix_fireIf {was : Bool} {v : Nat} : s.out <+: (fireIf was v s).out := by
  unfold fireIf State.fireVector
  split
  · exact ⟨[], List.append_nil _⟩
  · split
    · exact ⟨[], List.append_nil _⟩
    · split
      · exact ⟨[], List.append_nil _⟩
      · rw [State.out_countDev]
        exact ⟨_, rfl⟩

theorem State.out_isPrefix_showRecord {r : List Byte} : s.out <+: (s.showRecord m e r).out := by
  have hraise (t : State) (b : Nat) (msix : Bool) : t.out <+: (t.raiseMb m b msix).out := by
    unfold State.raiseMb
    dsimp only
    split
    · exact State.out_isPrefix_fireIf (s := t.modMb m _)
    · exact ⟨[], List.append_nil _⟩
  have hshown (b : Bool) : s.out <+: ((s.modMb m fun b => { b with comp := memWrite b.comp (64 * (e.seq % 64)) r }).raiseMb m 1 b).out :=
    hraise (s.modMb m _) 1 b
  unfold State.showRecord
  dsimp only
  split
  · exact (hshown _).trans ⟨_, rfl⟩
  · exact hshown _

/-- A completion sends behind what has been sent. -/
theorem State.out_isPrefix_complete (hoff : s.traceOn = false) {code reason n : Nat} {inline : List Byte} {short : Bool} :
    s.out <+: (s.complete m e code reason inline n short).out := by
  rw [State.complete_off hoff]
  exact State.out_isPrefix_showRecord (s := s.modMb m _)

/-! ### A result -/

/-- A result that is sent goes to RESULT_ADDR. -/
theorem State.out_resultSent (h : s.resultSent m e bytes ≠ []) (a : Nat) :
    (s.hostWrite a (s.resultSent m e bytes)).out = s.out ++ [.hostWrite a (s.resultSent m e bytes)] := by
  obtain ⟨-, hlink, hmaster⟩ : m < 8 ∧ s.pcie.linkUp = true ∧ s.pcie.busMaster = true := by
    by_contra hnot
    exact h (if_neg hnot)
  rw [State.hostWrite, if_neg (by simp [h, hlink, hmaster]), State.out_countDev]
  rfl

/-- A host mailbox's result is sent as `resultSent` says. -/
theorem State.finishResult_host (hm : m < 8) : s.finishResult m e bytes =
    (s.hostWrite (cmdResAddr e.cmd) (s.resultSent m e bytes)).complete m e codeDone 0 [] (s.resultSent m e bytes).length
      ((s.resultSent m e bytes).length < bytes.length) := by
  have hsent : (if s.pcie.linkUp && s.pcie.busMaster then bytes.take (cmdResLen e.cmd) else []) = s.resultSent m e bytes := by
    simp [State.resultSent, hm]
  rw [State.finishResult, if_neg (Nat.not_le.mpr hm)]
  dsimp only
  rw [hsent]

/-- A ready command with a result completes with it. -/
theorem State.Ready.answers (h : s.Ready m op e) : s.AnswersWith (s.finishResult m e bytes) m e bytes := by
  refine ⟨fun hm => ?_, fun hm => ?_⟩
  · have hwrite : State.KeepsBut [.out, .ctr] s (s.hostWrite (cmdResAddr e.cmd) (s.resultSent m e bytes)) := State.keepsBut_hostWrite
    have hoff := h.traceOn_congr hwrite.traceCtrl_eq
    have hmb (j : Nat) : (s.hostWrite (cmdResAddr e.cmd) (s.resultSent m e bytes)).mb j = s.mb j := by
      rw [State.mb, hwrite.mbox_eq, State.mb]
    rw [State.finishResult_host hm]
    refine ⟨(State.completes_complete hoff ((hmb m).symm ▸ h.mem_journal) rfl _).carry hwrite.ao_eq (fun j _ => hmb j) rfl,
      fun hsent => ?_⟩
    obtain ⟨l, hl⟩ := State.out_isPrefix_complete hoff (m := m) (e := e) (code := codeDone) (reason := 0) (inline := [])
      (n := (s.resultSent m e bytes).length) (short := (s.resultSent m e bytes).length < bytes.length)
    exact ⟨l, by rw [← hl, State.out_resultSent hsent, List.append_assoc, List.singleton_append]⟩
  · rw [State.finishResult, if_pos hm]
    exact State.completes_complete h.traceOn_eq h.mem_journal rfl _

/-- Nothing that follows takes the answer back. -/
theorem State.AnswersWith.carry (h : s.AnswersWith u m e bytes) (hmbox : t.mbox = u.mbox) (hout : t.out = u.out) :
    s.AnswersWith t m e bytes := by
  obtain ⟨hhost, hmgmt⟩ := h
  refine ⟨fun hm => ?_, fun hm => (hmgmt hm).carry rfl (fun _ _ => rfl) hmbox⟩
  obtain ⟨hdone, hsent⟩ := hhost hm
  exact ⟨hdone.carry rfl (fun _ _ => rfl) hmbox, by rwa [hout]⟩

theorem State.Ready.keepsBut_finishResult (h : s.Ready m op e) : State.KeepsBut mailParts s (s.finishResult m e bytes) := by
  unfold State.finishResult
  dsimp only
  split
  · exact State.keepsBut_complete_off h.traceOn_eq _
  · have hwrite (a : Nat) (b : List Byte) : State.KeepsBut [.out, .ctr] s (s.hostWrite a b) := State.keepsBut_hostWrite
    exact ((hwrite _ _).mono (by decide)).trans (State.keepsBut_complete_off (h.traceOn_congr (hwrite _ _).traceCtrl_eq) _)

/-! ### A command that has waited -/

/-- A ready command that is parked and then woken completes DONE. -/
theorem State.Ready.wakes (h : s.Ready m op e) (hao : u.ao = s.ao) (htrace : u.traceCtrl = s.traceCtrl)
    (hmbox : u.mbox = (s.park m e).mbox) :
    u.wakeCmd (m + 1) (fun s m e => s.finish m e) = u.finish m { e with st := 1 } ∧
      s.Completes (u.finish m { e with st := 1 }) m e codeDone 0 ∧ State.KeepsBut mailParts u (u.finish m { e with st := 1 }) := by
  have hmb (j : Nat) : u.mb j = (s.park m e).mb j := by rw [State.mb, hmbox, State.mb]
  have hparked : u.parked m = some { e with st := 1 } := by rw [State.parked, hmb]; exact h.parked_park
  have hoff := h.traceOn_congr htrace
  refine ⟨?_, ?_, State.keepsBut_complete_off hoff⟩
  · rw [State.wakeCmd, if_neg (Nat.succ_ne_zero m), Nat.add_sub_cancel, hparked]
  · have hdone : u.Completes (u.finish m { e with st := 1 }) m { e with st := 1 } codeDone 0 :=
      State.completes_complete hoff (List.mem_of_find?_eq_some hparked) rfl
    exact hdone.carry hao (fun j hj => (hmb j).trans (State.mb_setMb_ne _ _ _ _ (by simpa using hj))) rfl

end Sys2Proof.Machine
end

section
/-! PROOF. READ_WEIGHTS, WRITE_WEIGHTS, APPLY_UPDATES, CHECKPOINT and RESTORE on a halted network (14 R363 to R367; 07 R183, R185;
O41), one lemma for each command. -/

namespace Sys2Proof.Machine

variable {s : State} {m : MboxId} {k c : Nat} {e : JEntry}

/-- The core that a command names belongs to its network. -/
theorem State.needMember_member {i : Nat} (h : (s.net (cmdNet e.cmd)).cores.contains c = true) (f : State → State) :
    s.needMember i e c f = f s := if_pos h

/-! ### READ_WEIGHTS -/

/-- What READ_WEIGHTS of n rows from row `first` counts, and checks of what it reads in GDDR6, core c being then as r. -/
def State.countRead (s : State) (c : Nat) (r : CoreSt) (first n source : Nat) : State :=
  if source = 0 then
    s.countCore c Ctr.synRdBytes ((upTo n).map fun x => fetchBytes r.mode (r.rBase (first + x)) (r.rLen (first + x))).sum
  else if ((upTo n).map fun x => r.rLen (first + x)).sum = 0 then s
  else (upTo n).foldl (fun s x => (s.gCheck (r.gradAddr (r.rBase (first + x))) (4 * r.rLen (first + x))).gddrCount
    (r.gradAddr (r.rBase (first + x))) (4 * r.rLen (first + x)) .compute 0) s

theorem State.readNow_eq {i step : Nat} {cols recs : List Byte} : s.readNow i e step cols recs =
    (s.finishResult i e (s.weightBlock (leAt e.cmd 0x40 2) (leAt e.cmd 0x42 2) (leAt e.cmd 0x44 2) (leAt e.cmd 0x46 1) step cols
      recs)).countRead (leAt e.cmd 0x40 2) (s.core (leAt e.cmd 0x40 2)) (leAt e.cmd 0x42 2) (leAt e.cmd 0x44 2)
      (leAt e.cmd 0x46 1) := rfl

/-- The counts of a READ_WEIGHTS change no weight and no byte of GDDR6. -/
theorem State.countRead_keeps {r : CoreSt} {first n source : Nat} (hoff : s.traceOn = false) :
    (∀ d, ((s.countRead c r first n source).core d).syn = (s.core d).syn) ∧
      (s.countRead c r first n source).gddr.mem = s.gddr.mem ∧
      State.KeepsBut [.cores, .ctr, .gddr] s (s.countRead c r first n source) := by
  have hcore (inc : Nat) : State.Notes [] [] c s (s.countCore c Ctr.synRdBytes inc) := State.notes_countCore
  have hquiet (inc : Nat) : State.Works [] [c] s (s.countCore c Ctr.synRdBytes inc) := State.works_countCore List.mem_cons_self
  have hread (t : State) (a b : Nat) : ((t.gCheck a b).gddrCount a b .compute 0).gddr.mem = t.gddr.mem ∧
      State.KeepsBut [.gddr, .ctr] t ((t.gCheck a b).gddrCount a b .compute 0) := by
    obtain ⟨hmem, hkeeps⟩ := t.gCheck_keeps a b
    have hcount := (t.gCheck a b).gddrCount_keeps a b .compute 0
    exact ⟨by rw [hcount.gddr_eq, hmem], hkeeps.trans (hcount.mono (by decide))⟩
  unfold State.countRead
  split
  · refine ⟨fun d => ?_, (hcore _).sameBytes.1, ((hquiet _).keeps hoff).mono (by decide)⟩
    by_cases hd : d = c
    · rw [hd, (hcore _).get (·.syn)]
    · rw [(hcore _).cores d (by simpa using hd)]
  · split
    · exact ⟨fun _ => rfl, rfl, .refl⟩
    · have hkeeps := State.KeepsBut.foldl (fun t x => (hread t (r.gradAddr (r.rBase (first + x))) (4 * r.rLen (first + x))).2)
        (upTo n) s
      exact ⟨fun d => by rw [State.core_congr hkeeps.cores_eq], foldl_keeps (fun t => t.gddr.mem) (fun t _ => (hread t _ _).1) _ s,
        hkeeps.mono (by decide)⟩

section Read

variable {a n : Nat} (hready : s.Ready m.val 0x31 e) (hk : k = cmdNet e.cmd) (himage : (s.net k).image ≠ 0)
  (hshed : (s.net k).shed = false) (hrun : (s.net k).running = false) (hc : c = leAt e.cmd 0x40 2) (ha : a = leAt e.cmd 0x42 2)
  (hn : n = leAt e.cmd 0x44 2) (hmember : (s.net k).cores.contains c = true) (hrows : a + n ≤ (s.core c).nRows)
  (htrains : leAt e.cmd 0x46 1 = 1 → 2 ≤ fld (s.core c).trainCfg 31 30)
include hready hk himage hshed hrun hc ha hn hmember hrows htrains

theorem exec_readWeights : exec (.readWeights m) s = .next (s.readNow m.val e (s.net k).step
    (((s.core c).coveredCols a n).flatMap (s.core c).colEntry)
    ((upTo n).flatMap fun x => s.rowRecord c (a + x) (leAt e.cmd 0x46 1))) := by
  subst hk hc ha hn
  have htrained : ¬(leAt e.cmd 0x46 1 = 1 && fld (s.core (leAt e.cmd 0x40 2)).trainCfg 31 30 < 2) = true := by
    simp only [Bool.and_eq_true, decide_eq_true_eq, not_and]
    exact fun h => Nat.not_lt.mpr (htrains h)
  change Host.Outcome.next (s.runCmd m.val 0x31 _) = _
  rw [hready.runCmd]
  dsimp only
  rw [State.needNet_loaded himage hshed, State.needMember_member hmember, if_neg (Nat.not_lt.mpr hrows), if_neg htrained,
    if_neg (by simp [hrun])]

/-- READ_WEIGHTS of rows that the core has. -/
theorem readWeights_answers : ∃ t, exec (.readWeights m) s = .next t ∧
    s.AnswersWith t m.val e (s.weightBlock c a n (leAt e.cmd 0x46 1) (s.net k).step
      (((s.core c).coveredCols a n).flatMap (s.core c).colEntry)
      ((upTo n).flatMap fun x => s.rowRecord c (a + x) (leAt e.cmd 0x46 1))) ∧
    (∀ d, (t.core d).syn = (s.core d).syn) ∧ t.gddr.mem = s.gddr.mem ∧ State.KeepsBut (mailParts ++ [Part.cores, .gddr]) s t := by
  have hexec := exec_readWeights hready hk himage hshed hrun hc ha hn hmember hrows htrains
  rw [State.readNow_eq, ← hc, ← ha, ← hn] at hexec
  refine ⟨_, hexec, ?_⟩
  generalize s.weightBlock c a n _ _ _ _ = block
  have hanswer : s.AnswersWith (s.finishResult m.val e block) m.val e block := hready.answers
  have hkeeps : State.KeepsBut mailParts s (s.finishResult m.val e block) := hready.keepsBut_finishResult
  obtain ⟨hsyn, hmem, hcount⟩ := State.countRead_keeps (c := c) (r := s.core c) (first := a) (n := n)
    (source := leAt e.cmd 0x46 1) (hready.traceOn_congr hkeeps.traceCtrl_eq)
  refine ⟨hanswer.carry hcount.mbox_eq hcount.out_eq, fun d => ?_, ?_, (hkeeps.mono (by decide)).trans (hcount.mono (by decide))⟩
  · rw [hsyn, State.core_congr hkeeps.cores_eq]
  · rw [hmem, hkeeps.gddr_eq]

end Read

/-! ### WRITE_WEIGHTS -/

/-- The state in which the rows of a WRITE_WEIGHTS of b begin to wait on core c. -/
def State.parkRows (s : State) (i : Nat) (e : JEntry) (c : Nat) (b : List Byte) (rows : List (Nat × List Byte)) : State :=
  ((s.countDev Ctr.pcieRxBytes noSub (min (leAt e.cmd 0x50 4) b.length)).park i e).modCore c fun x =>
    { x with hostRows := rows, hostMb := i + 1 }

theorem State.parkRows_eq {i : Nat} {b : List Byte} {rows : List (Nat × List Byte)} :
    (s.parkRows i e c b rows).core c = { s.core c with hostRows := rows, hostMb := i + 1 } ∧
      (s.parkRows i e c b rows).mbox = (s.park i e).mbox ∧ State.CoresBut [c] s (s.parkRows i e c b rows) ∧
      State.KeepsBut [.mbox, .ctr, .cores] s (s.parkRows i e c b rows) := by
  obtain ⟨x, hx⟩ := s.countDev_eq_with_ctr Ctr.pcieRxBytes noSub (min (leAt e.cmd 0x50 4) b.length)
  refine ⟨?_, ?_, fun d hd => ?_, by simp [State.parkRows, State.park]⟩
  · simp [State.parkRows, State.park]
  · rw [State.parkRows, hx]
    rfl
  · rw [State.parkRows, State.modCore_def, State.core_setCore_ne _ _ _ _ (by simpa using hd), hx]
    rfl

section Write

variable {b : List Byte} {rows : List (Nat × List Byte)} (hready : s.Ready m.val 0x30 e) (hk : k = cmdNet e.cmd)
  (himage : (s.net k).image ≠ 0) (hshed : (s.net k).shed = false) (hc : c = leAt e.cmd 0x40 2)
  (hmember : (s.net k).cores.contains c = true) (hblock : (s.core c).writeRows c b = some rows)
  (hlen : b.length = leAt e.cmd 0x50 4)
include hready hk himage hshed hc hmember hblock hlen

theorem exec_writeWeights : exec (.writeWeights m b) s = .next ((s.parkRows m.val e c b rows).hostApply c) := by
  subst hk hc
  have hcount (n : Nat) : (s.countDev Ctr.pcieRxBytes noSub n).core = s.core := by simp
  change Host.Outcome.next (s.runCmd m.val 0x30 _) = _
  rw [hready.runCmd]
  dsimp only
  rw [State.needNet_loaded himage hshed, State.needMember_member hmember, hcount, hblock]
  dsimp only
  rw [if_neg (not_not.mpr hlen)]
  rfl

/-- WRITE_WEIGHTS of a block that fits, where LEARN holds no row of the core. -/
theorem writeWeights_completes (hlearn : (s.core c).learnRows = []) (hskip : (s.core c).learnSkipped = []) :
    ∃ t, exec (.writeWeights m b) s = .next t ∧ s.Completes t m.val e codeDone 0 ∧ (t.core c).hostMb = 0 ∧
      (t.core c).hostRows = [] ∧ State.CoresBut [c] s t ∧ State.KeepsBut (mailParts ++ [Part.cores, .fault]) s t := by
  have hexec := exec_writeWeights hready hk himage hshed hc hmember hblock hlen
  obtain ⟨hcore, hmbox, hothers, hpark⟩ := s.parkRows_eq (i := m.val) (e := e) (c := c) (b := b) (rows := rows)
  generalize s.parkRows m.val e c b rows = u at *
  rw [State.hostApply_eq (by simp [hcore]) (by simpa [hcore] using hlearn) (by simpa [hcore] using hskip)] at hexec
  have hmb : (u.core c).hostMb = m.val + 1 := by rw [hcore]
  have hwork : State.Works [.fault] [c] u
      (((u.core c).hostRows.foldl (State.putHostRow c (u.core c)) u).modCore c fun x => { x with hostRows := [] }) :=
    (State.Works.foldl _ (fun _ _ _ => State.works_putHostRow List.mem_cons_self List.mem_cons_self) u).trans
      (.modCore List.mem_cons_self _)
  have hrows : ((((u.core c).hostRows.foldl (State.putHostRow c (u.core c)) u).modCore c fun x =>
      { x with hostRows := [] }).core c).hostRows = [] := by rw [State.modCore_def, State.core_setCore_self]
  have hkeeps := hwork.keeps (hready.traceOn_congr hpark.traceCtrl_eq)
  generalize ((u.core c).hostRows.foldl (State.putHostRow c (u.core c)) u).modCore c _ = v at *
  obtain ⟨hwake, hdone, hfinish⟩ := hready.wakes (hkeeps.ao_eq.trans hpark.ao_eq) (hkeeps.traceCtrl_eq.trans hpark.traceCtrl_eq)
    (hkeeps.mbox_eq.trans hmbox)
  rw [hmb, hwake] at hexec
  have hsame := State.core_congr hfinish.cores_eq
  refine ⟨_, hexec, hdone.carry rfl (fun _ _ => rfl) rfl, ?_, ?_, fun d hd => ?_, ?_⟩
  · rw [State.modCore_def, State.core_setCore_self]
  · rw [State.modCore_def, State.core_setCore_self, hsame, hrows]
  · rw [State.modCore_def, State.core_setCore_ne _ _ _ _ (by simpa using hd), hsame, hwork.cores d hd, hothers d hd]
  · simpa using ((hpark.mono (by decide)).trans (hkeeps.mono (by decide))).trans (hfinish.mono (by decide))

end Write

/-! ### APPLY_UPDATES -/

theorem mem_insNat {x y : Nat} {l : List Nat} : y ∈ insNat x l ↔ y = x ∨ y ∈ l := by
  induction l with
  | nil => simp [insNat]
  | cons z l ih =>
    unfold insNat
    split
    · simp
    · simp [ih, or_left_comm]

theorem mem_sortNat {x : Nat} {l : List Nat} : x ∈ sortNat l ↔ x ∈ l := by
  induction l with
  | nil => rfl
  | cons y l ih => rw [sortNat, mem_insNat, ih, List.mem_cons]

/-- APPLY_UPDATES of a network outside a replica group. -/
theorem applyUpdates_completes (hready : s.Ready m.val 0x32 e) (hk : k = cmdNet e.cmd) (himage : (s.net k).image ≠ 0)
    (hshed : (s.net k).shed = false) (hrun : (s.net k).running = false)
    (haccumulates : ((s.net k).cores.any fun c => (s.core c).accumulates) = true) (halone : s.reduces k = false) :
    ∃ t, exec (.applyUpdates m) s = .next t ∧ s.Completes t m.val e codeDone 0 ∧ State.CoresBut (s.net k).cores s t ∧
      State.KeepsBut (mailParts ++ [Part.cores, .gddr, .fault]) s t := by
  have hexec : exec (.applyUpdates m) s = .next (s.applyAll m.val e) := by
    subst hk
    change Host.Outcome.next (s.runCmd m.val 0x32 _) = _
    rw [hready.runCmd]
    dsimp only
    rw [State.needNet_loaded himage hshed, if_neg (by simp [haccumulates]), if_neg (by simp [hrun]), State.applyNow]
    exact congrArg _ (if_neg (by simp [halone]))
  rw [State.applyAll, ← hk] at hexec
  have hwork : State.Works [.gddr, .fault] (s.net k).cores s
      ((sortNat (s.net k).cores).foldl (fun s c => s.applyCore c (leAt e.cmd 0x40 2) (leAt e.cmd 0x42 1)) s) :=
    .foldl _ (fun _ _ hc => State.works_applyCore (mem_sortNat.mp hc) (by decide) (by decide)) s
  have hkeeps := hwork.keeps hready.traceOn_eq
  generalize (sortNat (s.net k).cores).foldl _ s = u at *
  have hfinish : State.KeepsBut mailParts u (u.finish m.val e) :=
    State.keepsBut_complete_off (hready.traceOn_congr hkeeps.traceCtrl_eq)
  exact ⟨_, hexec, hready.finishes hkeeps.ao_eq hkeeps.traceCtrl_eq hkeeps.mbox_eq rfl,
    fun d hd => (congrFun (State.core_congr hfinish.cores_eq) d).trans (hwork.cores d hd),
    (hkeeps.mono (by decide)).trans (hfinish.mono (by decide))⟩

/-! ### CHECKPOINT -/

theorem State.keepsBut_withFree (n : Nat) : State.KeepsBut [.free] s { s with free := n } := by
  intro p hp
  cases p
  case free => exact absurd List.mem_cons_self hp
  all_goals rfl

/-- What CHECKPOINT saves of network k into region r. -/
def State.ckptOf (s : State) (k : Nat) (r : Region) : Ckpt where
  base := r.base
  len := min (Config.ckptLen s.free) r.size
  seed := s.free
  digest := s.imageDigest (s.net k)
  cores := (sortNat (s.net k).cores).map fun c => (c, s.core c)
  grads := (sortNat (s.net k).cores).flatMap s.gradCells
  step := (s.net k).step
  pos := (s.net k).pos

/-- The state with checkpoint ck written and kept. -/
def State.keepCkpt (s : State) (ck : Ckpt) : State :=
  let t := s.gWrite ck.base (ckptBytes s.free ck.len) .compute
  { t with free := t.free + ck.len }.modGddr fun g => { g with ckpts := ck :: g.ckpts }

theorem State.keepCkpt_keeps (ck : Ckpt) :
    ck ∈ (s.keepCkpt ck).gddr.ckpts ∧ State.KeepsBut [.gddr, .ctr, .free] s (s.keepCkpt ck) := by
  refine ⟨List.mem_cons_self, ?_⟩
  simpa [State.keepCkpt] using ((s.gWrite_keeps ck.base (ckptBytes s.free ck.len) .compute).mono (by decide)).trans
    ((State.keepsBut_withFree _).mono (by decide))

/-- CHECKPOINT to a region of the network's image. -/
theorem checkpoint_completes (hready : s.Ready m.val 0x33 e) (hk : k = cmdNet e.cmd) (himage : (s.net k).image ≠ 0)
    (hshed : (s.net k).shed = false) (hrun : (s.net k).running = false) {r : Region} (hregion : s.ckptRegion e = some r) :
    ∃ t, exec (.checkpoint m) s = .next t ∧
      (∃ ck ∈ t.gddr.ckpts, ck.base = r.base ∧ ck.step = (s.net k).step ∧ ck.pos = (s.net k).pos ∧
        ck.cores = (sortNat (s.net k).cores).map (fun c => (c, s.core c)) ∧
        s.Completes t m.val e codeDone 0 (toLe 8 r.base ++ toLe 8 ck.len)) ∧
      State.KeepsBut (mailParts ++ [Part.gddr, .free]) s t := by
  have hexec : exec (.checkpoint m) s =
      .next ((s.keepCkpt (s.ckptOf k r)).finish m.val e (toLe 8 r.base ++ toLe 8 (s.ckptOf k r).len)) := by
    subst hk
    change Host.Outcome.next (s.runCmd m.val 0x33 _) = _
    rw [hready.runCmd]
    dsimp only
    rw [State.needNet_loaded himage hshed, hregion]
    dsimp only
    rw [if_neg (by simp [hrun])]
    rfl
  obtain ⟨hkept, hkeeps⟩ := s.keepCkpt_keeps (s.ckptOf k r)
  generalize s.keepCkpt (s.ckptOf k r) = u at *
  have hfinish : State.KeepsBut mailParts u (u.finish m.val e (toLe 8 r.base ++ toLe 8 (s.ckptOf k r).len)) :=
    State.keepsBut_complete_off (hready.traceOn_congr hkeeps.traceCtrl_eq)
  exact ⟨_, hexec, ⟨s.ckptOf k r, hfinish.gddr_eq ▸ hkept, rfl, rfl, rfl, rfl,
    hready.finishes hkeeps.ao_eq hkeeps.traceCtrl_eq hkeeps.mbox_eq rfl⟩, (hkeeps.mono (by decide)).trans (hfinish.mono (by decide))⟩

/-! ### RESTORE -/

/-- Network k takes up a checkpoint: its step and position, cores and GDDR6. -/
theorem State.restoreNow_keeps (ck : Ckpt) :
    ((s.restoreNow k ck).net k).step = ck.step ∧ ((s.restoreNow k ck).net k).pos = ck.pos ∧
      State.NetsBut [k] s (s.restoreNow k ck) ∧ State.KeepsBut [.nets, .cores, .gddr] s (s.restoreNow k ck) := by
  have hcores : State.KeepsBut [.cores] s (ck.cores.foldl (fun s x => s.modCore x.1 fun c => c.restored x.2) s) :=
    .foldl (fun _ _ => by simp) _ _
  unfold State.restoreNow
  dsimp only
  refine ⟨by simp, by simp, fun j hj => ?_, by simpa using hcores.mono (by decide)⟩
  rw [State.modNet_def, State.net_setNet_ne _ _ _ _ (by simpa using hj)]
  exact congrFun (State.net_congr hcores.nets_eq) j

/-- The checkpoint that stands at a device address, of this length and of the image of network k. -/
def State.ckptAt (s : State) (k a n : Nat) : Option Ckpt :=
  s.gddr.ckpts.find? fun x => x.len == n && x.digest == s.imageDigest (s.net k) && s.gPeek a n == ckptBytes x.seed x.len

/-- RESTORE from the bytes of a checkpoint. -/
theorem restore_completes (hready : s.Ready m.val 0x34 e) (hk : k = cmdNet e.cmd) (himage : (s.net k).image ≠ 0)
    (hshed : (s.net k).shed = false) (hrun : (s.net k).running = false) {a n : Nat} {ck : Ckpt} (ha : a = leAt e.cmd 0x40 8)
    (hn : n = leAt e.cmd 0x48 8) (htop : a + n ≤ s.gddr.top) (hfind : s.ckptAt k a n = some ck) :
    ∃ t, exec (.restore m) s = .next t ∧ s.Completes t m.val e codeDone 0 ∧ (t.net k).step = ck.step ∧ (t.net k).pos = ck.pos ∧
      State.NetsBut [k] s t ∧ State.KeepsBut (mailParts ++ [Part.nets, .cores, .gddr]) s t := by
  have hread := s.gddrCount_keeps a n .compute 0
  have hsame : (s.gddrCount a n .compute 0).ckptAt k a n = some ck := by
    rw [← hfind, State.ckptAt, State.imageDigest, State.gPeek, State.net, hread.gddr_eq, hread.images_eq, hread.nets_eq]
    rfl
  have hexec : exec (.restore m) s = .next (((s.gddrCount a n .compute 0).restoreNow k ck).finish m.val e) := by
    subst hk ha hn
    change Host.Outcome.next (s.runCmd m.val 0x34 _) = _
    rw [hready.runCmd]
    dsimp only
    rw [State.needNet_loaded himage hshed, if_neg (by simp [hrun]), if_neg (Nat.not_lt.mpr htop), ← State.net_congr hread.nets_eq]
    unfold State.ckptAt at hsame
    rw [hsame]
  generalize s.gddrCount a n .compute 0 = u at *
  obtain ⟨hstep, hpos, hnets, hkeeps⟩ := u.restoreNow_keeps (k := k) ck
  have htaken := (hread.mono (l' := [.ctr, .nets, .cores, .gddr]) (by decide)).trans (hkeeps.mono (by decide))
  generalize u.restoreNow k ck = v at *
  have hfinish : State.KeepsBut mailParts v (v.finish m.val e) :=
    State.keepsBut_complete_off (hready.traceOn_congr htaken.traceCtrl_eq)
  have hend := State.net_congr hfinish.nets_eq
  refine ⟨_, hexec, hready.finishes htaken.ao_eq htaken.traceCtrl_eq htaken.mbox_eq rfl, by rw [hend, hstep], by rw [hend, hpos],
    fun j hj => ?_, (htaken.mono (by decide)).trans (hfinish.mono (by decide))⟩
  rw [hend, hnets j hj, State.net_congr hread.nets_eq]

/-! ### O41 -/

/-- Settles O41: each of the five commands by its own lemma. -/
theorem weightCommandsComplete : Obligations.WeightCommandsComplete := by
  unfold Obligations.WeightCommandsComplete
  intro m s e k hk himage hshed hrun
  refine ⟨?_, ?_, ?_, ?_, ?_⟩
  · intro c a n hc ha hn hready hmember hrows htrains
    exact readWeights_answers hready hk himage hshed hrun hc ha hn hmember hrows htrains
  · intro c b rows hc hready hmember hblock hlen hlearn hskip _
    exact writeWeights_completes hready hk himage hshed hc hmember hblock hlen hlearn hskip
  · intro hready haccumulates halone
    exact applyUpdates_completes hready hk himage hshed hrun haccumulates halone
  · intro r hready hregion
    exact checkpoint_completes hready hk himage hshed hrun hregion
  · intro a n ck ha hn hready htop hfind
    exact restore_completes hready hk himage hshed hrun ha hn htop hfind

end Sys2Proof.Machine
end

section
/-! SUPPORT. What tokens do to flow contexts (08 R195, R196, R203, R215; 11 R280, R287): a message consumed or refused, and a token packet
offered to its flow. -/

namespace Sys2Proof.Machine

variable {s : State}

/-! ### Units of a part that a step keeps -/

section Units

variable {t : State} {l : List Part} (h : State.KeepsBut l s t)

include h

theorem State.KeepsBut.flow_fun (hp : Part.flows ∉ l) : t.flow = s.flow := funext fun _ => by rw [State.flow, h.flows_eq hp, State.flow]

theorem State.KeepsBut.bind_fun (hp : Part.binds ∉ l) : t.bind = s.bind := funext fun _ => by rw [State.bind, h.binds_eq hp, State.bind]

theorem State.KeepsBut.comb_fun (hp : Part.combs ∉ l) : t.comb = s.comb := funext fun _ => by rw [State.comb, h.combs_eq hp, State.comb]

theorem State.KeepsBut.dp_fun (hp : Part.dpack ∉ l) : t.dp = s.dp := funext fun _ => by rw [State.dp, h.dpack_eq hp, State.dp]

theorem State.KeepsBut.rfn_fun (hp : Part.rfns ∉ l) : t.rfn = s.rfn := funext fun _ => by rw [State.rfn, h.rfns_eq hp, State.rfn]

theorem State.KeepsBut.net_fun (hp : Part.nets ∉ l) : t.net = s.net := funext fun _ => by rw [State.net, h.nets_eq hp, State.net]

theorem State.KeepsBut.core_fun (hp : Part.cores ∉ l) : t.core = s.core := funext fun _ => by rw [State.core, h.cores_eq hp, State.core]

theorem State.KeepsBut.sector_fun (hp : Part.sectors ∉ l) : t.sector = s.sector :=
  funext fun _ => by rw [State.sector, h.sectors_eq hp, State.sector]

theorem State.KeepsBut.now_eq (hp : Part.ao ∉ l) : t.now = s.now := by rw [State.now, h.ao_eq hp, State.now]

theorem State.KeepsBut.ctrAt_fun (hp : Part.ctr ∉ l) : t.ctrAt = s.ctrAt := by
  unfold State.ctrAt
  rw [h.ctr_eq hp]

end Units

/-! ### Device counters beside the token units -/

@[simp] theorem State.countDev_tokenUnits (id sub inc : Nat) :
    (s.countDev id sub inc).bind = s.bind ∧ (s.countDev id sub inc).dp = s.dp ∧ (s.countDev id sub inc).rp = s.rp ∧
    (s.countDev id sub inc).comb = s.comb ∧ (s.countDev id sub inc).rfn = s.rfn ∧ (s.countDev id sub inc).tok = s.tok ∧
    (s.countDev id sub inc).expand = s.expand ∧ (s.countDev id sub inc).combs = s.combs := by
  obtain ⟨c, hc⟩ := s.countDev_eq_with_ctr id sub inc
  rw [hc]
  repeat' constructor

theorem State.countDev_flow (id sub inc : Nat) : (s.countDev id sub inc).flow = s.flow := by simp

/-! ### Consumption and refusal -/

/-- A flow context without what the consumption of a message changes. -/
def FlowSt.besideAcks (x : FlowSt) : FlowSt :=
  { x with rxWm := 0, consumed := [], delivered := [], stage := [], ackDue := false }

theorem rxAdvance_keeps (n : Nat) (x : FlowSt) :
    (rxAdvance n x).besideAcks = x.besideAcks ∧ (rxAdvance n x).ackDue = x.ackDue := by
  induction n generalizing x with
  | zero => exact ⟨rfl, rfl⟩
  | succ n ih =>
    unfold rxAdvance
    dsimp only
    split
    · exact ih _
    · exact ⟨rfl, rfl⟩

theorem FlowSt.consume_keeps (x : FlowSt) (m : Nat) : (x.consume m).besideAcks = x.besideAcks := (rxAdvance_keeps _ _).1

/-- The flow context from which a refusal is listed. -/
def FlowSt.refuse (x : FlowSt) (m code : Nat) : FlowSt := { x with refused := x.refused ++ [(m, code)] }

/-- Message m of flow f is consumed: an ACK is due, and nothing else of the context changes but the record of what was consumed. -/
theorem State.consumeMsg_flow (f m : Nat) :
    ((s.consumeMsg f m).flow f).besideAcks = (s.flow f).besideAcks ∧ ((s.consumeMsg f m).flow f).ackDue = true := by
  rw [State.consumeMsg, State.modFlow_def, State.flow_setFlow_self]
  exact ⟨(s.flow f).consume_keeps m, rfl⟩

theorem State.consumeMsg_flowsBut (f m : Nat) : State.FlowsBut [f] s (s.consumeMsg f m) := fun g hg => by
  simp [State.consumeMsg, List.mem_singleton.not.mp hg]

@[simp] theorem State.keepsBut_consumeMsg {t : State} {l : List Part} (hp : Part.flows ∈ l) (f m : Nat) :
    State.KeepsBut l s (t.consumeMsg f m) ↔ State.KeepsBut l s t := by simp [State.consumeMsg, hp]

@[simp] theorem State.consumeMsg_units (f m : Nat) :
    (s.consumeMsg f m).bind = s.bind ∧ (s.consumeMsg f m).comb = s.comb ∧ (s.consumeMsg f m).tok = s.tok ∧
    (s.consumeMsg f m).net = s.net ∧ (s.consumeMsg f m).expand = s.expand ∧ (s.consumeMsg f m).errTok = s.errTok ∧
    (s.consumeMsg f m).now = s.now ∧ (s.consumeMsg f m).ctr = s.ctr := by
  repeat' constructor

/-- A field of a flow context that consumption does not change. -/
theorem FlowSt.get_besideAcks {α : Type} {x y : FlowSt} (h : x.besideAcks = y.besideAcks) (f : FlowSt → α)
    (hf : ∀ z : FlowSt, f z.besideAcks = f z) : f x = f y := by rw [← hf, h, hf]

/-- Message m of flow f is refused: it is listed with its code, and consumed. -/
theorem State.refuseMsg_flow (f m code : Nat) :
    ((s.refuseMsg f m code).flow f).besideAcks = ((s.flow f).refuse m code).besideAcks ∧
      ((s.refuseMsg f m code).flow f).ackDue = true := by
  obtain ⟨hbeside, hdue⟩ := (s.modFlow f (·.refuse m code)).consumeMsg_flow f m
  exact ⟨hbeside.trans (by simp), hdue⟩

theorem State.refuseMsg_flowsBut (f m code : Nat) : State.FlowsBut [f] s (s.refuseMsg f m code) := fun g hg => by
  rw [State.refuseMsg, State.consumeMsg_flowsBut f m g hg]
  simp [List.mem_singleton.not.mp hg]

@[simp] theorem State.keepsBut_refuseMsg {t : State} {l : List Part} (hp : Part.flows ∈ l) (f m code : Nat) :
    State.KeepsBut l s (t.refuseMsg f m code) ↔ State.KeepsBut l s t := by simp [State.refuseMsg, hp]

/-! ### Events queued for injection -/

@[simp] theorem State.queueExpansion_units (fn k : Nat) (v vOut : Word32) (evs : List EvItem) :
    (s.queueExpansion fn k v vOut evs).bind = s.bind ∧ (s.queueExpansion fn k v vOut evs).comb = s.comb ∧
    (s.queueExpansion fn k v vOut evs).tok = s.tok ∧ (s.queueExpansion fn k v vOut evs).net = s.net ∧
    (s.queueExpansion fn k v vOut evs).flow = s.flow := by
  repeat' constructor

theorem State.keepsBut_withExpand {t : State} {l : List Part} (hp : Part.expand ∈ l) (v : List Expansion) :
    State.KeepsBut l s { t with expand := v } ↔ State.KeepsBut l s t :=
  State.keepsBut_congr s fun p h => by
    cases p
    case expand => exact absurd hp h
    all_goals rfl

@[simp] theorem State.keepsBut_queueExpansion {t : State} {l : List Part} (hp : Part.expand ∈ l) (fn k : Nat) (v vOut : Word32)
    (evs : List EvItem) : State.KeepsBut l s (t.queueExpansion fn k v vOut evs) ↔ State.KeepsBut l s t :=
  State.keepsBut_withExpand hp _

theorem State.keepsBut_withErrTok {t : State} {l : List Part} (hp : Part.errTok ∈ l) (v : List Token) :
    State.KeepsBut l s { t with errTok := v } ↔ State.KeepsBut l s t :=
  State.keepsBut_congr s fun p h => by
    cases p
    case errTok => exact absurd hp h
    all_goals rfl

theorem State.keepsBut_withTok {t : State} {l : List Part} (hp : Part.tok ∈ l) (v : TokSt) :
    State.KeepsBut l s { t with tok := v } ↔ State.KeepsBut l s t :=
  State.keepsBut_congr s fun p h => by
    cases p
    case tok => exact absurd hp h
    all_goals rfl

/-! ### The next token message of a flow -/

/-- The head of flow f's token queue taken. -/
def State.popTok (s : State) (f : Nat) : State := s.modFlow f fun x => { x with tokQ := x.tokQ.tail }

@[simp] theorem State.popTok_units (f : Nat) : (s.popTok f).bind = s.bind ∧ (s.popTok f).comb = s.comb ∧ (s.popTok f).dp = s.dp ∧
    (s.popTok f).tok = s.tok ∧ (s.popTok f).net = s.net ∧ (s.popTok f).bindings = s.bindings ∧ (s.popTok f).homeNet = s.homeNet ∧
    (s.popTok f).errorPacker = s.errorPacker ∧ (s.popTok f).bindingOf = s.bindingOf ∧ (s.popTok f).errTok = s.errTok ∧
    (s.popTok f).expand = s.expand := by
  repeat' constructor

theorem State.popTok_flow (f : Nat) : (s.popTok f).flow f = { s.flow f with tokQ := (s.flow f).tokQ.tail } := by
  simp [State.popTok]

theorem State.popTok_flowsBut (f : Nat) : State.FlowsBut [f] s (s.popTok f) := fun g hg => by
  simp [State.popTok, List.mem_singleton.not.mp hg]

@[simp] theorem State.keepsBut_popTok {t : State} {l : List Part} (hp : Part.flows ∈ l) (f : Nat) :
    State.KeepsBut l s (t.popTok f) ↔ State.KeepsBut l s t := by simp [State.popTok, hp]

/-- The next token message is the head of the flow's token queue, and is taken from it. -/
theorem State.nextTok_eq_some {f kind : Nat} {m : Msg} {p : Packet} {u : State} (h : s.nextTok f kind = some (m, p, u)) :
    u = s.popTok f ∧ p = parsePacket m.body ∧ p.tok.kind = kind := by
  unfold State.nextTok at h
  split at h
  · cases h
  · next m' rest hq =>
    dsimp only at h
    split at h
    · next hkind =>
      cases h
      exact ⟨by simp [State.popTok, hq], rfl, hkind⟩
    · cases h

/-! ### A token packet offered -/

/-- A token is sent as a DELTA body against these codes (R196). -/
def Token.asDelta (t : Token) (base : Option (List Int)) : Bool :=
  match base with
  | some b => b.length == t.n && decide ((diffElems t.codes b).length + (t.n + 7) / 8 < t.n)
  | none => false

/-- The message of a token that packer place `sub` offers. -/
def Token.msg (t : Token) (delta : Bool) (base : Option (List Int)) (sub ackFlow ackSeq : Nat) : Msg :=
  { kind := 2, body := ({ t with delta := delta } : Token).bytes (base.getD []), ackFlow := ackFlow, ackSeq := ackSeq
    sub := sub + 1, prev := base }

/-- The flow context to which a message has been offered. -/
def FlowSt.offered (x : FlowSt) (m : Msg) : FlowSt := { x with srcQ := x.srcQ ++ [m] }

/-- The flow context whose mirror holds the codes of a sequence. -/
def FlowSt.mirrored (x : FlowSt) (seq : Nat) (codes : List Int) : FlowSt :=
  { x with mirror := CodeCache.put x.mirror x.cacheSize seq codes }

variable {t : Token} {sub f ackFlow ackSeq : Nat}

/-- A DISPATCH or RETURN token is offered FULL or DELTA, and the mirror holds its codes. -/
theorem State.sendToken_cached (h : t.kind = kindDispatch ∨ t.kind = kindReturn) :
    (s.sendToken sub f t ackFlow ackSeq).flow f = ((s.flow f).mirrored t.seq t.codes).offered
      (t.msg (t.asDelta (CodeCache.find (s.flow f).mirror t.seq)) (CodeCache.find (s.flow f).mirror t.seq) sub ackFlow ackSeq) := by
  have hcached : (decide (t.kind = kindDispatch) || decide (t.kind = kindReturn)) = true := by simpa using h
  have hclose : t.kind ≠ kindClose := by rcases h with h | h <;> simp [h]
  simp only [State.sendToken, hcached, if_neg hclose]
  simp [State.offerMsg, FlowSt.offered, FlowSt.mirrored, Token.msg]
  rfl

/-- An ERROR or CLOSE token is offered as it is. -/
theorem State.sendToken_plain (h : t.kind = kindError ∨ t.kind = kindClose) :
    (s.sendToken sub f t ackFlow ackSeq).flow f =
      (s.flow f).offered (t.msg false (CodeCache.find (s.flow f).mirror t.seq) sub ackFlow ackSeq) := by
  have hcached : (decide (t.kind = kindDispatch) || decide (t.kind = kindReturn)) = false := by rcases h with h | h <;> simp [h]
  simp only [State.sendToken, hcached]
  split <;> simp [State.offerMsg, FlowSt.offered, Token.msg]

theorem State.sendToken_frame : State.FlowsBut [f] s (s.sendToken sub f t ackFlow ackSeq) ∧
    State.KeepsBut [.flows, .ctr] s (s.sendToken sub f t ackFlow ackSeq) := by
  have hmirror (b : Bool) (x : FlowSt) (g : Nat) (hg : g ≠ f) : (if b then s.setFlow f x else s).flow g = s.flow g := by
    split <;> simp [hg]
  have hcount (u : State) (b : Prop) [Decidable b] (i j n : Nat) :
      (if b then u else (u.countDev i sub).countDev j sub n).flow = u.flow := by split <;> simp
  refine ⟨fun g hg => ?_, by simp [State.sendToken, State.offerMsg]⟩
  have hne : g ≠ f := by simpa using hg
  simp only [State.sendToken, State.offerMsg, State.modFlow_def]
  rw [State.flow_setFlow_ne _ _ _ _ hne, State.countDev_flow, hcount, hmirror _ _ _ hne]

end Sys2Proof.Machine
end

section
/-! SUPPORT. Slots that wait for a token (08 R210, R211), and folds over the units of one kind. -/

namespace Sys2Proof.Machine

variable {s : State}

/-! ### Folds over the units of one kind -/

/-- A fold whose step at a place changes the unit of that place alone, by what it was and by what every step keeps, changes each unit
of its places once. -/
theorem foldl_each {γ δ : Type} (view : State → Nat → γ) (rest : State → δ) {f : State → Nat → State} (G : δ → Nat → γ → γ)
    (hself : ∀ s m, view (f s m) m = G (rest s) m (view s m)) (hne : ∀ s m c, c ≠ m → view (f s m) c = view s c)
    (hrest : ∀ s m, rest (f s m) = rest s) {l : List Nat} (hl : l.Nodup) (s : State) (c : Nat) :
    view (l.foldl f s) c = if c ∈ l then G (rest s) c (view s c) else view s c := by
  induction l generalizing s with
  | nil => simp
  | cons m l ih =>
    obtain ⟨hm, hl⟩ := List.nodup_cons.mp hl
    rw [List.foldl_cons, ih hl, hrest]
    by_cases hc : c = m
    · subst hc
      simp [hm, hself]
    · simp [hc, hne s m c hc]

theorem mem_upTo {n i : Nat} : i ∈ upTo n ↔ i < n := List.mem_range

theorem upTo_nodup (n : Nat) : (upTo n).Nodup := List.nodup_range

/-! ### Slots that wait for a token -/

/-- Slot `slot` of window place i of a combiner changed. -/
def CombSt.setSlot (c : CombSt) (i slot : Nat) (g : SlotSt → SlotSt) : CombSt :=
  { c with wins := c.wins.set i { c.wins.getD i {} with
      slots := (c.wins.getD i {}).slots.set slot (g ((c.wins.getD i {}).slots.getD slot {})) } }

/-- The first slot of a combiner that waits for a token changed, where the cutoff of its window has not passed. -/
def CombSt.resolve (cut : CombSt → PendWin → Bool) (w seq slot f : Nat) (g : SlotSt → SlotSt) (c : CombSt) : CombSt :=
  match c.waiting w seq slot f with
  | some i => if c.valid && !cut c (c.wins.getD i {}) then c.setSlot i slot g else c
  | none => c

/-- A slot that waits is there. -/
theorem CombSt.waiting_eq_some {c : CombSt} {w seq slot f i : Nat} (h : c.waiting w seq slot f = some i) :
    i < c.wins.length ∧ slot < (c.wins.getD i {}).slots.length := by
  have hmem := List.mem_of_find?_eq_some h
  have hpred := List.find?_some h
  simp only [upTo, List.mem_range] at hmem
  simp only [Bool.and_eq_true, decide_eq_true_eq] at hpred
  obtain ⟨⟨⟨-, hslot⟩, -⟩, -⟩ := hpred
  exact ⟨hmem, hslot⟩

theorem CombSt.slot_setSlot {c : CombSt} {w seq slot f i : Nat} (h : c.waiting w seq slot f = some i) (g : SlotSt → SlotSt) :
    ((c.setSlot i slot g).wins.getD i {}).slots.getD slot {} = g ((c.wins.getD i {}).slots.getD slot {}) := by
  obtain ⟨hi, hslot⟩ := CombSt.waiting_eq_some h
  simp only [CombSt.setSlot, List.getD_eq_getElem?_getD, List.getElem?_set_self, hi, Option.getD_some] at hslot ⊢
  simp [hslot]

variable (w seq slot f : Nat) (g : SlotSt → SlotSt)

/-- Every combiner's slot that waits is resolved, and nothing else changes. -/
theorem State.comb_resolveSlots {c : Nat} (hc : c < 16) :
    (s.resolveSlots w seq slot f g).comb c = (s.comb c).resolve s.cutPassed w seq slot f g := by
  unfold State.resolveSlots
  rw [foldl_each State.comb State.cutPassed (fun cut _ => CombSt.resolve cut w seq slot f g) (fun u m => ?_) (fun u m d hd => ?_)
    (fun u m => ?_) (upTo_nodup 16) s c]
  · rw [if_pos (mem_upTo.mpr hc)]
  · unfold CombSt.resolve
    cases (u.comb m).waiting w seq slot f with
    | none => rfl
    | some i =>
      dsimp only
      split
      · exact State.comb_modComb_self ..
      · rfl
  · split
    · split
      · exact State.comb_modComb_ne _ _ _ _ hd
      · rfl
    · rfl
  · split
    · split <;> rfl
    · rfl

theorem State.resolveSlots_keeps : State.KeepsBut [.combs] s (s.resolveSlots w seq slot f g) := by
  refine .foldl (fun u m => ?_) _ _
  split
  · simp [State.setSlot]
  · exact .refl

variable {w seq slot f g}

/-- The slot that waits for the token, whose window's cutoff has not passed, is resolved. -/
theorem State.slot_resolveSlots {c i : Nat} (hc : c < 16) (hvalid : (s.comb c).valid = true)
    (hwait : (s.comb c).waiting w seq slot f = some i) (hcut : s.cutPassed (s.comb c) ((s.comb c).wins.getD i {}) = false) :
    (((s.resolveSlots w seq slot f g).comb c).wins.getD i {}).slots.getD slot {} =
      g (((s.comb c).wins.getD i {}).slots.getD slot {}) := by
  have hresolve : (s.comb c).resolve s.cutPassed w seq slot f g = (s.comb c).setSlot i slot g := by
    rw [CombSt.resolve, hwait]
    exact if_pos (by rw [hvalid, hcut]; rfl)
  rw [State.comb_resolveSlots w seq slot f g hc, hresolve, CombSt.slot_setSlot hwait]

end Sys2Proof.Machine
end

section
/-! SUPPORT. TOKEN_RETURN_RECEIVE (08 R203, R209, R215): a refusal, or a RETURN token, resolves the slot that waits. -/

namespace Sys2Proof.Machine

variable {s : State}

theorem State.cutPassed_congr {t : State} (hnet : t.net = s.net) (hnow : t.now = s.now) : t.cutPassed = s.cutPassed := by
  unfold State.cutPassed
  rw [hnet, hnow]

theorem State.resolveSlots_flow (w seq slot f : Nat) (g : SlotSt → SlotSt) : (s.resolveSlots w seq slot f g).flow = s.flow := by
  funext j
  rw [(State.resolveSlots_keeps w seq slot f g).flow_fun (by decide)]

/-- The refusal r of flow f's DISPATCH token is taken, with `rest` behind it: counted for the packer that sent the token, which the
mirror takes back unless the peer took its codes. -/
def State.takeNak (s : State) (f : Nat) (r : Nak) (rest : List Nak) : State :=
  let q := parsePacket r.msg.body
  let u := (s.modFlow f fun x => { x with naks := rest }).countDev Ctr.tokenNakRx ((r.msg.sub - 1) * 16 + r.code)
  if r.code = 1 then u
  else u.modFlow f fun x => { x with mirror := x.mirror.undo q.tok.seq (q.codes (r.msg.prev.getD [])) r.msg.prev }

theorem State.takeNak_keeps (f : Nat) (r : Nak) (rest : List Nak) : State.FlowsBut [f] s (s.takeNak f r rest) ∧
    State.KeepsBut [.flows, .ctr] s (s.takeNak f r rest) := by
  unfold State.takeNak
  dsimp only
  split
  · exact ⟨fun g hg => by simp [List.mem_singleton.not.mp hg], by simp⟩
  · exact ⟨fun g hg => by simp [List.mem_singleton.not.mp hg], by simp⟩

theorem State.ctrAt_takeNak (f : Nat) (r : Nak) (rest : List Nak) :
    (s.takeNak f r rest).ctrAt Scope.device 0 Ctr.tokenNakRx ((r.msg.sub - 1) * 16 + r.code) 0 =
      satCtr (s.ctrAt Scope.device 0 Ctr.tokenNakRx ((r.msg.sub - 1) * 16 + r.code) 0 + 1) := by
  unfold State.takeNak
  dsimp only
  split
  · exact State.ctrAt_countDev_self _ one_ne_zero
  · exact State.ctrAt_countDev_self _ one_ne_zero

theorem exec_tokenReturnReceive_refusal {f : FlowId} {r : Nak} {rest : List Nak} {q : Packet} (hnaks : (s.flow f.val).naks = r :: rest)
    (hq : q = parsePacket r.msg.body) (hkind : q.tok.kind = kindDispatch) (hsub : r.msg.sub ≠ 0) :
    exec (.tokenReturnReceive f) s = .next ((s.takeNak f.val r rest).resolveSlots q.tok.window q.tok.seq q.tok.slot f.val
      fun x => { x with st := 2 }) := by
  subst hq
  change execTokenReturnReceive f s = _
  unfold execTokenReturnReceive State.tokenNak State.takeNak
  by_cases hcode : r.code = 1 <;> simp [hnaks, hsub, hkind, hcode]

/-- A refusal of a DISPATCH token is counted for its packer, the mirror takes the token back, and the slot that waits is refused. -/
theorem tokenReturnReceive_refusal {f : FlowId} {x : FlowSt} {r : Nak} {rest : List Nak} {q : Packet} (hx : x = s.flow f.val)
    (hnaks : x.naks = r :: rest) (hq : q = parsePacket r.msg.body) (hkind : q.tok.kind = kindDispatch) (hsub : r.msg.sub ≠ 0) :
    ∃ t, exec (.tokenReturnReceive f) s = .next t ∧
      t.flow f.val = { x with
        naks := rest
        mirror := if r.code = 1 then x.mirror else x.mirror.undo q.tok.seq (q.codes (r.msg.prev.getD [])) r.msg.prev } ∧
      t.ctrAt Scope.device 0 Ctr.tokenNakRx ((r.msg.sub - 1) * 16 + r.code) 0 =
        satCtr (s.ctrAt Scope.device 0 Ctr.tokenNakRx ((r.msg.sub - 1) * 16 + r.code) 0 + 1) ∧
      (∀ c i, c < 16 → (s.comb c).valid = true → (s.comb c).waiting q.tok.window q.tok.seq q.tok.slot f.val = some i →
        s.cutPassed (s.comb c) ((s.comb c).wins.getD i {}) = false →
        (((t.comb c).wins.getD i {}).slots.getD q.tok.slot {}).st = 2) ∧
      State.FlowsBut [f.val] s t ∧ State.KeepsBut [.flows, .combs, .ctr] s t := by
  subst hx
  obtain ⟨hothers, hkeeps⟩ := s.takeNak_keeps f.val r rest
  have hresolved := State.resolveSlots_keeps (s := s.takeNak f.val r rest) q.tok.window q.tok.seq q.tok.slot f.val fun x =>
    { x with st := 2 }
  refine ⟨_, exec_tokenReturnReceive_refusal hnaks hq hkind hsub, ?_, ?_, fun c i hc hvalid hwait hcut => ?_,
    fun g hg => by rw [State.resolveSlots_flow, hothers g hg], (hkeeps.mono (by decide)).trans (hresolved.mono (by decide))⟩
  · rw [State.resolveSlots_flow, hq]
    by_cases hcode : r.code = 1 <;> simp [State.takeNak, hcode]
  · rw [hresolved.ctrAt_fun (by decide), State.ctrAt_takeNak]
  · have hcomb : (s.takeNak f.val r rest).comb c = s.comb c := by rw [hkeeps.comb_fun (by decide)]
    rw [← hcomb] at hvalid hwait hcut
    rw [← State.cutPassed_congr (hkeeps.net_fun (by decide)) (hkeeps.now_eq (by decide))] at hcut
    rw [State.slot_resolveSlots hc hvalid hwait hcut]

/-- The head of flow f's token queue is taken, with `codes` put in the flow's code cache. -/
def State.tokenTaken (s : State) (f seq : Nat) (codes : List Int) : State :=
  (s.popTok f).modFlow f fun x => { x with cache := CodeCache.put x.cache x.cacheSize seq codes }

theorem State.tokenTaken_flow (f seq : Nat) (codes : List Int) : (s.tokenTaken f seq codes).flow f =
    { s.flow f with tokQ := (s.flow f).tokQ.tail, cache := CodeCache.put (s.flow f).cache (s.flow f).cacheSize seq codes } := by
  simp [State.tokenTaken, State.popTok_flow]

theorem State.tokenTaken_keeps (f seq : Nat) (codes : List Int) : State.FlowsBut [f] s (s.tokenTaken f seq codes) ∧
    State.KeepsBut [.flows] s (s.tokenTaken f seq codes) :=
  ⟨fun g hg => by simpa [State.tokenTaken, List.mem_singleton.not.mp hg] using State.popTok_flowsBut f g hg,
    by simp [State.tokenTaken]⟩

/-- The token that a packet of flow f carries, with its codes. -/
def State.tokenOf (s : State) (f : Nat) (m : Msg) (p : Packet) : Token :=
  { p.tok with
    codes := p.codes ((CodeCache.find (s.flow f).cache p.tok.seq).getD []), src := (s.flow f).peerDev, flow := f, mseq := m.mseq }

theorem State.takeToken_popped (f : Nat) (m : Msg) (p : Packet) :
    (s.popTok f).takeToken f m p =
      (s.tokenOf f m p, s.tokenTaken f p.tok.seq (s.tokenOf f m p).codes) := by
  simp [State.takeToken, State.tokenOf, State.tokenTaken, State.popTok_flow]

/-- The code cache has what a packet needs: a DELTA body has a base of its length. -/
theorem State.based_of {f : Nat} {p : Packet}
    (hbase : p.tok.delta = true → ∃ l, CodeCache.find (s.flow f).cache p.tok.seq = some l ∧ l.length = p.tok.n) :
    (p.tok.delta && (CodeCache.find ((s.popTok f).flow f).cache p.tok.seq).all
      fun c => c.length != p.tok.n) = false := by
  rw [Bool.and_eq_false_imp]
  intro hdelta
  obtain ⟨l, hl, hlen⟩ := hbase hdelta
  simp [State.popTok_flow, hl, hlen]

section Token

variable {f : FlowId} {u : State} {m : Msg} {p : Packet} {tk : Token} (hnaks : (s.flow f.val).naks = []) (htakes : s.takesIn = true)
  (hnext : s.nextTok f.val kindReturn = some (m, p, u)) (hgood : p.good = true)
  (hbase : p.tok.delta = true → ∃ l, CodeCache.find (s.flow f.val).cache p.tok.seq = some l ∧ l.length = p.tok.n)
  (htk : tk = s.tokenOf f.val m p)

include hnaks htakes hnext hgood hbase htk

theorem exec_tokenReturnReceive_token : exec (.tokenReturnReceive f) s = .next (((s.tokenTaken f.val p.tok.seq tk.codes).resolveSlots
    tk.window tk.seq tk.slot f.val fun x => { x with st := 1, tok := tk }).consumeMsg f.val m.mseq) := by
  obtain ⟨hu, -, -⟩ := State.nextTok_eq_some hnext
  subst htk hu
  change execTokenReturnReceive f s = _
  unfold execTokenReturnReceive
  dsimp only
  rw [hnaks]
  dsimp only
  rw [if_neg (by simp [htakes]), hnext]
  dsimp only
  rw [if_neg (by simp [hgood]), if_neg (Bool.eq_false_iff.mp (State.based_of hbase)), State.takeToken_popped]

/-- A RETURN token resolves the slot that waits for it. -/
theorem tokenReturnReceive_token : ∃ t, exec (.tokenReturnReceive f) s = .next t ∧
    (∀ c i, c < 16 → (s.comb c).valid = true → (s.comb c).waiting tk.window tk.seq tk.slot f.val = some i →
      s.cutPassed (s.comb c) ((s.comb c).wins.getD i {}) = false →
      (((t.comb c).wins.getD i {}).slots.getD tk.slot {}).st = 1 ∧ (((t.comb c).wins.getD i {}).slots.getD tk.slot {}).tok = tk) ∧
    (t.flow f.val).cache = CodeCache.put (s.flow f.val).cache (s.flow f.val).cacheSize p.tok.seq tk.codes ∧
    (t.flow f.val).ackDue = true ∧ State.FlowsBut [f.val] s t ∧ State.KeepsBut [.flows, .combs] s t := by
  have hexec := exec_tokenReturnReceive_token hnaks htakes hnext hgood hbase htk
  obtain ⟨hothers, hkeeps⟩ := s.tokenTaken_keeps f.val p.tok.seq tk.codes
  have hresolved := (s.tokenTaken f.val p.tok.seq tk.codes).resolveSlots_keeps tk.window tk.seq tk.slot f.val fun x =>
    { x with st := 1, tok := tk }
  have hflow := (s.tokenTaken f.val p.tok.seq tk.codes).resolveSlots_flow tk.window tk.seq tk.slot f.val fun x =>
    { x with st := 1, tok := tk }
  refine ⟨_, hexec, fun c i hc hvalid hwait hcut => ?_, ?_, (State.consumeMsg_flow ..).2, fun g hg => ?_, ?_⟩
  · have hcomb : (s.tokenTaken f.val p.tok.seq tk.codes).comb c = s.comb c := by rw [hkeeps.comb_fun (by decide)]
    rw [← hcomb] at hvalid hwait hcut
    rw [← State.cutPassed_congr (hkeeps.net_fun (by decide)) (hkeeps.now_eq (by decide))] at hcut
    rw [(State.consumeMsg_units ..).2.1, State.slot_resolveSlots hc hvalid hwait hcut]
    exact ⟨rfl, rfl⟩
  · rw [FlowSt.get_besideAcks (State.consumeMsg_flow ..).1 FlowSt.cache (fun _ => rfl), hflow, State.tokenTaken_flow]
  · rw [State.consumeMsg_flowsBut _ _ g hg, hflow, hothers g hg]
  · simpa using (hkeeps.mono (by decide)).trans (hresolved.mono (by decide))

end Token

end Sys2Proof.Machine
end

section
/-! SUPPORT. RETURN_TOKEN_SEND (08 R209, R213): the token that a return packer sends. -/

namespace Sys2Proof.Machine

variable {s : State}

/-- The expanded tokens of binding b that still wait for return packer r, whose sums of the tag are spent. -/
def State.spendSums (s : State) (b r tag : Nat) (rest : List (Nat × Token)) : State :=
  (s.modBind b fun x => { x with inLayer := rest }).modRp r fun k => { k with sums := Tab.restrict k.sums fun a => a / 4096 != tag }

/-- The expanded ERROR tokens of binding b that still wait, return packer r's error sums of the tag being spent. -/
def State.spendErrs (s : State) (b r tag : Nat) (rest : List (Nat × Token)) : State :=
  (s.modBind b fun x => { x with errIn := rest }).modRp r fun k => { k with errs := Tab.restrict k.errs fun a => a / 4096 != tag }

section Return

variable {r : Fin 16} {k : PackSt} {x : BindSt} {n : NetSt} {st : Nat} {tk : Token} {rest : List (Nat × Token)}
  (hk : k = s.rp r.val) (hx : x = s.bind k.binding) (hn : n = s.net x.net) (hvalid : k.valid = true) (hbound : x.valid = true)
  (hrun : n.running = true) (hdone : s.emitDone x.net = true) (hquiet : s.ringQuiet (fnReturn r.val) = true)
  (hfree : ∀ y ∈ x.inLayer ++ x.errIn, s.srcFree y.2.flow = true)

include hk hx hn hvalid hbound hrun hdone hquiet hfree

omit hk hx hn in
/-- Nothing holds the packer back. -/
theorem returnTokenSend_due : (!k.valid || !x.valid || !n.running || !s.emitDone x.net || !s.ringQuiet (fnReturn r.val) ||
    ((x.inLayer.map Prod.snd ++ x.errIn.map Prod.snd).any fun t => !s.srcFree t.flow)) = false := by
  have hnone : ((x.inLayer.map Prod.snd ++ x.errIn.map Prod.snd).any fun t => !s.srcFree t.flow) = false := by
    rw [← List.map_append, List.any_map, List.any_eq_false]
    exact fun y hy => by simp [hfree y hy]
  simp [hvalid, hbound, hrun, hdone, hquiet, hnone]

/-- In a forward step the oldest token whose outputs are those of the step is returned. -/
theorem exec_returnTokenSend_forward (hforward : n.backward = false) (hin : x.inLayer = (st, tk) :: rest)
    (hdue : st + x.ld ≤ n.step) : ∃ sat nan, exec (.returnTokenSend r) s = .next ((((s.countDev Ctr.convSat (fnReturn r.val)
        sat).countDev Ctr.convNan (fnReturn r.val) nan).spendSums k.binding r.val ((st + x.ld) % 4) rest).sendToken
          (16 + r.val) tk.flow { (narrowToken k.zpm k.outl (k.values ((st + x.ld) % 4))).1 with
            kind := kindReturn, slot := tk.slot, expert := tk.expert, seq := tk.seq, window := tk.window } (tk.flow + 1) tk.mseq) := by
  have hgo := returnTokenSend_due hvalid hbound hrun hdone hquiet hfree
  subst hk hx hn
  refine ⟨?_, ?_, (?_ : execReturnTokenSend r s = _)⟩
  rotate_left 2
  · unfold execReturnTokenSend
    dsimp only
    rw [if_neg (Bool.eq_false_iff.mp hgo), if_neg (by simp [hforward]), hin]
    dsimp only
    rw [if_neg (by omega)]
    rfl

/-- In a backward step the input errors of the oldest expanded ERROR token leave as an ERROR token. -/
theorem exec_returnTokenSend_backward (hback : n.backward = true) (hin : x.errIn = (st, tk) :: rest)
    (hdue : st + x.ld ≤ n.step) : ∃ sat, exec (.returnTokenSend r) s = .next (((s.countDev Ctr.convSat (fnReturn r.val)
        sat).spendErrs k.binding r.val ((st + x.ld) % 4) rest).sendToken (16 + r.val) tk.flow
          { kind := kindError, n := k.n, slot := tk.slot, expert := tk.expert, seq := tk.seq, window := tk.window
            codes := (upTo k.n).map fun i => clampI (-32767) 32767 (Tab.get k.errs 0 ((st + x.ld) % 4 * 4096 + i))
            tscale := f32One } 0 0) := by
  have hgo := returnTokenSend_due hvalid hbound hrun hdone hquiet hfree
  subst hk hx hn
  refine ⟨?_, (?_ : execReturnTokenSend r s = _)⟩
  rotate_left 1
  · unfold execReturnTokenSend
    dsimp only
    rw [if_neg (Bool.eq_false_iff.mp hgo), if_pos hback, hin]
    dsimp only
    rw [if_neg (by omega), List.map_map]
    rfl

/-- A RETURN token acknowledges the dispatch token that it answers, and the mirror of its flow holds its codes. -/
theorem returnTokenSend_forward {tag : Nat} {body : Token} {base : Option (List Int)} {dl : Bool} (hforward : n.backward = false)
    (hin : x.inLayer = (st, tk) :: rest) (hdue : st + x.ld ≤ n.step) (htag : tag = (st + x.ld) % 4)
    (hbody : body = (narrowToken k.zpm k.outl (k.values tag)).1) (hbase : base = CodeCache.find (s.flow tk.flow).mirror tk.seq)
    (hdl : dl = body.asDelta base) : ∃ t, exec (.returnTokenSend r) s = .next t ∧ t.bind k.binding = { x with inLayer := rest } ∧
      (t.flow tk.flow).srcQ = [{ kind := 2, ackFlow := tk.flow + 1, ackSeq := tk.mseq, sub := 17 + r.val, prev := base
                                 body := ({ body with
                                  kind := kindReturn, slot := tk.slot, expert := tk.expert, seq := tk.seq
                                  window := tk.window, delta := dl } : Token).bytes (base.getD []) }] ∧
      (t.flow tk.flow).mirror = CodeCache.put (s.flow tk.flow).mirror (s.flow tk.flow).cacheSize tk.seq body.codes ∧
      State.FlowsBut [tk.flow] s t ∧ State.KeepsBut [.binds, .rpack, .flows, .ctr] s t := by
  obtain ⟨sat, nan, hexec⟩ := exec_returnTokenSend_forward hk hx hn hvalid hbound hrun hdone hquiet hfree hforward hin hdue
  have hempty : (s.flow tk.flow).srcQ = [] := by simpa [State.srcFree] using hfree (st, tk) (by simp [hin])
  rw [← htag, ← hbody] at hexec
  subst hbase hdl
  generalize hu : ((s.countDev Ctr.convSat (fnReturn r.val) sat).countDev Ctr.convNan (fnReturn r.val) nan).spendSums k.binding
    r.val tag rest = u at hexec
  have hflow : u.flow = s.flow := by simp [← hu, State.spendSums]
  have hsent := fun t : Token => State.sendToken_frame (s := u) (t := t) (sub := 16 + r.val) (f := tk.flow)
    (ackFlow := tk.flow + 1) (ackSeq := tk.mseq)
  refine ⟨_, hexec, ?_, ?_, ?_, ?_, ?_⟩
  · rw [(hsent _).2.bind_fun (by decide)]
    simp [← hu, State.spendSums, hx]
  · rw [State.sendToken_cached (.inr rfl), hflow]
    have hsub : 17 + r.val = 16 + r.val + 1 := by omega
    simp only [FlowSt.offered, FlowSt.mirrored, hempty, List.nil_append, Token.msg, hsub]
    rfl
  · rw [State.sendToken_cached (.inr rfl), hflow]
    rfl
  · exact fun g hg => ((hsent _).1 g hg).trans (congrFun hflow g)
  · exact State.KeepsBut.trans (by simp [← hu, State.spendSums]) ((hsent _).2.mono (by decide))

/-- The ERROR token of a backward step has the errors of the packer's input rows as its codes. -/
theorem returnTokenSend_backward {codes : List Int} (hback : n.backward = true) (hin : x.errIn = (st, tk) :: rest)
    (hdue : st + x.ld ≤ n.step)
    (hcodes : codes = (upTo k.n).map fun i => clampI (-32767) 32767 (Tab.get k.errs 0 ((st + x.ld) % 4 * 4096 + i))) :
    ∃ t, exec (.returnTokenSend r) s = .next t ∧ t.bind k.binding = { x with errIn := rest } ∧
      (t.flow tk.flow).srcQ.map (fun m => (m.kind, m.body, m.ackFlow)) =
        [(2, ({ kind := kindError, n := k.n, slot := tk.slot, expert := tk.expert, seq := tk.seq, window := tk.window
                codes := codes, tscale := f32One } : Token).bytes [], 0)] ∧
      State.FlowsBut [tk.flow] s t ∧ State.KeepsBut [.binds, .rpack, .flows, .ctr] s t := by
  obtain ⟨sat, hexec⟩ := exec_returnTokenSend_backward hk hx hn hvalid hbound hrun hdone hquiet hfree hback hin hdue
  have hempty : (s.flow tk.flow).srcQ = [] := by simpa [State.srcFree] using hfree (st, tk) (by simp [hin])
  rw [← hcodes] at hexec
  generalize hu : (s.countDev Ctr.convSat (fnReturn r.val) sat).spendErrs k.binding r.val ((st + x.ld) % 4) rest = u at hexec
  have hflow : u.flow = s.flow := by simp [← hu, State.spendErrs]
  have hsent := fun t : Token => State.sendToken_frame (s := u) (t := t) (sub := 16 + r.val) (f := tk.flow)
    (ackFlow := 0) (ackSeq := 0)
  refine ⟨_, hexec, ?_, ?_, ?_, ?_⟩
  · rw [(hsent _).2.bind_fun (by decide)]
    simp [← hu, State.spendErrs, hx]
  · rw [State.sendToken_plain (.inl rfl), hflow]
    simp only [FlowSt.offered, hempty, List.nil_append, Token.msg]
    rfl
  · exact fun g hg => ((hsent _).1 g hg).trans (congrFun hflow g)
  · exact State.KeepsBut.trans (by simp [← hu, State.spendErrs]) ((hsent _).2.mono (by decide))

end Return

end Sys2Proof.Machine
end

section
/-! SUPPORT. COMBINER_RESOLVE (08 R210 to R212): a window that is due is mixed, or waits. -/

namespace Sys2Proof.Machine

variable {s : State}

/-- The four counters of a mixed window: fallbacks, late slots, and conversions clamped. -/
def State.countMix (s : State) (m fallback late sat nan : Nat) : State :=
  (((s.countDev Ctr.tokenFallback m fallback).countDev Ctr.tokenReturnLate m late).countDev Ctr.convSat (fnCombiner m) sat).countDev
    Ctr.convNan (fnCombiner m) nan

theorem State.countMix_keeps (m fallback late sat nan : Nat) : (s.countMix m fallback late sat nan).comb = s.comb ∧
    (s.countMix m fallback late sat nan).expand = s.expand ∧ State.KeepsBut [.ctr] s (s.countMix m fallback late sat nan) := by
  simp [State.countMix]

/-- What is left of a combiner's window place i once it is mixed. -/
def CombSt.afterMix (c : CombSt) (n : NetSt) (i : Nat) (w : PendWin) (slots : List SlotSt) : CombSt :=
  if n.fwd = 0 then { c with wins := c.wins.eraseIdx i }
  else { c with wins := c.wins.set i { w with slots := slots, mixed := true, mixPos := n.pos } }

section Combiner

variable {c : Fin 16} {x : CombSt} {w : PendWin} {i : Nat} (hx : x = s.comb c.val) (hvalid : x.valid = true)
  (hrun : (s.net x.net).running = true) (hdue : s.dueWindow c.val = some i) (hw : w = x.wins.getD i {})

include hx hvalid hrun hdue hw

theorem exec_combinerResolve_due : exec (.combinerResolve c) s =
    .next (if w.slots.all (fun o => o.st != 0) || s.cutPassed x w then s.mixWindow c.val i else s) := by
  subst hx hw
  change execCombinerResolve c s = _
  unfold execCombinerResolve
  dsimp only
  rw [if_neg (by simp [hvalid, hrun]), hdue]

/-- A window whose slots are all resolved, or whose cutoff has passed, is mixed by its gates and queued for expansion. -/
theorem combinerResolve_mixed {slots : List SlotSt} {y : Word32 × List Narrow}
    (hslots : slots = x.gates (w.slots.map fun o => if o.st = 0 then { o with st := 2 } else o))
    (hy : y = narrowMix (mixOf slots (s.dp x.packer).n))
    (hready : (w.slots.all fun o => o.st != 0) = true ∨ s.cutPassed x w = true) :
    ∃ t, exec (.combinerResolve c) s = .next t ∧
      t.comb c.val = { x with
        wins := if (s.net x.net).fwd = 0 then x.wins.eraseIdx i
          else x.wins.set i { w with slots := slots, mixed := true, mixPos := (s.net x.net).pos } } ∧
      t.expand = s.expand ++ (tokenEvents x.elemMap
        { n := (s.dp x.packer).n, zpm := (s.dp x.packer).zpm, codes := y.2.map (·.q) } 2 true 0 0).map (fun e =>
          { fn := fnCombiner c.val, net := x.net, item := e, t := y.1, tOut := f32One }) ∧
      State.KeepsBut [.combs, .expand, .ctr] s t := by
  have hexec := exec_combinerResolve_due hx hvalid hrun hdue hw
  rw [if_pos (by simpa using hready)] at hexec
  obtain ⟨fallback, late, sat, nan, hmix⟩ : ∃ fallback late sat nan, s.mixWindow c.val i =
      ((s.countMix c.val fallback late sat nan).queueExpansion (fnCombiner c.val) x.net y.1 f32One (tokenEvents x.elemMap
        { n := (s.dp x.packer).n, zpm := (s.dp x.packer).zpm, codes := y.2.map (·.q) } 2 true 0 0)).modComb c.val
          fun d => d.afterMix (s.net x.net) i w slots := by
    subst hx hw hslots hy
    exact ⟨_, _, _, _, rfl⟩
  obtain ⟨hcomb, hexpand, hkeeps⟩ := s.countMix_keeps c.val fallback late sat nan
  rw [hmix] at hexec
  generalize s.countMix c.val fallback late sat nan = u at hexec hcomb hexpand hkeeps
  refine ⟨_, hexec, ?_, ?_, ?_⟩
  · rw [State.comb_modComb_self]
    rw [(State.queueExpansion_units ..).2.1, hcomb, ← hx, CombSt.afterMix]
    split <;> rfl
  · simp [State.queueExpansion, hexpand]
  · have hbesides : State.KeepsBut [.combs, .expand, .ctr] s u := hkeeps.mono (by decide)
    simpa using hbesides

theorem combinerResolve_waits (hopen : (w.slots.all fun o => o.st != 0) = false) (hcut : s.cutPassed x w = false) :
    exec (.combinerResolve c) s = .next s := by
  rw [exec_combinerResolve_due hx hvalid hrun hdue hw, if_neg (by simp [hopen, hcut])]

end Combiner

end Sys2Proof.Machine
end

section
/-! SUPPORT. TOKEN_ERROR_RECEIVE (08 R203, R213): an ERROR token is refused, held or expanded. -/

namespace Sys2Proof.Machine

variable {s : State}

/-- The binding that receives ERROR tokens from sources on a flow. -/
def State.errorBinding (s : State) (f : Nat) (tk : Token) : Option Nat :=
  s.bindings.find? fun b => (s.bind b).flows.contains f && (s.bind b).expert == tk.expert

/-- An ERROR token is expanded: its events are queued, each to be popped before the message is consumed. -/
theorem State.expandError_spec {fn k : Nat} {em : ElemMap} {tk : Token} {evs : List EvItem}
    (hevs : evs = tokenEvents em { tk with zpm := 0, outl := [] } 4 true (tk.flow + 1) tk.mseq) :
    (s.expandError fn k em tk).expand =
        s.expand ++ evs.map (fun e => { fn := fn, net := k, item := e, t := f32One, tOut := f32One }) ∧
      (evs ≠ [] → Tab.get ((s.expandError fn k em tk).flow tk.flow).unpopped 0 tk.mseq = evs.length) ∧
      (evs = [] → ((s.expandError fn k em tk).flow tk.flow).ackDue = true) ∧
      State.FlowsBut [tk.flow] s (s.expandError fn k em tk) ∧ State.KeepsBut [.flows, .expand] s (s.expandError fn k em tk) := by
  generalize hu : s.modFlow tk.flow (fun x => { x with unpopped := Tab.set x.unpopped 0 tk.mseq evs.length }) = u
  have hdef : s.expandError fn k em tk =
      (if evs.isEmpty then u.consumeMsg tk.flow tk.mseq else u).queueExpansion fn k f32One f32One evs := by rw [← hu, hevs]; rfl
  have hothers : State.FlowsBut [tk.flow] s u := fun g hg => by simp [← hu, List.mem_singleton.not.mp hg]
  have hexpand : u.expand = s.expand := by simp [← hu]
  have hkeeps : State.KeepsBut [.flows, .expand] s u := by simp [← hu]
  have hflow : Tab.get (u.flow tk.flow).unpopped 0 tk.mseq = evs.length := by simp [← hu, Tab.get_set]
  rw [hdef]
  by_cases hnone : evs = []
  · rw [if_pos (by simp [hnone])]
    refine ⟨by simp [State.queueExpansion, hexpand], fun h => absurd hnone h, fun _ => ?_, fun g hg => ?_, by simpa using hkeeps⟩
    · rw [(State.queueExpansion_units ..).2.2.2.2]
      exact (State.consumeMsg_flow ..).2
    · rw [(State.queueExpansion_units ..).2.2.2.2, State.consumeMsg_flowsBut _ _ g hg, hothers g hg]
  · rw [if_neg (by simp [hnone])]
    refine ⟨by simp [State.queueExpansion, hexpand], fun _ => ?_, fun h => absurd h hnone, fun g hg => ?_, by simpa using hkeeps⟩
    · rw [(State.queueExpansion_units ..).2.2.2.2, hflow]
    · rw [(State.queueExpansion_units ..).2.2.2.2, hothers g hg]

/-- An ERROR token of message m, taken from flow f's queue: refused, held or expanded. -/
def State.receiveError (s : State) (f : Nat) (m : Msg) (good : Bool) (t : Token) : State :=
  if !good || t.zpm != 0 then s.refuseMsg f m.mseq 5
  else match s.bindings.find? fun b => (s.bind b).flows.contains f && (s.bind b).expert == t.expert with
  | some b =>
    if t.n ≠ (s.bind b).n then s.refuseMsg f m.mseq 5
    else if !(s.net (s.bind b).net).running then s.refuseMsg f m.mseq 3
    else
    let s := { s with errTok := s.errTok ++ [t] }
    match s.homeNet with
    | some k => if (s.net k).backward then s.takeErrors k else s
    | none => s
  | none => match s.errorPacker f t with
    | some d =>
      if t.n ≠ (s.dp d).n then s.refuseMsg f m.mseq 5
      else if !(s.net (s.dp d).net).running then s.refuseMsg f m.mseq 3
      else s.expandError (fnDispatch d) (s.dp d).net (s.dp d).errMap t
    | none => s.refuseMsg f m.mseq 2

theorem exec_tokenErrorReceive {f : FlowId} {u : State} {m : Msg} {p : Packet} (hnext : s.nextTok f.val kindError = some (m, p, u))
    (htakes : s.takesIn = true) : exec (.tokenErrorReceive f) s =
      .next (u.receiveError f.val m p.good { p.tok with flow := f.val, mseq := m.mseq }) := by
  change execTokenErrorReceive f s = _
  unfold execTokenErrorReceive
  dsimp only
  rw [hnext]
  dsimp only
  rw [if_neg (by simp [htakes])]
  rfl

section Received

variable {f : Nat} {m : Msg} {good : Bool} {tk : Token}

/-- The codes with which an ERROR token is refused. -/
theorem State.receiveError_refused {code : Nat} (h : (good = false ∨ tk.zpm ≠ 0) ∧ code = 5 ∨
    good = true ∧ tk.zpm = 0 ∧ (s.errorBinding f tk = none ∧ s.errorPacker f tk = none ∧ code = 2 ∨
      (∃ b, s.errorBinding f tk = some b ∧ (tk.n ≠ (s.bind b).n ∧ code = 5 ∨
        tk.n = (s.bind b).n ∧ (s.net (s.bind b).net).running = false ∧ code = 3)) ∨
      ∃ d, s.errorBinding f tk = none ∧ s.errorPacker f tk = some d ∧ (tk.n ≠ (s.dp d).n ∧ code = 5 ∨
        tk.n = (s.dp d).n ∧ (s.net (s.dp d).net).running = false ∧ code = 3))) :
    s.receiveError f m good tk = s.refuseMsg f m.mseq code := by
  unfold State.receiveError
  unfold State.errorBinding at h
  rcases h with ⟨hbad, rfl⟩ | ⟨hgood, hzpm, h⟩
  · rw [if_pos (by simpa using hbad)]
  · rw [if_neg (by simp [hgood, hzpm])]
    rcases h with ⟨hb, hd, rfl⟩ | ⟨b, hb, ⟨hn, rfl⟩ | ⟨hn, hstop, rfl⟩⟩ | ⟨d, hb, hd, ⟨hn, rfl⟩ | ⟨hn, hstop, rfl⟩⟩
    · rw [hb, hd]
    · rw [hb]
      exact if_pos hn
    · rw [hb]
      simp [hn, hstop]
    · rw [hb, hd]
      exact if_pos hn
    · rw [hb, hd]
      simp [hn, hstop]

variable (hgood : good = true) (hzpm : tk.zpm = 0)

include hgood hzpm

/-- An ERROR token from a source waits for the paired backward step. -/
theorem State.receiveError_held {b : Nat} (hb : s.errorBinding f tk = some b) (hn : tk.n = (s.bind b).n)
    (hrun : (s.net (s.bind b).net).running = true) (hforward : ∀ k, s.homeNet = some k → (s.net k).backward = false) :
    s.receiveError f m good tk = { s with errTok := s.errTok ++ [tk] } := by
  have hhome : ({ s with errTok := s.errTok ++ [tk] } : State).homeNet = s.homeNet := rfl
  unfold State.receiveError
  unfold State.errorBinding at hb
  rw [if_neg (by simp [hgood, hzpm]), hb]
  dsimp only
  rw [if_neg (by simp [hn]), if_neg (by simp [hrun]), hhome]
  cases hk : s.homeNet with
  | none => rfl
  | some k => exact if_neg (Bool.eq_false_iff.mp (hforward k hk))

/-- An ERROR token from a home device is expanded to the dispatch layer. -/
theorem State.receiveError_expanded {d : Nat} (hb : s.errorBinding f tk = none) (hd : s.errorPacker f tk = some d)
    (hn : tk.n = (s.dp d).n) (hrun : (s.net (s.dp d).net).running = true) :
    s.receiveError f m good tk = s.expandError (fnDispatch d) (s.dp d).net (s.dp d).errMap tk := by
  unfold State.receiveError
  unfold State.errorBinding at hb
  rw [if_neg (by simp [hgood, hzpm]), hb]
  dsimp only
  rw [hd]
  dsimp only
  rw [if_neg (by simp [hn]), if_neg (by simp [hrun])]

end Received

section Error

variable {f : FlowId} {u : State} {m : Msg} {p : Packet} {tk : Token} {ob : Option Nat}
  (hnext : s.nextTok f.val kindError = some (m, p, u)) (htakes : s.takesIn = true)
  (htk : tk = { p.tok with flow := f.val, mseq := m.mseq }) (hob : ob = s.errorBinding f.val tk)

include hnext htakes htk hob

theorem tokenErrorReceive_refused {code : Nat} (h : (p.good = false ∨ tk.zpm ≠ 0) ∧ code = 5 ∨
    p.good = true ∧ tk.zpm = 0 ∧ (ob = none ∧ s.errorPacker f.val tk = none ∧ code = 2 ∨
      (∃ b, ob = some b ∧ (tk.n ≠ (s.bind b).n ∧ code = 5 ∨
        tk.n = (s.bind b).n ∧ (s.net (s.bind b).net).running = false ∧ code = 3)) ∨
      ∃ d, ob = none ∧ s.errorPacker f.val tk = some d ∧ (tk.n ≠ (s.dp d).n ∧ code = 5 ∨
        tk.n = (s.dp d).n ∧ (s.net (s.dp d).net).running = false ∧ code = 3))) :
    ∃ t, exec (.tokenErrorReceive f) s = .next t ∧ (t.flow f.val).refused = (s.flow f.val).refused ++ [(m.mseq, code)] ∧
      (t.flow f.val).ackDue = true ∧ State.FlowsBut [f.val] s t ∧ State.KeepsBut [.flows] s t := by
  obtain ⟨rfl, -, -⟩ := State.nextTok_eq_some hnext
  have hexec := exec_tokenErrorReceive hnext htakes
  rw [hob] at h
  have hrefused : (s.popTok f.val).receiveError f.val m p.good tk = (s.popTok f.val).refuseMsg f.val m.mseq code :=
    State.receiveError_refused h
  rw [← htk, hrefused] at hexec
  obtain ⟨hbeside, hdue⟩ := (s.popTok f.val).refuseMsg_flow f.val m.mseq code
  refine ⟨_, hexec, ?_, hdue, fun g hg => ?_, by simp⟩
  · rw [FlowSt.get_besideAcks hbeside FlowSt.refused (fun _ => rfl), State.popTok_flow]
    rfl
  · rw [State.refuseMsg_flowsBut _ _ _ g hg, State.popTok_flowsBut _ g hg]

variable (hgood : p.good = true) (hzpm : tk.zpm = 0)

include hgood hzpm

theorem tokenErrorReceive_held {b : Nat} (hb : ob = some b) (hn : tk.n = (s.bind b).n)
    (hrun : (s.net (s.bind b).net).running = true) (hforward : ∀ k, s.homeNet = some k → (s.net k).backward = false) :
    ∃ t, exec (.tokenErrorReceive f) s = .next t ∧ t.errTok = s.errTok ++ [tk] ∧
      (t.flow f.val).tokQ = (s.flow f.val).tokQ.tail ∧ State.FlowsBut [f.val] s t ∧ State.KeepsBut [.flows, .errTok] s t := by
  obtain ⟨rfl, -, -⟩ := State.nextTok_eq_some hnext
  have hexec := exec_tokenErrorReceive hnext htakes
  have hheld : (s.popTok f.val).receiveError f.val m p.good tk = { s.popTok f.val with errTok := s.errTok ++ [tk] } :=
    State.receiveError_held hgood hzpm (hob.symm.trans hb) hn hrun hforward
  rw [← htk, hheld] at hexec
  refine ⟨_, hexec, rfl, congrArg FlowSt.tokQ (s.popTok_flow f.val), s.popTok_flowsBut f.val, ?_⟩
  exact (State.keepsBut_withErrTok (by decide) _).mpr (by simp)

theorem tokenErrorReceive_expanded {d : Nat} {evs : List EvItem} (hb : ob = none) (hd : s.errorPacker f.val tk = some d)
    (hn : tk.n = (s.dp d).n) (hrun : (s.net (s.dp d).net).running = true)
    (hevs : evs = tokenEvents (s.dp d).errMap { tk with zpm := 0, outl := [] } 4 true (f.val + 1) m.mseq) :
    ∃ t, exec (.tokenErrorReceive f) s = .next t ∧
      t.expand = s.expand ++ evs.map (fun e =>
        { fn := fnDispatch d, net := (s.dp d).net, item := e, t := f32One, tOut := f32One }) ∧
      (evs ≠ [] → Tab.get (t.flow f.val).unpopped 0 m.mseq = evs.length) ∧ (evs = [] → (t.flow f.val).ackDue = true) ∧
      State.FlowsBut [f.val] s t ∧ State.KeepsBut [.flows, .expand] s t := by
  obtain ⟨rfl, -, -⟩ := State.nextTok_eq_some hnext
  have hexec := exec_tokenErrorReceive hnext htakes
  have hexpanded : (s.popTok f.val).receiveError f.val m p.good tk =
      (s.popTok f.val).expandError (fnDispatch d) (s.dp d).net (s.dp d).errMap tk :=
    State.receiveError_expanded hgood hzpm (hob.symm.trans hb) hd hn hrun
  rw [← htk, hexpanded] at hexec
  have hflow : tk.flow = f.val := by rw [htk]
  have hmseq : tk.mseq = m.mseq := by rw [htk]
  obtain ⟨hexpand, hunpopped, hdue, hothers, hkeeps⟩ := State.expandError_spec (s := s.popTok f.val) (fn := fnDispatch d)
    (k := (s.dp d).net) (em := (s.dp d).errMap) (tk := tk) (evs := evs) (by rw [hevs, hflow, hmseq])
  rw [hflow] at hunpopped hdue hothers
  rw [hmseq] at hunpopped
  refine ⟨_, hexec, hexpand, hunpopped, hdue, fun g hg => ?_, ?_⟩
  · exact (hothers g hg).trans (s.popTok_flowsBut f.val g hg)
  · exact State.KeepsBut.trans (by simp) hkeeps

end Error

end Sys2Proof.Machine
end

section
/-! PROOF. O48: tokens return, are refused and mixed; ERROR tokens are held or expanded. -/

namespace Sys2Proof.Machine

/-- Settles O48: per instruction, the packet sent or received, by what decides between its cases. -/
theorem tokensReturn : Obligations.TokensReturn := by
  unfold Obligations.TokensReturn
  refine ⟨?returnSend, ?returnReceive, ?resolve, ?error⟩
  case returnSend =>
    intro r s k x n hk hx hn hvalid hbound hrun hdone hquiet hfree
    refine ⟨fun st tk rest tag body base dl hforward hin hdue htag hbody hbase hdl => ?_,
      fun st tk rest codes hback hin hdue hcodes => ?_⟩
    · exact returnTokenSend_forward hk hx hn hvalid hbound hrun hdone hquiet hfree hforward hin hdue htag hbody hbase hdl
    · exact returnTokenSend_backward hk hx hn hvalid hbound hrun hdone hquiet hfree hback hin hdue hcodes
  case returnReceive =>
    intro f s x hx
    refine ⟨fun r rest q hnaks hq hkind hsub => tokenReturnReceive_refusal hx hnaks hq hkind hsub, ?_⟩
    intro u m p tk hnaks htakes hnext hgood hbase htk
    subst hx
    exact tokenReturnReceive_token hnaks htakes hnext hgood hbase htk
  case resolve =>
    intro c s x w i slots y hx hvalid hrun hdue hw hslots hy
    exact ⟨combinerResolve_mixed hx hvalid hrun hdue hw hslots hy, combinerResolve_waits hx hvalid hrun hdue hw⟩
  case error =>
    intro f s u m p tk ob hnext htakes htk hob
    refine ⟨fun code => tokenErrorReceive_refused hnext htakes htk hob, fun hgood hzpm => ⟨?_, ?_⟩⟩
    · exact fun b => tokenErrorReceive_held hnext htakes htk hob hgood hzpm
    · exact fun d evs => tokenErrorReceive_expanded hnext htakes htk hob hgood hzpm

end Sys2Proof.Machine
end

section
/-! SUPPORT. PACKER_EVENT_ACCEPT (08 R190, R191, R194, R213): the oldest event for a token function at a ring port. -/

namespace Sys2Proof.Machine

variable {s : State}

theorem State.ctrAt_countSec_self {n id inc : Nat} (h : inc ≠ 0) :
    (s.countSec n id noSub inc).ctrAt Scope.sector n id noSub 0 = satCtr (s.ctrAt Scope.sector n id noSub 0 + inc) := by
  simp [State.countSec, State.count, State.ctrAdd, h, State.ctrAt_ctrPut]

/-- The item that a ring function takes is one for it, and leaves the ring port. -/
theorem State.takeRing_eq_some {n fn src : Nat} {want : Nat → Bool} {e : EvItem} {scale : Word32} {u : State}
    (h : s.takeRing n want = some (fn, src, e, scale, u)) :
    want fn = true ∧ u = s.modSector n fun q => { q with toRing := q.toRing.erase (.ring fn src e scale) } := by
  unfold State.takeRing at h
  dsimp only at h
  split at h
  · next fn' src' e' scale' hfind =>
    cases h
    exact ⟨by simpa using List.find?_some hfind, rfl⟩
  · cases h

/-- One more term in a packer's sums for an element and tag, with the scale of the elements. -/
def PackSt.addSum (k : PackSt) (e : EvItem) (scale : Word32) : PackSt :=
  { k with sums := addSumAt k.sums e.tag (evRow e.ev) (evInt e.ev), scale := scale }

/-- One more winner of a router, with the scale of its logits. -/
def PackSt.addWinner (k : PackSt) (e : EvItem) (scale : Word32) : PackSt :=
  { k with winners := k.winners ++ [(e.tag, evRow e.ev, evInt e.ev)], rScale := scale }

/-- One more term in a packer's error sums. -/
def PackSt.addErr (k : PackSt) (e : EvItem) : PackSt := { k with errs := addSumAt k.errs e.tag (evRow e.ev) (evInt e.ev) }

/-- One more term in a combiner's error sums. -/
def CombSt.addErr (k : CombSt) (e : EvItem) : CombSt := { k with errs := addSumAt k.errs e.tag (evRow e.ev) (evInt e.ev) }

/-- An event that token function fn takes: into its packer's or combiner's sums or winners. -/
def State.tokenEvent (s : State) (n fn : Nat) (e : EvItem) (scale : Word32) : State :=
  if fn < 0x120 then
    if evType e.ev ≠ 2 then s.ringIgnored n fn
    else if fn % 2 = 0 then s.modDp ((fn - 0x100) / 2) (·.addSum e scale)
    else s.modDp ((fn - 0x100) / 2) (·.addWinner e scale)
  else if fn < 0x130 then
    if evType e.ev = 2 then s.modRp (fn - 0x120) (·.addSum e scale)
    else if evType e.ev = 4 then s.modRp (fn - 0x120) (·.addErr e)
    else s.ringIgnored n fn
  else if evType e.ev = 4 then s.modComb (fn - 0x130) (·.addErr e)
  else s.ringIgnored n fn

variable {n : SectorId} {u : State} {fn src : Nat} {e : EvItem} {sc : Word32} {ok : Bool}

theorem exec_packerEventAccept (htake : s.takeRing n.val (fun f => 0x100 ≤ f && f < 0x140) = some (fn, src, e, sc, u))
    (hok : ok = s.ringBound fn src) :
    exec (.packerEventAccept n) s = .next (if ok then u.tokenEvent n.val fn e sc else u.ringIgnored n.val fn) := by
  obtain ⟨-, hu⟩ := State.takeRing_eq_some htake
  have hbound : u.ringBound fn src = ok := by
    rw [hok, hu]
    rfl
  change execPackerEventAccept n s = _
  unfold execPackerEventAccept
  rw [htake]
  dsimp only
  rw [hbound]
  cases ok <;> rfl

/-- An event that no token function takes is counted: by function where the function is bound, else at the port. -/
theorem State.ringIgnored_counted {n fn : Nat} (hlo : 0x100 ≤ fn) (hhi : fn < 0x140) :
    ((s.rfn fn).net ≠ 0 → (s.ringIgnored n fn).ctrAt Scope.device 0 Ctr.tokenEventIgnored fn 0 =
      satCtr (s.ctrAt Scope.device 0 Ctr.tokenEventIgnored fn 0 + 1)) ∧
    ((s.rfn fn).net = 0 → (s.ringIgnored n fn).ctrAt Scope.sector n Ctr.ringEventIgnored noSub 0 =
      satCtr (s.ctrAt Scope.sector n Ctr.ringEventIgnored noSub 0 + 1)) ∧ State.KeepsBut [.ctr] s (s.ringIgnored n fn) := by
  unfold State.ringIgnored
  by_cases hnet : (s.rfn fn).net = 0
  · rw [if_neg (by simp [hnet])]
    exact ⟨fun h => absurd hnet h, fun _ => State.ctrAt_countSec_self one_ne_zero, by simp [State.countSec, State.count]⟩
  · rw [if_pos (by simp [hlo, hhi, hnet])]
    exact ⟨fun _ => State.ctrAt_countDev_self _ one_ne_zero, fun h => absurd h hnet, by simp⟩

theorem State.tokenEvent_sectors {n fn : Nat} {e : EvItem} {scale : Word32} (h : (s.ringIgnored n fn).sectors = s.sectors) :
    (s.tokenEvent n fn e scale).sectors = s.sectors := by
  unfold State.tokenEvent
  split
  · split
    · exact h
    · split <;> simp
  · split
    · split
      · simp
      · split
        · simp
        · exact h
    · split
      · simp
      · exact h

/-- An event of a type that its function does not take. -/
theorem State.tokenEvent_ignored {n fn : Nat} {e : EvItem} {scale : Word32}
    (h : evType e.ev ≠ 2 ∧ evType e.ev ≠ 4 ∨ fn < 0x120 ∧ evType e.ev ≠ 2 ∨ 0x130 ≤ fn ∧ evType e.ev ≠ 4) :
    s.tokenEvent n fn e scale = s.ringIgnored n fn := by
  unfold State.tokenEvent
  by_cases hdispatch : fn < 0x120
  · rw [if_pos hdispatch, if_pos (by omega)]
  · rw [if_neg hdispatch]
    by_cases hreturn : fn < 0x130
    · rw [if_pos hreturn, if_neg (by omega), if_neg (by omega)]
    · rw [if_neg hreturn, if_neg (by omega)]

/-- The oldest event for a token function is taken by its packer or combiner, or counted as ignored. -/
theorem packerEventAccept {i : Nat} (htake : s.takeRing n.val (fun f => 0x100 ≤ f && f < 0x140) = some (fn, src, e, sc, u))
    (hi : i = e.tag * 4096 + evRow e.ev) (hok : ok = s.ringBound fn src) :
    ∃ t, exec (.packerEventAccept n) s = .next t ∧ t.sectors = u.sectors ∧
      (ok = true → evType e.ev = 2 → fn < 0x120 → fn % 2 = 0 → ∀ d, d = (fn - 0x100) / 2 →
        t.dp d = { s.dp d with sums := Tab.set (s.dp d).sums 0 i (Tab.get (s.dp d).sums 0 i + evInt e.ev), scale := sc } ∧
        State.KeepsBut [.sectors, .dpack] s t) ∧
      (ok = true → evType e.ev = 2 → fn < 0x120 → fn % 2 = 1 → ∀ d, d = (fn - 0x100) / 2 →
        t.dp d = { s.dp d with winners := (s.dp d).winners ++ [(e.tag, evRow e.ev, evInt e.ev)], rScale := sc } ∧
        State.KeepsBut [.sectors, .dpack] s t) ∧
      (ok = true → evType e.ev = 2 → 0x120 ≤ fn → fn < 0x130 → ∀ d, d = fn - 0x120 →
        t.rp d = { s.rp d with sums := Tab.set (s.rp d).sums 0 i (Tab.get (s.rp d).sums 0 i + evInt e.ev), scale := sc } ∧
        State.KeepsBut [.sectors, .rpack] s t) ∧
      (ok = true → evType e.ev = 4 → 0x120 ≤ fn → fn < 0x130 → ∀ d, d = fn - 0x120 →
        t.rp d = { s.rp d with errs := Tab.set (s.rp d).errs 0 i (Tab.get (s.rp d).errs 0 i + evInt e.ev) } ∧
        State.KeepsBut [.sectors, .rpack] s t) ∧
      (ok = true → evType e.ev = 4 → 0x130 ≤ fn → ∀ d, d = fn - 0x130 →
        t.comb d = { s.comb d with errs := Tab.set (s.comb d).errs 0 i (Tab.get (s.comb d).errs 0 i + evInt e.ev) } ∧
        State.KeepsBut [.sectors, .combs] s t) ∧
      (ok = false ∨ evType e.ev ≠ 2 ∧ evType e.ev ≠ 4 ∨ fn < 0x120 ∧ evType e.ev ≠ 2 ∨ 0x130 ≤ fn ∧ evType e.ev ≠ 4 →
        ((s.rfn fn).net ≠ 0 → t.ctrAt Scope.device 0 Ctr.tokenEventIgnored fn 0 =
          satCtr (s.ctrAt Scope.device 0 Ctr.tokenEventIgnored fn 0 + 1)) ∧
        ((s.rfn fn).net = 0 → t.ctrAt Scope.sector n.val Ctr.ringEventIgnored noSub 0 =
          satCtr (s.ctrAt Scope.sector n.val Ctr.ringEventIgnored noSub 0 + 1)) ∧ State.KeepsBut [.sectors, .ctr] s t) := by
  obtain ⟨hwant, hu⟩ := State.takeRing_eq_some htake
  simp only [Bool.and_eq_true, decide_eq_true_eq] at hwant
  obtain ⟨hlo, hhi⟩ := hwant
  have hexec := exec_packerEventAccept htake hok
  have hkeeps : State.KeepsBut [.sectors] s u := by rw [hu]; simp
  have hctr : u.ctrAt = s.ctrAt := by rw [hu]; rfl
  have hrfn : u.rfn = s.rfn := by rw [hu]; rfl
  have hdp : u.dp = s.dp := by rw [hu]; rfl
  have hrp : u.rp = s.rp := by rw [hu]; rfl
  have hcomb : u.comb = s.comb := by rw [hu]; rfl
  clear hu htake
  obtain ⟨hdev, hsec, hcount⟩ := u.ringIgnored_counted (n := n.val) hlo hhi
  rw [hrfn, hctr] at hdev hsec
  have hignored : State.KeepsBut [.sectors, .ctr] s (u.ringIgnored n.val fn) :=
    (hkeeps.mono (by decide)).trans (hcount.mono (by decide))
  subst hi
  refine ⟨_, hexec, ?_, fun htaken hty hfn heven d hd => ?_, fun htaken hty hfn hodd d hd => ?_, fun htaken hty hge hfn d hd => ?_,
    fun htaken hty hge hfn d hd => ?_, fun htaken hty hge d hd => ?_, fun hnot => ?_⟩
  · cases ok
    · exact hcount.sectors_eq (by decide)
    · exact State.tokenEvent_sectors (hcount.sectors_eq (by decide))
  · have ht : u.tokenEvent n.val fn e sc = u.modDp d (·.addSum e sc) := by simp [State.tokenEvent, hfn, hty, heven, hd]
    rw [htaken, if_pos rfl, ht]
    exact ⟨by simp [hdp, PackSt.addSum, addSumAt], by simpa using hkeeps.mono (l' := [.sectors, .dpack]) (by decide)⟩
  · have ht : u.tokenEvent n.val fn e sc = u.modDp d (·.addWinner e sc) := by simp [State.tokenEvent, hfn, hty, hodd, hd]
    rw [htaken, if_pos rfl, ht]
    exact ⟨by simp [hdp, PackSt.addWinner], by simpa using hkeeps.mono (l' := [.sectors, .dpack]) (by decide)⟩
  · have ht : u.tokenEvent n.val fn e sc = u.modRp d (·.addSum e sc) := by simp [State.tokenEvent, hfn, hty, Nat.not_lt.mpr hge, hd]
    rw [htaken, if_pos rfl, ht]
    exact ⟨by simp [hrp, PackSt.addSum, addSumAt], by simpa using hkeeps.mono (l' := [.sectors, .rpack]) (by decide)⟩
  · have ht : u.tokenEvent n.val fn e sc = u.modRp d (·.addErr e) := by simp [State.tokenEvent, hfn, hty, Nat.not_lt.mpr hge, hd]
    rw [htaken, if_pos rfl, ht]
    exact ⟨by simp [hrp, PackSt.addErr, addSumAt], by simpa using hkeeps.mono (l' := [.sectors, .rpack]) (by decide)⟩
  · have hlt : ¬ fn < 0x120 := by omega
    have ht : u.tokenEvent n.val fn e sc = u.modComb d (·.addErr e) := by
      simp [State.tokenEvent, hlt, hty, Nat.not_lt.mpr hge, hd]
    rw [htaken, if_pos rfl, ht]
    exact ⟨by simp [hcomb, CombSt.addErr, addSumAt], by simpa using hkeeps.mono (l' := [.sectors, .combs]) (by decide)⟩
  · have ht : (if ok then u.tokenEvent n.val fn e sc else u.ringIgnored n.val fn) = u.ringIgnored n.val fn := by
      rcases hnot with hno | hnot
      · simp [hno]
      · rw [State.tokenEvent_ignored hnot, ite_self]
    rw [ht]
    exact ⟨hdev, hsec, hignored⟩

end Sys2Proof.Machine
end

section
/-! SUPPORT. TOKEN_DISPATCH_RECEIVE (08 R200 to R204, R215): a DISPATCH token waits, is refused or is held; and what no token
instruction takes while the compute partition takes nothing in. -/

namespace Sys2Proof.Machine

variable {s : State}

/-! ### Nothing is taken -/

theorem exec_tokenReceives_held {f : FlowId} (h : s.takesIn = false) :
    exec (.tokenDispatchReceive f) s = .next s ∧ exec (.tokenCloseReceive f) s = .next s ∧
      exec (.tokenErrorReceive f) s = .next s ∧ ((s.flow f.val).naks = [] → exec (.tokenReturnReceive f) s = .next s) := by
  refine ⟨?_, ?_, ?_, fun hnaks => ?_⟩
  · change execTokenDispatchReceive f s = _
    unfold execTokenDispatchReceive
    dsimp only
    cases s.nextTok f.val kindDispatch with
    | none => rfl
    | some r => simp [h]
  · change execTokenCloseReceive f s = _
    unfold execTokenCloseReceive
    dsimp only
    cases s.nextTok f.val kindClose with
    | none => rfl
    | some r => simp [h]
  · change execTokenErrorReceive f s = _
    unfold execTokenErrorReceive
    dsimp only
    cases s.nextTok f.val kindError with
    | none => rfl
    | some r => simp [h]
  · change execTokenReturnReceive f s = _
    unfold execTokenReturnReceive
    dsimp only
    rw [hnaks]
    simp [h]

/-! ### The first window seen -/

/-- A binding without the time from which T_c runs. -/
def BindSt.besideRef (x : BindSt) : BindSt := { x with tRef := 0 }

/-- The time from which T_c runs is now, at every binding. -/
def State.startRefs (s : State) : State := s.bindings.foldl (fun u b => u.modBind b fun x => { x with tRef := u.now }) s

theorem State.startRefs_bind (b : Nat) : (s.startRefs.bind b).besideRef = (s.bind b).besideRef :=
  foldl_keeps (fun u => (u.bind b).besideRef) (fun u d => by by_cases hbd : b = d <;> simp [hbd, BindSt.besideRef]) _ s

theorem State.startRefs_keeps : State.KeepsBut [.binds] s s.startRefs := .foldl (fun u b => by simp) _ _

/-- The window seen is the one to be decided first, unless one was seen before; a binding changes only its time. -/
theorem State.seeWindow_spec (w : Nat) : (s.seeWindow w).tok = { s.tok with window := some (s.tok.window.getD w) } ∧
    (∀ b, ((s.seeWindow w).bind b).besideRef = (s.bind b).besideRef) ∧ State.KeepsBut [.binds, .tok] s (s.seeWindow w) := by
  unfold State.seeWindow
  cases hw : s.tok.window with
  | some d =>
    rw [if_pos (by simp)]
    have hsame : some ((some d).getD w) = s.tok.window := hw.symm
    exact ⟨by rw [hsame], fun _ => rfl, .refl⟩
  | none =>
    rw [if_neg (by simp)]
    refine ⟨?_, State.startRefs_bind, (State.keepsBut_withTok (by decide) _).mpr (State.startRefs_keeps.mono (by decide))⟩
    exact congrArg (fun k : TokSt => { k with window := some w }) ((State.startRefs_keeps (s := s)).tok_eq (by decide))

/-- A field of a binding that the time from which T_c runs does not reach. -/
theorem BindSt.get_besideRef {α : Type} {x y : BindSt} (h : x.besideRef = y.besideRef) (f : BindSt → α)
    (hf : ∀ z : BindSt, f z.besideRef = f z) : f x = f y := by rw [← hf, h, hf]

/-- Window w was decided before. -/
def State.lateWindow (s : State) (w : Nat) : Bool := s.tok.window.any fun d => !seqLe d w

theorem State.lateWindow_eq_true {w : Nat} (h : ∃ d, s.tok.window = some d ∧ seqLe d w = false) : s.lateWindow w = true := by
  obtain ⟨d, hd, hlate⟩ := h
  rw [State.lateWindow, hd, Option.any_some, hlate, Bool.not_false]

theorem State.lateWindow_eq_false {w : Nat} (h : ∀ d, s.tok.window = some d → seqLe d w = true) : s.lateWindow w = false := by
  rw [State.lateWindow]
  cases hd : s.tok.window with
  | none => rfl
  | some d => rw [Option.any_some, h d hd, Bool.not_true]

/-- No base of the body's length is held. -/
theorem all_length_ne {o : Option (List Int)} {n : Nat} (h : ∀ l, o = some l → l.length ≠ n) :
    (o.all fun c => c.length != n) = true := by
  cases o with
  | none => rfl
  | some l => simpa using h l rfl

theorem all_length_eq {o : Option (List Int)} {n : Nat} (h : ∃ l, o = some l ∧ l.length = n) :
    (o.all fun c => c.length != n) = false := by
  obtain ⟨l, rfl, hl⟩ := h
  simpa using hl

/-! ### DISPATCH tokens -/

/-- A DISPATCH token of message m, taken from flow f's queue: refused, or held by its expert's binding. -/
def State.receiveDispatch (s : State) (f : Nat) (m : Msg) (p : Packet) : State :=
  match s.dispatchRefusal f p with
  | some code => s.refuseMsg f m.mseq code
  | none =>
    let r := s.takeToken f m p
    match r.2.bindingOf p.tok.expert with
    | none => r.2
    | some b => (r.2.modBind b fun x => { x with held := x.held ++ [r.1] }).seeWindow p.tok.window

section Dispatch

variable {f : FlowId} {u : State} {m : Msg} {p : Packet} (hnext : s.nextTok f.val kindDispatch = some (m, p, u))

include hnext

theorem exec_tokenDispatchReceive_full (hroom : s.tokenRoom p.tok = false) : exec (.tokenDispatchReceive f) s = .next s := by
  change execTokenDispatchReceive f s = _
  unfold execTokenDispatchReceive
  dsimp only
  rw [hnext]
  exact congrArg Host.Outcome.next (if_pos (by simp [hroom]))

theorem exec_tokenDispatchReceive (hroom : s.tokenRoom p.tok = true) (htakes : s.takesIn = true) :
    exec (.tokenDispatchReceive f) s = .next (u.receiveDispatch f.val m p) := by
  change execTokenDispatchReceive f s = _
  unfold execTokenDispatchReceive
  dsimp only
  rw [hnext]
  exact congrArg Host.Outcome.next (if_neg (by simp [hroom, htakes]))

end Dispatch

theorem State.popTok_dispatchRefusal (f : Nat) (p : Packet) : (s.popTok f).dispatchRefusal f p = s.dispatchRefusal f p := by
  simp [State.dispatchRefusal, State.popTok_flow]

/-- The rules of R203 for a packet whose expert a binding holds. -/
theorem State.dispatchRefusal_bound {f b : Nat} {p : Packet} (hgood : p.good = true) (hb : s.bindingOf p.tok.expert = some b) :
    s.dispatchRefusal f p =
      if p.tok.n ≠ (s.bind b).n || p.tok.zpm ≠ (s.bind b).zpm then some 5
      else if !(s.net (s.bind b).net).running || !(s.bind b).flows.contains f then some 3
      else if s.lateWindow p.tok.window then some 3
      else if p.tok.delta && (CodeCache.find (s.flow f).cache p.tok.seq).all (fun c => c.length != p.tok.n) then some 4
      else none := by
  unfold State.dispatchRefusal
  dsimp only
  rw [if_neg (by simp [hgood]), hb]
  rfl

/-- The codes with which R203 refuses a DISPATCH token. -/
theorem State.dispatchRefusal_eq_some {f code : Nat} {p : Packet} {ob : Option Nat} (hob : ob = s.bindingOf p.tok.expert)
    (h : p.good = false ∧ code = 5 ∨ p.good = true ∧ ob = none ∧ code = 2 ∨
      ∃ b, p.good = true ∧ ob = some b ∧ ((p.tok.n ≠ (s.bind b).n ∨ p.tok.zpm ≠ (s.bind b).zpm) ∧ code = 5 ∨
        p.tok.n = (s.bind b).n ∧ p.tok.zpm = (s.bind b).zpm ∧
          (((s.net (s.bind b).net).running = false ∨ (s.bind b).flows.contains f = false ∨ s.lateWindow p.tok.window = true) ∧
              code = 3 ∨
            (s.net (s.bind b).net).running = true ∧ (s.bind b).flows.contains f = true ∧ s.lateWindow p.tok.window = false ∧
              p.tok.delta = true ∧ (∀ l, CodeCache.find (s.flow f).cache p.tok.seq = some l → l.length ≠ p.tok.n) ∧ code = 4))) :
    s.dispatchRefusal f p = some code := by
  subst hob
  rcases h with ⟨hbad, rfl⟩ | ⟨hgood, hb, rfl⟩ | ⟨b, hgood, hb, h⟩
  · unfold State.dispatchRefusal
    dsimp only
    rw [if_pos (by simp [hbad])]
  · unfold State.dispatchRefusal
    dsimp only
    rw [if_neg (by simp [hgood]), hb]
  · rw [State.dispatchRefusal_bound hgood hb]
    rcases h with ⟨hform, rfl⟩ | ⟨hn, hzpm, ⟨hno, rfl⟩ | ⟨hrun, hflow, hnew, hdelta, hbase, rfl⟩⟩
    · rw [if_pos (by simpa using hform)]
    · rw [if_neg (by simp [hn, hzpm])]
      by_cases hheld : (!(s.net (s.bind b).net).running || !(s.bind b).flows.contains f) = true
      · rw [if_pos hheld]
      · rw [if_neg hheld]
        rw [Bool.or_eq_true, Bool.not_eq_true', Bool.not_eq_true', not_or] at hheld
        obtain ⟨hrun, hflow⟩ := hheld
        rw [if_pos ((hno.resolve_left hrun).resolve_left hflow)]
    · rw [if_neg (by simp [hn, hzpm]), if_neg (by simp only [hrun, hflow]; decide), if_neg (by simp [hnew]),
        if_pos (Bool.and_eq_true_iff.mpr ⟨hdelta, all_length_ne hbase⟩)]

/-- No rule of R203 refuses the token. -/
theorem State.dispatchRefusal_eq_none {f b : Nat} {p : Packet} (hb : s.bindingOf p.tok.expert = some b) (hgood : p.good = true)
    (hn : p.tok.n = (s.bind b).n) (hzpm : p.tok.zpm = (s.bind b).zpm) (hrun : (s.net (s.bind b).net).running = true)
    (hflow : (s.bind b).flows.contains f = true) (hnew : s.lateWindow p.tok.window = false)
    (hbase : p.tok.delta = true → ∃ l, CodeCache.find (s.flow f).cache p.tok.seq = some l ∧ l.length = p.tok.n) :
    s.dispatchRefusal f p = none := by
  have hbased := Bool.and_eq_false_imp.mpr fun hdelta => all_length_eq (hbase hdelta)
  rw [State.dispatchRefusal_bound hgood hb, if_neg (by simp [hn, hzpm]), if_neg (by simp only [hrun, hflow]; decide),
    if_neg (by simp [hnew]), hbased, if_neg Bool.false_ne_true]

section Dispatch

variable {f : FlowId} {u : State} {m : Msg} {p : Packet} {x : FlowSt} {ob : Option Nat}
  (hnext : s.nextTok f.val kindDispatch = some (m, p, u)) (hx : x = s.flow f.val) (hob : ob = s.bindingOf p.tok.expert)
  (htakes : s.takesIn = true) (hroom : s.tokenRoom p.tok = true)

include hnext hx hob htakes hroom

theorem tokenDispatchReceive_refused {code : Nat} (h : p.good = false ∧ code = 5 ∨ p.good = true ∧ ob = none ∧ code = 2 ∨
    ∃ b, p.good = true ∧ ob = some b ∧ ((p.tok.n ≠ (s.bind b).n ∨ p.tok.zpm ≠ (s.bind b).zpm) ∧ code = 5 ∨
      p.tok.n = (s.bind b).n ∧ p.tok.zpm = (s.bind b).zpm ∧
        (((s.net (s.bind b).net).running = false ∨ (s.bind b).flows.contains f.val = false ∨
            ∃ w, s.tok.window = some w ∧ seqLe w p.tok.window = false) ∧ code = 3 ∨
          (s.net (s.bind b).net).running = true ∧ (s.bind b).flows.contains f.val = true ∧
            (∀ w, s.tok.window = some w → seqLe w p.tok.window = true) ∧ p.tok.delta = true ∧
            (∀ l, CodeCache.find x.cache p.tok.seq = some l → l.length ≠ p.tok.n) ∧ code = 4))) :
    ∃ t, exec (.tokenDispatchReceive f) s = .next t ∧ (t.flow f.val).refused = x.refused ++ [(m.mseq, code)] ∧
      (t.flow f.val).tokQ = x.tokQ.tail ∧ (t.flow f.val).ackDue = true ∧ State.FlowsBut [f.val] s t ∧
      State.KeepsBut [.flows] s t := by
  obtain ⟨rfl, -, -⟩ := State.nextTok_eq_some hnext
  subst hx
  have hcode : s.dispatchRefusal f.val p = some code := by
    refine State.dispatchRefusal_eq_some hob (h.imp_right (Or.imp_right ?_))
    rintro ⟨b, hgood, hb, hform | ⟨hn, hzpm, ⟨hno, hcode⟩ | ⟨hrun, hflow, hnew, hrest⟩⟩⟩
    · exact ⟨b, hgood, hb, .inl hform⟩
    · exact ⟨b, hgood, hb, .inr ⟨hn, hzpm, .inl ⟨hno.imp_right (Or.imp_right State.lateWindow_eq_true), hcode⟩⟩⟩
    · exact ⟨b, hgood, hb, .inr ⟨hn, hzpm, .inr ⟨hrun, hflow, State.lateWindow_eq_false hnew, hrest⟩⟩⟩
  have hexec := exec_tokenDispatchReceive hnext hroom htakes
  have hrefused : (s.popTok f.val).receiveDispatch f.val m p = (s.popTok f.val).refuseMsg f.val m.mseq code := by
    rw [State.receiveDispatch, State.popTok_dispatchRefusal, hcode]
  rw [hrefused] at hexec
  obtain ⟨hbeside, hdue⟩ := (s.popTok f.val).refuseMsg_flow f.val m.mseq code
  refine ⟨_, hexec, ?_, ?_, hdue, fun g hg => ?_, by simp⟩
  · rw [FlowSt.get_besideAcks hbeside FlowSt.refused (fun _ => rfl), State.popTok_flow]
    rfl
  · rw [FlowSt.get_besideAcks hbeside FlowSt.tokQ (fun _ => rfl), State.popTok_flow]
    rfl
  · rw [State.refuseMsg_flowsBut _ _ _ g hg, State.popTok_flowsBut _ g hg]

theorem tokenDispatchReceive_held {b : Nat} {codes : List Int} (hgood : p.good = true) (hb : ob = some b)
    (hn : p.tok.n = (s.bind b).n) (hzpm : p.tok.zpm = (s.bind b).zpm) (hrun : (s.net (s.bind b).net).running = true)
    (hflow : (s.bind b).flows.contains f.val = true) (hnew : ∀ w, s.tok.window = some w → seqLe w p.tok.window = true)
    (hbase : p.tok.delta = true → ∃ l, CodeCache.find x.cache p.tok.seq = some l ∧ l.length = p.tok.n)
    (hcodes : codes = p.codes ((CodeCache.find x.cache p.tok.seq).getD [])) :
    ∃ t, exec (.tokenDispatchReceive f) s = .next t ∧
      (t.bind b).held = (s.bind b).held ++ [{ p.tok with codes := codes, src := x.peerDev, flow := f.val, mseq := m.mseq }] ∧
      (∀ d, d ≠ b → (t.bind d).held = (s.bind d).held) ∧
      t.flow f.val = { x with tokQ := x.tokQ.tail, cache := CodeCache.put x.cache x.cacheSize p.tok.seq codes } ∧
      t.tok = { s.tok with window := some (s.tok.window.getD p.tok.window) } ∧ State.FlowsBut [f.val] s t ∧
      State.KeepsBut [.flows, .binds, .tok] s t := by
  obtain ⟨rfl, -, -⟩ := State.nextTok_eq_some hnext
  subst hx hcodes hob
  have hnone : s.dispatchRefusal f.val p = none :=
    State.dispatchRefusal_eq_none hb hgood hn hzpm hrun hflow (State.lateWindow_eq_false hnew) hbase
  have hexec := exec_tokenDispatchReceive hnext hroom htakes
  obtain ⟨hothers, htaken⟩ := s.tokenTaken_keeps f.val p.tok.seq (s.tokenOf f.val m p).codes
  have hpopped := s.tokenTaken_flow f.val p.tok.seq (s.tokenOf f.val m p).codes
  have hheld : (s.popTok f.val).receiveDispatch f.val m p = ((s.tokenTaken f.val p.tok.seq (s.tokenOf f.val m p).codes).modBind b
      fun x => { x with held := x.held ++ [s.tokenOf f.val m p] }).seeWindow p.tok.window := by
    have hbinding : (s.tokenTaken f.val p.tok.seq (s.tokenOf f.val m p).codes).bindingOf = s.bindingOf := rfl
    rw [State.receiveDispatch, State.popTok_dispatchRefusal, hnone, State.takeToken_popped]
    dsimp only
    rw [hbinding, hb]
  rw [hheld] at hexec
  generalize s.tokenTaken f.val p.tok.seq (s.tokenOf f.val m p).codes = v at *
  have hbind : v.bind = s.bind := htaken.bind_fun (by decide)
  obtain ⟨htok, hbinds, hkeeps⟩ := (v.modBind b fun x => { x with held := x.held ++ [s.tokenOf f.val m p] }).seeWindow_spec
    p.tok.window
  generalize (v.modBind b fun x => { x with held := x.held ++ [s.tokenOf f.val m p] }).seeWindow p.tok.window = t at *
  have hflows : t.flow = v.flow := funext fun g => by
    rw [hkeeps.flow_fun (by decide)]
    rfl
  refine ⟨t, hexec, ?_, fun d hd => ?_, by rw [hflows]; exact hpopped, ?_, fun g hg => by rw [hflows, hothers g hg], ?_⟩
  · rw [BindSt.get_besideRef (hbinds b) BindSt.held (fun _ => rfl), State.bind_modBind_self, hbind]
    rfl
  · rw [BindSt.get_besideRef (hbinds d) BindSt.held (fun _ => rfl), State.bind_modBind_ne _ _ _ _ hd, hbind]
  · rw [htok, ← htaken.tok_eq (by decide)]
    rfl
  · refine ((htaken.mono (by decide)).trans ?_).trans (hkeeps.mono (by decide))
    simp

end Dispatch

end Sys2Proof.Machine
end

section
/-! SUPPORT. Windows and token steps (08 R200 to R208): what the decision of a window does to each binding, and what a token step and the
decision of a window leave alone. -/

namespace Sys2Proof.Machine

variable {s : State}

/-! ### Token steps -/

theorem State.expandToken_keeps (b step : Nat) (t : Token) :
    State.KeepsBut [.binds, .flows, .expand] s (s.expandToken b step t) := by
  unfold State.expandToken
  dsimp only
  split_ifs <;> simp

theorem State.expandToken_tok (b step : Nat) (t : Token) : (s.expandToken b step t).tok = s.tok := (s.expandToken_keeps b step t).tok_eq (by decide)

theorem State.takeErrors_keeps (k : Nat) : State.KeepsBut [.binds, .flows, .expand, .errTok] s (s.takeErrors k) := by
  refine .foldl (fun u x => ?_) _ _
  cases hheld : u.heldError x.2 with
  | none => exact .refl
  | some e =>
    refine State.KeepsBut.trans ?_ ((State.expandError_spec rfl).2.2.2.2.mono (by decide))
    exact (State.keepsBut_modBind _ (by decide) _ _).mpr ((State.keepsBut_withErrTok (by decide) _).mpr .refl)

/-- The token steps that are still to run, a step begun. -/
def State.beginBlock (s : State) (k len : Nat) (rest : List (Nat × Nat)) : State :=
  { s with tok := { s.tok with
      started := (s.net k).step + 1, next := if s.tok.next + 1 < len then s.tok.next + 1 else 0
      blocks := if s.tok.next + 1 < len then s.tok.blocks else rest } }

/-- The next admitted token of binding b expanded, where it is one of window w. -/
def State.expandNext (w step : Nat) (s : State) (b : Nat) : State :=
  match (s.bind b).admitted with
  | t :: r => if t.window = w then (s.modBind b fun x => { x with admitted := r }).expandToken b step t else s
  | [] => s

theorem State.expandNext_keeps (w step b : Nat) : State.KeepsBut [.binds, .flows, .expand] s (s.expandNext w step b) := by
  unfold State.expandNext
  split
  · next t r _ =>
    split
    · exact State.KeepsBut.trans (by simp) ((s.modBind b fun x => { x with admitted := r }).expandToken_keeps b step t)
    · exact .refl
  · exact .refl

/-- A token step does nothing, takes the held ERROR tokens, or expands a token of each binding. -/
theorem State.tokenStep_cases (k : Nat) : s.tokenStep k = s ∨ s.tokenStep k = s.takeErrors k ∨
    ∃ w len rest, s.tokenStep k = s.bindings.foldl (State.expandNext w (s.net k).step) (s.beginBlock k len rest) := by
  unfold State.tokenStep
  dsimp only
  split_ifs
  · exact .inl rfl
  · exact .inr (.inl rfl)
  · exact .inl rfl
  · split
    · exact .inl rfl
    · next w len rest _ => exact .inr (.inr ⟨w, len, rest, rfl⟩)

/-- A token step changes bindings, flows, expansion and the blocks of token steps, and not the window to be decided. -/
theorem State.tokenStep_keeps (k : Nat) : (s.tokenStep k).tok.window = s.tok.window ∧
    State.KeepsBut [.binds, .flows, .expand, .errTok, .tok] s (s.tokenStep k) := by
  obtain h | h | ⟨w, len, rest, h⟩ := s.tokenStep_cases k
  · rw [h]
    exact ⟨rfl, .refl⟩
  · rw [h]
    have hkeeps := s.takeErrors_keeps k
    exact ⟨congrArg TokSt.window (hkeeps.tok_eq (by decide)), hkeeps.mono (by decide)⟩
  · rw [h]
    have hbegin : State.KeepsBut [.binds, .flows, .expand, .errTok, .tok] s (s.beginBlock k len rest) :=
      (State.keepsBut_withTok (by decide) _).mpr .refl
    have hsteps : State.KeepsBut [.binds, .flows, .expand] (s.beginBlock k len rest)
        (s.bindings.foldl (State.expandNext w (s.net k).step) (s.beginBlock k len rest)) :=
      .foldl (fun u b => u.expandNext_keeps w _ b) _ _
    exact ⟨by rw [hsteps.tok_eq (by decide)]; rfl, hbegin.trans (hsteps.mono (by decide))⟩

/-- Without an open step of its home network no token step begins. -/
theorem State.tokenStep_idle {k : Nat} (h : (s.net k).running = false ∨ (s.net k).phase ≠ 1) : s.tokenStep k = s :=
  if_pos (by rcases h with h | h <;> simp [h])

/-! ### The decision of a window -/

theorem State.consumeMsgs_keeps (l : List (Nat × Nat × Nat)) :
    State.KeepsBut [.flows] s (l.foldl (fun u c => u.consumeMsg c.1 c.2.1) s) := .foldl (fun u c => by simp) _ _

/-- An ACK that is due stays due. -/
theorem State.consumeMsg_ackDue {f g m : Nat} (h : (s.flow f).ackDue = true) : ((s.consumeMsg g m).flow f).ackDue = true := by
  by_cases hfg : f = g
  · rw [hfg]
    exact (State.consumeMsg_flow ..).2
  · rw [State.consumeMsg_flowsBut _ _ _ (List.mem_singleton.not.mpr hfg), h]

/-- The ACK of each flow whose messages are consumed is due. -/
theorem State.consumeMsgs_ackDue {l : List (Nat × Nat × Nat)} {f : Nat} (h : (s.flow f).ackDue = true ∨ ∃ c ∈ l, c.1 = f) :
    ((l.foldl (fun u c => u.consumeMsg c.1 c.2.1) s).flow f).ackDue = true := by
  induction l generalizing s with
  | nil => simpa using h
  | cons c l ih =>
    rw [List.foldl_cons]
    apply ih
    rcases h with h | ⟨d, hd, hdf⟩
    · exact .inl (State.consumeMsg_ackDue h)
    · rcases List.mem_cons.mp hd with rfl | hd
      · subst hdf
        exact .inl (State.consumeMsg_flow ..).2
      · exact .inr ⟨d, hd, hdf⟩

/-- A binding whose window w is decided: its tokens leave the buffer, and of those that repeat no other the first CAP are admitted,
where the binding is in and its network runs. -/
def BindSt.windowDecided (all : List Token) (w : Nat) (net : Nat → NetSt) (now : Nat) (x : BindSt) : BindSt :=
  { x with
    held := x.held.filter fun t => t.window != w, gaveUp := [], tRef := now, closeAt := x.closeAt.filter fun e => e.1 != w
    admitted := if (net x.net).running && decide (x.state < 2)
      then x.admitted ++ ((sortToks (x.held.filter fun t => t.window == w)).filter fun t => !repeats all t).take x.cap
      else x.admitted }

/-- A binding that is in, of a running network, admits; another does not. -/
theorem BindSt.windowDecided_admitted (all : List Token) (w : Nat) (net : Nat → NetSt) (now : Nat) (x : BindSt) :
    ((net x.net).running = true → x.state < 2 → (x.windowDecided all w net now).admitted =
      x.admitted ++ ((sortToks (x.held.filter fun t => t.window == w)).filter fun t => !repeats all t).take x.cap) ∧
    ((net x.net).running = false ∨ 2 ≤ x.state → (x.windowDecided all w net now).admitted = x.admitted) := by
  refine ⟨fun hrun hin => if_pos ?_, fun h => if_neg ?_⟩
  · rw [hrun, Bool.true_and, decide_eq_true_eq]
    exact hin
  · rcases h with h | h
    · simp [h]
    · rw [Bool.and_eq_true, decide_eq_true_eq]
      omega

/-- A binding that the tokens of window w leave. -/
def BindSt.dropWindow (x : BindSt) (w now : Nat) : BindSt :=
  { x with held := x.held.filter fun t => t.window != w, gaveUp := [], tRef := now, closeAt := x.closeAt.filter fun e => e.1 != w }

theorem BindSt.windowDecided_in {all : List Token} {w : Nat} {net : Nat → NetSt} {now : Nat} {x : BindSt}
    (hrun : (net x.net).running = true) (hin : x.state < 2) : x.windowDecided all w net now =
      { x.dropWindow w now with admitted := x.admitted ++
        ((sortToks (x.held.filter fun t => t.window == w)).filter fun t => !repeats all t).take x.cap } := by
  rw [BindSt.windowDecided, if_pos (by rw [hrun, Bool.true_and, decide_eq_true_eq]; exact hin)]
  rfl

theorem BindSt.windowDecided_out {all : List Token} {w : Nat} {net : Nat → NetSt} {now : Nat} {x : BindSt}
    (h : (net x.net).running = false ∨ 2 ≤ x.state) : x.windowDecided all w net now = x.dropWindow w now := by
  rw [BindSt.windowDecided, if_neg]
  · rfl
  · rcases h with h | h
    · simp [h]
    · rw [Bool.and_eq_true, decide_eq_true_eq]
      omega

theorem State.refuseTok_keeps (t : Token) (code : Nat) : (s.refuseTok t code).bind = s.bind ∧
    State.KeepsBut [.flows, .ctr] s (s.refuseTok t code) := ⟨rfl, by simp [State.refuseTok]⟩

/-- Held tokens refused, each with what is counted for it: no binding changes. -/
theorem State.refuseToks_keeps {g : State → Token → State}
    (hg : ∀ u t, (g u t).bind = u.bind ∧ State.KeepsBut [.flows, .ctr] u (g u t)) (l : List Token) :
    (l.foldl g s).bind = s.bind ∧ State.KeepsBut [.flows, .ctr] s (l.foldl g s) :=
  ⟨foldl_keeps State.bind (fun u t => (hg u t).1) _ _, .foldl (fun u t => (hg u t).2) _ _⟩

theorem State.admitWindow_spec (all : List Token) (w b : Nat) :
    (s.admitWindow all w b).bind = (s.modBind b (·.windowDecided all w s.net s.now)).bind ∧
      State.KeepsBut [.binds, .flows, .ctr] s (s.admitWindow all w b) := by
  have hrefuse (code : Nat) (u : State) (t : Token) := u.refuseTok_keeps t code
  have hover (u : State) (t : Token) : ((u.refuseTok t 1).countDev Ctr.tokenRefusedCap b).bind = u.bind ∧
      State.KeepsBut [.flows, .ctr] u ((u.refuseTok t 1).countDev Ctr.tokenRefusedCap b) :=
    ⟨by simp [(hrefuse 1 u t).1], by simpa using (hrefuse 1 u t).2⟩
  have hpaged (u : State) (t : Token) : (((u.refuseTok t 1).countDev Ctr.tokenRefusedCap b).countDev Ctr.tokenRefusedPaged b).bind =
        u.bind ∧ State.KeepsBut [.flows, .ctr] u
          (((u.refuseTok t 1).countDev Ctr.tokenRefusedCap b).countDev Ctr.tokenRefusedPaged b) :=
    ⟨by simp [(hrefuse 1 u t).1], by simpa using (hrefuse 1 u t).2⟩
  have hrepeat := (State.refuseToks_keeps (s := s.modBind b (·.dropWindow w s.now)) (hrefuse 5)
    ((sortToks ((s.bind b).held.filter fun t => t.window == w)).filter (repeats all)))
  have hdrop : State.KeepsBut [.binds, .flows, .ctr] s (s.modBind b (·.dropWindow w s.now)) := by simp
  unfold State.admitWindow
  dsimp only
  unfold BindSt.dropWindow at hrepeat
  generalize List.foldl (fun (u : State) t => u.refuseTok t 5) _ _ = u at hrepeat ⊢
  obtain ⟨hbind, hkeeps⟩ := hrepeat
  have hnet : u.net = s.net := funext fun k => by
    rw [hkeeps.net_fun (by decide)]
    rfl
  have hu : State.KeepsBut [.binds, .flows, .ctr] s u := hdrop.trans (hkeeps.mono (by decide))
  rw [hnet]
  by_cases hrun : (s.net (s.bind b).net).running = true
  · rw [if_neg (by simp [hrun])]
    by_cases hin : (s.bind b).state < 2
    · rw [if_neg (by omega)]
      refine ⟨(State.refuseToks_keeps hover _).1.trans ?_, hu.trans (State.KeepsBut.trans (by simp)
        ((State.refuseToks_keeps hover _).2.mono (by decide)))⟩
      funext c
      by_cases hc : c = b
      · simp only [hc, State.countDev_tokenUnits, State.bind_modBind_self, hbind, BindSt.windowDecided_in hrun hin]
        rfl
      · simp [hc, hbind]
    · rw [if_pos (by omega)]
      refine ⟨(State.refuseToks_keeps hpaged _).1.trans ?_, hu.trans ((State.refuseToks_keeps hpaged _).2.mono (by decide))⟩
      rw [hbind]
      funext c
      by_cases hc : c = b
      · simp only [hc, State.bind_modBind_self, BindSt.windowDecided_out (.inr (Nat.not_lt.mp hin))]
        rfl
      · simp [hc]
  · rw [if_pos (by simpa using hrun)]
    obtain ⟨hrest, hrestKeeps⟩ := State.refuseToks_keeps (s := u) (hrefuse 3)
      ((sortToks ((s.bind b).held.filter fun t => t.window == w)).filter fun t => !repeats all t)
    refine ⟨hrest.trans ?_, hu.trans (hrestKeeps.mono (by decide))⟩
    rw [hbind]
    funext c
    by_cases hc : c = b
    · simp only [hc, State.bind_modBind_self, BindSt.windowDecided_out (.inl (Bool.eq_false_iff.mpr hrun))]
      rfl
    · simp [hc]

theorem State.bindings_nodup : s.bindings.Nodup := (upTo_nodup 64).filter _

/-- The bindings are those of the same numbers where each binding is valid as before. -/
theorem State.bindings_congr {t : State} (h : ∀ b, (t.bind b).valid = (s.bind b).valid) : t.bindings = s.bindings := by
  simp only [State.bindings, h]

/-- The tokens of window w at every binding. -/
def State.windowTokens (s : State) (w : Nat) : List Token :=
  (s.bindings.flatMap fun b => (s.bind b).held).filter fun t => t.window == w

/-- Every binding's admission for window w. -/
def State.admitAll (s : State) (w : Nat) : State := s.bindings.foldl (fun u b => u.admitWindow (s.windowTokens w) w b) s

theorem State.admitAll_bind (w b : Nat) : (s.admitAll w).bind b =
    if b ∈ s.bindings then (s.bind b).windowDecided (s.windowTokens w) w s.net s.now else s.bind b := by
  have hself (u : State) (m : Nat) : (u.admitWindow (s.windowTokens w) w m).bind m =
      (u.bind m).windowDecided (s.windowTokens w) w u.net u.now := by
    rw [(u.admitWindow_spec (s.windowTokens w) w m).1, State.bind_modBind_self]
  have hne (u : State) (m c : Nat) (hc : c ≠ m) : (u.admitWindow (s.windowTokens w) w m).bind c = u.bind c := by
    rw [(u.admitWindow_spec (s.windowTokens w) w m).1, State.bind_modBind_ne _ _ _ _ hc]
  have hrest (u : State) (m : Nat) : ((u.admitWindow (s.windowTokens w) w m).net, (u.admitWindow (s.windowTokens w) w m).now) =
      (u.net, u.now) := by
    obtain ⟨-, hkeeps⟩ := u.admitWindow_spec (s.windowTokens w) w m
    have hnet : (u.admitWindow (s.windowTokens w) w m).net = u.net := hkeeps.net_fun (by decide)
    rw [hnet, hkeeps.now_eq (by decide)]
  exact foldl_each State.bind (fun u => (u.net, u.now)) (fun c _ x => x.windowDecided (s.windowTokens w) w c.1 c.2) hself hne hrest
    State.bindings_nodup s b

theorem State.admitAll_keeps (w : Nat) : State.KeepsBut [.binds, .flows, .ctr] s (s.admitAll w) :=
  .foldl (fun u b => (u.admitWindow_spec (s.windowTokens w) w b).2) _ _

/-- The bindings and the length of a block of token steps are those from before admission. -/
theorem State.admitAll_blockLen (w : Nat) : (s.admitAll w).blockLen = s.blockLen := by
  have hcap (b : Nat) : ((s.admitAll w).bind b).cap = (s.bind b).cap := by
    rw [State.admitAll_bind]
    split <;> rfl
  have hvalid : (s.admitAll w).bindings = s.bindings := State.bindings_congr fun b => by
    rw [State.admitAll_bind]
    split <;> rfl
  simp only [State.blockLen, hvalid, hcap]

/-- The CLOSE messages of window w consumed. -/
def State.consumeCloses (s : State) (w : Nat) : State :=
  (s.tok.closes.filter fun c => c.2.2 == w).foldl (fun u c => u.consumeMsg c.1 c.2.1) s

theorem State.decideWindow_eq {w : Nat} {v : State} (hv : v = (s.admitAll w).consumeCloses w) :
    s.decideWindow w = { v with tok := { v.tok with
      window := some (seqNext w), closes := v.tok.closes.filter fun c => c.2.2 != w, blocks := v.tok.blocks ++ [(w, v.blockLen)] } } := by
  rw [hv]
  rfl

/-- The decision of window w: the bindings, the windows, the CLOSE messages that it consumes, and what it leaves alone. -/
theorem State.decideWindow_spec (w : Nat) :
    (∀ b, (s.decideWindow w).bind b =
      if b ∈ s.bindings then (s.bind b).windowDecided (s.windowTokens w) w s.net s.now else s.bind b) ∧
    (s.decideWindow w).tok = { s.tok with
      window := some (seqNext w), closes := s.tok.closes.filter fun c => c.2.2 != w, blocks := s.tok.blocks ++ [(w, s.blockLen)] } ∧
    (∀ c ∈ s.tok.closes, c.2.2 = w → ((s.decideWindow w).flow c.1).ackDue = true) ∧
    State.KeepsBut [.binds, .flows, .ctr, .tok] s (s.decideWindow w) := by
  have hadmit := s.admitAll_keeps w
  have hclose : State.KeepsBut [.flows] (s.admitAll w) ((s.admitAll w).consumeCloses w) := State.consumeMsgs_keeps _
  have hdue (c : Nat × Nat × Nat) (hc : c ∈ s.tok.closes) (hw : c.2.2 = w) :
      (((s.admitAll w).consumeCloses w).flow c.1).ackDue = true := by
    refine State.consumeMsgs_ackDue (.inr ⟨c, List.mem_filter.mpr ⟨?_, by simpa using hw⟩, rfl⟩)
    rw [hadmit.tok_eq (by decide)]
    exact hc
  rw [State.decideWindow_eq rfl]
  generalize (s.admitAll w).consumeCloses w = v at *
  have hbind : v.bind = (s.admitAll w).bind := hclose.bind_fun (by decide)
  have hlen : v.blockLen = s.blockLen := by
    rw [← s.admitAll_blockLen w, State.blockLen, State.bindings, hbind]
    rfl
  have htok : v.tok = s.tok := (hclose.tok_eq (by decide)).trans (hadmit.tok_eq (by decide))
  refine ⟨fun b => ?_, ?_, hdue, (State.keepsBut_withTok (by decide) _).mpr ((hadmit.mono (by decide)).trans (hclose.mono (by decide)))⟩
  · exact (congrFun hbind b).trans (s.admitAll_bind w b)
  · rw [htok, hlen]

/-! ### Windows that can be decided -/

theorem State.homeNet_isSome {b : Nat} (hb : b ∈ s.bindings) : ∃ k, s.homeNet = some k := by
  unfold State.homeNet
  cases hl : s.bindings with
  | nil => simp [hl] at hb
  | cons c l => exact ⟨_, rfl⟩

theorem State.homeNet_congr {t : State} (hbindings : t.bindings = s.bindings) (h : ∀ b, (t.bind b).net = (s.bind b).net) :
    t.homeNet = s.homeNet := by
  simp only [State.homeNet, hbindings, h]

theorem State.allClosed_iff {w : Nat} :
    s.allClosed w = true ↔ ∀ b ∈ s.bindings, ∀ g ∈ (s.bind b).flows, (s.bind b).closedBy w g = true := by
  simp [State.allClosed]

theorem State.decideReady_waits {w b g : Nat} (hw : s.tok.window = some w) (hb : b ∈ s.bindings) (hg : g ∈ (s.bind b).flows)
    (hopen : (s.bind b).closedBy w g = false) : s.decideReady = s := by
  obtain ⟨k, hk⟩ := State.homeNet_isSome hb
  have hwaits : ¬ s.allClosed w = true := fun h => by simp [State.allClosed_iff.mp h b hb g hg] at hopen
  rw [State.decideReady, hk, hw]
  exact if_neg hwaits

theorem State.decideReady_decides {w b : Nat} (hw : s.tok.window = some w) (hb : b ∈ s.bindings)
    (hclosed : ∀ b ∈ s.bindings, ∀ g ∈ (s.bind b).flows, (s.bind b).closedBy w g = true) :
    ∃ k, s.homeNet = some k ∧ s.decideReady = (s.decideWindow w).tokenStep k := by
  obtain ⟨k, hk⟩ := State.homeNet_isSome hb
  refine ⟨k, hk, ?_⟩
  rw [State.decideReady, hk, hw]
  exact if_pos (State.allClosed_iff.mpr hclosed)

end Sys2Proof.Machine
end

section
/-! SUPPORT. TOKEN_CLOSE_RECEIVE and TOKEN_WINDOW_TIMEOUT (08 R199 to R204): a CLOSE is consumed, held, or has its window decided; flows
are given up. -/

namespace Sys2Proof.Machine

variable {s : State}

theorem seqLe_refl (a : Nat) : seqLe a a = true := by
  have h : (a + 2 ^ 32 - a % 2 ^ 32) % 2 ^ 32 = 0 := by omega
  rw [seqLe, h]
  decide

/-! ### CLOSE messages -/

/-- A binding to which flow f's CLOSE of window w comes. -/
def BindSt.noteClose (x : BindSt) (f w now : Nat) : BindSt :=
  { x with
    closed := Tab.set x.closed 0 f (w + 1)
    closeAt := if x.closeAt.any fun e => e.1 == w then x.closeAt else x.closeAt ++ [(w, now)] }

theorem BindSt.noteClose_closedBy {x : BindSt} {f w now : Nat} :
    (x.noteClose f w now).closedBy w f = true ∧ ∀ v g, g ≠ f → (x.noteClose f w now).closedBy v g = x.closedBy v g := by
  refine ⟨?_, fun v g hg => ?_⟩
  · have hclosed : Tab.get (x.noteClose f w now).closed 0 f = w + 1 := by simp [BindSt.noteClose, Tab.get_set]
    rw [BindSt.closedBy, hclosed, seqLe_refl]
    simp
  · have hclosed : Tab.get (x.noteClose f w now).closed 0 g = Tab.get x.closed 0 g := by simp [BindSt.noteClose, Tab.get_set, hg]
    rw [BindSt.closedBy, hclosed, BindSt.closedBy]
    rfl

/-- Window w seen, and flow f's CLOSE of it, message m, listed. -/
def State.listClose (s : State) (f m w : Nat) : State :=
  { s.seeWindow w with tok := { (s.seeWindow w).tok with closes := (s.seeWindow w).tok.closes ++ [(f, m, w)] } }

/-- Flow f's CLOSE of window w, message m, held: its window is seen, and the bindings that take tokens from the flow have it. -/
def State.holdClose (s : State) (f m w : Nat) : State :=
  (s.bindings.filter fun b => (s.bind b).flows.contains f).foldl (fun u b => u.modBind b (·.noteClose f w u.now))
    (s.listClose f m w)

theorem State.holdClose_spec (f m w : Nat) :
    (s.holdClose f m w).tok = { s.tok with closes := s.tok.closes ++ [(f, m, w)], window := some (s.tok.window.getD w) } ∧
    (∀ b, ∃ x : BindSt, x.besideRef = (s.bind b).besideRef ∧ (s.holdClose f m w).bind b =
      if b ∈ s.bindings ∧ (s.bind b).flows.contains f = true then x.noteClose f w s.now else x) ∧
    State.KeepsBut [.binds, .tok] s (s.holdClose f m w) := by
  obtain ⟨htok, hbinds, hseen⟩ := s.seeWindow_spec w
  have hstart : State.KeepsBut [.binds, .tok] s
      (s.listClose f m w) :=
    (State.keepsBut_withTok (by decide) _).mpr hseen
  have hfold : State.KeepsBut [.binds]
      (s.listClose f m w)
      (s.holdClose f m w) := .foldl (fun u b => by simp) _ _
  refine ⟨?_, fun b => ⟨(s.seeWindow w).bind b, hbinds b, ?_⟩, hstart.trans (hfold.mono (by decide))⟩
  · rw [hfold.tok_eq (by decide)]
    exact congrArg (fun k : TokSt => { k with closes := k.closes ++ [(f, m, w)] }) htok
  · have hnow : (s.seeWindow w).now = s.now := by rw [hseen.now_eq (by decide)]
    have hfolded := foldl_each State.bind State.now (fun now _ x => x.noteClose f w now)
      (f := fun u b => u.modBind b (·.noteClose f w u.now)) (fun u d => State.bind_modBind_self ..)
      (fun u d c hc => State.bind_modBind_ne _ _ _ _ hc) (fun u d => rfl)
      ((State.bindings_nodup (s := s)).filter fun b => (s.bind b).flows.contains f)
      (s.listClose f m w) b
    simp only [List.mem_filter] at hfolded
    rw [← hnow]
    exact hfolded

/-- A binding without what the arrival of a CLOSE changes. -/
def BindSt.besideClose (x : BindSt) : BindSt := { x with tRef := 0, closed := [], closeAt := [] }

/-- A field of a binding that the arrival of a CLOSE does not reach. -/
theorem BindSt.get_besideClose {α : Type} {x y : BindSt} (h : x.besideClose = y.besideClose) (f : BindSt → α)
    (hf : ∀ z : BindSt, f z.besideClose = f z) : f x = f y := by rw [← hf, h, hf]

theorem State.holdClose_besideClose (f m w b : Nat) : ((s.holdClose f m w).bind b).besideClose = (s.bind b).besideClose := by
  obtain ⟨x, hx, hb⟩ := (s.holdClose_spec f m w).2.1 b
  have hbeside : x.besideClose = (s.bind b).besideClose := BindSt.get_besideRef hx BindSt.besideClose (fun _ => rfl)
  rw [hb, ← hbeside]
  split <;> rfl

/-- The flow of the CLOSE has closed its window, for each binding that takes tokens from it. -/
theorem State.holdClose_closed {f w b : Nat} (m : Nat) (hb : b ∈ s.bindings) (hflow : (s.bind b).flows.contains f = true) :
    Tab.get ((s.holdClose f m w).bind b).closed 0 f = w + 1 ∧ ((s.holdClose f m w).bind b).closedBy w f = true := by
  obtain ⟨x, -, hbind⟩ := (s.holdClose_spec f m w).2.1 b
  rw [hbind, if_pos ⟨hb, hflow⟩]
  exact ⟨by simp [BindSt.noteClose, Tab.get_set], BindSt.noteClose_closedBy.1⟩

/-- Other flows have closed what they had closed. -/
theorem State.holdClose_others {f g : Nat} (m w v b : Nat) (hg : g ≠ f) :
    ((s.holdClose f m w).bind b).closedBy v g = (s.bind b).closedBy v g := by
  obtain ⟨x, hx, hbind⟩ := (s.holdClose_spec f m w).2.1 b
  have hsame : x.closedBy v g = (s.bind b).closedBy v g := BindSt.get_besideRef hx (·.closedBy v g) (fun _ => rfl)
  rw [hbind, ← hsame]
  split
  · exact BindSt.noteClose_closedBy.2 v g hg
  · rfl

theorem State.holdClose_bindings (f m w : Nat) : (s.holdClose f m w).bindings = s.bindings :=
  State.bindings_congr fun b => BindSt.get_besideClose (s.holdClose_besideClose f m w b) BindSt.valid (fun _ => rfl)

theorem State.holdClose_windowTokens (f m w v : Nat) : (s.holdClose f m w).windowTokens v = s.windowTokens v := by
  have hheld (b : Nat) : ((s.holdClose f m w).bind b).held = (s.bind b).held :=
    BindSt.get_besideClose (s.holdClose_besideClose f m w b) BindSt.held (fun _ => rfl)
  simp only [State.windowTokens, State.holdClose_bindings, hheld]

theorem State.holdClose_blockLen (f m w : Nat) : (s.holdClose f m w).blockLen = s.blockLen := by
  have hcap (b : Nat) : ((s.holdClose f m w).bind b).cap = (s.bind b).cap :=
    BindSt.get_besideClose (s.holdClose_besideClose f m w b) BindSt.cap (fun _ => rfl)
  simp only [State.blockLen, State.holdClose_bindings, hcap]

section Close

variable {f : FlowId} {u : State} {m : Msg} {p : Packet} {w : Nat} (hnext : s.nextTok f.val kindClose = some (m, p, u))
  (hw : w = p.tok.window) (htakes : s.takesIn = true) (hgood : p.good = true) (hbound : (s.bindingOf p.tok.expert).isSome = true)
  (hmine : ∃ b ∈ s.bindings, (s.bind b).flows.contains f.val = true)

include hnext hw htakes hgood hbound hmine

theorem exec_tokenCloseReceive : exec (.tokenCloseReceive f) s = .next (
    if s.lateWindow w then (s.popTok f.val).consumeMsg f.val m.mseq
    else ((s.popTok f.val).holdClose f.val m.mseq w).decideReady) := by
  obtain ⟨rfl, -, -⟩ := State.nextTok_eq_some hnext
  obtain ⟨b, hb, hflow⟩ := hmine
  have hsome : (s.bindings.filter fun b => (s.bind b).flows.contains f.val).isEmpty = false :=
    List.isEmpty_eq_false_iff_exists_mem.mpr ⟨b, List.mem_filter.mpr ⟨hb, hflow⟩⟩
  subst hw
  change execTokenCloseReceive f s = _
  unfold execTokenCloseReceive
  dsimp only
  rw [hnext]
  dsimp only
  simp only [State.popTok_units]
  rw [if_neg (by simp [htakes]), if_neg (by simp [hgood]), if_neg (by simp [Option.isNone_iff_eq_none, Option.isSome_iff_ne_none.mp hbound]),
    if_neg (Bool.eq_false_iff.mp hsome)]
  rfl

/-- A CLOSE of a window decided before is consumed at once. -/
theorem tokenCloseReceive_late {d : Nat} (hd : s.tok.window = some d) (hlate : seqLe d w = false) :
    ∃ t, exec (.tokenCloseReceive f) s = .next t ∧ (t.flow f.val).ackDue = true ∧ State.FlowsBut [f.val] s t ∧
      State.KeepsBut [.flows] s t := by
  have hexec := exec_tokenCloseReceive hnext hw htakes hgood hbound hmine
  rw [if_pos (State.lateWindow_eq_true ⟨d, hd, hlate⟩)] at hexec
  refine ⟨_, hexec, (State.consumeMsg_flow ..).2, fun g hg => ?_, by simp⟩
  rw [State.consumeMsg_flowsBut _ _ g hg, State.popTok_flowsBut _ g hg]

variable (hnew : ∀ d, s.tok.window = some d → seqLe d w = true)

include hnew

/-- A CLOSE is held while its window waits for another flow. -/
theorem tokenCloseReceive_held (hwaits : ∃ b ∈ s.bindings, ∃ g ∈ (s.bind b).flows, g ≠ f.val ∧
      (s.bind b).closedBy (s.tok.window.getD w) g = false) :
    ∃ t, exec (.tokenCloseReceive f) s = .next t ∧
      t.tok = { s.tok with closes := s.tok.closes ++ [(f.val, m.mseq, w)], window := some (s.tok.window.getD w) } ∧
      (∀ b ∈ s.bindings, (s.bind b).flows.contains f.val = true → Tab.get (t.bind b).closed 0 f.val = w + 1) ∧
      (∀ b, (t.bind b).held = (s.bind b).held ∧ (t.bind b).admitted = (s.bind b).admitted) ∧
      (t.flow f.val).tokQ = (s.flow f.val).tokQ.tail ∧ State.FlowsBut [f.val] s t ∧
      State.KeepsBut [.flows, .tok, .binds] s t := by
  have hexec := exec_tokenCloseReceive hnext hw htakes hgood hbound hmine
  obtain ⟨b, hb, g, hg, hgf, hopen⟩ := hwaits
  obtain ⟨htok, -, hkeeps⟩ := (s.popTok f.val).holdClose_spec f.val m.mseq w
  have hbeside := (s.popTok f.val).holdClose_besideClose f.val m.mseq w
  have hwindow : ((s.popTok f.val).holdClose f.val m.mseq w).tok.window = some (s.tok.window.getD w) := by rw [htok]; rfl
  have hflows : ((s.popTok f.val).holdClose f.val m.mseq w).flow = (s.popTok f.val).flow := funext fun g => by
    rw [hkeeps.flow_fun (by decide)]
  have hready : ((s.popTok f.val).holdClose f.val m.mseq w).decideReady = (s.popTok f.val).holdClose f.val m.mseq w := by
    refine State.decideReady_waits hwindow (b := b) (g := g) ?_ ?_ ?_
    · rw [State.holdClose_bindings]
      exact hb
    · rw [BindSt.get_besideClose (hbeside b) BindSt.flows (fun _ => rfl)]
      exact hg
    · rw [State.holdClose_others _ _ _ _ hgf]
      exact hopen
  rw [if_neg (by simp [State.lateWindow_eq_false hnew]), hready] at hexec
  refine ⟨_, hexec, htok, fun c hc hflow => ?_, fun c => ⟨?_, ?_⟩, ?_, fun g hg => ?_, ?_⟩
  · exact (State.holdClose_closed (s := s.popTok f.val) _ hc hflow).1
  · exact BindSt.get_besideClose (hbeside c) BindSt.held (fun _ => rfl)
  · exact BindSt.get_besideClose (hbeside c) BindSt.admitted (fun _ => rfl)
  · rw [hflows, State.popTok_flow]
  · rw [hflows, State.popTok_flowsBut _ g hg]
  · exact State.KeepsBut.trans (by simp) (hkeeps.mono (by decide))

/-- With the last CLOSE the window is decided. -/
theorem tokenCloseReceive_decided {all : List Token} (hall : all = s.windowTokens w)
    (hclosed : ∀ b ∈ s.bindings, ∀ g ∈ (s.bind b).flows, g = f.val ∨ (s.bind b).closedBy w g = true)
    (hwindow : s.tok.window.getD w = w) (hidle : ∀ k, s.homeNet = some k → (s.net k).running = false ∨ (s.net k).phase ≠ 1) :
    ∃ t, exec (.tokenCloseReceive f) s = .next t ∧ t.tok.window = some (seqNext w) ∧
      t.tok.blocks = s.tok.blocks ++ [(w, s.blockLen)] ∧ t.tok.closes = s.tok.closes.filter (fun c => c.2.2 != w) ∧
      (t.flow f.val).ackDue = true ∧
      (∀ b ∈ s.bindings, (t.bind b).held = (s.bind b).held.filter (fun x => x.window != w) ∧
        ((s.net (s.bind b).net).running = true → (s.bind b).state < 2 →
          (t.bind b).admitted = (s.bind b).admitted ++
            (((sortToks ((s.bind b).held.filter fun x => x.window == w)).filter fun x => !repeats all x).take
              (s.bind b).cap)) ∧
        ((s.net (s.bind b).net).running = false ∨ 2 ≤ (s.bind b).state → (t.bind b).admitted = (s.bind b).admitted)) ∧
      State.KeepsBut [.flows, .tok, .binds, .ctr] s t := by
  have hexec := exec_tokenCloseReceive hnext hw htakes hgood hbound hmine
  obtain ⟨c, hc, hcflow⟩ := hmine
  obtain ⟨htok, -, hkeeps⟩ := (s.popTok f.val).holdClose_spec f.val m.mseq w
  have hbeside := (s.popTok f.val).holdClose_besideClose f.val m.mseq w
  have hbindings := (s.popTok f.val).holdClose_bindings f.val m.mseq w
  have hallTokens := (s.popTok f.val).holdClose_windowTokens f.val m.mseq w w
  have hlen := (s.popTok f.val).holdClose_blockLen f.val m.mseq w
  have hfclosed (b : Nat) (hb : b ∈ s.bindings) (hflow : (s.bind b).flows.contains f.val = true) :=
    ((s.popTok f.val).holdClose_closed (w := w) m.mseq hb hflow).2
  have hothers (b g : Nat) (hg : g ≠ f.val) := (s.popTok f.val).holdClose_others m.mseq w w b hg
  rw [if_neg (by simp [State.lateWindow_eq_false hnew])] at hexec
  generalize (s.popTok f.val).holdClose f.val m.mseq w = v at *
  have hvwindow : v.tok.window = some w := by
    rw [htok]
    exact congrArg some hwindow
  have hvnet : v.net = s.net := funext fun k => by rw [hkeeps.net_fun (by decide)]; rfl
  have hvhome : v.homeNet = s.homeNet :=
    State.homeNet_congr hbindings fun b => BindSt.get_besideClose (hbeside b) BindSt.net (fun _ => rfl)
  have hvclosed : ∀ b ∈ v.bindings, ∀ g ∈ (v.bind b).flows, (v.bind b).closedBy w g = true := by
    intro b hb g hg
    rw [hbindings] at hb
    rw [BindSt.get_besideClose (hbeside b) BindSt.flows (fun _ => rfl)] at hg
    by_cases hgf : g = f.val
    · rw [hgf]
      exact hfclosed b hb (List.contains_iff_mem.mpr (hgf ▸ hg))
    · rw [hothers b g hgf]
      exact (hclosed b hb g hg).resolve_left hgf
  obtain ⟨k, hk, hready⟩ := State.decideReady_decides hvwindow (hbindings ▸ hc) hvclosed
  obtain ⟨hbind, hdtok, hdue, hdkeeps⟩ := v.decideWindow_spec w
  have hdnet : (v.decideWindow w).net = s.net := by
    rw [← hvnet]
    exact hdkeeps.net_fun (by decide)
  rw [hready, State.tokenStep_idle (by rw [hdnet]; exact hidle k (hvhome ▸ hk))] at hexec
  refine ⟨_, hexec, by rw [hdtok], ?_, ?_, ?_, fun b hb => ?_, ?_⟩
  · rw [hdtok, htok, hlen]
    rfl
  · rw [hdtok, htok]
    simp
  · exact hdue (f.val, m.mseq, w) (by simp [htok]) rfl
  · have hheld : (v.bind b).held = (s.bind b).held := BindSt.get_besideClose (hbeside b) BindSt.held (fun _ => rfl)
    have hstate : (v.bind b).state = (s.bind b).state := BindSt.get_besideClose (hbeside b) BindSt.state (fun _ => rfl)
    have hcap : (v.bind b).cap = (s.bind b).cap := BindSt.get_besideClose (hbeside b) BindSt.cap (fun _ => rfl)
    have hnet : (v.bind b).net = (s.bind b).net := BindSt.get_besideClose (hbeside b) BindSt.net (fun _ => rfl)
    have hadmitted : (v.bind b).admitted = (s.bind b).admitted := BindSt.get_besideClose (hbeside b) BindSt.admitted (fun _ => rfl)
    obtain ⟨hin, hout⟩ := (v.bind b).windowDecided_admitted (v.windowTokens w) w v.net v.now
    rw [hbind, if_pos (by rw [hbindings]; exact hb)]
    rw [hvnet, hnet, hstate, hheld, hcap, hadmitted, hallTokens] at hin
    rw [hvnet, hnet, hstate, hadmitted] at hout
    exact ⟨by rw [← hheld]; rfl, fun hrun hlow => by rw [hall, hvnet, hallTokens]; exact hin hrun hlow,
      fun hno => by rw [hvnet]; exact hout hno⟩
  · exact State.KeepsBut.trans (by simp) ((hkeeps.mono (by decide)).trans (hdkeeps.mono (by decide)))

end Close
end Sys2Proof.Machine
end

section
/-! SUPPORT. TOKEN_WINDOW_TIMEOUT (08 R202): a binding gives up flows that hold a window back. -/

namespace Sys2Proof.Machine

variable {s : State}

/-- A binding that has given flows up. -/
def BindSt.giveUp (x : BindSt) (gone : List Nat) : BindSt := { x with gaveUp := x.gaveUp ++ gone }

theorem BindSt.giveUp_closedBy (x : BindSt) (gone : List Nat) (w g : Nat) :
    (x.giveUp gone).closedBy w g = (x.closedBy w g || gone.contains g) := by
  simp [BindSt.closedBy, BindSt.giveUp, Bool.or_assoc]

/-- Binding b has given flows up, which is counted where they are the first of the window. -/
def State.giveUp (s : State) (b : Nat) (gone : List Nat) : State :=
  let u := s.modBind b (·.giveUp gone)
  if (s.bind b).gaveUp.isEmpty then u.countDev Ctr.tokenWindowTimeout b else u

theorem State.giveUp_spec (b : Nat) (gone : List Nat) : (s.giveUp b gone).bind = (s.modBind b (·.giveUp gone)).bind ∧
    ((s.bind b).gaveUp = [] → (s.giveUp b gone).ctrAt Scope.device 0 Ctr.tokenWindowTimeout b 0 =
      satCtr (s.ctrAt Scope.device 0 Ctr.tokenWindowTimeout b 0 + 1)) ∧ State.KeepsBut [.binds, .ctr] s (s.giveUp b gone) := by
  unfold State.giveUp
  dsimp only
  by_cases hfirst : (s.bind b).gaveUp = []
  · rw [if_pos (by simp [hfirst])]
    exact ⟨by simp, fun _ => State.ctrAt_countDev_self _ one_ne_zero, by simp⟩
  · rw [if_neg (by simp [hfirst])]
    exact ⟨rfl, fun h => absurd h hfirst, by simp⟩

theorem State.giveUp_beside (b c : Nat) (gone : List Nat) : ((s.giveUp b gone).bind c).valid = (s.bind c).valid ∧
    ((s.giveUp b gone).bind c).flows = (s.bind c).flows ∧ ∀ w g, ((s.giveUp b gone).bind c).closedBy w g =
      ((s.bind c).closedBy w g || (decide (c = b) && gone.contains g)) := by
  rw [(s.giveUp_spec b gone).1]
  by_cases hc : c = b
  · subst hc
    rw [State.bind_modBind_self]
    exact ⟨rfl, rfl, fun w g => by simp [BindSt.giveUp_closedBy]⟩
  · rw [State.bind_modBind_ne _ _ _ _ hc]
    exact ⟨rfl, rfl, fun w g => by simp [hc]⟩

section Timeout

variable {b : Fin 64} {w : Nat} {x : BindSt} {gone : List Nat} (hx : x = s.bind b.val) (hwindow : s.tok.window = some w)
  (hvalid : x.valid = true) (hgone : gone = (x.flows.filter fun f => !x.closedBy w f &&
    ((s.flow f).fstate != flowOpen || (s.flow f).stalled || decide (x.closeRef w + x.tc * 1000 ≤ s.now))))

include hx hwindow hvalid hgone

theorem exec_tokenWindowTimeout :
    exec (.tokenWindowTimeout b) s = .next (if gone = [] then s else (s.giveUp b.val gone).decideReady) := by
  subst hx
  change execTokenWindowTimeout b s = _
  unfold execTokenWindowTimeout
  dsimp only
  rw [hwindow]
  dsimp only
  rw [← hgone, hvalid]
  by_cases hnone : gone = []
  · rw [if_pos hnone, if_pos (by simp [hnone])]
  · rw [if_neg hnone, if_neg (by simp [hnone])]
    rfl

theorem tokenWindowTimeout_open (hsome : gone ≠ [])
    (hwaits : ∃ o ∈ s.bindings, ∃ g ∈ (s.bind o).flows, (s.bind o).closedBy w g = false ∧ (o = b.val → g ∉ gone)) :
    ∃ t, exec (.tokenWindowTimeout b) s = .next t ∧ t.bind b.val = { x with gaveUp := x.gaveUp ++ gone } ∧ t.tok = s.tok ∧
      (x.gaveUp = [] → t.ctrAt Scope.device 0 Ctr.tokenWindowTimeout b.val 0 =
        satCtr (s.ctrAt Scope.device 0 Ctr.tokenWindowTimeout b.val 0 + 1)) ∧ State.KeepsBut [.binds, .ctr] s t := by
  have hexec := exec_tokenWindowTimeout hx hwindow hvalid hgone
  obtain ⟨hbind, hcount, hkeeps⟩ := s.giveUp_spec b.val gone
  obtain ⟨o, ho, g, hg, hopen, hstays⟩ := hwaits
  have hready : (s.giveUp b.val gone).decideReady = s.giveUp b.val gone := by
    refine State.decideReady_waits (w := w) (b := o) (g := g) (by rw [hkeeps.tok_eq (by decide), hwindow]) ?_ ?_ ?_
    · rw [State.bindings_congr fun c => (s.giveUp_beside b.val c gone).1]
      exact ho
    · rw [(s.giveUp_beside b.val o gone).2.1]
      exact hg
    · rw [(s.giveUp_beside b.val o gone).2.2, hopen, Bool.false_or, Bool.and_eq_false_imp]
      intro hob
      simpa using hstays (of_decide_eq_true hob)
  rw [if_neg hsome, hready] at hexec
  refine ⟨_, hexec, ?_, hkeeps.tok_eq (by decide), fun h => hcount (hx ▸ h), hkeeps⟩
  rw [hbind, State.bind_modBind_self, ← hx]
  rfl

theorem tokenWindowTimeout_decided (hsome : gone ≠ [])
    (hclosed : ∀ o ∈ s.bindings, ∀ g ∈ (s.bind o).flows, (s.bind o).closedBy w g = true ∨ o = b.val ∧ g ∈ gone) :
    ∃ t, exec (.tokenWindowTimeout b) s = .next t ∧ t.tok.window = some (seqNext w) ∧
      State.KeepsBut [.binds, .ctr, .errTok, .expand, .flows, .tok] s t := by
  have hexec := exec_tokenWindowTimeout hx hwindow hvalid hgone
  obtain ⟨-, -, hkeeps⟩ := s.giveUp_spec b.val gone
  have hbindings : (s.giveUp b.val gone).bindings = s.bindings :=
    State.bindings_congr fun c => (s.giveUp_beside b.val c gone).1
  have hb : b.val ∈ (s.giveUp b.val gone).bindings := by
    rw [hbindings]
    exact List.mem_filter.mpr ⟨mem_upTo.mpr b.isLt, by rw [← hx, hvalid]⟩
  obtain ⟨k, -, hready⟩ := State.decideReady_decides (s := s.giveUp b.val gone) (w := w) (by rw [hkeeps.tok_eq (by decide), hwindow]) hb
    fun o ho g hg => by
      rw [hbindings] at ho
      obtain ⟨-, hflows, hclosedBy⟩ := s.giveUp_beside b.val o gone
      rw [hflows] at hg
      rw [hclosedBy]
      rcases hclosed o ho g hg with h | ⟨rfl, hgone⟩
      · rw [h, Bool.true_or]
      · simp [hgone]
  rw [if_neg hsome, hready] at hexec
  obtain ⟨-, htok, -, hdecided⟩ := (s.giveUp b.val gone).decideWindow_spec w
  obtain ⟨hstep, hstepped⟩ := ((s.giveUp b.val gone).decideWindow w).tokenStep_keeps k
  refine ⟨_, hexec, by rw [hstep, htok], ?_⟩
  exact (hkeeps.mono (by decide)).trans ((hdecided.mono (by decide)).trans (hstepped.mono (by decide)))

end Timeout

end Sys2Proof.Machine
end

section
/-! SUPPORT. TOKEN_EXPANSION (08 R205 to R207, R214): the oldest expansion event for a core of the sector is written, or waits. -/

namespace Sys2Proof.Machine

variable {s : State}

/-! ### Items on a link -/

theorem SectorSt.link_set (q : SectorSt) (l m : Nat) (k : LinkSt) :
    ({ q with links := Tab.set q.links {} l k } : SectorSt).link m = if m = l then k else q.link m := by
  simp [SectorSt.link, Tab.get_set]

theorem State.onLink_inFlight (n m : Nat) (it : Item) : (((s.onLink n 3 it).sector m).link 3).inFlight =
    ((s.sector m).link 3).inFlight ++ if m = n then [it] else [] := by
  by_cases hm : m = n
  · simp [hm, State.onLink, State.modLink, SectorSt.link_set]
  · simp [hm, State.onLink, State.modLink]

theorem State.onLink_keeps (n l : Nat) (it : Item) : (∀ m, ((s.onLink n l it).sector m).mem = (s.sector m).mem) ∧
    State.SectorsBut [n] s (s.onLink n l it) ∧ State.KeepsBut [.sectors] s (s.onLink n l it) := by
  refine ⟨fun m => ?_, fun m hm => ?_, by simp [State.onLink, State.modLink]⟩
  · by_cases hm : m = n <;> simp [hm, State.onLink, State.modLink]
  · simp [List.mem_singleton.not.mp hm, State.onLink, State.modLink]

/-! ### One event written -/

/-- An event written takes a unit of its core's credit, where the core has any. -/
def State.takeCredit (s : State) (c : Nat) : State :=
  if (s.core c).credit = 0 then s else s.modCore c fun k => { k with creditUsed := k.creditUsed + 1 }

/-- The event of an expansion as it is written to a core. -/
def Expansion.written (x : Expansion) (k : CoreSt) : EvItem := { x.item with token := x.item.token && k.credit != 0 }

/-- An expansion event written at the ring port for a step, with t and t_out for its row. -/
def State.writeExpansion (s : State) (x : Expansion) (step : Nat) : State :=
  let c := evCore x.item.ev
  let r := (s.takeCredit c).ringEvent x.fn step (x.written (s.core c))
  let t := if evType x.item.ev = 4 then r else r.setT x.item.ev step x.t (some x.tOut)
  { t with expand := t.expand.erase x }

theorem State.expandOne_skip {n : Nat} {x : Expansion} (h : sectorOf (evCore x.item.ev) ≠ n) : s.expandOne n x = s :=
  if_pos (by simp [h])

/-- Events for other sectors stay as they are. -/
theorem State.expandOne_others {n : Nat} {l : List Expansion} (h : ∀ y ∈ l, sectorOf (evCore y.item.ev) ≠ n) (s : State) :
    l.foldl (fun u y => u.expandOne n y) s = s := by
  induction l with
  | nil => rfl
  | cons y l ih =>
    rw [List.foldl_cons, State.expandOne_skip (h y List.mem_cons_self)]
    exact ih fun z hz => h z (List.mem_cons_of_mem _ hz)

theorem State.expandOne_waits {n : Nat} {x : Expansion} (h : (s.core (evCore x.item.ev)).credit ≠ 0 ∧
      (s.core (evCore x.item.ev)).freeCredit = 0 ∨ s.linkRoom n 3 (.event x.item) = false) : s.expandOne n x = s :=
  if_pos (by rcases h with ⟨hcredit, hfree⟩ | h <;> simp [*])

theorem State.expandOne_writes {n : Nat} {x : Expansion} (hsector : sectorOf (evCore x.item.ev) = n) (hc : evCore x.item.ev < 128)
    (hcredit : (s.core (evCore x.item.ev)).credit = 0 ∨ (s.core (evCore x.item.ev)).freeCredit ≠ 0)
    (hroom : s.linkRoom n 3 (.event x.item) = true) : s.expandOne n x = s.writeExpansion x (s.ringStep x.net) := by
  have hgo : ¬ (sectorOf (evCore x.item.ev) ≠ n || 128 ≤ evCore x.item.ev ||
      ((s.core (evCore x.item.ev)).credit != 0 && (s.core (evCore x.item.ev)).freeCredit = 0) ||
      !s.linkRoom n 3 (.event x.item)) = true := by
    have hlt : ¬ 128 ≤ evCore x.item.ev := by omega
    rcases hcredit with h | h <;> simp [hsector, hlt, hroom, h]
  unfold State.expandOne State.writeExpansion State.takeCredit Expansion.written
  dsimp only
  rw [if_neg hgo]
  by_cases hnone : (s.core (evCore x.item.ev)).credit = 0
  · rw [if_pos hnone, if_pos hnone]
    simp only [hnone, bne_self_eq_false, Bool.and_false]
  · rw [if_neg hnone, if_neg hnone]
    simp only [bne_iff_ne.mpr hnone, Bool.and_true]

/-- A core with t and t_out set for the row of an event (02 R49). -/
def CoreSt.scaled (k : CoreSt) (e : Word64) (step : Nat) (t : Word32) (tOut : Option Word32) : CoreSt :=
  let u := tOut.getD f32One
  if k.step = step && (k.phase = 1 || k.phase = 2) then
    { k with tScale := t, tOut := u, tokT := Tab.set k.tokT (f32One, f32One) (evRow e) (t, u) }
  else { k with tAhead := some (t, u), tokTAhead := Tab.set k.tokTAhead (f32One, f32One) (evRow e) (t, u) }

theorem CoreSt.scaled_spec (k : CoreSt) (e : Word64) (step : Nat) (t tOut : Word32) :
    (k.scaled e step t (some tOut)).creditUsed = k.creditUsed ∧
      Tab.get (if k.step = step ∧ (k.phase = 1 ∨ k.phase = 2) then (k.scaled e step t (some tOut)).tokT
        else (k.scaled e step t (some tOut)).tokTAhead) (f32One, f32One) (evRow e) = (t, tOut) := by
  by_cases h : k.step = step ∧ (k.phase = 1 ∨ k.phase = 2)
  · have hscaled : k.scaled e step t (some tOut) =
        { k with tScale := t, tOut := tOut, tokT := Tab.set k.tokT (f32One, f32One) (evRow e) (t, tOut) } := if_pos (by simpa using h)
    rw [hscaled, if_pos h]
    exact ⟨rfl, by simp [Tab.get_set]⟩
  · have hscaled : k.scaled e step t (some tOut) =
        { k with tAhead := some (t, tOut), tokTAhead := Tab.set k.tokTAhead (f32One, f32One) (evRow e) (t, tOut) } :=
      if_neg (by simpa using h)
    rw [hscaled, if_neg h]
    exact ⟨rfl, by simp [Tab.get_set]⟩

theorem State.takeCredit_spec (c : Nat) : (s.takeCredit c).core c =
      { s.core c with creditUsed := (s.core c).creditUsed + if (s.core c).credit = 0 then 0 else 1 } ∧
    State.CoresBut [c] s (s.takeCredit c) ∧ State.KeepsBut [.cores] s (s.takeCredit c) := by
  unfold State.takeCredit
  split
  · exact ⟨rfl, fun _ _ => rfl, .refl⟩
  · exact ⟨by simp, fun d hd => by simp [List.mem_singleton.not.mp hd], by simp⟩

/-- The event that a ring port takes, tagged for its step. -/
def EvItem.atPort (e : EvItem) (n step : Nat) : EvItem := { e with tag := step % 4, ev := put (put e.ev 6 2 16) 10 7 n }

/-- An event injected by a ring function: it is in flight at its sector's ring port, and counted in its tag's total. -/
theorem State.ringEvent_spec {n fn step : Nat} {e : EvItem} (hc : evCore e.ev < 128) (hn : sectorOf (evCore e.ev) = n) :
    (∀ m, (((s.ringEvent fn step e).sector m).link 3).inFlight = ((s.sector m).link 3).inFlight ++
      if m = n then [.event (e.atPort n step)] else []) ∧
    Tab.get ((s.ringEvent fn step e).rfn fn).sent 0 (step % 4) = Tab.get (s.rfn fn).sent 0 (step % 4) + 1 ∧
    (∀ m, ((s.ringEvent fn step e).sector m).mem = (s.sector m).mem) ∧ State.SectorsBut [n] s (s.ringEvent fn step e) ∧
    State.KeepsBut [.sectors, .rfns] s (s.ringEvent fn step e) := by
  have hput : s.ringPut step e = s.onLink n 3 (.event (e.atPort n step)) := by
    unfold State.ringPut
    dsimp only
    rw [if_pos hc, hn]
    rfl
  obtain ⟨hmem, hsectors, hkeeps⟩ := s.onLink_keeps n 3 (.event (e.atPort n step))
  have hrfn : (s.onLink n 3 (.event (e.atPort n step))).rfn fn = s.rfn fn := by rw [hkeeps.rfn_fun (by decide)]
  unfold State.ringEvent
  rw [hput]
  refine ⟨fun m => ?_, ?_, fun m => ?_, fun m hm => ?_, ?_⟩
  · rw [(State.modRfn_units ..).2.1, State.onLink_inFlight]
  · simp [hrfn, Tab.get_set]
  · rw [(State.modRfn_units ..).2.1, hmem]
  · rw [(State.modRfn_units ..).2.1, hsectors m hm]
  · simpa using hkeeps.mono (l' := [.sectors, .rfns]) (by decide)

/-- t and t_out of an expansion set for its row, but for an ERROR event. -/
def State.scaleRow (s : State) (x : Expansion) (step : Nat) : State :=
  if evType x.item.ev = 4 then s else s.setT x.item.ev step x.t (some x.tOut)

theorem State.scaleRow_spec {c : Nat} {x : Expansion} (hx : c = evCore x.item.ev) (step : Nat) :
    (((s.scaleRow x step).core c).creditUsed = (s.core c).creditUsed ∧ (evType x.item.ev ≠ 4 →
      Tab.get (if (s.core c).step = step ∧ ((s.core c).phase = 1 ∨ (s.core c).phase = 2) then ((s.scaleRow x step).core c).tokT
        else ((s.scaleRow x step).core c).tokTAhead) (f32One, f32One) (evRow x.item.ev) = (x.t, x.tOut))) ∧
    State.CoresBut [c] s (s.scaleRow x step) ∧ State.KeepsBut [.cores] s (s.scaleRow x step) := by
  subst hx
  by_cases herror : evType x.item.ev = 4
  · rw [State.scaleRow, if_pos herror]
    exact ⟨⟨rfl, fun h => absurd herror h⟩, fun _ _ => rfl, .refl⟩
  · have hset : s.scaleRow x step = s.modCore (evCore x.item.ev) (·.scaled x.item.ev step x.t (some x.tOut)) := if_neg herror
    obtain ⟨hused, hscale⟩ := (s.core (evCore x.item.ev)).scaled_spec x.item.ev step x.t x.tOut
    rw [hset, State.modCore_def, State.core_setCore_self]
    exact ⟨⟨hused, fun _ => hscale⟩, fun d hd => by simp [List.mem_singleton.not.mp hd], by simp⟩

/-- What writing an expansion event does: the event enters, its core's credit and scales and its function's count move on. -/
theorem State.writeExpansion_spec {n c step : Nat} {x : Expansion} (hx : c = evCore x.item.ev) (hn : sectorOf c = n) (hc : c < 128)
    {t : State} (ht : t = s.writeExpansion x step) : t.expand = s.expand.erase x ∧
      s.Injects t step [x.written (s.core c)] ∧
      (t.core c).creditUsed = (s.core c).creditUsed + (if (s.core c).credit = 0 then 0 else 1) ∧
      (evType x.item.ev ≠ 4 → Tab.get (if (s.core c).step = step ∧ ((s.core c).phase = 1 ∨ (s.core c).phase = 2) then (t.core c).tokT
        else (t.core c).tokTAhead) (f32One, f32One) (evRow x.item.ev) = (x.t, x.tOut)) ∧
      Tab.get (t.rfn x.fn).sent 0 (step % 4) = Tab.get (s.rfn x.fn).sent 0 (step % 4) + 1 ∧
      s.SameBytes t ∧ State.CoresBut [c] s t ∧ State.SectorsBut [n] s t ∧ State.KeepsBut [.cores, .sectors, .rfns, .expand] s t := by
  obtain ⟨hcore, hcores, hcredit⟩ := s.takeCredit_spec c
  have hev : evCore (x.written (s.core c)).ev = c := hx.symm
  obtain ⟨hflight, hsent, hmem, hsectors, hring⟩ := State.ringEvent_spec (s := s.takeCredit c) (fn := x.fn) (step := step)
    (hev.symm ▸ hc) (hev.symm ▸ hn)
  have hwrite : t = { ((s.takeCredit c).ringEvent x.fn step (x.written (s.core c))).scaleRow x step with
      expand := (((s.takeCredit c).ringEvent x.fn step (x.written (s.core c))).scaleRow x step).expand.erase x } := by
    rw [ht, hx]
    rfl
  generalize (s.takeCredit c).ringEvent x.fn step (x.written (s.core c)) = r at *
  obtain ⟨hscaled, hscaledCores, hscale⟩ := r.scaleRow_spec hx step
  generalize r.scaleRow x step = v at *
  have hrcore : r.core = (s.takeCredit c).core := hring.core_fun (by decide)
  have hfinal : State.KeepsBut [.expand] v t := hwrite ▸ (State.keepsBut_withExpand (by decide) _).mpr .refl
  have hcoreT : t.core = v.core := hfinal.core_fun (by decide)
  have hsectorV : v.sector = r.sector := hscale.sector_fun (by decide)
  have hsectorT : t.sector = v.sector := hfinal.sector_fun (by decide)
  have hsectorC : (s.takeCredit c).sector = s.sector := hcredit.sector_fun (by decide)
  have hrfnT : t.rfn = r.rfn := (hfinal.rfn_fun (by decide)).trans (hscale.rfn_fun (by decide))
  have hrfnC : (s.takeCredit c).rfn = s.rfn := hcredit.rfn_fun (by decide)
  have hkeeps : State.KeepsBut [.cores, .sectors, .rfns, .expand] s t :=
    ((hcredit.mono (by decide)).trans (hring.mono (by decide))).trans ((hscale.mono (by decide)).trans (hfinal.mono (by decide)))
  rw [hsectorC] at hflight hmem
  rw [hrcore, hcore] at hscaled
  refine ⟨?_, fun m hm => ?_, ?_, fun hne => ?_, ?_, ⟨?_, fun m => ?_⟩, fun d hd => ?_, fun m hm => ?_, hkeeps⟩
  · have hexpand : v.expand = s.expand := 
      (hscale.expand_eq (by decide)).trans ((hring.expand_eq (by decide)).trans (hcredit.expand_eq (by decide)))
    rw [hwrite, ← hexpand]
  · have hport : evPort (x.written (s.core c)) = n := by rw [evPort, hev, if_pos hc, hn]
    rw [hsectorT, hsectorV, hflight]
    by_cases hmn : m = n
    · subst hmn
      simp [hport, EvItem.atPort]
    · simp [hmn, hport, Ne.symm hmn]
  · rw [hcoreT, hscaled.1]
  · rw [hcoreT]
    exact hscaled.2 hne
  · rw [hrfnT, hsent, hrfnC]
  · rw [hkeeps.gddr_eq (by decide)]
  · rw [hsectorT, hsectorV, hmem]
  · rw [hcoreT, hscaledCores d hd, hrcore, hcores d hd]
  · rw [hsectorT, hsectorV, hsectors m hm, hsectorC]

/-! ### The whole instruction -/

section Expansion

variable {n : SectorId} {v : State} {x : Expansion} {rest : List Expansion} {c step : Nat}
  (hv : v = (match s.homeNet with | some k => s.tokenStep k | none => s)) (hexpand : v.expand = x :: rest)
  (hrest : ∀ y ∈ rest, sectorOf (evCore y.item.ev) ≠ n.val)

include hv

/-- The token step that comes first keeps memory, cores and sectors. -/
theorem tokenStepped_keeps : State.KeepsBut [.binds, .flows, .expand, .errTok, .tok] s v := by
  subst hv
  cases s.homeNet with
  | none => exact .refl
  | some k => exact (s.tokenStep_keeps k).2

include hexpand hrest

/-- The only event for the sector is tried, and the others stay as they are. -/
theorem exec_tokenExpansion : exec (.tokenExpansion n) s = .next (v.expandOne n.val x) := by
  have hskip (u : State) : rest.foldl (fun u y => u.expandOne n.val y) u = u :=
    State.expandOne_others hrest u
  have hexec : exec (.tokenExpansion n) s = .next (v.expand.foldl (fun u y => u.expandOne n.val y) v) := by
    subst hv
    rfl
  rw [hexec, hexpand, List.foldl_cons, hskip]

variable (hx : c = evCore x.item.ev) (hn : sectorOf c = n.val) (hc : c < 128) (hstep : step = v.ringStep x.net)

include hx hn hc hstep

theorem tokenExpansion_writes (hcredit : (v.core c).credit = 0 ∨ (v.core c).freeCredit ≠ 0)
    (hroom : v.linkRoom n.val 3 (.event x.item) = true) :
    ∃ t, exec (.tokenExpansion n) s = .next t ∧ t.expand = rest ∧
      v.Injects t step [{ x.item with token := x.item.token && (v.core c).credit != 0 }] ∧
      (t.core c).creditUsed = (v.core c).creditUsed + (if (v.core c).credit = 0 then 0 else 1) ∧
      (evType x.item.ev ≠ 4 → Tab.get (if (v.core c).step = step ∧ ((v.core c).phase = 1 ∨ (v.core c).phase = 2) then (t.core c).tokT
        else (t.core c).tokTAhead) (f32One, f32One) (evRow x.item.ev) = (x.t, x.tOut)) ∧
      Tab.get (t.rfn x.fn).sent 0 (step % 4) = Tab.get (v.rfn x.fn).sent 0 (step % 4) + 1 ∧
      s.SameBytes t ∧ State.CoresBut [c] s t ∧ State.SectorsBut [n.val] s t ∧
      State.KeepsBut [.cores, .sectors, .rfns, .expand] v t := by
  have hexec := exec_tokenExpansion hv hexpand hrest
  have hkeeps := tokenStepped_keeps hv
  have hcore : v.core = s.core := hkeeps.core_fun (by decide)
  have hsector : v.sector = s.sector := hkeeps.sector_fun (by decide)
  subst hx hstep
  rw [State.expandOne_writes hn hc hcredit hroom] at hexec
  obtain ⟨hrestLeft, hinjects, hused, hscale, hsent, ⟨hgddr, hmem⟩, hcores, hsectors, hbesides⟩ :=
    State.writeExpansion_spec (s := v) rfl hn hc rfl
  refine ⟨_, hexec, ?_, hinjects, hused, hscale, hsent, ⟨?_, fun m => ?_⟩, fun d hd => ?_, fun m hm => ?_, hbesides⟩
  · rw [hrestLeft, hexpand, List.erase_cons_head]
  · rw [hgddr, hkeeps.gddr_eq (by decide)]
  · rw [hmem, hsector]
  · rw [hcores d hd, hcore]
  · rw [hsectors m hm, hsector]

omit hc hstep in
theorem tokenExpansion_waits (h : (v.core c).credit ≠ 0 ∧ (v.core c).freeCredit = 0 ∨
    v.linkRoom n.val 3 (.event x.item) = false) : exec (.tokenExpansion n) s = .next v := by
  subst hx
  rw [exec_tokenExpansion hv hexpand hrest, State.expandOne_waits h]

end Expansion

end Sys2Proof.Machine
end

section
/-! SUPPORT. TOKEN_DISPATCH_BUILD (08 R191 to R196, R199, R215): the slots of a window sent on the flows that the directory chooses, the
combiners that wait for them, and the CLOSE messages. -/

namespace Sys2Proof.Machine

variable {s : State}

/-! ### The directory -/

/-- A pair added where no pair of its first part is listed. -/
def addFirst (l : List (Nat × Nat)) (x : Nat × Nat) : List (Nat × Nat) := if l.any fun y => y.1 == x.1 then l else l ++ [x]

theorem mem_addFirst {l : List (Nat × Nat)} {x : Nat × Nat} {a : Nat} :
    a ∈ (addFirst l x).map Prod.fst ↔ a ∈ l.map Prod.fst ∨ a = x.1 := by
  unfold addFirst
  split
  · next h =>
    obtain ⟨y, hy, hyx⟩ := List.any_eq_true.mp h
    have hx : x.1 ∈ l.map Prod.fst := List.mem_map.mpr ⟨y, hy, by simpa using hyx⟩
    exact ⟨.inl, fun h => h.elim id fun h => h ▸ hx⟩
  · simp

theorem addFirst_nodup {l : List (Nat × Nat)} {x : Nat × Nat} (h : (l.map Prod.fst).Nodup) :
    ((addFirst l x).map Prod.fst).Nodup := by
  unfold addFirst
  split
  · exact h
  · next hnew =>
    rw [List.map_append, List.nodup_append]
    refine ⟨h, List.nodup_singleton _, fun a ha b hb hab => hnew ?_⟩
    obtain ⟨y, hy, rfl⟩ := List.mem_map.mp ha
    exact List.any_eq_true.mpr ⟨y, hy, by simpa using hab.trans (List.mem_singleton.mp hb)⟩

theorem mem_foldl_addFirst {l acc : List (Nat × Nat)} {a : Nat} :
    a ∈ (l.foldl addFirst acc).map Prod.fst ↔ a ∈ acc.map Prod.fst ∨ a ∈ l.map Prod.fst := by
  induction l generalizing acc with
  | nil => simp
  | cons x l ih => rw [List.foldl_cons, ih, mem_addFirst, List.map_cons, List.mem_cons, or_assoc]

theorem foldl_addFirst_nodup {l acc : List (Nat × Nat)} (h : (acc.map Prod.fst).Nodup) : ((l.foldl addFirst acc).map Prod.fst).Nodup := by
  induction l generalizing acc with
  | nil => exact h
  | cons x l ih => exact ih (addFirst_nodup h)

theorem PackSt.flowsUsed_eq (k : PackSt) :
    k.flowsUsed = (k.dir.flatMap fun e => e.2.2.map fun f => (f, e.2.1)).foldl addFirst [] := rfl

/-- A packer lists each of its flows once. -/
theorem PackSt.flowsUsed_nodup (k : PackSt) : (k.flowsUsed.map Prod.fst).Nodup := foldl_addFirst_nodup List.nodup_nil

/-- An entry of a table that is not the default is listed. -/
theorem Tab.mem_of_get {α : Type} {t : Tab α} {d v : α} {k : Nat} (h : Tab.get t d k = v) (hv : v ≠ d) : (k, v) ∈ t := by
  induction t with
  | nil => exact absurd h.symm hv
  | cons e t ih =>
    obtain ⟨i, w⟩ := e
    rw [Tab.get] at h
    split at h
    · next hik =>
      rw [hik, h]
      exact List.mem_cons_self
    · exact List.mem_cons_of_mem _ (ih h)

/-- The flow on which a token for the expert at a position goes: the replica that the sequence ID chooses (R193). -/
def PackSt.route (k : PackSt) (pos : Nat) : Option Nat :=
  (Tab.get k.dir (0, []) pos).2[k.seq % max 1 (Tab.get k.dir (0, []) pos).2.length]?

theorem PackSt.route_flowsUsed {k : PackSt} {pos f : Nat} (h : k.route pos = some f) : f ∈ k.flowsUsed.map Prod.fst := by
  have hf : f ∈ (Tab.get k.dir (0, []) pos).2 := List.mem_of_getElem? h
  have hlisted : (pos, Tab.get k.dir (0, []) pos) ∈ k.dir := Tab.mem_of_get rfl fun hd => by simp [hd] at hf
  rw [PackSt.flowsUsed_eq, mem_foldl_addFirst]
  refine .inr (List.mem_map.mpr ⟨(f, (Tab.get k.dir (0, []) pos).1), List.mem_flatMap.mpr ⟨_, hlisted, ?_⟩, rfl⟩)
  exact List.mem_map.mpr ⟨f, hf, rfl⟩

/-! ### Slots -/

/-- The packet of slot i that dispatch packer state k sends in window w. -/
def PackSt.slotToken (k : PackSt) (w : Nat) (body : Token) (i pos : Nat) : Token :=
  { body with kind := kindDispatch, slot := i, expert := (Tab.get k.dir (0, []) pos).1, seq := k.seq, window := w }

/-- What a combiner waits for in slot i: its token, where the directory has a flow for it. -/
def PackSt.slotState (k : PackSt) (slot : Nat × Word32) : SlotSt :=
  { st := if k.route slot.1 = none then 2 else 0, gate := slot.2, flow := (k.route slot.1).getD 0, pos := slot.1 }

/-- The token of a slot sent, where the directory has a flow for it. -/
def State.sendSlot (s : State) (p w : Nat) (body : Token) (sl : List (Nat × Word32)) (i : Nat) : State :=
  match (s.dp p).route (sl.getD i (0, 0)).1 with
  | none => s
  | some f => s.sendToken p f ((s.dp p).slotToken w body i (sl.getD i (0, 0)).1) 0 0

theorem State.dispatchSlot_eq (p w : Nat) (body : Token) (sl : List (Nat × Word32)) (i : Nat) :
    s.dispatchSlot p w body i (sl.getD i (0, 0)) = (s.sendSlot p w body sl i, (s.dp p).slotState (sl.getD i (0, 0))) := by
  unfold State.dispatchSlot State.sendSlot PackSt.slotState
  dsimp only
  cases h : (s.dp p).route (sl.getD i (0, 0)).1 with
  | none =>
    unfold PackSt.route at h
    rw [h]
    rfl
  | some f =>
    unfold PackSt.route at h
    rw [h]
    rfl

theorem State.sendSlot_keeps (p w : Nat) (body : Token) (sl : List (Nat × Word32)) (i : Nat) :
    State.KeepsBut [.flows, .ctr] s (s.sendSlot p w body sl i) := by
  unfold State.sendSlot
  split
  · exact .refl
  · exact State.sendToken_frame.2

theorem State.sendSlot_dp (p w : Nat) (body : Token) (sl : List (Nat × Word32)) (i : Nat) :
    (s.sendSlot p w body sl i).dp = s.dp := funext fun d => by
  rw [(State.sendSlot_keeps p w body sl i).dp_fun (by decide)]

theorem State.sendSlot_other {p w i f : Nat} {body : Token} {sl : List (Nat × Word32)}
    (h : (s.dp p).route (sl.getD i (0, 0)).1 ≠ some f) : (s.sendSlot p w body sl i).flow f = s.flow f := by
  unfold State.sendSlot
  split
  · rfl
  · next g hg =>
    refine State.sendToken_frame.1 f (List.mem_singleton.not.mpr fun hfg => h ?_)
    rw [hg, hfg]

/-- A flow context to which packer place `sub` has sent a DISPATCH or RETURN token. -/
def FlowSt.sent (x : FlowSt) (t : Token) (sub : Nat) : FlowSt :=
  (x.mirrored t.seq t.codes).offered (t.msg (t.asDelta (CodeCache.find x.mirror t.seq)) (CodeCache.find x.mirror t.seq) sub 0 0)

theorem State.sendSlot_self {p w i f : Nat} {body : Token} {sl : List (Nat × Word32)}
    (h : (s.dp p).route (sl.getD i (0, 0)).1 = some f) : (s.sendSlot p w body sl i).flow f =
      (s.flow f).sent ((s.dp p).slotToken w body i (sl.getD i (0, 0)).1) p := by
  unfold State.sendSlot
  rw [h]
  exact State.sendToken_cached (.inl rfl)

/-- The slots sent one by one, with what the combiners wait for. -/
theorem foldl_dispatchSlot (p w : Nat) (body : Token) (sl : List (Nat × Word32)) (l : List Nat) (s : State) (acc : List SlotSt) :
    l.foldl (fun (r : State × List SlotSt) i =>
      let d := r.1.dispatchSlot p w body i (sl.getD i (0, 0))
      (d.1, r.2 ++ [d.2])) (s, acc) =
    (l.foldl (fun u i => u.sendSlot p w body sl i) s, acc ++ l.map fun i => (s.dp p).slotState (sl.getD i (0, 0))) := by
  induction l generalizing s acc with
  | nil => simp
  | cons i l ih =>
    rw [List.foldl_cons, List.foldl_cons, List.map_cons]
    dsimp only
    rw [State.dispatchSlot_eq, ih, State.sendSlot_dp, List.append_assoc]
    rfl

section Slots

variable {p w f : Nat} {body : Token} {sl : List (Nat × Word32)} {l : List Nat}

theorem State.sendSlots_keeps : State.KeepsBut [.flows, .ctr] s (l.foldl (fun u i => u.sendSlot p w body sl i) s) :=
  .foldl (fun u i => u.sendSlot_keeps p w body sl i) _ _

/-- A flow for which no slot has a token is left alone. -/
theorem State.sendSlots_other (h : ∀ i ∈ l, (s.dp p).route (sl.getD i (0, 0)).1 ≠ some f) :
    (l.foldl (fun u i => u.sendSlot p w body sl i) s).flow f = s.flow f := by
  induction l generalizing s with
  | nil => rfl
  | cons i l ih =>
    rw [List.foldl_cons, ih, State.sendSlot_other (h i List.mem_cons_self)]
    rw [State.sendSlot_dp]
    exact fun j hj => h j (List.mem_cons_of_mem _ hj)

/-- A flow for which one slot has a token is sent that token. -/
theorem State.sendSlots_once {i : Nat} (hi : i ∈ l) (hl : l.Nodup) (hroute : (s.dp p).route (sl.getD i (0, 0)).1 = some f)
    (honly : ∀ j ∈ l, j ≠ i → (s.dp p).route (sl.getD j (0, 0)).1 ≠ some f) :
    (l.foldl (fun u i => u.sendSlot p w body sl i) s).flow f =
      (s.flow f).sent ((s.dp p).slotToken w body i (sl.getD i (0, 0)).1) p := by
  induction l generalizing s with
  | nil => exact absurd hi List.not_mem_nil
  | cons j l ih =>
    obtain ⟨hj, hl⟩ := List.nodup_cons.mp hl
    rw [List.foldl_cons]
    rcases List.mem_cons.mp hi with rfl | hi
    · rw [State.sendSlots_other, State.sendSlot_self hroute]
      rw [State.sendSlot_dp]
      exact fun m hm => honly m (List.mem_cons_of_mem _ hm) fun h => hj (h ▸ hm)
    · have hji : j ≠ i := fun h => hj (h ▸ hi)
      rw [ih hi hl (by rw [State.sendSlot_dp, hroute]) fun m hm => by
        rw [State.sendSlot_dp]
        exact honly m (List.mem_cons_of_mem _ hm), State.sendSlot_dp, State.sendSlot_other (honly j List.mem_cons_self hji)]

end Slots

/-! ### CLOSE messages -/

/-- Every packer of packer p's network that uses flow f has built the step (R199). -/
def State.closing (s : State) (p step f : Nat) : Bool :=
  !((upTo 16).any fun d => d != p && (s.dp d).valid && (s.dp d).net == (s.dp p).net && decide ((s.dp d).built ≤ step) &&
    (s.dp d).flowsUsed.any fun g => g.1 == f)

/-- The CLOSE packet of a window on a flow, for the expert first named on it. -/
def closeToken (step expert : Nat) : Token := { kind := kindClose, expert := expert, window := step % 2 ^ 32, seq := 0, tscale := 0 }

/-- A flow closed for a step, where every packer that uses it has built the step. -/
def State.sendClose (p step : Nat) (s : State) (f : Nat × Nat) : State :=
  if s.closing p step f.1 then s.sendToken p f.1 (closeToken step f.2) 0 0 else s

theorem State.sendClose_keeps (p step : Nat) (f : Nat × Nat) : State.FlowsBut [f.1] s (s.sendClose p step f) ∧
    State.KeepsBut [.flows, .ctr] s (s.sendClose p step f) := by
  unfold State.sendClose
  split
  · exact State.sendToken_frame
  · exact ⟨fun _ _ => rfl, .refl⟩

theorem State.sendClose_dp (p step : Nat) (f : Nat × Nat) : (s.sendClose p step f).dp = s.dp := funext fun d => by
  rw [(State.sendClose_keeps p step f).2.dp_fun (by decide)]

theorem State.closing_congr {t : State} (h : t.dp = s.dp) : t.closing = s.closing := by
  unfold State.closing
  rw [h]

theorem State.sendCloses_eq (p step : Nat) : s.sendCloses p step = (s.dp p).flowsUsed.foldl (State.sendClose p step) s := by
  suffices h : ∀ (l : List (Nat × Nat)) (u : State), u.dp = s.dp → l.foldl (fun s' f =>
      if (upTo 16).any fun d => d != p && (s'.dp d).valid && (s'.dp d).net == (s.dp p).net && (s'.dp d).built ≤ step
        && (s'.dp d).flowsUsed.any fun g => g.1 == f.1
      then s' else s'.sendToken p f.1 (closeToken step f.2) 0 0) u = l.foldl (State.sendClose p step) u from h _ s rfl
  intro l u hu
  induction l generalizing u with
  | nil => rfl
  | cons f l ih =>
    rw [List.foldl_cons, List.foldl_cons, ← ih _ ((State.sendClose_dp p step f).trans hu)]
    congr 1
    unfold State.sendClose State.closing
    rw [hu]
    generalize (upTo 16).any _ = wait
    cases wait <;> rfl

/-- A message's kind and body, as they stand in a flow's source queue. -/
def Msg.packet (m : Msg) : Nat × List Byte := (m.kind, m.body)

theorem closeToken_bytes {step e : Nat} (base : List Int) : ({ closeToken step e with delta := false } : Token).bytes base =
    ({ kind := kindClose, window := step % 2 ^ 32, expert := e } : Token).bytes [] := rfl

theorem State.sendClose_srcQ (p step : Nat) (f : Nat × Nat) : ((s.sendClose p step f).flow f.1).srcQ.map Msg.packet =
    ((s.flow f.1).srcQ.map Msg.packet) ++ if s.closing p step f.1 then
      [(2, ({ kind := kindClose, window := step % 2 ^ 32, expert := f.2 } : Token).bytes [])] else [] := by
  unfold State.sendClose
  split
  · rw [State.sendToken_plain (.inr rfl)]
    simp only [FlowSt.offered, List.map_append, List.map_cons, List.map_nil]
    rfl
  · simp

/-- The flows of a list closed, each once. -/
theorem foldl_sendClose {p step : Nat} {l : List (Nat × Nat)} (hl : (l.map Prod.fst).Nodup) (s : State) :
    (∀ x e, (x, e) ∈ l → ((l.foldl (State.sendClose p step) s).flow x).srcQ.map Msg.packet =
      ((s.flow x).srcQ.map Msg.packet) ++ if s.closing p step x then
        [(2, ({ kind := kindClose, window := step % 2 ^ 32, expert := e } : Token).bytes [])] else []) ∧
    State.FlowsBut (l.map Prod.fst) s (l.foldl (State.sendClose p step) s) ∧
    State.KeepsBut [.flows, .ctr] s (l.foldl (State.sendClose p step) s) := by
  induction l generalizing s with
  | nil => exact ⟨fun x e h => absurd h List.not_mem_nil, fun _ _ => rfl, .refl⟩
  | cons f l ih =>
    obtain ⟨hf, hl⟩ := List.nodup_cons.mp hl
    obtain ⟨hsent, hothers, hkeeps⟩ := ih hl (s.sendClose p step f)
    obtain ⟨hflows, hfirst⟩ := s.sendClose_keeps p step f
    rw [State.closing_congr (State.sendClose_dp p step f)] at hsent
    rw [List.foldl_cons]
    refine ⟨fun x e hx => ?_, fun g hg => ?_, hfirst.trans hkeeps⟩
    · rcases List.mem_cons.mp hx with rfl | hx
      · rw [hothers x hf]
        exact s.sendClose_srcQ p step (x, e)
      · have hxf : x ≠ f.1 := fun h => hf (h ▸ List.mem_map_of_mem (f := Prod.fst) hx)
        rw [hsent x e hx, hflows x (List.mem_singleton.not.mpr hxf)]
    · rw [List.map_cons, List.mem_cons, not_or] at hg
      rw [hothers g hg.2, hflows g (List.mem_singleton.not.mpr hg.1)]

/-- Each flow of the packer is closed once, where it can be; no other flow changes. -/
theorem State.sendCloses_spec (p step : Nat) :
    (∀ x e, (x, e) ∈ (s.dp p).flowsUsed → ((s.sendCloses p step).flow x).srcQ.map Msg.packet =
      ((s.flow x).srcQ.map Msg.packet) ++ if s.closing p step x then
        [(2, ({ kind := kindClose, window := step % 2 ^ 32, expert := e } : Token).bytes [])] else []) ∧
    State.FlowsBut ((s.dp p).flowsUsed.map Prod.fst) s (s.sendCloses p step) ∧
    State.KeepsBut [.flows, .ctr] s (s.sendCloses p step) := by
  rw [State.sendCloses_eq]
  exact foldl_sendClose (s.dp p).flowsUsed_nodup s

end Sys2Proof.Machine
end

section
/-! SUPPORT. TOKEN_DISPATCH_BUILD (08 R193, R199), continued: the whole window. -/

namespace Sys2Proof.Machine

variable {s : State}

/-! ### The slots of a window -/

/-- The slots of a forward step sent, and what the combiners wait for. -/
def State.sendWindow (s : State) (p w : Nat) (sl : List (Nat × Word32) × Bool) (nb : Token × Nat × Nat) : State × List SlotSt :=
  if sl.2 then (s.countDev Ctr.tokenRouterNan p, sl.1.map fun x => { st := 2, gate := x.2, pos := x.1 })
  else if sl.1.isEmpty then (s, [])
  else
    let s := (s.countDev Ctr.convSat (fnDispatch p) nb.2.1).countDev Ctr.convNan (fnDispatch p) nb.2.2
    (upTo sl.1.length).foldl (fun (r : State × List SlotSt) i =>
      let d := r.1.dispatchSlot p w nb.1 i (sl.1.getD i (0, 0))
      (d.1, r.2 ++ [d.2])) (s, [])

theorem map_upTo_getD {α β : Type} (l : List α) (d : α) (g : α → β) : (upTo l.length).map (fun i => g (l.getD i d)) = l.map g := by
  apply List.ext_getElem
  · simp [upTo]
  · intro i hi _
    simp [upTo] at hi ⊢
    simp [hi]

section Window

variable {p w : Nat} {sl : List (Nat × Word32) × Bool} {nb : Token × Nat × Nat}

theorem State.sendWindow_keeps : State.KeepsBut [.flows, .ctr] s (s.sendWindow p w sl nb).1 := by
  unfold State.sendWindow
  split
  · simp
  · split
    · exact .refl
    · rw [foldl_dispatchSlot]
      exact State.KeepsBut.trans (by simp) State.sendSlots_keeps

/-- What the combiners wait for, slot by slot. -/
theorem State.sendWindow_slots : (s.sendWindow p w sl nb).2 = (upTo sl.1.length).map fun i =>
    if sl.2 then { st := 2, gate := (sl.1.getD i (0, 0)).2, pos := (sl.1.getD i (0, 0)).1 }
    else (s.dp p).slotState (sl.1.getD i (0, 0)) := by
  unfold State.sendWindow
  split
  · exact (map_upTo_getD sl.1 (0, 0) fun x : Nat × Word32 => ({ st := 2, gate := x.2, pos := x.1 } : SlotSt)).symm
  · split
    · next hnone => simp [List.isEmpty_iff.mp hnone, upTo]
    · rw [foldl_dispatchSlot]
      simp

/-- A flow for which no slot has a token is left alone. -/
theorem State.sendWindow_other {f : Nat}
    (h : sl.2 = true ∨ ∀ i, i < sl.1.length → (s.dp p).route (sl.1.getD i (0, 0)).1 ≠ some f) :
    (s.sendWindow p w sl nb).1.flow f = s.flow f := by
  unfold State.sendWindow
  split
  · rw [State.countDev_flow]
  · next hnan =>
    split
    · rfl
    · rw [foldl_dispatchSlot]
      dsimp only
      rw [State.sendSlots_other, State.countDev_flow, State.countDev_flow]
      intro i hi
      simpa using h.resolve_left hnan i (mem_upTo.mp hi)

/-- A flow for which one slot has a token is sent that token. -/
theorem State.sendWindow_once {i f : Nat} (hnan : sl.2 = false) (hi : i < sl.1.length)
    (hroute : (s.dp p).route (sl.1.getD i (0, 0)).1 = some f)
    (honly : ∀ j, j < sl.1.length → j ≠ i → (s.dp p).route (sl.1.getD j (0, 0)).1 ≠ some f) :
    (s.sendWindow p w sl nb).1.flow f = (s.flow f).sent ((s.dp p).slotToken w nb.1 i (sl.1.getD i (0, 0)).1) p := by
  have hsome : ¬ sl.1.isEmpty = true := by
    rw [List.isEmpty_iff]
    intro h
    simp [h] at hi
  unfold State.sendWindow
  rw [if_neg (by simp [hnan]), if_neg hsome, foldl_dispatchSlot]
  dsimp only
  rw [State.sendSlots_once (mem_upTo.mpr hi) (upTo_nodup _) (by simpa using hroute)
    fun j hj hji => by simpa using honly j (mem_upTo.mp hj) hji]
  simp

end Window

/-! ### The combiners -/

/-- A window that the combiners of a list wait for. -/
def State.awaitWindow (s : State) (l : List Nat) (win : PendWin) : State :=
  l.foldl (fun u m => u.modComb m fun c => { c with wins := c.wins ++ [win] }) s

theorem State.awaitWindow_spec {l : List Nat} (hl : l.Nodup) (win : PendWin) :
    (∀ m ∈ l, ((s.awaitWindow l win).comb m).wins = (s.comb m).wins ++ [win]) ∧ State.KeepsBut [.combs] s (s.awaitWindow l win) := by
  refine ⟨fun m hm => ?_, .foldl (fun u m => by simp) _ _⟩
  unfold State.awaitWindow
  rw [foldl_each State.comb (fun _ => ()) (fun _ _ c => { c with wins := c.wins ++ [win] }) (fun u m => State.comb_modComb_self ..)
    (fun u m c hc => State.comb_modComb_ne _ _ _ _ hc) (fun _ _ => rfl) hl s m, if_pos hm]

/-- A window built: in a forward step its slots are sent, and the packer's combiners wait for them. -/
def State.buildWindow (s : State) (p w : Nat) (sl : List (Nat × Word32) × Bool) (nb : Token × Nat × Nat) (backward : Bool)
    (seq pos : Nat) : State :=
  if backward then s
  else
    let r := s.sendWindow p w sl nb
    r.1.awaitWindow (s.combsOf p) { window := w, seq := seq, slots := r.2, pos := pos }

theorem State.buildWindow_backward {p w seq pos : Nat} {sl : List (Nat × Word32) × Bool} {nb : Token × Nat × Nat} :
    s.buildWindow p w sl nb true seq pos = s := rfl

theorem State.buildWindow_forward (p w seq pos : Nat) (sl : List (Nat × Word32) × Bool) (nb : Token × Nat × Nat) :
    (s.buildWindow p w sl nb false seq pos).flow = (s.sendWindow p w sl nb).1.flow ∧
      (∀ m ∈ s.combsOf p, ((s.buildWindow p w sl nb false seq pos).comb m).wins =
        (s.comb m).wins ++ [{ window := w, seq := seq, slots := (s.sendWindow p w sl nb).2, pos := pos }]) ∧
      State.KeepsBut [.flows, .combs, .ctr] s (s.buildWindow p w sl nb false seq pos) := by
  have hsent := s.sendWindow_keeps (p := p) (w := w) (sl := sl) (nb := nb)
  have hcomb : (s.sendWindow p w sl nb).1.comb = s.comb := hsent.comb_fun (by decide)
  have hnodup : (s.combsOf p).Nodup := (upTo_nodup 16).filter _
  obtain ⟨hwins, hkeeps⟩ := (s.sendWindow p w sl nb).1.awaitWindow_spec hnodup
    { window := w, seq := seq, slots := (s.sendWindow p w sl nb).2, pos := pos }
  rw [hcomb] at hwins
  exact ⟨funext fun f => by rw [State.flow, State.flow, ← hkeeps.flows_eq (by decide)]; rfl, hwins,
    (hsent.mono (by decide)).trans (hkeeps.mono (by decide))⟩

/-! ### The whole instruction -/

/-- A dispatch packer that has built a step: its sums and winners of the tag are spent. -/
def PackSt.spent (k : PackSt) (step tag : Nat) : PackSt :=
  { k with
    built := step + 1, sums := Tab.restrict k.sums fun a => a / 4096 != tag
    winners := k.winners.filter fun x => x.1 != tag }

section Build

variable {p : Fin 16} {k : PackSt} {n : NetSt} {tag w : Nat} {sl : List (Nat × Word32) × Bool}
  (hk : k = s.dp p.val) (hn : n = s.net k.net) (hvalid : k.valid = true) (hrun : n.running = true) (hstep : n.step ≠ 0)
  (hbuilt : k.built ≤ n.step) (hdone : s.emitDone k.net = true) (hquiet : s.ringQuiet (fnDispatch p.val) = true)
  (hrouter : s.ringQuiet (fnRouter p.val) = true) (hfree : ∀ f ∈ k.flowsUsed, s.srcFree f.1 = true) (htag : tag = n.step % 4)
  (hw : w = n.step % 2 ^ 32) (hsl : sl = k.slotsOf tag)

include hk hn hvalid hrun hstep hbuilt hdone hquiet hrouter hfree htag hw hsl

theorem exec_tokenDispatchBuild {u v : State} (hu : u = s.modDp p.val (·.spent n.step tag))
    (hv : v = u.buildWindow p.val w sl (narrowToken k.zpm k.outl (k.values tag)) n.backward k.seq n.pos) :
    exec (.tokenDispatchBuild p) s = .next (v.sendCloses p.val n.step) := by
  have hgo : (!k.valid || !n.running || n.step = 0 || n.step < k.built || !s.emitDone k.net ||
      k.flowsUsed.any (fun f => !s.srcFree f.1) || !s.ringQuiet (fnDispatch p.val) || !s.ringQuiet (fnRouter p.val)) = false := by
    have hnone : (k.flowsUsed.any fun f => !s.srcFree f.1) = false := by
      rw [List.any_eq_false]
      exact fun f hf => by simp [hfree f hf]
    simp [hvalid, hrun, hstep, hdone, hquiet, hrouter, hnone, hbuilt]
  subst hk hn htag hw hsl hu hv
  change execTokenDispatchBuild p s = _
  unfold execTokenDispatchBuild
  dsimp only
  rw [if_neg (Bool.eq_false_iff.mp hgo)]
  split
  · next hback =>
    rw [hback]
    rfl
  · next hforward =>
    rw [Bool.eq_false_iff.mpr hforward]
    rfl

end Build

/-- The packer's own build leaves what decides whether a flow is closed. -/
theorem State.closing_spent {p step tag : Nat} {u : State} (hu : u = s.modDp p (·.spent step tag)) (f : Nat) :
    u.closing p step f = s.closing p step f := by
  subst hu
  have hdp (d : Nat) (hd : (d != p) = true) : (s.modDp p (·.spent step tag)).dp d = s.dp d :=
    State.dp_modDp_ne _ _ _ _ (by simpa using hd)
  have hnet : ((s.modDp p (·.spent step tag)).dp p).net = (s.dp p).net := by
    rw [State.dp_modDp_self]
    rfl
  unfold State.closing
  rw [hnet]
  congr 2
  funext d
  cases hd : d != p with
  | false => rfl
  | true => rw [hdp d hd]

/-- A flow is listed with the expert first named on it. -/
theorem PackSt.find_flowsUsed {k : PackSt} {x e : Nat} (h : (x, e) ∈ k.flowsUsed) :
    k.flowsUsed.find? (fun g => g.1 == x) = some (x, e) := by
  have hnodup := k.flowsUsed_nodup
  generalize k.flowsUsed = l at *
  induction l with
  | nil => exact absurd h List.not_mem_nil
  | cons g l ih =>
    obtain ⟨hg, hl⟩ := List.nodup_cons.mp hnodup
    rcases List.mem_cons.mp h with rfl | h
    · simp
    · have hgx : (g.1 == x) = false := by
        rw [beq_eq_false_iff_ne]
        exact fun hgx => hg (hgx ▸ List.mem_map_of_mem (f := Prod.fst) h)
      rw [List.find?_cons, hgx]
      exact ih h hl

section Built

variable {p : Fin 16} {k : PackSt} {n : NetSt} {tag w : Nat} {sl : List (Nat × Word32) × Bool} {body : Token}
  {dst : Nat → Option Nat} {closing : Nat → Bool} {close : Nat → List Byte}
  (hk : k = s.dp p.val) (hn : n = s.net k.net) (hvalid : k.valid = true) (hrun : n.running = true) (hstep : n.step ≠ 0)
  (hbuilt : k.built ≤ n.step) (hdone : s.emitDone k.net = true) (hquiet : s.ringQuiet (fnDispatch p.val) = true)
  (hrouter : s.ringQuiet (fnRouter p.val) = true) (hfree : ∀ f ∈ k.flowsUsed, s.srcFree f.1 = true) (htag : tag = n.step % 4)
  (hw : w = n.step % 2 ^ 32) (hsl : sl = k.slotsOf tag) (hbody : body = (narrowToken k.zpm k.outl (k.values tag)).1)
  (hdst : ∀ i, dst i = k.route (sl.1.getD i (0, 0)).1) (hclosing : ∀ f, closing f = s.closing p.val n.step f)
  (hclose : ∀ x e, k.flowsUsed.find? (fun g => g.1 == x) = some (x, e) →
    close x = ({ kind := kindClose, window := w, expert := e } : Token).bytes [])

include hk hn hvalid hrun hstep hbuilt hdone hquiet hrouter hfree htag hw hsl hbody hdst hclosing hclose

/-- A window is built: its slots are sent, its combiners wait, and its flows are closed. -/
theorem tokenDispatchBuild : ∃ t, exec (.tokenDispatchBuild p) s = .next t ∧
    t.dp p.val = { k with
      built := n.step + 1, sums := Tab.restrict k.sums fun a => a / 4096 != tag
      winners := k.winners.filter fun x => x.1 != tag } ∧
    (∀ f ∈ k.flowsUsed, n.backward = true ∨ sl.2 = true ∨ (∀ i, i < sl.1.length → dst i ≠ some f.1) →
      (t.flow f.1).srcQ.map (fun m => (m.kind, m.body)) = if closing f.1 then [(2, close f.1)] else []) ∧
    (n.backward = false → sl.2 = false →
      ∀ i f e base dl, i < sl.1.length → dst i = some f → (∀ j, j < sl.1.length → j ≠ i → dst j ≠ some f) →
        e = (Tab.get k.dir (0, []) (sl.1.getD i (0, 0)).1).1 → base = CodeCache.find (s.flow f).mirror k.seq →
        dl = body.asDelta base →
        (t.flow f).srcQ.map (fun m => (m.kind, m.body)) =
          (2, ({ body with
              kind := kindDispatch, slot := i, expert := e, seq := k.seq, window := w, delta := dl } : Token).bytes
            (base.getD [])) :: if closing f then [(2, close f)] else []) ∧
    (n.backward = false → ∀ m ∈ s.combsOf p.val, (t.comb m).wins = (s.comb m).wins ++
      [{ window := w, seq := k.seq, pos := n.pos
         slots := (upTo sl.1.length).map fun i =>
          { st := if sl.2 = true ∨ dst i = none then 2 else 0, gate := (sl.1.getD i (0, 0)).2, pos := (sl.1.getD i (0, 0)).1
            flow := if sl.2 then 0 else (dst i).getD 0 } }]) ∧
    (n.backward = true → t.combs = s.combs) ∧ State.FlowsBut (k.flowsUsed.map Prod.fst) s t ∧
    State.KeepsBut [.dpack, .flows, .combs, .ctr] s t := by
  have hexec := exec_tokenDispatchBuild hk hn hvalid hrun hstep hbuilt hdone hquiet hrouter hfree htag hw hsl rfl rfl
  generalize hu : s.modDp p.val (·.spent n.step tag) = u at hexec
  have hudp : u.dp p.val = k.spent n.step tag := by rw [← hu, State.dp_modDp_self, ← hk]
  have huflow : u.flow = s.flow := by rw [← hu]; simp
  have hucombs : u.combs = s.combs := by rw [← hu]; simp
  have hukeeps : State.KeepsBut [.dpack] s u := by rw [← hu]; simp
  have hroute (i : Nat) : (u.dp p.val).route (sl.1.getD i (0, 0)).1 = dst i := by
    rw [hudp, hdst]
    rfl
  have hclosingU (f : Nat) : u.closing p.val n.step f = closing f := by rw [State.closing_spent hu.symm, hclosing]
  have hv : ∃ v, v = u.buildWindow p.val w sl (narrowToken k.zpm k.outl (k.values tag)) n.backward k.seq n.pos := ⟨_, rfl⟩
  obtain ⟨v, hv⟩ := hv
  rw [← hv] at hexec
  have hother (f : Nat) (h : n.backward = true ∨ sl.2 = true ∨ ∀ i, i < sl.1.length → dst i ≠ some f) : v.flow f = s.flow f := by
    cases hback : n.backward with
    | true => rw [hv, hback, State.buildWindow_backward, huflow]
    | false =>
      rw [hv, hback, (State.buildWindow_forward ..).1, State.sendWindow_other, huflow]
      simpa only [hroute] using h.resolve_left (by simp [hback])
  have hkeeps : State.KeepsBut [.flows, .combs, .ctr] u v := by
    cases hback : n.backward with
    | true => rw [hv, hback, State.buildWindow_backward]; exact .refl
    | false => rw [hv, hback]; exact (State.buildWindow_forward ..).2.2
  have hvdp : v.dp = u.dp := hkeeps.dp_fun (by decide)
  have hflows : (v.dp p.val).flowsUsed = k.flowsUsed := by rw [hvdp, hudp]; rfl
  obtain ⟨hclosed, hothers, hend⟩ := v.sendCloses_spec p.val n.step
  rw [hflows] at hclosed hothers
  rw [State.closing_congr hvdp] at hclosed
  have hempty (f : Nat × Nat) (hf : f ∈ k.flowsUsed) : (s.flow f.1).srcQ = [] := by simpa [State.srcFree] using hfree f hf
  have hcloseOf (x e : Nat) (hx : (x, e) ∈ k.flowsUsed) := hclose x e (PackSt.find_flowsUsed hx)
  refine ⟨_, hexec, ?_, fun f hf hnone => ?_, fun hforward hnan i f e base dl hi hf honly he hbase hdl => ?_,
    fun hforward m hm => ?_, fun hback => ?_, fun g hg => ?_, ?_⟩
  · rw [hend.dp_fun (by decide), hvdp, hudp]
    rfl
  · have hsent := hclosed f.1 f.2 hf
    rw [hother f.1 hnone, hempty f hf, hclosingU, ← hw, ← hcloseOf f.1 f.2 hf] at hsent
    exact hsent
  · have hused : f ∈ k.flowsUsed.map Prod.fst := PackSt.route_flowsUsed ((hdst i).symm.trans hf)
    obtain ⟨⟨x, e'⟩, hx, rfl⟩ := List.mem_map.mp hused
    have hsent := hclosed x e' hx
    have hslot : v.flow x = (s.flow x).sent (k.slotToken w body i (sl.1.getD i (0, 0)).1) p.val := by
      rw [hv, hforward, (State.buildWindow_forward ..).1, State.sendWindow_once hnan hi ((hroute i).trans hf)
        (fun j hj hji => by rw [hroute]; exact honly j hj hji), huflow, hudp, hbody]
      rfl
    rw [hslot, hclosingU, ← hw, ← hcloseOf x e' hx] at hsent
    refine Eq.trans hsent ?_
    simp only [FlowSt.sent, FlowSt.offered, FlowSt.mirrored, hempty _ hx, List.nil_append, List.map_cons, List.map_nil,
      List.singleton_append]
    subst he hbase hdl
    rfl
  · have hcombs : u.combsOf p.val = s.combsOf p.val := by rw [← hu]; rfl
    have hwins := (State.buildWindow_forward (s := u) p.val w k.seq n.pos sl (narrowToken k.zpm k.outl (k.values tag))).2.1 m
      (hcombs ▸ hm)
    have hcomb : u.comb m = s.comb m := by rw [State.comb, hucombs, State.comb]
    rw [hforward] at hv
    rw [← hv, State.sendWindow_slots, hcomb] at hwins
    rw [hend.comb_fun (by decide), hwins]
    refine congrArg (fun l => (s.comb m).wins ++ [{ window := w, seq := k.seq, slots := l, pos := n.pos }]) (List.map_congr_left fun i _ => ?_)
    cases hnan : sl.2 with
    | true => simp
    | false => simp only [PackSt.slotState, hroute, Bool.false_eq_true, false_or, if_false]
  · rw [hend.combs_eq (by decide), hv, hback, State.buildWindow_backward, hucombs]
  · refine (hothers g hg).trans (hother g (.inr (.inr fun i _ hi => hg ?_)))
    exact PackSt.route_flowsUsed ((hdst i).symm.trans hi)
  · exact (hukeeps.mono (by decide)).trans ((hkeeps.mono (by decide)).trans (hend.mono (by decide)))

end Built

end Sys2Proof.Machine
end

section
/-! PROOF. O47: tokens are built, expanded and received. -/

namespace Sys2Proof.Machine

/-- Settles O47: each instruction by its own lemma; the first window that a binding may decide is the one that its CLOSE messages or
its give-ups complete. -/
theorem tokensAreBuiltAndReceived : Obligations.TokensAreBuiltAndReceived := by
  unfold Obligations.TokensAreBuiltAndReceived
  refine ⟨?accept, ?build, ?expansion, ?held, ?dispatch, ?close, ?timeout⟩
  case accept => exact fun n s u fn src i e sc ok htake hi hok => packerEventAccept htake hi hok
  case build =>
    intro p s k n tag w sl body dst closing close hk hn hvalid hrun hstep hbuilt hdone hquiet hrouter hfree htag hw hsl hbody hdst
      hclosing hclose
    subst hk
    exact tokenDispatchBuild rfl hn hvalid hrun hstep hbuilt hdone hquiet hrouter hfree htag hw hsl hbody hdst hclosing hclose
  case expansion =>
    intro n s v x rest c step hv hexpand hrest hx hn hc hstep
    exact ⟨tokenExpansion_writes hv hexpand hrest hx hn hc hstep, tokenExpansion_waits hv hexpand hrest hx hn⟩
  case held => exact fun f s h => exec_tokenReceives_held h
  case dispatch =>
    intro f s u m p x ob hnext hx hob htakes
    refine ⟨exec_tokenDispatchReceive_full hnext, fun hroom => ⟨fun code => ?_, fun b codes => ?_⟩⟩
    · exact tokenDispatchReceive_refused hnext hx hob htakes hroom
    · exact tokenDispatchReceive_held hnext hx hob htakes hroom
  case close =>
    intro f s u m p w all hnext hw htakes hgood hbound hmine hall
    refine ⟨fun d => tokenCloseReceive_late hnext hw htakes hgood hbound hmine, fun hnew => ⟨?_, ?_⟩⟩
    · exact tokenCloseReceive_held hnext hw htakes hgood hbound hmine hnew
    · exact tokenCloseReceive_decided hnext hw htakes hgood hbound hmine hnew hall
  case timeout =>
    intro b s w x gone hx hwindow hvalid hgone
    refine ⟨fun hnone => ?_, fun hsome => ⟨?_, ?_⟩⟩
    · rw [exec_tokenWindowTimeout hx hwindow hvalid hgone, if_pos hnone]
    · exact tokenWindowTimeout_open hx hwindow hvalid hgone hsome
    · exact tokenWindowTimeout_decided hx hwindow hvalid hgone hsome

end Sys2Proof.Machine
end

section
/-! SUPPORT. GDDR6 memory as requests find it (12 R305 to R309): ranges of bytes, stores, what a read finds, and the check of a block. -/

namespace Sys2Proof.Machine

variable {s : State}

/-! ### Ranges of bytes -/

theorem memRead_eq_map (m : Memory) (a n : Nat) : memRead m a n = (upTo n).map fun i => memByte m (a + i) := by
  induction n generalizing a with
  | zero => rfl
  | succ n ih =>
    rw [memRead, ih, upTo, upTo, List.range_succ_eq_map, List.map_cons, List.map_map]
    exact congrArg _ (List.map_congr_left fun i _ => congrArg (memByte m) (by show a + 1 + i = a + (i + 1); omega))

theorem memRead_congr {m m' : Memory} {a n : Nat} (h : ∀ x, a ≤ x → x < a + n → memByte m' x = memByte m x) :
    memRead m' a n = memRead m a n := by
  rw [memRead_eq_map, memRead_eq_map]
  refine List.map_congr_left fun i hi => h _ (Nat.le_add_right _ _) ?_
  have := mem_upTo.mp hi
  omega

theorem maskBytes_length (mask : Word64) (old data : List Byte) : (maskBytes mask old data).length = 64 := by simp [maskBytes, upTo]

/-! ### Stores -/

/-- A store changes no byte outside its range. -/
theorem GddrSt.store_outside (g : GddrSt) (a : Nat) (bytes : List Byte) {x : Nat} (h : x < a ∨ a + bytes.length ≤ x) :
    memByte (g.store a bytes).mem x = memByte g.mem x := by
  unfold GddrSt.store
  dsimp only
  split
  · rw [memByte_memWrite_outside, memByte_memWrite_outside]
    · rw [List.length_take]
      omega
    · rw [List.length_drop]
      omega
  · exact memByte_memWrite_outside _ _ _ _ h

/-- A store that does not touch the Reserved range stores all its bytes. -/
theorem GddrSt.store_plain (g : GddrSt) {a : Nat} {bytes : List Byte} (h : a + bytes.length ≤ 0x05200000 ∨ rtxBase ≤ a) :
    (g.store a bytes).mem = memWrite g.mem a bytes := by
  refine if_neg fun hmeets => ?_
  rw [Bool.and_eq_true, decide_eq_true_eq, decide_eq_true_eq] at hmeets
  omega

/-- A store within the Reserved range stores nothing (R309). -/
theorem GddrSt.store_reserved (g : GddrSt) {a : Nat} {bytes : List Byte} (hlo : 0x05200000 ≤ a) (hhi : a + bytes.length ≤ rtxBase) :
    (g.store a bytes).mem = g.mem := by
  unfold GddrSt.store
  dsimp only
  split
  · rw [Nat.sub_eq_zero_of_le hlo, List.take_zero, List.drop_of_length_le (by omega)]
    rfl
  · next hmeets =>
    have hempty : bytes = [] := by
      rw [Bool.and_eq_true, decide_eq_true_eq, decide_eq_true_eq] at hmeets
      exact List.eq_nil_of_length_eq_zero (by omega)
    rw [hempty]
    rfl

/-! ### What a read finds -/

/-- The waiting writes do not reach a range that they do not meet. -/
theorem GddrSt.settled_outside {g : GddrSt} {b : Nat} (h : ∀ o ∈ g.held, o.addr + 64 ≤ b ∨ b + 64 ≤ o.addr) :
    memRead g.settled.mem b 64 = memRead g.mem b 64 := by
  unfold GddrSt.settled
  generalize g.held = l at h
  induction l generalizing g with
  | nil => rfl
  | cons q l ih =>
    rw [List.foldl_cons, ih fun o ho => h o (List.mem_cons_of_mem _ ho)]
    cases q.op with
    | read => rfl
    | write mask data =>
      refine memRead_congr fun x hlo hhi => GddrSt.store_outside _ _ _ ?_
      rw [maskBytes_length]
      have := h q List.mem_cons_self
      omega

theorem State.gPeek_outside {b : Nat} (h : ∀ o ∈ s.gddr.held, o.addr + 64 ≤ b ∨ b + 64 ≤ o.addr) :
    s.gPeek b 64 = memRead s.gddr.mem b 64 := by
  unfold State.gPeek
  split
  · rfl
  · exact GddrSt.settled_outside h

/-- A block lies in one area of the firmware or in none. -/
theorem State.firmwareUsed_block {b i : Nat} (hb : b % 64 = 0) (hi : i < 64) (h : s.firmwareUsed b = false) :
    s.firmwareUsed (b + i) = false := by
  have harea : firmwareArea (b + i) = firmwareArea b := by
    have hlt (c : Nat) (hc : c % 64 = 0) : decide (b + i < c) = decide (b < c) := decide_eq_decide.mpr (by omega)
    have hle (c : Nat) (hc : c % 64 = 0) : decide (c ≤ b + i) = decide (c ≤ b) := decide_eq_decide.mpr (by omega)
    rw [firmwareArea, firmwareArea, hlt commitBase (by decide), hle faultLogBase (by decide), hlt 0x05200000 (by decide)]
  have hjournal : (b + i < journalBase) = (b < journalBase) := propext (by unfold journalBase; omega)
  have hcommit : (b + i < commitBase) = (b < commitBase) := propext (by unfold commitBase; omega)
  unfold State.firmwareUsed at h ⊢
  dsimp only at h ⊢
  simp only [harea, hjournal, hcommit]
  exact h

/-- A read of a block that no waiting request concerns and that the firmware has not used finds its bytes. -/
theorem State.gView_block {b : Nat} (hb : b % 64 = 0) (hheld : ∀ o ∈ s.gddr.held, o.addr + 64 ≤ b ∨ b + 64 ≤ o.addr)
    (hfirm : s.firmwareUsed b = false) : (s.gView b 64).1 = memRead s.gddr.mem b 64 := by
  unfold State.gView
  split
  · exact State.gPeek_outside hheld
  · rw [memRead_eq_map]
    refine List.map_congr_left fun i hi => ?_
    rw [State.firmwareUsed_block hb (mem_upTo.mp hi) hfirm]
    rfl

/-- A read takes only free values. -/
theorem State.gView_keeps (a n : Nat) : State.KeepsBut [.free] s (s.gView a n).2 := by
  unfold State.gView
  split
  · exact .refl
  · exact State.keepsBut_withFree _

end Sys2Proof.Machine
end

section
/-! SUPPORT. Serving one GDDR6 request (12 R305 to R307): the check of its block, its bytes, and what it leaves as it was. -/

namespace Sys2Proof.Machine

variable {s : State} {a b g id : Nat} {cls : GddrClass} {ecc r : EccResult} {m : Word64} {d : List Byte}

/-! ### Counts -/

theorem GddrSt.controller_lt (x : GddrSt) : x.controller a < 12 := Nat.mod_lt _ (by decide)

theorem State.gddrCount_gddr {n dir : Nat} : (s.gddrCount a n cls dir).gddr = s.gddr :=
  (s.gddrCount_keeps a n cls dir).gddr_eq (by decide)

theorem State.countDev_gddr {sub inc : Nat} : (s.countDev id sub inc).gddr = s.gddr :=
  State.KeepsBut.gddr_eq (l := [.ctr]) (by simp) (by decide)

theorem classNum_le : classNum cls ≤ 4 := by cases cls <;> decide

/-- The count of an access leaves every counter but GDDR_BYTES. -/
theorem State.ctrAt_gddrCount {n dir : Nat} (hdir : dir < 2) (hid : id ≠ Ctr.gddrBytes) (hg : g < 65536) :
    (s.gddrCount a n cls dir).ctrAt Scope.device 0 id g 0 = s.ctrAt Scope.device 0 id g 0 := by
  unfold State.gddrCount
  refine foldl_keeps (fun s => s.ctrAt Scope.device 0 id g 0) (fun u x => State.ctrAt_countDev_ne u hid ?_ hg) _ s
  have hcontroller := u.gddr.controller_lt (a := x.1 * 64)
  have hclass := classNum_le (cls := cls)
  omega

/-! ### The check of a block -/

/-- What a check leaves of the memory: only poison and events change. -/
def GddrSt.unchecked (x : GddrSt) : GddrSt := { x with poison := [], events := [] }

theorem State.gddrChecked_keeps : State.KeepsBut [.gddr, .ctr] s (s.gddrChecked g b r) := by
  cases r <;> simp [State.gddrChecked, State.gddrEvent, State.setPoison]

theorem State.gddrChecked_unchecked : (s.gddrChecked g b r).gddr.unchecked = s.gddr.unchecked := by
  have hcount (i : Nat) : (s.countDev i g).gddr.unchecked = s.gddr.unchecked := by rw [State.countDev_gddr]
  cases r with
  | clean => rfl
  | corrected => exact hcount Ctr.gddrEccCorr
  | uncorrectable => exact hcount Ctr.gddrEccUncorr
  | tagMismatch => exact hcount Ctr.gddrAddrTagErr

theorem State.gddrChecked_mem : (s.gddrChecked g b r).gddr.mem = s.gddr.mem := by
  have hmem := congrArg GddrSt.mem (State.gddrChecked_unchecked (s := s) (g := g) (b := b) (r := r))
  exact hmem

/-- An uncorrectable error poisons the block; poison stays. -/
theorem State.gddrChecked_poison : Tab.get (s.gddrChecked g b r).gddr.poison false b =
    (Tab.get s.gddr.poison false b || r == .uncorrectable || r == .tagMismatch) := by
  cases r with
  | clean => exact ((Bool.or_false _).trans (Bool.or_false _)).symm
  | corrected =>
    rw [State.gddrChecked, State.countDev_gddr]
    exact ((Bool.or_false _).trans (Bool.or_false _)).symm
  | uncorrectable => simp [State.gddrChecked, State.setPoison]
  | tagMismatch => simp [State.gddrChecked, State.setPoison]

/-- An error found is counted, and its event bit is set. -/
theorem State.gddrChecked_notes {bit : Nat}
    (h : r = .corrected ∧ id = Ctr.gddrEccCorr ∧ bit = 4 ∨ r = .uncorrectable ∧ id = Ctr.gddrEccUncorr ∧ bit = 2 ∨
      r = .tagMismatch ∧ id = Ctr.gddrAddrTagErr ∧ bit = 1) :
    (s.gddrChecked g b r).ctrAt Scope.device 0 id g 0 = satCtr (s.ctrAt Scope.device 0 id g 0 + 1) ∧
      (bit < 4 → nbit (Tab.get (s.gddrChecked g b r).gddr.events 0 g) bit = true) := by
  obtain ⟨rfl, rfl, rfl⟩ | ⟨rfl, rfl, rfl⟩ | ⟨rfl, rfl, rfl⟩ := h
  · exact ⟨State.ctrAt_countDev_self _ one_ne_zero, fun hbit => absurd hbit (by decide)⟩
  · exact ⟨State.ctrAt_countDev_self s one_ne_zero, fun _ => by simp [State.gddrChecked, State.gddrEvent, State.setPoison]⟩
  · exact ⟨State.ctrAt_countDev_self s one_ne_zero, fun _ => by simp [State.gddrChecked, State.gddrEvent, State.setPoison]⟩

/-- A check does not count a reissued burst. -/
theorem State.ctrAt_gddrChecked {i : Nat} (hg : g < 65536) (hi : i < 65536) :
    (s.gddrChecked g b r).ctrAt Scope.device 0 Ctr.gddrEdcRetry i 0 = s.ctrAt Scope.device 0 Ctr.gddrEdcRetry i 0 := by
  cases r with
  | clean => rfl
  | corrected => exact State.ctrAt_countDev_ne s (by decide) hg hi
  | uncorrectable => exact State.ctrAt_countDev_ne s (id := Ctr.gddrEccUncorr) (by decide) hg hi
  | tagMismatch => exact State.ctrAt_countDev_ne s (id := Ctr.gddrAddrTagErr) (by decide) hg hi

/-! ### One request -/

/-- The state with its block read and checked, before the access is counted. -/
def State.readChecked (s : State) (q : GddrReq) : State :=
  let b := q.addr / 64
  let r := s.gView (b * 64) 64
  r.2.gddrChecked (s.gddr.controller (b * 64)) b (r.2.gddr.check b q.ecc)

/-- The memory with the bytes of a write stored. -/
def GddrSt.storeMasked (x : GddrSt) (b : Nat) (m : Word64) (d : List Byte) : GddrSt :=
  x.store b (maskBytes m (memRead x.mem b 64) d)

theorem State.gddrServe_read (q : GddrReq) (hq : q.op = .read) : s.gddrServe q =
    ((s.readChecked q).gddrCount (q.addr / 64 * 64) 64 q.cls 0).modGddr fun x =>
      { x with readData := (s.gView (q.addr / 64 * 64) 64).1, readPoison := Tab.get x.poison false (q.addr / 64) } := by
  rw [State.gddrServe, hq]
  rfl

/-- A write of a whole block is not checked, and leaves it clean (R306). -/
theorem State.gddrServe_whole (q : GddrReq) (hq : q.op = .write m d) (hm : m.toNat = 2 ^ 64 - 1) : s.gddrServe q =
    ((s.modGddr fun _ => s.gddr.storeMasked (q.addr / 64 * 64) m d).setPoison (q.addr / 64) false).gddrCount
      (q.addr / 64 * 64) 64 q.cls 1 := by
  have hwhole : (m.toNat + 1 == 2 ^ 64) = true := by rw [hm]; decide
  rw [State.gddrServe, hq]
  simp only [hwhole, Bool.true_or, if_true]
  rfl

/-- A write of a part of a block is checked (R306). -/
theorem State.gddrServe_part (q : GddrReq) (hq : q.op = .write m d) (hm : m.toNat ≠ 2 ^ 64 - 1) : s.gddrServe q =
    ((s.gddrChecked (s.gddr.controller (q.addr / 64 * 64)) (q.addr / 64) (s.gddr.check (q.addr / 64) q.ecc)).modGddr
      fun x => x.storeMasked (q.addr / 64 * 64) m d).gddrCount (q.addr / 64 * 64) 64 q.cls 1 := by
  have hwhole : (m.toNat + 1 == 2 ^ 64) = false := beq_false_of_ne (by omega)
  have hchecked : (if !s.gddr.ecc then s
      else s.gddrChecked (s.gddr.controller (q.addr / 64 * 64)) (q.addr / 64) (s.gddr.check (q.addr / 64) q.ecc)) =
      s.gddrChecked (s.gddr.controller (q.addr / 64 * 64)) (q.addr / 64) (s.gddr.check (q.addr / 64) q.ecc) := by
    unfold GddrSt.check
    split
    · rfl
    · rfl
  have hstore (u : State) (hu : u.gddr.mem = s.gddr.mem) :
      (u.modGddr fun x => x.store (q.addr / 64 * 64) (maskBytes m (memRead s.gddr.mem (q.addr / 64 * 64) 64) d)) =
        u.modGddr fun x => x.storeMasked (q.addr / 64 * 64) m d := by
    simp only [State.modGddr, GddrSt.storeMasked, hu]
  rw [← hstore _ State.gddrChecked_mem, State.gddrServe, hq]
  simp only [hwhole, Bool.false_or, hchecked]
  rfl

end Sys2Proof.Machine
end

section
/-! SUPPORT. What serving a GDDR6 request does (12 R305 to R307, R309). -/

namespace Sys2Proof.Machine

variable {s : State} {a b g id : Nat} {cls : GddrClass} {ecc r : EccResult} {m : Word64} {d : List Byte} {q : GddrReq}

/-- A request is a read, a write of a whole block, or a write of a part of it. -/
theorem GddrReq.op_cases (q : GddrReq) : q.op = .read ∨ (∃ m d, q.op = .write m d ∧ m.toNat = 2 ^ 64 - 1) ∨
    ∃ m d, q.op = .write m d ∧ m.toNat ≠ 2 ^ 64 - 1 := by
  cases q.op with
  | read => exact .inl rfl
  | write m d =>
    by_cases hm : m.toNat = 2 ^ 64 - 1
    · exact .inr (.inl ⟨m, d, rfl, hm⟩)
    · exact .inr (.inr ⟨m, d, rfl, hm⟩)

theorem State.gView_gddr {n : Nat} : (s.gView a n).2.gddr = s.gddr := (State.gView_keeps a n).gddr_eq (by decide)

theorem State.gView_ctrAt {n : Nat} : (s.gView a n).2.ctrAt Scope.device 0 id g 0 = s.ctrAt Scope.device 0 id g 0 := by
  rw [State.ctrAt, (State.gView_keeps a n).ctr_eq (by decide), State.ctrAt]

theorem State.readChecked_gddr : (s.readChecked q).gddr.unchecked = s.gddr.unchecked := by
  rw [State.readChecked, State.gddrChecked_unchecked, State.gView_gddr]

/-! ### What it leaves as it was -/

theorem State.gddrServe_keeps : State.KeepsBut [.gddr, .ctr, .free] s (s.gddrServe q) := by
  have hcount (t : State) (a dir : Nat) : State.KeepsBut [.gddr, .ctr, .free] t (t.gddrCount a 64 q.cls dir) :=
    (t.gddrCount_keeps _ _ _ _).mono (by decide)
  have hcheck (t : State) (g b : Nat) (r : EccResult) : State.KeepsBut [.gddr, .ctr, .free] t (t.gddrChecked g b r) :=
    State.gddrChecked_keeps.mono (by decide)
  have hview (a : Nat) : State.KeepsBut [.gddr, .ctr, .free] s (s.gView a 64).2 := (State.gView_keeps a 64).mono (by decide)
  obtain hq | ⟨m, d, hq, hm⟩ | ⟨m, d, hq, hm⟩ := q.op_cases
  · rw [State.gddrServe_read q hq]
    simpa [State.readChecked] using ((hview _).trans (hcheck _ _ _ _)).trans (hcount _ _ _)
  · rw [State.gddrServe_whole q hq hm]
    exact .trans (by simp [State.setPoison]) (hcount _ _ _)
  · rw [State.gddrServe_part q hq hm]
    exact .trans (by simpa using hcheck _ _ _ _) (hcount _ _ _)

/-- What a request leaves of the memory controllers: the configuration, the channels and what waits for them. -/
def GddrSt.unserved (x : GddrSt) : GddrSt :=
  { x with mem := [], poison := [], events := [], readData := [], readPoison := false }

theorem GddrSt.unserved_congr {x y : GddrSt} (h : x.unchecked = y.unchecked) : x.unserved = y.unserved := by
  have hall := congrArg GddrSt.unserved h
  exact hall

theorem State.gddrServe_unserved : (s.gddrServe q).gddr.unserved = s.gddr.unserved := by
  obtain hq | ⟨m, d, hq, hm⟩ | ⟨m, d, hq, hm⟩ := q.op_cases
  · have hchecked := GddrSt.unserved_congr (s.readChecked_gddr (q := q))
    rw [State.gddrServe_read q hq, ← hchecked, ← State.gddrCount_gddr (s := s.readChecked q)]
    rfl
  · rw [State.gddrServe_whole q hq hm, State.gddrCount_gddr]
    rfl
  · have hchecked := GddrSt.unserved_congr (s.gddrChecked_unchecked (g := s.gddr.controller (q.addr / 64 * 64))
      (b := q.addr / 64) (r := s.gddr.check (q.addr / 64) q.ecc))
    rw [State.gddrServe_part q hq hm, State.gddrCount_gddr, ← hchecked]
    rfl

/-- A request counts no reissued burst. -/
theorem State.ctrAt_gddrServe (hg : g < 65536) :
    (s.gddrServe q).ctrAt Scope.device 0 Ctr.gddrEdcRetry g 0 = s.ctrAt Scope.device 0 Ctr.gddrEdcRetry g 0 := by
  have hcount (t : State) (a dir : Nat) (hdir : dir < 2) : (t.gddrCount a 64 q.cls dir).ctrAt Scope.device 0 Ctr.gddrEdcRetry g 0 =
      t.ctrAt Scope.device 0 Ctr.gddrEdcRetry g 0 := State.ctrAt_gddrCount hdir (by decide) hg
  have hcheck (t : State) (a b : Nat) (r : EccResult) :
      (t.gddrChecked (s.gddr.controller a) b r).ctrAt Scope.device 0 Ctr.gddrEdcRetry g 0 =
        t.ctrAt Scope.device 0 Ctr.gddrEdcRetry g 0 :=
    State.ctrAt_gddrChecked (by have := s.gddr.controller_lt (a := a); omega) hg
  obtain hq | ⟨m, d, hq, hm⟩ | ⟨m, d, hq, hm⟩ := q.op_cases
  · rw [State.gddrServe_read q hq]
    exact (hcount _ _ _ (by decide)).trans ((hcheck _ _ _ _).trans State.gView_ctrAt)
  · rw [State.gddrServe_whole q hq hm]
    exact hcount _ _ _ (by decide)
  · rw [State.gddrServe_part q hq hm]
    exact (hcount _ _ _ (by decide)).trans (hcheck s _ _ _)

/-! ### The bytes -/

/-- The memory once a request has been served. -/
def GddrSt.served (x : GddrSt) (q : GddrReq) : GddrSt :=
  match q.op with
  | .write m d => x.storeMasked (q.addr / 64 * 64) m d
  | .read => x

theorem GddrSt.served_congr {x y : GddrSt} (h : x.mem = y.mem) : (x.served q).mem = (y.served q).mem := by
  unfold GddrSt.served
  cases q.op with
  | read => exact h
  | write m d => simp only [GddrSt.storeMasked, GddrSt.store, h]

theorem State.gddrServe_mem : (s.gddrServe q).gddr.mem = (s.gddr.served q).mem := by
  unfold GddrSt.served
  obtain hq | ⟨m, d, hq, hm⟩ | ⟨m, d, hq, hm⟩ := q.op_cases
  · have hchecked := congrArg GddrSt.mem (s.readChecked_gddr (q := q))
    rw [State.gddrServe_read q hq, hq]
    exact (congrArg GddrSt.mem State.gddrCount_gddr).trans hchecked
  · rw [State.gddrServe_whole q hq hm, State.gddrCount_gddr, hq]
    rfl
  · rw [State.gddrServe_part q hq hm, State.gddrCount_gddr, hq]
    simp only [State.modGddr, GddrSt.storeMasked, GddrSt.store, State.gddrChecked_mem]

/-- Requests served one after the other, as their bytes go. -/
theorem State.gddrServe_foldl_mem (l : List GddrReq) {x : GddrSt} (h : x.mem = s.gddr.mem) :
    (l.foldl State.gddrServe s).gddr.mem = (l.foldl GddrSt.served x).mem := by
  induction l generalizing s x with
  | nil => exact h.symm
  | cons q l ih => exact ih ((GddrSt.served_congr h).trans State.gddrServe_mem.symm)

/-! ### The check -/

/-- What the check of a request finds is noted, and poisons its block (R305). -/
structure State.Checks (s t : State) (g b : Nat) (r : EccResult) : Prop where
  poison : Tab.get t.gddr.poison false b = (Tab.get s.gddr.poison false b || r == .uncorrectable || r == .tagMismatch)
  notes : ∀ id bit, (r = .corrected ∧ id = Ctr.gddrEccCorr ∧ bit = 4 ∨ r = .uncorrectable ∧ id = Ctr.gddrEccUncorr ∧ bit = 2 ∨
      r = .tagMismatch ∧ id = Ctr.gddrAddrTagErr ∧ bit = 1) →
    t.ctrAt Scope.device 0 id g 0 = satCtr (s.ctrAt Scope.device 0 id g 0 + 1) ∧
      (bit < 4 → nbit (Tab.get t.gddr.events 0 g) bit = true)

theorem State.checks_gddrChecked : s.Checks (s.gddrChecked g b r) g b r :=
  ⟨State.gddrChecked_poison, fun _ _ h => State.gddrChecked_notes h⟩

/-- The count of the access changes nothing of that. -/
theorem State.Checks.gddrCount {t : State} {n dir : Nat} (h : s.Checks t g b r) (hdir : dir < 2) (hg : g < 65536) :
    s.Checks (t.gddrCount a n cls dir) g b r where
  poison := by rw [State.gddrCount_gddr, h.poison]
  notes id bit hid := by
    have hother : id ≠ Ctr.gddrBytes := by obtain ⟨-, rfl, -⟩ | ⟨-, rfl, -⟩ | ⟨-, rfl, -⟩ := hid <;> decide
    rw [State.gddrCount_gddr, State.ctrAt_gddrCount hdir hother hg]
    exact h.notes id bit hid

theorem State.Checks.modGddr {t : State} {f : GddrSt → GddrSt} (h : s.Checks t g b r)
    (hf : ∀ x, (f x).poison = x.poison ∧ (f x).events = x.events) : s.Checks (t.modGddr f) g b r where
  poison := (congrArg (Tab.get · false b) (hf t.gddr).1).trans h.poison
  notes id bit hid := by
    have hev : (t.modGddr f).gddr.events = t.gddr.events := (hf t.gddr).2
    rw [hev]
    exact h.notes id bit hid

theorem State.Checks.of_eq {u t : State} (h : u.Checks t g b r) (hgddr : u.gddr = s.gddr)
    (hctr : ∀ id, u.ctrAt Scope.device 0 id g 0 = s.ctrAt Scope.device 0 id g 0) : s.Checks t g b r where
  poison := by rw [h.poison, hgddr]
  notes id bit hid := by
    rw [← hctr]
    exact h.notes id bit hid

/-- A read and a write of a part of a block check it. -/
theorem State.checks_gddrServe (hq : q.op = .read ∨ ∃ m d, q.op = .write m d ∧ m.toNat ≠ 2 ^ 64 - 1) :
    s.Checks (s.gddrServe q) (s.gddr.controller (q.addr / 64 * 64)) (q.addr / 64) (s.gddr.check (q.addr / 64) q.ecc) := by
  have hg : s.gddr.controller (q.addr / 64 * 64) < 65536 := by
    have := s.gddr.controller_lt (a := q.addr / 64 * 64)
    omega
  obtain hq | ⟨m, d, hq, hm⟩ := hq
  · have hread : s.Checks (s.readChecked q) (s.gddr.controller (q.addr / 64 * 64)) (q.addr / 64) (s.gddr.check (q.addr / 64) q.ecc) := by
      rw [State.readChecked, State.gView_gddr]
      exact State.checks_gddrChecked.of_eq State.gView_gddr fun _ => State.gView_ctrAt
    rw [State.gddrServe_read q hq]
    exact (hread.gddrCount (by decide) hg).modGddr fun _ => ⟨rfl, rfl⟩
  · rw [State.gddrServe_part q hq hm]
    exact (State.checks_gddrChecked.modGddr (f := fun x => x.storeMasked _ m d) fun _ => ⟨rfl, rfl⟩).gddrCount (by decide) hg

/-! ### Its answer -/

/-- A read answers the bytes that it finds, and whether the block is poisoned (R306). -/
theorem State.gddrServe_answer (hq : q.op = .read) :
    (s.gddrServe q).gddr.readData = (s.gView (q.addr / 64 * 64) 64).1 ∧
      (s.gddrServe q).gddr.readPoison = Tab.get (s.gddrServe q).gddr.poison false (q.addr / 64) := by
  rw [State.gddrServe_read q hq]
  exact ⟨rfl, rfl⟩

theorem State.gddrServe_whole_poison (hq : q.op = .write m d) (hm : m.toNat = 2 ^ 64 - 1) :
    Tab.get (s.gddrServe q).gddr.poison false (q.addr / 64) = false := by
  rw [State.gddrServe_whole q hq hm, State.gddrCount_gddr]
  simp [State.setPoison]

/-! ### Masked bytes -/

theorem GddrSt.storeMasked_plain {x : GddrSt} (h : b + 64 ≤ 0x05200000 ∨ rtxBase ≤ b) :
    memRead (x.storeMasked b m d).mem b 64 = maskBytes m (memRead x.mem b 64) d := by
  have hlen : (maskBytes m (memRead x.mem b 64) d).length = 64 := maskBytes_length _ _ _
  have hstored := x.store_plain (a := b) (bytes := maskBytes m (memRead x.mem b 64) d) (by rw [hlen]; exact h)
  rw [GddrSt.storeMasked, hstored]
  have hread := memRead_memWrite x.mem b (maskBytes m (memRead x.mem b 64) d)
  rwa [hlen] at hread

theorem GddrSt.storeMasked_reserved {x : GddrSt} (hlo : 0x05200000 ≤ b) (hhi : b + 64 ≤ rtxBase) :
    (x.storeMasked b m d).mem = x.mem := x.store_reserved hlo (by rwa [maskBytes_length])

theorem GddrSt.storeMasked_outside {x : GddrSt} {i : Nat} (h : i < b ∨ b + 64 ≤ i) :
    memByte (x.storeMasked b m d).mem i = memByte x.mem i := x.store_outside b _ (by rwa [maskBytes_length])

end Sys2Proof.Machine
end

section
/-! PROOF. A GDDR6 request reaches a channel that serves, that retrains, or that has stopped (12 R303 to R307; O30). -/

namespace Sys2Proof.Machine

variable {s : State} {a g k ch : Nat} {op : GddrOp} {cls : GddrClass} {ecc r : EccResult}

/-- What GDDR_ACCESS asks for. -/
abbrev blockReq (a : Nat) (op : GddrOp) (cls : GddrClass) (ecc : EccResult) : GddrReq :=
  { addr := a / 64 * 64, op := op, cls := cls, ecc := ecc }

/-- A request to a trained controller goes by the state of its channel. -/
theorem exec_gddrAccess (htop : a / 64 * 64 < s.gddr.top) (hg : g = s.gddr.controller (a / 64 * 64))
    (hch : ch = g * 2 + s.gddr.channel (a / 64 * 64)) (hstate : Tab.get s.gddr.state 0 g = 1) :
    (Tab.get s.gddr.chan 0 ch = 0 → k < 4 → exec (.gddrAccess a op cls ecc k) s =
      .next ((s.countDev Ctr.gddrEdcRetry g k).gddrServe (blockReq a op cls ecc))) ∧
    (Tab.get s.gddr.chan 0 ch = 0 → 4 ≤ k → exec (.gddrAccess a op cls ecc k) s =
      .next (((s.countDev Ctr.gddrEdcRetry g 3).gddrEvent g 3).modGddr fun m =>
        { m with chan := Tab.set m.chan 0 ch 1, held := m.held ++ [blockReq a op cls ecc] })) ∧
    (Tab.get s.gddr.chan 0 ch = 1 → exec (.gddrAccess a op cls ecc k) s =
      .next (s.modGddr fun m => { m with held := m.held ++ [blockReq a op cls ecc] })) ∧
    (2 ≤ Tab.get s.gddr.chan 0 ch → exec (.gddrAccess a op cls ecc k) s = .next s) := by
  have hopen : (decide (s.gddr.top ≤ a / 64 * 64) || Tab.get s.gddr.state 0 g != 1) = false := by
    simp [hstate, htop]
  have hexec : exec (.gddrAccess a op cls ecc k) s = .next (match Tab.get s.gddr.chan 0 ch with
      | 0 => if k < 4 then (s.countDev Ctr.gddrEdcRetry g k).gddrServe (blockReq a op cls ecc)
        else ((s.countDev Ctr.gddrEdcRetry g 3).gddrEvent g 3).modGddr fun m =>
          { m with chan := Tab.set m.chan 0 ch 1, held := m.held ++ [blockReq a op cls ecc] }
      | 1 => s.modGddr fun m => { m with held := m.held ++ [blockReq a op cls ecc] }
      | _ => s) := by
    subst hch hg
    change execGddrAccess a op cls ecc k s = _
    unfold execGddrAccess
    dsimp only
    rw [hopen]
    rfl
  rw [hexec]
  refine ⟨fun h hk => ?_, fun h hk => ?_, fun h => ?_, fun h => ?_⟩
  · rw [h]
    exact congrArg _ (if_pos hk)
  · rw [h]
    exact congrArg _ (if_neg (Nat.not_lt.mpr hk))
  · rw [h]
    rfl
  · match hn : Tab.get s.gddr.chan 0 ch with
    | 0 => omega
    | 1 => omega
    | n + 2 => rfl

/-- A burst is reissued as often as it fails its CRC (R303). -/
theorem State.ctrAt_serveCounted {q : GddrReq} (hg : g < 65536) (hk : 0 < k) :
    ((s.countDev Ctr.gddrEdcRetry g k).gddrServe q).ctrAt Scope.device 0 Ctr.gddrEdcRetry g 0 =
      satCtr (s.ctrAt Scope.device 0 Ctr.gddrEdcRetry g 0 + k) := by
  rw [State.ctrAt_gddrServe hg]
  exact s.ctrAt_countDev_self (by omega)

/-- The count of reissued bursts changes nothing of what the check of a block notes. -/
theorem State.Checks.of_countDev {t : State} {b n : Nat} (h : (s.countDev Ctr.gddrEdcRetry g n).Checks t g b r) (hg : g < 65536) :
    s.Checks t g b r where
  poison := by rw [h.poison, State.countDev_gddr]
  notes id bit hid := by
    have hother : id ≠ Ctr.gddrEdcRetry := by obtain ⟨-, rfl, -⟩ | ⟨-, rfl, -⟩ | ⟨-, rfl, -⟩ := hid <;> decide
    rw [← State.ctrAt_countDev_ne s hother hg hg]
    exact h.notes id bit hid

theorem State.firmwareUsed_countDev {id n b : Nat} : (s.countDev id g n).firmwareUsed b = s.firmwareUsed b := by
  obtain ⟨c, hc⟩ := s.countDev_eq_with_ctr id g n
  rw [hc]
  rfl

/-- The check of a block finds what the pin says, unless the block is poisoned or ECC is off (R305, R306). -/
theorem GddrSt.check_eq {x : GddrSt} {b : Nat} :
    x.check b ecc = if x.ecc = false then .clean else if Tab.get x.poison false b then .uncorrectable else ecc := by
  unfold GddrSt.check
  cases x.ecc <;> rfl

/-- At the fourth failure the channel retrains, and the request waits (R303). -/
theorem gddrAccess_retrains {q : GddrReq} :
    let t := ((s.countDev Ctr.gddrEdcRetry g 3).gddrEvent g 3).modGddr fun m =>
      { m with chan := Tab.set m.chan 0 ch 1, held := m.held ++ [q] }
    Tab.get t.gddr.chan 0 ch = 1 ∧ t.gddr.held = s.gddr.held ++ [q] ∧ nbit (Tab.get t.gddr.events 0 g) 3 = true ∧
      t.gddr.mem = s.gddr.mem ∧
      t.ctrAt Scope.device 0 Ctr.gddrEdcRetry g 0 = satCtr (s.ctrAt Scope.device 0 Ctr.gddrEdcRetry g 0 + 3) ∧
      State.KeepsBut [.gddr, .ctr] s t := by
  have hcount : (s.countDev Ctr.gddrEdcRetry g 3).ctrAt Scope.device 0 Ctr.gddrEdcRetry g 0 =
      satCtr (s.ctrAt Scope.device 0 Ctr.gddrEdcRetry g 0 + 3) := s.ctrAt_countDev_self (by decide)
  refine ⟨?_, ?_, ?_, ?_, hcount, ?_⟩ <;> simp [State.gddrEvent, State.countDev_gddr]

/-! ### A request that a channel serves -/

section
variable {q : GddrReq}

theorem State.serveCounted_checks (hq : q.op = .read ∨ ∃ m d, q.op = .write m d ∧ m.toNat ≠ 2 ^ 64 - 1)
    (hg : g = s.gddr.controller (q.addr / 64 * 64)) :
    s.Checks ((s.countDev Ctr.gddrEdcRetry g k).gddrServe q) g (q.addr / 64) (s.gddr.check (q.addr / 64) q.ecc) := by
  have hlt : g < 65536 := by
    have := s.gddr.controller_lt (a := q.addr / 64 * 64)
    omega
  have hchecks := (s.countDev Ctr.gddrEdcRetry g k).checks_gddrServe hq
  rw [State.countDev_gddr, ← hg] at hchecks
  exact hchecks.of_countDev hlt

theorem State.serveCounted_mem : ((s.countDev Ctr.gddrEdcRetry g k).gddrServe q).gddr.mem = (s.gddr.served q).mem := by
  rw [State.gddrServe_mem, State.countDev_gddr]

/-- A read of a block that no waiting request concerns, outside the areas that the firmware has used. -/
theorem State.serveCounted_read (hq : q.op = .read) (halign : q.addr % 64 = 0)
    (hheld : ∀ o ∈ s.gddr.held, o.addr + 64 ≤ q.addr ∨ q.addr + 64 ≤ o.addr) (hfirm : s.firmwareUsed q.addr = false) :
    let t := (s.countDev Ctr.gddrEdcRetry g k).gddrServe q
    t.gddr.readData = memRead s.gddr.mem q.addr 64 ∧ t.gddr.readPoison = Tab.get t.gddr.poison false (q.addr / 64) ∧
      t.gddr.mem = s.gddr.mem := by
  have hblock : q.addr / 64 * 64 = q.addr := by omega
  obtain ⟨hdata, hpoison⟩ := (s.countDev Ctr.gddrEdcRetry g k).gddrServe_answer hq
  rw [hblock, State.gView_block halign (by rwa [State.countDev_gddr]) (by rwa [State.firmwareUsed_countDev]),
    State.countDev_gddr] at hdata
  refine ⟨hdata, hpoison, ?_⟩
  rw [State.serveCounted_mem, GddrSt.served, hq]

end

end Sys2Proof.Machine
end

section
/-! PROOF. A channel that retrains stops, or serves again what waits (12 R303, R307; O30). -/

namespace Sys2Proof.Machine

variable {s : State} {g : GcId} {ch : Bool} {n : Nat} {mine : GddrReq → Bool}

/-- The state once channel n of controller g has retrained, before it serves what waits. -/
def State.chanServes (s : State) (g n : Nat) (mine : GddrReq → Bool) : State :=
  (s.modGddr fun m => { m with chan := Tab.set m.chan 0 n 0, held := m.held.filter fun q => !mine q }).countDev Ctr.gddrEdcRetry g

theorem exec_gddrChannelRetrain (hn : n = g.val * 2 + b2n ch)
    (hmine : ∀ q, mine q = (s.gddr.controller q.addr * 2 + s.gddr.channel q.addr == n)) :
    (Tab.get s.gddr.chan 0 n = 1 → exec (.gddrChannelRetrain g ch false) s =
      .next ((s.modGddr fun m => { m with chan := Tab.set m.chan 0 n 2 }).gddrEvent g.val 0)) ∧
    (Tab.get s.gddr.chan 0 n = 1 → exec (.gddrChannelRetrain g ch true) s =
      .next ((s.gddr.held.filter mine).foldl State.gddrServe (s.chanServes g.val n mine))) ∧
    (Tab.get s.gddr.chan 0 n ≠ 1 → ∀ ok, exec (.gddrChannelRetrain g ch ok) s = .next s) := by
  obtain rfl : mine = fun q => s.gddr.controller q.addr * 2 + s.gddr.channel q.addr == n := funext hmine
  subst hn
  have hexec (ok : Bool) : exec (.gddrChannelRetrain g ch ok) s = execGddrChannelRetrain g ch ok s := rfl
  refine ⟨fun h => ?_, fun h => ?_, fun h ok => ?_⟩
  · rw [hexec, execGddrChannelRetrain]
    simp only [h, bne_self_eq_false, Bool.false_eq_true, if_false]
  · rw [hexec, execGddrChannelRetrain]
    simp only [h, bne_self_eq_false, Bool.false_eq_true, if_false, if_true]
    rfl
  · rw [hexec, execGddrChannelRetrain]
    simp only [bne_iff_ne.mpr h, if_true]

/-- A channel that retrains without success stops, with CHAN_FAULT, and keeps what waits. -/
theorem gddrChannelRetrain_fails {i : Nat} :
    let t := (s.modGddr fun m => { m with chan := Tab.set m.chan 0 n 2 }).gddrEvent i 0
    t.gddr = { s.gddr with chan := Tab.set s.gddr.chan 0 n 2, events := Tab.set s.gddr.events 0 i (nsetBit (Tab.get s.gddr.events 0 i) 0) } ∧
      State.KeepsBut [.gddr] s t := ⟨rfl, by simp [State.gddrEvent]⟩

/-! ### What the requests leave -/

theorem State.serveAll_keeps (l : List GddrReq) : State.KeepsBut [.gddr, .ctr, .free] s (l.foldl State.gddrServe s) :=
  .foldl (fun _ _ => State.gddrServe_keeps) l s

theorem State.serveAll_unserved (l : List GddrReq) : (l.foldl State.gddrServe s).gddr.unserved = s.gddr.unserved :=
  foldl_keeps (fun s => s.gddr.unserved) (fun _ _ => State.gddrServe_unserved) l s

theorem State.ctrAt_serveAll (l : List GddrReq) {i : Nat} (hi : i < 65536) :
    (l.foldl State.gddrServe s).ctrAt Scope.device 0 Ctr.gddrEdcRetry i 0 = s.ctrAt Scope.device 0 Ctr.gddrEdcRetry i 0 :=
  foldl_keeps (fun s => s.ctrAt Scope.device 0 Ctr.gddrEdcRetry i 0) (fun _ _ => State.ctrAt_gddrServe hi) l s

/-- A channel that retrained serves the requests that wait for it, in their order. -/
theorem gddrChannelRetrain_serves {i : Nat} (hi : i < 65536) (l : List GddrReq) :
    let t := l.foldl State.gddrServe (s.chanServes i n mine)
    Tab.get t.gddr.chan 0 n = 0 ∧ t.gddr.held = s.gddr.held.filter (fun q => !mine q) ∧
      t.gddr.mem = (l.foldl GddrSt.served s.gddr).mem ∧
      t.ctrAt Scope.device 0 Ctr.gddrEdcRetry i 0 = satCtr (s.ctrAt Scope.device 0 Ctr.gddrEdcRetry i 0 + 1) ∧
      State.KeepsBut [.gddr, .ctr, .free] s t := by
  have hgddr : (s.chanServes i n mine).gddr =
      { s.gddr with chan := Tab.set s.gddr.chan 0 n 0, held := s.gddr.held.filter fun q => !mine q } := State.countDev_gddr
  have hview := (s.chanServes i n mine).serveAll_unserved l
  rw [hgddr] at hview
  have hchan : (l.foldl State.gddrServe (s.chanServes i n mine)).gddr.chan = Tab.set s.gddr.chan 0 n 0 := by
    have hview' := congrArg GddrSt.chan hview
    exact hview'
  have hheld := congrArg GddrSt.held hview
  refine ⟨?_, hheld, State.gddrServe_foldl_mem l (by rw [hgddr]), ?_, .trans (by simp [State.chanServes]) (State.serveAll_keeps l)⟩
  · rw [hchan, Tab.get_set, if_pos rfl]
  · rw [State.ctrAt_serveAll l hi]
    exact State.ctrAt_countDev_self _ one_ne_zero

end Sys2Proof.Machine
end

section
/-! SUPPORT. Paging out (12 R314): the dirty rows of a buffer go home, other sets lose their pages, the row table and the synapse
words stay. -/

namespace Sys2Proof.Machine

variable {s t u : State} {k : CoreSt} {c b i j h a : Nat} {p : PageSet}

/-! ### What paging out leaves of the core -/

/-- What paging out leaves of a core: its rows and its synapse words. -/
def CoreSt.paged (k : CoreSt) : Tab SynWord × Tab Word32 × Nat := (k.syn, k.rowW, k.nRows)

theorem CoreSt.rBase_congr {K : CoreSt} (hk : K.paged = k.paged) : K.rBase i = k.rBase i := by
  have hrow : K.rowW = k.rowW := congrArg (·.2.1) hk
  rw [rBase, rBase, rowWord, rowWord, hrow]

theorem CoreSt.rLen_congr {K : CoreSt} (hk : K.paged = k.paged) : K.rLen i = k.rLen i := by
  have hrow : K.rowW = k.rowW := congrArg (·.2.1) hk
  rw [rLen, rLen, rowWord, rowWord, hrow]

theorem CoreSt.rowsIn_congr {K : CoreSt} (hk : K.paged = k.paged) (x n : Nat) : K.rowsIn x n = k.rowsIn x n := by
  have hrows : K.nRows = k.nRows := congrArg (·.2.2) hk
  simp only [rowsIn, rowsUsed, hrows, CoreSt.rBase_congr hk]

theorem CoreSt.synBytes_congr {K : CoreSt} (hk : K.paged = k.paged) (x n : Nat) : K.synBytes x n = k.synBytes x n := by
  have hsyn : K.syn = k.syn := congrArg (·.1) hk
  simp only [synBytes, synWord, hsyn]

@[simp] theorem CoreSt.synBytes_length (x n : Nat) : (k.synBytes x n).length = 2 * n := by
  simp [synBytes, upTo, Nat.mul_comm]

/-- From s to t core c keeps its rows and words; only it, the controllers, counters, bindings and sectors change. -/
structure State.PagesOut (c : Nat) (s t : State) : Prop where
  paged : (t.core c).paged = (s.core c).paged
  cores : State.CoresBut [c] s t
  keeps : State.KeepsBut [.cores, .gddr, .ctr, .binds, .sectors] s t

namespace State.PagesOut

theorem refl : State.PagesOut c s s := ⟨rfl, fun _ _ => rfl, .refl⟩

theorem trans (h : s.PagesOut c t) (h' : t.PagesOut c u) : s.PagesOut c u :=
  ⟨h'.paged.trans h.paged, fun d hd => (h'.cores d hd).trans (h.cores d hd), h.keeps.trans h'.keeps⟩

theorem of_keeps {l : List Part} (h : State.KeepsBut l s t) (hl : l ⊆ [.cores, .gddr, .ctr, .binds, .sectors])
    (hc : Part.cores ∉ l) : s.PagesOut c t := by
  have hcore (d : Nat) : t.core d = s.core d := by rw [State.core, h.cores_eq hc, State.core]
  exact ⟨by rw [hcore], fun d _ => hcore d, h.mono hl⟩

theorem setCore (hk : k.paged = (s.core c).paged) : s.PagesOut c (s.setCore c k) where
  paged := by rw [State.core_setCore_self, hk]
  cores d hd := State.core_setCore_ne _ _ _ _ fun hdc => hd (List.mem_singleton.mpr hdc)
  keeps := by simp

theorem modCore {f : CoreSt → CoreSt} (hf : ∀ k, (f k).paged = k.paged) : s.PagesOut c (s.modCore c f) := setCore (hf _)

theorem of_notes (h : s.Notes [] [] c t) : s.PagesOut c t :=
  ⟨h.get CoreSt.paged fun _ _ _ => rfl, h.cores, h.keeps.mono (by decide)⟩

theorem foldl {β : Type} {f : State → β → State} (hf : ∀ s x, State.PagesOut c s (f s x)) (l : List β) (s : State) :
    s.PagesOut c (l.foldl f s) := by
  induction l generalizing s with
  | nil => exact refl
  | cons x l ih => exact (hf s x).trans (ih _)

theorem ite {q : Prop} [Decidable q] (ht : s.PagesOut c t) (hu : s.PagesOut c u) : s.PagesOut c (if q then t else u) := by
  split
  · exact ht
  · exact hu

theorem setBindState {v : Nat} (h : s.PagesOut c t) : s.PagesOut c (t.setBindState b v) :=
  h.trans (.ite (of_keeps (l := [.binds]) (by simp) (by decide) (by decide)) refl)

end State.PagesOut

/-! ### The rows of a buffer -/

/-- Row i of a buffer that holds page h, copied out to the home of the page where it is dirty. -/
def State.pageOutRow (s : State) (c : Nat) (p : PageSet) (b h i : Nat) : State :=
  let k := s.core c
  if !Tab.get k.dirtyRows false i then s
  else
    let s := s.gWrite (p.pageAddr h + 2 * (k.rBase i - p.base b)) (k.synBytes (k.rBase i) (k.rLen i)) .paging
    (s.modCore c fun k => { k with dirtyRows := Tab.set k.dirtyRows false i false }).countCore c Ctr.synRdBytes (2 * k.rLen i)

theorem State.pageOut_eq : s.pageOut c p b = if !p.writeBack || Tab.get (s.core c).pages 0 (p.key b) = 0 then s
    else ((s.core c).rowsIn (p.base b) p.words).foldl
      (fun u i => u.pageOutRow c p b (Tab.get (s.core c).pages 0 (p.key b) - 1) i) s := by
  unfold State.pageOut State.pageOutRow
  with_reducible rfl

theorem State.pageOutRow_pagesOut : s.PagesOut c (s.pageOutRow c p b h i) := by
  have hwrite (a : Nat) (bytes : List Byte) : s.PagesOut c (s.gWrite a bytes .paging) :=
    .of_keeps (s.gWrite_keeps _ _ _) (by decide) (by decide)
  have hclean (u : State) : u.PagesOut c (u.modCore c fun k => { k with dirtyRows := Tab.set k.dirtyRows false i false }) :=
    .modCore fun _ => rfl
  have hcount (u : State) (id n : Nat) : u.PagesOut c (u.countCore c id n) := .of_notes State.notes_countCore
  unfold State.pageOutRow
  dsimp only
  split
  · exact .refl
  · exact ((hwrite _ _).trans (hclean _)).trans (hcount _ _ _)

theorem State.pageOut_pagesOut : s.PagesOut c (s.pageOut c p b) := by
  rw [State.pageOut_eq]
  exact .ite .refl (.foldl (fun _ _ => State.pageOutRow_pagesOut) _ s)

theorem State.evict_pagesOut : s.PagesOut c (s.evict c p b) := by
  have hempty (u : State) (o : PageSet) (x : Nat) :
      u.PagesOut c (u.modCore c fun k => { k with pages := Tab.set k.pages 0 (o.key x) 0 }) := .modCore fun _ => rfl
  have hlose (u : State) (o : PageSet) (x : Nat) :
      u.PagesOut c (((u.pageOut c o x).modCore c fun k => { k with pages := Tab.set k.pages 0 (o.key x) 0 }).setBindState o.binding 2) :=
    (State.pageOut_pagesOut.trans (hempty _ o x)).setBindState
  unfold State.evict
  exact .foldl (fun _ _ => .ite .refl (.foldl (fun u x => .ite (hlose u _ x) .refl) _ _)) _ s

/-- Where no other set of the core has buffers, none loses its page. -/
theorem State.evict_alone (halone : ∀ o ∈ s.pageSets, o.core ≠ c ∨ o.num = p.num) : s.evict c p b = s := by
  unfold State.evict
  refine (List.foldl_ext _ (fun s _ => s) s fun u o ho => ?_).trans (List.foldl_fixed' (fun _ => rfl) _)
  rw [if_pos]
  simpa using halone o ho

/-! ### The one dirty row of a write-back buffer -/

/-- A write above the Reserved range whose channels serve stores its bytes. -/
theorem State.gWrite_mem (bytes : List Byte) (cls : GddrClass) (ha : rtxBase ≤ a) (hserve : s.gHeld a bytes.length = false) :
    (s.gWrite a bytes cls).gddr.mem = memWrite s.gddr.mem a bytes := by
  have hcheck (l : List (Nat × Nat)) : (l.foldl (fun s x => s.gCheck (x.1 * 64) 64) s).gddr.mem = s.gddr.mem :=
    foldl_keeps (fun s => s.gddr.mem) (fun u x => (u.gCheck_keeps _ _).1) l s
  have hstore (u : State) (hu : u.gddr.mem = s.gddr.mem) : (u.gddr.store a bytes).mem = memWrite s.gddr.mem a bytes := by
    rw [GddrSt.store_plain _ (.inr ha), hu]
  have hpoke : s.gPoke a bytes = s.gStore a bytes := if_pos (by rw [hserve]; rfl)
  rw [State.gWrite, State.gddrCount_gddr, hpoke]
  unfold State.gStore
  dsimp only
  split
  · exact hstore s rfl
  · exact hstore _ (hcheck _)

theorem State.pageOutRow_clean (hi : Tab.get (s.core c).dirtyRows false i = false) : s.pageOutRow c p b h i = s := by
  rw [State.pageOutRow, hi]
  rfl

theorem State.pageOutRows_clean (l : List Nat) (hl : ∀ j ∈ l, Tab.get (s.core c).dirtyRows false j = false) :
    l.foldl (fun s i => s.pageOutRow c p b h i) s = s := by
  induction l with
  | nil => rfl
  | cons j l ih =>
    rw [List.foldl_cons, State.pageOutRow_clean (hl j List.mem_cons_self)]
    exact ih fun x hx => hl x (List.mem_cons_of_mem _ hx)

/-- A dirty row whose home serves is written there, and is no longer dirty. -/
theorem State.pageOutRow_dirty (hk : s.core c = k) (hi : Tab.get k.dirtyRows false i = true)
    (ha : a = p.pageAddr h + 2 * (k.rBase i - p.base b)) (hlo : rtxBase ≤ a) (hserve : s.gHeld a (2 * k.rLen i) = false) :
    (s.pageOutRow c p b h i).gddr.mem = memWrite s.gddr.mem a (k.synBytes (k.rBase i) (k.rLen i)) ∧
      ((s.pageOutRow c p b h i).core c).dirtyRows = Tab.set k.dirtyRows false i false := by
  subst hk ha
  have hcore : (s.gWrite (p.pageAddr h + 2 * ((s.core c).rBase i - p.base b))
      ((s.core c).synBytes ((s.core c).rBase i) ((s.core c).rLen i)) .paging).core c = s.core c := by
    rw [State.core, (s.gWrite_keeps _ _ _).cores_eq (by decide), State.core]
  rw [State.pageOutRow, hi]
  have hcount (u : State) (id n : Nat) : u.Notes [] [] c (u.countCore c id n) := State.notes_countCore
  constructor
  · refine (congrArg GddrSt.mem ((hcount _ _ _).keeps.gddr_eq (by decide))).trans ?_
    exact State.gWrite_mem _ _ hlo (by rwa [CoreSt.synBytes_length])
  · refine ((hcount _ _ _).get (·.dirtyRows) fun _ _ _ => rfl).trans ?_
    rw [State.modCore_def, State.core_setCore_self, hcore]

/-- Where row i alone is dirty, it alone is written. -/
theorem State.pageOutRows_one {l : List Nat} (hk : s.core c = k) (hil : i ∈ l) (hi : Tab.get k.dirtyRows false i = true)
    (hl : ∀ j ∈ l, j ≠ i → Tab.get k.dirtyRows false j = false) (ha : a = p.pageAddr h + 2 * (k.rBase i - p.base b))
    (hlo : rtxBase ≤ a) (hserve : s.gHeld a (2 * k.rLen i) = false) :
    l.foldl (fun s i => s.pageOutRow c p b h i) s = s.pageOutRow c p b h i := by
  induction l with
  | nil => exact absurd hil List.not_mem_nil
  | cons j l ih =>
    rw [List.foldl_cons]
    by_cases hji : j = i
    · subst hji
      refine State.pageOutRows_clean l fun x hx => ?_
      rw [(State.pageOutRow_dirty hk hi ha hlo hserve).2, Tab.get_set]
      split
      · rfl
      · next hne => exact hl x (List.mem_cons_of_mem _ hx) hne
    · rw [State.pageOutRow_clean (hk ▸ hl j List.mem_cons_self hji)]
      exact ih ((List.mem_cons.mp hil).resolve_left (Ne.symm hji)) fun x hx => hl x (List.mem_cons_of_mem _ hx)

end Sys2Proof.Machine
end

section
/-! PROOF. A page-in begins (12 R313, R314; O30): the rows of its buffer wait, and what was dirty in it goes home. -/

namespace Sys2Proof.Machine

variable {s : State} {k : CoreSt} {c : CoreId} {b set page h a i j : Nat} {p : PageSet}

/-! ### Rows set update-pending -/

theorem CoreSt.rPending_setPendings {v : Bool} (l : List Nat) :
    (l.foldl (fun k i => k.setPending i v) k).rPending j = if j ∈ l then v else k.rPending j := by
  induction l generalizing k with
  | nil => rfl
  | cons i l ih =>
    rw [List.foldl_cons, ih, CoreSt.rPending_setPending]
    by_cases hl : j ∈ l <;> by_cases hi : j = i <;> simp [hl, hi]

theorem CoreSt.setPendings_keeps {v : Bool} (l : List Nat) :
    (l.foldl (fun k i => k.setPending i v) k).syn = k.syn ∧ (l.foldl (fun k i => k.setPending i v) k).dirtyRows = k.dirtyRows :=
  have hput (k : CoreSt) (i x : Nat) : (k.putRow i 0 x).syn = k.syn ∧ (k.putRow i 0 x).dirtyRows = k.dirtyRows := ⟨rfl, rfl⟩
  have hone (k : CoreSt) (i : Nat) : (k.setPending i v).syn = k.syn ∧ (k.setPending i v).dirtyRows = k.dirtyRows := hput k i _
  ⟨foldl_keeps_view (·.syn) (fun k i => (hone k i).1) l k, foldl_keeps_view (·.dirtyRows) (fun k i => (hone k i).2) l k⟩

/-! ### The step -/

/-- Core k once page-in `page` into buffer b has begun. -/
def CoreSt.pageStarts (k : CoreSt) (p : PageSet) (b set page : Nat) : CoreSt :=
  let k := (k.rowsIn (p.base b) p.words).foldl (fun k i => k.setPending i true) k
  { k with pages := Tab.set k.pages 0 (p.key b) 0, paging := Tab.set k.paging 0 set (page + 1) }

/-- What begins page-in `page`. -/
def State.pageStarts (s : State) (c : Nat) (p : PageSet) (b set page : Nat) : State :=
  (((s.pageOut c p b).evict c p b).modCore c (·.pageStarts p b set page)).setBindState p.binding 3

theorem State.pageSet_eq {c n : Nat} (h : s.pageSet c n = some p) : p.core = c ∧ p.num = n := by
  simpa using List.find?_some h

theorem exec_pageInStart (hset : s.pageSet c.val set = some p) (hruns : s.sectorRuns (sectorOf c.val) = true)
    (hb : b = (s.core c.val).fillBuf p) (hpaging : Tab.get (s.core c.val).paging 0 set = 0)
    (hdue : (s.core c.val).pageDue p (s.netOf c.val).step = some page) (hbusy : 64 ≤ p.binding ∨ s.bindBusy p.binding = false)
    (hused : (s.core c.val).bufferUsed p b = false) (hwaits : s.evictWaits c.val p b = false) :
    exec (.pageInStart c set) s = .next (s.pageStarts c.val p b set page) := by
  subst hb
  have hbegins : (Tab.get (s.core c.val).paging 0 set != 0 || !s.sectorRuns (sectorOf c.val) ||
      (decide (p.binding < 64) && s.bindBusy p.binding) || (s.core c.val).bufferUsed p ((s.core c.val).fillBuf p) ||
      s.evictWaits c.val p ((s.core c.val).fillBuf p)) = false := by
    have hfree : (decide (p.binding < 64) && s.bindBusy p.binding) = false := by
      rw [Bool.and_eq_false_iff, decide_eq_false_iff_not, Nat.not_lt]
      exact hbusy
    rw [hpaging, hruns, hfree, hused, hwaits]
    rfl
  change execPageInStart c set s = _
  unfold execPageInStart
  dsimp only
  rw [hset]
  dsimp only
  rw [hdue]
  dsimp only
  rw [hbegins]
  rfl

/-! ### What it does -/

theorem State.setBindState_core {v d : Nat} : (s.setBindState b v).core d = s.core d := by
  unfold State.setBindState
  split
  · simp
  · rfl

theorem State.setBindState_gddr {v : Nat} : (s.setBindState b v).gddr = s.gddr := by
  unfold State.setBindState
  split
  · simp
  · rfl

theorem State.setBindState_state {v : Nat} (hb : b < 64) : ((s.setBindState b v).bind b).state = v := by
  rw [State.setBindState, if_pos hb, State.bind_modBind_self]

theorem State.evicted_pagesOut {c : Nat} : s.PagesOut c ((s.pageOut c p b).evict c p b) :=
  State.pageOut_pagesOut.trans State.evict_pagesOut

theorem State.pageStarts_core {c : Nat} :
    (s.pageStarts c p b set page).core c = (((s.pageOut c p b).evict c p b).core c).pageStarts p b set page := by
  rw [State.pageStarts, State.setBindState_core, State.modCore_def, State.core_setCore_self]

/-- The rows of the buffer are update-pending, and the words stay as they were. -/
theorem State.pageStarts_rows {c : Nat} : (∀ i ∈ (s.core c).rowsIn (p.base b) p.words,
      ((s.pageStarts c p b set page).core c).rPending i = true) ∧
    ((s.pageStarts c p b set page).core c).syn = (s.core c).syn := by
  have hpaged := (State.evicted_pagesOut (s := s) (p := p) (b := b) (c := c)).paged
  rw [State.pageStarts_core]
  refine ⟨fun i hi => ?_, ?_⟩
  · rw [← CoreSt.rowsIn_congr hpaged] at hi
    exact (CoreSt.rPending_setPendings _).trans (if_pos hi)
  · exact (CoreSt.setPendings_keeps _).1.trans (congrArg (·.1) hpaged)

theorem State.pageStarts_frame {c : Nat} : State.CoresBut [c] s (s.pageStarts c p b set page) ∧
    State.KeepsBut [.cores, .gddr, .ctr, .binds, .sectors] s (s.pageStarts c p b set page) := by
  have hout := State.evicted_pagesOut (s := s) (p := p) (b := b) (c := c)
  refine ⟨fun d hd => ?_, ?_⟩
  · rw [State.pageStarts, State.setBindState_core, State.modCore_def, State.core_setCore_ne _ _ _ _ (fun h => hd (by simp [h]))]
    exact hout.cores d hd
  · unfold State.pageStarts State.setBindState
    split
    · simpa using hout.keeps
    · simpa using hout.keeps

/-- Where no other set of the core has buffers, the memory is that of the paging out alone. -/
theorem State.pageStarts_alone {c : Nat} (halone : ∀ o ∈ s.pageSets, o.core ≠ c ∨ o.num = p.num) :
    (s.pageStarts c p b set page).gddr = (s.pageOut c p b).gddr ∧
      ((s.pageStarts c p b set page).core c).dirtyRows = ((s.pageOut c p b).core c).dirtyRows ∧
      (s.pageStarts c p b set page).sector = (s.pageOut c p b).sector := by
  have hsets : (s.pageOut c p b).pageSets = s.pageSets := State.pageOut_pagesOut.keeps.pageSets_eq (by decide)
  have hevict : (s.pageOut c p b).evict c p b = s.pageOut c p b := State.evict_alone (hsets ▸ halone)
  refine ⟨?_, ?_, ?_⟩
  · rw [State.pageStarts, State.setBindState_gddr, hevict]
    rfl
  · rw [State.pageStarts_core, hevict]
    exact (CoreSt.setPendings_keeps _).2
  · rw [State.pageStarts, hevict]
    unfold State.setBindState
    split <;> rfl

theorem State.pageStarts_sameBytes {c : Nat} (hback : p.writeBack = false) (halone : ∀ o ∈ s.pageSets, o.core ≠ c ∨ o.num = p.num) :
    s.SameBytes (s.pageStarts c p b set page) := by
  have hout : s.pageOut c p b = s := by
    rw [State.pageOut_eq, hback]
    rfl
  obtain ⟨hgddr, -, hsector⟩ := State.pageStarts_alone (b := b) (set := set) (page := page) halone
  rw [hout] at hgddr hsector
  exact ⟨congrArg _ hgddr, fun n => by rw [hsector]⟩

/-- The one dirty row of a write-back buffer goes to the home of the page that the buffer held. -/
theorem State.pageStarts_writeBack {c : Nat} (hk : s.core c = k) (hback : p.writeBack = true)
    (hpage : Tab.get k.pages 0 (p.key b) = h + 1) (hi : i ∈ k.rowsIn (p.base b) p.words) (hdirty : Tab.get k.dirtyRows false i = true)
    (hclean : ∀ j ∈ k.rowsIn (p.base b) p.words, j ≠ i → Tab.get k.dirtyRows false j = false)
    (halone : ∀ o ∈ s.pageSets, o.core ≠ c ∨ o.num = p.num) (ha : a = p.pageAddr h + 2 * (k.rBase i - p.base b))
    (hlo : rtxBase ≤ a) (hserve : s.gHeld a (2 * k.rLen i) = false) :
    let t := s.pageStarts c p b set page
    Tab.get (t.core c).dirtyRows false i = false ∧ memRead t.gddr.mem a (2 * k.rLen i) = k.synBytes (k.rBase i) (k.rLen i) ∧
      ∀ x, x < a ∨ a + 2 * k.rLen i ≤ x → memByte t.gddr.mem x = memByte s.gddr.mem x := by
  have hout : s.pageOut c p b = s.pageOutRow c p b h i := by
    rw [State.pageOut_eq, hk, hpage, hback, Nat.add_sub_cancel]
    exact State.pageOutRows_one hk hi hdirty hclean ha hlo hserve
  obtain ⟨hgddr, hrows, -⟩ := State.pageStarts_alone (b := b) (set := set) (page := page) halone
  obtain ⟨hmem, hdone⟩ := State.pageOutRow_dirty (b := b) hk hdirty ha hlo hserve
  have hread := memRead_memWrite s.gddr.mem a (k.synBytes (k.rBase i) (k.rLen i))
  rw [CoreSt.synBytes_length] at hread
  dsimp only
  rw [hgddr, hrows, hout, hmem, hdone]
  refine ⟨?_, hread, fun x hx => memByte_memWrite_outside _ _ _ _ (by rwa [CoreSt.synBytes_length])⟩
  rw [Tab.get_set, if_pos rfl]

end Sys2Proof.Machine
end

section
/-! SUPPORT. The words of a page come in (12 R313, R314): the bytes read, the words stored, the rows that they fill. -/

namespace Sys2Proof.Machine

variable {s t u : State} {k K : CoreSt} {c b i j x y n set page : Nat} {p : PageSet}

/-! ### The bytes of a page -/

theorem memRead_drop (m : Memory) (a n x : Nat) : (memRead m a n).drop x = memRead m (a + x) (n - x) := by
  induction x generalizing a n with
  | zero => rfl
  | succ x ih =>
    cases n with
    | zero => rw [Nat.zero_sub]; rfl
    | succ n =>
      rw [memRead, List.drop_succ_cons, ih, Nat.add_sub_add_right]
      congr 1
      omega

theorem memRead_take (m : Memory) (a : Nat) {n x : Nat} (h : x ≤ n) : (memRead m a n).take x = memRead m a x := by
  induction x generalizing a n with
  | zero => rfl
  | succ x ih =>
    obtain ⟨n, rfl⟩ := Nat.exists_eq_add_of_le' h
    exact congrArg _ (ih (a + 1) (Nat.le_add_left _ _))

/-- The number in bytes of a read is that of a read of those bytes. -/
theorem leAt_memRead (m : Memory) (a : Nat) {n off w : Nat} (h : off + w ≤ n) :
    leAt (memRead m a n) off w = leNat (memRead m (a + off) w) := by
  rw [leAt, memRead_drop, memRead_take _ _ (by omega)]

/-- Two reads of the same two bytes find the same number. -/
theorem State.leAt_gPeek {a a' n n' off off' : Nat} (h : off + 2 ≤ n) (h' : off' + 2 ≤ n') (ha : a + off = a' + off') :
    leAt (s.gPeek a n) off 2 = leAt (s.gPeek a' n') off' 2 := by
  rw [State.gPeek, State.gPeek, leAt_memRead _ _ h, leAt_memRead _ _ h', ha]

theorem leNat_lt (l : List Byte) : leNat l < 256 ^ l.length := by
  induction l with
  | nil => exact Nat.one_pos
  | cons x l ih =>
    have hx : x.toNat < 256 := x.isLt
    rw [leNat, List.length_cons, pow_succ]
    omega

theorem leAt_two_lt (l : List Byte) (off : Nat) : leAt l off 2 < 65536 := by
  refine (leNat_lt _).trans_le ((Nat.pow_le_pow_right (by decide) (List.length_take_le _ _)).trans ?_)
  decide

/-! ### What a word that comes in leaves of the core -/

/-- The row table and the page table of a core. -/
def CoreSt.tables (k : CoreSt) : Tab Word32 × Nat × Tab Nat := (k.rowW, k.nRows, k.pages)

/-- Where the rows of a core lie, and its page table. -/
def CoreSt.layout (k : CoreSt) : (Nat → Nat × Nat × Nat) × Nat × Tab Nat :=
  (fun i => (k.rBase i, k.rLen i, k.rStart i), k.nRows, k.pages)

theorem CoreSt.rowWord_tables (h : K.tables = k.tables) {w : Nat} : K.rowWord i w = k.rowWord i w := by
  have hrow : K.rowW = k.rowW := congrArg (·.1) h
  rw [rowWord, rowWord, hrow]

theorem CoreSt.layout_tables (h : K.tables = k.tables) : K.layout = k.layout := by
  have hrest : (K.nRows, K.pages) = (k.nRows, k.pages) := congrArg (·.2) h
  refine Prod.ext (funext fun i => ?_) hrest
  simp only [layout, rBase, rLen, rStart, CoreSt.rowWord_tables h]

theorem CoreSt.layout_row (h : K.layout = k.layout) (i : Nat) : K.rBase i = k.rBase i ∧ K.rLen i = k.rLen i := by
  have hrow := congrFun (congrArg Prod.fst h) i
  exact ⟨congrArg (·.1) hrow, congrArg (·.2.1) hrow⟩

theorem CoreSt.layout_rowsIn (h : K.layout = k.layout) (x n : Nat) : K.rowsIn x n = k.rowsIn x n := by
  have hrows : K.nRows = k.nRows := congrArg (·.2.1) h
  have hbase (i : Nat) : K.rBase i = k.rBase i := (CoreSt.layout_row h i).1
  simp only [rowsIn, rowsUsed, hrows, hbase]

theorem CoreSt.layout_setPending {v : Bool} : (k.setPending i v).layout = k.layout := by
  have hput (z : Nat) : ((k.putRow i 0 z).nRows, (k.putRow i 0 z).pages) = (k.nRows, k.pages) := rfl
  refine Prod.ext (funext fun j => ?_) (hput _)
  have hword (w : Nat) (hw : w < 8) (h0 : w ≠ 0) : (k.setPending i v).rowWord j w = k.rowWord j w := by
    rw [setPending, rowWord_putRow (by decide) hw, if_neg fun h => h0 h.2]
  simp only [layout, rBase, rLen, rStart, hword 1 (by decide) (by decide), hword 2 (by decide) (by decide)]

/-! ### Words stored -/

theorem CoreSt.synWord_putSyn {v : Nat} (hv : v < 65536) : (k.putSyn x v).synWord y = if y = x then v else k.synWord y := by
  rw [synWord, putSyn, Tab.get_set]
  split
  · rw [BitVec.toNat_ofNat, Nat.mod_eq_of_lt hv]
  · rfl

/-- A word of a row that comes in stands at its place; COLSUM follows it. -/
theorem CoreSt.pageWord_stores {v : Nat} (hv : v < 65536) : (k.pageWord i (x, v)).tables = k.tables ∧
    (k.pageWord i (x, v)).synWord y = if y = k.rBase i + x then v else k.synWord y := by
  have haddr : k.synAddr i (k.rStart i + x) = k.rBase i + x := by rw [synAddr, Nat.add_sub_cancel_left]
  have hput : (k.putSyn (k.rBase i + x) v).tables = k.tables := rfl
  have hsum (z : CoreSt) (j : Nat) (d : Int) : (z.addSum j d).tables = z.tables ∧ (z.addSum j d).synWord y = z.synWord y :=
    have hcol (w e : Nat) : (z.putCol j w e).tables = z.tables ∧ (z.putCol j w e).synWord y = z.synWord y := ⟨rfl, rfl⟩
    hcol 8 _
  unfold pageWord
  dsimp only
  rw [haddr]
  split
  · exact ⟨hput, CoreSt.synWord_putSyn hv⟩
  · obtain ⟨htables, hword⟩ := hsum (k.putSyn (k.rBase i + x) v) (k.rStart i + x)
      (weightOf (k.putSyn (k.rBase i + x) v).mode v - k.weight i (k.rStart i + x))
    exact ⟨htables.trans hput, hword.trans (CoreSt.synWord_putSyn hv)⟩

/-- Words stored one after the other, from address a on: each stands at its place, and no other changes. -/
theorem CoreSt.foldl_stores {f : CoreSt → Nat → CoreSt} {val : Nat → Nat} {a : Nat}
    (hf : ∀ K x, K.tables = k.tables → (f K x).tables = K.tables ∧
      ∀ y, (f K x).synWord y = if y = a + x then val x else K.synWord y) (l : List Nat) :
    (l.foldl f k).tables = k.tables ∧
      ∀ y, (l.foldl f k).synWord y = if a ≤ y ∧ y - a ∈ l then val (y - a) else k.synWord y := by
  suffices hall : ∀ K, K.tables = k.tables → (l.foldl f K).tables = k.tables ∧
      ∀ y, (l.foldl f K).synWord y = if a ≤ y ∧ y - a ∈ l then val (y - a) else K.synWord y from hall k rfl
  induction l with
  | nil => exact fun K hK => ⟨hK, fun y => (if_neg fun h => absurd h.2 List.not_mem_nil).symm⟩
  | cons x l ih =>
    intro K hK
    obtain ⟨htables, hword⟩ := hf K x hK
    obtain ⟨hrest, hwords⟩ := ih (f K x) (htables.trans hK)
    refine ⟨hrest, fun y => ?_⟩
    rw [List.foldl_cons, hwords, hword]
    by_cases hmem : a ≤ y ∧ y - a ∈ l
    · rw [if_pos hmem, if_pos ⟨hmem.1, List.mem_cons_of_mem _ hmem.2⟩]
    · rw [if_neg hmem]
      by_cases hy : y = a + x
      · subst hy
        rw [if_pos rfl, Nat.add_sub_cancel_left, if_pos ⟨Nat.le_add_right _ _, List.mem_cons_self⟩]
      · rw [if_neg hy, if_neg]
        rintro ⟨hle, hin⟩
        obtain hyx | hin := List.mem_cons.mp hin
        · exact hy (by omega)
        · exact hmem ⟨hle, hin⟩

/-! ### The rows of a buffer -/

/-- Word x of page `page`, as memory holds it. -/
def State.pageValue (s : State) (p : PageSet) (page x : Nat) : Nat := leAt (s.gPeek (p.pageAddr page) (2 * p.words)) (2 * x) 2

/-- A page without poison comes in whole. -/
theorem State.pageClean_eq (h : s.gPoisoned (p.pageAddr page) (2 * p.words) = false) : s.pageClean p page = 2 * p.words := by
  have hnone : ((blockSpan (p.pageAddr page) (2 * p.words)).filter fun x => Tab.get s.gddr.poison false x.1) = [] := by
    rw [List.filter_eq_nil_iff]
    exact List.any_eq_false.mp h
  unfold State.pageClean
  dsimp only
  rw [hnone]
  rfl

/-- From s to t words came into core c: rows lie where they lay, memory is as it was. -/
structure State.PagesIn (c : Nat) (s t : State) : Prop where
  layout : (t.core c).layout = (s.core c).layout
  cores : State.CoresBut [c] s t
  bytes : s.SameBytes t
  keeps : State.KeepsBut [.cores, .sectors, .ctr] s t

namespace State.PagesIn

theorem refl : State.PagesIn c s s := ⟨rfl, fun _ _ => rfl, ⟨rfl, fun _ => rfl⟩, .refl⟩

theorem trans (h : s.PagesIn c t) (h' : t.PagesIn c u) : s.PagesIn c u :=
  ⟨h'.layout.trans h.layout, fun d hd => (h'.cores d hd).trans (h.cores d hd), h.bytes.trans h'.bytes, h.keeps.trans h'.keeps⟩

theorem setCore (hk : k.layout = (s.core c).layout) : s.PagesIn c (s.setCore c k) where
  layout := by rw [State.core_setCore_self, hk]
  cores d hd := State.core_setCore_ne _ _ _ _ fun hdc => hd (List.mem_singleton.mpr hdc)
  bytes := ⟨rfl, fun _ => rfl⟩
  keeps := by simp

theorem of_notes (h : s.Notes [] [] c t) : s.PagesIn c t where
  layout := h.get CoreSt.layout fun _ _ _ => rfl
  cores := h.cores
  bytes := h.sameBytes (by decide)
  keeps := h.keeps.mono (by decide)

theorem gddr_eq (h : s.PagesIn c t) : t.gddr = s.gddr := h.keeps.gddr_eq (by decide)

end State.PagesIn

/-- The core with the words of row i that a page brings. -/
def CoreSt.rowFilled (k : CoreSt) (i n : Nat) (l : List Byte) : CoreSt :=
  (upTo n).foldl (fun k x => k.pageWord i (x, leAt l (2 * x) 2)) k

/-- The same, with the row no longer pending, nor dirty. -/
def CoreSt.rowIn (k : CoreSt) (i n : Nat) (l : List Byte) : CoreSt :=
  { (k.rowFilled i n l).setPending i false with dirtyRows := Tab.set (k.rowFilled i n l).dirtyRows false i false }

theorem CoreSt.rowFilled_stores (l : List Byte) : (k.rowFilled i n l).tables = k.tables ∧
    ∀ y, (k.rowFilled i n l).synWord y = if k.rBase i ≤ y ∧ y - k.rBase i ∈ upTo n then leAt l (2 * (y - k.rBase i)) 2 else k.synWord y := by
  refine CoreSt.foldl_stores (val := fun x => leAt l (2 * x) 2) (fun K x hK => ?_) (upTo n)
  have hbase : K.rBase i = k.rBase i := (CoreSt.layout_row (CoreSt.layout_tables hK) i).1
  exact ⟨(CoreSt.pageWord_stores (y := 0) (leAt_two_lt _ _)).1, fun y => hbase ▸ (CoreSt.pageWord_stores (leAt_two_lt _ _)).2⟩

theorem CoreSt.rowIn_layout (l : List Byte) : (k.rowIn i n l).layout = k.layout := by
  have hset (K : CoreSt) (d : Tab Bool) : ({ K with dirtyRows := d } : CoreSt).layout = K.layout := rfl
  exact (hset _ _).trans (CoreSt.layout_setPending.trans (CoreSt.layout_tables (CoreSt.rowFilled_stores l).1))

theorem CoreSt.rowIn_word (l : List Byte) : (k.rowIn i n l).synWord y = (k.rowFilled i n l).synWord y := by
  have hput (K : CoreSt) (z : Nat) (d : Tab Bool) : ({ K.putRow i 0 z with dirtyRows := d } : CoreSt).synWord y = K.synWord y := rfl
  exact hput _ _ _

theorem CoreSt.rowIn_pending (l : List Byte) : (k.rowIn i n l).rPending j = if j = i then false else k.rPending j := by
  have hset (K : CoreSt) (d : Tab Bool) : ({ K with dirtyRows := d } : CoreSt).rPending j = K.rPending j := rfl
  refine (hset _ _).trans (CoreSt.rPending_setPending.trans ?_)
  rw [rPending, CoreSt.rowWord_tables (CoreSt.rowFilled_stores l).1, rPending]

end Sys2Proof.Machine
end

section
/-! SUPPORT. A page fills its buffer (12 R313, R314): the words outside every row, then row by row. -/

namespace Sys2Proof.Machine

variable {s t : State} {k K : CoreSt} {c b i j y page : Nat} {p : PageSet}

/-! ### The words of the rows -/

/-- Some row of l holds synapse word y. -/
def CoreSt.inRows (k : CoreSt) (l : List Nat) (y : Nat) : Bool := l.any fun i => k.rBase i ≤ y && y < k.rBase i + k.rLen i

theorem CoreSt.inRows_congr (h : K.layout = k.layout) (l : List Nat) : K.inRows l y = k.inRows l y := by
  have hrow (i : Nat) := CoreSt.layout_row h i
  simp only [inRows, (hrow _).1, (hrow _).2]

theorem State.pageValue_congr (h : t.gddr = s.gddr) (x : Nat) : t.pageValue p page x = s.pageValue p page x := by
  rw [State.pageValue, State.pageValue, State.gPeek, State.gPeek, h]

theorem State.gPoisoned_congr (h : t.gddr = s.gddr) (a n : Nat) : t.gPoisoned a n = s.gPoisoned a n := by
  rw [State.gPoisoned, State.gPoisoned, h]

/-- The words of row i that lie in buffer b. -/
def CoreSt.rowPart (k : CoreSt) (p : PageSet) (b i : Nat) : Nat := min (k.rLen i) (p.base b + p.words - k.rBase i)

/-- A row that the page reaches: its words come in, and are counted. -/
def State.pageRowIn (s : State) (c : Nat) (p : PageSet) (b page i : Nat) : State :=
  let k := s.core c
  let n := k.rowPart p b i
  (s.setCore c (k.rowIn i n (s.gPeek (p.pageAddr page + 2 * (k.rBase i - p.base b)) (2 * n)))).countCore c Ctr.synWrBytes (2 * n)

theorem State.pageRow_eq : s.pageRow c p b page i =
    if s.pageClean p page < 2 * ((s.core c).rBase i - p.base b) + 2 * (s.core c).rowPart p b i then s
    else s.pageRowIn c p b page i := by
  unfold State.pageRow State.pageRowIn CoreSt.rowIn CoreSt.rowFilled CoreSt.rowPart
  with_reducible rfl

theorem State.pageRow_pagesIn : s.PagesIn c (s.pageRow c p b page i) := by
  rw [State.pageRow_eq]
  split
  · exact .refl
  · exact (State.PagesIn.setCore (CoreSt.rowIn_layout _)).trans (.of_notes State.notes_countCore)

/-- A row of the buffer takes its words of a page without poison; it is no longer pending. -/
theorem State.pageRow_fills (hclean : s.gPoisoned (p.pageAddr page) (2 * p.words) = false)
    (hlo : p.base b ≤ (s.core c).rBase i) (hhi : (s.core c).rBase i < p.base b + p.words) :
    (∀ y, ((s.pageRow c p b page i).core c).synWord y =
      if y < p.base b + p.words ∧ (s.core c).inRows [i] y = true then s.pageValue p page (y - p.base b) else (s.core c).synWord y) ∧
    (∀ j, ((s.pageRow c p b page i).core c).rPending j = if j = i then false else (s.core c).rPending j) := by
  have hpart : (s.core c).rowPart p b i = min ((s.core c).rLen i) (p.base b + p.words - (s.core c).rBase i) := rfl
  have hreach : ¬ s.pageClean p page < 2 * ((s.core c).rBase i - p.base b) + 2 * (s.core c).rowPart p b i := by
    rw [State.pageClean_eq hclean, hpart]
    omega
  rw [State.pageRow_eq, if_neg hreach]
  have hcount (u : State) (id n : Nat) : u.Notes [] [] c (u.countCore c id n) := State.notes_countCore
  constructor
  · intro y
    refine ((hcount _ _ _).get (·.synWord y) fun _ _ _ => rfl).trans ?_
    rw [State.core_setCore_self, CoreSt.rowIn_word, (CoreSt.rowFilled_stores _).2]
    have hplace : (s.core c).rBase i ≤ y ∧ y - (s.core c).rBase i ∈ upTo ((s.core c).rowPart p b i) ↔
        y < p.base b + p.words ∧ (s.core c).inRows [i] y = true := by
      simp only [CoreSt.inRows, List.any_cons, List.any_nil, Bool.or_false, Bool.and_eq_true, decide_eq_true_eq, mem_upTo, hpart]
      omega
    refine ite_congr (propext hplace) (fun hy => ?_) fun _ => rfl
    obtain ⟨hrow, hoff⟩ := hplace.mpr hy
    have hlt := mem_upTo.mp hoff
    exact State.leAt_gPeek (by omega) (by omega) (by omega)
  · intro j
    refine ((hcount _ _ _).get (·.rPending j) fun _ _ _ => rfl).trans ?_
    rw [State.core_setCore_self, CoreSt.rowIn_pending]

/-- The rows of the buffer take their words, one row after the other. -/
theorem State.pageRows_fill (l : List Nat) (hclean : s.gPoisoned (p.pageAddr page) (2 * p.words) = false)
    (hl : ∀ i ∈ l, p.base b ≤ (s.core c).rBase i ∧ (s.core c).rBase i < p.base b + p.words) :
    (∀ y, ((l.foldl (fun s i => s.pageRow c p b page i) s).core c).synWord y =
      if y < p.base b + p.words ∧ (s.core c).inRows l y = true then s.pageValue p page (y - p.base b) else (s.core c).synWord y) ∧
    (∀ j, ((l.foldl (fun s i => s.pageRow c p b page i) s).core c).rPending j = if j ∈ l then false else (s.core c).rPending j) := by
  induction l generalizing s with
  | nil => exact ⟨fun y => (if_neg fun h => absurd h.2 (by simp [CoreSt.inRows])).symm, fun j => (if_neg List.not_mem_nil).symm⟩
  | cons i l ih =>
    have hin := State.pageRow_pagesIn (s := s) (c := c) (p := p) (b := b) (page := page) (i := i)
    have hrow (j : Nat) := CoreSt.layout_row hin.layout j
    obtain ⟨hword, hpending⟩ := State.pageRow_fills hclean (hl i List.mem_cons_self).1 (hl i List.mem_cons_self).2
    obtain ⟨hwords, hpendings⟩ := ih (s := s.pageRow c p b page i) (by rw [State.gPoisoned_congr hin.gddr_eq, hclean])
      fun j hj => (hrow j).1 ▸ hl j (List.mem_cons_of_mem _ hj)
    refine ⟨fun y => ?_, fun j => ?_⟩
    · have hrows : (s.core c).inRows (i :: l) y = ((s.core c).inRows [i] y || (s.core c).inRows l y) := by
        simp [CoreSt.inRows]
      rw [List.foldl_cons, hwords, hword, CoreSt.inRows_congr hin.layout, State.pageValue_congr hin.gddr_eq, hrows]
      by_cases hy : y < p.base b + p.words <;> cases (s.core c).inRows [i] y <;> cases (s.core c).inRows l y <;> simp [hy]
    · rw [List.foldl_cons, hpendings, hpending]
      by_cases hj : j ∈ l <;> by_cases hi : j = i <;> simp [hj, hi]

/-! ### The words outside the rows -/

/-- The core with the words of list l that a page brings, outside its rows. -/
def CoreSt.restFilled (k : CoreSt) (a : Nat) (l : List Byte) (xs : List Nat) : CoreSt :=
  xs.foldl (fun k x => k.putSyn (a + x) (leAt l (2 * x) 2)) k

theorem CoreSt.restFilled_stores {a : Nat} (l : List Byte) (xs : List Nat) : (k.restFilled a l xs).tables = k.tables ∧
    ∀ y, (k.restFilled a l xs).synWord y = if a ≤ y ∧ y - a ∈ xs then leAt l (2 * (y - a)) 2 else k.synWord y :=
  CoreSt.foldl_stores (f := fun k x => k.putSyn (a + x) (leAt l (2 * x) 2)) (val := fun x => leAt l (2 * x) 2)
    (fun K _ _ => ⟨rfl, fun _ => CoreSt.synWord_putSyn (k := K) (leAt_two_lt _ _)⟩) xs

theorem State.pageRest_eq : s.pageRest c p b page = s.setCore c ((s.core c).restFilled (p.base b) (s.gPeek (p.pageAddr page) (2 * p.words))
    ((upTo (s.pageClean p page / 2)).filter fun x => !(s.core c).inRows ((s.core c).rowsIn (p.base b) p.words) (p.base b + x))) := rfl

theorem State.pageRest_pagesIn : s.PagesIn c (s.pageRest c p b page) :=
  State.PagesIn.setCore (CoreSt.layout_tables (CoreSt.restFilled_stores _ _).1)

/-- The words of a page without poison that lie in no row. -/
theorem State.pageRest_fills (hclean : s.gPoisoned (p.pageAddr page) (2 * p.words) = false) (y : Nat) :
    ((s.pageRest c p b page).core c).synWord y =
      if p.base b ≤ y ∧ y < p.base b + p.words ∧ (s.core c).inRows ((s.core c).rowsIn (p.base b) p.words) y = false then
        s.pageValue p page (y - p.base b) else (s.core c).synWord y := by
  rw [State.pageRest_eq, State.core_setCore_self, (CoreSt.restFilled_stores _ _).2, State.pageClean_eq hclean,
    Nat.mul_div_cancel_left _ (by decide)]
  refine ite_congr (propext (and_congr_right fun hlo => ?_)) (fun _ => rfl) fun _ => rfl
  rw [List.mem_filter, mem_upTo, Nat.add_sub_cancel' hlo, Bool.not_eq_true']
  exact and_congr_left fun _ => by omega

/-! ### The whole buffer -/

/-- Core c with page `page` come into buffer b. -/
def State.pageFilled (s : State) (c : Nat) (p : PageSet) (b page : Nat) : State :=
  ((s.core c).rowsIn (p.base b) p.words).foldl (fun s i => s.pageRow c p b page i) (s.pageRest c p b page)

theorem State.pageFilled_pagesIn : s.PagesIn c (s.pageFilled c p b page) := by
  have hrows (l : List Nat) (u : State) : u.PagesIn c (l.foldl (fun s i => s.pageRow c p b page i) u) := by
    induction l generalizing u with
    | nil => exact .refl
    | cons i l ih => exact State.pageRow_pagesIn.trans (ih _)
  exact State.pageRest_pagesIn.trans (hrows _ _)

/-- A page without poison fills the buffer, and nothing else; no row of it is pending. -/
theorem State.pageFilled_fills (hclean : s.gPoisoned (p.pageAddr page) (2 * p.words) = false) :
    (∀ x, x < p.words → ((s.pageFilled c p b page).core c).synWord (p.base b + x) = s.pageValue p page x) ∧
    (∀ y, y < p.base b ∨ p.base b + p.words ≤ y → ((s.pageFilled c p b page).core c).synWord y = (s.core c).synWord y) ∧
    (∀ i ∈ (s.core c).rowsIn (p.base b) p.words, ((s.pageFilled c p b page).core c).rPending i = false) := by
  have hin := State.pageRest_pagesIn (s := s) (c := c) (p := p) (b := b) (page := page)
  have hbuffer : ∀ i ∈ (s.core c).rowsIn (p.base b) p.words, p.base b ≤ (s.core c).rBase i ∧ (s.core c).rBase i < p.base b + p.words := by
    intro i hi
    simpa using (List.mem_filter.mp hi).2
  obtain ⟨hwords, hpendings⟩ := State.pageRows_fill (s := s.pageRest c p b page) (c := c) (b := b) _
    (by rw [State.gPoisoned_congr hin.gddr_eq, hclean]) fun i hi => (CoreSt.layout_row hin.layout i).1 ▸ hbuffer i hi
  have hword (y : Nat) : ((s.pageFilled c p b page).core c).synWord y =
      if y < p.base b + p.words ∧ (s.core c).inRows ((s.core c).rowsIn (p.base b) p.words) y = true then
        s.pageValue p page (y - p.base b) else ((s.pageRest c p b page).core c).synWord y := by
    rw [← State.pageValue_congr hin.gddr_eq, ← CoreSt.inRows_congr hin.layout]
    exact hwords y
  refine ⟨fun x hx => ?_, fun y hy => ?_, fun i hi => (hpendings i).trans (if_pos hi)⟩
  · rw [hword, State.pageRest_fills hclean, Nat.add_sub_cancel_left]
    cases (s.core c).inRows ((s.core c).rowsIn (p.base b) p.words) (p.base b + x) <;> simp [hx]
  · have hrows : y < p.base b → (s.core c).inRows ((s.core c).rowsIn (p.base b) p.words) y = false := fun hlt => by
      refine List.any_eq_false.mpr fun i hi => ?_
      have := (hbuffer i hi).1
      simp only [Bool.and_eq_true, decide_eq_true_eq]
      omega
    have hpast : ¬ (p.base b ≤ y ∧ y < p.base b + p.words ∧
        (s.core c).inRows ((s.core c).rowsIn (p.base b) p.words) y = false) := fun h => by omega
    rw [hword, State.pageRest_fills hclean, if_neg hpast, if_neg]
    rintro ⟨hlt, hrow⟩
    obtain hlo | hhi := hy
    · rw [hrows hlo] at hrow
      exact absurd hrow (by decide)
    · omega

end Sys2Proof.Machine
end

section
/-! PROOF. A page-in ends (12 R305, R313, R314; 08 R217; O30): the words are in, and the buffer holds its page unless it met poison. -/

namespace Sys2Proof.Machine

variable {s : State} {c : CoreId} {b set page : Nat} {p : PageSet}

/-! ### The step -/

/-- Core k once page-in `page` into buffer b has ended; `needed` where the step that is open needs the page. -/
def CoreSt.pageEnds (k : CoreSt) (p : PageSet) (b set page : Nat) (poisoned needed : Bool) : CoreSt :=
  { k with paging := Tab.set k.paging 0 set 0
           pages := if poisoned then k.pages else Tab.set k.pages 0 (p.key b) (page + 1)
           pageBuf := if !poisoned && needed then Tab.set k.pageBuf 0 p.num b else k.pageBuf }

/-- The page has come in, and is checked and counted. -/
def State.pageRead (s : State) (c : Nat) (p : PageSet) (b page : Nat) : State :=
  let u := s.pageFilled c p b page
  (u.gCheck (p.pageAddr page) (min (2 * p.words) (u.pageClean p page + 64))).gddrCount (p.pageAddr page) (2 * p.words) .paging 0

/-- The page-in has ended on core c. -/
def State.pageEnds (s : State) (c : Nat) (p : PageSet) (b set page : Nat) : State :=
  let v := s.pageRead c p b page
  v.modCore c (·.pageEnds p b set page (s.gPoisoned (p.pageAddr page) (2 * p.words)) (p.needed (v.netOf c).step = some page))

/-- Every core of the set holds a page of it. -/
def State.pageWhole (s : State) (p : PageSet) (set : Nat) : Bool := s.pageSets.all fun o => o.num != set || o.image != p.image ||
  (upTo o.bufs).any fun ob => Tab.get (s.core o.core).pages 0 (o.key ob) != 0

/-- The page-in has ended; a binding whose cores all hold their page is in. -/
def State.pageDone (s : State) (c : Nat) (p : PageSet) (b set page : Nat) : State :=
  let w := s.pageEnds c p b set page
  if !s.gPoisoned (p.pageAddr page) (2 * p.words) && w.pageWhole p set then w.setBindState p.binding 1 else w

theorem exec_pageInComplete (hset : s.pageSet c.val set = some p) (hruns : s.sectorRuns (sectorOf c.val) = true)
    (hb : b = (s.core c.val).fillBuf p) (hpaging : Tab.get (s.core c.val).paging 0 set = page + 1)
    (hserve : s.gHeld (p.pageAddr page) (2 * p.words) = false) :
    exec (.pageInComplete c set) s = .next (s.pageDone c.val p b set page) := by
  subst hb
  change execPageInComplete c set s = _
  unfold execPageInComplete
  dsimp only
  rw [hset]
  dsimp only
  rw [hpaging]
  dsimp only
  rw [hruns, hserve]
  rfl

/-! ### What it does -/

theorem State.pageRead_keeps {c : Nat} : (s.pageRead c p b page).gddr.mem = (s.pageFilled c p b page).gddr.mem ∧
    State.KeepsBut [.gddr, .ctr] (s.pageFilled c p b page) (s.pageRead c p b page) := by
  obtain ⟨hmem, hkeeps⟩ := (s.pageFilled c p b page).gCheck_keeps (p.pageAddr page)
    (min (2 * p.words) ((s.pageFilled c p b page).pageClean p page + 64))
  refine ⟨?_, hkeeps.trans ((State.gddrCount_keeps _ _ _ _ _).mono (by decide))⟩
  rw [State.pageRead, State.gddrCount_gddr, hmem]

theorem State.pageRead_core {c d : Nat} : (s.pageRead c p b page).core d = (s.pageFilled c p b page).core d :=
  congrFun (State.pageRead_keeps.2.core_fun (by decide)) d

theorem State.pageRead_pages {c : Nat} : ((s.pageRead c p b page).core c).pages = (s.core c).pages := by
  rw [State.pageRead_core]
  exact congrArg (·.2.2) State.pageFilled_pagesIn.layout

theorem State.pageDone_core {c d : Nat} : (s.pageDone c p b set page).core d = (s.pageEnds c p b set page).core d := by
  unfold State.pageDone
  dsimp only
  split
  · exact State.setBindState_core
  · rfl

theorem State.pageEnds_core {c : Nat} : (s.pageEnds c p b set page).core c =
    ((s.pageRead c p b page).core c).pageEnds p b set page (s.gPoisoned (p.pageAddr page) (2 * p.words))
      (p.needed ((s.pageRead c p b page).netOf c).step = some page) := by
  rw [State.pageEnds, State.modCore_def, State.core_setCore_self]

theorem State.pageDone_paging {c : Nat} : Tab.get ((s.pageDone c p b set page).core c).paging 0 set = 0 := by
  rw [State.pageDone_core, State.pageEnds_core, CoreSt.pageEnds, Tab.get_set, if_pos rfl]

/-- The page table of the core, as the page met poison or not. -/
theorem State.pageDone_pages {c : Nat} : ((s.pageDone c p b set page).core c).pages =
    if s.gPoisoned (p.pageAddr page) (2 * p.words) then (s.core c).pages else Tab.set (s.core c).pages 0 (p.key b) (page + 1) := by
  rw [State.pageDone_core, State.pageEnds_core, CoreSt.pageEnds, State.pageRead_pages]

/-- What is neither paging nor the page table stands as the words came in. -/
theorem State.pageDone_get {α : Type} (f : CoreSt → α) (hf : ∀ k x y, f (k.pageEnds p b set page x y) = f k) {c : Nat} :
    f ((s.pageDone c p b set page).core c) = f ((s.pageFilled c p b page).core c) := by
  rw [State.pageDone_core, State.pageEnds_core, hf, State.pageRead_core]

theorem State.pageEnds_frame {c : Nat} : s.SameBytes (s.pageEnds c p b set page) ∧ State.CoresBut [c] s (s.pageEnds c p b set page) ∧
    State.KeepsBut [.cores, .gddr, .ctr, .sectors] s (s.pageEnds c p b set page) := by
  have hin := State.pageFilled_pagesIn (s := s) (c := c) (p := p) (b := b) (page := page)
  obtain ⟨hmem, hkeeps⟩ := State.pageRead_keeps (s := s) (c := c) (p := p) (b := b) (page := page)
  have hsector : (s.pageEnds c p b set page).sector = (s.pageFilled c p b page).sector := hkeeps.sector_fun (by decide)
  refine ⟨⟨hmem.trans hin.bytes.1, fun n => by rw [hsector, hin.bytes.2]⟩, fun d hd => ?_, ?_⟩
  · rw [State.pageEnds, State.modCore_def, State.core_setCore_ne _ _ _ _ (fun h => hd (by simp [h])), State.pageRead_core, hin.cores d hd]
  · unfold State.pageEnds
    simpa using (hin.keeps.mono (by decide)).trans (hkeeps.mono (by decide))

theorem State.pageDone_frame {c : Nat} : s.SameBytes (s.pageDone c p b set page) ∧ State.CoresBut [c] s (s.pageDone c p b set page) ∧
    State.KeepsBut [.cores, .gddr, .ctr, .binds, .sectors] s (s.pageDone c p b set page) := by
  obtain ⟨hbytes, hcores, hkeeps⟩ := State.pageEnds_frame (s := s) (c := c) (p := p) (b := b) (set := set) (page := page)
  have hstate : State.KeepsBut [.binds] (s.pageEnds c p b set page) (s.pageDone c p b set page) := by
    unfold State.pageDone State.setBindState
    dsimp only
    split
    · split
      · simp
      · exact .refl
    · exact .refl
  refine ⟨⟨?_, fun n => ?_⟩, fun d hd => State.pageDone_core.trans (hcores d hd), (hkeeps.mono (by decide)).trans (hstate.mono (by decide))⟩
  · rw [hstate.gddr_eq (by decide), hbytes.1]
  · rw [hstate.sector_fun (by decide), hbytes.2]

/-- A binding whose one page set this is is in. -/
theorem State.pageDone_bind {c : Nat} (hset : s.pageSet c set = some p) (hclean : s.gPoisoned (p.pageAddr page) (2 * p.words) = false)
    (hbind : p.binding < 64) (hb : b < p.bufs) (hone : ∀ o ∈ s.pageSets, o.num = set → o.image = p.image → o = p) :
    ((s.pageDone c p b set page).bind p.binding).state = 1 := by
  have hsets : (s.pageEnds c p b set page).pageSets = s.pageSets := State.pageEnds_frame.2.2.pageSets_eq (by decide)
  have hpages : ((s.pageEnds c p b set page).core p.core).pages = Tab.set (s.core c).pages 0 (p.key b) (page + 1) := by
    rw [(State.pageSet_eq hset).1, ← State.pageDone_core, State.pageDone_pages, hclean]
    rfl
  have hwhole : (s.pageEnds c p b set page).pageWhole p set = true := by
    refine List.all_eq_true.mpr fun o ho => ?_
    by_cases hsame : o.num = set ∧ o.image = p.image
    · obtain rfl : o = p := hone o (hsets ▸ ho) hsame.1 hsame.2
      rw [Bool.or_eq_true, hpages]
      refine .inr (List.any_eq_true.mpr ⟨b, mem_upTo.mpr hb, ?_⟩)
      rw [Tab.get_set, if_pos rfl]
      rfl
    · rw [Bool.or_eq_true, Bool.or_eq_true, bne_iff_ne, bne_iff_ne]
      exact .inl (not_and_or.mp hsame)
  rw [State.pageDone, hclean, hwhole]
  exact State.setBindState_state hbind

end Sys2Proof.Machine
end

section
/-! PROOF. GDDR6 blocks are served, channels retrain, pages come in (12 R303 to R314; O30). -/

namespace Sys2Proof.Machine

/-- Settles O30: a request is served as its op's equation says; a channel serves what waits one request after the other; a page-in
goes word by word and row by row. -/
theorem gddrAndPaging : Obligations.GddrAndPaging := by
  unfold Obligations.GddrAndPaging
  refine ⟨?access, ?retrain, ?paging⟩
  case access =>
    intro a b k g ch op cls ecc r was s hb htop hg hch hstate hwas hr hheld
    have halign : b % 64 = 0 := by omega
    have hsame : b / 64 * 64 = b := by omega
    have hblock : b / 64 = a / 64 := by omega
    have hlt : g < 65536 := by
      have := s.gddr.controller_lt (a := b)
      omega
    have hreq : blockReq a op cls ecc = { addr := b, op := op, cls := cls, ecc := ecc } := by rw [blockReq, hb]
    have hexec := exec_gddrAccess (k := k) (op := op) (cls := cls) (ecc := ecc) (hb ▸ htop) (hb ▸ hg) (hb ▸ hch) hstate
    rw [hreq] at hexec
    obtain ⟨hserves, hretrains, hwaits, hstopped⟩ := hexec
    refine ⟨fun hchan hk => ⟨_, hserves hchan hk, State.ctrAt_serveCounted hlt, fun hchecked => ?check, fun hread hfirm _ => ?read,
      fun m d hwrite => ?write, .trans (by simp) State.gddrServe_keeps⟩, fun hchan hk => ?_, fun hchan => ?_, hstopped⟩
    case check =>
      have hchecks := State.serveCounted_checks (s := s) (g := g) (k := k) (q := { addr := b, op := op, cls := cls, ecc := ecc })
        hchecked (hsame.symm ▸ hg)
      rw [hblock, GddrSt.check_eq, ← hwas, ← hr] at hchecks
      exact ⟨hwas ▸ hchecks.poison, hchecks.notes⟩
    case read =>
      have hanswer := State.serveCounted_read (s := s) (g := g) (k := k) (q := { addr := b, op := op, cls := cls, ecc := ecc })
        hread halign hheld hfirm
      rwa [hblock] at hanswer
    case write =>
      have hmem : ((s.countDev Ctr.gddrEdcRetry g k).gddrServe { addr := b, op := op, cls := cls, ecc := ecc }).gddr.mem =
          (s.gddr.storeMasked b m d).mem := by
        rw [State.serveCounted_mem, GddrSt.served, hwrite]
        exact congrArg (fun x => (s.gddr.storeMasked x m d).mem) hsame
      rw [hmem]
      refine ⟨GddrSt.storeMasked_plain, fun hlo hhi => GddrSt.storeMasked_reserved hlo (by unfold rtxBase at hhi ⊢; omega), fun hm => ?_,
        fun x hx => GddrSt.storeMasked_outside hx⟩
      rw [← hblock]
      exact State.gddrServe_whole_poison (q := { addr := b, op := op, cls := cls, ecc := ecc }) hwrite hm
    · exact ⟨_, hretrains hchan hk, gddrAccess_retrains⟩
    · exact ⟨_, hwaits hchan, rfl, by simp⟩
  case retrain =>
    intro g ch s n mine hn hmine
    obtain ⟨hfails, hserves, hother⟩ := exec_gddrChannelRetrain hn hmine
    have hserved : GddrSt.served = fun (m : GddrSt) (q : GddrReq) => match q.op with
        | .write w d => m.store (q.addr / 64 * 64) (maskBytes w (memRead m.mem (q.addr / 64 * 64) 64) d)
        | .read => m := by
      funext m q
      unfold GddrSt.served
      cases q.op <;> rfl
    refine ⟨fun hchan => ⟨⟨_, hfails hchan, gddrChannelRetrain_fails⟩, ⟨_, hserves hchan, ?_⟩⟩, hother⟩
    have hlt : g.val < 65536 := by have := g.isLt; omega
    have hafter := gddrChannelRetrain_serves (s := s) (n := n) (mine := mine) hlt (s.gddr.held.filter mine)
    rw [hserved] at hafter
    exact hafter
  case paging =>
    intro c set page b p s k hk hset hruns hb
    subst hk
    refine ⟨fun hpaging hdue hbusy hused hwaits => ?start, fun hpaging hserve => ?complete⟩
    case start =>
      refine ⟨_, exec_pageInStart hset hruns hb hpaging hdue hbusy hused hwaits, ?_, ?_, State.pageStarts_rows.1,
        State.pageStarts_rows.2, fun hbind => State.setBindState_state hbind, ?_, State.pageStarts_sameBytes, State.pageStarts_frame⟩
      · rw [State.pageStarts_core, CoreSt.pageStarts, Tab.get_set, if_pos rfl]
      · rw [State.pageStarts_core, CoreSt.pageStarts, Tab.get_set, if_pos rfl]
      · intro i h a hback hpage hi hdirty hclean halone ha hlo hserve
        exact State.pageStarts_writeBack rfl hback hpage hi hdirty hclean halone ha hlo hserve
    case complete =>
      have hword (x : Nat) := State.pageDone_get (s := s) (c := c.val) (p := p) (b := b) (set := set) (page := page)
        (·.synWord x) fun _ _ _ => rfl
      have hpending (i : Nat) := State.pageDone_get (s := s) (c := c.val) (p := p) (b := b) (set := set) (page := page)
        (·.rPending i) fun _ _ _ => rfl
      refine ⟨_, exec_pageInComplete hset hruns hb hpaging hserve, State.pageDone_paging, fun hclean => ?_, fun hpoison => ?_,
        State.pageDone_frame⟩
      · obtain ⟨hwords, houtside, hrows⟩ := State.pageFilled_fills (c := c.val) (b := b) hclean
        refine ⟨?_, fun x hx => (hword _).trans (hwords x hx), fun x hx => (hword x).trans (houtside x hx),
          fun i hi => (hpending i).trans (hrows i hi), fun hbind hbuf hone => State.pageDone_bind hset hclean hbind hbuf hone⟩
        rw [State.pageDone_pages, hclean, if_neg (by decide), Tab.get_set, if_pos rfl]
      · rw [State.pageDone_pages, if_pos hpoison]

end Sys2Proof.Machine
end

section
/-! SUPPORT. Routers (09 R223, R226, R233): the input ports of a sector after one of them has changed, and what an item that leaves
a router through one of its outputs changes. -/

namespace Sys2Proof.Machine

variable {s t u : State} {n m l port : Nat} {it : Item}

/-! ### Sectors -/

/-- A change of one sector leaves the others. -/
theorem State.sectorsBut_setSector {q : SectorSt} {ns : List Nat} (h : n ∈ ns) : State.SectorsBut ns s (s.setSector n q) :=
  fun _ hi => State.sector_setSector_ne _ _ _ _ fun hin => hi (hin ▸ h)

theorem State.SectorsBut.trans {ns : List Nat} (h : State.SectorsBut ns s t) (h' : State.SectorsBut ns t u) :
    State.SectorsBut ns s u :=
  fun i hi => (h' i hi).trans (h i hi)

theorem State.SectorsBut.mono {ns ns' : List Nat} (h : State.SectorsBut ns s t) (hns : ns ⊆ ns') : State.SectorsBut ns' s t :=
  fun i hi => h i fun hm => hi (hns hm)

/-- Where the sectors are equal, none differs. -/
theorem State.SectorsBut.of_eq {ns : List Nat} (h : t.sector = s.sector) : State.SectorsBut ns s t := fun i _ => congrFun h i

/-- Input port i of a sector whose port p has changed. -/
theorem SectorSt.inPort_set (q : SectorSt) (p i : Nat) (v : InPort) :
    ({ q with inp := Tab.set q.inp {} p v } : SectorSt).inPort i = if i = p then v else q.inPort i := Tab.get_set ..

/-- Input port i of sector n once its port p has changed. -/
theorem State.inPort_modIn (s : State) (n p i : Nat) (f : InPort → InPort) :
    ((s.modIn n p f).sector n).inPort i = if i = p then f ((s.sector n).inPort p) else (s.sector n).inPort i := by
  rw [State.modIn, State.modSector_def, State.sector_setSector_self, SectorSt.inPort_set]

/-! ### Links -/

/-- A link of sector n once it has changed. -/
theorem State.link_modLink (s : State) (n l i : Nat) (f : LinkSt → LinkSt) :
    ((s.modLink n l f).sector n).link i = if i = l then f ((s.sector n).link l) else (s.sector n).link i := by
  rw [State.modLink, State.modSector_def, State.sector_setSector_self, SectorSt.link_set]

/-- An item that goes onto a link is the last in flight there. -/
theorem State.inFlight_onLink : (((s.onLink n l it).sector n).link l).inFlight = ((s.sector n).link l).inFlight ++ [it] := by
  rw [State.onLink, State.link_modLink, if_pos rfl]

/-! ### An item leaves a router -/

/-- A sector without what its links, its core ports and its engines have received. -/
def SectorSt.unsent (q : SectorSt) : SectorSt := { q with links := [], toCore := [], toDesc := [], toSync := [] }

/-- What a change of one sector leaves of a view of every sector. -/
theorem State.view_modSector {α : Type} {view : SectorSt → α} {f : SectorSt → SectorSt} (h : ∀ q, view (f q) = view q) :
    view ((s.modSector n f).sector m) = view (s.sector m) := by
  rw [State.modSector_def]
  by_cases hm : m = n
  · rw [hm, State.sector_setSector_self, h]
  · rw [State.sector_setSector_ne _ _ _ _ hm]

/-- An item that leaves changes no more of any sector than what has been received there. -/
theorem State.unsent_leave : ((s.leave n port it).sector m).unsent = (s.sector m).unsent := by
  unfold State.leave
  split
  · exact State.view_modSector fun _ => rfl
  · split
    · exact State.view_modSector fun _ => rfl
    · refine State.view_modSector fun q => ?_
      split
      · rfl
      · split <;> rfl

/-- A field of a sector that holds nothing received stays when an item leaves. -/
theorem State.get_leave {α : Type} (f : SectorSt → α) (hf : ∀ q : SectorSt, f q.unsent = f q := by exact fun _ => rfl) :
    f ((s.leave n port it).sector m) = f (s.sector m) := by
  rw [← hf, State.unsent_leave, hf]

theorem State.leave_frame :
    State.SectorsBut [n, neighbour n port] s (s.leave n port it) ∧ State.KeepsBut [.sectors] s (s.leave n port it) := by
  unfold State.leave
  split
  · exact ⟨State.sectorsBut_setSector (by simp), by simp [State.onLink, State.modLink]⟩
  · split
    · exact ⟨State.sectorsBut_setSector (by simp), by simp [State.onLink, State.modLink]⟩
    · exact ⟨State.sectorsBut_setSector (by simp), by simp⟩

/-- Through a mesh output the item goes onto the link of the next sector. -/
theorem State.leave_mesh (h : port < 3) : (((s.leave n port it).sector (neighbour n port)).link (farLink port)).inFlight =
    ((s.sector (neighbour n port)).link (farLink port)).inFlight ++ [it] := by
  rw [State.leave, if_pos h, State.inFlight_onLink]

/-- Through the ring port it goes onto the outbound ring link. -/
theorem State.leave_ring : (((s.leave n 3 it).sector n).link 4).inFlight = ((s.sector n).link 4).inFlight ++ [it] := by
  rw [State.leave, if_neg (by decide), if_pos rfl, State.inFlight_onLink]

/-- Through an output of the core ports or engines it stays in the sector. -/
theorem State.leave_local (h : 4 ≤ port) : (s.leave n port it).sector n =
    if port = 21 then { s.sector n with toDesc := (s.sector n).toDesc ++ [it] }
    else if port = 22 then { s.sector n with toSync := (s.sector n).toSync ++ [it] }
    else { s.sector n with toCore := toCoreAdd (s.sector n).toCore it } := by
  rw [State.leave, if_neg (by omega), if_neg (by omega), State.modSector_def, State.sector_setSector_self]

theorem State.leave_core (h : 4 ≤ port) (h' : port < 21) :
    ((s.leave n port it).sector n).toCore = toCoreAdd (s.sector n).toCore it := by
  rw [State.leave_local h, if_neg (by omega), if_neg (by omega)]

theorem State.leave_desc : ((s.leave n 21 it).sector n).toDesc = (s.sector n).toDesc ++ [it] := by
  rw [State.leave_local (by decide), if_pos rfl]

theorem State.leave_sync : ((s.leave n 22 it).sector n).toSync = (s.sector n).toSync ++ [it] := by
  rw [State.leave_local (by decide), if_neg (by decide), if_pos rfl]

end Sys2Proof.Machine
end

section
/-! PROOF. A router grants by its arbiter, and drops unroutable events (09 R223, R225, R226, R233; O16). -/

namespace Sys2Proof.Machine

variable {s : State} {n port won : Nat} {it : Item} {rest : List Item}

/-! ### A grant -/

/-- An output's generator and grant counts once it has granted input port `won`. -/
def OutPort.granting (o : OutPort) (n port : Nat) (req : List Nat) (won : Nat) : OutPort :=
  { lfsr := some (BitVec.ofNat 16 (lfsrStep (lfsrOf n port o))), waits := waitsAfter o.waits req won }

/-- Output `port` of router n has taken the oldest item of input port `won`. -/
def State.granted (s : State) (n port won : Nat) : State :=
  (s.dropHead n won).modSector n fun q => { q with
    outp := Tab.set q.outp {} port ((Tab.get (s.sector n).outp {} port).granting n port (s.requests n port) won) }

theorem State.sector_granted : (s.granted n port won).sector n = { (s.dropHead n won).sector n with
    outp := Tab.set ((s.dropHead n won).sector n).outp {} port
      ((Tab.get (s.sector n).outp {} port).granting n port (s.requests n port) won) } := by
  rw [State.granted, State.modSector_def, State.sector_setSector_self]

theorem State.inPort_granted (i : Nat) : ((s.granted n port won).sector n).inPort i =
    if i = won then { (s.sector n).inPort won with be := ((s.sector n).inPort won).be.tail } else (s.sector n).inPort i := by
  rw [State.sector_granted]
  exact State.inPort_modIn ..

theorem State.outPort_granted : Tab.get ((s.granted n port won).sector n).outp {} port =
    (Tab.get (s.sector n).outp {} port).granting n port (s.requests n port) won := by
  rw [State.sector_granted]
  dsimp only
  rw [Tab.get_set, if_pos rfl]

/-- A field of a sector beside its ports stays when an output grants. -/
theorem State.get_granted {α : Type} (f : SectorSt → α) (m : Nat)
    (hf : ∀ (q : SectorSt) i o, f { q with inp := i, outp := o } = f q := by exact fun _ _ _ => rfl) :
    f ((s.granted n port won).sector m) = f (s.sector m) :=
  (State.view_modSector fun q => hf q q.inp _).trans (State.view_modSector fun q => hf q _ q.outp)

theorem State.granted_frame :
    State.SectorsBut [n, neighbour n port] s (s.granted n port won) ∧ State.KeepsBut [.sectors] s (s.granted n port won) := by
  refine ⟨?_, by simp [State.granted, State.dropHead, State.modIn]⟩
  exact (State.sectorsBut_setSector (by simp)).trans (State.sectorsBut_setSector (by simp))

/-- An output with requests, where no unroutable event is in front, grants the item that its arbiter finds and it can take. -/
theorem exec_routerForward_grants {n : SectorId} {out : Fin 23}
    (hwon : won = arbiter (lfsrOf n.val out.val (Tab.get (s.sector n.val).outp {} out.val))
      (Tab.get (s.sector n.val).outp {} out.val).waits (s.requests n.val out.val))
    (hruns : s.sectorRuns n.val = true) (hroutable : s.unroutableAt n.val = []) (hreq : s.requests n.val out.val ≠ [])
    (hhead : ((s.sector n.val).inPort won).be = it :: rest) (hready : s.outReady n.val out.val it = true) :
    exec (.routerForward n out) s = .next ((s.granted n.val out.val won).leave n.val out.val it) := by
  have hsome : ¬ (s.requests n.val out.val).isEmpty = true := by simpa using hreq
  change execRouterForward n out s = _
  unfold execRouterForward
  dsimp only
  rw [hruns, if_neg (by decide), hroutable]
  dsimp only
  rw [if_neg hsome, ← hwon, hhead]
  dsimp only
  rw [hready, if_neg (by decide)]
  rfl

/-! ### An unroutable event -/

/-- An input port with an unroutable item in front has an event there. -/
theorem State.head_of_unroutableAt {p : Nat} {ps : List Nat} (h : s.unroutableAt n = p :: ps) :
    ∃ e rest, ((s.sector n).inPort p).be = .event e :: rest ∧ 128 ≤ evCore e.ev := by
  have hmem : p ∈ s.unroutableAt n := by simp [h]
  have hhead := (List.mem_filter.mp hmem).2
  obtain ⟨it, hit, hun⟩ := (Option.any_eq_true _ _).mp hhead
  obtain ⟨rest, hbe⟩ : ∃ rest, ((s.sector n).inPort p).be = it :: rest := List.head?_eq_some_iff.mp hit
  cases it with
  | event e => exact ⟨e, rest, hbe, by simpa [Item.unroutable] using hun⟩
  | _ => simp [Item.unroutable] at hun

/-- The unroutable event in front of input port p is dropped and counted. -/
theorem exec_routerForward_drops {n : SectorId} {out : Fin 23} {p : Nat} {ps : List Nat} {e : EvItem}
    (hruns : s.sectorRuns n.val = true) (hun : s.unroutableAt n.val = p :: ps)
    (hhead : ((s.sector n.val).inPort p).be = .event e :: rest) :
    exec (.routerForward n out) s = .next (((s.dropHead n.val p).countSec n.val Ctr.dropUnroutable).evDone e) := by
  change execRouterForward n out s = _
  unfold execRouterForward
  dsimp only
  rw [hruns, if_neg (by decide), hun]
  dsimp only
  rw [hhead]
  rfl

/-- An event for no core of the device is done in its flow alone. -/
theorem State.evDone_unroutable {e : EvItem} (h : 128 ≤ evCore e.ev) :
    (s.evDone e).sector = s.sector ∧ State.KeepsBut [.flows] s (s.evDone e) := by
  have hnone : (e.token && decide (fld e.ev 57 48 < 128)) = false := by
    have : ¬ fld e.ev 57 48 < 128 := Nat.not_lt.mpr h
    simp [this]
  unfold State.evDone
  dsimp only
  rw [hnone, if_neg Bool.false_ne_true]
  split
  · exact ⟨rfl, .refl⟩
  · exact ⟨rfl, by simp⟩

/-- Settles O16: the state after a grant is the grant followed by the item's leaving; an unroutable event leaves its port. -/
theorem routersForwardAndDrop : Obligations.RoutersForwardAndDrop := by
  refine ⟨fun n out s it rest won hwon hruns hroutable hreq hhead hready => ?_, fun n out s p ps hruns hun => ?_⟩
  · refine ⟨_, exec_routerForward_grants hwon hruns hroutable hreq hhead hready, ?_, fun p hp => ?_, ?_, fun h => ?_, fun h => ?_,
      fun h h' => ?_, fun h => ?_, fun h => ?_, State.granted_frame.1.trans State.leave_frame.1,
      State.granted_frame.2.trans State.leave_frame.2⟩
    · rw [State.get_leave fun q => (q.inPort won).be, State.inPort_granted, if_pos rfl, hhead]
      rfl
    · rw [State.get_leave fun q => q.inPort p, State.inPort_granted, if_neg hp]
    · rw [State.get_leave fun q => (Tab.get q.outp {} out.val).lfsr, State.outPort_granted]
      rfl
    · rw [State.leave_mesh h, State.get_granted fun q => (q.link (farLink out.val)).inFlight]
    · rw [h, State.leave_ring, State.get_granted fun q => (q.link 4).inFlight]
    · rw [State.leave_core h h', State.get_granted (·.toCore)]
    · rw [h, State.leave_desc, State.get_granted (·.toDesc)]
    · rw [h, State.leave_sync, State.get_granted (·.toSync)]
  · obtain ⟨e, rest, hhead, hcore⟩ := State.head_of_unroutableAt hun
    obtain ⟨hport, -, hothers, -, hkeeps⟩ := s.modIn_facts n.val p fun i => { i with be := i.be.tail }
    obtain ⟨hsector, hdone⟩ := State.evDone_unroutable (s := (s.dropHead n.val p).countSec n.val Ctr.dropUnroutable) hcore
    have hcount : ((s.dropHead n.val p).countSec n.val Ctr.dropUnroutable).sector = (s.dropHead n.val p).sector := rfl
    refine ⟨_, exec_routerForward_drops hruns hun hhead, ?_, fun i hi => ?_, ?_, fun m hm => ?_, ?_⟩
    · rw [hsector, hcount]
      exact congrArg (·.be) hport
    · rw [hsector, hcount]
      exact (State.inPort_modIn ..).trans (if_neg hi)
    · rw [State.ctrAt_evDone, State.ctrAt_countSec_self one_ne_zero]
      rfl
    · rw [hsector, hcount]
      exact hothers m hm
    · have hcounted : State.KeepsBut [.sectors, .ctr, .flows] s ((s.dropHead n.val p).countSec n.val Ctr.dropUnroutable) := by
        simp [State.countSec, State.count, State.dropHead, State.modIn]
      exact hcounted.trans (hdone.mono (by decide))

end Sys2Proof.Machine
end

section
/-! SUPPORT. Scheduled flits and link cycles (09 R228 to R232, R235): what a slip, a flit that lands behind a link and the alignment
pulse change of a sector. -/

namespace Sys2Proof.Machine

variable {s : State} {n m l port : Nat} {it : Item} {e : EvItem}

/-! ### Slips -/

/-- A sector without its outputs and its event bits. -/
def SectorSt.unslipped (q : SectorSt) : SectorSt := { q with outp := [], netEvents := 0 }

/-- A flit that takes its lane, or slips, changes the outputs and the event bits of its sector. -/
theorem State.unslipped_slipTo : ((s.slipTo n port e l).sector m).unslipped = (s.sector m).unslipped := by
  have hcount (u : State) : (u.countSec n Ctr.schedSlip).sector = u.sector := rfl
  unfold State.slipTo
  dsimp only
  split
  · exact State.view_modSector fun _ => rfl
  · refine Eq.trans (State.view_modSector fun _ => rfl) ?_
    rw [hcount]
    exact State.view_modSector fun _ => rfl

theorem State.get_slipTo {α : Type} (f : SectorSt → α) (hf : ∀ q : SectorSt, f q.unslipped = f q := by exact fun _ => rfl) :
    f ((s.slipTo n port e l).sector m) = f (s.sector m) := by
  rw [← hf, State.unslipped_slipTo, hf]

theorem State.slipTo_frame :
    State.SectorsBut [n, neighbour n port] s (s.slipTo n port e l) ∧ State.KeepsBut [.sectors, .ctr] s (s.slipTo n port e l) := by
  have hcount (u : State) : State.SectorsBut [n, neighbour n port] u (u.countSec n Ctr.schedSlip) := fun _ _ => rfl
  unfold State.slipTo
  dsimp only
  split
  · exact ⟨State.sectorsBut_setSector (by simp), by simp⟩
  · refine ⟨.trans (State.sectorsBut_setSector (by simp)) (.trans (hcount _) (State.sectorsBut_setSector (by simp))), ?_⟩
    simp [State.countSec, State.count]

/-- A lane other than its own is a slip: reported and counted. -/
theorem State.slipTo_slips (h : l ≠ e.lane) : nbit ((s.slipTo n port e l).sector n).netEvents 3 = true ∧
    (s.slipTo n port e l).ctrAt Scope.sector n Ctr.schedSlip noSub 0 =
      satCtr (s.ctrAt Scope.sector n Ctr.schedSlip noSub 0 + 1) := by
  unfold State.slipTo
  dsimp only
  rw [if_neg h]
  constructor
  · rw [State.modSector_def, State.sector_setSector_self]
    simp
  · exact State.ctrAt_countSec_self one_ne_zero

/-! ### Flits that land behind a link -/

/-- A sector without its buffers. -/
def SectorSt.unbuffered (q : SectorSt) : SectorSt := { q with inp := [], toRing := [] }

theorem State.unbuffered_flitIn : ((s.flitIn n l it).sector m).unbuffered = (s.sector m).unbuffered := by
  unfold State.flitIn
  split
  · exact State.view_modSector fun _ => rfl
  · split
    · split
      · exact State.view_modSector fun _ => rfl
      · exact State.view_modSector fun _ => rfl
    · exact State.view_modSector fun _ => rfl

/-- A field of a sector beside its buffers stays when a flit lands. -/
theorem State.get_flitIn {α : Type} (f : SectorSt → α) (hf : ∀ q : SectorSt, f q.unbuffered = f q := by exact fun _ => rfl) :
    f ((s.flitIn n l it).sector m) = f (s.sector m) := by
  rw [← hf, State.unbuffered_flitIn, hf]

theorem State.flitIn_frame : State.SectorsBut [n] s (s.flitIn n l it) ∧ State.KeepsBut [.sectors] s (s.flitIn n l it) := by
  have hset (f : SectorSt → SectorSt) : State.SectorsBut [n] s (s.modSector n f) ∧ State.KeepsBut [.sectors] s (s.modSector n f) :=
    ⟨State.sectorsBut_setSector (by simp), by simp⟩
  unfold State.flitIn
  split
  · exact hset _
  · split
    · split
      · exact hset _
      · exact hset _
    · exact hset _

/-! ### Links that switch their mode empty (01 R24) -/

/-- A sector without its buffers and links. -/
def SectorSt.unlinked (q : SectorSt) : SectorSt := { q with inp := [], toRing := [], links := [] }

theorem State.unlinked_landLink : ((s.landLink n l).sector m).unlinked = (s.sector m).unlinked := by
  unfold State.landLink
  dsimp only
  split
  · rfl
  · refine (foldl_keeps (fun u => (u.sector m).unlinked) (fun u it => ?_) _ _).trans (State.view_modSector fun _ => rfl)
    exact State.get_flitIn SectorSt.unlinked

/-- The link that lands is empty, and every other stays. -/
theorem State.inFlight_landLink (i : Nat) : (((s.landLink n l).sector m).link i).inFlight =
    if m = n ∧ i = l then [] else ((s.sector m).link i).inFlight := by
  unfold State.landLink
  dsimp only
  split
  · next hempty =>
    split
    · next h => rw [h.1, h.2, List.isEmpty_iff.mp hempty]
    · rfl
  · refine (foldl_keeps (fun u => ((u.sector m).link i).inFlight) (fun u it => State.get_flitIn fun q => (q.link i).inFlight) _ _).trans ?_
    by_cases hm : m = n
    · rw [hm, State.link_modLink]
      by_cases hi : i = l <;> simp [hi]
    · rw [State.modLink, State.modSector_def, State.sector_setSector_ne _ _ _ _ hm, if_neg fun h => hm h.1]

theorem State.landLink_frame : State.KeepsBut [.sectors] s (s.landLink n l) := by
  unfold State.landLink
  dsimp only
  refine State.KeepsBut.ite .refl (State.KeepsBut.trans ?_ (State.KeepsBut.foldl (fun _ _ => State.flitIn_frame.2) _ _))
  simp [State.modLink]

theorem State.unlinked_emptyLinks : ((s.emptyLinks n).sector m).unlinked = (s.sector m).unlinked :=
  foldl_keeps (fun u => (u.sector m).unlinked) (fun _ _ => State.unlinked_landLink.trans State.unlinked_landLink) _ _

/-- A field of a sector beside its buffers and links stays when links empty. -/
theorem State.get_emptyLinks {α : Type} (f : SectorSt → α) (hf : ∀ q : SectorSt, f q.unlinked = f q := by exact fun _ => rfl) :
    f ((s.emptyLinks n).sector m) = f (s.sector m) := by
  rw [← hf, State.unlinked_emptyLinks, hf]

theorem State.inFlight_emptyLinks (h : l < 3) : (((s.emptyLinks n).sector n).link l).inFlight = [] := by
  simp only [State.emptyLinks, List.foldl_cons, List.foldl_nil, State.inFlight_landLink, true_and]
  interval_cases l <;> simp

theorem State.emptyLinks_frame : State.KeepsBut [.sectors] s (s.emptyLinks n) :=
  .foldl (fun _ _ => State.landLink_frame.trans State.landLink_frame) _ _

/-! ### The alignment pulse (R231) -/

/-- What relates each value of a table, and the default, to what they become relates every read. -/
theorem Tab.get_map {α β : Type} {t : Tab α} {d : α} {d' : β} {f : Nat × α → Nat × β} (r : α → β → Prop) (hd : r d d')
    (hf : ∀ x, (f x).1 = x.1 ∧ r x.2 (f x).2) (k : Nat) : r (Tab.get t d k) (Tab.get (t.map f) d' k) := by
  induction t with
  | nil => exact hd
  | cons x t ih =>
    obtain ⟨hkey, hval⟩ := hf x
    obtain ⟨i, v⟩ := x
    simp only [List.map_cons, Tab.get, hkey]
    split
    · exact hval
    · exact ih

/-- A sector at the alignment pulse. -/
def SectorSt.pulsed (q : SectorSt) (now : Nat) : SectorSt := { q.rebase (q.cycles now) with pulseAt := now, aligned := true }

/-- The pulse reaches every sector. -/
theorem State.sector_alignPulse : s.alignPulse.sector n = if n < 8 then (s.sector n).pulsed s.now else s.sector n := by
  have hall := foldl_each State.sector State.now
    (f := fun u n => u.modSector n fun q => { q.rebase (q.cycles u.now) with pulseAt := u.now, aligned := true })
    (fun now _ q => q.pulsed now) (fun _ _ => State.sector_setSector_self ..) (fun _ _ _ hc => State.sector_setSector_ne _ _ _ _ hc)
    (fun _ _ => rfl) (upTo_nodup 8) s n
  simp only [mem_upTo] at hall
  exact hall

theorem State.alignPulse_frame : State.KeepsBut [.sectors] s s.alignPulse := .foldl (fun _ _ => by simp) _ _

theorem State.now_alignPulse : s.alignPulse.now = s.now := congrArg (·.time) (State.alignPulse_frame.ao_eq)

theorem SectorSt.frame_pulsed (q : SectorSt) (now : Nat) : (q.pulsed now).frame now = 0 := by
  simp [SectorSt.frame, SectorSt.cycles, SectorSt.pulsed]

/-- The pulse sets every frame counter to 0 and ALIGNED. -/
theorem State.alignPulse_aligns (h : n < 8) : (s.alignPulse.sector n).frame s.alignPulse.now = 0 ∧
    (s.alignPulse.sector n).aligned = true ∧ (s.alignPulse.sector n).pulseAt = s.now := by
  rw [State.sector_alignPulse, if_pos h, State.now_alignPulse]
  exact ⟨SectorSt.frame_pulsed _ _, rfl, rfl⟩

/-- A field of a sector that the pulse does not set, nor counts from it. -/
theorem State.get_alignPulse {α : Type} (f : SectorSt → α)
    (hf : ∀ (q : SectorSt) now, f (q.pulsed now) = f q := by exact fun _ _ => rfl) :
    f (s.alignPulse.sector n) = f (s.sector n) := by
  rw [State.sector_alignPulse]
  split
  · exact hf _ _
  · rfl

theorem State.inFlight_alignPulse (h : ((s.sector n).link l).inFlight = []) : ((s.alignPulse.sector n).link l).inFlight = [] := by
  rw [State.sector_alignPulse]
  split
  · refine Tab.get_map (fun a b : LinkSt => a.inFlight = [] → b.inFlight = []) id ?_ l h
    exact fun _ => ⟨rfl, List.map_eq_nil_iff.mpr⟩
  · exact h

theorem State.sameBytes_alignPulse : s.SameBytes s.alignPulse :=
  ⟨congrArg (·.mem) State.alignPulse_frame.gddr_eq, fun _ => State.get_alignPulse (·.mem)⟩

end Sys2Proof.Machine
end

section
/-! PROOF. Scheduled flits, the alignment pulse and sector clocks (09 R228, R229, R231; 16 R410, R417; O17). -/

namespace Sys2Proof.Machine

variable {s : State} {n p : Nat} {e : EvItem}

/-! ### A scheduled flit -/

/-- The scheduled flit e of input port p of router n leaves its buffer and, on a mesh output, takes its lane. -/
def State.takeSched (s : State) (n p : Nat) (e : EvItem) (out : Nat) : State :=
  let t := s.modIn n p fun i => { i with sched := i.sched.erase e }
  if out < 3 then t.slipTo n out e (s.laneOf n out e) else t

variable {out : Nat}

/-- An event leaves by a mesh output or a core port. -/
theorem State.outPort_event (s : State) (n : Nat) (e : EvItem) : s.outPort n (.event e) < 3 ∨
    4 ≤ s.outPort n (.event e) ∧ s.outPort n (.event e) < 21 := by
  simp only [State.outPort, Item.dest]
  split
  · right
    unfold State.corePort
    dsimp only
    have hindex : indexOf (evCore e.ev) < 16 := Nat.mod_lt _ (by decide)
    split <;> omega
  · left
    unfold towards
    split
    · decide
    · split <;> decide

/-- The first scheduled flit of an input port, once its cycle has come and its output takes it. -/
theorem exec_scheduledFlitSend {n : SectorId} {port : Fin 23}
    (hroutable : ((s.sector n.val).inPort port.val).sched.find? (fun x => Item.unroutable (.event x)) = none)
    (hfirst : firstDue ((s.sector n.val).inPort port.val).sched = some e) (hout : out = s.outPort n.val (.event e))
    (hruns : s.sectorRuns n.val = true) (hdue : e.due ≤ (s.sector n.val).cycles s.now) (hready : s.schedReady n.val out = true) :
    exec (.scheduledFlitSend n port) s = .next ((s.takeSched n.val port.val e out).leave n.val out (.event e)) := by
  have hwaits : ¬ (decide ((s.sector n.val).cycles s.now < e.due) || !s.schedReady n.val (s.outPort n.val (.event e))) = true := by
    rw [← hout, hready]
    simpa using hdue
  change execScheduledFlitSend n port s = _
  unfold execScheduledFlitSend
  dsimp only
  rw [hruns, if_neg (by decide), hroutable]
  dsimp only
  rw [hfirst]
  dsimp only
  rw [if_neg hwaits, ← hout]
  rfl

/-- A field of a sector that no flit's leaving of a buffer and no slip changes. -/
theorem State.get_takeSched {α : Type} (f : SectorSt → α) (m : Nat)
    (hslip : ∀ q : SectorSt, f q.unslipped = f q := by exact fun _ => rfl)
    (hport : ∀ (q : SectorSt) i, f { q with inp := i } = f q := by exact fun _ _ => rfl) :
    f ((s.takeSched n p e out).sector m) = f (s.sector m) := by
  have hin : f ((s.modIn n p fun i => { i with sched := i.sched.erase e }).sector m) = f (s.sector m) :=
    State.view_modSector fun q => hport q _
  unfold State.takeSched
  dsimp only
  split
  · rw [State.get_slipTo f hslip, hin]
  · exact hin

theorem State.sched_takeSched :
    (((s.takeSched n p e out).sector n).inPort p).sched = ((s.sector n).inPort p).sched.erase e := by
  have hin := congrArg InPort.sched ((s.inPort_modIn n p p fun i => { i with sched := i.sched.erase e }).trans (if_pos rfl))
  unfold State.takeSched
  dsimp only
  split
  · rw [State.get_slipTo fun q => (q.inPort p).sched, hin]
  · exact hin

theorem State.takeSched_frame : State.SectorsBut [n, neighbour n out] s (s.takeSched n p e out) ∧
    State.KeepsBut [.sectors, .ctr] s (s.takeSched n p e out) := by
  have hin : State.SectorsBut [n, neighbour n out] s (s.modIn n p fun i => { i with sched := i.sched.erase e }) :=
    State.sectorsBut_setSector (by simp)
  have hkeeps : State.KeepsBut [.sectors, .ctr] s (s.modIn n p fun i => { i with sched := i.sched.erase e }) := by
    simp [State.modIn]
  unfold State.takeSched
  dsimp only
  split
  · exact ⟨hin.trans State.slipTo_frame.1, hkeeps.trans State.slipTo_frame.2⟩
  · exact ⟨hin, hkeeps⟩

/-- On a mesh output a lane that is not its own is a slip. -/
theorem State.takeSched_slips (hmesh : out < 3) (hlane : s.laneOf n out e ≠ e.lane) :
    nbit ((s.takeSched n p e out).sector n).netEvents 3 = true ∧
    (s.takeSched n p e out).ctrAt Scope.sector n Ctr.schedSlip noSub 0 =
      satCtr (s.ctrAt Scope.sector n Ctr.schedSlip noSub 0 + 1) := by
  unfold State.takeSched
  dsimp only
  rw [if_pos hmesh]
  exact State.slipTo_slips hlane

/-- What a scheduled flit changes as it leaves its router. -/
theorem scheduledFlit_sent (hout : out = s.outPort n (.event e)) (t : State)
    (ht : t = (s.takeSched n p e out).leave n out (.event e)) :
    ((t.sector n).inPort p).sched = ((s.sector n).inPort p).sched.erase e ∧
      (out < 3 → ((t.sector (neighbour n out)).link (farLink out)).inFlight =
        ((s.sector (neighbour n out)).link (farLink out)).inFlight ++ [Item.event e]) ∧
      (4 ≤ out → (t.sector n).toCore = toCoreAdd (s.sector n).toCore (.event e)) ∧
      (out < 3 → s.laneOf n out e ≠ e.lane → nbit (t.sector n).netEvents 3 = true ∧
        t.ctrAt Scope.sector n Ctr.schedSlip noSub 0 = satCtr (s.ctrAt Scope.sector n Ctr.schedSlip noSub 0 + 1)) ∧
      State.SectorsBut [n, neighbour n out] s t ∧ State.KeepsBut [.sectors, .ctr] s t := by
  subst ht
  refine ⟨?_, fun hmesh => ?_, fun hcore => ?_, fun hmesh hlane => ?_, State.takeSched_frame.1.trans State.leave_frame.1,
    State.takeSched_frame.2.trans (State.leave_frame.2.mono (by decide))⟩
  · rw [State.get_leave fun q => (q.inPort p).sched, State.sched_takeSched]
  · rw [State.leave_mesh hmesh, State.get_takeSched fun q => (q.link (farLink out)).inFlight]
  · have hlt : out < 21 := by
      have := s.outPort_event n e
      omega
    rw [State.leave_core hcore hlt, State.get_takeSched (·.toCore)]
  · have hctr : ((s.takeSched n p e out).leave n out (.event e)).ctr = (s.takeSched n p e out).ctr := State.leave_frame.2.ctr_eq
    rw [State.get_leave (·.netEvents), State.ctrAt, hctr]
    exact State.takeSched_slips hmesh hlane

/-! ### A relock -/

/-- A sector at the new operating point that its PLL has locked to. -/
def SectorSt.relocked (q : SectorSt) : SectorSt := { q with op := q.opNext - 1, opNext := 0, stopped := false }

/-- Sector n resumes at its new operating point. -/
def State.relock (s : State) (n : Nat) : State := (s.emptyLinks n).modSector n SectorSt.relocked

theorem exec_pllRelockComplete {n : SectorId} (h : (s.sector n.val).opNext ≠ 0) : exec (.pllRelockComplete n) s =
    .next (if (upTo 8).any fun i => ((s.relock n.val).sector i).stopped then s.relock n.val else (s.relock n.val).alignPulse) := by
  change execPllRelockComplete n s = _
  unfold execPllRelockComplete
  dsimp only
  rw [if_neg h]
  rfl

theorem State.sector_relock : (s.relock n).sector n = ((s.emptyLinks n).sector n).relocked := State.sector_setSector_self ..

theorem State.relock_sets : ((s.relock n).sector n).op = (s.sector n).opNext - 1 ∧ ((s.relock n).sector n).opNext = 0 ∧
    ((s.relock n).sector n).stopped = false ∧ ∀ l, l < 3 → (((s.relock n).sector n).link l).inFlight = [] := by
  have hop (q : SectorSt) : q.relocked.op = q.opNext - 1 := rfl
  have hlink (q : SectorSt) (l : Nat) : q.relocked.link l = q.link l := rfl
  rw [State.sector_relock]
  refine ⟨?_, rfl, rfl, fun l hl => ?_⟩
  · rw [hop, State.get_emptyLinks (·.opNext)]
  · rw [hlink, State.inFlight_emptyLinks hl]

/-- The other sectors stop and run as before. -/
theorem State.stopped_relock {i : Nat} (hi : i ≠ n) : ((s.relock n).sector i).stopped = (s.sector i).stopped := by
  rw [State.relock, State.modSector_def, State.sector_setSector_ne _ _ _ _ hi, State.get_emptyLinks (·.stopped)]

theorem State.relock_frame : State.KeepsBut [.sectors] s (s.relock n) := by
  simp [State.relock, State.emptyLinks_frame]

theorem pllRelockComplete_resumes (n : SectorId) (s : State) (h : (s.sector n.val).opNext ≠ 0) :
    ∃ t, exec (.pllRelockComplete n) s = .next t ∧ (t.sector n.val).op = (s.sector n.val).opNext - 1 ∧
      (t.sector n.val).opNext = 0 ∧ (t.sector n.val).stopped = false ∧
      (∀ l, l < 3 → ((t.sector n.val).link l).inFlight = []) ∧
      ((∀ i, i < 8 → i ≠ n.val → (s.sector i).stopped = false) →
        ∀ i, i < 8 → (t.sector i).frame t.now = 0 ∧ (t.sector i).aligned = true) ∧
      State.KeepsBut [.sectors] s t := by
  obtain ⟨hop, hnext, hstopped, hlinks⟩ := State.relock_sets (s := s) (n := n.val)
  refine ⟨_, exec_pllRelockComplete h, ?_⟩
  by_cases hany : (upTo 8).any fun i => ((s.relock n.val).sector i).stopped
  · rw [if_pos hany]
    refine ⟨hop, hnext, hstopped, hlinks, fun hlast => ?_, State.relock_frame⟩
    obtain ⟨i, hi, hstop⟩ := List.any_eq_true.mp hany
    by_cases hin : i = n.val
    · rw [hin, hstopped] at hstop
      exact absurd hstop (by decide)
    · rw [State.stopped_relock hin, hlast i (mem_upTo.mp hi) hin] at hstop
      exact absurd hstop (by decide)
  · rw [if_neg hany]
    refine ⟨?_, ?_, ?_, fun l hl => State.inFlight_alignPulse (hlinks l hl), fun _ i hi => ?_,
      State.relock_frame.trans State.alignPulse_frame⟩
    · rw [State.get_alignPulse (·.op), hop]
    · rw [State.get_alignPulse (·.opNext), hnext]
    · rw [State.get_alignPulse (·.stopped), hstopped]
    · exact ⟨(State.alignPulse_aligns hi).1, (State.alignPulse_aligns hi).2.1⟩

/-! ### Gating -/

theorem exec_sectorGate {n : SectorId} (h : s.mayGate n.val = true) : exec (.sectorGate n) s =
    .next (s.platform ((s.modSector n.val fun q => { q with gated := true }).countSec n.val Ctr.sectorGate)) :=
  congrArg Host.Outcome.next (if_pos h)

theorem exec_sectorUngate {n : SectorId} (h : (s.sector n.val).gated = true) :
    exec (.sectorUngate n) s = .next (s.platform (s.modSector n.val fun q => { q with gated := false })) :=
  congrArg Host.Outcome.next (if_pos h)

/-- Settles O17: a scheduled flit by its taking and its leaving, the pulse and the relock by their lemmas, and the gate of one sector. -/
theorem scheduledFlitsAndSectorClocks : Obligations.ScheduledFlitsAndSectorClocks := by
  refine ⟨⟨fun n port s e out hroutable hfirst hout hruns hdue hready => ?_, fun s => ?_, pllRelockComplete_resumes⟩,
    fun n s hmay => ?_, fun n s hgated => ?_⟩
  · exact ⟨_, exec_scheduledFlitSend hroutable hfirst hout hruns hdue hready, scheduledFlit_sent hout _ rfl⟩
  · refine ⟨s.alignPulse, rfl, fun n hn => ?_, State.alignPulse_frame⟩
    exact ⟨(State.alignPulse_aligns hn).1, (State.alignPulse_aligns hn).2.1⟩
  · have hcount (u : State) : (u.countSec n.val Ctr.sectorGate).sector = u.sector := rfl
    refine ⟨_, exec_sectorGate hmay, ?_, ?_, fun i hi => ?_, ?_⟩
    · rw [(State.platform_units _ _).1, hcount, State.modSector_def, State.sector_setSector_self]
    · rw [State.ctrAt_platform, State.ctrAt_countSec_self one_ne_zero]
      rfl
    · rw [(State.platform_units _ _).1, hcount]
      exact State.sectorsBut_setSector (by simp) i hi
    · simp [State.countSec, State.count]
  · refine ⟨_, exec_sectorUngate hgated, ?_, fun i hi => ?_, by simp⟩
    · rw [(State.platform_units _ _).1, State.modSector_def, State.sector_setSector_self]
    · rw [(State.platform_units _ _).1]
      exact State.sectorsBut_setSector (by simp) i hi

end Sys2Proof.Machine
end

section
/-! PROOF. Mesh links correct, replay and stop (09 R229, R235; O18). -/

namespace Sys2Proof.Machine

variable {s : State} {n l : Nat} {it : Item} {rest : List Item}

/-! ### Counting at a sector, and changing a link -/

theorem State.ctrAt_countSec_sub {id sub inc : Nat} (h : inc ≠ 0) :
    (s.countSec n id sub inc).ctrAt Scope.sector n id sub 0 = satCtr (s.ctrAt Scope.sector n id sub 0 + inc) := by
  simp [State.countSec, State.count, State.ctrAdd, h, State.ctrAt_ctrPut]

@[simp] theorem State.sector_countSec (id sub inc : Nat) : (s.countSec n id sub inc).sector = s.sector := by
  unfold State.countSec State.count State.ctrAdd
  split <;> rfl

theorem State.countSec_frame {id sub inc : Nat} :
    State.SectorsBut [n] s (s.countSec n id sub inc) ∧ State.KeepsBut [.sectors, .ctr] s (s.countSec n id sub inc) :=
  ⟨.of_eq (State.sector_countSec ..), by simp [State.countSec, State.count]⟩

theorem State.modLink_frame (f : LinkSt → LinkSt) :
    State.SectorsBut [n] s (s.modLink n l f) ∧ State.KeepsBut [.sectors] s (s.modLink n l f) :=
  ⟨State.sectorsBut_setSector (by simp), by simp [State.modLink]⟩

/-! ### A flit lands -/

/-- Behind the ring's inbound port the flit stands among what the ring has received. -/
theorem State.toRing_flitIn : ((s.flitIn n 4 it).sector n).toRing = (s.sector n).toRing ++ [it] := by
  unfold State.flitIn
  rw [if_pos rfl, State.modSector_def, State.sector_setSector_self]

/-- A best-effort flit stands last in its input port. -/
theorem State.be_flitIn (hl : l < 4) (hit : it.isSched = false) :
    (((s.flitIn n l it).sector n).inPort l).be = ((s.sector n).inPort l).be ++ [it] := by
  have hoffer : s.flitIn n l it = s.offer n l it := by
    unfold State.flitIn
    rw [if_neg (by omega)]
    cases it with
    | event e => exact if_neg (ne_true_of_eq_false hit)
    | _ => rfl
  rw [hoffer, State.offer, State.inPort_modIn, if_pos rfl]

/-- A scheduled flit stands last in the scheduled buffer, due 4 cycles after the hop that it has made. -/
theorem State.sched_flitIn {e : EvItem} (hl : l < 4) (he : e.sched = true) :
    (((s.flitIn n l (.event e)).sector n).inPort l).sched = ((s.sector n).inPort l).sched ++ [{ e with due := e.due + 4 }] := by
  unfold State.flitIn
  rw [if_neg (by omega)]
  dsimp only
  rw [if_pos he, State.inPort_modIn, if_pos rfl]

/-! ### The check of a flit -/

/-- The oldest flit in flight leaves link l, whose failures are over. -/
def State.linkTakes (s : State) (n l : Nat) (rest : List Item) : State :=
  s.modLink n l fun k => { k with inFlight := rest, fails := 0 }

/-- A clean or corrected flit is taken from its link, counted where it was corrected, and lands. -/
theorem exec_linkFlitReceive_lands {n : SectorId} {l : Fin 5} {fixed : Bool}
    (hflight : ((s.sector n.val).link l.val).inFlight = it :: rest) (hstop : ((s.sector n.val).link l.val).stopped = false)
    (hreplay : ((s.sector n.val).link l.val).replay = false) (hruns : s.sectorRuns n.val = true)
    (hroom : s.flitRoom n.val l.val it = true) :
    exec (.linkFlitReceive n l (if fixed then .corrected else .clean)) s = .next
      ((if fixed then (s.linkTakes n.val l.val rest).countSec n.val Ctr.linkEccCorr (min l.val 3)
        else s.linkTakes n.val l.val rest).flitIn n.val l.val it) := by
  change execLinkFlitReceive n l _ s = _
  unfold execLinkFlitReceive
  dsimp only
  rw [hflight]
  dsimp only
  rw [hstop, hreplay, hruns, if_neg (by decide)]
  cases fixed with
  | true =>
    rw [if_pos rfl, if_pos rfl]
    dsimp only
    rw [hroom, if_neg (by decide)]
    rfl
  | false =>
    rw [if_neg Bool.false_ne_true, if_neg Bool.false_ne_true]
    dsimp only
    rw [hroom, if_neg (by decide)]
    rfl

theorem linkFlitReceive_lands (n : SectorId) (l : Fin 5) (s : State) (fixed : Bool) (it : Item) (rest : List Item)
    (hflight : ((s.sector n.val).link l.val).inFlight = it :: rest) (hstop : ((s.sector n.val).link l.val).stopped = false)
    (hreplay : ((s.sector n.val).link l.val).replay = false) (hruns : s.sectorRuns n.val = true)
    (hroom : s.flitRoom n.val l.val it = true) :
    ∃ t, exec (.linkFlitReceive n l (if fixed then .corrected else .clean)) s = .next t ∧
      ((t.sector n.val).link l.val).inFlight = rest ∧ ((t.sector n.val).link l.val).fails = 0 ∧
      (l.val < 4 → it.isSched = false → ((t.sector n.val).inPort l.val).be = ((s.sector n.val).inPort l.val).be ++ [it]) ∧
      (∀ e, l.val < 4 → it = .event e → e.sched = true →
        ((t.sector n.val).inPort l.val).sched = ((s.sector n.val).inPort l.val).sched ++ [{ e with due := e.due + 4 }]) ∧
      (l.val = 4 → (t.sector n.val).toRing = (s.sector n.val).toRing ++ [it]) ∧
      (fixed = true → t.ctrAt Scope.sector n.val Ctr.linkEccCorr (min l.val 3) 0 =
        satCtr (s.ctrAt Scope.sector n.val Ctr.linkEccCorr (min l.val 3) 0 + 1)) ∧
      (fixed = false → t.ctr = s.ctr) ∧ State.SectorsBut [n.val] s t ∧ State.KeepsBut [.sectors, .ctr] s t := by
  refine ⟨_, exec_linkFlitReceive_lands hflight hstop hreplay hruns hroom, ?_⟩
  set u := s.linkTakes n.val l.val rest with hu
  set v := if fixed then u.countSec n.val Ctr.linkEccCorr (min l.val 3) else u with hv
  have hsector : v.sector = u.sector := by
    rw [hv]
    split <;> rfl
  have hlink : (u.sector n.val).link l.val = { (s.sector n.val).link l.val with inFlight := rest, fails := 0 } :=
    (State.link_modLink ..).trans (if_pos rfl)
  have hport : (u.sector n.val).inPort l.val = (s.sector n.val).inPort l.val :=
    State.view_modSector (view := (·.inPort l.val)) fun _ => rfl
  have hring : (u.sector n.val).toRing = (s.sector n.val).toRing := State.view_modSector (view := (·.toRing)) fun _ => rfl
  have hctr : (v.flitIn n.val l.val it).ctr = v.ctr := State.flitIn_frame.2.ctr_eq
  have hu_frame : State.SectorsBut [n.val] s u ∧ State.KeepsBut [.sectors] s u := State.modLink_frame _
  have hv_frame : State.SectorsBut [n.val] u v ∧ State.KeepsBut [.sectors, .ctr] u v := by
    rw [hv]
    split
    · exact State.countSec_frame
    · exact ⟨.of_eq rfl, .refl⟩
  refine ⟨?_, ?_, fun hl hit => ?_, fun e hl hit he => ?_, fun hl => ?_, fun hfixed => ?_, fun hfixed => ?_,
    (hu_frame.1.trans hv_frame.1).trans State.flitIn_frame.1,
    ((hu_frame.2.mono (by decide)).trans hv_frame.2).trans (State.flitIn_frame.2.mono (by decide))⟩
  · rw [State.get_flitIn fun q => (q.link l.val).inFlight, hsector, hlink]
  · rw [State.get_flitIn fun q => (q.link l.val).fails, hsector, hlink]
  · rw [State.be_flitIn hl hit, hsector, hport]
  · rw [hit, State.sched_flitIn hl he, hsector, hport]
  · rw [hl, State.toRing_flitIn, hsector, hring]
  · rw [State.ctrAt, hctr, hv, if_pos hfixed]
    exact State.ctrAt_countSec_sub one_ne_zero
  · rw [hctr, hv, hfixed, if_neg Bool.false_ne_true, hu_frame.2.ctr_eq]

/-- An uncorrectable flit stays with its sender. -/
theorem exec_linkFlitReceive_fails {n : SectorId} {l : Fin 5} {ecc : EccResult} (hecc : ecc = .uncorrectable ∨ ecc = .tagMismatch)
    (hflight : ((s.sector n.val).link l.val).inFlight ≠ []) (hstop : ((s.sector n.val).link l.val).stopped = false)
    (hreplay : ((s.sector n.val).link l.val).replay = false) (hruns : s.sectorRuns n.val = true) :
    exec (.linkFlitReceive n l ecc) s =
      .next (s.modLink n.val l.val fun k => { k with replay := true, fails := k.fails + 1 }) := by
  obtain ⟨it, rest, hhead⟩ := List.exists_cons_of_ne_nil hflight
  change execLinkFlitReceive n l _ s = _
  unfold execLinkFlitReceive
  dsimp only
  rw [hhead]
  dsimp only
  rw [hstop, hreplay, hruns, if_neg (by decide)]
  rcases hecc with rfl | rfl <;> rfl

/-! ### A replay -/

/-- A link that stops. -/
def LinkSt.halted (k : LinkSt) : LinkSt := { k with replay := false, stopped := true }

/-- A link on which the sender resends. -/
def LinkSt.resent (k : LinkSt) : LinkSt := { k with replay := false, inFlight := k.inFlight.map Item.replayed }

/-- Bit i of the event bits of sector n is set. -/
def State.netEvent (s : State) (n i : Nat) : State := s.modSector n fun q => { q with netEvents := nsetBit q.netEvents i }

theorem State.link_netEvent (i : Nat) : ((s.netEvent n i).sector n).link l = (s.sector n).link l :=
  State.view_modSector (view := (·.link l)) fun _ => rfl

theorem State.nbit_netEvent (i : Nat) : nbit ((s.netEvent n i).sector n).netEvents i = true := by
  rw [State.netEvent, State.modSector_def, State.sector_setSector_self]
  simp

theorem State.netEvent_frame (i : Nat) : State.SectorsBut [n] s (s.netEvent n i) ∧ State.KeepsBut [.sectors] s (s.netEvent n i) :=
  ⟨State.sectorsBut_setSector (by simp), by simp [State.netEvent]⟩

/-- At the third failure of one link cycle the link stops. -/
theorem exec_linkReplay_stops {n : SectorId} {l : Fin 5} (hreplay : ((s.sector n.val).link l.val).replay = true)
    (hfails : 3 ≤ ((s.sector n.val).link l.val).fails) :
    exec (.linkReplay n l) s = .next ((s.modLink n.val l.val LinkSt.halted).netEvent n.val 1) := by
  change execLinkReplay n l s = _
  unfold execLinkReplay
  dsimp only
  rw [hreplay, if_neg (by decide), if_pos hfails]
  rfl

/-- Before it the sender resends. -/
theorem exec_linkReplay_resends {n : SectorId} {l : Fin 5} (hreplay : ((s.sector n.val).link l.val).replay = true)
    (hfails : ¬ 3 ≤ ((s.sector n.val).link l.val).fails) : exec (.linkReplay n l) s =
      .next (((s.modLink n.val l.val LinkSt.resent).countSec n.val Ctr.linkReplay (min l.val 3)).netEvent n.val 2) := by
  change execLinkReplay n l s = _
  unfold execLinkReplay
  dsimp only
  rw [hreplay, if_neg (by decide), if_neg hfails]
  rfl

/-- Settles O18: a flit lands or stays with its sender; a replay resends, or stops the link. -/
theorem linkProtection : Obligations.LinkProtection := by
  intro n l s
  refine ⟨linkFlitReceive_lands n l s, fun ecc hecc hflight hstop hreplay hruns => ?_, fun hreplay => ?_⟩
  · exact ⟨_, exec_linkFlitReceive_fails hecc hflight hstop hreplay hruns, (State.link_modLink ..).trans (if_pos rfl),
      State.modLink_frame _⟩
  · by_cases hfails : 3 ≤ ((s.sector n.val).link l.val).fails
    · have hlink : (((s.modLink n.val l.val LinkSt.halted).netEvent n.val 1).sector n.val).link l.val =
          ((s.sector n.val).link l.val).halted := by rw [State.link_netEvent, State.link_modLink, if_pos rfl]
      refine ⟨_, exec_linkReplay_stops hreplay hfails, by rw [hlink]; rfl, fun _ => ⟨by rw [hlink]; rfl, by rw [hlink]; rfl,
          State.nbit_netEvent 1, rfl⟩, fun hlt => absurd hfails (by omega), (State.modLink_frame _).1.trans (State.netEvent_frame 1).1,
        ((State.modLink_frame _).2.trans (State.netEvent_frame 1).2).mono (by decide)⟩
    · have hlink : ((((s.modLink n.val l.val LinkSt.resent).countSec n.val Ctr.linkReplay (min l.val 3)).netEvent n.val 2).sector
          n.val).link l.val = ((s.sector n.val).link l.val).resent := by
        rw [State.link_netEvent, State.sector_countSec, State.link_modLink, if_pos rfl]
      refine ⟨_, exec_linkReplay_resends hreplay hfails, by rw [hlink]; rfl, fun hge => absurd hge hfails,
        fun _ => ⟨by rw [hlink]; rfl, by rw [hlink]; rfl, State.ctrAt_countSec_sub one_ne_zero, State.nbit_netEvent 2⟩,
        ((State.modLink_frame _).1.trans State.countSec_frame.1).trans (State.netEvent_frame 2).1, ?_⟩
      exact (((State.modLink_frame _).2.mono (by decide)).trans State.countSec_frame.2).trans
        ((State.netEvent_frame 2).2.mono (by decide))

end Sys2Proof.Machine
end

section
/-! PROOF. Sector banks: reads, writes and atomics, and the requests that stall (09 R236 to R239; 10 R259; O19). -/

namespace Sys2Proof.Machine

variable {s t u : State} {n : Nat}

/-! ### Counting at a bank -/

/-- Between s and t nothing but counting happens in sector n and its cores: the sector differs in staged trace records alone. -/
structure State.BankNotes (n : Nat) (s t : State) : Prop where
  sector : (t.sector n).untraced = (s.sector n).untraced
  sectors : State.SectorsBut [n] s t
  keeps : State.KeepsBut [.sectors, .cores, .ctr] s t

theorem State.BankNotes.refl : s.BankNotes n s := ⟨rfl, fun _ _ => rfl, .refl⟩

theorem State.BankNotes.trans (h : s.BankNotes n t) (h' : t.BankNotes n u) : s.BankNotes n u :=
  ⟨h'.sector.trans h.sector, h.sectors.trans h'.sectors, h.keeps.trans h'.keeps⟩

/-- A field of the sector that tracing does not change. -/
theorem State.BankNotes.get {α : Type} (h : s.BankNotes n t) (f : SectorSt → α)
    (hf : ∀ q : SectorSt, f q.untraced = f q := by exact fun _ => rfl) : f (t.sector n) = f (s.sector n) := by
  rw [← hf, h.sector, hf]

theorem State.bankNotes_countCoreSub {c id sub inc : Nat} (hc : sectorOf c = n) : s.BankNotes n (s.countCoreSub c id sub inc) := by
  have hnotes : State.Notes [] [] c s (s.countCoreSub c id sub inc) := State.notes_countCoreSub
  subst hc
  exact ⟨hnotes.sector, hnotes.sectors, hnotes.keepsBut⟩

theorem State.bankNotes_countSec {id sub inc : Nat} : s.BankNotes n (s.countSec n id sub inc) :=
  ⟨by rw [State.sector_countSec], State.countSec_frame.1, State.countSec_frame.2.mono (by decide)⟩

/-- The core behind a requester is one of the sector. -/
theorem sectorOf_bankCore {who : BankReq} {c : Nat} (h : bankCore n who = some c) : sectorOf c = n := by
  have hindex {i : Fin 17} (hi : (if i.val < 16 then some (16 * n + i.val) else none) = some c) : sectorOf c = n := by
    obtain ⟨hlt, hc⟩ := Option.ite_none_right_eq_some.mp hi
    have hval : 16 * n + i.val = c := Option.some_inj.mp hc
    unfold sectorOf
    omega
  cases who with
  | plasticity i => exact hindex h
  | sequencer i => exact hindex h
  | _ => simp [bankCore] at h

theorem State.bankNotes_bankCount {who : BankReq} {dir w : Nat} : s.BankNotes n (s.bankCount n who dir w) := by
  have hcore : s.BankNotes n (match bankCore n who with | some c => s.smemCountCore c dir w | none => s) := by
    split
    · next h => exact State.bankNotes_countCoreSub (sectorOf_bankCore h)
    · exact .refl
  cases who with
  | descEngine => exact State.bankNotes_countSec
  | _ => exact hcore

/-! ### Counters at a bank -/

/-- Slots of counters with different numbers differ. -/
theorem ckey_ne_of_id {scope idx id sub kind scope' idx' id' sub' kind' : Nat} (h : id ≠ id') (hid : id < 1024) (hid' : id' < 1024)
    (hsub : sub < 65536) (hsub' : sub' < 65536) (hkind : kind < 8) (hkind' : kind' < 8) :
    ckey scope idx id sub kind ≠ ckey scope' idx' id' sub' kind' := by
  unfold ckey
  omega

/-- Counting at a core changes no slot of a counter with another number. -/
theorem State.ctrAt_countCoreSub_ne {c id sub inc idx id' sub' kind : Nat} (hc : c < 2 ^ 20) (hid : id' ≠ id)
    (hlt : id < 1024) (hlt' : id' < 1024) (hsub : sub < 65536) (hsub' : sub' < 65536) (hkind : kind < 8) :
    (s.countCoreSub c id sub inc).ctrAt Scope.core idx id' sub' kind = s.ctrAt Scope.core idx id' sub' kind := by
  have hper : (if perStep id then 4 else 0) < 8 := by split <;> decide
  unfold State.countCoreSub State.ctrAdd
  split
  · rfl
  · rw [State.ctrAt_core_pmcEvent hc]
    exact (State.ctrAt_ctrPut ..).trans (if_neg (ckey_ne_of_id hid hlt' hlt hsub' hsub hkind hper))

/-- A slot of a core counter with a sub-index advances when it counts. -/
theorem State.ctrAt_countCoreSub_self {c id sub inc : Nat} (hc : c < 2 ^ 20) (hinc : inc ≠ 0) :
    (s.countCoreSub c id sub inc).ctrAt Scope.core c id sub (if perStep id then 4 else 0) =
      satCtr (s.ctrAt Scope.core c id sub (if perStep id then 4 else 0) + inc) := by
  rw [State.countCoreSub, if_neg hinc, State.ctrAt_core_pmcEvent hc, State.ctrAdd, if_neg hinc, State.ctrAt_ctrPut, if_pos rfl]

/-- The bytes of a granted request count in no slot of BANK_STALL. -/
theorem State.ctrAt_bankCount {who : BankReq} {dir w idx sub : Nat} (hn : n < 8) (hdir : dir < 65536) (hsub : sub < 65536) :
    (s.bankCount n who dir w).ctrAt Scope.core idx Ctr.bankStall sub 0 = s.ctrAt Scope.core idx Ctr.bankStall sub 0 := by
  have hcore : (match bankCore n who with | some c => s.smemCountCore c dir w | none => s).ctrAt Scope.core idx Ctr.bankStall sub 0 =
      s.ctrAt Scope.core idx Ctr.bankStall sub 0 := by
    split
    · next c h =>
      have hc : c < 2 ^ 20 := by
        have := sectorOf_bankCore h
        unfold sectorOf at this
        omega
      exact State.ctrAt_countCoreSub_ne hc (by decide) (by decide) (by decide) hdir hsub (by decide)
    · rfl
  cases who with
  | descEngine =>
    change (State.ctrAdd ..).ctrAt .. = _
    unfold State.ctrAdd
    split
    · rfl
    · refine (State.ctrAt_ctrPut ..).trans (if_neg (ckey_ne_of_id ?_ ?_ ?_ hsub hdir ?_ ?_)) <;> decide
  | _ => exact hcore

/-! ### Grants -/

/-- A request that is alone is granted by port A, or by the single port, where it is not the owner of port B. -/
theorem bankGrants_alone {b : Nat} {c : BankCall} (h : bankRank c.who < 35) : bankGrants b [c] = (some c, none, []) := by
  have hother : (some c.who == portOwner b) = false := by
    unfold portOwner
    cases hwho : c.who with
    | syncUnit => simp [hwho, bankRank] at h
    | router => simp [hwho, bankRank] at h
    | _ => split <;> [rfl; split <;> rfl]
  have hfind : [c].find? (fun c => some c.who == portOwner b) = none := by simp [hother]
  have hrank : byRank ([c].filter fun c => bankRank c.who < 35) = [c] := by simp [h, byRank, rankIns]
  unfold bankGrants
  dsimp only
  rw [hrank, hfind]
  split
  · rfl
  · split <;> rfl

/-- The owner of port B is granted by it. -/
theorem bankGrants_owner {b : Nat} {c : BankCall} (h : portOwner b = some c.who) : bankGrants b [c] = (none, some c, []) := by
  have hb : b < 2 ∧ ¬ bankRank c.who < 35 := by
    unfold portOwner at h
    split at h
    · rw [← Option.some_inj.mp h]
      exact ⟨by omega, by decide⟩
    · split at h
      · rw [← Option.some_inj.mp h]
        exact ⟨by omega, by decide⟩
      · simp at h
  have hrank : byRank ([c].filter fun c => bankRank c.who < 35) = [] := by simp [hb.2, byRank]
  unfold bankGrants
  dsimp only
  rw [if_pos hb.1, hrank]
  simp [h]

/-- Of two requests to a bank with one port the one of higher rank is granted. -/
theorem bankGrants_pair {b : Nat} {c d : BankCall} (hb : 8 ≤ b) (h : bankRank c.who < bankRank d.who) (hd : bankRank d.who < 35) :
    bankGrants b [c, d] = (some c, none, [d]) := by
  have hc : bankRank c.who < 35 := h.trans hd
  have hrank : byRank ([c, d].filter fun c => bankRank c.who < 35) = [c, d] := by simp [hc, hd, byRank, rankIns, h]
  unfold bankGrants
  dsimp only
  rw [if_neg (by omega), if_neg (by omega), hrank]
  rfl

/-! ### What a granted request does -/

/-- What a port of the sector last returned. -/
def SectorSt.returned (q : SectorSt) (portB : Bool) : BitVec 128 × Bool :=
  if portB then (q.bankDataB, q.bankPoisonB) else (q.bankData, q.bankPoison)

theorem SectorSt.returned_bankReturn (q : SectorSt) (portB : Bool) (v : Nat) (poison : Bool) :
    (q.bankReturn portB v poison).returned portB = (BitVec.ofNat 128 v, poison) := by cases portB <;> rfl

theorem SectorSt.mem_bankReturn (q : SectorSt) (portB : Bool) (v : Nat) (poison : Bool) :
    (q.bankReturn portB v poison).mem = q.mem := by cases portB <;> rfl

@[simp] theorem SectorSt.length_maskObjs (q : SectorSt) (a : Nat) (bytes : List Byte) : (q.maskObjs a bytes).length = bytes.length := by
  unfold SectorSt.maskObjs
  split <;> simp

theorem SectorSt.maskObjs_of_le {q : SectorSt} {a : Nat} (bytes : List Byte) (h : 0x20000 ≤ a) : q.maskObjs a bytes = bytes :=
  if_pos h

/-- The bytes of a memory after some have been stored. -/
theorem memWrite_stores (m : Memory) (a w : Nat) (bytes : List Byte) (h : bytes.length = w) :
    memRead (memWrite m a bytes) a w = bytes ∧ ∀ x, x < a ∨ a + w ≤ x → memByte (memWrite m a bytes) x = memByte m x := by
  subst h
  exact ⟨memRead_memWrite .., fun x hx => memByte_memWrite_outside _ _ _ _ hx⟩

variable {a : Nat} {portB : Bool} {who : BankReq}

theorem State.bankNotes_read {w : Nat} :
    (s.modSector n fun q => q.bankReturn portB (memNat (s.sector n).mem a w) false).BankNotes n
      (s.bankDo (s.sector n) n a portB who (.read w)) := State.bankNotes_bankCount

theorem State.bankNotes_write {w : Nat} {v : BitVec 128} :
    (s.smemStore n a (toLe w v.toNat)).BankNotes n (s.bankDo (s.sector n) n a portB who (.write w v)) := State.bankNotes_bankCount

/-- Outside bank 0 an atomic is no operation on an object. -/
theorem State.bankNotes_atomic {k : Fin 5} {x : Word64} (h : 0x20000 ≤ a) :
    ((s.smemAtomic n a k.val x.toNat).2.modSector n fun q =>
      q.bankReturn portB (memNat (s.sector n).mem a (atomicBytes k.val)) false).BankNotes n
      (s.bankDo (s.sector n) n a portB who (.atomic k x)) := by
  have hplain : (bankIsSeq who && decide (a < 0x20000) && k.val == 0 && a % 16 == 0 && (s.sector n).objType (a / 16) != 0) = false := by
    simp [Nat.not_lt.mpr h]
  unfold State.bankDo
  dsimp only
  rw [hplain, if_neg Bool.false_ne_true]
  exact State.bankNotes_bankCount

/-! ### A cycle of a bank -/

/-- A request that no port refuses, in order and on a bank that is not under test, is served by the port that grants it; of those
beside it, which are in order too, the ports that grant no other leave them to stall. -/
theorem exec_bankAccess_serves {n : SectorId} {b : Fin 64} {c : BankCall} {beside stalled : List BankCall}
    (ha : a = 131072 * b.val + c.ofs.val) (hruns : s.sectorRuns n.val = true) (hholds : s.bankHolds n.val (131072 * b.val) = false)
    (hgood : ∀ d ∈ c :: beside, s.bankRefused n.val (131072 * b.val + d.ofs.val) d.who d.op = false) (hecc : c.ecc = .clean)
    (hclean : (s.sector n.val).poisoned a (bankBytes c.op) = false)
    (hgrants : bankGrants b.val (c :: beside) = if portB then (none, some c, stalled) else (some c, none, stalled)) :
    exec (.bankAccess n b c.who c.toBankUse beside) s =
      .next (stalled.foldl (fun s d => s.bankStall n.val d) (s.bankDo (s.sector n.val) n.val a portB c.who c.op)) := by
  have hgrant (p : Bool) : s.bankGrant (s.sector n.val) n.val b.val p c = s.bankDo (s.sector n.val) n.val a p c.who c.op := by
    have hq (i : Bool) : (if i then s.sector n.val else s.sector n.val) = s.sector n.val := by cases i <;> rfl
    have hcorrected (u v : State) : (if EccResult.clean = .corrected then u else v) = v := if_neg (by decide)
    unfold State.bankGrant
    dsimp only
    rw [hecc, hq, hcorrected, ← ha, hclean]
    exact if_neg (by simp)
  have hbad : (c :: beside).filter (fun d => s.bankRefused n.val (131072 * b.val + d.ofs.val) d.who d.op) = [] :=
    List.filter_eq_nil_iff.mpr fun d hd => by rw [hgood d hd]; decide
  have hall : (c :: beside).filter (fun d => !s.bankRefused n.val (131072 * b.val + d.ofs.val) d.who d.op) = c :: beside :=
    List.filter_eq_self.mpr fun d hd => by rw [hgood d hd]; rfl
  have hself : ({ c.toBankUse with who := c.who } : BankCall) = c := rfl
  change execBankAccess n b c.who c.toBankUse beside s = _
  unfold execBankAccess
  dsimp only
  rw [hself, hbad, hall, hruns, if_neg (by decide), hholds, if_neg Bool.false_ne_true, hgrants]
  cases portB with
  | true => exact congrArg (fun u => Host.Outcome.next (List.foldl (fun s d => s.bankStall n.val d) u stalled)) (hgrant true)
  | false => exact congrArg (fun u => Host.Outcome.next (List.foldl (fun s d => s.bankStall n.val d) u stalled)) (hgrant false)

/-- The state after a read. -/
theorem State.read_answers {w : Nat} (h : State.BankNotes n (s.bankDo (s.sector n) n a portB who (.read w)) t) :
    (t.sector n).returned portB = (BitVec.ofNat 128 (memNat (s.sector n).mem a w), false) ∧
      (t.sector n).mem = (s.sector n).mem ∧ State.SectorsBut [n] s t ∧ State.KeepsBut [.sectors, .cores, .ctr] s t := by
  have hnotes := State.bankNotes_read.trans h
  refine ⟨?_, ?_, .trans (State.sectorsBut_setSector (by simp)) hnotes.sectors, .trans (by simp) hnotes.keeps⟩
  · rw [hnotes.get (·.returned portB), State.modSector_def, State.sector_setSector_self, SectorSt.returned_bankReturn]
  · rw [hnotes.get (·.mem), State.modSector_def, State.sector_setSector_self, SectorSt.mem_bankReturn]

/-- A sequencer's request that stalls is counted. -/
theorem State.bankStall_sequencer {i : Fin 16} {d : BankCall} (hn : n < 8) (hd : d.who = .sequencer (i.castLE (by decide))) :
    s.BankNotes n (s.bankStall n d) ∧ (s.bankStall n d).ctrAt Scope.core (16 * n + i.val) Ctr.bankStall 1 0 =
      satCtr (s.ctrAt Scope.core (16 * n + i.val) Ctr.bankStall 1 0 + 1) := by
  have hcore : bankCore n (.sequencer (i.castLE (by decide))) = some (16 * n + i.val) := if_pos i.isLt
  have hstall : s.bankStall n d = s.countCoreSub (16 * n + i.val) Ctr.bankStall 1 1 := by
    unfold State.bankStall
    rw [hd, hcore]
  have hkind : (if perStep Ctr.bankStall then 4 else 0) = 0 := by decide
  have hcount := State.ctrAt_countCoreSub_self (s := s) (c := 16 * n + i.val) (id := Ctr.bankStall) (sub := 1) (by omega) one_ne_zero
  rw [hkind] at hcount
  rw [hstall]
  exact ⟨State.bankNotes_countCoreSub (sectorOf_bankCore hcore), hcount⟩

/-- Settles O19: a granted request by its operation, and the one that stalls beside it by its counter. -/
theorem bankAtomicsAndAccesses : Obligations.BankAtomicsAndAccesses := by
  intro n b s c a ret ha hruns hholds hok hecc hclean hport
  obtain ⟨portB, hgrants, hret⟩ : ∃ portB, bankGrants b.val [c] = (if portB then (none, some c, []) else (some c, none, [])) ∧
      ret = fun t => (t.sector n.val).returned portB := by
    rcases hport with ⟨hrank, hret⟩ | ⟨howner, hret⟩
    · exact ⟨false, bankGrants_alone hrank, hret⟩
    · exact ⟨true, bankGrants_owner howner, hret⟩
  subst hret
  have hserves := exec_bankAccess_serves ha hruns hholds (by simpa [← ha] using hok) hecc hclean hgrants
  refine ⟨fun w hop => ⟨?_, fun i d hb hrank hd hdok => ?_⟩, fun w v hop => ?_, fun k x hop hbank => ?_⟩
  · rw [hop] at hserves
    exact ⟨_, hserves, State.read_answers .refl⟩
  · have hc : bankRank c.who < 35 := hrank.trans (by simp [bankRank]; omega)
    have hfalse : portB = false := by
      rw [bankGrants_alone hc] at hgrants
      cases portB with
      | false => rfl
      | true => simp at hgrants
    have hpair : bankGrants b.val [c, d] = (some c, none, [d]) :=
      bankGrants_pair hb (by rwa [hd]) (by rw [hd]; simp [bankRank]; omega)
    subst hfalse
    have hboth := exec_bankAccess_serves (portB := false) ha hruns hholds
      (by simpa [← ha] using ⟨hok, hdok⟩) hecc hclean hpair
    rw [hop] at hboth
    obtain ⟨hnotes, hstalled⟩ := State.bankStall_sequencer
      (s := s.bankDo (s.sector n.val) n.val a false c.who (.read w)) n.isLt hd
    obtain ⟨hdata, hmem, hsectors, hkeeps⟩ := State.read_answers hnotes
    refine ⟨_, hboth, hdata, hmem, hstalled.trans ?_, hsectors, hkeeps⟩
    have hcount : (s.bankDo (s.sector n.val) n.val a false c.who (.read w)).ctrAt Scope.core (16 * n.val + i.val) Ctr.bankStall 1 0 =
        s.ctrAt Scope.core (16 * n.val + i.val) Ctr.bankStall 1 0 := State.ctrAt_bankCount n.isLt (by decide) (by decide)
    rw [hcount]
  · rw [hop] at hserves
    have hnotes := State.bankNotes_write (s := s) (n := n.val) (a := a) (portB := portB) (who := c.who) (w := w) (v := v)
    have hmem : ((s.bankDo (s.sector n.val) n.val a portB c.who (.write w v)).sector n.val).mem =
        memWrite (s.sector n.val).mem a ((s.sector n.val).maskObjs a (toLe w v.toNat)) := by
      rw [hnotes.get (·.mem), State.smemStore, State.smemPoke, State.modSector_def, State.sector_setSector_self]
      rfl
    obtain ⟨hread, houtside⟩ := memWrite_stores (s.sector n.val).mem a w _ ((SectorSt.length_maskObjs ..).trans (toLe_length ..))
    refine ⟨_, hserves, ?_, fun x hx => ?_, .trans (State.sectorsBut_setSector (by simp)) hnotes.sectors,
      .trans (by simp [State.smemStore, State.smemPoke]) hnotes.keeps⟩
    · exact (congrArg (fun m => memRead m a w) hmem).trans hread
    · exact (congrArg (fun m => memByte m x) hmem).trans (houtside x hx)
  · rw [hop] at hserves
    have hnotes := State.bankNotes_atomic (s := s) (n := n.val) (portB := portB) (who := c.who) (k := k) (x := x) hbank
    have hmem : ((s.bankDo (s.sector n.val) n.val a portB c.who (.atomic k x)).sector n.val).mem =
        memWrite (s.sector n.val).mem a (toLe (atomicBytes k.val)
          (atomicResult k.val (memNat (s.sector n.val).mem a (atomicBytes k.val)) x.toNat)) := by
      rw [hnotes.get (·.mem), State.modSector_def, State.sector_setSector_self, SectorSt.mem_bankReturn, State.smemAtomic]
      dsimp only
      rw [State.smemStore, State.smemPoke, State.modSector_def, State.sector_setSector_self, SectorSt.maskObjs_of_le _ hbank]
      rfl
    obtain ⟨hread, houtside⟩ := memWrite_stores (s.sector n.val).mem a (atomicBytes k.val) _ (toLe_length ..)
    refine ⟨_, hserves, ?_, ?_, fun y hy => ?_, ?_, ?_⟩
    · refine (hnotes.get (·.returned portB)).trans ?_
      rw [State.modSector_def, State.sector_setSector_self, SectorSt.returned_bankReturn]
    · exact (congrArg (fun m => memRead m a (atomicBytes k.val)) hmem).trans hread
    · exact (congrArg (fun m => memByte m y) hmem).trans (houtside y hy)
    · exact .trans (.trans (State.sectorsBut_setSector (by simp)) (State.sectorsBut_setSector (by simp))) hnotes.sectors
    · exact .trans (by simp [State.smemAtomic, State.smemStore, State.smemPoke]) hnotes.keeps

end Sys2Proof.Machine
end

section
/-! PROOF. The end of PWR_WARN (16 R412; O51) adds the nanoseconds of the warning to PWR_WARN_NS. Where these are none the slot is not written
again (20 R506), so one that a state holds above 2^64 - 1 stays above it. -/

namespace Sys2Proof.Machine

variable {s : State}

/-- Both rails are above their thresholds again: PWR_WARN ends, and while a Halyard has power its nanoseconds count. -/
theorem exec_pwrWarnEnd (hwarn : s.ao.pwrWarn = true) (hcore : s.ao.vcoreWarn = false) (haux : s.ao.vauxWarn = false)
    (habove : s.ao.aboveAt + 50000 ≤ s.now) (hpower : s.ao.pstate < 2) :
    exec .pwrWarnEnd s =
      .next ((s.countDev Ctr.pwrWarnNs noSub (s.now - s.ao.warnRise)).modAo fun a => { a with pwrWarn := false }) := by
  have hstays : ¬ (!s.ao.pwrWarn || s.ao.vcoreWarn || s.ao.vauxWarn || decide (s.now < s.ao.aboveAt + 50000)) = true := by
    simp [hwarn, hcore, haux, habove]
  change execPwrWarnEnd s = _
  unfold execPwrWarnEnd
  dsimp only
  rw [if_neg hstays, if_pos hpower]

/-- A device counter to which nothing is added. -/
theorem State.countDev_zero (id sub : Nat) : s.countDev id sub 0 = s := by
  rw [State.countDev, State.count, State.ctrAdd, if_pos rfl]

/-- PWR_WARN that has risen at 50 µs, with both rails above since 0, and PWR_WARN_NS at 2^64. -/
def warnedBeyond : State := {
  ao := { time := 50000, pwrWarn := true, warnRise := 50000 }
  ctr := [(ckey Scope.device 0 Ctr.pwrWarnNs noSub 0, 2 ^ 64)] }

/-- Refutes O51: the end of the warning of `warnedBeyond` adds 0 ns to PWR_WARN_NS, which stays 2^64 where the statement has it
saturated. -/
theorem not_suppliesAndTemperature : ¬ Obligations.SuppliesAndTemperature := by
  unfold Obligations.SuppliesAndTemperature
  rintro ⟨hsupplies, -⟩
  obtain ⟨-, hend, -⟩ := hsupplies warnedBeyond warnedBeyond.ao rfl
  obtain ⟨t, hexec, -, hcounts, -⟩ := hend rfl rfl rfl (by decide)
  have hnone : warnedBeyond.now - warnedBeyond.ao.warnRise = 0 := rfl
  have ht : warnedBeyond.modAo (fun a => { a with pwrWarn := false }) = t := by
    rw [exec_pwrWarnEnd rfl rfl rfl (by decide) (by decide), hnone, State.countDev_zero] at hexec
    exact Host.Outcome.next.inj hexec
  have hcounted := hcounts (by decide)
  rw [← ht] at hcounted
  exact absurd hcounted (by decide)

end Sys2Proof.Machine
end

section
/-! SUPPORT. What bring-up and resets leave of the parts they do not name: the state sensors (19 R491), a boot error's interrupt (18
R461), and the parts beside what is sent. -/

namespace Sys2Proof.Machine

variable {s t : State} {n : Nat}

/-! ### State sensors -/

/-- What the state sensors read stands. -/
theorem State.sensor_congr (hstate : t.ao.pstate = s.ao.pstate) (hemergency : t.ao.emergency = s.ao.emergency)
    (hthrottle : t.ao.throttle = s.ao.throttle) (hgated : ∀ n, (t.sector n).gated = (s.sector n).gated) (hfault : t.fault = s.fault)
    (hready : t.boot.devReady = s.boot.devReady) (hlinks : t.boot.linksReady = s.boot.linksReady) : t.sensor = s.sensor := by
  funext id
  simp only [State.sensor, hstate, hemergency, hthrottle, hgated, hfault, hready, hlinks]

/-- The messages of the state sensors are all that they change. -/
theorem State.platform_keeps {s0 : State} : State.KeepsBut [.out] s (s0.platform s) := by simp

/-! ### A boot error -/

/-- FAULT_EVT changes no more than a device cause does. -/
theorem State.faultEdge_keeps {was : Bool} : State.KeepsBut [.pcie, .out, .ctr] s (State.faultEdge was s) := by
  unfold State.faultEdge
  exact .ite (by simp) .refl

theorem State.bootFail_fails {err : Nat} : (s.bootFail err).boot = { s.boot with phase := 9, bootErr := err, next := 0 } ∧
    State.KeepsBut [.boot, .pcie, .out, .ctr] s (s.bootFail err) := by
  have hedge := State.faultEdge_keeps (s := { s with boot := { s.boot with phase := 9, bootErr := err, next := 0 } }) (was := s.faultLow)
  refine ⟨hedge.boot_eq, .trans (fun p hp => ?_) (hedge.mono (by decide))⟩
  cases p <;> first | rfl | exact absurd (by decide) hp

end Sys2Proof.Machine
end

section
/-! PROOF. Bring-up (17 R427 to R433, R436; 09 R231; O53): power-on reset release, the ends of the phases, the waves of the sectors. -/

namespace Sys2Proof.Machine

variable {s : State} {arg : Nat}

/-! ### Phases -/

/-- What the end of a phase after phase 1 does. -/
def State.phaseEnd (s : State) (arg : Nat) : Nat → State
  | 2 => s.phase2 arg
  | 3 => s.phase3
  | 4 => s.phase4
  | 5 => if s.boot.waves = 255 then s.phase5 else s
  | 6 => { s with boot := { s.boot with calDone := true } }.phaseDone 6
  | 7 => s.phase7 arg
  | 8 => if (upTo 10).all fun m => (s.oldest m).isNone then s.phase8 else s
  | _ => s

theorem exec_bringupPhaseEnd_first (hpor : s.ao.porReleased = true) (htrip : s.ao.tripped = false) (hnext : s.boot.next = 1) :
    exec (.bringupPhaseEnd arg) s = .next (s.platform s.phase1) := by
  change execBringupPhaseEnd arg s = _
  unfold execBringupPhaseEnd
  rw [hpor, htrip, if_neg (by decide), hnext]
  rfl

theorem exec_bringupPhaseEnd {p : Nat} (hpor : s.ao.porReleased = true) (htrip : s.ao.tripped = false) (hreset : s.ao.inReset = false)
    (hnext : s.boot.next = p) (hp : 2 ≤ p) (hp' : p ≤ 8) :
    exec (.bringupPhaseEnd arg) s = .next (s.platform (s.phaseEnd arg p)) := by
  change execBringupPhaseEnd arg s = _
  unfold execBringupPhaseEnd
  rw [hpor, htrip, if_neg (by decide), hnext, hreset]
  interval_cases p <;> rfl

/-- Phase 1 clears the timers and records the cause of the reset. -/
theorem bringupPhaseEnd_first (hpor : s.ao.porReleased = true) (htrip : s.ao.tripped = false) (hnext : s.boot.next = 1) :
    ∃ t, exec (.bringupPhaseEnd arg) s = .next t ∧ t.boot = { s.boot with next := 2 } ∧ t.timers = [] ∧
      t.ao = { s.ao with lastReset := s.ao.resetCause, inReset := !(s.ao.perstHigh && s.ao.resetHigh) } ∧
      State.KeepsBut [.ao, .timers, .boot] s t := by
  have hsensors : s.phase1.sensor = s.sensor := State.sensor_congr rfl rfl rfl (fun _ => rfl) rfl rfl rfl
  refine ⟨s.phase1, ?_, rfl, rfl, rfl, fun p hp => ?_⟩
  · rw [exec_bringupPhaseEnd_first hpor htrip hnext, s.platform_of_sensor_eq hsensors]
  · cases p <;> first | rfl | exact absurd (by decide) hp

/-! ### Phase 2: firmware -/

/-- The boot ROM finds that a Halyard fails, or a Halyard is fenced. -/
def State.halyardFails (s : State) (arg : Nat) (south : Bool) : Bool :=
  nbit arg (3 + b2n south) || nbit s.sec.flashHal (b2n south) || (if south then s.ao.southFenced else s.ao.northFenced)

/-- The slot verifies. -/
def State.slotGood (s : State) (arg slot : Nat) : Bool :=
  s.sec.slotOk s.sec.svnMin (s.sec.slotBoard slot) (s.sec.slot slot) (nbit arg (s.sec.slotBoard slot))

/-- The cause of the reset is recorded. -/
def State.resetNoted (s : State) : State := s.modAo fun a => { a with lastReset := a.resetCause }

/-- The firmware of the slot runs. -/
def State.verified (s : State) (arg slot : Nat) : State :=
  let t := (if s.halyardFails arg s.ao.ownerSouth then
      (s.resetNoted.modAo fun x => { x with ownerSouth := !s.ao.ownerSouth, epoch := (x.epoch + 1) % 2 ^ 32 }).raiseDev 2
    else s.resetNoted)
  let t := t.modAo fun x => { x with selfFenced := b2n (s.halyardFails arg false) + 2 * b2n (s.halyardFails arg true) }
  let t := t.modSec fun x => { x with
    fwVersion := x.slotVersion slot, svnRun := x.slotSvn slot, fwMeasure := fitBytes 64 (x.fwDigest slot) ++ fitBytes 64 Config.boardDigest }
  { t with boot := { t.boot with fwVerified := true, fwSlot := slot } }.phaseDone 2

theorem State.phase2_eq : s.phase2 arg =
    if s.sec.lc = 4 then s.resetNoted.bootFail 6
    else if s.halyardFails arg false && s.halyardFails arg true then s.resetNoted.bootFail 5
    else if nbit arg 2 then s.resetNoted.bootFail 2
    else if !s.slotGood arg 0 && !s.slotGood arg 1 then s.resetNoted.bootFail 1
    else s.verified arg (if s.slotGood arg 0 then 0 else 1) := rfl

/-- A slot that verifies runs on good Halyards. -/
theorem bringupPhaseEnd_verifies (hpor : s.ao.porReleased = true) (htrip : s.ao.tripped = false) (hreset : s.ao.inReset = false)
    (hnext : s.boot.next = 2) (hlc : s.sec.lc ≠ 4) (hflash : nbit arg 2 = false) (hgood : ∀ b, s.halyardFails arg b = false)
    {slot : Nat} (hslot : slot = if s.slotGood arg 0 then 0 else 1) (hok : s.slotGood arg slot = true) :
    ∃ t, exec (.bringupPhaseEnd arg) s = .next t ∧
      t.boot = { s.boot with fwVerified := true, fwSlot := slot, phase := 1, next := 3 } ∧
      t.sec.fwVersion = s.sec.slotVersion slot ∧ t.sec.svnRun = s.sec.slotSvn slot ∧ State.KeepsBut [.ao, .sec, .boot] s t := by
  have hsome : (!s.slotGood arg 0 && !s.slotGood arg 1) = false := by
    cases h0 : s.slotGood arg 0 with
    | true => rfl
    | false =>
      rw [h0] at hslot
      rw [hslot, if_neg Bool.false_ne_true] at hok
      rw [hok]
      rfl
  have hphase : s.phaseEnd arg 2 = s.verified arg slot := by
    change s.phase2 arg = _
    rw [State.phase2_eq, if_neg hlc, hgood, hflash, hsome, ← hslot]
    rfl
  have hverified : ∃ v, v = s.verified arg slot ∧ v.boot = { s.boot with fwVerified := true, fwSlot := slot, phase := 1, next := 3 } ∧
      v.sec.fwVersion = s.sec.slotVersion slot ∧ v.sec.svnRun = s.sec.slotSvn slot ∧ State.KeepsBut [.ao, .sec, .boot] s v ∧
      v.sensor = s.sensor := by
    refine ⟨_, rfl, ?_⟩
    unfold State.verified
    dsimp only
    rw [hgood, if_neg Bool.false_ne_true]
    refine ⟨rfl, rfl, rfl, fun p hp => ?_, State.sensor_congr rfl rfl rfl (fun _ => rfl) rfl rfl rfl⟩
    cases p <;> first | rfl | exact absurd (by decide) hp
  obtain ⟨v, hv, hboot, hversion, hsvn, hkeeps, hsensors⟩ := hverified
  refine ⟨v, ?_, hboot, hversion, hsvn, hkeeps⟩
  rw [exec_bringupPhaseEnd hpor htrip hreset hnext (by decide) (by decide), hphase, ← hv, s.platform_of_sensor_eq hsensors]

/-- In life-cycle state 4, without a good Halyard, or with an unreadable flash the boot fails. -/
theorem bringupPhaseEnd_firmwareFails (hpor : s.ao.porReleased = true) (htrip : s.ao.tripped = false) (hreset : s.ao.inReset = false)
    (hnext : s.boot.next = 2) {err : Nat} (herr : s.sec.lc = 4 ∧ err = 6 ∨
      s.sec.lc ≠ 4 ∧ nbit arg 3 = true ∧ nbit arg 4 = true ∧ err = 5 ∨
      s.sec.lc ≠ 4 ∧ nbit arg 3 = false ∧ nbit s.sec.flashHal 0 = false ∧ s.ao.northFenced = false ∧ nbit arg 2 = true ∧ err = 2) :
    ∃ t, exec (.bringupPhaseEnd arg) s = .next t ∧ t.boot = { s.boot with phase := 9, bootErr := err, next := 0 } ∧
      State.KeepsBut [.ao, .boot, .pcie, .out, .ctr] s t := by
  have hphase : s.phase2 arg = s.resetNoted.bootFail err := by
    rw [State.phase2_eq]
    obtain ⟨hlc, rfl⟩ | ⟨hlc, hnorth, hsouth, rfl⟩ | ⟨hlc, harg, hflash, hfenced, hread, rfl⟩ := herr
    · rw [if_pos hlc]
    · have hboth : (s.halyardFails arg false && s.halyardFails arg true) = true := by
        simp [State.halyardFails, b2n, hnorth, hsouth]
      rw [if_neg hlc, if_pos hboth]
    · have hnone : (s.halyardFails arg false && s.halyardFails arg true) = false := by
        simp [State.halyardFails, b2n, harg, hflash, hfenced]
      rw [if_neg hlc, hnone, if_neg Bool.false_ne_true, if_pos hread]
  obtain ⟨hboot, hkeeps⟩ := State.bootFail_fails (s := s.resetNoted) (err := err)
  refine ⟨_, exec_bringupPhaseEnd hpor htrip hreset hnext (by decide) (by decide), ?_, ?_⟩
  · rw [State.platform_keeps.boot_eq]
    exact (congrArg State.boot hphase).trans hboot
  · refine .trans (.trans ?_ (hphase ▸ hkeeps.mono (by decide))) (State.platform_keeps.mono (by decide))
    simp [State.resetNoted]

/-! ### Phase 3: repairs -/

/-- The repairs of a sector are loaded. -/
def SectorSt.repaired (q : SectorSt) (soft spare : Nat) : SectorSt := { q with softUsed := min 255 soft, spareElem := spare - soft }

/-- The repairs of every sector are loaded. -/
def State.repairsLoaded (s : State) : State := (upTo 8).foldl (fun t n => t.modSector n fun q =>
  q.repaired (Tab.get s.sec.flashSoft 0 n) (Config.spareElems n)) s

theorem State.sector_repairsLoaded (n : Nat) : s.repairsLoaded.sector n =
    if n < 8 then (s.sector n).repaired (Tab.get s.sec.flashSoft 0 n) (Config.spareElems n) else s.sector n := by
  have hall := foldl_each State.sector (fun _ => ()) (f := fun t n => t.modSector n fun q =>
      q.repaired (Tab.get s.sec.flashSoft 0 n) (Config.spareElems n))
    (fun _ n q => q.repaired (Tab.get s.sec.flashSoft 0 n) (Config.spareElems n)) (fun _ _ => State.sector_setSector_self ..)
    (fun _ _ _ hc => State.sector_setSector_ne _ _ _ _ hc) (fun _ _ => rfl) (upTo_nodup 8) s n
  simp only [mem_upTo] at hall
  exact hall

theorem State.repairsLoaded_keeps : State.KeepsBut [.sectors] s s.repairsLoaded := .foldl (fun _ _ => by simp) _ _

/-- On the cold path the fence list comes into the fault record. -/
def State.recordLoaded (s : State) : State :=
  if s.repairsLoaded.boot.cold then s.repairsLoaded.modAo fun a => { a with
    fenced := s.sec.flashFence, badBanks := s.sec.flashBanks, northFenced := nbit s.sec.flashHal 0, southFenced := nbit s.sec.flashHal 1 }
  else s.repairsLoaded

theorem State.phase3_eq : s.phase3 =
    { s.recordLoaded with boot := { s.recordLoaded.boot with repairLoaded := true } }.phaseDone 3 := rfl

theorem State.recordLoaded_keeps : State.KeepsBut [.ao, .sectors] s s.recordLoaded := by
  unfold State.recordLoaded
  exact .trans (State.repairsLoaded_keeps.mono (by decide)) (.ite (by simp) .refl)

theorem State.sector_recordLoaded : s.recordLoaded.sector = s.repairsLoaded.sector := by
  have hmod (u : State) (f : AoSt → AoSt) : (u.modAo f).sector = u.sector := rfl
  unfold State.recordLoaded
  split
  · rw [hmod]
  · rfl

theorem State.ao_recordLoaded : s.recordLoaded.ao = if s.boot.cold then { s.ao with
    fenced := s.sec.flashFence, badBanks := s.sec.flashBanks, northFenced := nbit s.sec.flashHal 0, southFenced := nbit s.sec.flashHal 1 }
    else s.ao := by
  have hao : s.repairsLoaded.ao = s.ao := State.repairsLoaded_keeps.ao_eq
  unfold State.recordLoaded
  rw [State.repairsLoaded_keeps.boot_eq]
  split
  · rw [State.modAo, hao]
  · exact hao

theorem bringupPhaseEnd_repairs (hpor : s.ao.porReleased = true) (htrip : s.ao.tripped = false) (hreset : s.ao.inReset = false)
    (hnext : s.boot.next = 3) : ∃ t, exec (.bringupPhaseEnd arg) s = .next t ∧
      t.boot = { s.boot with repairLoaded := true, phase := 2, next := 4 } ∧
      (∀ n, n < 8 → (t.sector n).softUsed = min 255 (Tab.get s.sec.flashSoft 0 n)) ∧
      (s.boot.cold = true → t.ao.fenced = s.sec.flashFence ∧ t.ao.badBanks = s.sec.flashBanks) ∧
      State.KeepsBut [.ao, .sectors, .boot] s t := by
  have hboot : s.phase3.boot = { s.boot with repairLoaded := true, phase := 2, next := 4 } := by
    rw [State.phase3_eq, State.phaseDone, State.recordLoaded_keeps.boot_eq]
  have hao : s.phase3.ao = s.recordLoaded.ao := rfl
  have hsector (n : Nat) : s.phase3.sector n =
      if n < 8 then (s.sector n).repaired (Tab.get s.sec.flashSoft 0 n) (Config.spareElems n) else s.sector n :=
    (congrFun State.sector_recordLoaded n).trans (State.sector_repairsLoaded n)
  have hkeeps : State.KeepsBut [.ao, .sectors, .boot] s s.phase3 := by
    refine .trans (State.recordLoaded_keeps.mono (by decide)) fun p hp => ?_
    cases p <;> first | rfl | exact absurd (by decide) hp
  have hsensors : s.phase3.sensor = s.sensor := by
    refine State.sensor_congr ?_ ?_ ?_ (fun n => ?_) hkeeps.fault_eq (by rw [hboot]) (by rw [hboot])
    · rw [hao, State.ao_recordLoaded]
      split <;> rfl
    · rw [hao, State.ao_recordLoaded]
      split <;> rfl
    · rw [hao, State.ao_recordLoaded]
      split <;> rfl
    · rw [hsector]
      split <;> rfl
  refine ⟨s.phase3, ?_, hboot, fun n hn => ?_, fun hcold => ?_, hkeeps⟩
  · rw [exec_bringupPhaseEnd hpor htrip hreset hnext (by decide) (by decide)]
    exact congrArg _ (s.platform_of_sensor_eq hsensors)
  · rw [hsector, if_pos hn]
    rfl
  · rw [hao, State.ao_recordLoaded, if_pos hcold]
    exact ⟨rfl, rfl⟩

end Sys2Proof.Machine
end

section
/-! PROOF. Bring-up (17 R431 to R433; 09 R231; O53): phases 4 to 8. -/

namespace Sys2Proof.Machine

variable {s : State} {arg : Nat}

/-! ### Phase 4: descriptor -/

/-- The reference of every sector's clock is selected. -/
def State.sectorsClocked (s : State) : State := (upTo 8).foldl (fun t n => t.modSector n fun q => { q with op := 3 }) s

theorem State.sector_sectorsClocked (n : Nat) : s.sectorsClocked.sector n = if n < 8 then { s.sector n with op := 3 } else s.sector n := by
  have hall := foldl_each State.sector (fun _ => ()) (f := fun t n => t.modSector n fun q => { q with op := 3 })
    (fun _ _ q => { q with op := 3 }) (fun _ _ => State.sector_setSector_self ..)
    (fun _ _ _ hc => State.sector_setSector_ne _ _ _ _ hc) (fun _ _ => rfl) (upTo_nodup 8) s n
  simp only [mem_upTo] at hall
  exact hall

theorem State.sectorsClocked_keeps : State.KeepsBut [.sectors] s s.sectorsClocked := .foldl (fun _ _ => by simp) _ _

/-- A port that the descriptor enables trains. -/
def PortSt.started (o : PortSt) (variant : Nat) : PortSt := { o with enabled := true, variant := variant, state := portTraining }

/-- The ports that the descriptor names train. -/
def State.portsStarted (s : State) (b : BoardSt) : State := (upTo 12).foldl (fun t p => if nbit b.ports.toNat p then
  t.modPort p fun o => o.started (b2n (nbit b.variantCr.toNat p)) else t) s

theorem State.port_portsStarted {b : BoardSt} {p : Nat} (hp : p < 12) (hnamed : nbit b.ports.toNat p = true) :
    (s.portsStarted b).port p = (s.port p).started (b2n (nbit b.variantCr.toNat p)) := by
  have hall := foldl_each State.port (fun _ => ()) (f := fun t p => if nbit b.ports.toNat p then
      t.modPort p fun o => o.started (b2n (nbit b.variantCr.toNat p)) else t)
    (fun _ p o => if nbit b.ports.toNat p then o.started (b2n (nbit b.variantCr.toNat p)) else o)
    (fun t p => ?_) (fun t p c hc => ?_) (fun _ _ => rfl) (upTo_nodup 12) s p
  · rw [if_pos (mem_upTo.mpr hp), if_pos hnamed] at hall
    exact hall
  · split
    · exact State.port_setPort_self ..
    · rfl
  · split
    · exact State.port_setPort_ne _ _ _ _ hc
    · rfl

theorem State.portsStarted_keeps {b : BoardSt} : State.KeepsBut [.ports] s (s.portsStarted b) :=
  .foldl (fun _ _ => .ite (by simp) .refl) _ _

/-- What the descriptor configures. -/
def State.configured (s : State) : State := s.sectorsClocked.portsStarted s.board

theorem State.configured_keeps : State.KeepsBut [.sectors, .ports] s s.configured :=
  .trans (State.sectorsClocked_keeps.mono (by decide)) (State.portsStarted_keeps.mono (by decide))

/-- Firmware starts on the configured device. -/
def State.firmwareStarted (s : State) (ok : Bool) : State :=
  let t := s.modAo fun a => { a with standbyUp := !a.halFenced (!a.ownerSouth) }
  { t with gddr := { t.gddr with rejected := !ok }, boot := { t.boot with bootErr := if ok then 0 else 4 } }.phaseDone 4

theorem State.phase4_eq : s.phase4 = if !s.board.valid then s.bootFail 3 else s.configured.firmwareStarted s.board.memOk := rfl

theorem bringupPhaseEnd_configures (hpor : s.ao.porReleased = true) (htrip : s.ao.tripped = false) (hreset : s.ao.inReset = false)
    (hnext : s.boot.next = 4) (hvalid : s.board.valid = true) (hmem : s.board.memOk = true) :
    ∃ t, exec (.bringupPhaseEnd arg) s = .next t ∧ t.boot = { s.boot with bootErr := 0, phase := 3, next := 5 } ∧
      (∀ n, n < 8 → (t.sector n).op = 3) ∧
      (∀ p, p < 12 → nbit s.board.ports.toNat p = true → (t.port p).enabled = true ∧ (t.port p).state = portTraining) ∧
      State.KeepsBut [.ao, .sectors, .ports, .gddr, .boot] s t := by
  have hphase : s.phaseEnd arg 4 = s.configured.firmwareStarted true := by
    change s.phase4 = _
    rw [State.phase4_eq, hvalid, hmem]
    rfl
  have hsector (n : Nat) : s.configured.sector n = s.sectorsClocked.sector n :=
    congrFun (State.portsStarted_keeps.sector_fun (by decide)) n
  have hport {p : Nat} (hp : p < 12) (hnamed : nbit s.board.ports.toNat p = true) :
      s.configured.port p = (s.sectorsClocked.port p).started (b2n (nbit s.board.variantCr.toNat p)) := State.port_portsStarted hp hnamed
  have hao := (State.configured_keeps (s := s)).ao_eq
  have hboot := (State.configured_keeps (s := s)).boot_eq
  have hfault := (State.configured_keeps (s := s)).fault_eq
  have hkeeps := State.configured_keeps (s := s)
  generalize s.configured = u at hphase hsector hport hao hboot hfault hkeeps
  have hsensors : (u.firmwareStarted true).sensor = s.sensor := by
    have hu : (u.firmwareStarted true).sensor = u.sensor := State.sensor_congr rfl rfl rfl (fun _ => rfl) rfl rfl rfl
    refine hu.trans (State.sensor_congr (by rw [hao]) (by rw [hao]) (by rw [hao]) (fun n => ?_) hfault (by rw [hboot]) (by rw [hboot]))
    rw [hsector, State.sector_sectorsClocked]
    split <;> rfl
  refine ⟨u.firmwareStarted true, ?_, ?_, fun n hn => ?_, fun p hp hnamed => ?_, .trans (hkeeps.mono (by decide)) fun p hp => ?_⟩
  · rw [exec_bringupPhaseEnd hpor htrip hreset hnext (by decide) (by decide), hphase, s.platform_of_sensor_eq hsensors]
  · change { u.boot with bootErr := 0, phase := 3, next := 5 } = _
    rw [hboot]
  · change (u.sector n).op = 3
    rw [hsector, State.sector_sectorsClocked, if_pos hn]
  · change (u.port p).enabled = true ∧ (u.port p).state = portTraining
    rw [hport hp hnamed]
    exact ⟨rfl, rfl⟩
  · cases p <;> first | rfl | exact absurd (by decide) hp

theorem bringupPhaseEnd_descriptorFails (hpor : s.ao.porReleased = true) (htrip : s.ao.tripped = false) (hreset : s.ao.inReset = false)
    (hnext : s.boot.next = 4) (hvalid : s.board.valid = false) :
    ∃ t, exec (.bringupPhaseEnd arg) s = .next t ∧ t.boot = { s.boot with phase := 9, bootErr := 3, next := 0 } ∧
      State.KeepsBut [.boot, .pcie, .out, .ctr] s t := by
  have hphase : s.phaseEnd arg 4 = s.bootFail 3 := by
    change s.phase4 = _
    rw [State.phase4_eq, hvalid]
    rfl
  obtain ⟨hboot, hkeeps⟩ := State.bootFail_fails (s := s) (err := 3)
  refine ⟨_, exec_bringupPhaseEnd hpor htrip hreset hnext (by decide) (by decide), ?_, ?_⟩
  · rw [State.platform_keeps.boot_eq, hphase, hboot]
  · rw [hphase]
    exact hkeeps.trans (State.platform_keeps.mono (by decide))

/-! ### Phase 5: memory -/

theorem State.checkLinks_eq : ∃ b o, s.checkLinks = { s with boot := { s.boot with linksReady := b }, out := o } := by
  unfold State.checkLinks
  split
  · obtain ⟨o, ho⟩ := (s.modBoot fun b => { b with linksReady := true }).platform_eq_with_out s
    exact ⟨true, o, ho⟩
  · exact ⟨s.boot.linksReady, s.out, rfl⟩

theorem bringupPhaseEnd_trains (hpor : s.ao.porReleased = true) (htrip : s.ao.tripped = false) (hreset : s.ao.inReset = false)
    (hnext : s.boot.next = 5) (hwaves : s.boot.waves = 255) (hkept : s.ao.srFailed = false) (herr : s.boot.bootErr ≠ 4) :
    ∃ t, exec (.bringupPhaseEnd arg) s = .next t ∧ t.gddr = s.gddr.trained s.board ∧ t.boot.gddrReady = true ∧
      t.boot.phase = 4 ∧ t.boot.next = 6 ∧ State.KeepsBut [.gddr, .boot, .out] s t := by
  have hphase : s.phaseEnd arg 5 =
      ({ s with gddr := s.gddr.trained s.board, boot := { s.boot with gddrReady := true } }.phaseDone 5).checkLinks := by
    change (if s.boot.waves = 255 then s.phase5 else s) = _
    rw [if_pos hwaves]
    unfold State.phase5
    dsimp only
    rw [hkept, if_neg Bool.false_ne_true, if_neg herr]
  obtain ⟨b, o, hlinks⟩ :=
    ({ s with gddr := s.gddr.trained s.board, boot := { s.boot with gddrReady := true } }.phaseDone 5).checkLinks_eq
  rw [hlinks] at hphase
  refine ⟨_, exec_bringupPhaseEnd hpor htrip hreset hnext (by decide) (by decide), ?_⟩
  have hsent := State.platform_keeps (s0 := s) (s := s.phaseEnd arg 5)
  rw [hsent.gddr_eq, hsent.boot_eq, hphase]
  refine ⟨rfl, rfl, rfl, rfl, .trans (fun p hp => ?_) (State.platform_keeps.mono (by decide))⟩
  cases p <;> first | rfl | exact absurd (by decide) hp

/-! ### Phase 6: calibration -/

theorem bringupPhaseEnd_calibrates (hpor : s.ao.porReleased = true) (htrip : s.ao.tripped = false) (hreset : s.ao.inReset = false)
    (hnext : s.boot.next = 6) : ∃ t, exec (.bringupPhaseEnd arg) s = .next t ∧
      t.boot = { s.boot with calDone := true, phase := 5, next := 7 } ∧ State.KeepsBut [.boot] s t := by
  have hsensors : (s.phaseEnd arg 6).sensor = s.sensor := State.sensor_congr rfl rfl rfl (fun _ => rfl) rfl rfl rfl
  refine ⟨s.phaseEnd arg 6, ?_, rfl, fun p hp => ?_⟩
  · rw [exec_bringupPhaseEnd hpor htrip hreset hnext (by decide) (by decide), s.platform_of_sensor_eq hsensors]
  · cases p <;> first | rfl | exact absurd (by decide) hp

/-! ### Phase 8: ready -/

theorem State.cause_fireVector {v : Nat} : (s.fireVector v).pcie.cause = s.pcie.cause := by
  unfold State.fireVector
  split
  · rfl
  · split <;> rfl

theorem State.cause_raiseDev {i : Nat} : (s.raiseDev i).pcie.cause = nsetBit s.pcie.cause i := by
  unfold State.raiseDev fireIf
  split
  · rfl
  · exact State.cause_fireVector

/-- The sectors are aligned, and an owner serves. -/
def State.readied (s : State) : State := ((if s.boot.cold then s.serve else s).modAo fun a => { a with ready := 15 }).alignPulse

/-- DEV_READY. -/
def State.devReadied (s : State) : State :=
  { s with boot := { s.boot with devReady := true, phase := 7, next := 0, cold := false } }.raiseDev 0

theorem State.phase8_eq : s.phase8 = if !s.readied.ao.brownout then s.readied.devReadied else
    (s.readied.devReadied.modAo fun a => { a with retentionLost := true, brownout := false }).raiseDev 3 := rfl

theorem State.readied_readies : s.readied.ao.ready = 15 ∧ (s.boot.cold = true → s.readied.ao.serving = true) ∧
    (∀ n, n < 8 → (s.readied.sector n).aligned = true ∧ (s.readied.sector n).pulseAt = s.now) ∧ s.SameBytes s.readied ∧
    State.KeepsBut [.ao, .sectors] s s.readied := by
  have hserve : ∃ u, u = (if s.boot.cold then s.serve else s).modAo (fun a => { a with ready := 15 }) ∧ u.ao.ready = 15 ∧
      (s.boot.cold = true → u.ao.serving = true) ∧ u.now = s.now ∧ s.SameBytes u ∧ State.KeepsBut [.ao] s u := by
    refine ⟨_, rfl, ?_⟩
    cases s.boot.cold with
    | true => exact ⟨rfl, fun _ => rfl, rfl, ⟨rfl, fun _ => rfl⟩, by simp [State.serve]⟩
    | false => exact ⟨rfl, nofun, rfl, ⟨rfl, fun _ => rfl⟩, by simp⟩
  obtain ⟨u, hu, hready, hserving, hnow, hbytes, hkeeps⟩ := hserve
  unfold State.readied
  rw [← hu, State.alignPulse_frame.ao_eq]
  refine ⟨hready, hserving, fun n hn => ?_, hbytes.trans State.sameBytes_alignPulse,
    .trans (hkeeps.mono (by decide)) (State.alignPulse_frame.mono (by decide))⟩
  obtain ⟨-, haligned, hpulse⟩ := u.alignPulse_aligns hn
  exact ⟨haligned, hpulse.trans hnow⟩

theorem State.devReadied_facts : s.devReadied.boot = { s.boot with devReady := true, phase := 7, next := 0, cold := false } ∧
    nbit s.devReadied.pcie.cause 0 = true ∧ State.KeepsBut [.boot, .pcie, .out, .ctr] s s.devReadied := by
  unfold State.devReadied
  refine ⟨(State.raiseDev_fields _ 0).2.1, ?_, ?_⟩
  · rw [State.cause_raiseDev, nbit_nsetBit]
    simp
  · refine (State.keepsBut_raiseDev s (by decide) (by decide) (by decide) 0).mpr fun p hp => ?_
    cases p <;> first | rfl | exact absurd (by decide) hp

/-- A phase 8 after a brownout also says so. -/
theorem State.phase8_readies : s.phase8.boot = { s.boot with devReady := true, phase := 7, next := 0, cold := false } ∧
    nbit s.phase8.pcie.cause 0 = true ∧ s.phase8.ao.ready = 15 ∧ (s.boot.cold = true → s.phase8.ao.serving = true) ∧
    (∀ n, n < 8 → (s.phase8.sector n).aligned = true ∧ (s.phase8.sector n).pulseAt = s.now) ∧ s.SameBytes s.phase8 ∧
    State.KeepsBut [.ao, .boot, .sectors, .pcie, .out, .ctr] s s.phase8 := by
  obtain ⟨hready, hserving, haligned, hbytes, hkeeps⟩ := s.readied_readies
  obtain ⟨hboot, hcause, hkeeps'⟩ := s.readied.devReadied_facts
  rw [State.phase8_eq]
  rw [hkeeps.boot_eq] at hboot
  have hao := hkeeps'.ao_eq
  have hsector := hkeeps'.sector_fun (by decide)
  have hall := State.KeepsBut.trans (hkeeps.mono (l' := [.ao, .boot, .sectors, .pcie, .out, .ctr]) (by decide)) (hkeeps'.mono (by decide))
  have hsame : s.SameBytes s.readied.devReadied :=
    hbytes.trans ⟨congrArg (·.mem) hkeeps'.gddr_eq, fun n => congrArg (·.mem) (congrFun hsector n)⟩
  generalize s.readied.devReadied = u at hboot hcause hao hsector hall hsame
  rw [← hao] at hready hserving
  rw [← hsector] at haligned
  split
  · exact ⟨hboot, hcause, hready, hserving, haligned, hsame, hall⟩
  · obtain ⟨p, o, c, hraise⟩ := (u.modAo fun a => { a with retentionLost := true, brownout := false }).raiseDev_eq_with_parts 3
    have hcause' : nbit ((u.modAo fun a => { a with retentionLost := true, brownout := false }).raiseDev 3).pcie.cause 0 = true := by
      rw [State.cause_raiseDev, nbit_nsetBit]
      exact Bool.or_eq_true_iff.mpr (.inl hcause)
    rw [hraise] at hcause' ⊢
    refine ⟨hboot, hcause', hready, hserving, haligned, hsame.trans ⟨rfl, fun _ => rfl⟩, hall.trans fun p hp => ?_⟩
    cases p <;> first | rfl | exact absurd (by decide) hp

theorem bringupPhaseEnd_ready (hpor : s.ao.porReleased = true) (htrip : s.ao.tripped = false) (hreset : s.ao.inReset = false)
    (hnext : s.boot.next = 8) (hreplayed : ∀ m, m < 10 → s.oldest m = none) :
    ∃ t, exec (.bringupPhaseEnd arg) s = .next t ∧
      t.boot = { s.boot with devReady := true, phase := 7, next := 0, cold := false } ∧ nbit t.pcie.cause 0 = true ∧
      t.ao.ready = 15 ∧ (s.boot.cold = true → t.ao.serving = true) ∧
      (∀ n, n < 8 → (t.sector n).aligned = true ∧ (t.sector n).pulseAt = s.now) ∧ s.SameBytes t ∧
      State.KeepsBut [.ao, .boot, .sectors, .pcie, .out, .ctr] s t := by
  have hphase : s.phaseEnd arg 8 = s.phase8 := by
    have hall : ((upTo 10).all fun m => (s.oldest m).isNone) = true :=
      List.all_eq_true.mpr fun m hm => by rw [hreplayed m (mem_upTo.mp hm)]; rfl
    exact if_pos hall
  obtain ⟨hboot, hcause, hready, hserving, haligned, hbytes, hkeeps⟩ := s.phase8_readies
  refine ⟨_, exec_bringupPhaseEnd hpor htrip hreset hnext (by decide) (by decide), ?_⟩
  rw [hphase]
  have hsent := State.platform_keeps (s0 := s) (s := s.phase8)
  rw [hsent.boot_eq, hsent.pcie_eq, hsent.ao_eq, hsent.sector_fun (by decide)]
  exact ⟨hboot, hcause, hready, hserving, haligned,
    hbytes.trans ⟨congrArg (·.mem) hsent.gddr_eq, fun n => congrArg (·.mem) (congrFun (hsent.sector_fun (by decide)) n)⟩,
    hkeeps.trans (hsent.mono (by decide))⟩

end Sys2Proof.Machine
end

section
/-! PROOF. Power-on reset release, the sectors' waves and repairs (17 R428, R436), device and cold resets (17 R439, R441; 16 R413, R414,
R425; 22 R534; O53). -/

namespace Sys2Proof.Machine

variable {s : State}

theorem powerOnResetRelease_starts (m : Bool) (hpor : s.ao.porReleased = false) : ∃ t, exec (.powerOnResetRelease m) s = .next t ∧
    t.ao = { s.ao with porReleased := true, mgtI3c := m, time := 0 } ∧ State.KeepsBut [.ao] s t := by
  refine ⟨s.modAo fun a => { a with porReleased := true, mgtI3c := m, time := 0 }, congrArg Host.Outcome.next (if_neg ?_), rfl, by simp⟩
  simp [hpor]

/-! ### Waves -/

/-- The soft repairs of a wave. -/
def SectorSt.softRepaired (q : SectorSt) (r : Nat) : SectorSt := { q with
  softUsed := if r = 0 then q.softUsed else min 255 (q.softUsed + r)
  spareElem := q.spareElem - r, softPending := r != 0 || q.softPending }

/-- A wave in which no bank fails leaves its soft repairs. -/
theorem State.waveResult_sound {n r : Nat} : (s.waveResult n 0 r).sector n = (s.sector n).softRepaired r ∧
    State.SectorsBut [n] s (s.waveResult n 0 r) ∧ State.KeepsBut [.sectors] s (s.waveResult n 0 r) := by
  have hbanks : s.waveResult n 0 r = s.softRepair n r := List.foldl_fixed' (fun b => by simp [nbit]) _
  rw [hbanks]
  unfold State.softRepair SectorSt.softRepaired
  split
  next h =>
    subst h
    exact ⟨by simp, .of_eq rfl, .refl⟩
  next h =>
    refine ⟨?_, State.sectorsBut_setSector (List.mem_singleton_self n), by simp⟩
    rw [State.modSector_def, State.sector_setSector_self]
    simp [h]

/-- A sector's wave ends. -/
def SectorSt.waved (q : SectorSt) (f : BitVec 17) (banks : Word64) : SectorSt :=
  { q with powered := true, up := f == 0 && banks == 0, waveFailed := f }

theorem sectorWaveEnd_powers {n : SectorId} {f : BitVec 17} {r : Nat} (hstep : s.boot.crStep ≠ 5) (hnext : s.boot.next = 5)
    (hreset : s.ao.inReset = false) (htrip : s.ao.tripped = false) (hfirst : nbit s.boot.waves n.val = false)
    (hbefore : ∀ i, i < 8 → i % 4 < n.val % 4 → nbit s.boot.waves i = true) :
    ∃ t, exec (.sectorWaveEnd n f 0 r) s = .next t ∧
      t.sector n.val = { s.sector n.val with
        powered := true, up := f == 0, waveFailed := f
        softUsed := if r = 0 then (s.sector n.val).softUsed else min 255 ((s.sector n.val).softUsed + r)
        spareElem := (s.sector n.val).spareElem - r, softPending := r != 0 || (s.sector n.val).softPending } ∧
      t.boot = { s.boot with waves := nsetBit s.boot.waves n.val } ∧ State.SectorsBut [n.val] s t ∧
      State.KeepsBut [.sectors, .boot] s t := by
  have hturn : ((upTo 8).any fun i => i % 4 < n.val % 4 && !nbit s.boot.waves i) = false :=
    List.any_eq_false.mpr fun i hi => by
      by_cases hlt : i % 4 < n.val % 4
      · simp [hbefore i (mem_upTo.mp hi) hlt]
      · simp [hlt]
  have hexec : exec (.sectorWaveEnd n f 0 r) s = .next
      { (s.modSector n.val fun q => q.waved f 0).waveResult n.val 0 r with
        boot := { s.boot with waves := nsetBit s.boot.waves n.val } } := by
    change execSectorWaveEnd n f 0 r s = _
    unfold execSectorWaveEnd
    dsimp only
    rw [if_neg hstep]
    refine congrArg Host.Outcome.next (if_neg ?_)
    rw [hnext, hreset, htrip, hfirst, hturn]
    decide
  obtain ⟨hsector, hbut, hkeeps⟩ := State.waveResult_sound (s := s.modSector n.val fun q => q.waved f 0) (n := n.val) (r := r)
  have hwaved : (s.modSector n.val fun q => q.waved f 0).sector n.val = (s.sector n.val).waved f 0 := State.sector_setSector_self ..
  rw [hwaved] at hsector
  have hbut' : State.SectorsBut [n.val] s (s.modSector n.val fun q => q.waved f 0) :=
    State.sectorsBut_setSector (List.mem_singleton_self _)
  refine ⟨_, hexec, hsector.trans ?_, rfl, hbut'.trans hbut, ?_⟩
  · simp [SectorSt.softRepaired, SectorSt.waved]
  · refine .trans (.trans (u := (s.modSector n.val fun q => q.waved f 0).waveResult n.val 0 r) (by simp) (hkeeps.mono (by decide)))
      fun p hp => ?_
    cases p <;> first | rfl | exact absurd (by decide) hp

/-- Repairs that wait are written to the flash. -/
theorem softRepairFlashWrite_writes {n : SectorId} (hpending : (s.sector n.val).softPending = true) :
    ∃ t, exec (.softRepairFlashWrite n) s = .next t ∧ t.sector n.val = { s.sector n.val with softPending := false } ∧
      t.sec = { s.sec with flashSoft := Tab.set s.sec.flashSoft 0 n.val (min 256 (s.sector n.val).softUsed) } ∧
      State.SectorsBut [n.val] s t ∧ State.KeepsBut [.sectors, .sec] s t := by
  refine ⟨(s.modSector n.val fun q => { q with softPending := false }).modSec fun x => { x with
      flashSoft := Tab.set x.flashSoft 0 n.val (min 256 (s.sector n.val).softUsed) }, congrArg Host.Outcome.next (if_neg ?_),
    State.sector_setSector_self .., rfl, ?_, ?_⟩
  · simp [hpending]
  · exact State.sectorsBut_setSector (s := s) (List.mem_singleton_self _)
  · simp

/-! ### Device reset -/

theorem deviceResetAssert_ignores {pin : ResetPin} {low : Nat} {taken : Bool} (h : low < 20 ∨ low < 1000 ∧ taken = false) :
    exec (.deviceResetAssert pin low taken) s = .next s :=
  congrArg Host.Outcome.next (if_pos (by simpa using h))

/-- Accepted writes that wait are all that a device reset still serves. -/
theorem State.drainGddr_keeps : State.KeepsBut [.gddr, .ctr, .free] s s.drainGddr := State.serveAll_keeps _

theorem State.drainGddr_idle (h : s.gddr.held = []) : s.drainGddr = s := by
  unfold State.drainGddr
  rw [h]
  rfl

/-- Everything outside the always-on domain is at its reset value; fuses, flash, fault log and the contents of GDDR6 stay. -/
theorem State.deviceReset_resets {cause : Nat} {failed : Bool} :
    (s.deviceReset cause failed).ao = s.ao.resetDevice cause failed ∧ (s.deviceReset cause failed).boot.devReady = false ∧
    (s.deviceReset cause failed).nets = [] ∧ (s.deviceReset cause failed).cores = [] ∧ (s.deviceReset cause failed).flows = [] ∧
    (s.deviceReset cause failed).pcie = {} ∧ (s.deviceReset cause failed).fault.log = s.fault.log ∧
    (s.deviceReset cause failed).sec = s.sec.rebooted ∧
    (s.gddr.held = [] → (s.deviceReset cause failed).gddr.mem = s.gddr.mem) ∧
    (s.deviceReset cause failed).board = s.board ∧ (s.deviceReset cause failed).pending = s.pending := by
  have hdrain := s.drainGddr_keeps
  refine ⟨?_, rfl, rfl, rfl, rfl, rfl, ?_, ?_, fun hidle => ?_, ?_, ?_⟩
  · change s.drainGddr.ao.resetDevice cause failed = _
    rw [hdrain.ao_eq]
  · change s.drainGddr.fault.log = _
    rw [hdrain.fault_eq]
  · change s.drainGddr.sec.rebooted = _
    rw [hdrain.sec_eq]
  · change s.drainGddr.gddr.mem = _
    rw [s.drainGddr_idle hidle]
  · exact hdrain.board_eq
  · exact hdrain.pending_eq

theorem deviceResetAssert_resets (hpor : s.ao.porReleased = true) (hnext : s.boot.next ≠ 1) (hreset : s.ao.inReset = false)
    {pin : ResetPin} {low : Nat} {taken : Bool} (hlow : 1000 ≤ low ∨ 20 ≤ low ∧ taken = true) :
    ∃ t, exec (.deviceResetAssert pin low taken) s = .next t ∧
      t.ao.inReset = true ∧ t.ao.resetCause = (if pin = .perst then 1 else 2) ∧ t.ao.serving = false ∧
      t.ao.time = s.ao.time ∧ t.boot.devReady = false ∧ t.nets = [] ∧ t.cores = [] ∧ t.flows = [] ∧ t.pcie = {} ∧
      t.fault.log = s.fault.log ∧ t.sec = s.sec.rebooted ∧ (s.gddr.held = [] → t.gddr.mem = s.gddr.mem) ∧
      t.board = s.board ∧ t.pending = s.pending := by
  have hlong : (low < 20 || (low < 1000 && !taken)) = false := by
    obtain h | ⟨h, rfl⟩ := hlow
    · simp
      omega
    · simp
      omega
  have hexec : exec (.deviceResetAssert pin low taken) s =
      .next ((s.modAo fun a => a.pinLevel pin false).deviceReset (if pin = .perst then 1 else 2) false) := by
    change execDeviceResetAssert pin low taken s = _
    unfold execDeviceResetAssert
    rw [hlong, if_neg Bool.false_ne_true]
    refine congrArg Host.Outcome.next (if_neg ?_)
    cases pin <;> simp [AoSt.pinLevel, hpor, hnext, hreset]
  obtain ⟨hao, hothers⟩ := State.deviceReset_resets (s := s.modAo fun a => a.pinLevel pin false)
    (cause := if pin = .perst then 1 else 2) (failed := false)
  refine ⟨_, hexec, ?_, ?_, ?_, ?_, hothers⟩ <;> rw [hao] <;> cases pin <;> simp [AoSt.resetDevice, AoSt.pinLevel]

theorem vcoreResetCrossing_resets (hpor : s.ao.porReleased = true) (hnext : s.boot.next ≠ 1) (hreset : s.ao.inReset = false)
    (d : Bool) (htrip : s.ao.tripped = false) :
    ∃ t, exec (.vcoreResetCrossing d) s = .next t ∧ t.ao.resetCause = 3 ∧
      t.ao.srFailed = !d ∧ t.ao.serving = false ∧ t.ao.time = s.ao.time ∧ t.boot.devReady = false ∧ t.nets = [] ∧
      t.cores = [] ∧ t.flows = [] ∧ t.pcie = {} ∧ t.fault.log = s.fault.log ∧ t.sec = s.sec.rebooted ∧
      (s.gddr.held = [] → t.gddr.mem = s.gddr.mem) ∧ t.board = s.board ∧ t.pending = s.pending := by
  have hexec : exec (.vcoreResetCrossing d) s = .next (s.deviceReset 3 (!d)) := by
    change execVcoreResetCrossing d s = _
    unfold execVcoreResetCrossing
    rw [if_neg (by simp [hpor, htrip, hnext]), if_neg (by simp [hreset])]
  obtain ⟨hao, hothers⟩ := s.deviceReset_resets (cause := 3) (failed := !d)
  refine ⟨_, hexec, ?_, ?_, ?_, ?_, hothers⟩ <;> rw [hao] <;> rfl

/-- With the later pin high the device leaves the reset. -/
theorem deviceResetRelease_releases {pin : ResetPin} (htrip : s.ao.tripped = false) (hperst : pin = .perst ∨ s.ao.perstHigh = true)
    (hother : pin = .reset ∨ s.ao.resetHigh = true) : ∃ t, exec (.deviceResetRelease pin) s = .next t ∧
      t.ao = { s.ao with perstHigh := true, resetHigh := true, inReset := false } ∧ State.KeepsBut [.ao] s t := by
  have hlevels : s.ao.pinLevel pin true = { s.ao with perstHigh := true, resetHigh := true } := by
    cases pin with
    | perst =>
      obtain h | h := hother
      · exact nomatch h
      · rw [← h]; rfl
    | reset =>
      obtain h | h := hperst
      · exact nomatch h
      · rw [← h]; rfl
  have hexec : exec (.deviceResetRelease pin) s =
      .next ((s.modAo fun a => a.pinLevel pin true).modAo fun a => { a with inReset := false }) := by
    refine congrArg Host.Outcome.next (if_neg ?_)
    change ¬ ((!(s.ao.pinLevel pin true).perstHigh || !(s.ao.pinLevel pin true).resetHigh || (s.ao.pinLevel pin true).tripped) = true)
    rw [hlevels]
    simp [htrip]
  refine ⟨_, hexec, ?_, by simp⟩
  change { s.ao.pinLevel pin true with inReset := false } = _
  rw [hlevels]

end Sys2Proof.Machine
end

section
/-! SUPPORT. What the parts of a reset leave of memory (17 R442, R444): nothing that drops what a core or a router holds, closes a queue or
ends a command touches a byte, and most of it stays in one sector. -/

namespace Sys2Proof.Machine

variable {s t u : State} {n c : Nat}

/-! ### No byte differs -/

theorem State.SameBytes.refl : s.SameBytes s := ⟨rfl, fun _ => rfl⟩

theorem State.SameBytes.foldl {β : Type} {f : State → β → State} (hf : ∀ (s : State) x, s.SameBytes (f s x)) (l : List β)
    (s : State) : s.SameBytes (l.foldl f s) := by
  induction l generalizing s with
  | nil => exact .refl
  | cons x l ih => exact (hf s x).trans (ih _)

theorem State.SameBytes.ite {p : Prop} [Decidable p] (ht : s.SameBytes t) (hu : s.SameBytes u) : s.SameBytes (if p then t else u) := by
  split
  · exact ht
  · exact hu

/-- What touches neither GDDR6 nor the sectors leaves every byte. -/
theorem State.KeepsBut.sameBytes {l : List Part} (h : State.KeepsBut l s t) (hg : Part.gddr ∉ l := by decide)
    (hs : Part.sectors ∉ l := by decide) : s.SameBytes t :=
  ⟨congrArg (·.mem) (h.gddr_eq hg), fun n => congrArg (·.mem) (congrFun (h.sector_fun hs) n)⟩

theorem State.sameBytes_modSector {f : SectorSt → SectorSt} (h : ∀ q, (f q).mem = q.mem) : s.SameBytes (s.modSector n f) := by
  refine ⟨rfl, fun m => ?_⟩
  rw [State.modSector_def]
  by_cases hm : m = n
  · rw [hm, State.sector_setSector_self, h]
  · rw [State.sector_setSector_ne _ _ _ _ hm]

/-! ### A reset inside one sector -/

/-- Between s and t no byte of memory differs, no sector but n, and of the other parts only cores, flows and counters. -/
structure State.ResetsIn (n : Nat) (s t : State) : Prop where
  bytes : s.SameBytes t
  sectors : State.SectorsBut [n] s t
  keeps : State.KeepsBut [.sectors, .cores, .flows, .ctr, .snap] s t

namespace State.ResetsIn

theorem refl : State.ResetsIn n s s := ⟨.refl, fun _ _ => rfl, .refl⟩

theorem trans (h : State.ResetsIn n s t) (h' : State.ResetsIn n t u) : State.ResetsIn n s u :=
  ⟨h.bytes.trans h'.bytes, h.sectors.trans h'.sectors, h.keeps.trans h'.keeps⟩

theorem foldl {β : Type} {f : State → β → State} (hf : ∀ s x, State.ResetsIn n s (f s x)) (l : List β) (s : State) :
    State.ResetsIn n s (l.foldl f s) := by
  induction l generalizing s with
  | nil => exact .refl
  | cons x l ih => exact (hf s x).trans (ih _)

theorem ite {p : Prop} [Decidable p] (ht : State.ResetsIn n s t) (hu : State.ResetsIn n s u) :
    State.ResetsIn n s (if p then t else u) := by
  split
  · exact ht
  · exact hu

theorem of_keeps {l : List Part} (h : State.KeepsBut l s t) (hl : l ⊆ [.cores, .flows, .ctr, .snap] := by decide) :
    State.ResetsIn n s t := by
  have h' := h.mono hl
  exact ⟨h'.sameBytes, .of_eq (h'.sector_fun (by decide)), h'.mono (by decide)⟩

theorem modSector {f : SectorSt → SectorSt} (h : ∀ q, (f q).mem = q.mem) : State.ResetsIn n s (s.modSector n f) :=
  ⟨State.sameBytes_modSector h, State.sectorsBut_setSector (List.mem_singleton_self n), by simp⟩

theorem of_notes {cs : List Nat} {k : CoreSt} (h : s.Becomes [] cs c k t) : State.ResetsIn (sectorOf c) s t :=
  ⟨h.sameBytes, h.sectors, h.keepsBut⟩

end State.ResetsIn

/-! ### What a core holds is dropped -/

theorem State.evDone_keeps {e : EvItem} : State.KeepsBut [.cores, .flows] s (s.evDone e) := by
  have hcredit : State.KeepsBut [.cores, .flows] s (if e.token && fld e.ev 57 48 < 128 then
      s.modCore (fld e.ev 57 48) fun k => { k with creditUsed := k.creditUsed - 1 } else s) := .ite (by simp) .refl
  dsimp only [State.evDone]
  split
  · exact hcredit
  · exact hcredit.trans (by simp)

theorem State.resetsIn_evsDone {l : List EvItem} : State.ResetsIn n s (s.evsDone l) := .foldl (fun _ _ => .of_keeps State.evDone_keeps) _ _

theorem State.resetsIn_countDev {i sub k : Nat} : State.ResetsIn n s (s.countDev i sub k) := .of_keeps (l := [.ctr]) (by simp)

theorem State.resetsIn_modCore {f : CoreSt → CoreSt} : State.ResetsIn n s (s.modCore c f) := .of_keeps (l := [.cores]) (by simp)

theorem State.resetsIn_clearCtrs {scope i : Nat} : State.ResetsIn n s (s.clearCtrs scope i) :=
  .of_keeps (l := [.ctr, .snap]) fun p hp => by cases p <;> first | rfl | exact absurd (by decide) hp

theorem State.resetsIn_dropReset : State.ResetsIn (sectorOf c) s (s.dropReset c) := by
  unfold State.dropReset State.dropHeld
  refine .trans (.trans (.trans State.resetsIn_modCore (.modSector fun q => ?_)) State.resetsIn_evsDone) State.resetsIn_countDev
  split <;> rfl

/-! ### Queues close -/

theorem State.resetsIn_modIn {p : Nat} {f : InPort → InPort} : State.ResetsIn n s (s.modIn n p f) := .modSector fun _ => rfl

theorem State.resetsIn_closeQueue {q : Nat} : State.ResetsIn (sectorOf c) s (s.closeQueue c q) := by
  have hcount {s : State} {i sub k : Nat} : State.ResetsIn (sectorOf c) s (s.countCoreSub c i sub k) :=
    .of_notes (cs := []) State.notes_countCoreSub
  have hstatus {s : State} {d : Desc} {kind reason result : Nat} :
      State.ResetsIn (sectorOf c) s (s.sendStatus (sectorOf c) d kind reason result) := by
    unfold State.sendStatus State.offer
    exact State.resetsIn_modIn
  unfold State.closeQueue
  dsimp only
  split
  · exact .refl
  · refine .trans (.trans State.resetsIn_modCore (.foldl (fun u e => ?_) _ _)) (.foldl (fun u e => hstatus.trans hcount) _ _)
    exact .ite hcount (hstatus.trans hcount)

theorem State.resetsIn_resetDesc : State.ResetsIn (sectorOf c) s (s.resetDesc c) := by
  unfold State.resetDesc
  exact .trans (.foldl (fun _ _ => State.resetsIn_closeQueue) _ _) State.resetsIn_modCore

/-! ### A core is cleared -/

/-- A core is cleared once the commands parked on it have ended. -/
theorem State.resetsIn_clearCore : State.ResetsIn (sectorOf c) (s.failParked c) (s.clearCore c) :=
  .trans (.trans (.trans State.resetsIn_dropReset State.resetsIn_resetDesc)
    (.of_keeps (l := [.cores]) (by simp))) State.resetsIn_clearCtrs

theorem State.core_clearCore : (s.clearCore c).core c = {} := by
  have hclear (u : State) : ((u.setCore c {}).clearCtrs Scope.core c).core c = (u.setCore c {}).core c := rfl
  exact (hclear _).trans (State.core_setCore_self ..)

theorem State.failParked_idle (hhost : (s.core c).hostMb = 0) (hsnap : (s.core c).snapWait = 0) : s.failParked c = s := by
  unfold State.failParked
  dsimp only
  rw [hhost, hsnap]
  rfl

theorem State.sameBytes_traceRing {bit kind unit mark a b : Nat} : s.SameBytes (s.traceRing bit kind unit mark a b) :=
  .ite (State.notes_traceSector (l := []) (cs := []) (c := 0)).sameBytes .refl

theorem State.sameBytes_complete {m : Nat} {e : JEntry} {code reason : Nat} {inline : List Byte} {k : Nat} {short : Bool} :
    s.SameBytes (s.complete m e code reason inline k short) := by
  have hset (r : List Byte) : State.KeepsBut mailParts s (s.modMb m fun b => { b with
      journal := putEntry b.journal { e with st := 2, record := r }, highDone := max b.highDone e.seq }) := by simp
  exact ((hset _).trans State.keepsBut_showRecord).sameBytes.trans State.sameBytes_traceRing

theorem State.sameBytes_wakeCmd {m : Nat} {f : State → Nat → JEntry → State} (hf : ∀ (s : State) m e, s.SameBytes (f s m e)) :
    s.SameBytes (s.wakeCmd m f) := by
  unfold State.wakeCmd
  split
  · exact .refl
  · split
    · exact .refl
    · exact hf _ _ _

theorem State.sameBytes_failParked : s.SameBytes (s.failParked c) := by
  unfold State.failParked
  exact .trans (State.sameBytes_wakeCmd fun _ _ _ => State.sameBytes_complete) (State.sameBytes_wakeCmd fun _ _ _ => State.sameBytes_complete)

theorem State.sameBytes_clearCore : s.SameBytes (s.clearCore c) := State.sameBytes_failParked.trans State.resetsIn_clearCore.bytes

/-! ### A sector is cleared -/

theorem State.resetsIn_dropTransit : State.ResetsIn n s (s.dropTransit n) := by
  unfold State.dropTransit
  refine .trans (.trans (.modSector ?_) State.resetsIn_evsDone) State.resetsIn_countDev
  exact fun _ => rfl

theorem State.sameBytes_requeue {m : Nat} : s.SameBytes (s.requeue m) := by
  unfold State.requeue
  split
  · exact .refl
  · exact State.KeepsBut.sameBytes (l := [.mbox]) (by simp)

theorem State.sameBytes_rqWrite {e : EvItem} : s.SameBytes (s.rqWrite c e) := by
  have hdrop {s : State} {i x : Nat} : s.SameBytes (s.dropCore c i x) := (State.notes_dropCore (l := []) (cs := [])).sameBytes
  have hdone {s : State} : s.SameBytes (s.evDone e) := State.evDone_keeps.sameBytes
  have hcount {s : State} {i : Nat} : s.SameBytes (s.countCore c i) := (State.notes_countCore (l := []) (cs := [])).sameBytes
  have hraise {s : State} {k i : Nat} : s.SameBytes (s.raiseNet k i) :=
    (State.notes_raiseNet (l := [.nets, .pcie, .out]) (cs := []) (c := c) (by decide) (by decide) (by decide)).sameBytes
  have hset {s : State} {k : CoreSt} : s.SameBytes (s.setCore c k) := State.KeepsBut.sameBytes (l := [.cores]) (by simp)
  unfold State.rqWrite
  dsimp only
  split
  · exact hdrop.trans hdone
  · split
    · exact .trans (.trans (.trans (.trans hset hcount) hdrop) hraise) hdone
    · split
      · exact hdrop.trans hdone
      · exact hset.trans (State.notes_level (l := []) (cs := [])).sameBytes

theorem State.sameBytes_abandonMig : s.SameBytes (s.abandonMig n) := by
  unfold State.abandonMig
  split
  · exact .refl
  · refine .trans (.trans (State.sameBytes_modSector ?_) (.foldl (fun _ _ => State.sameBytes_rqWrite) _ _))
      (.ite .refl State.sameBytes_requeue)
    exact fun _ => rfl

theorem State.sameBytes_endOutstanding : s.SameBytes (s.endOutstanding n) := by
  unfold State.endOutstanding
  refine .foldl (fun u c => ?_) _ _
  dsimp only
  split
  · exact .refl
  · refine .trans (t := if _ then _ else _) (.ite .refl ?_) (.foldl (fun v o => ?_) _ _)
    · exact State.KeepsBut.sameBytes (l := [.cores]) (by simp)
    · exact State.sameBytes_modSector fun _ => rfl

/-- What a sector holds beside its memory is dropped. -/
def State.emptied (s : State) (n : Nat) : State :=
  ((((Tab.keys (s.abandonMig n).cores).filter fun c => sectorOf c == n).foldl State.clearCore (s.abandonMig n)).endOutstanding n).dropTransit n

theorem State.clearSector_eq : s.clearSector n = ((s.emptied n).modSector n SectorSt.cleared).clearCtrs Scope.sector n := rfl

theorem State.sameBytes_emptied : s.SameBytes (s.emptied n) :=
  .trans (.trans (.trans State.sameBytes_abandonMig (.foldl (fun _ _ => State.sameBytes_clearCore) _ _)) State.sameBytes_endOutstanding)
    State.resetsIn_dropTransit.bytes

theorem State.clearSector_mem_self : ((s.clearSector n).sector n).mem = [] := by
  have hcleared (u : State) : ((u.modSector n SectorSt.cleared).clearCtrs Scope.sector n).sector n = (u.sector n).cleared :=
    State.sector_setSector_self ..
  rw [State.clearSector_eq, hcleared]
  rfl

theorem State.clearSector_mem_ne {m : Nat} (h : m ≠ n) : ((s.clearSector n).sector m).mem = (s.sector m).mem := by
  have hcleared (u : State) : ((u.modSector n SectorSt.cleared).clearCtrs Scope.sector n).sector m = u.sector m :=
    State.sector_setSector_ne _ _ _ _ h
  rw [State.clearSector_eq, hcleared]
  exact State.sameBytes_emptied.2 m

end Sys2Proof.Machine
end

section
/-! PROOF. Compute-partition, sector and core resets (17 R442, R444; 09 R231; O53). -/

namespace Sys2Proof.Machine

variable {s : State}

/-! ### Compute-partition reset -/

theorem exec_computeResetStepEnd {k : Nat} (hk : s.boot.crStep = k) (hpos : 1 ≤ k) (hlt : k < 8) : exec .computeResetStepEnd s =
    .next (s.platform { s.crStepEnd k with boot := { (s.crStepEnd k).boot with crStep := k + 1 } }) := by
  change execComputeResetStepEnd s = _
  unfold execComputeResetStepEnd
  dsimp only
  rw [hk, if_neg (by omega), if_neg (by omega)]

/-- Step 2 leaves no byte in sector memory. -/
theorem State.mem_clearCompute {n : Nat} (hn : n < 8) : (s.clearCompute.sector n).mem = [] := by
  have hcleared := foldl_each (fun u n => (u.sector n).mem) (fun _ => ()) (f := State.clearSector) (fun _ _ _ => [])
    (fun _ _ => State.clearSector_mem_self) (fun _ _ _ hc => State.clearSector_mem_ne hc) (fun _ _ => rfl) (upTo_nodup 8) s n
  rw [if_pos (mem_upTo.mpr hn)] at hcleared
  have hcounters {u : State} {scope : Nat} {l : List Nat} :
      ((l.foldl (fun t i => t.clearCtrs scope i) u).sector n).mem = (u.sector n).mem :=
    foldl_keeps (f := fun t i => t.clearCtrs scope i) (fun u => (u.sector n).mem) (fun _ _ => rfl) l u
  have hflows (u : State) (x : Tab FlowSt) : (({ u with flows := x } : State).sector n).mem = (u.sector n).mem := rfl
  unfold State.clearCompute
  dsimp only
  rw [hflows, hcounters, hcounters]
  exact hcleared

theorem computeResetStepEnd_steps (hpos : 1 ≤ s.boot.crStep) (hlt : s.boot.crStep < 8) :
    ∃ t, exec .computeResetStepEnd s = .next t ∧ t.boot.crStep = s.boot.crStep + 1 ∧
      (s.boot.crStep = 2 → ∀ n, n < 8 → (t.sector n).mem = []) := by
  refine ⟨_, exec_computeResetStepEnd rfl hpos hlt, ?_, fun htwo n hn => ?_⟩
  · rw [State.platform_keeps.boot_eq]
  · have hclear : s.crStepEnd 2 = s.clearCompute := rfl
    have hsector (u : State) (b : BootSt) : ({ u with boot := b } : State).sector = u.sector := rfl
    rw [State.platform_keeps.sector_fun (by decide), htwo, hclear, hsector]
    exact State.mem_clearCompute hn

theorem computeResetStepEnd_aligns (hstep : s.boot.crStep = 6) :
    ∃ t, exec .computeResetStepEnd s = .next t ∧ t.boot = { s.boot with crStep := 7 } ∧
      (∀ n, n < 8 → (t.sector n).frame t.now = 0 ∧ (t.sector n).pulseAt = s.now ∧ (t.sector n).aligned = true) ∧
      s.SameBytes t ∧ State.KeepsBut [.sectors, .boot] s t := by
  have hexec := exec_computeResetStepEnd hstep (by decide) (by decide)
  have hframe := State.alignPulse_frame (s := s)
  have haligned {n : Nat} (hn : n < 8) := s.alignPulse_aligns hn
  have hbytes := State.sameBytes_alignPulse (s := s)
  have hgated (n : Nat) : (s.alignPulse.sector n).gated = (s.sector n).gated := State.get_alignPulse (·.gated)
  change exec _ s = .next (s.platform { s.alignPulse with boot := { s.alignPulse.boot with crStep := 7 } }) at hexec
  generalize s.alignPulse = u at hexec hframe haligned hbytes hgated
  have hboot := hframe.boot_eq
  have hsensors : ({ u with boot := { u.boot with crStep := 7 } } : State).sensor = s.sensor :=
    State.sensor_congr (congrArg (·.pstate) hframe.ao_eq) (congrArg (·.emergency) hframe.ao_eq) (congrArg (·.throttle) hframe.ao_eq)
      hgated hframe.fault_eq (congrArg (·.devReady) hboot) (congrArg (·.linksReady) hboot)
  rw [s.platform_of_sensor_eq hsensors] at hexec
  refine ⟨_, hexec, by rw [hboot], fun n hn => ?_, hbytes.trans ⟨rfl, fun _ => rfl⟩, .trans (hframe.mono (by decide)) fun p hp => ?_⟩
  · obtain ⟨hzero, halign, hpulse⟩ := haligned hn
    exact ⟨hzero, hpulse, halign⟩
  · cases p <;> first | rfl | exact absurd (by decide) hp

theorem exec_computeResetStepEnd_last (hstep : s.boot.crStep = 8) : exec .computeResetStepEnd s = .next (s.platform s.crDone) := by
  change execComputeResetStepEnd s = _
  unfold execComputeResetStepEnd
  dsimp only
  rw [hstep]
  rfl

/-- The compute partition serves again. -/
def State.resumed (s : State) : State := { s with boot := { s.boot with crStep := 0, phase := 7, crWaiters := [] } }.serve

theorem State.resumed_keeps : State.KeepsBut [.ao, .boot] s s.resumed := fun p hp => by
  cases p <;> first | rfl | exact absurd (by decide) hp

theorem State.ensignResume_idle (h : s.ao.ensignPending = 0) : s.ensignResume = s := if_pos h

theorem computeResetStepEnd_serves (hstep : s.boot.crStep = 8) (hensign : s.ao.ensignPending = 0) (hwaiters : s.boot.crWaiters = []) :
    ∃ t, exec .computeResetStepEnd s = .next t ∧ t.boot = { s.boot with crStep := 0, phase := 7 } ∧
      t.ao = { s.ao with serving := true, hbStamp := s.now } ∧ State.KeepsBut [.ao, .boot] s t := by
  have hdone : s.crDone = s.resumed := by
    unfold State.crDone
    dsimp only
    rw [hwaiters]
    exact State.ensignResume_idle hensign
  have hsensors : s.resumed.sensor = s.sensor := State.sensor_congr rfl rfl rfl (fun _ => rfl) rfl rfl rfl
  refine ⟨s.resumed, ?_, ?_, rfl, State.resumed_keeps⟩
  · rw [exec_computeResetStepEnd_last hstep, hdone, s.platform_of_sensor_eq hsensors]
  · change { s.boot with crStep := 0, phase := 7, crWaiters := [] } = _
    rw [← hwaiters]

theorem computeResetStepEnd_finishes {m : Nat} {e : JEntry} (hstep : s.boot.crStep = 8) (hensign : s.ao.ensignPending = 0)
    (hwaiters : s.boot.crWaiters = [m + 1]) (hparked : s.parked m = some e) (htrace : s.traceOn = false) :
    ∃ t, exec .computeResetStepEnd s = .next t ∧ t.boot = { s.boot with crStep := 0, phase := 7, crWaiters := [] } ∧
      t.ao = { s.ao with serving := true, hbStamp := s.now } ∧ s.Completes t m e codeDone 0 ∧
      State.KeepsBut (mailParts ++ [Part.ao, .boot]) s t := by
  have hparked' : s.resumed.parked m = some e := hparked
  have htrace' : s.resumed.traceOn = false := htrace
  have hkeeps : State.KeepsBut mailParts s.resumed (s.resumed.finish m e) := State.keepsBut_complete_off htrace'
  have hends : s.resumed.Completes (s.resumed.finish m e) m e codeDone 0 :=
    State.completes_complete htrace' (List.mem_of_find?_eq_some hparked') rfl
  have hdone : s.crDone = s.resumed.finish m e := by
    unfold State.crDone
    dsimp only
    rw [hwaiters]
    have hwake : s.resumed.wakeCmd (m + 1) (fun u m e => u.finish m e) = s.resumed.finish m e := by
      rw [State.wakeCmd, if_neg (Nat.succ_ne_zero m), Nat.add_sub_cancel, hparked']
    refine (congrArg State.ensignResume hwake).trans (State.ensignResume_idle ?_)
    rw [hkeeps.ao_eq]
    exact hensign
  have hsent := State.platform_keeps (s0 := s) (s := s.resumed.finish m e)
  refine ⟨_, exec_computeResetStepEnd_last hstep, ?_⟩
  rw [hdone]
  refine ⟨?_, ?_, ?_, ?_⟩
  · rw [hsent.boot_eq, hkeeps.boot_eq]
    rfl
  · rw [hsent.ao_eq, hkeeps.ao_eq]
    rfl
  · exact hends.carry (s := s.resumed) rfl (fun _ _ => rfl) hsent.mbox_eq
  · exact .trans (.trans (State.resumed_keeps.mono (by decide)) (hkeeps.mono (by decide))) (hsent.mono (by decide))

/-! ### Sector and core resets -/

/-- While no network runs there is none to halt. -/
theorem State.haltNets_idle (h : ∀ k, (s.net k).running = false) (p : Nat → Bool) : s.haltNets p = s := by
  refine List.foldl_fixed' (fun k => ?_) _
  have hkeep : s.copyLeft k p = [] := by simp [State.copyLeft, h k]
  have hhalt : s.haltNow k = s := by simp [State.haltNow, h k]
  dsimp only
  rw [hkeep, hhalt]
  simp

/-- The entry of a reset in the fault log. -/
theorem State.noticed_log {src unit action : Nat} : (s.logFault classNotice src unit action).fault.log =
    (faultEntry s.now classNotice src unit action 0 s.ao.epoch 0 :: s.fault.log).take 16384 := by
  rw [State.logFault_fault]
  rfl

theorem State.logFault_frame {cls src unit action : Nat} : State.KeepsBut [.fault, .pcie, .out, .ctr] s (s.logFault cls src unit action) := by
  simp

theorem SectorSt.cleared_dropTransit {n : Nat} : ((s.dropTransit n).sector n).cleared = (s.sector n).cleared := by
  unfold State.dropTransit
  dsimp only
  have hdone {u : State} {l : List EvItem} : (u.evsDone l).sector = u.sector :=
    foldl_keeps State.sector (fun _ _ => State.evDone_keeps.sector_fun (by decide)) l u
  have hcount {u : State} {i sub k : Nat} : (u.countDev i sub k).sector = u.sector :=
    State.KeepsBut.sector_fun (l := [.ctr]) (by simp) (by decide)
  rw [hcount, hdone, State.modSector_def, State.sector_setSector_self]
  rfl

/-- A sector without an image and without cores in use is cleared, and no more. -/
theorem State.resetOneSector_idle {n : Nat} (hnets : ∀ k, (s.net k).running = false) (himages : s.images = []) (hcores : s.cores = [])
    (hmig : (s.sector n).mig = none) :
    s.resetOneSector n = ((s.dropTransit n).modSector n SectorSt.cleared).clearCtrs Scope.sector n := by
  have habandon : s.abandonMig n = s := by
    unfold State.abandonMig
    rw [hmig]
  have hend : s.endOutstanding n = s := by
    unfold State.endOutstanding
    rw [hcores]
    rfl
  have hemptied : s.emptied n = s.dropTransit n := by
    unfold State.emptied
    rw [habandon, hcores]
    exact congrArg (·.dropTransit n) hend
  have hclear : s.clearSector n = ((s.dropTransit n).modSector n SectorSt.cleared).clearCtrs Scope.sector n := by
    rw [State.clearSector_eq, hemptied]
  have hreload : (s.clearSector n).images = [] := by
    have himages' (u : State) : ((u.modSector n SectorSt.cleared).clearCtrs Scope.sector n).images = u.images := rfl
    rw [hclear, himages', State.resetsIn_dropTransit.keeps.images_eq, himages]
  unfold State.resetOneSector
  rw [State.haltNets_idle hnets, ← hclear]
  unfold State.reloadSector
  rw [hreload]
  rfl

theorem sectorReset_clears {n : SectorId} (hserving : s.ao.serving = true) (hfatal : s.fault.fatal = false)
    (hnets : ∀ k, (s.net k).running = false) (himages : s.images = []) (hcores : s.cores = [])
    (hmig : (s.sector n.val).mig = none) :
    ∃ t, exec (.sectorReset n) s = .next t ∧ t.sector n.val = (s.sector n.val).cleared ∧ (t.sector n.val).mem = [] ∧
      (t.sector n.val).inp = [] ∧ (t.sector n.val).toCore = [] ∧ State.SectorsBut [n.val] s t ∧
      t.fault.log = (faultEntry s.now classNotice 2 (32 * n.val) 3 0 s.ao.epoch 0 :: s.fault.log).take 16384 ∧
      State.KeepsBut [.sectors, .cores, .flows, .ctr, .snap, .fault, .pcie, .out] s t := by
  have hexec : exec (.sectorReset n) s = .next ((s.resetOneSector n.val).logFault classNotice 2 (32 * n.val) 3) :=
    congrArg Host.Outcome.next (if_neg (by simp [hserving, hfatal]))
  have hdrop := State.resetsIn_dropTransit (s := s) (n := n.val)
  have hcleared := SectorSt.cleared_dropTransit (s := s) (n := n.val)
  have hreset := State.resetOneSector_idle hnets himages hcores hmig
  generalize s.dropTransit n.val = u at hdrop hcleared hreset
  have hself : (s.resetOneSector n.val).sector n.val = (s.sector n.val).cleared := by
    rw [hreset, ← hcleared]
    exact State.sector_setSector_self ..
  have hothers : State.SectorsBut [n.val] s (s.resetOneSector n.val) := by
    rw [hreset]
    exact hdrop.sectors.trans (State.sectorsBut_setSector (s := u) (List.mem_singleton_self _))
  have hkeeps : State.KeepsBut [.sectors, .cores, .flows, .ctr, .snap] s (s.resetOneSector n.val) := by
    rw [hreset]
    refine hdrop.keeps.trans (.trans (t := u.modSector n.val SectorSt.cleared) (by simp) fun p hp => ?_)
    cases p <;> first | rfl | exact absurd (by decide) hp
  generalize s.resetOneSector n.val = v at hexec hself hothers hkeeps
  have hlog := State.logFault_frame (s := v) (cls := classNotice) (src := 2) (unit := 32 * n.val) (action := 3)
  have hsector := hlog.sector_fun (by decide)
  refine ⟨_, hexec, ?_⟩
  rw [hsector, hself, State.noticed_log, hkeeps.now_eq (by decide), hkeeps.ao_eq, hkeeps.fault_eq]
  exact ⟨rfl, rfl, rfl, rfl, hothers.trans (.of_eq hsector), rfl, .trans (hkeeps.mono (by decide)) (hlog.mono (by decide))⟩

theorem coreReset_clears {c : CoreId} (hserving : s.ao.serving = true) (hfatal : s.fault.fatal = false)
    (hnets : ∀ k, (s.net k).running = false) (himage : (s.core c.val).image = 0) (hhost : (s.core c.val).hostMb = 0)
    (hsnap : (s.core c.val).snapWait = 0) :
    ∃ t, exec (.coreReset c) s = .next t ∧ t.core c.val = {} ∧ State.SectorsBut [sectorOf c.val] s t ∧
      t.fault.log = (faultEntry s.now classNotice 1 c.val 3 0 s.ao.epoch 0 :: s.fault.log).take 16384 ∧
      s.SameBytes t ∧ State.KeepsBut [.sectors, .cores, .flows, .ctr, .snap, .fault, .pcie, .out] s t := by
  have hreset : s.resetOneCore c.val = s.clearCore c.val := by
    unfold State.resetOneCore
    dsimp only
    rw [State.haltNets_idle hnets, if_pos himage]
  have hexec : exec (.coreReset c) s = .next ((s.clearCore c.val).logFault classNotice 1 c.val 3) := by
    rw [← hreset]
    exact congrArg Host.Outcome.next (if_neg (by simp [hserving, hfatal]))
  have hcore : (s.clearCore c.val).core c.val = {} := State.core_clearCore
  have hclear := State.resetsIn_clearCore (s := s) (c := c.val)
  rw [State.failParked_idle hhost hsnap] at hclear
  generalize s.clearCore c.val = u at hexec hcore hclear
  have hlog := State.logFault_frame (s := u) (cls := classNotice) (src := 1) (unit := c.val) (action := 3)
  refine ⟨_, hexec, ?_, ?_, ?_, hclear.bytes.trans hlog.sameBytes, .trans (hclear.keeps.mono (by decide)) (hlog.mono (by decide))⟩
  · rw [hlog.core_fun (by decide), hcore]
  · exact hclear.sectors.trans (.of_eq (hlog.sector_fun (by decide)))
  · rw [State.noticed_log, hclear.keeps.now_eq (by decide), hclear.keeps.ao_eq, hclear.keeps.fault_eq]

/-- Settles O53: the phases of bring-up and the waves, then the compute-partition, sector and core resets, then device and cold resets. -/
theorem bringupAndResets : Obligations.BringupAndResets := by
  refine ⟨fun s => ⟨fun m => powerOnResetRelease_starts m, fun arg => bringupPhaseEnd_first, fun arg hpor htrip hreset => ?_,
      fun n f r => sectorWaveEnd_powers, fun n => softRepairFlashWrite_writes⟩,
    fun s => ⟨computeResetStepEnd_steps, computeResetStepEnd_aligns,
      fun hstep hensign => ⟨computeResetStepEnd_serves hstep hensign, fun m e => computeResetStepEnd_finishes hstep hensign⟩,
      fun hserving hfatal hnets => ⟨fun n => sectorReset_clears hserving hfatal hnets, fun c => coreReset_clears hserving hfatal hnets⟩⟩,
    fun s => ⟨fun pin low taken => deviceResetAssert_ignores,
      fun hpor hnext hreset => ⟨fun pin low taken => deviceResetAssert_resets hpor hnext hreset,
        vcoreResetCrossing_resets hpor hnext hreset⟩,
      fun pin => deviceResetRelease_releases, fun cause hcause => ⟨s.coldReset cause, by rw [hcause]; rfl, rfl⟩,
      ⟨s.coldReset 0, rfl, rfl⟩⟩⟩
  refine ⟨fun hnext hlc hflash hnorth hsouth hhal hnfence hsfence slot ok hslot hok hchosen hgood => ?_,
    fun err hnext => bringupPhaseEnd_firmwareFails hpor htrip hreset hnext, bringupPhaseEnd_repairs hpor htrip hreset,
    bringupPhaseEnd_configures hpor htrip hreset, bringupPhaseEnd_descriptorFails hpor htrip hreset,
    bringupPhaseEnd_trains hpor htrip hreset, bringupPhaseEnd_calibrates hpor htrip hreset, bringupPhaseEnd_ready hpor htrip hreset⟩
  have hhals (b : Bool) : s.halyardFails arg b = false := by
    have hbit (i : Nat) (hi : i < 2) : nbit s.sec.flashHal i = false := by
      have hlow := Nat.testBit_mod_two_pow s.sec.flashHal 2 i
      rw [show (2 : Nat) ^ 2 = 4 from rfl, hhal] at hlow
      simpa [nbit, hi] using hlow.symm
    cases b
    · simp [State.halyardFails, b2n, hnorth, hbit 0 (by decide), hnfence]
    · simp [State.halyardFails, b2n, hsouth, hbit 1 (by decide), hsfence]
  have hslotGood (k : Nat) : s.slotGood arg k = ok k := (hok k).symm
  exact bringupPhaseEnd_verifies hpor htrip hreset hnext hlc hflash hhals (by rw [hslotGood]; exact hchosen) ((hslotGood slot).trans hgood)

end Sys2Proof.Machine
end
